-- ==== Sys2Proof/Word.lean ====
section
/-!
DEFINITION. The words of the module and the sparse tables its state is made of.

Bytes and register words are bit vectors, because software reads and writes them as words.
Identifiers and counts are natural numbers. A table of many like things (mailboxes, tenants, windows, …) is a
sparse list of numbered entries: what is not listed holds its reset value.
-/
namespace Sys2Proof

/-- One byte. -/
abbrev Byte := BitVec 8
/-- A 16-bit field. -/
abbrev Half := BitVec 16
/-- A 32-bit register or field. -/
abbrev Word := BitVec 32
/-- A 64-bit register or field. -/
abbrev Quad := BitVec 64
/-- A byte string: a packet, a payload, an image. -/
abbrev Bytes := List Byte

/-- A sparse table keyed by a number; keys rise and none repeats. -/
abbrev Tab (α : Type) := List (Nat × α)

namespace Tab

/-- The entry of key `k`, where listed. -/
def find {α : Type} (k : Nat) : Tab α → Option α
  | [] => none
  | (j, v) :: t => if j = k then some v else find k t

/-- The entry of key `k`, or `d` where it is not listed. -/
def getD {α : Type} (k : Nat) (d : α) (t : Tab α) : α :=
  match find k t with
  | some v => v
  | none => d

/-- Write the entry of key `k`, keeping the keys in rising order. -/
def put {α : Type} (k : Nat) (v : α) : Tab α → Tab α
  | [] => [(k, v)]
  | (j, w) :: t => if j = k then (k, v) :: t else if k < j then (k, v) :: (j, w) :: t else (j, w) :: put k v t

/-- Remove the entry of key `k`. -/
def del {α : Type} (k : Nat) : Tab α → Tab α
  | [] => []
  | (j, w) :: t => if j = k then del k t else (j, w) :: del k t

/-- Change the entry of key `k`, where listed. -/
def upd {α : Type} (k : Nat) (f : α → α) : Tab α → Tab α
  | [] => []
  | (j, w) :: t => if j = k then (j, f w) :: t else (j, w) :: upd k f t

/-- The keys, in the table's order. -/
def keys {α : Type} (t : Tab α) : List Nat := t.map Prod.fst

/-- The entries, in the table's order. -/
def vals {α : Type} (t : Tab α) : List α := t.map Prod.snd

/-- Apply a change to every entry. -/
def each {α : Type} (f : α → α) (t : Tab α) : Tab α := t.map fun e => (e.1, f e.2)

/-- Keep the entries that satisfy `p`. -/
def keep {α : Type} (p : Nat → α → Bool) (t : Tab α) : Tab α := t.filter fun e => p e.1 e.2

end Tab

end Sys2Proof
end

