-- ==== Sys2Proof/Machine/Parts/Basic.lean ====
section
/-!
DEFINITION. The names every chapter shares: status codes, violation reasons, seasons, profiles, the command header,
the error detail and the response, and the mailbox registers (spec/02_mailboxes.md).
-/
namespace Sys2Proof.Machine

/-- Status codes, Table 2-15 (R50). -/
inductive Status where
  | done | doneUnderfull | doneTruncated | donePartialCoverage
  | wrongState | unknownOpcode | badField | lengthExceeds | protocolViolation | notAuthorised | noResources | busyRetry
  | grammarDeadEnd | stopped | tierFailed | tierLate | dataDamaged | compositionLost | fenced | keyUnavailable
  | deadlineExceeded
  deriving DecidableEq, Repr

/-- Reason codes of Table 2-14. -/
inductive Reason where
  | hdrCrc | version | tenantMismatch | hdrReserved | lengthReserved | incompletePacket | duplicateTag | sealedFlag
  | doorbellRange | doorbellSize | cfgInvalid | piwSlot | piwTimeout | piwOpcode | piwWrite | streamConsRange
  | rspConsRange
  deriving DecidableEq, Repr

/-- The seasons (Table 18-3), Autumn in its two forms, and the state of being held in reset (R452). -/
inductive Season where
  | winter | spring | summer | drain | powerLoss | heldInReset
  deriving DecidableEq, Repr

/-- The stored power profiles (Table 2-3). -/
inductive Profile where
  | january | april | july | october
  deriving DecidableEq, Repr

/-- How a command reached the module; the response goes back the same way (R64, R443). -/
inductive Path where
  /-- the mailbox's command ring -/
  | ring
  /-- posted ingest window `w` -/
  | window (w : Nat)
  /-- management port `p` (R442) -/
  | port (p : Nat)
  deriving DecidableEq, Repr

/-- The command packet header, Table 2-10. -/
structure Header where
  version : Byte
  status : Byte
  opcode : Half
  tenant : Half
  flags : Half
  tag : Word
  length : Word
  session : Word
  crc : Word
  csn : Quad
  deriving DecidableEq, Repr

/-- The 16-byte error detail, Table 2-12, with the status it goes with. -/
structure Detail where
  status : Status
  offset : Nat
  reason : Option Reason := none
  space : Nat := 0
  hint : Nat := 0
  limit : Nat := 0
  offsetHi : Nat := 0
  deriving DecidableEq, Repr

/-- A response as the module decides it (R45): its status, its payload before sealing, and its flags. -/
structure Response where
  status : Status
  /-- the payload before sealing; for a detail status the 16 bytes of Table 2-12 -/
  payload : Bytes
  /-- HDR.FLAGS [0]: the payload leaves the module sealed -/
  sealed : Bool
  /-- HDR.FLAGS [1] STREAMED -/
  streamed : Bool := false
  /-- HDR.FLAGS [2] LOGGED -/
  logged : Bool := false
  /-- HDR.CSN: the CSN assigned to an insert, upsert or delete (R44) -/
  csn : Nat := 0
  /-- the key its rule gives the payload of an H command, until it is written (R83, R85) -/
  key : Bytes := []
  deriving DecidableEq, Repr

/-- MBX_STATUS.STATE, Table 2-7. -/
inductive MbxState where
  | disabled | active | halted | resetting
  deriving DecidableEq, Repr

/-- One mailbox block (Table 2-5), its doorbell (Table 2-9) and what the module keeps behind them. -/
structure Mailbox where
  /-- CMD_BASE, bits [11:0] reserved, 64 bits. [R30|0 DESIGN CHOICE] -/
  cmdBase : Quad := 0
  /-- RSP_BASE, bits [11:0] reserved, 64 bits. [R30|0 DESIGN CHOICE] -/
  rspBase : Quad := 0
  /-- CMD_BASE and RSP_BASE have been written since the reset, 2 bits. [R30|0, 0] -/
  basesWritten : Bool × Bool := (false, false)
  /-- MBX_CFG, Table 2-6, 32 bits. [R30|0] -/
  cfg : Word := 0
  /-- MBX_STATUS.STATE, 2 bits. [R30|0 DISABLED] -/
  state : MbxState := .disabled
  /-- MBX_STATUS.PV, RW1C, 1 bit. [R48|0] -/
  pv : Bool := false
  /-- MBX_STATUS.RSP_WAIT, 1 bit. [R37|0] -/
  rspWait : Bool := false
  /-- MBX_STATUS.LIMIT_WAIT, 1 bit. [R36|0] -/
  limitWait : Bool := false
  /-- MBX_STATUS.LAST_PV, 8 bits: the latest reason. [R49|0] -/
  lastPv : Option Reason := none
  /-- CMD_CONS, free-running, 32 bits. [R30|0] -/
  cmdCons : Word := 0
  /-- RSP_PROD, free-running, 32 bits. [R30|0] -/
  rspProd : Word := 0
  /-- RSP_CONS, free-running, 32 bits. [R37|0] -/
  rspCons : Word := 0
  /-- IRQ_MOD, [15:0] COUNT, [31:16] TIME_US, 32 bits. [R38|1] -/
  irqMod : Word := 1
  /-- PV_COUNT, saturating, 32 bits. [R49|0 DESIGN CHOICE] -/
  pvCount : Word := 0
  /-- DOORBELL.CMD_PROD, the last value accepted, 32 bits. [R32|0] -/
  doorbell : Word := 0
  /-- responses written and not yet reported by an interrupt, a count. [R38|0] -/
  unreported : Nat := 0
  /-- the time at which the oldest of them was written, ns. [R38|0 DESIGN CHOICE] -/
  oldest : Nat := 0
  /-- response slots reserved for admitted commands (R37), a count. [R37|0] -/
  reserved : Nat := 0
  /-- the header of a packet whose end is not covered yet, and when the wait began. [R33|none] -/
  partialPacket : Option (Header × Nat) := none
  deriving DecidableEq, Repr

/-- What a host memory write or a message carries out of the module; the newest is last. -/
inductive Output where
  /-- a response in a response ring, at the bus address and the index of the slot it starts at, with the header fields of R45; where it is sealed,
  SEAL.SEQ and the payload as it leaves (R86); last the response as it was decided -/
  | response (mbx : Nat) (addr : Quad) (slot : Word) (opcode : Half) (tenant : Half) (tag session : Word) (sealed : Option (Nat × Bytes)) (r : Response)
  /-- the RSP_PROD shadow of a mailbox (R31, R38) -/
  | rspShadow (mbx : Nat) (addr : Quad) (v : Word)
  /-- the CMD_CONS shadow of a mailbox (R31, R38) -/
  | cmdShadow (mbx : Nat) (addr : Quad) (v : Word)
  /-- an MSI-X message of a vector -/
  | msix (vector : Nat)
  /-- a stream record: stream, address and index of the first slot, REC.FLAGS, REC.TAG, REC.SEQ, tenant, opcode, REC.CSN; where it
  is sealed, SEAL.SEQ and the payload as it leaves (R86); last the payload before sealing -/
  | record (stream : Nat) (addr : Quad) (slot : Word) (flags : Nat) (tag : Word) (seq : Nat) (tenant : Half) (opcode : Half) (csn : Nat) (sealed : Option (Nat × Bytes)) (payload : Bytes)
  /-- the producer shadow of a stream (R59) -/
  | streamShadow (stream : Nat) (addr : Quad) (v : Word)
  /-- a response record on a management port (R442), sealed as a response of a ring is -/
  | mgmtRecord (port : Nat) (opcode : Half) (tag session : Word) (sealed : Option (Nat × Bytes)) (r : Response)
  /-- a management keepalive record (R442) -/
  | keepalive (port : Nat)
  /-- an SPDM message: transport (0 I3C, 1 and 2 the management ports) and bytes -/
  | spdm (transport : Nat) (msg : Bytes)
  /-- an MCTP message on the I3C sideband other than SPDM -/
  | mctp (msg : Bytes)
  /-- a fabric message: destination node, message type, class, body -/
  | message (dst : Nat) (type : Nat) (cls : Nat) (body : Bytes)
  /-- a link-local message of a port: type and body -/
  | link (port : Nat) (type : Nat) (body : Bytes)
  /-- a packet forwarded out of a port (R402): source, destination, class, hops -/
  | forward (port : Nat) (src dst cls hops : Nat)
  /-- a link frame sent by a port: its FSEQ, LH.KIND, whether it is a replay, and its bytes (Table 16-2) -/
  | frame (port seq kind : Nat) (replayed : Bool) (bytes : Bytes)
  /-- TDO data register selected by a JTAG instruction (R80, R481) -/
  | jtag (reg : Nat)
  /-- an event for the management station (R440) -/
  | event (kind : Nat) (detail : Nat)
  /-- a page of a flash unit that is programmed: quad-block, plane, page, and the bytes of the page, data and spare area (R360) -/
  | flashPage (quad plane page : Nat) (bytes : Bytes)
  /-- a journal sector that is programmed: its sequence, and its 4,112 bytes under MSK (R368) -/
  | journalSector (seq : Nat) (bytes : Bytes)
  /-- a host-tier page that is written: the bus addresses of the page and of its tag, and what is written there (R345, R347) -/
  | hostPage (addr : Nat) (page : Bytes) (tagAddr : Nat) (tag : Bytes)
  deriving DecidableEq, Repr

end Sys2Proof.Machine
end

