-- ==== Sys2Proof/Machine/Parts/Flash.lean ====
section
/-!
DEFINITION. State of the flash: dies, quad-blocks, bands, the map, the journal, checkpoints, media events (spec/15_flash.md).
-/
namespace Sys2Proof.Machine

/-- A die position (Table 15-12); 0 ACTIVE, 1 REBUILDING, 2 FAILED, 3 ABSENT, 4 UNUSED. -/
structure Die where
  /-- DIE.STATE. [R358|0 ACTIVE DESIGN CHOICE: full population] -/
  state : Nat := 0
  /-- DIE.RATE: 0 3,600, 1 3,200, 2 2,400, 3 1,600 MT/s. [R358|0 DESIGN CHOICE] -/
  rate : Nat := 0
  /-- times of the reads that needed steps 2 and 3 in the last 24 h, ns. [Table 15-12|none] -/
  retries : List Nat := []
  deriving DecidableEq, Repr

/-- A quad-block: block b of the four planes of one die (R361). -/
structure QuadBlock where
  /-- erase count -/
  erases : Nat := 0
  /-- reads since its erase -/
  reads : Nat := 0
  /-- factory-bad, read at format (R381) -/
  factoryBad : Bool := false
  /-- retired since (R381) -/
  grownBad : Bool := false
  /-- SLC mode -/
  slc : Bool := false
  /-- when it was first programmed since its erase, ns -/
  programmed : Option Nat := none
  /-- times of its verify failures, ns -/
  verifyFails : List Nat := []
  /-- a codeword needed steps 2–4, or more than 60 corrected bits -/
  weak : Bool := false
  /-- its mapped units are being moved (R380) -/
  refreshing : Bool := false
  /-- when its last mapped unit left it, ns (R373) -/
  emptied : Nat := 0
  /-- when patrol last read it, ns -/
  patrolled : Nat := 0
  deriving DecidableEq, Repr

/-- Write streams (Table 15-4). -/
inductive WriteStream where
  | log | journal | segment | system | gc
  deriving DecidableEq, Repr

/-- A band: 16 quad-blocks on 16 distinct channels (R362). -/
structure Band where
  stream : WriteStream
  hub : Nat
  /-- its members, as die × 8,192 + block -/
  members : List Nat
  /-- the next stripe -/
  next : Nat := 0
  /-- when it was closed, ns; none while it is open -/
  closed : Option Nat := none
  deriving DecidableEq, Repr

/-- A mapped logical unit: the entry of Table 15-5, and the object it belongs to (collection and segment; 0, 0 for others). -/
structure Mapped where
  entry : Nat
  band : Nat
  object : Nat × Nat
  /-- its place in the object's list of units (R361) -/
  index : Nat := 0
  /-- the write sequence under which its content was first written -/
  content : Nat := 0
  deriving DecidableEq, Repr

/-- A journal record (Table 15-6) that is not durable yet, with the content of the map before it. -/
structure JournalRecord where
  unit : Nat
  /-- 1 MAP, 2 UNMAP, 3 CKPT_BEGIN -/
  op : Nat
  entry : Nat
  before : Option Mapped
  deriving DecidableEq, Repr

/-- A checkpoint being written (R369). -/
structure Checkpoint where
  half : Nat
  j : Nat
  /-- map pages changed since it began -/
  changed : List Nat := []
  deriving DecidableEq, Repr

/-- A media event (Table 15-13). -/
structure MediaEvent where
  time : Nat
  kind : Nat
  channel : Nat
  die : Nat
  block : Nat
  deriving DecidableEq, Repr

/-- The ONFI parameter page of a die, as far as R357 looks at it (Table 15-1). -/
structure ParameterPage where
  /-- ONFI revision, major and minor -/
  revision : Nat × Nat := (5, 0)
  /-- a redundant copy has a valid CRC-16 -/
  crcHolds : Bool := true
  /-- the rates of NV-LPDDR4 it offers: 3,600, 3,200, 2,400, 1,600 MT/s -/
  rates : List (Fin 4) := [0, 1, 2, 3]
  bitsPerCell : Nat := 3
  /-- SLC mode for whole blocks -/
  slcMode : Bool := true
  planes : Nat := 4
  dataBytes : Nat := 16384
  spareBytes : Nat := 1888
  pagesPerBlock : Nat := 3072
  blocksPerPlane : Nat := 1365
  retryLevels : Nat := 7
  /-- multi-plane program and erase, independent plane read, program suspend, erase suspend, SET FEATURES read retry -/
  operations : Vector Bool 5 := .replicate 5 true
  /-- rated endurance, and whatever else is no serial field -/
  rest : Nat := 0
  /-- the serial fields -/
  serial : Nat := 0
  deriving DecidableEq, Repr

/-- What Spring finds at a die position that answers (R358, R359): its parameter page, the highest rate at which its training passes, and its factory
defect marks: the bad blocks. -/
structure FoundDie where
  page : ParameterPage := {}
  trained : Option (Fin 4) := some 0
  bad : List Nat := []
  deriving DecidableEq, Repr

/-- Flash (chapter 15). Every counter lies in module state and holds across resets unless it says otherwise. -/
structure Flash where
  /-- the media is FAILED, 1 bit. [R358|0] -/
  failed : Bool := false
  /-- dies a channel holds: 1, 2, 4, 8 or 16. [R356|16 DESIGN CHOICE: full population] -/
  perChannel : Nat := 16
  /-- blocks per plane. [R361|1,365 DESIGN CHOICE: full geometry] -/
  blocks : Nat := 1365
  /-- pages per block. [R361|3,072 DESIGN CHOICE: full geometry] -/
  pages : Nat := 3072
  /-- spare bytes per page. [R357|1,888 DESIGN CHOICE: the least accepted] -/
  spare : Nat := 1888
  /-- die positions by channel × 16 + die. [R358|ACTIVE] -/
  dies : Tab Die := []
  /-- channels that are FAILED. [R382|none] -/
  channelsFailed : List Nat := []
  /-- quad-blocks by die position × 8,192 + block. [R361|free, never erased] -/
  quads : Tab QuadBlock := []
  /-- bands in use by number. [R362|none] -/
  bands : Tab Band := []
  /-- the number the next band takes. [R362|0 DESIGN CHOICE] -/
  nextBand : Nat := 0
  /-- the map: mapped logical units. [R364|none mapped] -/
  map : Tab Mapped := []
  /-- the write sequence. [R361|0 DESIGN CHOICE] -/
  wseq : Nat := 0
  /-- map pages in HBM, most recently used first. [R365|none] -/
  hbmPages : List Nat := []
  /-- map pages in MAP regions: page and region. [R365|none] -/
  hostPages : Tab Nat := []
  /-- mapped units whose map page both checkpoint halves have rejected. [R370|none] -/
  lostUnits : List Nat := []
  /-- dirty map pages. [R365|none] -/
  dirty : List Nat := []
  /-- journal records that are not durable, oldest first. [R368|none] -/
  journal : List JournalRecord := []
  /-- when the first record of the open sector was appended, ns. [R368|0 DESIGN CHOICE] -/
  journalSince : Nat := 0
  /-- the sequence of the next journal sector, 64 bits. [R368|0 DESIGN CHOICE] -/
  journalSeq : Nat := 0
  /-- journal bytes written since the last checkpoint began. [R369|0] -/
  journalBytes : Nat := 0
  /-- CKPT_SEQ of the newest complete checkpoint, 64 bits. [R369|0 DESIGN CHOICE] -/
  ckptSeq : Nat := 0
  /-- the half it lies in. [R369|1 DESIGN CHOICE] -/
  ckptHalf : Nat := 1
  /-- J of the two newest complete checkpoints, newest first. [R369|0, 0 DESIGN CHOICE] -/
  ckptJ : Nat × Nat := (0, 0)
  /-- when the last checkpoint began, ns. [R369|0] -/
  ckptBegan : Nat := 0
  /-- a checkpoint being written. [R369|none] -/
  ckpt : Option Checkpoint := none
  /-- GC's victim band. [R376|none] -/
  gcVictim : Option Nat := none
  /-- the band a wear move empties. [R379|none] -/
  wearVictim : Option Nat := none
  /-- LOW_SPACE, 1 bit. [R378|0] -/
  lowSpace : Bool := false
  /-- format ran in the last Spring, 1 bit. [R359|0 DESIGN CHOICE] -/
  formatted : Bool := false
  /-- a valid module-state record exists, 1 bit. [R359|1 DESIGN CHOICE] -/
  hasState : Bool := true
  /-- MSS.HOST_WRITTEN, 64 bits. [Table 15-11|0] -/
  hostWritten : Nat := 0
  /-- MSS.NAND_WRITTEN, 64 bits. [Table 15-11|0] -/
  nandWritten : Nat := 0
  /-- MSS.UNCLEAN_SPRINGS, 32 bits. [R388|0] -/
  uncleanSprings : Nat := 0
  /-- MSS.RECONSTRUCTED, since reset, 64 bits. [Table 15-11|0] -/
  reconstructed : Nat := 0
  /-- MSS.REFRESHED, 64 bits. [Table 15-11|0] -/
  refreshed : Nat := 0
  /-- the replacement event of LIFE_USED 1,000 has been logged, 1 bit. [R379|0] -/
  wornOut : Bool := false
  /-- latencies of the reads of the last second by channel: when each completed, and how long it took, ns. [R235|none] -/
  latencies : Tab (List (Nat × Nat)) := []
  /-- the newest 256 media events, newest first. [Table 15-13|none] -/
  events : List MediaEvent := []
  deriving DecidableEq, Repr

end Sys2Proof.Machine
end

