-- ==== Sys2Proof/Machine/Parts/Search.lean ====
section
/-!
DEFINITION. State of searches: reads outstanding, selection stages, scan jobs and NBUs (spec/05_search.md,
spec/06_bank_scan.md, spec/07_selection.md, spec/08_run_ahead.md).
-/
namespace Sys2Proof.Machine

/-- The tier a read of a command goes to (R348, R351). -/
inductive Tier where
  | flash | host (region : Nat) | shared (owner : Nat)
  deriving DecidableEq, Repr

/-- The step of Table 15-7 that turned a flash read into data or a status, or the tag check that failed after it (R71, R374). -/
inductive ReadStep where
  | hard | hardWeak | retry | soft | reconstruct | damaged | failed | badTag
  deriving DecidableEq, Repr

/-- A hedge of a read: the replica asked, and the READ_IDs of the records it has not given yet (R235). -/
structure ReadHedge where
  node : Nat
  ids : List Nat
  failed : Bool := false
  deriving DecidableEq, Repr

/-- An outstanding read of a command: a sector of an area of a segment, the versions whose records it brings (item ID and ins),
where it goes, and since when. -/
structure Read where
  tier : Tier
  collection : Nat
  seg : Nat
  /-- 0 refine codes, 1 full vectors, 2 token sequences (Table 10-8) -/
  area : Nat
  sector : Nat
  since : Nat
  items : List (Nat × Nat) := []
  /-- first the map page that names the sector's unit is read, from a MAP region (R366) -/
  mapPage : Option Nat := none
  hedge : Option ReadHedge := none
  /-- the original has failed, been late or been damaged: the hedge alone is awaited, and this is what the command ends with
  when it fails too (R235) -/
  lost : Option Status := none
  /-- a read started early has come back: its quad-block, the step that ended it, and a back-pointer that did not match; what that leaves at the flash
  waits for its confirmation (R226) -/
  came : Option (Nat × ReadStep × Bool) := none
  deriving DecidableEq, Repr

/-- A squashed read that may still be at its die or its tier: the command it was for, by mailbox, tag, tenant and opcode (R225, R226). -/
structure SquashedRead where
  mbx : Nat
  tag : Word
  tenant : Nat
  opcode : Nat
  read : Read
  /-- it was squashed: a failure is counted in SPA.PREFETCH_FAULTS -/
  counted : Bool
  deriving DecidableEq, Repr

/-- A result that is ready once the reads it rests on have come back: every copy of a record holds the same plaintext
(R348), so the reads decide only whether the result is given. -/
structure Held where
  status : Status
  /-- the payload, or what goes to the stream -/
  parts : List Bytes
  stream : Option Nat := none
  /-- the payload of an ending by a tier status or by damage -/
  failed : Bytes := []
  /-- what is read once the first reads have come back, each read going to the copy that holds then (R162): a collection, an area and the versions,
  by item ID and ins; the token sequences of a rerank (R164) -/
  next : List (Nat × Nat × List (Nat × Nat)) := []
  /-- what the tenant is charged when the command ends: offset in Table 17-7 and amount -/
  charges : Tab Nat := []
  /-- bytes that its scan jobs have read, by NBU (R228) -/
  bytes : Tab Nat := []
  deriving DecidableEq, Repr

/-- An entry of a list (R201, R202): item ID, score key, the version's ins, the node that held it, ENT.FLAGS, and the optional
fields of Table 5-5. -/
structure Entry where
  id : Nat
  key : Nat
  ins : Nat := 0
  node : Nat := 0
  flags : Nat := 0
  extra : Bytes := []
  deriving DecidableEq, Repr

/-- A selection stage of a crew (R203–R205). -/
structure Stage where
  /-- entries kept -/
  n : Nat
  /-- the sorted list, best first -/
  list : List Entry := []
  /-- the staging buffer that fills, oldest first (gated mode) -/
  filling : List Entry := []
  /-- the staging buffer that is full and awaits compaction (gated mode) -/
  full : List Entry := []
  /-- the threshold t -/
  t : Nat := 0
  /-- duplicates removed (R202) -/
  dups : Nat := 0
  deriving DecidableEq, Repr

/-- A shard that a module waits for in the merge of a fabric-wide search: a child of the merge tree (R165, R214–R217, R231, R232). -/
structure Shard where
  /-- shard number of the child -/
  no : Nat
  /-- shard numbers its list covers: its own and those of its subtree -/
  covers : List Nat
  /-- the node asked -/
  node : Nat
  /-- when the sub-query was sent, ns -/
  sent : Nat
  /-- the SQ.ID it was sent under where it went to another node than the member itself; else 0: the search's own (log entry 159) -/
  id : Nat := 0
  /-- the replica that the hedge went to, and the SQ.ID of the hedge -/
  hedge : Option Nat := none
  hedgeId : Nat := 0
  /-- the hedge was declined or is not served -/
  hedgeGone : Bool := false
  /-- the node asked first does not serve it -/
  gone : Bool := false
  /-- its list has been merged -/
  merged : Bool := false
  /-- it is missing -/
  missing : Bool := false
  deriving DecidableEq, Repr

/-- The merge of a fabric-wide search at one module (R214–R218). -/
structure FabricRun where
  composition : Nat
  /-- this module's position in the tree -/
  position : Nat
  k : Nat
  entryBytes : Nat
  reranked : Bool
  shards : List Shard
  /-- CSN and map version of the admission notices that have come, by shard (R232) -/
  notices : Tab (Nat × Nat) := []
  /-- this module's own shard has given its list, or is missing -/
  own : Bool := false
  /-- the merged list, best first -/
  list : List Entry := []
  /-- shards covered by it -/
  covered : Nat := 0
  /-- the bound CSN of the list taken last: of the one shard covered, while only one is -/
  csn : Nat := 0
  lists : Nat := 0
  items : Nat := 0
  nans : Nat := 0
  stale : Nat := 0
  /-- missing shards: the lowest numbers, and how many -/
  missing : List Nat := []
  missingCount : Nat := 0
  deriving DecidableEq, Repr

/-- A scan job (R177, R179, R181). -/
structure ScanJob where
  mbx : Nat
  tag : Word
  collection : Nat
  list : Nat
  /-- the bound extents on its NBU, each with its leading rows that are bound, by item ID and ins -/
  extents : List (Nat × List (Nat × Nat))
  /-- how many of them have been scanned -/
  scanned : Nat := 0
  /-- the list so far, best first -/
  found : List Entry := []
  /-- a run-ahead job that has met a granule that was lost (R226) -/
  damaged : Bool := false
  /-- a run-ahead job that has not been confirmed (R224) -/
  speculative : Bool := false
  /-- the threshold the NBU applies; 0 in depth mode -/
  t : Nat := 0
  /-- its list, once it has scanned: entries still to deliver -/
  result : Option (List Entry) := none
  /-- bytes it read -/
  bytes : Nat := 0
  deriving DecidableEq, Repr

/-- A search in progress: what it bound at admission, and how far it has come (R119, R146). -/
structure SearchRun where
  /-- the SEARCH plaintext -/
  plain : Bytes
  collection : Nat
  csn : Nat
  mapVersion : Nat
  /-- the prepared query vector (R147) -/
  q : List Word
  /-- the query's tokens, for a rerank -/
  tokens : List Nat := []
  /-- the bound cross-encoder generation: handle and generation; 0, 0 for none -/
  rr : Nat × Nat := (0, 0)
  /-- lists probed, once the traversal is over -/
  lists : Nat
  /-- the probe set, while run-ahead jobs are out and the traversal has not ended (R220, R224) -/
  probing : Option (List Nat) := none
  /-- confirmed scan jobs, and those delivered -/
  jobs : Nat
  delivered : Nat := 0
  /-- item positions examined -/
  items : Nat := 0
  nans : Nat := 0
  stale : Nat := 0
  stage : Stage
  /-- bytes that delivered jobs have read, by NBU -/
  bytes : Tab Nat := []
  /-- what a served sub-query owes for its query text, charged with its answer (R228) -/
  charges : Tab Nat := []
  /-- refine reads started early (R221), outstanding -/
  prefetch : List Read := []
  /-- those that have come back, and whether a hedge brought the data -/
  fetched : List (Read × Bool) := []
  /-- versions whose staging copy was read early (R221) -/
  staged : List (Nat × Nat) := []
  /-- scan jobs held at the crew, each with its NBU: its queue was full (R180) -/
  held : List (Nat × ScanJob) := []
  deriving DecidableEq, Repr

/-- An ECC log entry (Table 6-9). -/
structure EccEntry where
  time : Nat
  addr : Nat
  /-- 1 corrected, 2 uncorrectable, 3 run retired -/
  kind : Nat
  bytes : Nat
  deriving DecidableEq, Repr

/-- One NBU (Tables 6-7, 6-8, 6-9). -/
structure Nbu where
  /-- STATE: 0 ACTIVE, 1 FAILED, 2 OFFLINE. [Table 6-7|0] -/
  state : Nat := 0
  /-- jobs, in order: the first 32 have contexts, and up to 256 more wait in the queue (R180). [R180|none] -/
  jobs : List ScanJob := []
  /-- retired 2 KiB runs, by address, kept in module state. [R187|none] -/
  retired : List Nat := []
  /-- when its last complete scrub pass ended, ns. [Table 6-7|0] -/
  scrubbed : Nat := 0
  /-- corrected errors: run and time, ns. [R187|none] -/
  corrected : List (Nat × Nat) := []
  /-- UE_TOTAL, saturating, 32 bits. [Table 6-7|0] -/
  ue : Nat := 0
  /-- MAX_WAIT_NS, 32 bits. [Table 6-7|0] -/
  maxWait : Nat := 0
  /-- the counters by their offset in Table 6-8, saturating, 64 bits. [Table 6-8|0] -/
  ctr : Tab Nat := []
  /-- the ECC log, newest first. [R191|none] -/
  log : List EccEntry := []
  /-- runs that have yielded an uncorrectable error. [R187|none] -/
  broken : List Nat := []
  /-- when a PATTERN ends, ns. [R192|0 DESIGN CHOICE] -/
  patternUntil : Nat := 0
  /-- it has delivered 40–75 % of its share in the last 10 ms. [R236|no] -/
  slow : Bool := false
  deriving DecidableEq, Repr

/-- An extent that holds a poisoned granule, or lies in an unusable pseudo-channel, until it is rebuilt (R186, R195). -/
structure PoisonedExtent where
  collection : Nat
  list : Nat
  /-- its number in the collection -/
  extent : Nat
  nbu : Nat
  /-- the rebuild source failed: it stays poisoned -/
  dead : Bool := false
  deriving DecidableEq, Repr

end Sys2Proof.Machine
end

