-- ==== Sys2Proof/Machine/Parts/Index.lean ====
section
/-!
DEFINITION. State of collections: descriptor, item versions, operations, segments, compaction, the centroid map and the
directory entry (spec/04_collections.md, spec/05_search.md).
-/
namespace Sys2Proof.Machine

/-- An attribute field descriptor (Table 4-2). -/
structure FieldDesc where
  /-- 0 unused, 1 unsigned, 2 signed, 3 bit set, 4 byte string -/
  kind : Nat
  /-- false packed word, true extended bytes -/
  area : Bool
  offset : Nat
  width : Nat
  deriving DecidableEq, Repr

/-- A collection's descriptor (Table 4-1), as created, with its field table. -/
structure Descriptor where
  /-- descriptor and field table as the tenant wrote them, 192 bytes -/
  raw : Bytes
  keyId : Word
  dim : Nat
  sketchBits : Nat
  refineBits : Nat
  /-- 0 inner product, 1 cosine, 2 squared L2 -/
  metric : Nat
  /-- 0 fp32, 1 bf16 -/
  vecFormat : Nat
  storeFull : Bool
  storeTokens : Bool
  extBytes : Nat
  listsLog2 : Nat
  compactPct : Nat
  model : Nat
  vocab : Nat
  chunkTokens : Nat
  sealMs : Nat
  maxItems : Nat
  sealItems : Nat
  retainCsn : Nat
  fields : List FieldDesc
  deriving DecidableEq, Repr

/-- One item version (R106, R112). -/
structure Version where
  id : Nat
  packed : Nat
  ext : Bytes
  ins : Nat
  /-- DEL_CSN; none while it is ∞ -/
  del : Option Nat := none
  /-- the list it lies in -/
  list : Nat
  /-- the extent that holds its row, 0 until it is placed (R173) -/
  extent : Nat := 0
  /-- segment ID, and position in the segment -/
  seg : Nat
  pos : Nat
  /-- the sketch, bit i of the sketch is bit i of the number -/
  sketch : Nat
  /-- the refine code, R274 -/
  refine : Bytes
  /-- the vector's elements, in VEC_FORMAT as bytes, where FULL is stored -/
  vector : Bytes
  /-- the token sequence, where TOKENS is stored -/
  tokens : List Nat
  /-- refine code, vector and tokens lie in the HBM staging area, not yet verified in flash (R125) -/
  staged : Bool := true
  deriving DecidableEq, Repr

/-- An extent: up to 64 rows of one list in one pseudo-channel, in append order (R172, R173, Table 6-1). -/
structure Extent where
  id : Nat
  /-- the list that owns it -/
  list : Nat
  /-- header flag LEGACY: the list that shares it with its owner (R151) -/
  legacy : Option Nat := none
  /-- the segment whose rows it holds -/
  seg : Nat
  /-- the commit index that covers it (R120) -/
  index : Nat
  /-- the pseudo-channel, and the granule address in it -/
  nbu : Nat
  addr : Nat
  /-- header field FIRST_POS -/
  first : Nat
  /-- header field: rows filled -/
  rows : Nat
  /-- it takes no more rows (R123, R151) -/
  closed : Bool := false
  /-- when other extents took its place, ns: it is kept for the commands bound before (R119) -/
  replaced : Option Nat := none
  deriving DecidableEq, Repr

/-- A commit index of a list, for its rows in one segment (R120). -/
structure CommitIndex where
  id : Nat
  /-- the list it was opened for: it lies in that list's home pseudo-channel (R172) -/
  list : Nat
  seg : Nat
  /-- newest first: a CSN, and the position below which it makes the list's rows visible -/
  entries : List (Nat × Nat) := []
  deriving DecidableEq, Repr

/-- One record of an insert or upsert (Table 4-3). -/
structure ItemRecord where
  id : Nat
  packed : Nat
  ext : Bytes
  /-- REC.VECTOR, or the encoder's vector once a text record is encoded -/
  vector : Option Bytes
  /-- REC.TEXT -/
  text : Bytes := []
  /-- the tokens encoded, at most CHUNK_TOKENS -/
  tokens : List Nat := []
  deriving DecidableEq, Repr

/-- What an operation does (R107–R116). -/
inductive OpBody where
  | insert (items : List ItemRecord) (upsert : Bool)
  | delete (ids : List Nat)
  /-- the filter's predicates, 24 bytes each -/
  | deleteByFilter (predicates : Bytes)
  /-- an operation that was assigned a CSN and never logged (R134) -/
  | empty
  deriving DecidableEq, Repr

/-- An operation from its CSN until its ingest-log record is released (R108–R110, R124). -/
structure Operation where
  csn : Nat
  body : OpBody
  /-- the command to acknowledge, by mailbox and tag -/
  mbx : Nat
  tag : Word
  /-- the ingest-log record is in the log buffer -/
  buffered : Bool := true
  /-- the record as the log holds it, before sealing: opcode and plaintext (R109) -/
  record : Bytes := []
  /-- when it was last sent to log peers, ns (R435) -/
  sentAt : Nat := 0
  /-- log peers that have confirmed the record, by node -/
  confirmed : List Nat := []
  /-- the record has been programmed to flash -/
  durable : Bool := false
  acked : Bool := false
  /-- every text record has its tokens and vector -/
  encoded : Bool
  applied : Bool := false
  /-- when it was acknowledged, ns -/
  ackTime : Nat := 0
  /-- key generation its record is sealed under (R92, R109) -/
  gen : Nat := 1
  deriving DecidableEq, Repr

/-- Segment states (Table 4-5). -/
inductive SegState where
  | opened | sealing | sealed | merging | retired
  deriving DecidableEq, Repr

/-- A segment or tombstone segment. -/
structure Segment where
  id : Nat
  state : SegState
  /-- a tombstone segment (R126) -/
  tombstone : Bool := false
  /-- the key generation it takes when its sealing begins (R92) -/
  gen : Nat := 0
  /-- when its first row was appended, ns -/
  firstAt : Option Nat := none
  /-- records of a tombstone segment: segment ID, position, DEL_CSN -/
  records : List (Nat × Nat × Nat) := []
  /-- SEGMENT_SEAL commands that wait for it, by mailbox and tag -/
  waiters : List (Nat × Word) := []
  deriving DecidableEq, Repr

/-- A predicate tombstone (R116). -/
structure PredTombstone where
  csn : Nat
  /-- 24 bytes a predicate -/
  predicates : Bytes
  /-- the background marks have been written -/
  marked : Bool := false
  deriving DecidableEq, Repr

/-- A running compaction (R127–R129). -/
structure Compaction where
  /-- the COMPACT that waits, by mailbox and tag; none for an automatic one -/
  waiter : Option (Nat × Word)
  /-- input segments -/
  inputs : List Nat
  /-- output segment -/
  output : Nat
  purge : Nat
  /-- the generation of its output, current when it began (R92) -/
  gen : Nat := 1
  /-- versions dropped so far -/
  dropped : Nat := 0
  /-- lists still to switch, in order -/
  lists : List Nat
  deriving DecidableEq, Repr

/-- A slot of the centroid map (R138, R148). -/
structure Slot where
  /-- the centroid, DIM bf16 elements; none for a slot that is not live -/
  centroid : List Half
  /-- cc, fp32 -/
  cc : Word
  /-- the epoch of the slot -/
  epoch : Nat
  /-- edges: slot and the epoch it had when the edge was written -/
  edges : List (Nat × Nat)
  deriving DecidableEq, Repr

/-- A forwarding record of a retired (slot, old epoch): the slots it leads to (R149). -/
structure Forward where
  slot : Nat
  epoch : Nat
  targets : List Nat
  deriving DecidableEq, Repr

/-- The centroid map (R138–R153). -/
structure CentroidMap where
  /-- its version, bound by searches -/
  version : Nat
  /-- slots the rebalances have rewritten; a slot not listed is as the quantiser image gives it -/
  slots : Tab Slot := []
  forwards : List Forward := []
  /-- what lies in a poisoned run: a slot, the part of it that is lost (0 centroid, 1 edge list, 2 a forwarding record), and whether the run's map
  record failed its tag too (R153) -/
  poisoned : List (Nat × Nat × Bool) := []
  /-- the generation that the map record of this version is sealed under (R153) -/
  record : Nat := 1
  /-- a segment has become SEALED, and rebalancing is to be evaluated (R150) -/
  evaluate : Bool := false
  deriving DecidableEq, Repr

/-- A map version that a newer one has replaced, kept while a command is bound to it: the map, and the extents with their rows, by item ID and ins, as its
lists own them (R146, R151, R167). -/
structure OldMap where
  map : CentroidMap
  extents : List (Extent × List (Nat × Nat))
  deriving DecidableEq, Repr

/-- Whether a collection can be used (R95, R134). -/
inductive Availability where
  | ready
  /-- waits for the TRKs of these generations after a reset -/
  | keyPending (gens : List Nat)
  /-- rebuilds since this time, ns -/
  | rebuilding (since : Nat)
  | keyLost
  deriving DecidableEq, Repr

/-- A replica of a collection on another node (R437, R438). -/
structure Replica where
  node : Nat
  /-- 0 CATCHING_UP, 1 IN_SYNC, 2 LOST -/
  state : Nat
  c : Nat
  /-- the highest CSN sent to it -/
  sent : Nat := 0
  deriving DecidableEq, Repr

/-- A collection (chapter 4, chapter 5). -/
structure Collection where
  id : Nat
  desc : Descriptor
  /-- the quantiser image -/
  qimage : Bytes
  /-- key generations that are live: generation, KEY_ID and KCV -/
  gens : List (Nat × Word × Bytes)
  gen : Nat := 1
  /-- pinned model and vocabulary generations (R104) -/
  modelGen : Nat := 0
  vocabGen : Nat := 0
  /-- the placement class it lives in -/
  cls : Nat := 0
  /-- HBM reserved under R103 -/
  reserved : Nat
  versions : List Version := []
  segments : List Segment
  nextSegment : Nat := 2
  /-- operations whose ingest-log record is held, in CSN order -/
  ops : List Operation := []
  /-- predicate tombstones (R116) -/
  predicates : List PredTombstone := []
  assigned : Nat := 0
  /-- C -/
  committed : Nat := 0
  /-- F -/
  floor : Nat := 0
  compaction : Option Compaction := none
  dupIds : Nat := 0
  truncChunks : Nat := 0
  deleteMisses : Nat := 0
  availability : Availability := .ready
  /-- COLLECTION_DROP was admitted: the command that waits, by mailbox and tag -/
  dropping : Option (Nat × Word) := none
  /-- a seal trigger has fired and takes effect at the next commit boundary (R123) -/
  sealRequested : Bool := false
  /-- the same for the open tombstone segment (R126) -/
  tombsRequested : Bool := false
  map : CentroidMap := { version := 1 }
  /-- map versions that commands are still bound to (R146) -/
  oldMaps : List OldMap := []
  /-- its extents: those of a list stand in the order of the list's positions (R173) -/
  extents : List Extent := []
  /-- the commit indices that are held (R120) -/
  indices : List CommitIndex := []
  /-- the next number of an extent or a commit index -/
  nextExtent : Nat := 1
  replicas : List Replica := []
  /-- values C has had in the last 100 ms, and the one before them, newest first: time and C (R438) -/
  commits : List (Nat × Nat) := []
  /-- the composition whose shard it is, and the shard (R437) -/
  composition : Nat := 0
  /-- an append waits for a free extent (R174) -/
  appendsWait : Bool := false
  /-- this module serves the shard as a replica, read-only (R439) -/
  isReplica : Bool := false
  deriving DecidableEq, Repr

/-- Collections (chapters 4 and 5). -/
structure Index where
  /-- collections by ID, at most 65,536; what of each lies in flash and the log is given by its durable part (R134). [R100|none] -/
  collections : Tab Collection := []
  /-- the 1,280 NBUs by number. [R170|every register at its reset value] -/
  nbus : Tab Nbu := []
  /-- when every pseudo-channel was last zero-filled or scrubbed as a whole, at a reset or a wake, ns. [Table 6-7|0] -/
  scrubBase : Nat := 0
  /-- extents that wait for a rebuild. [R186|none] -/
  poisoned : List PoisonedExtent := []
  /-- the time at which the ingest work admitted so far ends at the profile's rate, ns. [R25|0 DESIGN CHOICE] -/
  ingestDone : Nat := 0
  /-- the encoder batch that is filling: collection, CSN and record number of its sequences. [R293|empty] -/
  batch : List (Nat × Nat × Nat) := []
  /-- when its first sequence arrived, ns. [R293|0 DESIGN CHOICE] -/
  batchSince : Nat := 0
  /-- bytes that speculative scan jobs have read in the governor's tick. [R222|0] -/
  specBytes : Nat := 0
  /-- refine reads started early in the governor's tick. [R222|0] -/
  specReads : Nat := 0
  /-- squashed reads that may still be at a die or a tier. [R225|none] -/
  squashed : List SquashedRead := []
  deriving DecidableEq, Repr

end Sys2Proof.Machine
end

