-- ==== Sys2Proof/Machine/Parts/Power.lean ====
section
/-!
DEFINITION. State of power, seasons, profiles, the governor, pins and straps
(spec/18_power.md, spec/19_pins.md).
-/
namespace Sys2Proof.Machine

/-- Strap pins (Table 19-4), as levels or as latched. -/
structure Straps where
  /-- PROFILE_SEL[1:0], 2 bits. [R470|0, the pull-downs] -/
  profileSel : Fin 4 := 0
  /-- I3C_ADDR[2:0], 3 bits. [R470|0, the pull-downs] -/
  i3cAddr : Fin 8 := 0
  /-- MGMT_EN[1:0], 2 bits. [R470|0b11, the pull-ups] -/
  mgmtEn : BitVec 2 := 3
  /-- TEST_MODE, 1 bit. [R470|0, tied to GND] -/
  testMode : Bool := false
  deriving DecidableEq, Repr

/-- Input pins, supplies and clocks as the module sees them. -/
structure Pins where
  /-- RESET_N is high, 1 bit. [R453|1, released] -/
  resetN : Bool := true
  /-- HOLDUP_WARN_N is high, 1 bit. [R471|1 DESIGN CHOICE] -/
  holdupN : Bool := true
  /-- PERST_N is high, 1 bit. [R475|1, the pull-up] -/
  perstN : Bool := true
  /-- FLASH_PG is high, 1 bit. [R472|1 DESIGN CHOICE] -/
  flashPg : Bool := true
  /-- input voltage in volts. [R449|400 DESIGN CHOICE] -/
  input : Nat := 400
  /-- SYS_REFCLK0 and SYS_REFCLK1 present, 2 bits. [R473|present DESIGN CHOICE] -/
  sysClk : BitVec 2 := 3
  /-- FAB_REFCLK0 and FAB_REFCLK1 present, 2 bits. [R473|present DESIGN CHOICE] -/
  fabClk : BitVec 2 := 3
  /-- PCIE_REFCLK present, 1 bit. [R473|present DESIGN CHOICE] -/
  pcieClk : Bool := true
  /-- THERM_SB powered, 1 bit. [R486|present DESIGN CHOICE] -/
  thermSb : Bool := true
  /-- AO_1V8_OUT in range: the always-on domain runs, 1 bit. [R474|1] -/
  aoUp : Bool := true
  /-- the strap pins' levels. [R470|their internal pulls] -/
  straps : Straps := {}
  deriving DecidableEq, Repr

/-- A drain under way (R456). -/
inductive Drain where
  | none
  /-- DRAIN: stays in Autumn drain -/
  | stay
  /-- TARGET 0: Winter entry follows; the SET_SEASON that waits, by mailbox and tag -/
  | winter (mbx : Nat) (tag : Word)
  deriving DecidableEq, Repr

/-- A SET_PROFILE between admission and its switch (R459). -/
structure ProfileChange where
  target : Profile
  mbx : Nat
  tag : Word
  /-- when it was admitted -/
  since : Nat
  /-- operations acknowledged before admission that the switch waits for, by collection and CSN -/
  waits : List (Nat × Nat)
  deriving DecidableEq, Repr

/-- Power, seasons and profiles (chapter 18). -/
structure Power where
  /-- DEV_STATE.SEASON, 3 bits. [R455|1 Spring] -/
  season : Season := .spring
  /-- DEV_STATE.PROFILE: the profile whose envelope is in force, 2 bits. [R458|PROFILE_SEL] -/
  profile : Profile := .january
  /-- the profile whose admission rates and shares apply. [R459|PROFILE_SEL] -/
  rates : Profile := .january
  /-- a SET_PROFILE not yet answered. [R459|none] -/
  change : Option ProfileChange := none
  /-- the latched straps. [R470|their internal pulls] -/
  straps : Straps := {}
  /-- a drain under way. [R456|none] -/
  drain : Drain := .none
  /-- Winter entry is running since this time, ns. [R457|no] -/
  entering : Option Nat := none
  /-- a wake is running since this time, ns. [R457|no] -/
  waking : Option Nat := none
  /-- this Spring follows a wake and not a reset, 1 bit. [R455|0] -/
  warm : Bool := false
  /-- the power-loss flush runs since this time, ns. [R451|no] -/
  flush : Option Nat := none
  /-- the steps of the running flush up to the erasure of the keys are over. [R387|no] -/
  flushed : Bool := false
  /-- what was not durable when the fast domain last stopped has been programmed, and a flush that ran verified its marker, 1 bit. [R388|1 DESIGN CHOICE] -/
  flushMarked : Bool := true
  /-- a hold-up warning in Winter has lost the HBM content: the next start is cold, 1 bit. [R465|0] -/
  hbmLost : Bool := false
  /-- LAST_FLUSH_OK of I3C STATUS, 1 bit. [R454|0 DESIGN CHOICE] -/
  lastFlushOk : Bool := false
  /-- OVERVOLTAGE recorded, 1 bit. [R449|0] -/
  overvoltage : Bool := false
  /-- the thermal trip latch, powered from THERM_SB, 1 bit. [R464|0] -/
  trip : Bool := false
  /-- the trip as recorded in retention memory, 1 bit. [R486|0] -/
  tripRetained : Bool := false
  /-- a reset request is latched by RESET_N, 1 bit. [R453|0] -/
  resetRequest : Bool := false
  /-- events recorded in retention memory, newest last: kinds of Table 18-11. [R465|none] -/
  retention : List Nat := []
  /-- PCIe endpoint is configuration-ready: BAR0 can be reached, 1 bit. [R475|1] -/
  pcieUp : Bool := true
  /-- the dynamic address of the I3C target, 7 bits. [R480|none: the static address] -/
  i3cDynamic : Option Nat := none
  /-- MCTP endpoint ID set over the sideband, 8 bits. [R454|0 PRESUMED] -/
  mctpEid : Byte := 0
  /-- flash signals driven, 1 bit. [R472|1 DESIGN CHOICE] -/
  flashDriven : Bool := true
  deriving DecidableEq, Repr

/-- The governor (R460–R463). -/
structure Governor where
  /-- fabric time of the last tick, ns. [R460|0] -/
  lastTick : Nat := 0
  /-- clock of each tile die in 50 MHz steps. [R460|20, 1.0 GHz, the ceiling of the reset profile DESIGN CHOICE] -/
  clocks : List Nat := [20, 20, 20, 20]
  /-- thermal cap of each tile die in 50 MHz steps. [R463|32, none] -/
  dieCaps : List Nat := [32, 32, 32, 32]
  /-- thermal cap of RATE_PCT of each of the 20 stacks, percent. [R463|100] -/
  stackCaps : List Nat := List.replicate 20 100
  /-- thermal cap of each hub's flash program share and fabric egress, percent. [R463|100] -/
  hubCaps : List Nat := [100, 100]
  /-- thermal cap of the envelope, percent. [R463|100] -/
  envelopeCap : Nat := 100
  /-- RATE_PCT of the NBUs by number, percent of 75 GB/s; 100 where none is listed. [R194|100] -/
  nbuRates : Tab Nat := []
  /-- last tick's measured draw above the envelope less 50 W, milliwatts. [R460|0] -/
  overshoot : Nat := 0
  /-- limiter events counted. [R462|0] -/
  limiterEvents : Nat := 0
  deriving DecidableEq, Repr

end Sys2Proof.Machine
end

