-- ==== Sys2Proof/Syntax.lean ====
section
/-!
DEFINITION. The commands of the block: one constructor per row of the table of operations and events
(spec/opcode_table.json), with the row's operands.

A row of the command catalogue (Table 2-17) names the command in flight it acts on by its mailbox and tag: its packet
was given to MAILBOX_TURN, PIW_PACKET_ADMIT or MGMT_RECORD_PACKET, and its fields are read from that packet. What the
world decides and the spec does not (whether a seal opens, what a host sends, which unit fails) is an operand.
-/
namespace Sys2Proof

/-- Where a command in flight came from: tenant t's mailbox, or the management mailbox (R34, Table 2-5); or, for work that takes no mailbox,
item `i` of tenant t's batch (R145), or a sub-query that is served for another module (R165). -/
inductive Mbx where
  | tenant (t : Fin 4096)
  | mgmt
  | item (t : Fin 4096) (i : Fin 256)
  | served (id shard : Nat)
  deriving DecidableEq, Repr

/-- The key in the module's tables: the tenant number, 4,096 for the management mailbox, and keys above 2²⁰ for the rest. -/
def Mbx.key : Mbx → Nat
  | .tenant t => t.val
  | .mgmt => 4096
  | .item t i => 2 ^ 20 + t.val * 256 + i.val
  | .served id shard => 2 ^ 40 + id * 65536 + shard

/-- A ring mailbox: tenant t's, or the management mailbox (R34, Table 2-5). -/
inductive Ring where
  | tenant (t : Fin 4096)
  | mgmt
  deriving DecidableEq, Repr

/-- Its key: the tenant number, 4,096 for the management mailbox. -/
def Ring.key : Ring → Nat
  | .tenant t => t.val
  | .mgmt => 4096

/-- A command packet as it stands in a ring or arrives in a record: its 32 header bytes, the payload bytes carried, and
the verdict of the crypto engine on a sealed payload: whether the tag holds, and the plaintext. -/
structure Packet where
  header : Bytes
  payload : Bytes
  opens : Bool := true
  plain : Bytes := []
  deriving DecidableEq, Repr

/-- The instruction a test access port is given (R80, R481). -/
inductive JtagInstr where
  | bypass | idcode | samplePreload | extest | ieee1149_6 | other
  deriving DecidableEq, Repr

/-- How a host write reaches a doorbell (R32): one 8-byte write, or anything else. -/
inductive DoorbellWrite where
  | single (value : BitVec 64)
  | other
  deriving DecidableEq, Repr

/-- How a tile is found to have failed in operation (R252): a word of its store, a check of its mesh router, an item of a crew class that has run this long,
ns, or no answer to a Cox poll for this long, ns. -/
inductive TileFault where
  | store | router
  | overrun (cls : Fin 64) (ns : Nat)
  | silent (ns : Nat)
  deriving DecidableEq, Repr

/-- The failure of a tile: how it was found, and the commands whose stage state lived only on the tile (R252, R254). -/
structure TileLoss where
  cause : TileFault
  lost : List (Mbx × Word)
  deriving DecidableEq, Repr

/-- A slow member of a crew, and the items that each member has completed in the last 100 µs (R230). -/
structure MemberPace where
  tile : Fin 4096
  rates : List (Fin 4096 × Nat)
  deriving DecidableEq, Repr

/-- What Spring finds of the media (R357, R358, R370): the dies that answer, the channels where training fails, and the map pages that both checkpoint
halves reject. -/
structure MediaFound where
  dies : List (Fin 1024 × Machine.FoundDie)
  untrained : List (Fin 64)
  rejected : List Nat
  deriving DecidableEq, Repr

/-- An operation whose writes are done, by its CSN, and whether the flash reads of its lookups came back (R110, R117). -/
structure Applied where
  csn : Nat
  tier : Bool
  deriving DecidableEq, Repr

/-- A run of a centroid map: part 0 of a slot is its centroid, 1 its edges, 2 its forwarding record (R153). -/
structure MapRun where
  slot : Nat
  part : Nat
  deriving DecidableEq, Repr

/-- A read of a command by its place, and the channel it waits at (R235). -/
structure ReadAt where
  read : Nat
  channel : Fin 64
  deriving DecidableEq, Repr

/-- Why a read of sealing or compaction did not bring its data (Table 4-9): a tier failed, or the data is damaged. -/
inductive Loss where
  | failed | damaged
  deriving DecidableEq, Repr

/-- How a host-tier read completes (R350, R71). -/
inductive HostRead where
  | data | badTag | failed | timeout
  deriving DecidableEq, Repr

/-- How a replica's own read for a hedge ends (R235, R420): with the record, or with a status of Table 16-22. -/
inductive HedgeOutcome where
  | data | failed | late | damaged
  deriving DecidableEq, Repr

/-- What holds a granule that cannot be corrected (R153, R186, R298): a row's extent, a slot of a centroid map, a run of a model's weights, KV pages,
a row of a feature table (part 2 for the R part), or anything else. -/
inductive GranuleHit where
  | row (collection list extent : Nat)
  | mapSlot (collection slot part : Nat)
  | weights (model gen run : Nat)
  | kv
  | tableRow (table part row : Nat)
  | other
  deriving DecidableEq, Repr

/-- The receiver's verdict on a link frame (R391, R394): intact, intact after FEC correction, a failed tag or CRC, or a codeword that FEC cannot
correct. -/
inductive FrameCheck where
  | good | corrected | badTag | uncorrectable
  deriving DecidableEq, Repr

/-- What the time profile makes of a PTP message (R414, R415): whether it comes from the selected parent, whether the best master algorithm chooses
this module, the grandmaster, the steps removed and the offset in ns. -/
structure TimeReading where
  parent : Bool
  self : Bool
  gm : BitVec 64
  steps : BitVec 16
  offset : Int
  deriving DecidableEq, Repr

/-- What the proposed log peers say of a PARTITION_SET (R426): both serve, the first or the second is outside the partition, or one refuses a third
source. -/
inductive PeerAnswer where
  | accepted
  | outside (second : Bool)
  | full
  deriving DecidableEq, Repr

/-- What the proposed nodes say of a REPLICA_SET (R437): all take the copy, the node at an index lacks the TRK, or one has no room and this limit. -/
inductive ReplicaAnswer where
  | accepted
  | lacksKey (second : Bool)
  | noRoom (limit : Word)
  deriving DecidableEq, Repr

/-- What the governor's sensors and queues report at a tick (R460, R463), in milliwatts: the fabric's link crypto and the module's draw in the last
tick, the demand of queued scan work, the demand and the measured draw of each tile die; the parts above their throttle point whose temperature still
rises, and those 3 °C below it. Parts: 0–3 tile dies, 4–23 stacks, 24 and 25 hubs, 26 the conversion stage. -/
structure TickReading where
  crypto : Nat
  draw : Nat
  scan : Nat
  demand : List Nat
  drawn : List Nat
  delivered : List (Fin 1280 × Nat)
  hot : List (Fin 27)
  recovered : List (Fin 27)
  deriving DecidableEq, Repr


/-- One command of the block, one constructor per row of the table of operations and events. -/
inductive Instr where
  /-- A BAR0 access that is not a naturally aligned 4- or 8-byte access, or that targets a reserved offset, completes on PCIe, reads 0, sets GLB_ERR.BAR_PV and increments GLB_PV_COUNT (R27). -/
  | bar0AccessViolation (write : Bool) (off : Nat) (width : Nat)
  /-- A write to a BAR0 register that has no row of its own, including RW1C clears and base address writes, takes effect according to the register's access code (R12). -/
  | registerWrite (off : Nat) (wide : Bool) (value : BitVec 64)
  /-- A write to a mailbox doorbell is accepted as the new command producer value or ignored with reason DOORBELL_SIZE or DOORBELL_RANGE (R32). -/
  | doorbellWrite (m : Ring) (w : DoorbellWrite)
  /-- A write to MBX_CFG with ENABLE set zeroes the ring indices and the doorbell and makes the mailbox ACTIVE, or is ignored with reason CFG_INVALID (R30). -/
  | mbxEnable (m : Ring) (fields : BitVec 31)
  /-- A write to MBX_CFG with ENABLE 0 while ENABLE is 1 starts a reset of the mailbox that ends in DISABLED (R30). -/
  | mbxDisable (m : Ring) (fields : BitVec 31)
  /-- A write of 1 to MBX_CTRL.RESET stops admission and puts the mailbox in RESETTING (R40). -/
  | mbxCtrlReset (m : Ring)
  /-- Once every admitted command has written its response, the module zeroes the ring indices and the doorbell, discards unread slots and makes the mailbox ACTIVE or DISABLED (R40). -/
  | mbxResetComplete (m : Ring)
  /-- A write to MBX_CTRL.IRQ_REARM sends the mailbox's MSI-X vector if any response is unreported (R38). -/
  | irqRearm (m : Ring)
  /-- A host write of RSP_CONS frees response ring space, or is ignored with reason RSP_CONS_RANGE (R37). -/
  | rspConsWrite (m : Ring) (value : Word)
  /-- A host write of STREAM_CONS frees stream slots, or is ignored with reason STREAM_CONS_RANGE (R60). -/
  | streamConsWrite (st : Fin 1024) (value : BitVec 64)
  /-- A write of 1 to PIW_STATUS.OVERRUN clears it, so that the next window write begins a packet at PIW_NEXT (R66). -/
  | piwOverrunClear (w : Fin 64)
  /-- A write to PIW_CTRL.FLUSH requests a flush of the window, which takes effect at the next packet boundary (R68). -/
  | piwCtrlFlush (w : Fin 64)
  /-- After queued packets are admitted and answered, the window state is reset and FLUSH_DONE is set (R68). -/
  | piwFlushComplete (w : Fin 64)
  /-- A BAR2 write into a posted ingest window either becomes part of a packet or is ignored, setting OVERRUN or recording a PIW_WRITE violation (R66). -/
  | piwDataWrite (w : Fin 64) (off : Fin 1048576) (bytes : Bytes)
  /-- An aligned 8-byte write at PIW_NEXT completes a window packet, which is checked and then queued, answered PIW_SLOT or loses the framing (R63). -/
  | piwSlotWrite (w : Fin 64) (slot : BitVec 64)
  /-- A window packet whose slot has not arrived within PIW_CFG.TIMEOUT is discarded with reason PIW_TIMEOUT, and the window's framing is lost (R63). -/
  | piwPacketTimeout (w : Fin 64)
  /-- A queued window packet is admitted at the ingest admission rate, and its bytes are freed (R67). -/
  | piwPacketAdmit (w : Fin 64) (opens : Bool) (plain : Bytes)
  /-- Flaum gives the next mailbox with pending packets its round-robin turn and fetches up to 8 packets or 256 KiB from it for admission (R34). -/
  | mailboxTurn (packets : List Packet)
  /-- A packet whose header is covered but whose end is not covered within 10 ms is answered PROTOCOL_VIOLATION and the mailbox halts (R33). -/
  | incompletePacket (m : Ring)
  /-- A command that waited for ring space, the in-flight limit, a fence, a bound CSN or the rate bucket is admitted once the condition clears (R36). -/
  | admissionResume (m : Mbx)
  /-- Completed responses are written to the response ring, followed by the RSP_PROD and CMD_CONS shadows and, when due, the MSI-X vector (R38). -/
  | responseWrite (m : Ring) (count : Nat)
  /-- When IRQ_MOD.TIME_US has passed since the oldest unreported response, the mailbox's vector is sent (R38). -/
  | irqModTimer (m : Ring)
  /-- A stream record is written, the producer shadow is updated and the stream interrupt is raised under the SOPEN.IRQ fields (R59). -/
  | streamRecordWrite (st : Fin 1024)
  /-- A command with no deadline that has waited 1 s for stream room ends DEADLINE_EXCEEDED (R60). -/
  | streamWaitTimeout (st : Fin 1024)
  /-- A command that ended without completing writes a zero-length ABORTED record once stream room appears (R60). -/
  | streamAbortRecord (st : Fin 1024)
  /-- Returns the identity payload of Table 2-19 (R55). -/
  | identify (m : Mbx) (tag : Word)
  /-- Returns the season, the profile, the admit bits, the power budget and the mailbox counters (R55). -/
  | getStatus (m : Mbx) (tag : Word)
  /-- Echoes a payload of 0–4,096 bytes (R55). -/
  | nop (m : Mbx) (tag : Word)
  /-- Changes the power profile: admission rates and shares change at once, and the envelope switches at a tick once earlier acknowledged operations have committed (R459). -/
  | setProfile (m : Mbx) (tag : Word)
  /-- At the next tick boundary after its wait, the new envelope and tile clock ceiling take effect and SET_PROFILE answers DONE (R459). -/
  | profileSwitch
  /-- Moves the module to Autumn drain, back to Summer, or towards Winter, as Table 18-4 gives (R456). -/
  | setSeason (m : Mbx) (tag : Word)
  /-- Sets a tenant's class, rate, in-flight limit and quotas (R423). -/
  | tenantConfigure (m : Mbx) (tag : Word)
  /-- Refuses the tenant's further non-identity commands and stops its windows, optionally zeroising its keys (R425). -/
  | tenantDisable (m : Mbx) (tag : Word)
  /-- Allocates a result stream ring for the tenant (R57). -/
  | streamOpen (m : Mbx) (tag : Word)
  /-- Frees a stream that no command is writing to (R61). -/
  | streamClose (m : Mbx) (tag : Word)
  /-- Stops the target command at its next step boundary and answers after the target's response (R56). -/
  | stopCommand (m : Mbx) (tag : Word)
  /-- Binds a posted ingest window to a tenant (R65). -/
  | piwBind (m : Mbx) (tag : Word)
  /-- Flushes a window, then clears its binding and ENABLE (R65). -/
  | piwUnbind (m : Mbx) (tag : Word)
  /-- Returns the DIK, AK or import key certificate (R76). -/
  | getCertificates (m : Mbx) (tag : Word)
  /-- Unwraps a tenant root key under hybrid HPKE, stores it and returns its KCV; a key matching the collection directory supplies a waiting collection (R83). -/
  | keyImport (m : Mbx) (tag : Word) (opened : Option Bytes)
  /-- Derives a session key from an imported TRK and returns a signed attestation (R85). -/
  | sessionOpen (m : Mbx) (tag : Word) (opened : Option Bytes)
  /-- Closes a session after the commands admitted before it complete, then erases K_s (R90). -/
  | sessionClose (m : Mbx) (tag : Word)
  /-- Raises a collection's key generation under a named TRK (R91). -/
  | keyRotate (m : Mbx) (tag : Word)
  /-- Stops affected sessions, ends affected commands, zero-fills affected content and erases the keys, making collections key-lost (R94). -/
  | keyZeroise (m : Mbx) (tag : Word)
  /-- When the zero-fill of affected content ends, the keys are erased and KEY_ZEROISE answers with its counts (R94). -/
  | zeroiseFillDone (m : Mbx) (tag : Word)
  /-- Checks the descriptor, the field table and the quantiser image, reserves HBM, builds the centroid map and creates the collection (R101). -/
  | collectionCreate (m : Mbx) (tag : Word)
  /-- Programs the drop into the collection directory, stops admission and discards uncommitted operations (R132). -/
  | collectionDrop (m : Mbx) (tag : Word)
  /-- When no reference to the dropped collection remains, the module answers DONE, zero-fills its HBM and queues its flash for reclaim (R132). -/
  | collectionDropComplete (collection : Word)
  /-- Returns the descriptor, the field table and the state block of a collection (R130). -/
  | collectionDescribe (m : Mbx) (tag : Word)
  /-- Admits vector items as one operation with the next CSN and writes its ingest-log record (R105). -/
  | insertVectors (m : Mbx) (tag : Word)
  /-- Admits text items as one operation with the next CSN, for tokenisation and encoding after acknowledgement (R105). -/
  | insertText (m : Mbx) (tag : Word)
  /-- Replaces every visible version of each ID with a new vector version at one CSN (R114). -/
  | upsertVectors (m : Mbx) (tag : Word)
  /-- Replaces every visible version of each ID with a new text version at one CSN (R114). -/
  | upsertText (m : Mbx) (tag : Word)
  /-- Marks every version of each listed ID that is visible at d − 1 as deleted at CSN d (R115). -/
  | deleteItems (m : Mbx) (tag : Word)
  /-- Installs a predicate tombstone at its CSN, to be materialised in the background (R116). -/
  | deleteByFilter (m : Mbx) (tag : Word)
  /-- Once the log record is in the log buffer and both log peers have confirmed it, or it is in flash, the operation is answered DONE with its CSN (R24). -/
  | operationAck (collection : Word) (csn : Nat) (programmed : Bool)
  /-- When every NBU write of an operation is done, the operation is applied (R110). -/
  | operationApply (collection : Word) (done : Applied)
  /-- The collection's committed CSN advances over the gap-free prefix of applied operations (R110). -/
  | commitPublish (collection : Word)
  /-- A text ingest batch closes at 64 sequences or 1 ms after its first, and its encoder pass starts (R293). -/
  | encoderBatchClose
  /-- Waits until the collection's committed, or committed and sealed, CSN reaches the named CSN (R131). -/
  | commitWait (m : Mbx) (tag : Word)
  /-- COMMIT_WAIT answers once its condition holds, or DEADLINE_EXCEEDED once TIMEOUT_US passes (R131). -/
  | commitWaitComplete (m : Mbx) (tag : Word)
  /-- Triggers the sealing of the open segment and answers once it is SEALED (R123). -/
  | segmentSeal (m : Mbx) (tag : Word)
  /-- The open segment, of items or of tombstones, reaches SEAL_ITEMS or SEAL_MS, or the log reaches 75 %, and a seal begins at the next commit
  boundary (R123, R126). -/
  | segmentSealTrigger (collection : Word) (tombstones : Bool)
  /-- The verified manifest moves a segment from SEALING to SEALED, releases its log records and evaluates rebalancing (R124). -/
  | segmentSealed (collection : Word) (seg : Nat) (failed : Bool)
  /-- A replaced segment with no bound command is RETIRED and its space is freed (R122). -/
  | segmentRetire (collection : Word) (seg : Nat)
  /-- The background marks of a predicate tombstone are done; once they are sealed, the tombstone is removed (R116). -/
  | tombstoneMaterialised (collection : Word) (csn : Nat)
  /-- Starts a compaction on request and answers after its last list switch (R128). -/
  | compact (m : Mbx) (tag : Word)
  /-- The module starts a compaction once a sealed segment's deleted share reaches COMPACT_PCT (R128). -/
  | autoCompactionStart (collection : Word)
  /-- Compaction atomically switches one list's extents to the rewritten ones (R129). -/
  | compactionListSwitch (collection : Word) (lost : Option Loss)
  /-- Returns every visible version of the requested IDs at the bound CSN (R133). -/
  | getItems (m : Mbx) (tag : Word)
  /-- A merge and split of centroid slots is published as a new map version at a commit boundary (R151). -/
  | rebalancePublish (collection : Word)
  /-- The background pass that moves a legacy extent into s or y completes and publishes its own map version (R151). -/
  | legacyRedistributeDone (collection : Word) (slot : Nat)
  /-- A damaged centroid, edge or forwarding run is rewritten from the map record, or its slots are rebuilt (R153). -/
  | mapRunRepair (collection : Word) (run : MapRun) (recordHolds : Bool)
  /-- When the last missing key of a collection is imported, the collection is rebuilt from manifests, tombstone segments and the log (R134). -/
  | collectionRebuild (collection : Nat)
  /-- The rebuild ends: C becomes the highest logged CSN, F is set to C and REBUILDING clears (R134). -/
  | collectionRebuildDone (collection : Nat)
  /-- Binds a snapshot, traverses the centroid graph, scans, refines and returns the top K (R141). -/
  | search (m : Mbx) (tag : Word)
  /-- A search whose final candidates are scored by a cross-encoder (R164). -/
  | searchRerank (m : Mbx) (tag : Word)
  /-- Runs up to 256 searches bound in one admission step (R145). -/
  | searchBatch (m : Mbx) (tag : Word)
  /-- Refine reads start for the best half of the candidates once the candidate list first holds n_c IDs (R221). -/
  | refinePrefetch (m : Mbx) (tag : Word)
  /-- Speculative work not confirmed at the end of traversal or selection is discarded without any trace in results or metering (R225). -/
  | speculationSquash (m : Mbx) (tag : Word)
  /-- A command's deadline passes and it ends DEADLINE_EXCEEDED at its next step boundary (R166). -/
  | commandDeadlineExpire (m : Mbx) (tag : Word)
  /-- At a shard's hedge point, the sub-query is sent again to an IN_SYNC replica (R231). -/
  | subqueryHedge (m : Mbx) (tag : Word) (shard : Nat) (replicas : List Half)
  /-- A refine read still outstanding at its hedge point is sent to the replica (R235). -/
  | refineReadHedge (m : Mbx) (tag : Word) (place : ReadAt)
  /-- Selects the best K of the supplied scored entries (R210). -/
  | selectTopk (m : Mbx) (tag : Word)
  /-- Merges the supplied partial lists into the best K (R211). -/
  | mergePartial (m : Mbx) (tag : Word)
  /-- A full staging buffer is sorted into the gated list, and t is raised (R205). -/
  | gateCompaction (m : Mbx) (tag : Word)
  /-- An NBU scans the bound extents of a job and produces its partial list (R177). -/
  | scanJob (nbu : Fin 1280)
  /-- An NBU job finishes, and its list is delivered to the crew's selection unit (R179). -/
  | scanJobComplete (nbu : Fin 1280)
  /-- A new threshold t reaches an NBU, which applies it to the rows it scores afterwards (R204). -/
  | thresholdUpdate (nbu : Fin 1280) (m : Mbx) (tag : Word)
  /-- An NBU read-modify-write sets DEL_CSN to min(DEL_CSN, d) on a row (R184). -/
  | nbuMarkWrite (collection : Word) (csn id ins : Nat)
  /-- An uncorrectable granule ends the reading command, is poisoned, and its extent is rebuilt (R186). -/
  | granuleUncorrectable (nbu : Fin 1280) (addr : BitVec 30) (hit : GranuleHit) (reader : Option (Mbx × Word))
  /-- A rebuilt extent replaces the poisoned one atomically, and waiting commands resume (R186). -/
  | extentRebuildDone (collection list extent : Nat) (ok : Bool)
  /-- A 2 KiB run with an uncorrectable error, or 8 corrected errors in an hour, is retired and its extents moved (R187). -/
  | runRetire (nbu : Fin 1280) (run : Fin 524288)
  /-- Patrol scrub reads and corrects the granules of a pseudo-channel, completing a pass within 24 h (R187). -/
  | patrolScrub (nbu : Fin 1280) (corrected : List (BitVec 30 × Fin 3)) (complete : Bool)
  /-- An NBU fails its self-check, and tiles take over its pseudo-channel (R195). -/
  | nbuFailed (nbu : Fin 1280)
  /-- An unusable pseudo-channel makes its NBU OFFLINE, and its extents are rebuilt elsewhere (R195). -/
  | pseudoChannelOffline (nbu : Fin 1280)
  /-- Returns NBU status, counters, the ECC log or a pattern test result (R191). -/
  | nbuDiagRead (m : Mbx) (tag : Word)
  /-- Begins, feeds, commits or aborts a phased model image load (R289). -/
  | modelLoad (m : Mbx) (tag : Word)
  /-- Once the committed image is programmed to flash, the new generation becomes current and COMMIT answers (R289). -/
  | modelLoadCommitDone (load : Word)
  /-- A load that receives no phase for 60 s is discarded as though aborted (R289). -/
  | loadIdleTimeout (load : Word)
  /-- Makes model generations unbindable and frees them when their last bound command ends (R291). -/
  | modelRetire (m : Mbx) (tag : Word)
  /-- Checks a placement image and programs it to flash (R285). -/
  | placementLoad (m : Mbx) (tag : Word)
  /-- Once programmed and rechecked, the placement image comes into force and PLACEMENT_LOAD answers (R286). -/
  | placementInForce
  /-- Encodes texts or token sequences to vectors (R300). -/
  | encode (m : Mbx) (tag : Word)
  /-- Scores sequence pairs with a cross-encoder (R300). -/
  | scorePairs (m : Mbx) (tag : Word)
  /-- Prefills a prompt on a decoder and produces tokens until an ending of R302 (R301). -/
  | generate (m : Mbx) (tag : Word)
  /-- The decoder chooses the next token, writes its keys and values, and releases text (R301). -/
  | generateTokenStep (m : Mbx) (tag : Word)
  /-- Loads a vocabulary image in phases (R305). -/
  | vocabLoad (m : Mbx) (tag : Word)
  /-- Retires vocabulary generations (R306). -/
  | vocabRetire (m : Mbx) (tag : Word)
  /-- Tokenises text, optionally continuing through a tokenize context (R313). -/
  | tokenize (m : Mbx) (tag : Word)
  /-- A tokenize context that receives no command for 10 s is freed (R313). -/
  | tokenizeContextExpire (ctx : Half)
  /-- Turns token IDs into text (R315). -/
  | detokenize (m : Mbx) (tag : Word)
  /-- Loads a grammar image in phases (R320). -/
  | grammarLoad (m : Mbx) (tag : Word)
  /-- Retires grammar generations (R306). -/
  | grammarRetire (m : Mbx) (tag : Word)
  /-- Creates a feature table locally or on every member of a composition (R324). -/
  | tableCreate (m : Mbx) (tag : Word)
  /-- Refuses later commands on the table and frees its rows once admitted commands complete (R336). -/
  | tableDrop (m : Mbx) (tag : Word)
  /-- Returns rows for keys in a step, possibly beginning a step close (R333). -/
  | tableLookup (m : Mbx) (tag : Word)
  /-- Buffers row updates for application at the step close (R331). -/
  | tableUpdate (m : Mbx) (tag : Word)
  /-- Reports skew or forces a migration evaluation at the next close (R335). -/
  | tableRebalance (m : Mbx) (tag : Word)
  /-- Once step-s commands complete, END is sent and buffered updates are applied when every END is held (R330). -/
  | tableStepClose (table : Word)
  /-- At a close, the coordinator moves hot blocks to cool members under a new block map (R334). -/
  | tableBlockMigrate (table : Word)
  /-- After a lookup answers, the NEXT rows are read into a prefetch buffer (R333). -/
  | tablePrefetch (m : Mbx) (table : Word)
  /-- A prefetch buffer not used within 10 ms is freed (R333). -/
  | tablePrefetchExpire (m : Mbx) (table : Word)
  /-- Returns the fabric summary or the port entries (R418). -/
  | fabricStatus (m : Mbx) (tag : Word)
  /-- Checks a route image and schedules its activation (R399). -/
  | routeLoad (m : Mbx) (tag : Word)
  /-- At ACTIVATE_AT, the route image takes effect and ROUTE_LOAD answers (R400). -/
  | routeActivate
  /-- Checks a gate list and schedules it on the named ports (R411). -/
  | gateListLoad (m : Mbx) (tag : Word)
  /-- At the first cycle boundary of the new list at or after ACTIVATE_AT, the gate list takes effect (R412). -/
  | gateListActivate (port : Fin 32)
  /-- Sets the module's partition and its log peers (R426). -/
  | partitionSet (m : Mbx) (tag : Word) (answer : PeerAnswer)
  /-- Fences, unfences or retires the log of a node, logically or electrically (R432). -/
  | fenceSet (m : Mbx) (tag : Word)
  /-- Joins a composition and answers once it is ACTIVE (R427). -/
  | compositionJoin (m : Mbx) (tag : Word) (outside : Option Half)
  /-- A JOIN still FORMING after 60 s answers DEADLINE_EXCEEDED (R427). -/
  | compositionJoinTimeout (m : Mbx) (tag : Word)
  /-- Completes local work on the composition, then tells the coordinator to treat the module as lost (R431). -/
  | compositionLeave (m : Mbx) (tag : Word)
  /-- Sets or removes the replicas of a collection (R437). -/
  | replicaSet (m : Mbx) (tag : Word) (answer : ReplicaAnswer)
  /-- Returns the media summary, die entries or media events (R390). -/
  | mediaStatus (m : Mbx) (tag : Word)
  /-- Grants a host memory region to the module (R344). -/
  | hostRegionGrant (m : Mbx) (tag : Word)
  /-- Stops using a host region and answers once its outstanding accesses are done (R349). -/
  | hostRegionRevoke (m : Mbx) (tag : Word)
  /-- A third failure within 1 s, or a completion timeout, makes a host region FAILED (R350). -/
  | hostRegionFailed (region : Word) (timeout : Bool)
  /-- Refine sectors of sealed segments are copied into a CACHE region (R348). -/
  | hostCacheFill (region collection : Word) (seg sector : Nat)
  /-- Returns the caller's meter and speculation account record (R445). -/
  | meterRead (m : Mbx) (tag : Word)
  /-- Returns, and optionally clears, the records of a range of tenants (R445). -/
  | meterReadAll (m : Mbx) (tag : Word)
  /-- Returns event log entries from a sequence number (R447). -/
  | logRead (m : Mbx) (tag : Word)
  /-- Runs a tile self-test, a crypto known-answer test, a scrub pass or a flash patrol pass (R448). -/
  | diagRun (m : Mbx) (tag : Word) (pass : Word) (fail : Word) (durationUs : Word)
  /-- At the end of each one-second interval, a suppressed-count entry is written for each tenant whose events were suppressed (R446). -/
  | logIntervalEnd
  /-- An access without data at its late bound ends its command TIER_LATE, and its later completion is discarded (R351). -/
  | lowerTierLate (m : Mbx) (tag : Word) (read : Nat)
  /-- A host-tier read completes and is checked, or counts as failed (R350). -/
  | hostTierReadComplete (m : Mbx) (tag : Word) (read : Nat) (outcome : HostRead)
  /-- A flash read is decoded through the read steps and returns data or a status (R374). -/
  | flashReadComplete (m : Mbx) (tag : Word) (read quad : Nat) (step : Machine.ReadStep) (mismatch : Bool)
  /-- A program completes, is verified, its stripe is completed and its journal record is appended (R371). -/
  | flashProgramComplete (stream : Fin 5) (hub : Fin 2) (units : List Word) (collection segment : Nat)
  /-- A program or verify fail closes the band, retires the quad-block and rewrites abandoned units (R372). -/
  | programFail (stream : Fin 5) (hub : Fin 2) (member : Fin 16) (verify : Bool)
  /-- An erase fail retires the quad-block (R372). -/
  | eraseFail (quad : Nat)
  /-- Once no read and no pending journal record holds a quad-block, it is erased (R373). -/
  | quadBlockErase (quad : Nat)
  /-- A journal sector is programmed at 256 records, 1 ms after its first record, or on demand (R368). -/
  | journalSectorProgram (demand : Bool)
  /-- A map checkpoint begins after 10 minutes or 4 GiB of journal, or when no map page can be evicted (R369). -/
  | checkpointStart
  /-- The checkpoint root becomes durable (R369). -/
  | checkpointComplete
  /-- A map page leaves HBM, written to a MAP region if dirty (R365). -/
  | mapPageEvict
  /-- Free bands fall below 2 %, and garbage collection chooses a victim band (R376). -/
  | gcStart
  /-- A refresh threshold is reached and the quad-block's units are moved (R380). -/
  | quadBlockRefresh (quad : Nat)
  /-- The erase count spread on a die exceeds 5 % of endurance, and the coldest band is moved (R379). -/
  | wearLevelMove (die : Fin 1024)
  /-- Every 7 days, sampled wordlines of each quad-block are read (R380). -/
  | flashPatrol (quad : Nat) (weak : Bool)
  /-- Mapped units reach USABLE_BYTES minus 1 % and the media becomes LOW_SPACE (R378). -/
  | lowSpaceEnter
  /-- Usage falls below USABLE_BYTES minus 2 % and LOW_SPACE ends (R378). -/
  | lowSpaceExit
  /-- A die is declared FAILED, and its units are rebuilt into new bands (R382). -/
  | dieFailed (die : Fin 1024)
  /-- A channel is declared FAILED (R382). -/
  | channelFailed (channel : Fin 64)
  /-- Every mapped unit of a failed die has been rebuilt (R382). -/
  | dieRebuildDone (die : Fin 1024)
  /-- A sealed segment of a publishing class is published to the shared region (R352). -/
  | sharedPublish (collection : Word) (seg : Nat)
  /-- Every 1 s, a reader renews its leases on shared objects (R353). -/
  | leaseRenew (owner : Half)
  /-- A lease whose holder has been unreachable for 10 s expires, and the object may be reclaimed (R353). -/
  | leaseExpire (holder : Half)
  /-- A tile is declared failed, and its memberships' items return to their crews (R252). -/
  | tileFailed (tile : Fin 4096) (loss : TileLoss)
  /-- A tile with 16 corrected errors in an hour is retired and substituted once its items complete (R252). -/
  | tileRetire (tile : Fin 4096)
  /-- The spare finishes loading and takes the logical tile number (R253). -/
  | spareSubstituted (tile : Fin 4096)
  /-- A queued command obtains a crew once tiles become free (R247). -/
  | crewForm (cls : Fin 64)
  /-- A command waiting 200 µs in a class admission queue is answered BUSY_RETRY (R248). -/
  | crewQueueTimeout (cls : Fin 64)
  /-- A member with an empty queue takes half the queue of the busiest member (R229). -/
  | workSteal (m : Mbx) (tag : Word) (tile : Fin 4096)
  /-- A member below 50 % of the crew median over 100 µs receives no new items (R230). -/
  | slowMember (m : Mbx) (tag : Word) (pace : MemberPace)
  /-- A tile named slow in 16 commands within 1 s is marked SUSPECT for 10 minutes (R441). -/
  | suspectTile (tile : Fin 4096)
  /-- A flit failing after three retries ends its requests DATA_DAMAGED and takes the bridge down (R17). -/
  | flitRetryExhausted (bridge : Fin 28) (carried : List (Mbx × Word))
  /-- Held messages are released on the new route once the old route has drained (R242). -/
  | bridgeReroute (bridge : Fin 28)
  /-- Each millisecond, the governor divides the pool between scans and tiles and sets clocks and RATE_PCT (R460). -/
  | governorTick (reading : TickReading)
  /-- A die or stack over its share for 10 µs has its clock or NBU rate halved until the next tick (R462). -/
  | limiterEvent (stack : Bool) (unit : Fin 20)
  /-- A sensor over its trip point for 100 µs asserts THERM_TRIP_N, latches the trip and runs the power-loss flush (R464). -/
  | thermalTrip (part : Fin 27)
  /-- The hold-up warning starts the power-loss flush (R451). -/
  | holdupWarnAssert (lowNs : Nat)
  /-- An input below 355 V for 20 µs is a power loss and starts the flush (R449). -/
  | inputUndervoltage (volts : Fin 355)
  /-- An input above 440 V for 50 µs starts the flush, is recorded, and holds the module in reset (R449). -/
  | inputOvervoltage (volts : Nat)
  /-- The flush set and marker are programmed in SLC and the keys erased (R387). -/
  | powerLossFlush (programmed : Bool)
  /-- After the flush's last step, the module holds itself in reset (R452). -/
  | flushEnd
  /-- After 100 ms of good conditions, the held module leaves reset and Spring begins (R452). -/
  | resetRelease (volts : Nat) (holdupN : Bool) (sysClk : BitVec 2) (straps : Machine.Straps)
  /-- A RESET_N low of at least 1 µs latches a reset request, flushing first where required (R453). -/
  | resetNAssert (lowNs : Nat) (cool : Bool)
  /-- The straps are latched and Spring begins, when the other conditions hold (R474). -/
  | resetNDeassert (straps : Machine.Straps)
  /-- Spring recovers media, reloads images and restores the collection directory, then Summer begins (R455). -/
  | springBringUp (found : MediaFound) (failedTiles : List (Fin 4352))
  /-- When the drain obligations are met, Winter entry begins if it is pending (R456). -/
  | drainComplete
  /-- Mailboxes close, ports go down, keys are wrapped, HBM enters self-refresh and the dies power off (R457). -/
  | winterEntry
  /-- An MCTP vendor WAKE message in Winter starts the wake of Table 18-5 (R454). -/
  | wake
  /-- The wake steps complete and the module enters Summer (R457). -/
  | wakeComplete
  /-- The always-on domain answers the vendor STATUS message with season, strap and flags (R454). -/
  | i3cStatus
  /-- An MCTP control message on the sideband is answered (R454). -/
  | mctpControlMessage (msg : Bytes)
  /-- Answers with SPDM version 1.3 (R77). -/
  | spdmGetVersion (tr : Fin 3)
  /-- Answers with the capabilities of Table 3-4 (R77). -/
  | spdmGetCapabilities (tr : Fin 3) (flags : Word)
  /-- Negotiates the algorithms of Table 3-4 (R77). -/
  | spdmNegotiateAlgorithms (tr : Fin 3) (supported : Bool)
  /-- Returns certificate chain digests (R77). -/
  | spdmGetDigests (tr : Fin 3)
  /-- Returns a certificate chain from slot 0 or 1 (R77). -/
  | spdmGetCertificate (tr : Fin 3) (slot : Byte) (off : Nat) (len : Nat)
  /-- Answers a challenge with an AK signature (R77). -/
  | spdmChallenge (tr : Fin 3) (slot : Byte) (nonce : Bytes)
  /-- Returns the signed measurement blocks (R78). -/
  | spdmGetMeasurements (tr : Fin 3) (index : Byte) (signed : Bool) (nonce : Bytes)
  /-- Starts a management session, or answers Busy while one is open (R79). -/
  | spdmKeyExchange (tr : Fin 3) (slot : Byte) (reqId : Half)
  /-- Completes the mutually authenticated management session (R79). -/
  | spdmFinish (tr : Fin 3) (anchored : Bool) (verified : Bool)
  /-- Keeps the SPDM session alive (R77). -/
  | spdmHeartbeat (tr : Fin 3)
  /-- Updates the session keys (R77). -/
  | spdmKeyUpdate (tr : Fin 3) (op : Byte)
  /-- Ends the management session (R79). -/
  | spdmEndSession (tr : Fin 3)
  /-- Writes the management trust anchor in slot 1 (R79). -/
  | spdmSetCertificate (tr : Fin 3) (slot : Byte) (inSession : Bool) (chain : Bytes)
  /-- Receives a chunk of a large SPDM message (R77). -/
  | spdmChunkSend (tr : Fin 3) (seq : Nat) (last : Bool) (chunk : Bytes)
  /-- Returns a chunk of a large SPDM response (R77). -/
  | spdmChunkGet (tr : Fin 3) (seq : Nat)
  /-- Any other SPDM request is answered with ERROR UnsupportedRequest (R77). -/
  | spdmUnsupportedRequest (tr : Fin 3) (code : Byte)
  /-- A TAP instruction is accepted or treated as BYPASS according to lifecycle and key state (R80). -/
  | jtagInstruction (ir : JtagInstr)
  /-- A PCIe reset disables the mailboxes, resets the windows, frees the streams and discards unwritable responses (R475). -/
  | perstNAssert
  /-- The endpoint becomes configuration-ready within 100 ms (R475). -/
  | perstNDeassert
  /-- FLASH_PG low stops flash driving, and a low of 10 µs in Summer or drain acts as a hold-up warning (R472). -/
  | flashPgLow (lowUs : Nat)
  /-- FLASH_PG high lets channel reset and training proceed in Spring (R472). -/
  | flashPgHigh
  /-- The hub falls back to an internal oscillator and runs the power-loss flush (R473). -/
  | sysRefclkLoss (hub : Fin 2)
  /-- Every Vievo port of the hub goes DOWN until the clock has been present for 10 ms (R473). -/
  | fabRefclkLoss (hub : Fin 2)
  /-- Loss of PCIE_REFCLK is treated as a PERST_N assertion (R473). -/
  | pcieRefclkLoss
  /-- A KIND 1 management record delivers one management mailbox packet (R442). -/
  | mgmtRecordPacket (p : Fin 2) (length : Nat) (packet : Packet)
  /-- A KIND 2 management record delivers one SPDM message (R442). -/
  | mgmtRecordSpdm (p : Fin 2) (length : Nat) (msg : Bytes)
  /-- A KIND 3 record is received, or one is sent after 1 s of silence (R442). -/
  | mgmtKeepalive (p : Fin 2) (received : Bool)
  /-- A connection with no record for 5 s is closed (R442). -/
  | mgmtConnectionTimeout (p : Fin 2)
  /-- A response with no open connection for 60 s is discarded and logged (R443). -/
  | mgmtResponseDiscard (p : Fin 2)
  /-- Lanes detect a partner and train, and the port enters DISCOVERY_ONLY, or DEGRADED width (R396). -/
  | portTraining (port : Fin 32) (lanes : BitVec 8)
  /-- A DOWN port retrains after 10 ms (R396). -/
  | portRetrainTimer (port : Fin 32)
  /-- A HELD port retries discovery after 10 s (R397). -/
  | heldRetryTimer (port : Fin 32)
  /-- A discovery HELLO gives the partner's serial, node ID, port and build (R397). -/
  | hello
  /-- The partner's certificates are received and verified, and the port moves to KEYING or HELD (R397). -/
  | identity (verified : Bool)
  /-- The partner's hybrid encapsulation is received for the link key schedule (R398). -/
  | kex
  /-- A verified confirm installs the link keys and brings the port UP; a failed one holds it (R398). -/
  | kexConfirm (verified : Bool)
  /-- After 2^40 frames or 24 h, the link key exchange repeats on the live link (R398). -/
  | linkRekey (port : Fin 32)
  /-- A frame is accepted in FSEQ order, or dropped and answered with RETRY_REQ (R394). -/
  | linkFrameReceive (port : Fin 32) (header packet : Bytes) (check : FrameCheck)
  /-- The sender replays frames from LH.ACK + 1 (R394). -/
  | retryReq (port : Fin 32) (header : Bytes) (check : FrameCheck)
  /-- No acknowledgement for 1 ms, or 8 fruitless replays, takes the link DOWN (R394). -/
  | linkAckTimeout (port : Fin 32)
  /-- A pre-FEC error rate above 2.4e-4 over 1 s flags the port MARGINAL (R392). -/
  | portMarginal (port : Fin 32)
  /-- A packet not addressed to the module is forwarded on a hashed listed port, or dropped under R403 (R401). -/
  | packetForward (port : Fin 32)
  /-- A packet waiting 2 ms at an egress queue is dropped and its source notified (R403). -/
  | packetAged (port : Fin 32) (cls : Fin 7)
  /-- A class takes its deficit round-robin turn on a port and sends frames while its gate is open (R409). -/
  | egressTurn (port : Fin 32)
  /-- A message with no packet for 1 ms is dropped and counted as lost (R405). -/
  | reassemblyTimeout (src : Half) (cls : Fin 7)
  /-- A packet is added to reassembly, and a broken or complete message is dropped or delivered (R405). -/
  | messageReceive (port : Fin 32)
  /-- After 10,000 violations within 1 s, the port is HELD for 10 s (R406). -/
  | protocolViolationHold (port : Fin 32)
  /-- A received UNREACHABLE makes the source treat the named message as not delivered (R403). -/
  | unreachable
  /-- A PTP message is processed for fabric time (R414). -/
  | time (reading : TimeReading)
  /-- On first reaching LOCKED after reset, the module steps its time once, and gate cycles restart (R415). -/
  | timeFirstLock
  /-- The parent is lost after LOCKED, and time enters HOLDOVER (R415). -/
  | timeHoldover
  /-- A member admits a fabric sub-query on its shard and sends an admission notice (R165). -/
  | subquery
  /-- The receiving module records the CSN and map version a member bound (R232). -/
  | admitNotice
  /-- A partial list is merged, or discarded as a second list for its shard, or treated as not served (R216). -/
  | partialList
  /-- A cancel stops a sub-query at its next step boundary (R225). -/
  | cancel
  /-- A replica reads the requested record and answers DATA or FAIL (R235). -/
  | hedgeRead (outcome : HedgeOutcome)
  /-- A hedged refine answer is used if it comes first (R235). -/
  | hedgeData
  /-- A replica whose CSN does not commit within 1 ms declines the hedge (R233). -/
  | hedgeBindTimeout (id shard : Nat)
  /-- A log peer stores a sealed record and confirms it (R435). -/
  | logRecord
  /-- A peer confirmation is recorded toward the acknowledgement (R24). -/
  | logConfirm
  /-- An unconfirmed log record is resent after 100 µs (R435). -/
  | logRecordResend (collection : Word) (csn : Nat) (peer : Half)
  /-- A peer drops a source's records up to the released CSN (R436). -/
  | logRelease
  /-- A peer returns the records above the requested CSN, then FETCH_END (R439). -/
  | logFetch
  /-- A serving replica applies records both peers hold, in CSN order (R439). -/
  | fetchData
  /-- A replica applies an operation, a segment chunk or a rebalance from its primary, or handles an ACK or COPY_END (R438). -/
  | replicaOp (opened : Option (List (Machine.Version × Option Nat) × List (Nat × Nat × Nat) × Option Machine.CentroidMap))
  /-- On loss of a primary, the coordinator names an IN_SYNC replica as the shard's read-only server (R439). -/
  | replicaPromote (composition : Word) (shard : Half) (replicas : List (Half × Nat)) (peers : Option (Half × Half))
  /-- A member handles a table CREATE, UPDATE, LOOKUP, ROWS, END, DROP or acknowledgement message (R330). -/
  | tableOp
  /-- A migrated block's rows are received at its new home (R334). -/
  | tableBlock
  /-- An owner serves shared sectors or refuses the read (R354). -/
  | sharedRead
  /-- A reader receives shared sectors and opens them under CK (R353). -/
  | sharedData (opens : Bool)
  /-- An owner grants or refuses leases on shared objects (R353). -/
  | lease
  /-- A member forwards a broadcast, barrier release or heartbeat down the collective tree (R416). -/
  | collDown
  /-- A member reports barrier arrival or heartbeat counts to its parent (R416). -/
  | collUp
  /-- Every 1 ms, a member sends a heartbeat to its parent (R428). -/
  | heartbeatTick (composition : Word)
  /-- The coordinator declares a silent member lost, raises VERSION and sends the lost list (R428). -/
  | memberLost (composition : Word) (node : Half)
  /-- A probe unanswered for 5 ms leads to a loss declaration (R428). -/
  | probeTimeout (composition : Word) (node : Half)
  /-- After 20 ms of coordinator silence, the lowest live majority member takes the role (R429). -/
  | coordinatorTakeover (composition : Word)
  /-- A member reaching no majority coordinator for 20 ms fences itself logically, and lifts it on reaching one (R429). -/
  | selfFence (composition : Word)
  /-- A member handles a JOIN, ACTIVE, LOST, PROBE, PROBE_ACK, LEAVE, COORD or FENCE message (R427). -/
  | composition
  /-- A member last too often in barriers and merges is marked SUSPECT and drained, or the mark lifts (R440). -/
  | suspectMember (composition : Word) (node : Half) (replica : Option Half)
  /-- When SOPEN.IRQ_US has passed since the oldest unreported stream record, the stream's MSI-X vector is sent (R59). -/
  | streamIrqTimer (st : Fin 1024)
  /-- Ten minutes after a tile was marked SUSPECT, the mark lifts and the tile may take new memberships again (R441). -/
  | suspectTileExpire (tile : Fin 4096)
  /-- 100 ms after DROP was sent, TABLE_DROP answers DONE without waiting for members that have not answered (R336). -/
  | tableDropTimeout (table : Word)
  /-- A replica whose C has fallen 100 ms behind the primary's returns from IN_SYNC to CATCHING_UP (R438). -/
  | replicaFallsBehind (collection : Word) (node : Half)
  /-- When the background rewrite of every edge that carries a (slot, old epoch) ends, its forwarding record is freed and the slot may take part in rebalances again (R149). -/
  | forwardingRecordRelease (collection : Word) (slot epoch : Nat)
  /-- The rewrite of a damaged 2 KiB weight run from the generation's flash copy ends, and commands waiting on the run resume (R298). -/
  | modelWeightRunRepaired (model : Word) (gen : Half) (run : Nat) (tagHolds : Bool)
  /-- A port whose lanes lose their partner or signal goes DOWN from any state (R396). -/
  | portLaneLoss (port : Fin 32)
  /-- HELLO, IDENTITY, KEX and KEX_CONFIRM messages that were lost are sent again every 100 ms (R397). -/
  | discoveryMessageRetry (port : Fin 32)
  /-- Once FAB_REFCLK has been present again for 10 ms, the hub's Vievo ports may leave DOWN and retrain (R473). -/
  | fabRefclkRestore (hub : Fin 2)
  /-- A management port loses its link; the event is logged and the management mailbox continues over the remaining transports (R443). -/
  | mgmtPortLinkLoss (p : Fin 2)
  /-- A management station opens the single TCP connection on port 20051, and responses waiting for a connection go to it (R442). -/
  | mgmtConnectionOpen (p : Fin 2)
  /-- The peer closes the management TCP connection, so responses go to the other port's connection or wait (R443). -/
  | mgmtConnectionClose (p : Fin 2)
  /-- When THERM_SB is removed, THERM_TRIP_N becomes high-impedance and the trip latch clears, leaving the trip only in retention memory (R486). -/
  | thermSbLoss
  /-- The I3C controller assigns the target a dynamic address, after which it is no longer reached at its static address (R480). -/
  | i3cDynamicAddressAssign (addr : BitVec 7)
  /-- The input reaches 360 V from off, the always-on domain starts on the crystal, and AO_1V8_OUT and the I3C STATUS answer come up (R474). -/
  | coldPowerUp (volts : Nat)
  deriving DecidableEq, Repr

end Sys2Proof
end

