-- ==== Sys2Proof/Decode.lean ====
section
/-!
DEFINITION. Reading a command from a word. No row of spec/opcode_table.json gives bits ("fields" is empty in each), so no word spells a command:
commands reach the block as register writes, packets, pins and unit events, which stand in its queue as terms.
-/
namespace Sys2Proof

/-- The command that a word spells by the table's bits: none, for any width and any word. -/
def decodeTableWord (_nbits _w : Nat) : Option Instr := none

end Sys2Proof
end

