-- ==== Sys2Proof/Config.lean ====
section
/-!
DEFINITION. What one module fixes and the spec leaves to it (serial number, build, certificates), the cryptographic
functions of the standards the spec names, and the free values. What is opaque has no body: nothing can be proved of its value. Where the
length of such a value is known, the value is read as so many bytes of an opaque number.
-/
namespace Sys2Proof

/-- The `n` bytes of a number, least significant first: how a value of a known length is read from one that has no body. -/
def Config.bytesOf : Nat → Nat → Bytes
  | 0, _ => []
  | n + 1, v => BitVec.ofNat 8 v :: Config.bytesOf n (v / 256)

/-- IDENTIFY.SERIAL (Table 2-19). -/
opaque Config.serial : Quad
/-- IDENTIFY.FLAUM_BUILD (Table 2-19). -/
opaque Config.flaumBuild : Word
/-- SHA-384, as a number. -/
opaque Config.sha384Value : Bytes → Nat
/-- SHA-384: 48 bytes. -/
def Config.sha384 (b : Bytes) : Bytes := Config.bytesOf 48 (Config.sha384Value b)
/-- The import key, as a number. -/
opaque Config.importKeyValue : Nat
/-- IKC.MLKEM_PK and IKC.ECDH_PK: 1,665 bytes (Table 3-3). -/
def Config.importKey : Bytes := Config.bytesOf 1665 Config.importKeyValue
/-- The import hint of the running build: the first 8 bytes of the SHA-384 of its import key (R76). -/
def Config.importHint : Quad := ((Config.sha384 Config.importKey).take 8).foldr (fun b n => n <<< 8 ||| b.setWidth 64) 0
/-- A signature under AK, as a number. -/
opaque Config.akSignValue : Nat → Bytes → Nat
/-- An ECDSA P-384 signature under AK over a digest, r ∥ s, 96 bytes (R76, R85); the count tells repeated signatures apart. -/
def Config.akSign (n : Nat) (digest : Bytes) : Bytes := Config.bytesOf 96 (Config.akSignValue n digest)
/-- Bytes 0x000–0x697 of the import key certificate (Table 3-3). -/
def Config.importBody : Bytes :=
  [1, 0, 0, 0] ++ Config.bytesOf 4 Config.flaumBuild.toNat ++ Config.bytesOf 8 Config.serial.toNat ++ Config.importKey ++ List.replicate 7 0
/-- The import key certificate: its body, and AK's signature over the SHA-384 of that (Table 3-3, R76). -/
def Config.importCertificate : Bytes := Config.importBody ++ Config.akSign 0 (Config.sha384 Config.importBody)
/-- The DER certificates of GET_CERTIFICATES: 0 DIK and its authority, 1 AK (R76). -/
opaque Config.derCertificate : Nat → Bytes
/-- The certificates of GET_CERTIFICATES by WHICH (R76). -/
def Config.certificate (w : Nat) : Bytes := if w = 2 then Config.importCertificate else Config.derCertificate w
/-- The leaf chain of SPDM certificate slot 0 (Table 3-4). -/
opaque Config.spdmChain : Bytes
/-- SHA-384 of the boot ROM and of the Flaum build, as numbers. -/
opaque Config.measuredCodeValue : Nat → Nat
/-- Measurement blocks 1 and 2 (Table 3-5): 48 bytes each. -/
def Config.measuredCode (i : Nat) : Bytes := Config.bytesOf 48 (Config.measuredCodeValue i)
/-- Measurement block 4: lifecycle state and JTAG access state (Table 3-5). -/
opaque Config.lifecycleBlock : Bool → Bytes
/-- The form in which GET_MEASUREMENTS returns a block: index and content to bytes (R78). -/
opaque Config.measurementForm : Nat → Bytes → Bytes
/-- HKDF-Extract with SHA-384, as a number. -/
opaque Config.hkdfExtractValue : Bytes → Bytes → Nat
/-- HKDF-Extract of RFC 5869 with SHA-384: salt and input keying material to 48 bytes (R73). -/
def Config.hkdfExtract (salt ikm : Bytes) : Bytes := Config.bytesOf 48 (Config.hkdfExtractValue salt ikm)
/-- HKDF-Expand with SHA-384, as a number. -/
opaque Config.hkdfExpandValue : Bytes → Bytes → Nat → Nat
/-- HKDF-Expand of RFC 5869 with SHA-384: PRK, info and length (R73). -/
def Config.hkdfExpand (prk info : Bytes) (n : Nat) : Bytes := Config.bytesOf n (Config.hkdfExpandValue prk info n)
/-- Export of an HPKE context, as a number. -/
opaque Config.hpkeExportValue : Bytes → Bytes → Nat → Nat
/-- Export of an HPKE context (RFC 9180): exporter secret, label and length (R83, R85). -/
def Config.hpkeExport (secret label : Bytes) (n : Nat) : Bytes := Config.bytesOf n (Config.hpkeExportValue secret label n)
/-- AES-256-GCM, as a number. -/
opaque Config.gcmValue : Bytes → Bytes → Bytes → Bytes → Nat
/-- AES-256-GCM of a plaintext under key, nonce and additional data: the ciphertext, as long as the plaintext, and the 16-byte tag (R86). -/
def Config.gcm (key nonce aad plain : Bytes) : Bytes := Config.bytesOf (plain.length + 16) (Config.gcmValue key nonce aad plain)
/-- XTS-AES-256, as a number. -/
opaque Config.xtsValue : Bytes → Bytes → Bytes → Nat
/-- XTS-AES-256 of one data unit under a key pair and a tweak: as long as the plaintext (R74). -/
def Config.xts (keys tweak plain : Bytes) : Bytes := Config.bytesOf plain.length (Config.xtsValue keys tweak plain)
/-- HMAC-SHA-384, as a number. -/
opaque Config.hmacValue : Bytes → Bytes → Nat
/-- HMAC-SHA-384: 48 bytes (R74). -/
def Config.hmac (key b : Bytes) : Bytes := Config.bytesOf 48 (Config.hmacValue key b)
/-- Decapsulation under the import key, as numbers: ML-KEM-1024 of ct1, and DHKEM(P-384) of enc2. -/
opaque Config.decapsValue : Bool → Bytes → Nat
/-- The ML-KEM-1024 shared secret, 32 bytes (R81). -/
def Config.mlkem (ct : Bytes) : Bytes := Config.bytesOf 32 (Config.decapsValue false ct)
/-- The DHKEM(P-384) shared secret, 48 bytes (R81). -/
def Config.dhkem (enc : Bytes) : Bytes := Config.bytesOf 48 (Config.decapsValue true enc)
/-- The exporter secret of HPKE's key schedule in mode_base, as a number. -/
opaque Config.hpkeSecretValue : Bytes → Bytes → Nat
/-- The exporter secret of RFC 9180's key schedule in mode_base, from the shared secret and info: 48 bytes (R81). -/
def Config.hpkeSecret (shared info : Bytes) : Bytes := Config.bytesOf 48 (Config.hpkeSecretValue shared info)
/-- Keys of the SPDM key schedule, as numbers. -/
opaque Config.spdmKeyValue : Nat → Bool → Nat
/-- The application data key of a direction of the management session (the module's own direction with true), by the key exchange it comes from:
32 bytes (R79). -/
def Config.spdmKey (exchange : Nat) (own : Bool) : Bytes := Config.bytesOf 32 (Config.spdmKeyValue exchange own)
/-- The SPDM key update, as a number. -/
opaque Config.spdmUpdateValue : Bytes → Nat
/-- The key that follows one at a KEY_UPDATE: 32 bytes (R79). -/
def Config.spdmUpdate (key : Bytes) : Bytes := Config.bytesOf 32 (Config.spdmUpdateValue key)
/-- MSK and HTK, as numbers. -/
opaque Config.moduleKeyValue : Nat → Nat
/-- The module storage key: 64 bytes of XTS keys and a 32-byte tag key (Table 3-2). -/
def Config.storageKey : Bytes := Config.bytesOf 96 (Config.moduleKeyValue 0)
/-- The host-tier key drawn at the n-th reset: 64 bytes of XTS keys and a 32-byte tag key (Table 3-2). -/
def Config.hostTierKey (n : Nat) : Bytes := Config.bytesOf 96 (Config.moduleKeyValue (n + 1))
/-- Keys the module does not hold now, under which content it still has was sealed: collection and generation. -/
opaque Config.goneKeyValue : Nat → Nat → Nat
/-- CK(c,g) of a collection generation whose TRK the module does not hold: 96 bytes. -/
def Config.goneKey (coll gen : Nat) : Bytes := Config.bytesOf 96 (Config.goneKeyValue coll gen)
/-- An ingest-log record sealed under LK(c), as a number. -/
opaque Config.logSealValue : Bytes → Nat → Bytes → Nat
/-- An ingest-log record as AES-256-GCM seals it under LK(c), by its sequence: the record's length and 16 bytes of tag (R70); its nonce and
additional data the spec leaves open. -/
def Config.logSeal (key : Bytes) (csn : Nat) (plain : Bytes) : Bytes := Config.bytesOf (plain.length + 16) (Config.logSealValue key csn plain)
/-- What AES-256-GCM opens of a sealed ingest-log record under LK(c), by its sequence: its plaintext, or nothing where the tag fails (R70). -/
opaque Config.logOpened : Bytes → Nat → Bytes → Option Bytes
/-- The object kind of R74 of a kind of MSK content, by write stream. -/
opaque Config.objectKind : Nat → Word
/-- The module's SPDM nonces and key shares, as numbers. -/
opaque Config.spdmValue : Nat → Nat → Nat
/-- The module's SPDM nonces (purpose 0, 32 bytes) and secp384r1 key shares (purpose 1, 96 bytes), by draw (R77). -/
def Config.spdmBytes (n purpose : Nat) : Bytes := Config.bytesOf (if purpose = 0 then 32 else 96) (Config.spdmValue n purpose)
/-- An encapsulation the module makes to a link partner, by draw, as numbers: 0 its ENC, 1 and 2 the shared secrets of its two KEMs. -/
opaque Config.encapValue : Nat → Nat → Nat
/-- ENC of an encapsulation: ct1 and enc2, 1,665 bytes (R398, Table 16-21). -/
def Config.encapsulation (n : Nat) : Bytes := Config.bytesOf 1665 (Config.encapValue n 0)
/-- The shared secrets that ct1 and enc2 of an encapsulation carry, 32 and 48 bytes (R81). -/
def Config.encapSecrets (n : Nat) : Bytes × Bytes := (Config.bytesOf 32 (Config.encapValue n 1), Config.bytesOf 48 (Config.encapValue n 2))
/-- Rated endurance of the dies' parameter page, program/erase cycles (R379). -/
opaque Config.endurance : Nat
/-- The plaintext of a sector of a segment, as a number. -/
opaque Config.sectorValue : Nat → Nat → Nat → Nat → Nat
/-- The plaintext of a sector of a segment, 4,096 bytes: collection, generation, segment, sector (Table 14-2). -/
def Config.sectorPlain (coll gen seg sector : Nat) : Bytes := Config.bytesOf 4096 (Config.sectorValue coll gen seg sector)
/-- The plaintext of a sector of the module's own content in flash, as a number. -/
opaque Config.ownValue : Nat → Nat → Nat
/-- The plaintext of a sector of the module's own content in flash, 4,096 bytes: the write sequence of its unit, and its place there. -/
def Config.ownPlain (wseq sector : Nat) : Bytes := Config.bytesOf 4096 (Config.ownValue wseq sector)
/-- The object sequence of R74 of the module's own content in flash, by the write sequence of its unit. -/
opaque Config.objectSequence : Nat → Nat
/-- The ECC parity of a codeword, as a number. -/
opaque Config.eccValue : Bytes → Nat
/-- The ECC parity over bytes 0–4,119 of a codeword: 448 bytes, its construction no part of any interface (R360). -/
def Config.eccParity (b : Bytes) : Bytes := Config.bytesOf 448 (Config.eccValue b)
/-- An element of a model's result for which the spec states no value: image, operator record, and element (R288). -/
opaque Config.modelGap : Bytes → Nat → Nat → Word
/-- Element i of a centroid of a split that no item is nearest to, from the old centroid and whether it is the second of the two (R151). -/
opaque Config.emptySplit : List Half → Bool → Nat → Half
/-- Element i of a mean over no items, from the centroids that were there (R151, R153). -/
opaque Config.emptyMean : List Half → List Half → Nat → Half
/-- The list of an item whose traversal finds no score that is a number (R148, R152). -/
opaque Config.unrankedList : List Word → Nat
/-- Normalisation of Unicode 15.1.0 on code points: 1 NFC, 2 NFKC (R309). -/
opaque Config.unicodeNormal : Nat → List Nat → List Nat
/-- The simple lowercase mapping of Unicode 15.1.0 (R309). -/
opaque Config.unicodeLower : Nat → Nat
/-- A free value: the n-th value the module draws where the spec states none. -/
opaque Config.free : Nat → Nat

end Sys2Proof
end

