-- ==== Sys2Proof/Machine/Parts/Comp.lean ====
section
/-!
DEFINITION. State of partitions, log peers, compositions, fences and sub-queries (spec/17_faults.md, spec/05_search.md,
spec/08_run_ahead.md).
-/
namespace Sys2Proof.Machine

/-- A composition this module belongs to (R427–R431). -/
structure Composition where
  id : Nat
  version : Nat
  /-- node IDs in ascending order; the index is the shard number -/
  members : List Nat
  /-- SHA-384 of the JOIN plaintext -/
  digest : Bytes
  active : Bool := false
  /-- members whose identical JOIN the coordinator holds -/
  joined : List Nat := []
  /-- COMPOSITION_JOINs that wait: mailbox, tag, and since when, ns -/
  waiting : List (Nat × Word × Nat) := []
  /-- members declared lost -/
  lost : List Nat := []
  /-- the coordinator followed -/
  coordinator : Nat := 0
  /-- when the coordinator was last heard, ns -/
  coordHeard : Nat := 0
  /-- when each member was last heard, directly or through a report, ns -/
  heard : Tab Nat := []
  /-- probes sent and unanswered: node and time, ns -/
  probes : Tab Nat := []
  /-- CL.HEARD of each child's last heartbeat -/
  childHeard : Tab Nat := []
  /-- members that each child's last heartbeat reported silent -/
  silent : Tab (List Nat) := []
  /-- self-fence of R429 -/
  fenced : Bool := false
  /-- the last member to arrive at each of the last 1,024 barriers and merges, newest first (R440) -/
  finishers : List Nat := []
  /-- members marked SUSPECT -/
  suspect : List Nat := []
  /-- barriers in progress: collective ID, the children whose subtrees have arrived, and the last member to arrive -/
  barriers : Tab (List Nat × Nat) := []
  /-- COMPOSITION_LEAVE waits, or Autumn drain leaves: the command, if any -/
  leaving : Option (Option (Nat × Word)) := none
  /-- LEAVE has been sent to the coordinator -/
  leaveSent : Bool := false
  /-- servers named for shards whose primary is lost: shard and node -/
  servers : Tab Nat := []
  deriving DecidableEq, Repr

/-- A record held as log peer of a source (R435, R436). -/
structure HeldRecord where
  source : Nat
  collection : Nat
  csn : Nat
  record : Bytes
  /-- it has been programmed to flash -/
  durable : Bool := false
  deriving DecidableEq, Repr

/-- A sub-query this module serves, or the root's part of its own fabric-wide search (R165, R214, R232, R233). -/
structure Served where
  /-- SQ.ID -/
  id : Nat
  shard : Nat
  /-- where its list goes -/
  from_ : Nat
  /-- at the receiving module: the command, by mailbox and tag -/
  root : Option (Nat × Word) := none
  /-- the collection that is the shard, as its key -/
  collection : Nat
  tenant : Nat
  cls : Nat
  /-- SQ.DEADLINE_AT -/
  deadline : Nat
  /-- it is a hedge (R231) -/
  hedge : Bool := false
  /-- CSN and map version it was told to bind -/
  told : Option (Nat × Nat) := none
  /-- it waits for the CSN to commit since this time, ns (R233) -/
  waitSince : Option Nat := none
  /-- the SEARCH plaintext -/
  plain : Bytes
  run : FabricRun
  deriving DecidableEq, Repr

/-- Work for another module that has been answered, or given up: a sub-query, or a hedged read; until a second later its charges can still turn out to be the
losing side's (R216, R225, R228). -/
structure Answered where
  /-- SQ.ID or HR.READ_ID -/
  id : Nat
  shard : Nat
  from_ : Nat
  tenant : Nat
  /-- what the tenant was charged: offset in Table 17-7 and amount -/
  charges : Tab Nat := []
  /-- bytes that its scan jobs read, by NBU -/
  bytes : Tab Nat := []
  at_ : Nat
  deriving DecidableEq, Repr

/-- A replica that serves a lost primary's shard fetches the primary's records from its two log peers (R439). -/
structure ShardFetch where
  /-- the lost primary -/
  source : Nat
  /-- the log peers asked -/
  peers : List Nat
  /-- records received -/
  got : List HeldRecord := []
  /-- the peer each came from, in the same order -/
  by_ : List Nat := []
  /-- peers that have sent FETCH_END -/
  ended : List Nat := []
  deriving DecidableEq, Repr

/-- Partitions, peers, compositions and fences (chapter 17). -/
structure Comp where
  /-- the module's partition, 12 bits, kept in module state. [R426|0] -/
  partition : Nat := 0
  /-- log peers in force, at most two, kept in module state. [R426|none] -/
  peers : List Nat := []
  /-- log peers that a log message did not reach, until they confirm again. [R24|none] -/
  unreached : List Nat := []
  /-- a new peer set that takes effect once it holds every record not released. [R426|none] -/
  newPeers : Option (List Nat) := none
  /-- sources this module serves as log peer, at most two, kept in flash. [R426|none] -/
  sources : List Nat := []
  /-- records held for them, kept in flash. [R436|none] -/
  records : List HeldRecord := []
  /-- nodes fenced here, kept in module state. [R432|none] -/
  fences : List Nat := []
  /-- those of them fenced electrically. [R434|none] -/
  electrical : List Nat := []
  /-- nodes that a FENCE message has fenced here. [R420|none] -/
  told : List Nat := []
  /-- JOINs of members that arrived before this module's own: composition, version, sender and digest. [R427|none] -/
  earlyJoins : List (Nat × Nat × Nat × Bytes) := []
  /-- compositions by ID, at most 256. [R427|none] -/
  compositions : Tab Composition := []
  /-- sub-queries being served, and own fabric-wide searches. [R165|none] -/
  served : List Served := []
  /-- work for other modules that was answered in the last second, newest first. [R228|none] -/
  answered : List Answered := []
  /-- the sequence of the next SQ.ID. [Table 16-9|1 DESIGN CHOICE] -/
  nextSubq : Nat := 1
  /-- the sequence of the next HR.READ_ID. [R420|1 DESIGN CHOICE] -/
  nextRead : Nat := 1
  /-- completion times of the last 1,024 sub-queries by composition × 65,536 + member, newest first, ns. [R231|none] -/
  completions : Tab (List Nat) := []
  /-- sub-queries dispatched and hedged in the last 10 ms: time and whether hedged. [R234|none] -/
  dispatched : List (Nat × Bool) := []
  /-- refine reads issued and hedged in the last 10 ms: time and whether hedged. [R234|none] -/
  readsIssued : List (Nat × Bool) := []
  /-- shards whose lost primary's records this replica fetches, by collection. [R439|none] -/
  fetching : Tab ShardFetch := []
  deriving DecidableEq, Repr

end Sys2Proof.Machine
end

