-- ==== Sys2Proof/Machine/Parts/Fabric.lean ====
section
/-!
DEFINITION. State of the Vievo fabric: ports, links, routes, egress, reassembly, fabric time (spec/16_fabric.md).
-/
namespace Sys2Proof.Machine

/-- Port states (Table 16-3, Table 16-16). -/
inductive PortState where
  | down | training | discoveryOnly | keying | up | degraded | held
  deriving DecidableEq, Repr

/-- A packet as the fabric carries it (Table 16-7), with its payload. -/
structure FabPacket where
  type : Nat
  cls : Nat
  hops : Nat
  dst : Nat
  src : Nat
  pkey : Nat
  first : Bool
  last : Bool
  module : Bool
  tenant : Nat
  msgId : Nat
  offset : Nat
  msgLen : Nat
  payload : Bytes
  deriving DecidableEq, Repr

/-- A frame the partner has not acknowledged: its LH.KIND, and its bytes as they were sent (R394). -/
structure Frame where
  kind : Nat
  bytes : Bytes
  deriving DecidableEq, Repr

/-- A packet in an egress queue, and since when, ns. -/
structure Queued where
  packet : FabPacket
  since : Nat
  deriving DecidableEq, Repr

/-- A gate list (Tables 16-11, 16-12). -/
structure GateList where
  /-- entries: duration in ns and gate bits -/
  entries : List (Nat × Nat)
  overhead : Nat
  base : Nat
  /-- quanta of classes 0 to 7 -/
  quanta : List Nat
  deriving DecidableEq, Repr

/-- The list in force after reset (Table 16-12): one entry of 1 ms, classes 0–6 open, O = 32. -/
def resetGates : GateList where
  entries := [(1000000, 0x7F)]
  overhead := 32
  base := 0
  quanta := [0, 16, 65536, 65536, 65536, 65536, 65536, 0]

/-- A gate list that waits to activate on a port (R412). -/
structure GateWait where
  list : GateList
  at_ : Nat
  mbx : Nat
  tag : Word
  deriving DecidableEq, Repr

/-- One Vievo port (Tables 16-3, 16-16). -/
structure Port where
  /-- state. [R396|DOWN] -/
  state : PortState := .down
  /-- HELD_REASON, 8 bits. [R397|0] -/
  heldReason : Nat := 0
  /-- when it entered its state, ns. [R396|0 DESIGN CHOICE] -/
  since : Nat := 0
  /-- lanes in use, 8 bits. [R392|0] -/
  lanes : Nat := 0
  /-- MARGINAL, 1 bit. [R392|0] -/
  marginal : Bool := false
  /-- partner node ID; none when it is not a module. [R397|none] -/
  partner : Option Nat := none
  /-- partner serial number, 64 bits. [R397|0] -/
  partnerSerial : Nat := 0
  /-- PARTNER_BUILD, 32 bits. [R397|0] -/
  partnerBuild : Nat := 0
  /-- HELLO received since training. [R397|no] -/
  hello : Bool := false
  /-- parts of the partner's identity received: 0, 1, 2. [R397|none] -/
  identity : List Nat := []
  /-- the HELLO and IDENTITY messages sent in this discovery, in the order sent. [R398|none] -/
  said : Bytes := []
  /-- the partner's HELLO and IDENTITY messages, in the order they came. [R398|none] -/
  heard : Bytes := []
  /-- the partner's encapsulation received. [R398|no] -/
  kex : Bool := false
  /-- the KEX message received. [R398|none] -/
  kexIn : Bytes := []
  /-- the encapsulation sent in the exchange that is in progress, by its draw. [R398|none] -/
  kexOut : Option Nat := none
  /-- TH of the keys installed last, 48 bytes. [R398|none] -/
  transcript : Bytes := []
  /-- the key and the salt of the sending direction, 36 bytes. [R398|none] -/
  txKey : Bytes := []
  /-- the key and the salt of the receiving direction, 36 bytes. [R398|none] -/
  rxKey : Bytes := []
  /-- generations of link keys installed, a count. [R398|0] -/
  keyGen : Nat := 0
  /-- when the link keys were installed, ns. [R398|0 DESIGN CHOICE] -/
  keyedAt : Nat := 0
  /-- FSEQ of the last frame sent under the keys. [R393|0] -/
  txSeq : Nat := 0
  /-- highest FSEQ received in order. [R394|0] -/
  rxSeq : Nat := 0
  /-- highest FSEQ the partner has acknowledged. [R394|0] -/
  acked : Nat := 0
  /-- when the oldest unacknowledged frame was sent, ns. [R394|0 DESIGN CHOICE] -/
  ackSince : Nat := 0
  /-- replays of the same FSEQ without progress. [R394|0] -/
  replays : Nat := 0
  /-- a RETRY_REQ has been sent and the expected frame is awaited. [R394|no] -/
  awaiting : Bool := false
  /-- the highest FSEQ acknowledged to the partner. [R394|0] -/
  ackSent : Nat := 0
  /-- the replay buffer: unacknowledged frames by FSEQ. [R394|empty] -/
  replay : Tab Frame := []
  /-- receive credits held per class, in 64-byte units. [R395|2,048 for class 0, 4,096 for each other, the smallest buffers] -/
  credits : List Nat := [2048, 4096, 4096, 4096, 4096, 4096, 4096, 0]
  /-- receive credits of each class that packets handled have freed and no frame has returned yet, in 64-byte units. [R395|0] -/
  owed : List Nat := [0, 0, 0, 0, 0, 0, 0, 0]
  /-- egress queues by class. [R409|empty] -/
  queues : Tab (List Queued) := []
  /-- when the discovery messages of its state were last sent, ns. [R420|0 DESIGN CHOICE] -/
  sentAt : Nat := 0
  /-- packets accepted from the link and not yet handled, oldest first. [R394|none] -/
  arrived : List Bytes := []
  /-- the class whose turn is next. [R409|1 DESIGN CHOICE] -/
  turn : Nat := 1
  /-- deficits of the classes, by class. [R409|0] -/
  deficits : Tab Nat := []
  /-- bytes of class 0 sent in the last 100 µs, with their times, ns. [R410|none] -/
  class0 : List (Nat × Nat) := []
  /-- the gate list in force. [R411|Table 16-12] -/
  gates : GateList := resetGates
  /-- a gate list that waits. [R412|none] -/
  gateWait : Option GateWait := none
  /-- when codewords were corrected in the last second, ns: CORRECTED_CW counts them. [Table 16-16|none] -/
  correctedCw : List Nat := []
  /-- UNCORRECTABLE_CW, saturating, 32 bits. [R394|0] -/
  uncorrectableCw : Nat := 0
  /-- RETRIES, saturating, 32 bits. [R394|0] -/
  retries : Nat := 0
  /-- PV, saturating, 32 bits. [R406|0] -/
  pv : Nat := 0
  /-- times of the violations of the last second, ns. [R406|none] -/
  violations : List Nat := []
  /-- the fenced nodes for which its transmitters are held electrically idle. [R434|none] -/
  idledBy : List Nat := []
  deriving DecidableEq, Repr

/-- A fence holds the port's transmitters idle (R434). -/
def Port.idled (x : Port) : Bool := !x.idledBy.isEmpty

/-- A route image waiting to activate (R400). -/
structure RouteWait where
  image : Bytes
  mbx : Nat
  tag : Word
  deriving DecidableEq, Repr

/-- A message in reassembly (R405). -/
structure Reassembly where
  src : Nat
  cls : Nat
  type : Nat
  msgId : Nat
  msgLen : Nat
  tenant : Nat
  got : Bytes
  last : Nat
  deriving DecidableEq, Repr

/-- A complete message that has been delivered and waits for the step that handles its type (R405). -/
structure Inbound where
  type : Nat
  cls : Nat
  src : Nat
  tenant : Nat
  /-- the port it came in by -/
  port : Nat
  body : Bytes
  deriving DecidableEq, Repr

/-- Fabric time states (R415). -/
inductive TimeState where
  | free | acquiring | locked | holdover
  deriving DecidableEq, Repr

/-- The fabric (chapter 16). -/
structure Fabric where
  /-- ports 0–31. [R396|DOWN] -/
  ports : List Port := List.replicate 32 {}
  /-- the active route image, kept in flash. [R399|none] -/
  route : Option Bytes := none
  /-- a route image that waits. [R400|none] -/
  routeWait : Option RouteWait := none
  /-- GATE_GEN: lists activated since reset, 32 bits. [R412|0] -/
  gateGen : Nat := 0
  /-- messages in reassembly. [R405|none] -/
  reassembly : List Reassembly := []
  /-- delivered messages that wait to be handled, oldest first. [R405|none] -/
  inbox : List Inbound := []
  /-- MSG_ID of the next message of each flow: destination × 8 + class. [R404|0] -/
  nextMsg : Tab Nat := []
  /-- messages sent that a rule may still ask about: MSG_ID, destination, type, and what it carried. [R403|none] -/
  sent : List (Nat × Nat × Nat × Bytes) := []
  /-- packets of flows that wait until the packets queued on their old port have left, oldest first. [R402|none] -/
  held : List FabPacket := []
  /-- UNREACHABLE messages sent in the last second: source and time, ns. [R403|none] -/
  unreachSent : List (Nat × Nat) := []
  /-- FS.PV, saturating, 32 bits. [R406|0] -/
  pv : Nat := 0
  /-- FS.LOST, saturating, 32 bits. [R405|0] -/
  lost : Nat := 0
  /-- FS.DROPPED, saturating, 32 bits. [R403|0] -/
  dropped : Nat := 0
  /-- FS.UNREACH_RX, saturating, 32 bits. [R403|0] -/
  unreachRx : Nat := 0
  /-- time state. [R415|ACQUIRING in Spring] -/
  time : TimeState := .acquiring
  /-- the module has been LOCKED since reset. [R415|no] -/
  lockedOnce : Bool := false
  /-- since when the offset has stayed within 100 ns, ns. [R415|none] -/
  closeSince : Option Nat := none
  /-- FS.OFFSET_NS at the last sync, signed, 32 bits. [R418|0 DESIGN CHOICE] -/
  offsetNs : Int := 0
  /-- FS.STEPS_REMOVED, 16 bits. [R418|0 DESIGN CHOICE] -/
  stepsRemoved : Nat := 0
  /-- FS.GM_ID, 64 bits. [R418|0 DESIGN CHOICE] -/
  gmId : Nat := 0
  /-- this module is grandmaster, 1 bit. [R415|0] -/
  grandmaster : Bool := false
  deriving DecidableEq, Repr

end Sys2Proof.Machine
end

