-- ==== Sys2Proof/Machine/Parts/Host.lean ====
section
/-!
DEFINITION. State of the host interface and of sealed retrieval: posted ingest windows, stream rings, the MSI-X table,
keys and sessions, SPDM and the management session, tenants, meters and the event log
(spec/02_mailboxes.md, spec/03_sealed_retrieval.md, spec/17_faults.md).
-/
namespace Sys2Proof.Machine

/-- A window packet that has begun and whose slot has not arrived (R63). -/
structure OpenPacket where
  /-- when its first write arrived -/
  since : Nat
  deriving DecidableEq, Repr

/-- A completed window packet that waits for admission (R67). -/
structure QueuedPacket where
  /-- window offset of its slot -/
  offset : Nat
  /-- PKT_BYTES -/
  bytes : Nat
  /-- when its slot arrived -/
  arrival : Nat
  deriving DecidableEq, Repr

/-- One posted ingest window: its block (Tables 2-23 to 2-25) and the 1 MiB buffer behind it. -/
structure Window where
  /-- PIW_CFG.ENABLE, 1 bit. [R65|0] -/
  enable : Bool := false
  /-- PIW_CFG.HEADROOM, 64 KiB units, 4 bits. [R65|4] -/
  headroom : Nat := 4
  /-- PIW_CFG.TIMEOUT, 100 µs units, 8 bits. [R65|10] -/
  timeout : Nat := 10
  /-- PIW_CFG.TENANT and BOUND: the bound tenant, 12 bits and 1 bit. [R65|0, 0] -/
  bound : Option Nat := none
  /-- PIW_STATUS.OVERRUN, RW1C, 1 bit. [R66|0] -/
  overrun : Bool := false
  /-- PIW_STATUS.FLUSH_PENDING, 1 bit. [R68|0] -/
  flushPending : Bool := false
  /-- PIW_STATUS.FLUSH_DONE, RW1C, 1 bit. [R68|0] -/
  flushDone : Bool := false
  /-- PIW_STATUS.PV, RW1C, 1 bit. [R64|0] -/
  pv : Bool := false
  /-- PIW_STATUS.LAST_PV, 8 bits. [R64|0] -/
  lastPv : Option Reason := none
  /-- PIW_STATUS.ACCEPTED, modulo 65,536, 16 bits. [R63|0] -/
  accepted : Nat := 0
  /-- PIW_NEXT, 64 bits. [R62|0] -/
  next : Nat := 0
  /-- PIW_PV_COUNT, saturating, 32 bits. [R65|0 DESIGN CHOICE] -/
  pvCount : Word := 0
  /-- the packet in progress. [R66|none] -/
  current : Option OpenPacket := none
  /-- packets completed and not yet admitted, in window order. [R67|none] -/
  queued : List QueuedPacket := []
  /-- the framing is lost until a flush, 1 bit. [R63|0] -/
  framingLost : Bool := false
  /-- a flush was requested and waits for the packet boundary, 1 bit. [R68|0] -/
  flushRequested : Bool := false
  /-- the 1 MiB circular buffer, the bytes that are not zero. [R62|nothing written; unwritten bytes read 0 DESIGN CHOICE] -/
  buffer : List (Nat × Byte) := []
  deriving DecidableEq, Repr

/-- A stream record that a command has produced and that waits for room (R60). -/
structure PendingRecord where
  tag : Word
  mbx : Nat
  tenant : Half
  opcode : Half
  session : Word
  csn : Nat
  payload : Bytes
  last : Bool
  aborted : Bool
  /-- since when its command has waited without a record of it being written, ns (R60) -/
  since : Nat := 0
  deriving DecidableEq, Repr

/-- One open stream ring (Table 2-20). -/
structure Stream where
  /-- owner tenant, 12 bits. [R57|no stream open] -/
  tenant : Nat
  /-- SOPEN.BASE, 64 bits. [R57|no stream open] -/
  base : Quad
  /-- SOPEN.SLOTS_LOG2, 8 bits. [R57|no stream open] -/
  slotsLog2 : Nat
  /-- SOPEN.VECTOR, 11 bits. [R57|no stream open] -/
  vector : Nat
  /-- SOPEN.IRQ_COUNT, 16 bits. [R57|no stream open] -/
  irqCount : Nat
  /-- SOPEN.IRQ_US, 16 bits. [R57|no stream open] -/
  irqUs : Nat
  /-- producer count, free-running, 32 bits. [R59|0 DEDUCED] -/
  prod : Word := 0
  /-- STREAM_CONS, free-running, 32 bits. [R60|0 DEDUCED] -/
  cons : Word := 0
  /-- records not yet reported by an interrupt, a count. [R59|0] -/
  unreported : Nat := 0
  /-- when the oldest of them was written, ns. [R59|0 DESIGN CHOICE] -/
  oldest : Nat := 0
  /-- records that wait for room, in order. [R60|none] -/
  waiting : List PendingRecord := []
  /-- the next REC.SEQ of each command that writes here, keyed by mailbox and tag. [R58|none] -/
  seqs : List (Nat × Word × Nat) := []
  deriving DecidableEq, Repr

/-- One MSI-X table entry; the PCI layout (PRESUMED): 64-bit address, 32-bit data, mask bit. -/
structure MsixEntry where
  /-- message address, 64 bits. [R27|0 PRESUMED] -/
  addr : Quad := 0
  /-- message data, 32 bits. [R27|0 PRESUMED] -/
  data : Word := 0
  /-- vector control, bit 0 the mask, 32 bits. [R27|1 PRESUMED] -/
  control : Word := 1
  deriving DecidableEq, Repr

/-- A tenant root key (R75, R82). -/
structure Trk where
  tenant : Nat
  keyId : Word
  /-- the 32 bytes of KIMP.KEY -/
  key : Bytes
  deriving DecidableEq, Repr

/-- A tenant session (R85–R90). -/
structure Session where
  tenant : Nat
  /-- the key whose TRK K_s derives from -/
  keyId : Word
  /-- K_s, 32 bytes; empty once it has been erased by a zeroisation (R94) -/
  ks : Bytes
  /-- H, the highest accepted host SEQ. [R87|0] -/
  high : Nat := 0
  /-- the accepted values within the 8,192 below H. [R87|none] -/
  seen : List Nat := []
  /-- the module counter: the SEQ of the next response or record. [R89|1] -/
  counter : Nat := 1
  /-- the TRK was zeroised: the session is exhausted. [R89|no] -/
  exhausted : Bool := false
  deriving DecidableEq, Repr

/-- The stage of the SPDM connection of one transport. -/
inductive SpdmPhase where
  | start | versioned | capable | negotiated
  deriving DecidableEq, Repr

/-- The management session's handshake (R79). -/
inductive MgmtSession where
  | closed
  /-- KEY_EXCHANGE answered, FINISH awaited -/
  | handshake (id : Word) (transport : Nat)
  | open (id : Word) (transport : Nat)
  deriving DecidableEq, Repr

/-- A running KEY_ZEROISE (R94): the command, its scope, and what it affects. -/
structure Zeroise where
  mbx : Nat
  tag : Word
  /-- 0 one key, 1 every key of the tenant, 2 the whole module -/
  scope : Nat
  tenant : Nat
  keyId : Word
  /-- collections that become key-lost -/
  collections : List Nat
  /-- ordered by TENANT_DISABLE (R425) rather than by a KEY_ZEROISE command -/
  forDisable : Bool := false
  deriving DecidableEq, Repr

/-- Keys, sessions and attestation (chapter 3). -/
structure Keys where
  /-- the TRKs held, at most 16,384. [R75|none] -/
  trks : List Trk := []
  /-- tenant sessions by session ID, at most 16,384. [R75|none] -/
  sessions : Tab Session := []
  /-- the session ID the next SESSION_OPEN takes. [R85|1 DESIGN CHOICE] -/
  nextSession : Nat := 1
  /-- session ID draws of the SPDM responder, a count. [R79|0 DESIGN CHOICE] -/
  spdmDraws : Nat := 0
  /-- the management session. [R79|closed] -/
  mgmt : MgmtSession := .closed
  /-- H of the management session. [R87|0] -/
  mgmtHigh : Nat := 0
  /-- its accepted SEQs within the window. [R87|none] -/
  mgmtSeen : List Nat := []
  /-- its module counter. [R89|1] -/
  mgmtCounter : Nat := 1
  /-- key updates of the management session, per direction requester and responder, counts. [R77|0] -/
  mgmtUpdates : Nat × Nat := (0, 0)
  /-- K_m of the management session, requester's and module's direction, 32 bytes each; empty with no session. [R79|none] -/
  mgmtKeys : Bytes × Bytes := ([], [])
  /-- time of the last heartbeat or record of the management session, ns. [R77|0 DESIGN CHOICE] -/
  lastHeartbeat : Nat := 0
  /-- slot 1: the management trust anchor, bytes; none while empty. [R79|none DESIGN CHOICE] -/
  anchor : Option Bytes := none
  /-- SPDM phase of the I3C transport and of the two management ports. [R77|start] -/
  spdm : List SpdmPhase := [.start, .start, .start]
  /-- a large SPDM message being assembled per transport: bytes received and next chunk number. [R77|none] -/
  chunksIn : Tab (Bytes × Nat) := []
  /-- a large SPDM response being handed out per transport: bytes and next chunk number. [R77|none] -/
  chunksOut : Tab (Bytes × Nat) := []
  /-- a key has been imported since the last reset, 1 bit. [R80|0] -/
  imported : Bool := false
  /-- the JTAG instruction register in force: 0 BYPASS, 1 IDCODE, 2 SAMPLE/PRELOAD, 3 EXTEST, 4 IEEE 1149.6, 5 other. [R80|IDCODE PRESUMED] -/
  jtag : Nat := 1
  /-- draws of the host-tier key HTK, a count that names the key in force. [R96|0 DESIGN CHOICE] -/
  htkDraws : Nat := 0
  /-- the running zeroisations. [R94|none] -/
  zeroising : List Zeroise := []
  /-- the time at which the queued public-key work ends, ns. [R488|0] -/
  pkDone : Nat := 0
  /-- TRKs wrapped in the always-on retention memory across Winter. [R96|none] -/
  retained : List Trk := []
  deriving DecidableEq, Repr

/-- The configuration of one tenant (Table 17-2). -/
structure TenantConfig where
  /-- TC.CLASS: 0 Sprint, 1 Head, 2 Control. [R423|unconfigured: served as Head] -/
  cls : Nat
  /-- TC.RATE, 32 bits. [R423|no limit] -/
  rate : Nat
  /-- TC.BURST, 32 bits. [R423|0] -/
  burst : Nat
  /-- TC.INFLIGHT, 16 bits. [R423|4,096] -/
  inflight : Nat
  /-- TC.HBM_QUOTA_GIB, 32 bits. [R423|none] -/
  hbmQuota : Nat
  /-- TC.FLASH_QUOTA_GIB, 32 bits. [R423|none] -/
  flashQuota : Nat
  deriving DecidableEq, Repr

/-- The meter block of Table 17-7, keyed by field offset; a counter not listed is 0. -/
structure Meters where
  /-- the counters by their offset in Table 17-7, saturating, 64 or 32 bits. [R444|0] -/
  ctr : Tab Nat := []
  /-- the speculation account by offset in Table 8-3, saturating, 64 bits. [R228|0] -/
  spa : Tab Nat := []
  /-- SINCE: fabric time of the last clear or reset, 64 bits. [R445|0 DESIGN CHOICE] -/
  since : Nat := 0
  deriving DecidableEq, Repr

/-- An event log entry, Table 17-8. -/
structure LogEntry where
  seq : Nat
  time : Nat
  kind : Nat
  status : Nat := 0
  reason : Nat := 0
  tenant : Nat := 0xFFFF
  opcode : Nat := 0
  tag : Word := 0
  detail : Nat := 0
  deriving DecidableEq, Repr

/-- Tenants, meters and the event log (chapter 17). -/
structure Tenants where
  /-- configured tenants; kept in module state across reset. [R423|none] -/
  config : Tab TenantConfig := []
  /-- token bucket content of a tenant with a RATE, content × 10⁹ and the time of the last refill, ns. [R424|full] -/
  bucket : Tab (Nat × Nat) := []
  /-- tenants disabled by TENANT_DISABLE. [R425|none] -/
  disabled : List Nat := []
  /-- meters by tenant; key 0xFFFF is the module. [R444|0] -/
  meters : Tab Meters := []
  /-- fabric time of the last reset, ns: SINCE of what has not been cleared since. [R445|0 DESIGN CHOICE] -/
  resetAt : Nat := 0
  /-- the event log, oldest first, at most 65,536 entries. [R446|empty] -/
  log : List LogEntry := []
  /-- LR.SEQ of the next entry. [R446|1] -/
  logNext : Nat := 1
  /-- entries each tenant has added in the current one-second interval. [R446|0] -/
  logCount : Tab Nat := []
  /-- entries of each tenant suppressed in the current interval. [R446|0] -/
  logSuppressed : Tab Nat := []
  /-- the interval in progress: the fabric time at which it began, ns. [R446|0 DESIGN CHOICE] -/
  logInterval : Nat := 0
  /-- events of kinds 4, 5 and 7 kept in module state in flash. [R446|none] -/
  keptEvents : List LogEntry := []
  deriving DecidableEq, Repr

/-- A management port (R442, R443, R470). -/
structure MgmtPort where
  /-- the port has link. [R443|0 DESIGN CHOICE] -/
  link : Bool := false
  /-- a TCP connection is open. [R442|no] -/
  connected : Bool := false
  /-- time of the last record received, ns. [R442|0 DESIGN CHOICE] -/
  lastRx : Nat := 0
  /-- time of the last record sent, ns. [R442|0 DESIGN CHOICE] -/
  lastTx : Nat := 0
  deriving DecidableEq, Repr

end Sys2Proof.Machine
end

