-- ==== Sys2Proof/Machine/Parts/Tables.lean ====
section
/-!
DEFINITION. State of feature tables (spec/13_feature_tables.md).
-/
namespace Sys2Proof.Machine

/-- A table descriptor (Table 13-1). -/
structure TableDesc where
  composition : Nat
  dim : Nat
  /-- 0 FP32, 1 BF16, 2 FP8 E4M3, 4 INT8 -/
  format : Nat
  /-- 0 DIRECT, 1 HASHED, 2 COMPOSED -/
  store : Nat
  rowsLog2 : Nat
  rLog2 : Nat
  /-- 0 SUM, 1 PRODUCT -/
  combine : Nat
  /-- 0 SET, 1 ADD -/
  update : Nat
  seed : Nat
  migratePct : Nat
  deriving DecidableEq, Repr

/-- A stored row (Table 13-2); elements as the format's codes, none for all zero (R325). -/
structure Row where
  lastStep : Nat := 0
  scale : Word := 0
  elems : List Nat := []
  /-- an error that the code cannot correct has poisoned it (R333) -/
  poisoned : Bool := false
  deriving DecidableEq, Repr

/-- A buffered update of one row (R331, R332). -/
structure RowUpdate where
  /-- the step it belongs to -/
  step : Nat
  issuer : Nat
  seq : Nat
  index : Nat
  /-- 0 the whole table's row, 1 the Q part's, 2 the R part's -/
  part : Nat
  row : Nat
  /-- FP32 values -/
  delta : List Word
  deriving DecidableEq, Repr

/-- A row held in a prefetch buffer (R333). -/
structure Prefetched where
  mbx : Nat
  table : Nat
  part : Nat
  row : Nat
  lastStep : Nat
  /-- when it was read, ns -/
  since : Nat
  deriving DecidableEq, Repr

/-- A lookup that has its crew (R328, R333). -/
structure LookupRun where
  table : Nat
  step : Nat
  /-- TO.REQ_ID of the requests sent to other members -/
  req : Nat
  /-- rows still to come: key index, part and row -/
  left : List (Nat × Nat × Nat)
  /-- rows held: key index, part and row -/
  got : List (Nat × Nat × Row) := []
  deriving DecidableEq, Repr

/-- Rows that another member has asked for and this home does not hold ready yet (R330, R334). -/
structure TableRequest where
  table : Nat
  from_ : Nat
  req : Nat
  step : Nat
  tenant : Nat
  /-- index in the issuing command, part and row -/
  entries : List (Nat × Nat × Nat)
  deriving DecidableEq, Repr

/-- A feature table, or this module's part of one. -/
structure Table where
  id : Nat
  desc : TableDesc
  /-- members of its composition by ascending node; empty for a module-local table -/
  members : List Nat := []
  /-- bytes reserved here (R327) -/
  reserved : Nat := 0
  /-- TABLE_CREATE waits: the command, and members whose acknowledgement is missing -/
  creating : Option (Nat × Word × List Nat) := none
  /-- the current step -/
  step : Nat := 1
  /-- rows of blocks at home here that differ from zero: the Q part or the whole table -/
  rows : Tab Row := []
  /-- rows of the R part that differ from zero -/
  rrows : Tab Row := []
  /-- updates buffered, of the current step and, from members already past its close, of the next -/
  buffer : List RowUpdate := []
  /-- SEQs used by this module in the current step -/
  seqs : List Nat := []
  /-- a close of the current step has begun (R329) -/
  closing : Bool := false
  /-- this module has sent END of the current step -/
  endSent : Bool := false
  /-- ENDs held: member and step -/
  ends : List (Nat × Nat) := []
  /-- blocks that are not at home where version 1 of the map places them: block and home -/
  blocks : Tab Nat := []
  mapVersion : Nat := 1
  /-- moves that the coordinator's END of the current step or the next brought: step, block and new home -/
  moves : List (Nat × Nat × Nat) := []
  /-- lookups served of each block in the window in progress -/
  counts : Tab Nat := []
  /-- the number of that window of 1 s -/
  window : Nat := 0
  /-- counts of the closed window that no END has carried yet -/
  closed : Option (Tab Nat) := none
  /-- block loads that ENDs have brought since the last evaluation: member, block and lookups -/
  loads : List (Nat × Nat × Nat) := []
  /-- block loads of the last closed window -/
  lastLoads : List (Nat × Nat × Nat) := []
  /-- consecutive windows whose skew exceeded the threshold -/
  overWindows : Nat := 0
  /-- TABLE_REBALANCE NOW: evaluate at the next close as though three windows had exceeded it -/
  forced : Bool := false
  /-- blocks being received under the current map (R334) -/
  incoming : List Nat := []
  /-- blocks received before the close that moves them here -/
  arrived : List Nat := []
  /-- blocks moved at the last close that moved any -/
  moved : Nat := 0
  /-- a member was lost (R330) -/
  broken : Bool := false
  /-- TABLE_DROP: the command that waits -/
  dropping : Option (Nat × Word) := none
  /-- members that have not answered DROP -/
  dropLeft : List Nat := []
  /-- when DROP was sent, ns -/
  dropSent : Option Nat := none
  /-- DROP received from another member, with its TO.REQ_ID -/
  remoteDrop : Option (Nat × Nat) := none
  deriving DecidableEq, Repr

/-- The NEXT keys of a lookup that has answered (R333). -/
structure NextKeys where
  mbx : Nat
  table : Nat
  keys : List Nat
  deriving DecidableEq, Repr

/-- A prefetch read that other members have been asked for (R333). -/
structure AheadRead where
  req : Nat
  mbx : Nat
  table : Nat
  /-- index, part and row -/
  rows : List (Nat × Nat × Nat)
  deriving DecidableEq, Repr

/-- Feature tables (chapter 13). -/
structure Tables where
  /-- tables by ID, at most 256. [R324|none] -/
  tables : Tab Table := []
  /-- rows asked for by other members that are not ready. [R330|none] -/
  requests : List TableRequest := []
  /-- prefetch buffers. [R333|none] -/
  prefetch : List Prefetched := []
  /-- NEXT keys of lookups that have answered and are not prefetched yet. [R333|none] -/
  nexts : List NextKeys := []
  /-- prefetch reads at other homes. [R333|none] -/
  ahead : List AheadRead := []
  /-- the sequence of the next TO.REQ_ID. [R420|1 DESIGN CHOICE] -/
  nextReq : Nat := 1
  deriving DecidableEq, Repr

end Sys2Proof.Machine
end

