-- ==== Sys2Proof/Machine/Parts/Flight.lean ====
section
/-!
DEFINITION. Commands in flight: what a command that has passed step 11 of Table 2-13 carries, and what it waits for.
-/
namespace Sys2Proof.Machine

/-- A GENERATE between its prefill and its end (R301, R302, R316–R319). -/
structure GenRun where
  /-- bound generations: handle and generation of the model, the vocabulary and the grammar (0, 0 for none) -/
  model : Nat × Nat
  vocab : Nat × Nat
  grammar : Nat × Nat
  prompt : List Nat
  /-- tokens chosen -/
  out : List Nat := []
  /-- the grammar's configuration: state and stack -/
  conf : Nat × List Nat
  stops : List Bytes
  stream : Option Nat
  /-- the caller is of class Sprint (R318) -/
  sprint : Bool
  /-- text bytes released so far -/
  released : Nat := 0
  /-- tokens covered by the records so far -/
  covered : Nat := 0
  /-- NaN logits dropped -/
  nans : Nat := 0
  /-- NaN rows of the positions computed so far (R294) -/
  nanRows : Nat := 0
  deriving DecidableEq, Repr

/-- How far a command in flight has come. -/
inductive Work where
  /-- passed step 11; its own row has not run yet -/
  | admitted
  /-- waits until the collection's committed CSN reaches HDR.CSN (R44) -/
  | csnWait (collection csn : Nat)
  /-- STOP_COMMAND: waits for the response of its target (R56) -/
  | stopWait (mbx : Nat) (tag : Word)
  /-- PIW_UNBIND: waits for the flush of window `w` (R65) -/
  | flushWait (w : Nat)
  /-- SESSION_CLOSE: waits for the session's earlier commands (R90) -/
  | closeWait
  /-- KEY_ZEROISE, or TENANT_DISABLE with ZEROISE: waits for the fill (R94, R425) -/
  | fillWait
  /-- TENANT_DISABLE: waits for the tenant's commands admitted earlier (R425) -/
  | disableWait (tenant : Nat)
  /-- SET_PROFILE: waits for its switch (R459) -/
  | profileWait
  /-- SET_SEASON WINTER: waits for Winter entry (R456) -/
  | winterWait
  /-- its result goes out in the records of stream `st`; then it answers with this status, and with the record count or the payload
  its chapter gives (R59, R302) -/
  | streaming (st : Nat) (status : Status) (payload : Option Bytes := none)
  /-- waits in the admission queue of a crew class (R248) -/
  | crewWait (cls : Nat)
  /-- its result waits for these reads -/
  | reads (left : List Read) (held : Held)
  /-- a search whose lists are being scanned (R157) -/
  | search (run : SearchRun)
  /-- a fabric-wide search whose shards' lists are being merged, by SQ.ID (R165) -/
  | fabric (id : Nat)
  /-- a search over extents or map runs that are being rebuilt: its own row runs again once they are (R153, R186) -/
  | rebuildWait
  /-- SEARCH_BATCH: its items run (R145) -/
  | batch
  /-- GENERATE after its prefill (R301) -/
  | generate (run : GenRun)
  /-- COMMIT of an image load: waits until the image is in flash (R289) -/
  | loadWait (load : Nat)
  /-- PLACEMENT_LOAD: waits until the image is in force (R286) -/
  | placeWait
  /-- an operation that waits for its acknowledgement (R24) -/
  | ackWait (collection csn : Nat)
  /-- COMMIT_WAIT: the CSN, whether sealing is waited for, and the end of its time, ns (R131) -/
  | commitWait (collection csn : Nat) (sealed : Bool) (until_ : Nat)
  /-- SEGMENT_SEAL: waits for its segment; 0 while the seal waits for a commit boundary (R123, R131) -/
  | sealWait (collection seg : Nat)
  /-- COMPACT: waits for its last list switch (R131) -/
  | compactWait (collection : Nat)
  /-- COLLECTION_DROP: waits until nothing refers to the collection (R132) -/
  | dropWait (collection : Nat)
  /-- HOST_REGION_REVOKE: waits for the region's outstanding accesses (R349) -/
  | revokeWait (region : Nat)
  /-- DIAG_RUN: a test runs (R448) -/
  | diagWait (test target : Nat)
  /-- a feature-table command that waits for the close of a step (R329) -/
  | stepWait
  /-- TABLE_LOOKUP: waits for rows (R328, R330, R334) -/
  | lookup (run : LookupRun)
  /-- waits for an event of the unit whose state names it: the activation of a route image or gate list, a composition, a feature table
  (R327, R336, R400, R412, R427, R431) -/
  | eventWait
  deriving DecidableEq, Repr

/-- A command in flight (R35, R36). -/
structure Flight where
  mbx : Nat
  hdr : Header
  path : Path
  /-- the plaintext payload -/
  plain : Bytes
  /-- when its header was first read, ns: deadlines run from here -/
  arrival : Nat
  /-- response slots reserved for it (R37) -/
  reserved : Nat
  /-- the CSN it is bound to (R44) -/
  bound : Option Nat := none
  /-- the collection whose snapshot it is bound to (R119) -/
  coll : Option Nat := none
  /-- the centroid map version it is bound to (R146) -/
  mapBound : Nat := 0
  /-- when it was bound, ns -/
  boundAt : Nat := 0
  /-- SEARCH_BATCH: the results that its items have given so far (R145) -/
  results : List (Option (Status × Bytes)) := []
  /-- what the command answers when it ends before its result is out: set once its records go to a stream (R143) -/
  failed : Option Bytes := none
  /-- the time its deadline passes, ns -/
  deadline : Option Nat := none
  /-- its response can no longer be written (R475) -/
  discard : Bool := false
  /-- generations it is bound to: kind (0 model, 1 vocabulary, 2 grammar), handle, generation (R282) -/
  binds : List (Nat × Nat × Nat) := []
  /-- hedged refine reads it has sent (R234) -/
  hedges : Nat := 0
  work : Work := .admitted
  deriving DecidableEq, Repr

/-- HDR.TAG of the command. -/
def Flight.tag (f : Flight) : Word := f.hdr.tag

/-- HDR.OPCODE of the command. -/
def Flight.opcode (f : Flight) : Half := f.hdr.opcode

/-- HDR.TENANT of the command, 0–4,095. -/
def Flight.tenant (f : Flight) : Nat := f.hdr.tenant.toNat % 4096

/-- A response that is decided and not yet written, in completion order (R38). -/
structure Done where
  mbx : Nat
  hdr : Header
  path : Path
  /-- response slots reserved for it (R37) -/
  reserved : Nat
  response : Response
  /-- LR.REASON of its log entry (R446) -/
  reason : Nat := 0
  /-- the command had been admitted: it counts in flight until its response is written (R36) -/
  admitted : Bool
  /-- the response can no longer be written and is discarded (R475) -/
  discard : Bool := false
  /-- since when a response for a management port has waited for a connection, ns (R443) -/
  since : Nat := 0
  deriving DecidableEq, Repr

end Sys2Proof.Machine
end

