-- ==== Sys2Proof/Machine/Parts/HostIf.lean ====
section
/-!
DEFINITION. The host interface as a whole: BAR0 global registers, mailboxes, windows, streams, MSI-X, and the commands
in flight (spec/02_mailboxes.md).
-/
namespace Sys2Proof.Machine

/-- The host interface (chapter 2). -/
structure HostIf where
  /-- GLB_ERR, bits 0–4, RW1C, 64 bits. [R29|0] -/
  glbErr : Quad := 0
  /-- GLB_PV_COUNT, saturating, 32 bits. [R27|0 DESIGN CHOICE] -/
  glbPv : Word := 0
  /-- mailbox blocks; key 4,096 is the management mailbox. [R30|every register at its reset value] -/
  mailboxes : Tab Mailbox := []
  /-- posted ingest windows 0–63. [R65|every register at its reset value] -/
  windows : Tab Window := []
  /-- open streams by number 0–1,023. [R57|none] -/
  streams : Tab Stream := []
  /-- MSI-X table, 2,048 entries. [R27|masked, 0 PRESUMED] -/
  msix : Tab MsixEntry := []
  /-- MSI-X pending bit array: the vectors whose bit is 1. [R27|0 PRESUMED] -/
  pba : List Nat := []
  /-- what the last read of BAR0 returned. [R28|0 DESIGN CHOICE] -/
  lastRead : Quad := 0
  /-- the tenant mailbox that had the last turn. [R34|4,095 DESIGN CHOICE] -/
  lastTurn : Nat := 4095
  /-- the management mailbox's turn is next, 1 bit. [R34|0 DESIGN CHOICE] -/
  mgmtNext : Bool := false
  /-- commands in flight, in admission order. [R36|none] -/
  flights : List Flight := []
  /-- commands that passed step 11 and wait for response ring space, by mailbox: while one waits, admission from its mailbox pauses. [R37|none] -/
  held : Tab Flight := []
  /-- responses decided and not yet written, in completion order. [R38|none] -/
  done : List Done := []
  /-- management ports 0 and 1. [R442|no link, no connection] -/
  ports : List MgmtPort := [{}, {}]
  deriving DecidableEq, Repr

end Sys2Proof.Machine
end

