-- ==== Sys2Proof/Machine/Parts/Models.lean ====
section
/-!
DEFINITION. State of images, models, vocabularies and grammars (spec/11_models.md, spec/12_text.md).
-/
namespace Sys2Proof.Machine

/-- The placement image in force (chapter 11). -/
structure Placement where
  /-- PLACEMENT_GEN -/
  gen : Nat
  /-- the image -/
  image : Bytes
  deriving DecidableEq, Repr

/-- A PLACEMENT_LOAD being programmed to flash (R286). -/
structure Placing where
  placement : Placement
  mbx : Nat
  tag : Word
  deriving DecidableEq, Repr

/-- What an image loaded in phases is. -/
inductive ImageKind where
  | model | vocab | grammar
  deriving DecidableEq, Repr

/-- A generation of a model, vocabulary or grammar (R283, R305, R320). -/
structure Generation where
  kind : ImageKind
  handle : Nat
  gen : Nat
  image : Bytes
  /-- it is the handle's current generation -/
  current : Bool := true
  /-- it has been retired and is unbindable; freed when its last bound command ends (R291) -/
  retired : Bool := false
  /-- damaged 2 KiB weight runs, and whether the flash copy of the run failed its tag too (R298) -/
  damaged : List (Nat × Bool) := []
  deriving DecidableEq, Repr

/-- A load in progress (R289). -/
structure ImageLoad where
  id : Nat
  kind : ImageKind
  handle : Nat
  tenant : Nat
  /-- ML.TOTAL -/
  total : Nat
  /-- what the phases have written: offset and bytes, the newest first; BEGIN writes the header at 0 -/
  writes : List (Nat × Bytes)
  /-- when its last phase arrived, ns -/
  last : Nat
  /-- the COMMIT whose image is being programmed to flash, by mailbox and tag -/
  committing : Option (Nat × Word) := none
  deriving DecidableEq, Repr

/-- An entry of a sequence's page table: the HBM page frame, by its number in the pool, and the check of the sequence ID (R296). -/
structure KvEntry where
  frame : Nat
  check : Nat
  deriving DecidableEq, Repr

/-- A sequence with its own virtual range of page slots (R296). -/
structure KvSequence where
  id : Nat
  layers : Nat
  /-- where its page table begins in the KV region, a byte offset: entry `vpn` lies at table + 8 × vpn -/
  table : Nat
  /-- the slots that hold a page, by virtual page number -/
  entries : Tab KvEntry := []
  deriving DecidableEq, Repr

/-- The KV pages a command has reserved (R297), and its sequences. -/
structure KvReservation where
  mbx : Nat
  tag : Word
  /-- pages -/
  pages : Nat
  /-- bytes of one page -/
  pageBytes : Nat
  sequences : List KvSequence := []
  deriving DecidableEq, Repr

/-- A translation an ATU has cached: sequence, virtual page number, frame (R296). -/
structure Translation where
  sequence : Nat
  vpn : Nat
  frame : Nat
  deriving DecidableEq, Repr

/-- A tokenize context (R313). -/
structure TokenContext where
  id : Nat
  tenant : Nat
  vocab : Nat
  gen : Nat
  /-- bytes carried over to the next command -/
  carry : Bytes
  /-- no prefix space is due any more -/
  started : Bool
  /-- when a command last used it, ns -/
  last : Nat
  deriving DecidableEq, Repr

/-- Images, models, vocabularies, grammars and their memory (chapters 11 and 12). -/
structure Models where
  /-- the placement image in force, kept in flash. [R284|none loaded] -/
  placement : Option Placement := none
  /-- a PLACEMENT_LOAD being programmed. [R286|none] -/
  placing : Option Placing := none
  /-- live and retired generations, kept in flash. [R284|none] -/
  gens : List Generation := []
  /-- loads in progress. [R289|none] -/
  loads : List ImageLoad := []
  /-- the LOAD_ID the next BEGIN takes. [R289|1 DESIGN CHOICE] -/
  nextLoad : Nat := 1
  /-- KV reservations of commands in flight. [R297|none] -/
  kv : List KvReservation := []
  /-- the sequence ID the next sequence takes. [R296|1 DESIGN CHOICE] -/
  nextSequence : Nat := 1
  /-- frames that went back to the pool and are zero-filled before they are used again. [R297|none] -/
  stale : List Nat := []
  /-- the translations the four ATUs have cached, the newest first, at most 65,536 each. [R296|none] -/
  atus : Vector (List Translation) 4 := .replicate 4 []
  /-- open tokenize contexts. [R313|none] -/
  contexts : List TokenContext := []
  /-- the ID the next tokenize context takes. [R313|1 DESIGN CHOICE] -/
  nextContext : Nat := 1
  deriving DecidableEq, Repr

end Sys2Proof.Machine
end

