-- ==== Sys2Proof/Machine/Parts/Tiers.lean ====
section
/-!
DEFINITION. State of the host memory tier and the shared tier (spec/14_tiers.md).
-/
namespace Sys2Proof.Machine

/-- What a page of a region holds (R347, R348): its version, and the map page, or the refine sector of a collection's segment. -/
structure HostPage where
  version : Nat
  collection : Nat := 0
  seg : Nat := 0
  /-- sector of the refine area, or the map page -/
  sector : Nat
  /-- superseded: the slot is reclaimed once no read is issued against it (R347) -/
  stale : Bool := false
  deriving DecidableEq, Repr

/-- A granted host memory region (R344–R350). -/
structure HostRegion where
  /-- 1 MAP, 2 CACHE -/
  kind : Nat
  base : Nat
  pages : Nat
  boundUs : Nat
  /-- pages with live content -/
  live : Tab HostPage := []
  /-- times of the failures of the last second, ns -/
  failures : List Nat := []
  /-- FAILED (R350) -/
  failed : Bool := false
  /-- HOST_REGION_REVOKE waits for its outstanding accesses: the command and the pages counted -/
  revoking : Option (Nat × Word × Nat) := none
  deriving DecidableEq, Repr

/-- An object in a shared region of this module (R352). -/
structure SharedObject where
  /-- index of the KIND 7 region in the placement image -/
  region : Nat
  collection : Nat
  gen : Nat
  segment : Nat
  /-- superseded: reclaimed once no lease remains -/
  superseded : Bool := false
  deriving DecidableEq, Repr

/-- A lease on an object: held by another module on an object of this one, or by this module on an owner's (R353). -/
structure Lease where
  /-- the other module -/
  node : Nat
  collection : Nat
  gen : Nat
  segment : Nat
  /-- when it was last granted or renewed, ns -/
  since : Nat
  deriving DecidableEq, Repr

/-- A read of shared sectors that this module has sent to an owner (R353). -/
structure SharedRead where
  req : Nat
  owner : Nat
  mbx : Nat
  tag : Word
  deriving DecidableEq, Repr

/-- Lower tiers (chapter 14). -/
structure Tiers where
  /-- host memory regions granted, by region ID, at most 64. [R344|none] -/
  regions : Tab HostRegion := []
  /-- the module-wide version counter of host-tier pages, 64 bits. [R347|1] -/
  version : Nat := 1
  /-- completions discarded because they came late, a count. [R351|0] -/
  lateDiscarded : Nat := 0
  /-- objects published to this module's shared regions, kept in flash. [R352|none] -/
  objects : List SharedObject := []
  /-- leases other modules hold on them. [R353|none] -/
  given : List Lease := []
  /-- leases this module holds on other owners' objects. [R353|none] -/
  held : List Lease := []
  /-- shared reads sent and not answered. [R353|none] -/
  reads : List SharedRead := []
  /-- the sequence of the next SH.REQ_ID. [R420|1 DESIGN CHOICE] -/
  nextReq : Nat := 1
  deriving DecidableEq, Repr

end Sys2Proof.Machine
end

