-- ==== Sys2Proof/Machine/Parts/Tiles.lean ====
section
/-!
DEFINITION. State of tiles, crews, bridges and spares (spec/09_tiles.md, R441).
-/
namespace Sys2Proof.Machine

/-- A crew of a command (R247). -/
structure Crew where
  mbx : Nat
  tag : Word
  /-- crew class -/
  cls : Nat
  /-- logical tiles that serve it -/
  members : List Nat
  /-- the tiles it was formed of, in the order of R247: consecutive ones form the sub-crews (R249) -/
  order : List Nat := []
  /-- CRD.FANOUT: members of a sub-crew, 0 for a flat crew (R249) -/
  fanout : Nat := 0
  /-- member 0 -/
  lead : Nat
  /-- strands per membership -/
  strands : Nat
  /-- working pages per membership -/
  pages : Nat
  /-- further pages of the lead (R245) -/
  leadPages : Nat
  /-- work items of the stage that runs (R229) -/
  items : Nat := 0
  /-- items waiting in each member's queue, by member (R229) -/
  queues : Tab Nat := []
  /-- members that receive no new items (R230) -/
  slow : List Nat := []
  /-- restarts of the stage that runs for tile failures (R254) -/
  restarts : Nat := 0
  deriving DecidableEq, Repr

/-- A command in a class's admission queue (R248). -/
structure CrewWait where
  mbx : Nat
  tag : Word
  cls : Nat
  leadPages : Nat
  /-- since when, ns -/
  since : Nat
  /-- tiles of its crew where the command fixes them, 0 for CRD.TILES (R213) -/
  tiles : Nat := 0
  deriving DecidableEq, Repr

/-- What became of a logical tile that failed (R252–R255). -/
inductive TileState where
  /-- retired: no new items; substituted once its running items complete -/
  | retiring
  /-- its number moves to a spare position, which has loaded since this time, ns (Table 9-5) -/
  | substituting (spare since : Nat)
  /-- the number is out of service: no spare was left -/
  | gone
  deriving DecidableEq, Repr

/-- Tiles, crews and bridges (chapter 9). -/
structure Tiles where
  /-- logical tiles that are not served by a working position, by number; others are active. [R252|none] -/
  state : Tab TileState := []
  /-- tile positions that have failed (die × 1,088 + row × 34 + column), kept in module state in flash. [R256|none] -/
  failed : List Nat := []
  /-- positions declared failed during a power-loss flush, which only its final record records. [R257|none] -/
  unrecorded : List Nat := []
  /-- the substitution map: logical tile to spare position, kept in module state in flash. [R256|identity] -/
  map : Tab Nat := []
  /-- crews formed. [R247|none] -/
  crews : List Crew := []
  /-- class admission queues, in admission order, at most 4,096 a class. [R248|empty] -/
  queue : List CrewWait := []
  /-- the queue waits of the last 10 ms: class, time at which the wait ended and its length, ns. [R248|none] -/
  waits : List (Nat × Nat × Nat) := []
  /-- corrected tile-store errors of the last hour: tile and time, ns. [R252|none] -/
  corrected : List (Nat × Nat) := []
  /-- commands of the last second that named a tile slow: tile and time, ns. [R441|none] -/
  slowNamed : List (Nat × Nat) := []
  /-- SUSPECT tiles and the time their mark lifts, ns. [R441|none] -/
  suspect : Tab Nat := []
  /-- bridges that are down: 0 dies 0–1, 1 dies 0–2, 2 dies 1–3, 3 dies 2–3, 4–7 tile die to hub, 8–27 tile die to
  HBM stack. [R17|none] -/
  bridgesDown : List Nat := []
  /-- bridges whose routes changed and whose sources still hold messages. [R242|none] -/
  rerouting : List Nat := []
  /-- results of the last self-test are in: tile dies take work. [R257|1 DESIGN CHOICE] -/
  tested : Bool := true
  deriving DecidableEq, Repr

end Sys2Proof.Machine
end

