-- ==== Sys2Proof/Machine/State.lean ====
section
/-!
DEFINITION. The state of the module: everything the spec gives it, as plain data, with the queue of waiting commands.
-/
namespace Sys2Proof.Machine

/-- Why a step stops. No meaning of this model ends in one of these on ordinary data. -/
inductive Fault where
  /-- an access to something the spec says does not exist; raised by no command, since operands are ranged (safe) -/
  | noSuchUnit
  deriving DecidableEq, Repr

/-- Why a command has no meaning. -/
inductive Refusal where
  /-- a row of the table that has no meaning yet; raised by the dispatch alone (safe) -/
  | notModelled (mnemonic : String)
  deriving DecidableEq, Repr

/-- The module. -/
structure State where
  /-- commands waiting, first in, first out; the model's own queue. [model|empty] -/
  pending : List Instr := []
  /-- elapsed time, ns; the model's own clock, advanced when the queue is empty. [model|0 DESIGN CHOICE] -/
  clock : Nat := 0
  /-- FABRIC_TIME, TAI nanoseconds, 64 bits. [R11|0 DESIGN CHOICE] -/
  fabTime : Nat := 0
  /-- free values drawn so far; the model's own counter. [model|0 DESIGN CHOICE] -/
  free : Nat := 0
  /-- what the module has driven out (host memory writes, messages), newest last; the model's own record. [model|empty DESIGN CHOICE] -/
  out : List Output := []
  /-- the host interface. [R27|reset values] -/
  host : HostIf := {}
  /-- keys, sessions and attestation. [R75|none held] -/
  keys : Keys := {}
  /-- tenants, meters and the event log. [R423|none] -/
  tenants : Tenants := {}
  /-- collections. [R100|none] -/
  index : Index := {}
  /-- images and models. [R284|none loaded] -/
  models : Models := {}
  /-- tiles, crews and bridges. [R238|all active]  -/
  tiles : Tiles := {}
  /-- feature tables. [R324|none] -/
  tables : Tables := {}
  /-- lower tiers. [R344|none] -/
  tiers : Tiers := {}
  /-- flash and media management. [R356|as listed] -/
  flash : Flash := {}
  /-- the fabric. [R396|ports DOWN] -/
  fabric : Fabric := {}
  /-- partitions, compositions, fences. [R426|none] -/
  comp : Comp := {}
  /-- power, seasons and profiles. [R455|Spring] -/
  power : Power := {}
  /-- the governor. [R460|no tick yet] -/
  governor : Governor := {}
  /-- input pins, supplies and clocks. [R470|DESIGN CHOICE] -/
  pins : Pins := {}
  deriving DecidableEq, Repr

/-- The module right after reset: Spring, with every register at its reset value (R455, R458, Tables 2-3 to 2-25). -/
def State.reset : State := {}

end Sys2Proof.Machine
end

