-- ==== Sys2Proof/Machine/Operands.lean ====
section
/-!
DEFINITION. Reading and writing the fields of packets and payloads: little-endian integers (R10), CRC-32C (R42), the
header of Table 2-10, the error detail of Table 2-12.
-/
namespace Sys2Proof.Machine

/-- The little-endian value of a byte string (R10). -/
def leNat : Bytes → Nat
  | [] => 0
  | b :: t => b.toNat + 256 * leNat t

/-- The `n` little-endian bytes of a number (R10). -/
def leBytes : Nat → Nat → Bytes
  | 0, _ => []
  | n + 1, v => BitVec.ofNat 8 v :: leBytes n (v / 256)

/-- Put an element before the first that it goes before. -/
def insertBy {α : Type} (le : α → α → Bool) (a : α) : List α → List α
  | [] => [a]
  | b :: l => if le a b then a :: b :: l else b :: insertBy le a l

/-- A list in order; elements that tie keep their order. -/
def sortBy {α : Type} (l : List α) (le : α → α → Bool) : List α := l.foldr (insertBy le) []

/-- `n` bytes of `b` from offset `o`; what lies past the end is missing. -/
def slice (b : Bytes) (o n : Nat) : Bytes := (b.drop o).take n

/-- The little-endian field of `n` bytes at offset `o` (R10). -/
def field (b : Bytes) (o n : Nat) : Nat := leNat (slice b o n)

/-- The bit field [hi:lo] of a number (R10). -/
def bits (v lo hi : Nat) : Nat := (v / 2 ^ lo) % 2 ^ (hi + 1 - lo)

/-- Bit `i` of a number (R10). -/
def bit (v i : Nat) : Bool := (v / 2 ^ i) % 2 == 1

/-- A number as a two's complement integer of `n` bits. -/
def signed (n v : Nat) : Int := if v < 2 ^ (n - 1) then v else (v : Int) - 2 ^ n

/-- Every byte of a range is 0: a reserved field as R13 wants it. -/
def zeroField (b : Bytes) (o n : Nat) : Bool := (slice b o n).all (· == 0)

/-- `n` zero bytes. -/
def zeros (n : Nat) : Bytes := List.replicate n 0

/-- Pad a byte string with zero bytes to a multiple of `k`. -/
def padTo (k : Nat) (b : Bytes) : Bytes := b ++ zeros ((k - b.length % k) % k)

/-- One shift of the reflected CRC-32C register (R42). -/
def crcBit (c : Word) : Word := if c.getLsbD 0 then (c >>> 1) ^^^ 0x82F63B78#32 else c >>> 1

/-- The CRC-32C register after one byte (R42). -/
def crcByte (c : Word) (b : Byte) : Word :=
  crcBit (crcBit (crcBit (crcBit (crcBit (crcBit (crcBit (crcBit (c ^^^ b.setWidth 32))))))))

/-- CRC-32C of a byte string (R42). -/
def crc32c (b : Bytes) : Word := (b.foldl crcByte 0xFFFFFFFF#32) ^^^ 0xFFFFFFFF#32

/-- HDR.CRC of a 32-byte header: bytes 0x00–0x1F with the CRC field taken as 0 (Table 2-10). -/
def headerCrc (b : Bytes) : Word := crc32c (slice b 0 0x14 ++ zeros 4 ++ slice b 0x18 8)

/-- The fields of a command header (Table 2-10). -/
def parseHeader (b : Bytes) : Header where
  version := BitVec.ofNat 8 (field b 0x00 1)
  status := BitVec.ofNat 8 (field b 0x01 1)
  opcode := BitVec.ofNat 16 (field b 0x02 2)
  tenant := BitVec.ofNat 16 (field b 0x04 2)
  flags := BitVec.ofNat 16 (field b 0x06 2)
  tag := BitVec.ofNat 32 (field b 0x08 4)
  length := BitVec.ofNat 32 (field b 0x0C 4)
  session := BitVec.ofNat 32 (field b 0x10 4)
  crc := BitVec.ofNat 32 (field b 0x14 4)
  csn := BitVec.ofNat 64 (field b 0x18 8)

/-- The header bytes of Table 2-10 with their CRC. -/
def headerBytes (h : Header) : Bytes :=
  let front := leBytes 1 h.version.toNat ++ leBytes 1 h.status.toNat ++ leBytes 2 h.opcode.toNat ++
    leBytes 2 h.tenant.toNat ++ leBytes 2 h.flags.toNat ++ leBytes 4 h.tag.toNat ++ leBytes 4 h.length.toNat ++
    leBytes 4 h.session.toNat
  let back := leBytes 8 h.csn.toNat
  front ++ leBytes 4 (crc32c (front ++ zeros 4 ++ back)).toNat ++ back

/-- Slots a packet of `len` payload bytes occupies (R33). -/
def packetSlots (len : Nat) : Nat := (32 + len + 63) / 64

/-- HDR.FLAGS.SEALED (Table 2-11). -/
def hdrSealed (h : Header) : Bool := h.flags.getLsbD 0
/-- HDR.FLAGS.FENCE (Table 2-11). -/
def hdrFence (h : Header) : Bool := h.flags.getLsbD 1
/-- HDR.FLAGS.STREAM (Table 2-11). -/
def hdrStream (h : Header) : Bool := h.flags.getLsbD 2

/-- The code of a status (Table 2-15). -/
def statusCode : Status → Nat
  | .done => 0x00 | .doneUnderfull => 0x01 | .doneTruncated => 0x02 | .donePartialCoverage => 0x03
  | .wrongState => 0x10 | .unknownOpcode => 0x11 | .badField => 0x12 | .lengthExceeds => 0x13
  | .protocolViolation => 0x14 | .notAuthorised => 0x15 | .noResources => 0x16 | .busyRetry => 0x17
  | .grammarDeadEnd => 0x20 | .stopped => 0x21 | .tierFailed => 0x22 | .tierLate => 0x23 | .dataDamaged => 0x24
  | .compositionLost => 0x25 | .fenced => 0x26 | .keyUnavailable => 0x27 | .deadlineExceeded => 0x30

/-- A status whose response carries exactly the error detail, unsealed (R45). -/
def statusIsDetail (s : Status) : Bool :=
  (0x10 ≤ statusCode s && statusCode s ≤ 0x17) || s == .fenced || s == .keyUnavailable

/-- A status the module logs (R49). -/
def statusIsLogged : Status → Bool
  | .wrongState | .unknownOpcode | .badField | .lengthExceeds | .protocolViolation | .notAuthorised => true
  | _ => false

/-- The code of a reason (Table 2-14). -/
def reasonCode : Reason → Nat
  | .hdrCrc => 0x01 | .version => 0x02 | .tenantMismatch => 0x03 | .hdrReserved => 0x04 | .lengthReserved => 0x05
  | .incompletePacket => 0x06 | .duplicateTag => 0x07 | .sealedFlag => 0x08 | .doorbellRange => 0x09
  | .doorbellSize => 0x0A | .cfgInvalid => 0x0B | .piwSlot => 0x0C | .piwTimeout => 0x0D | .piwOpcode => 0x0E
  | .piwWrite => 0x0F | .streamConsRange => 0x10 | .rspConsRange => 0x11

/-- The code of a reason, 0 for none. -/
def reasonCodeOr0 : Option Reason → Nat
  | none => 0
  | some r => reasonCode r

/-- ERR.OFFSET when no field offends (Table 2-12). -/
def noOffset : Nat := 0xFFFFFFFF

/-- The 16 bytes of the error detail (Table 2-12). -/
def detailBytes (d : Detail) : Bytes :=
  leBytes 4 d.offset ++ leBytes 1 (reasonCodeOr0 d.reason) ++ leBytes 1 d.space ++ leBytes 2 d.hint ++
    leBytes 4 d.limit ++ leBytes 4 d.offsetHi

/-- A detail that names a field of the packet. -/
def bad (off : Nat) : Detail := { status := .badField, offset := off }
/-- WRONG_STATE with no offending field. -/
def wrongState : Detail := { status := .wrongState, offset := noOffset }
/-- WRONG_STATE that names a field. -/
def wrongStateAt (off : Nat) : Detail := { status := .wrongState, offset := off }
/-- NOT_AUTHORISED that names a field. -/
def notAuthorised (off : Nat) : Detail := { status := .notAuthorised, offset := off }
/-- NO_RESOURCES with the limit reached. -/
def noResources (limit : Nat) : Detail := { status := .noResources, offset := noOffset, limit := limit }
/-- BUSY_RETRY with a hint in microseconds, 1–65,535. -/
def busyRetry (hint : Nat) : Detail := { status := .busyRetry, offset := noOffset, hint := max 1 (min hint 65535) }
/-- KEY_UNAVAILABLE that names a field. -/
def keyUnavailable (off : Nat) : Detail := { status := .keyUnavailable, offset := off }
/-- FENCED. -/
def fencedDetail : Detail := { status := .fenced, offset := noOffset }

/-- One check: pass, or answer with this detail. -/
def need (ok : Bool) (d : Detail) : Except Detail Unit := if ok then .ok () else .error d

/-- Checks of payload fields in ascending offset (R48): each an offset in the plaintext and whether the field is valid.
The first that fails is answered BAD_FIELD with its packet offset. -/
def fields : List (Nat × Bool) → Except Detail Unit
  | [] => .ok ()
  | (o, ok) :: t => if ok then fields t else .error (bad (0x20 + o))

/-- `n`-byte records of a byte string, `k` of them. -/
def records (n : Nat) : Nat → Bytes → List Bytes
  | 0, _ => []
  | k + 1, b => b.take n :: records n k (b.drop n)

/-- A saturating 32-bit counter's next value. -/
def satSucc (w : Word) : Word := if w = 0xFFFFFFFF#32 then w else w + 1

/-- The 0-or-1 of a truth value. -/
def flag (b : Bool) : Nat := if b then 1 else 0

end Sys2Proof.Machine
end

