-- ==== Sys2Proof/Machine/Catalogue.lean ====
section
/-!
DEFINITION. The command catalogue (Table 2-17): where each opcode may be sent, how its payload is sealed, and in which
seasons it is legal (Table 2-16, R51, R53).
-/
namespace Sys2Proof.Machine

/-- The Seal column of Table 2-17 (R43). -/
inductive SealMark where
  | sealed | clear | hpke
  deriving DecidableEq, Repr

/-- The legality classes of Table 2-16. -/
inductive Legality where
  | identity | work | drainSafe
  deriving DecidableEq, Repr

/-- One row of Table 2-17. -/
structure OpRow where
  code : Nat
  onTenant : Bool
  onMgmt : Bool
  mark : SealMark
  cls : Legality
  deriving DecidableEq, Repr

/-- The opcodes of group 0x0xxx (Table 2-17). -/
def catalogue0 : List OpRow := [
  ⟨0x0001, true, true, .clear, .identity⟩ /- IDENTIFY -/,
  ⟨0x0002, true, true, .clear, .identity⟩ /- GET_STATUS -/,
  ⟨0x0003, true, true, .clear, .identity⟩ /- NOP -/,
  ⟨0x0010, false, true, .sealed, .work⟩ /- SET_PROFILE -/,
  ⟨0x0011, false, true, .sealed, .identity⟩ /- SET_SEASON -/,
  ⟨0x0020, false, true, .sealed, .work⟩ /- TENANT_CONFIGURE -/,
  ⟨0x0021, false, true, .sealed, .drainSafe⟩ /- TENANT_DISABLE -/,
  ⟨0x0030, true, false, .sealed, .work⟩ /- STREAM_OPEN -/,
  ⟨0x0031, true, false, .sealed, .drainSafe⟩ /- STREAM_CLOSE -/,
  ⟨0x0040, true, true, .sealed, .drainSafe⟩ /- STOP_COMMAND -/,
  ⟨0x0050, false, true, .sealed, .work⟩ /- PIW_BIND -/,
  ⟨0x0051, false, true, .sealed, .drainSafe⟩ /- PIW_UNBIND -/]

/-- The opcodes of group 0x1xxx (Table 2-17). -/
def catalogue1 : List OpRow := [
  ⟨0x1001, true, true, .clear, .identity⟩ /- GET_CERTIFICATES -/,
  ⟨0x1002, true, false, .hpke, .work⟩ /- KEY_IMPORT -/,
  ⟨0x1003, true, false, .hpke, .work⟩ /- SESSION_OPEN -/,
  ⟨0x1004, true, false, .sealed, .drainSafe⟩ /- SESSION_CLOSE -/,
  ⟨0x1005, true, false, .sealed, .work⟩ /- KEY_ROTATE -/,
  ⟨0x1006, true, true, .sealed, .drainSafe⟩ /- KEY_ZEROISE -/]

/-- The opcodes of group 0x2xxx (Table 2-17). -/
def catalogue2 : List OpRow := [
  ⟨0x2001, true, false, .sealed, .work⟩ /- COLLECTION_CREATE -/,
  ⟨0x2002, true, false, .sealed, .work⟩ /- COLLECTION_DROP -/,
  ⟨0x2003, true, false, .sealed, .drainSafe⟩ /- COLLECTION_DESCRIBE -/,
  ⟨0x2010, true, false, .sealed, .work⟩ /- INSERT_VECTORS -/,
  ⟨0x2011, true, false, .sealed, .work⟩ /- INSERT_TEXT -/,
  ⟨0x2012, true, false, .sealed, .work⟩ /- UPSERT_VECTORS -/,
  ⟨0x2013, true, false, .sealed, .work⟩ /- UPSERT_TEXT -/,
  ⟨0x2014, true, false, .sealed, .work⟩ /- DELETE_ITEMS -/,
  ⟨0x2015, true, false, .sealed, .work⟩ /- DELETE_BY_FILTER -/,
  ⟨0x2020, true, false, .sealed, .drainSafe⟩ /- COMMIT_WAIT -/,
  ⟨0x2030, true, false, .sealed, .work⟩ /- SEGMENT_SEAL -/,
  ⟨0x2031, true, false, .sealed, .work⟩ /- COMPACT -/,
  ⟨0x2040, true, false, .sealed, .work⟩ /- GET_ITEMS -/]

/-- The opcodes of group 0x3xxx (Table 2-17). -/
def catalogue3 : List OpRow := [
  ⟨0x3001, true, false, .sealed, .work⟩ /- SEARCH -/,
  ⟨0x3002, true, false, .sealed, .work⟩ /- SEARCH_RERANK -/,
  ⟨0x3003, true, false, .sealed, .work⟩ /- SEARCH_BATCH -/,
  ⟨0x3010, true, false, .sealed, .work⟩ /- SELECT_TOPK -/,
  ⟨0x3011, true, false, .sealed, .work⟩ /- MERGE_PARTIAL -/]

/-- The opcodes of group 0x4xxx (Table 2-17). -/
def catalogue4 : List OpRow := [
  ⟨0x4001, true, false, .sealed, .work⟩ /- MODEL_LOAD -/,
  ⟨0x4002, true, false, .sealed, .work⟩ /- MODEL_RETIRE -/,
  ⟨0x4003, false, true, .sealed, .work⟩ /- PLACEMENT_LOAD -/,
  ⟨0x4010, true, false, .sealed, .work⟩ /- ENCODE -/,
  ⟨0x4011, true, false, .sealed, .work⟩ /- SCORE_PAIRS -/,
  ⟨0x4012, true, false, .sealed, .work⟩ /- GENERATE -/,
  ⟨0x4020, true, false, .sealed, .work⟩ /- VOCAB_LOAD -/,
  ⟨0x4021, true, false, .sealed, .work⟩ /- VOCAB_RETIRE -/,
  ⟨0x4022, true, false, .sealed, .work⟩ /- TOKENIZE -/,
  ⟨0x4023, true, false, .sealed, .work⟩ /- DETOKENIZE -/,
  ⟨0x4030, true, false, .sealed, .work⟩ /- GRAMMAR_LOAD -/,
  ⟨0x4031, true, false, .sealed, .work⟩ /- GRAMMAR_RETIRE -/]

/-- The opcodes of group 0x5xxx (Table 2-17). -/
def catalogue5 : List OpRow := [
  ⟨0x5001, true, false, .sealed, .work⟩ /- TABLE_CREATE -/,
  ⟨0x5002, true, false, .sealed, .work⟩ /- TABLE_DROP -/,
  ⟨0x5010, true, false, .sealed, .work⟩ /- TABLE_LOOKUP -/,
  ⟨0x5011, true, false, .sealed, .work⟩ /- TABLE_UPDATE -/,
  ⟨0x5020, true, false, .sealed, .work⟩ /- TABLE_REBALANCE -/]

/-- The opcodes of group 0x6xxx (Table 2-17). -/
def catalogue6 : List OpRow := [
  ⟨0x6001, true, true, .sealed, .drainSafe⟩ /- FABRIC_STATUS -/,
  ⟨0x6010, false, true, .sealed, .work⟩ /- ROUTE_LOAD -/,
  ⟨0x6011, false, true, .sealed, .work⟩ /- GATE_LIST_LOAD -/,
  ⟨0x6020, false, true, .sealed, .work⟩ /- PARTITION_SET -/,
  ⟨0x6021, false, true, .sealed, .drainSafe⟩ /- FENCE_SET -/,
  ⟨0x6030, false, true, .sealed, .work⟩ /- COMPOSITION_JOIN -/,
  ⟨0x6031, false, true, .sealed, .drainSafe⟩ /- COMPOSITION_LEAVE -/,
  ⟨0x6040, true, false, .sealed, .work⟩ /- REPLICA_SET -/]

/-- The opcodes of group 0x7xxx (Table 2-17). -/
def catalogue7 : List OpRow := [
  ⟨0x7001, false, true, .sealed, .drainSafe⟩ /- MEDIA_STATUS -/,
  ⟨0x7010, false, true, .sealed, .work⟩ /- HOST_REGION_GRANT -/,
  ⟨0x7011, false, true, .sealed, .work⟩ /- HOST_REGION_REVOKE -/,
  ⟨0x7020, true, false, .sealed, .drainSafe⟩ /- METER_READ -/,
  ⟨0x7021, false, true, .sealed, .drainSafe⟩ /- METER_READ_ALL -/,
  ⟨0x7030, false, true, .sealed, .drainSafe⟩ /- LOG_READ -/,
  ⟨0x7031, false, true, .sealed, .work⟩ /- DIAG_RUN -/,
  ⟨0x7032, false, true, .sealed, .work⟩ /- NBU_DIAG_READ -/]

/-- Table 2-17. -/
def catalogue : List OpRow :=
  catalogue0 ++ catalogue1 ++ catalogue2 ++ catalogue3 ++ catalogue4 ++ catalogue5 ++ catalogue6 ++ catalogue7

/-- The row of an opcode, none where it is unassigned (step 5 of Table 2-13). -/
def opRow (op : Half) : Option OpRow := catalogue.find? fun r => r.code == op.toNat

/-- The response to this opcode's own payload is sealed in the SEAL format or by HPKE (R45). -/
def opSeals (op : Half) : Bool :=
  match opRow op with
  | some r => r.mark != .clear
  | none => false

/-- Opcodes that need a placement image (R53). -/
def needsPlacement (op : Half) : Bool :=
  let g := op.toNat / 0x1000
  (g == 2 || g == 3 || g == 5 || (g == 4 && op.toNat != 0x4003)) ||
    op.toNat == 0x7010 || op.toNat == 0x7011 || op.toNat == 0x7031 || op.toNat == 0x7032

/-- A legality class is answered in a season (Table 2-16). -/
def classLegal (c : Legality) (s : Season) : Bool :=
  match s, c with
  | .spring, .identity => true
  | .spring, _ => false
  | .summer, _ => true
  | .drain, .work => false
  | .drain, _ => true
  | .winter, _ | .powerLoss, _ | .heldInReset, _ => false

/-- Step 8 of Table 2-13 for an opcode, with or without a placement image (R51, R53). -/
def stepEight (op : Half) (s : Season) (placement : Bool) : Bool :=
  match opRow op with
  | some r => classLegal r.cls s && (placement || !needsPlacement op)
  | none => false

/-- GET_STATUS.ADMIT: bit g is 1 while some opcode of group 0xgxxx passes step 8 (Table 2-19). -/
def admitBits (s : Season) (placement : Bool) : Nat :=
  (List.range 8).foldl (fun acc g =>
    if catalogue.any (fun r => r.code / 0x1000 == g && stepEight (BitVec.ofNat 16 r.code) s placement) then acc + 2 ^ g
    else acc) 0

/-- The opcodes a posted ingest window may carry (R64). -/
def windowOpcode (op : Half) : Bool := [0x2010, 0x2011, 0x2012, 0x2013, 0x2014].contains op.toNat

end Sys2Proof.Machine
end

