-- ==== Sys2Proof/Machine/Ops.lean ====
section
/-!
DEFINITION. The shared operations of the host interface: outputs, interrupts, the event log, the meters, mailboxes,
violations, and answering a command (spec/02_mailboxes.md, R444–R446).
-/
namespace Sys2Proof.Machine

/-- Drive something out of the module. -/
def State.emit (o : Output) (s : State) : State := { s with out := s.out ++ [o] }

/-- Draw a free value: what it is, nothing says. -/
def State.draw (s : State) : Nat × State := (Config.free s.free, { s with free := s.free + 1 })

/-- The module answers on PCIe: it is up and not in Winter nor held in reset (R51, R475). -/
def State.pcieReachable (s : State) : Bool :=
  s.power.pcieUp && s.power.season != .winter && s.power.season != .heldInReset

/-- The module's fast domain runs in Spring, Summer or Autumn drain: a power event there runs the flush (R451). -/
def State.operating (s : State) : Bool :=
  s.power.season == .spring || s.power.season == .summer || s.power.season == .drain

/-- Flaum reads command rings and windows and writes responses (R52), until Winter entry closes them (Table 18-5). -/
def State.serving (s : State) : Bool := s.operating && s.power.entering.isNone

/-- A placement image is loaded (DEV_STATE.PLACEMENT). -/
def State.placed (s : State) : Bool := s.models.placement.isSome

/-- Send an MSI-X vector, or set its pending bit while its entry is masked. -/
def State.vector (v : Nat) (s : State) : State :=
  if (s.host.msix.getD v {}).control.getLsbD 0 then
    if s.host.pba.contains v then s else { s with host.pba := v :: s.host.pba }
  else s.emit (.msix v)

/-- Set a GLB_ERR bit; a bit that goes from 0 to 1 raises vector 0 (R29). -/
def State.globalError (bit : Nat) (s : State) : State :=
  if s.host.glbErr.getLsbD bit then s
  else ({ s with host.glbErr := s.host.glbErr ||| (1#64 <<< bit) } : State).vector 0

/-- GLB_ERR.BAR_PV -/
def errBarPv : Nat := 0
/-- GLB_ERR.DOORBELL_PV -/
def errDoorbellPv : Nat := 1
/-- GLB_ERR.MBX_HALT -/
def errMbxHalt : Nat := 2
/-- GLB_ERR.PIW_EVENT -/
def errPiwEvent : Nat := 3
/-- GLB_ERR.STREAM_PV -/
def errStreamPv : Nat := 4

/-- Count a BAR0, doorbell or register violation (Table 2-2). -/
def State.countGlobalPv (s : State) : State := { s with host.glbPv := satSucc s.host.glbPv }

/-- The key under which module-wide meters and log entries stand. -/
def moduleKey : Nat := 0xFFFF

/-- The meter and log key of a mailbox. -/
def who (m : Nat) : Nat := if m < 4096 then m else moduleKey

/-- The mailbox a unit notes for a change that no command waits for. -/
def noCommand : Nat := 2 ^ 60

/-- The largest value of a counter of Table 17-7 or Table 8-3 at an offset. -/
def meterMax (off : Nat) : Nat := if off ≥ 0x98 then 2 ^ 32 - 1 else 2 ^ 64 - 1

/-- Add to one counter of one meter block, saturating (R444). -/
def meterAdd (off n : Nat) (m : Meters) : Meters :=
  { m with ctr := m.ctr.put off (min (meterMax off) (m.ctr.getD off 0 + n)) }

/-- Charge a tenant's counter of Table 17-7, and the module's total with it (R444, R445). -/
def State.charge (t off n : Nat) (s : State) : State :=
  let ms := s.tenants.meters
  let ms := ms.put t (meterAdd off n (ms.getD t {}))
  let ms := if t = moduleKey then ms else ms.put moduleKey (meterAdd off n (ms.getD moduleKey {}))
  { s with tenants.meters := ms }

/-- Charge the speculation account of a tenant and of the module (R228). -/
def State.chargeSpec (t off n : Nat) (s : State) : State :=
  let add (m : Meters) : Meters := { m with spa := m.spa.put off (min (2 ^ 64 - 1) (m.spa.getD off 0 + n)) }
  let ms := s.tenants.meters
  let ms := ms.put t (add (ms.getD t {}))
  let ms := if t = moduleKey then ms else ms.put moduleKey (add (ms.getD moduleKey {}))
  { s with tenants.meters := ms }

/-- Take back what a tenant was charged: it goes to the speculation account, which has a counter for tile time and for reads (R228). -/
def State.moveToSpec (t : Nat) (charges : Tab Nat) (s : State) : State :=
  let less (off n : Nat) (m : Meters) : Meters := { m with ctr := m.ctr.put off (m.ctr.getD off 0 - n) }
  charges.foldl (fun s c =>
    let ms := s.tenants.meters
    let ms := ms.put t (less c.1 c.2 (ms.getD t {}))
    let ms := if t = moduleKey then ms else ms.put moduleKey (less c.1 c.2 (ms.getD moduleKey {}))
    let s := { s with tenants.meters := ms }
    if c.1 = 0x28 then s.chargeSpec t 0x48 c.2 else if c.1 = 0x38 then s.chargeSpec t 0x18 c.2 else s) s

/-- Append a log entry, keeping the newest 65,536, and those of kinds 4, 5 and 7 in module state too (R446). -/
def State.logAppend (e : LogEntry) (s : State) : State :=
  let e := { e with seq := s.tenants.logNext, time := s.fabTime }
  let log := s.tenants.log ++ [e]
  { s with
    tenants.log := if log.length > 65536 then log.drop 1 else log
    tenants.logNext := s.tenants.logNext + 1
    tenants.keptEvents :=
      if e.kind == 4 || e.kind == 5 || e.kind == 7 then s.tenants.keptEvents ++ [e] else s.tenants.keptEvents }

/-- A tenant may still add an entry in this one-second interval (R446). -/
def State.mayLog (t : Nat) (s : State) : Bool := t ≥ 4096 || s.tenants.logCount.getD t 0 < 1000

/-- Log an event of a tenant or of the module under the rate limit of R446; beyond it the event is counted. -/
def State.log (e : LogEntry) (s : State) : State :=
  if s.mayLog e.tenant then
    let s := s.logAppend e
    if e.tenant ≥ 4096 then s
    else { s with tenants.logCount := s.tenants.logCount.put e.tenant (s.tenants.logCount.getD e.tenant 0 + 1) }
  else
    let s := { s with tenants.logSuppressed :=
      s.tenants.logSuppressed.put e.tenant (s.tenants.logSuppressed.getD e.tenant 0 + 1) }
    s.charge e.tenant 0xB8 1

/-- Log a unit failure, KIND 4, with the failed unit as detail. -/
def State.logUnit (detail : Nat) (s : State) : State := s.log { seq := 0, time := 0, kind := 4, detail := detail }

/-- Log a module event of a kind with its detail. -/
def State.logKind (kind detail : Nat) (s : State) : State := s.log { seq := 0, time := 0, kind := kind, detail := detail }

/-- A mailbox block; one that is not listed is at its reset values. -/
def State.mbx (m : Nat) (s : State) : Mailbox := s.host.mailboxes.getD m {}

/-- Write a mailbox block. -/
def State.setMbx (m : Nat) (b : Mailbox) (s : State) : State := { s with host.mailboxes := s.host.mailboxes.put m b }

/-- Change a mailbox block. -/
def State.updMbx (m : Nat) (f : Mailbox → Mailbox) (s : State) : State := s.setMbx m (f (s.mbx m))

/-- Record a violation on a mailbox: MBX_STATUS.PV, LAST_PV and PV_COUNT (Table 2-7). -/
def State.mbxViolation (m : Nat) (r : Reason) (s : State) : State :=
  s.updMbx m fun b => { b with pv := true, lastPv := some r, pvCount := satSucc b.pvCount }

/-- Log a violation that has no response (R49). -/
def State.logViolation (t : Nat) (r : Reason) (s : State) : State :=
  s.log { seq := 0, time := 0, kind := 2, reason := reasonCode r, tenant := t }

/-- A register or doorbell write on a mailbox that broke a rule: counted on the mailbox and in GLB_PV_COUNT, and logged. -/
def State.registerViolation (m : Nat) (r : Reason) (s : State) : State :=
  ((s.mbxViolation m r).countGlobalPv).logViolation (who m) r

/-- A posted ingest window; one that is not listed is at its reset values. -/
def State.win (w : Nat) (s : State) : Window := s.host.windows.getD w {}

/-- Write a window. -/
def State.setWin (w : Nat) (b : Window) (s : State) : State := { s with host.windows := s.host.windows.put w b }

/-- Change a window. -/
def State.updWin (w : Nat) (f : Window → Window) (s : State) : State := s.setWin w (f (s.win w))

/-- Record a violation on a window: PV, LAST_PV, PIW_PV_COUNT and GLB_ERR.PIW_EVENT (R64, R66). -/
def State.winViolation (w : Nat) (r : Reason) (s : State) : State :=
  (s.updWin w fun b => { b with pv := true, lastPv := some r, pvCount := satSucc b.pvCount }).globalError errPiwEvent

/-- A window violation without a response: recorded on the window only, and logged (R64, R66). -/
def State.winSilent (w : Nat) (r : Reason) (s : State) : State :=
  (s.winViolation w r).logViolation ((s.win w).bound.getD moduleKey) r

/-- The commands of a mailbox in flight: admitted, and their response not yet written (R36). -/
def State.inFlight (m : Nat) (s : State) : Nat :=
  (s.host.flights.filter (·.mbx == m)).length + (s.host.done.filter fun d => d.mbx == m && d.admitted).length

/-- HDR.TAG is in flight on a mailbox (step 4 of Table 2-13). -/
def State.tagInFlight (m : Nat) (tag : Word) (s : State) : Bool :=
  s.host.flights.any (fun f => f.mbx == m && f.tag == tag) ||
    s.host.done.any (fun d => d.mbx == m && d.admitted && d.hdr.tag == tag)

/-- The command in flight with a tag on a mailbox. -/
def State.flight (m : Nat) (tag : Word) (s : State) : Option Flight :=
  s.host.flights.find? fun f => f.mbx == m && f.tag == tag

/-- Change the command in flight with a tag on a mailbox. -/
def State.updFlight (m : Nat) (tag : Word) (g : Flight → Flight) (s : State) : State :=
  { s with host.flights := s.host.flights.map fun f => if f.mbx == m && f.tag == tag then g f else f }

/-- Let a command in flight wait for something. -/
def State.setWork (f : Flight) (w : Work) (s : State) : State := s.updFlight f.mbx f.tag fun f => { f with work := w }

/-- Slots of the command or response ring (Table 2-6). -/
def ringSlots (log2 : Nat) : Nat := 2 ^ log2

/-- MBX_CFG.CMD_LOG2. -/
def cmdLog2 (b : Mailbox) : Nat := bits b.cfg.toNat 0 4
/-- MBX_CFG.RSP_LOG2. -/
def rspLog2 (b : Mailbox) : Nat := bits b.cfg.toNat 5 9
/-- MBX_CFG.CMD_MAX_LOG2. -/
def cmdMaxLog2 (b : Mailbox) : Nat := bits b.cfg.toNat 10 14
/-- MBX_CFG.RSP_MAX_LOG2. -/
def rspMaxLog2 (b : Mailbox) : Nat := bits b.cfg.toNat 15 19
/-- MBX_CFG.VECTOR. -/
def mbxVector (b : Mailbox) : Nat := bits b.cfg.toNat 20 30
/-- MBX_CFG.ENABLE. -/
def mbxEnabled (b : Mailbox) : Bool := b.cfg.getLsbD 31

/-- The bus address of slot `i` of a ring of 2^`log2` slots: 64 × (i mod ring slots) from its base (R31, R57). -/
def ringAddress (base : Quad) (log2 : Nat) (i : Word) : Quad := base + BitVec.ofNat 64 (64 * (i.toNat % ringSlots log2))

/-- The bus address of a ring's shadow, directly behind its last slot (R31, R57). -/
def shadowAddress (base : Quad) (log2 : Nat) : Quad := base + BitVec.ofNat 64 (64 * ringSlots log2)

/-- Where the host has put the command slot at index `i` (R31): the packets that MAILBOX_TURN carries begin at CMD_CONS. -/
def cmdAddress (b : Mailbox) (i : Word) : Quad := ringAddress b.cmdBase (cmdLog2 b) i

/-- Where the module writes the response slot at index `i` (R31). -/
def rspAddress (b : Mailbox) (i : Word) : Quad := ringAddress b.rspBase (rspLog2 b) i

/-- Slots of a response of `len` payload bytes. -/
def rspSlots (len : Nat) : Nat := packetSlots len

/-- HDR.LENGTH of a response: its payload, and 24 bytes more when it is sealed (R86). -/
def responseLength (r : Response) : Nat := r.payload.length + (if r.sealed then 24 else 0)

/-- Response ring slots already promised or used: written and unconsumed, decided and unwritten, and reserved (R37). -/
def State.rspUsed (m : Nat) (s : State) : Nat :=
  let b := s.mbx m
  (b.rspProd - b.rspCons).toNat + b.reserved +
    (s.host.done.filter fun d => d.mbx == m && d.reserved == 0 && !d.discard && d.path matches .ring | .window _).length

/-- There is room for `k` more response slots (R37). -/
def State.rspRoom (m k : Nat) (s : State) : Bool := s.rspUsed m + k ≤ ringSlots (rspLog2 (s.mbx m))

/-- The largest response packet of a mailbox, in payload bytes (Table 2-6). -/
def State.rspMax (m : Nat) (s : State) : Nat := 2 ^ rspMaxLog2 (s.mbx m) - 32

/-- The response to a header with a decided status and payload (R45): a detail status carries the error detail alone. -/
def responseFor (op : Half) (st : Status) (payload : Bytes) (streamed : Bool) (csn : Nat) : Response where
  status := st
  payload := payload
  sealed := !statusIsDetail st && opSeals op
  streamed := streamed
  logged := false
  csn := csn

/-- Account for an answer that is written: logged statuses, the answer counters and the bytes out (R49, Table 17-7). -/
def State.account (m : Nat) (h : Header) (r : Response) (reason : Nat) (s : State) : State :=
  let w := who m
  let s := s.charge w 0x10 (32 + responseLength r)
  let s := match r.status with
    | .noResources => s.charge w 0x98 1
    | .busyRetry => s.charge w 0x9C 1
    | .deadlineExceeded => s.charge w 0xA4 1
    | _ => s
  if statusIsLogged r.status then
    (s.charge w 0xA0 1).log { seq := 0, time := 0, kind := 1, status := statusCode r.status, reason := reason, tenant := w,
                              opcode := h.opcode.toNat, tag := h.tag }
  else s

/-- A tenant's configuration; one never configured is served as Head without limits (R423). -/
def State.tenantConfig (t : Nat) (s : State) : TenantConfig :=
  s.tenants.config.getD t { cls := 1, rate := 0, burst := 0, inflight := 4096, hbmQuota := 0, flashQuota := 0 }

end Sys2Proof.Machine
end

