-- ==== Sys2Proof/Machine/FabricOps.lean ====
section
/-!
DEFINITION. Sending on the fabric: the route image, ports, packets, egress queues (R399–R409, R426, R433).
-/
namespace Sys2Proof.Machine

/-- The active route image; empty before the first. -/
def State.routeImage (s : State) : Bytes := s.fabric.route.getD []

/-- IDENTIFY.NODE_ID: 0 while unassigned (R399). -/
def State.nodeId (s : State) : Nat := match s.fabric.route with | some r => field r 0xC 2 | none => 0

/-- The route entry of a node (Table 16-5). -/
def routeEntry (r : Bytes) (n : Nat) : Nat := field r (0x300 + 4 * n) 4

/-- The listed ports of an entry. -/
def routePorts (e : Nat) : List Nat := (List.range (bits e 20 21 + 1)).map fun i => bits e (5 * i) (5 * i + 4)

/-- A port. -/
def State.vievo (p : Nat) (s : State) : Port := s.fabric.ports.getD p {}

/-- Change a port. -/
def State.updVievo (p : Nat) (g : Port → Port) (s : State) : State := { s with fabric.ports := s.fabric.ports.modify p g }

/-- A port passes packets of every class (Table 16-3). -/
def portOpen (x : Port) : Bool := (x.state == .up || x.state == .degraded) && !x.idled

/-- The fabric runs: not in Winter, in power loss or held in reset (Table 16-18). -/
def State.fabricUp (s : State) : Bool := s.serving

/-- The port a flow takes: u[h mod |u|] over the listed ports that are up (R401). -/
def State.flowPort (src dst cls : Nat) (s : State) : Option Nat :=
  match s.fabric.route with
  | none => none
  | some r =>
    let e := routeEntry r dst
    let u := (routePorts e).filter fun p => portOpen (s.vievo p)
    if !bit e 22 || bit e 23 || u.isEmpty then none
    else
      let h := (crc32c (leBytes 2 src ++ leBytes 2 dst ++ leBytes 1 cls)).toNat
      u[h % u.length]?

/-- A node is fenced here, logically, by FENCE_SET or by a FENCE message (R420, R433). -/
def State.fencedNode (n : Nat) (s : State) : Bool := s.comp.fences.contains n || s.comp.told.contains n

/-- The module is fenced itself, by FENCE_SET or by a FENCE message (R433). -/
def State.selfFenced (s : State) : Bool := s.fabric.route.isSome && s.fencedNode s.nodeId

/-- A message can be sent to a node now. -/
def State.reachable (n cls : Nat) (s : State) : Bool :=
  s.fabricUp && (s.flowPort s.nodeId n cls).isSome && !(s.fencedNode n || s.selfFenced)

/-- Types that partition 0 carries (R407). -/
def baseType (t : Nat) : Bool := t == 1 || t == 2 || t == 3 || t == 0x60

/-- Cut a message into packets of at most 4,096 payload bytes (R404). -/
def messagePackets (p : FabPacket) : Nat → Nat → Bytes → List FabPacket
  | 0, _, _ => []
  | k + 1, off, b =>
    let last := decide (b.length ≤ 4096)
    { p with first := off == 0, last := last, offset := off, payload := b.take 4096 } ::
      (if last then [] else messagePackets p k (off + 4096) (b.drop 4096))

/-- The bytes of a packet (Table 16-7). -/
def packetBytes (p : FabPacket) : Bytes :=
  let head (crc : Nat) : Bytes :=
    leBytes 1 1 ++ leBytes 1 p.type ++ leBytes 1 p.cls ++ leBytes 1 p.hops ++ leBytes 2 p.dst ++ leBytes 2 p.src ++ leBytes 2 p.pkey ++
      leBytes 1 (flag p.first + 2 * flag p.last + 4 * flag p.module) ++ zeros 1 ++ leBytes 2 p.payload.length ++ leBytes 2 p.tenant ++
      leBytes 4 p.msgId ++ leBytes 4 p.offset ++ leBytes 4 p.msgLen ++ leBytes 4 crc
  head (crc32c (head 0 ++ p.payload)).toNat ++ p.payload

/-! ### Frames (R393–R395) -/

/-- The link header (Table 16-2). -/
def linkHeader (seq kind cls ack credit : Nat) : Bytes := leBytes 6 seq ++ leBytes 1 kind ++ leBytes 1 cls ++ leBytes 6 ack ++ leBytes 2 credit

/-- A sealed frame: AES-256-GCM of the packet under a direction's key, nonce FSEQ(8) ∥ salt(4), with the link header as additional data (R393). -/
def sealedFrame (key : Bytes) (seq : Nat) (header packet : Bytes) : Bytes :=
  header ++ Config.gcm (key.take 32) (leBytes 8 seq ++ key.drop 32) header packet

/-- A DISCOVERY frame: unsealed, its tag the CRC-32C of header and body and 12 zero bytes (R393). -/
def discoveryFrame (packet : Bytes) : Bytes :=
  let b := linkHeader 0 3 0 0 0 ++ packet
  b ++ leBytes 4 (crc32c b).toNat ++ zeros 12

/-- Credits that a packet of `n` bytes uses, in units of 64 bytes: those of its whole frame (R395). -/
def creditUnits (n : Nat) : Nat := (n + 95) / 64

/-- The class whose freed credits a frame returns, the lowest that has any, and LH.CREDIT (R395, Table 16-2). -/
def Port.creditBack (x : Port) : Nat × Nat :=
  let c := (x.owed.findIdx? (0 < ·)).getD 0
  (c, c + 8 * min (x.owed.getD c 0) 8191)

/-- Send a sealed frame: the next FSEQ, LH.ACK what has been received in order, LH.CREDIT what has been freed; the replay buffer keeps it, and a packet
uses credits of its class (R393–R395) and of class 0's share (R410). -/
def Port.sendFrame (now kind cls : Nat) (packet : Bytes) (x : Port) : Port :=
  let q := x.txSeq + 1
  let c := x.creditBack
  let b := sealedFrame x.txKey q (linkHeader q kind cls x.rxSeq c.2) packet
  { x with
    txSeq := q, ackSent := x.rxSeq, owed := x.owed.set c.1 (x.owed.getD c.1 0 - c.2 / 8)
    replay := x.replay.put q { kind := kind, bytes := b }, ackSince := if x.replay.isEmpty then now else x.ackSince
    credits := if kind = 1 then x.credits.set cls (x.credits.getD cls 0 - creditUnits packet.length) else x.credits
    class0 := if kind = 1 ∧ cls = 0 then (now, packet.length + 32) :: x.class0 else x.class0 }

/-- Put on the link the frames a port has made since its FSEQ was `from_`, from its replay buffer. -/
def State.emitFrames (port from_ : Nat) (s : State) : State :=
  let x := s.vievo port
  (List.range (x.txSeq - from_)).foldl (fun s i =>
    let q := from_ + 1 + i
    let f := (x.replay.find q).getD { kind := 0, bytes := [] }
    s.emit (.frame port q f.kind false f.bytes)) s

/-- Send a frame of a port now. -/
def State.sendFrame (port kind cls : Nat) (packet : Bytes) (s : State) : State :=
  (s.updVievo port fun x => x.sendFrame s.clock kind cls packet).emitFrames port (s.vievo port).txSeq

/-- Two packets belong to one flow (R401). -/
def sameFlow (p q : FabPacket) : Bool := p.src == q.src && p.dst == q.dst && p.cls == q.cls

/-- Another port that passes packets still has packets of this flow queued (R402). -/
def State.flowElsewhere (port : Nat) (p : FabPacket) (s : State) : Bool :=
  s.fabric.ports.zipIdx.any fun (x, i) => i != port && portOpen x && (x.queues.getD p.cls []).any fun q => sameFlow p q.packet

/-- Put a packet at the end of an egress queue; a flow that has changed port waits until its packets have left the old one (R402). -/
def State.enqueue (port : Nat) (p : FabPacket) (s : State) : State :=
  if s.fabric.held.any (sameFlow p) || s.flowElsewhere port p then { s with fabric.held := s.fabric.held ++ [p] }
  else s.updVievo port fun x => { x with queues := x.queues.put p.cls (x.queues.getD p.cls [] ++ [{ packet := p, since := s.clock }]) }

/-- The class of a tenant's commands (R408). -/
def State.fabClass (t : Nat) (s : State) : Nat := match (s.tenantConfig t).cls with | 0 => 2 | 2 => 1 | _ => 3

/-- The frame bytes of a packet. -/
def frameBytes (p : FabPacket) : Nat := 32 + p.payload.length + 32

/-- What a log peer sends for its sources goes on under a self-fence (R433): CONFIRM, FETCH_DATA and FETCH_END. -/
def peerReply (type : Nat) (body : Bytes) : Bool := type == 0x20 && [2, 5, 6].contains (field body 0 1)

/-- What a message of `n` bytes costs its tenant (Table 17-7): packets and frame bytes. -/
def sendCost (n : Nat) : Tab Nat := [(0x18, n / 4096 + flag (n == 0 || n % 4096 != 0)), (0x20, n + 64 * (n / 4096 + flag (n == 0 || n % 4096 != 0)))]

/-- Charge a tenant what a table of amounts says (R444). -/
def State.chargeAll (t : Nat) (l : Tab Nat) (s : State) : State := l.foldl (fun s c => s.charge t c.1 c.2) s

/-- Send a message (R404): numbered in its flow, cut into packets, queued at its port. One for this module itself, whose route entry is LOCAL, needs no
port. Where the node cannot be reached it is not delivered, and the answer says so. -/
def State.send (dst type cls tenant : Nat) (module : Bool) (body : Bytes) (s : State) : State × Bool :=
  let base := baseType type
  if !(s.fabricUp && (base || !(s.fencedNode dst || (s.selfFenced && !peerReply type body)))) then (s, false)
  else if s.fabric.route.isSome && dst == s.nodeId then
    ({ s with fabric.inbox := s.fabric.inbox ++ [{ type := type, cls := cls, src := dst, tenant := tenant, port := 0, body := body }] }, true)
  else match s.flowPort s.nodeId dst cls with
    | none => (s, false)
    | some port =>
      let k := dst * 8 + cls
      let id := s.fabric.nextMsg.getD k 0
      let p : FabPacket := {
        type := type, cls := cls, hops := 16, dst := dst, src := s.nodeId, pkey := if base then 0 else s.comp.partition
        first := true, last := false, module := module, tenant := if module then 0 else tenant, msgId := id, offset := 0
        msgLen := body.length, payload := [] }
      let ps := messagePackets p (body.length / 4096 + 1) 0 body
      let s := { s with fabric.nextMsg := s.fabric.nextMsg.put k ((id + 1) % 2 ^ 32), fabric.sent := (id, dst, type, body) :: s.fabric.sent }
      let s := ps.foldl (fun s p => s.enqueue port p) (s.emit (.message dst type cls body))
      (s.chargeAll (if module then moduleKey else tenant) (sendCost body.length), true)

/-- Send, whatever becomes of it. -/
def State.post (dst type cls tenant : Nat) (module : Bool) (body : Bytes) (s : State) : State :=
  (s.send dst type cls tenant module body).1

/-- Send what the tenant is not charged for, or not yet: hedges, what answers them, and cancels (R225, R228). -/
def State.sendFree (dst type cls tenant : Nat) (body : Bytes) (s : State) : State × Bool :=
  let r := s.send dst type cls tenant false body
  ({ r.1 with tenants.meters := s.tenants.meters }, r.2)

/-- A log message (Table 17-4). -/
def logMessage (kind collection csn source : Nat) (record : Bytes) : Bytes :=
  leBytes 1 kind ++ zeros 3 ++ leBytes 4 collection ++ leBytes 8 csn ++ leBytes 2 source ++ zeros 2 ++ leBytes 4 record.length ++ record

/-- The nodes that hold this module's log records: the peers in force, and a new set that has yet to hold every record (R426). -/
def State.logPeers (s : State) : List Nat :=
  s.comp.peers ++ (s.comp.newPeers.getD []).filter fun n => !s.comp.peers.contains n

/-- Log peers that can be reached (R24): a port passes the flow, the last log message was not reported UNREACHABLE, and no composition has declared them
lost. -/
def State.livePeers (s : State) : List Nat :=
  s.comp.peers.filter fun n => s.reachable n 4 && !s.comp.unreached.contains n && !s.comp.compositions.vals.any fun k => k.lost.contains n

/-- The oldest delivered message of a type whose first body byte is one of `kinds` (any, where `kinds` is empty), taken from the inbox. -/
def State.takeMessage (type : Nat) (kinds : List Nat) (s : State) : Option (Inbound × State) :=
  match s.fabric.inbox.find? (fun x => x.type == type && (kinds.isEmpty || kinds.contains (field x.body 0 1))) with
  | some x => some (x, { s with fabric.inbox := s.fabric.inbox.erase x })
  | none => none

/-- A fabric partner protocol violation on a port: counted in FS.PV and the port's PV, and logged (R406, R217). -/
def State.partnerViolation (port src : Nat) (s : State) : State :=
  let s := { s with fabric.pv := min (s.fabric.pv + 1) 0xFFFFFFFF }
  let s := s.updVievo port fun x => { x with
    pv := min (x.pv + 1) 0xFFFFFFFF
    violations := s.clock :: x.violations.filter fun t => s.clock < t + 1000000000 }
  s.logKind 3 src

/-- Handle a message whose layout must hold (R406): a body that breaks it is a partner violation, and goes no further. -/
def State.wellFormed (x : Inbound) (ok : Bool) (k : State → State) (s : State) : State :=
  if ok then k s else s.partnerViolation x.port x.src

/-- Step 11 of Table 2-13 for a command that uses a composition, 0 meaning none (R48, R433). -/
def State.unfenced (composition : Nat) (s : State) : Except Detail Unit :=
  need (composition == 0 || !(s.selfFenced || (s.comp.compositions.find composition).any (·.fenced))) fencedDetail

end Sys2Proof.Machine
end

