-- ==== Sys2Proof/Machine/Selection.lean ====
section
/-!
DEFINITION. Selection: score keys, the order of entries, duplicates, a crew's selection stage, entries and partial lists (R198–R209).
-/
namespace Sys2Proof.Machine

/-- The score key of an FP32 word (R198). -/
def scoreKey (x : Word) : Nat :=
  let x := if x = 0x80000000#32 then 0#32 else x
  if x.getLsbD 31 then (~~~x).toNat else (x ^^^ 0x80000000#32).toNat

/-- A key of the NaN ranges of Table 7-1. -/
def nanKey (k : Nat) : Bool := decide (k ≤ 0x007FFFFE) || decide (0xFF800001 ≤ k)

/-- better(a, b) (R201). -/
def better (a b : Entry) : Bool := decide (b.key < a.key) || (a.key == b.key && decide (a.id < b.id))

/-- Of two entries of one ID, `a` survives `b` (R202); equal ones keep the one held. -/
def survives (a b : Entry) : Bool :=
  if a.key ≠ b.key then decide (b.key < a.key)
  else if a.node ≠ b.node then decide (a.node < b.node)
  else if a.ins ≠ b.ins then decide (b.ins < a.ins)
  else decide (b.flags ≤ a.flags)

/-- Put an entry in its place in a sorted list. -/
def insertEntry (e : Entry) : List Entry → List Entry
  | [] => [e]
  | x :: t => if better x e then x :: insertEntry e t else e :: x :: t

/-- Offer an entry to a sorted list of at most `n` (R202, R203): the list, and whether a duplicate was removed. -/
def offerTo (n : Nat) (l : List Entry) (e : Entry) : List Entry × Bool :=
  match l.find? (·.id == e.id) with
  | some h => if survives h e then (l, true) else ((insertEntry e (l.filter (·.id != e.id))).take n, true)
  | none => ((insertEntry e l).take n, false)

/-- Offer entries one after another; the duplicates removed are counted. -/
def offerAll (n : Nat) : List Entry → List Entry × Nat → List Entry × Nat
  | [], r => r
  | e :: t, r => let o := offerTo n r.1 e; offerAll n t (o.1, r.2 + flag o.2)

/-- The list of every ID's surviving entry, sorted. -/
def reduceAll (l : List Entry) : List Entry := (offerAll l.length l ([], 0)).1

/-! ### A selection stage (Table 7-2, R203–R205) -/

/-- The stage works in gated mode. -/
def Stage.gated (g : Stage) : Bool := decide (256 < g.n)

/-- Compact the full buffer: merge it, truncate, raise t (R205). -/
def Stage.compact (g : Stage) : Stage :=
  let r := offerAll g.n g.full (g.list, g.dups)
  { g with list := r.1, full := [], dups := r.2
           t := if r.1.length = g.n then max g.t ((r.1.getLastD { id := 0, key := 0 }).key) else g.t }

/-- A full filling buffer takes the place of an empty full buffer. -/
def Stage.swap (g : Stage) : Stage :=
  if 4096 ≤ g.filling.length && g.full.isEmpty then { g with full := g.filling.take 4096, filling := g.filling.drop 4096 } else g

/-- Entries a stage can take now: all in direct mode; in gated mode what its two buffers have room for (R205). -/
def Stage.room (g : Stage) : Nat := if g.gated then 8192 - g.filling.length - g.full.length else 2 ^ 64

/-- Offer entries: to the selection unit in direct mode, through the gate in gated mode (R203, R204). -/
def Stage.offer (g : Stage) (l : List Entry) : Stage :=
  if g.gated then ({ g with filling := g.filling ++ l.filter fun e => decide (g.t ≤ e.key) } : Stage).swap
  else let r := offerAll g.n l (g.list, g.dups); { g with list := r.1, dups := r.2 }

/-- The last offer has come: what the buffers hold is compacted (R205). -/
def Stage.close (g : Stage) : Stage := (({ g.compact with full := g.filling, filling := [] } : Stage)).compact

/-- Offer entries one buffer at a time, compacting as the buffers fill. -/
def Stage.drain : Nat → List Entry → Stage → Stage
  | 0, _, g => g.close
  | n + 1, l, g => if l.isEmpty then g.close else Stage.drain n (l.drop 4096) ((g.offer (l.take 4096)).compact)

/-- The best `n` of entries, through a stage of that depth. -/
def runStage (n : Nat) (l : List Entry) : Stage := Stage.drain (l.length / 4096 + 1) l { n := n }

/-! ### Entries and partial lists (Tables 5-5, 7-4) -/

/-- The sentinel ID of padding. -/
def padId : Nat := 2 ^ 64 - 1

/-- The bytes of an entry: 16, and its optional fields. -/
def entryOf (e : Entry) : Bytes := leBytes 8 e.id ++ leBytes 4 e.key ++ leBytes 2 e.node ++ leBytes 2 e.flags ++ e.extra

/-- Read an entry of `n` bytes. -/
def readEntry (n : Nat) (b : Bytes) : Entry :=
  { id := field b 0 8, key := field b 8 4, node := field b 12 2, flags := field b 14 2, extra := slice b 16 (n - 16) }

/-- A padding entry. -/
def padEntry : Bytes := List.replicate 8 0xFF ++ zeros 8

/-- Read a search result's payload (Table 5-4): its entries. -/
def resEntries (b : Bytes) : List Entry := (records (field b 4 2) (field b 0 4) (b.drop 48)).map (readEntry (field b 4 2))

/-- The lowest `n` of shard numbers, ascending. -/
def lowestShards (n : Nat) (l : List Nat) : List Nat := (sortBy l fun a b => decide (a ≤ b)).take n

/-- Merge a list into a fabric-wide search's (R202, R215). -/
def FabricRun.mergeEntries (g : FabricRun) (l : List Entry) : FabricRun := { g with list := (offerAll g.k l (g.list, 0)).1 }

/-- Count shards missing (R217). -/
def FabricRun.miss (g : FabricRun) (n : Nat) (l : List Nat) : FabricRun :=
  { g with missing := lowestShards 1024 (g.missing ++ l), missingCount := g.missingCount + n }

/-- Every list that the merge waits for is in, or missing. -/
def FabricRun.complete (g : FabricRun) : Bool := g.own && g.shards.all fun x => x.merged || x.missing

/-- The partial list a member sends (Table 7-4). -/
def partialList (node : Nat) (g : FabricRun) : Bytes :=
  leBytes 4 g.list.length ++ leBytes 2 g.k ++ leBytes 2 g.entryBytes ++ leBytes 2 node ++ leBytes 2 g.covered ++
    leBytes 2 (min g.missingCount 65535) ++ leBytes 2 g.missing.length ++ leBytes 8 (if g.covered = 1 then g.csn else 0) ++
    leBytes 8 g.items ++ leBytes 4 g.lists ++ leBytes 4 g.nans ++ leBytes 4 g.stale ++
    leBytes 2 (flag (decide (g.list.length < g.k)) + 2 * flag g.reranked) ++ zeros 2 ++ g.list.flatMap entryOf ++ g.missing.flatMap (leBytes 4)

end Sys2Proof.Machine
end

