-- ==== Sys2Proof/Machine/Answer.lean ====
section
/-!
DEFINITION. How a command gives its result and ends: stream records, the response in line for writing, the items of a batch, the merge of a
fabric-wide search; and how its own row begins (R35, R37, R44–R48, R59, R60, R143–R145, R214–R218).
-/
namespace Sys2Proof.Machine

/-- Change an open stream. -/
def State.updStream (st : Nat) (g : Stream → Stream) (s : State) : State :=
  { s with host.streams := s.host.streams.upd st g }

/-- The largest record payload of a stream as carried: the smaller of 1 MiB and half the ring, less 32 bytes (Table 2-21). -/
def recordMax (x : Stream) : Nat := min 1048576 (2 ^ x.slotsLog2 * 32) - 32

/-- Cut a result into record payloads of at most `n` bytes before sealing; at least one record. -/
def cutRecords (n : Nat) : Nat → Bytes → List Bytes
  | 0, b => [b]
  | k + 1, b => if b.length ≤ n then [b] else b.take n :: cutRecords n k (b.drop n)

/-- Pack whole entries into records of at most `n` bytes. -/
def packEntries (n : Nat) (l : List Bytes) : List Bytes :=
  match l.foldl (fun acc e =>
      match acc with
      | [] => [e]
      | r :: t => if r.length + e.length ≤ n then (r ++ e) :: t else e :: r :: t) ([] : List Bytes) with
  | [] => [[]]
  | r => r.reverse

/-- Whole entries that fit in `n` bytes, and whether all do. -/
def fitEntries : Nat → List Bytes → List Bytes × Bool
  | _, [] => ([], true)
  | n, e :: t => if e.length ≤ n then ((e :: (fitEntries (n - e.length) t).1), (fitEntries (n - e.length) t).2) else ([], false)

/-- The payload bytes a response of this mailbox can carry sealed (Table 2-6, R86); what a batch item or a sub-query gives is not a response. -/
def State.rspPlain (m : Nat) (s : State) : Nat := if m < 2 ^ 20 then s.rspMax m - 24 else 2 ^ 40

/-- Put a decided response in line for writing (R38). -/
def State.putDone (m : Nat) (h : Header) (path : Path) (reserved : Nat) (admitted discard : Bool) (st : Status)
    (payload : Bytes) (reason csn : Nat) (streamed : Bool) (s : State) : State :=
  let d : Done := {
    mbx := m, hdr := h, path := path, reserved := reserved, response := responseFor h.opcode st payload streamed csn, reason := reason
    admitted := admitted, discard := discard, since := s.clock }
  { s with host.done := s.host.done ++ [d] }

/-- The code of an image kind in a command's bindings. -/
def imageCode : ImageKind → Nat
  | .model => 0 | .vocab => 1 | .grammar => 2

/-- A retired generation that no command, collection or tokenize context is bound to any more leaves HBM and flash (R282, R291, R306). -/
def State.reapGens (s : State) : State :=
  let bound (g : Generation) : Bool :=
    s.host.flights.any (fun f => f.binds.contains (imageCode g.kind, g.handle, g.gen)) ||
      (g.kind == .vocab && s.models.contexts.any fun c => c.vocab == g.handle && c.gen == g.gen)
  { s with models.gens := s.models.gens.filter fun g => !g.retired || bound g }

/-- Add to a counter of an NBU (Table 6-8), saturating. -/
def nbuCount (off n : Nat) (x : Nbu) : Nbu := { x with ctr := x.ctr.put off (min (2 ^ 64 - 1) (x.ctr.getD off 0 + n)) }

/-- Bytes that squashed scan jobs have read, by NBU, go to the speculation account (R228). -/
def State.squashBytes (t : Nat) (bytes : Tab Nat) (s : State) : State :=
  let s := bytes.foldl (fun (s : State) x => { s with index.nbus := s.index.nbus.put x.1 (nbuCount 0x28 x.2 (s.index.nbus.getD x.1 {})) }) s
  if bytes.isEmpty then s else s.chargeSpec t 0x10 bytes.vals.sum

/-- Squash the scan jobs of a command that `p` names (R181, R225, R228): they leave their NBUs, and what they read goes to the speculation
account. -/
def State.squashJobs (t m : Nat) (tag : Word) (p : ScanJob → Bool) (s : State) : State :=
  let hit (j : ScanJob) : Bool := j.mbx == m && j.tag == tag && p j
  let gone := s.index.nbus.vals.flatMap fun x => x.jobs.filter hit
  if gone.isEmpty then s
  else
    let nbus := s.index.nbus.each fun (x : Nbu) =>
      nbuCount 0x28 ((x.jobs.filter hit).map (·.bytes)).sum { x with jobs := x.jobs.filter fun j => !hit j }
    let s := { s with index.nbus := nbus }
    let s := s.chargeSpec t 0x08 (gone.filter (·.speculative)).length
    s.chargeSpec t 0x10 (gone.map (·.bytes)).sum

/-- The mailbox key of item `i` of a batch on mailbox `m`. -/
def itemKey (m i : Nat) : Nat := 2 ^ 20 + m * 256 + i

/-- A mailbox key and tag are those of an item of a batch. -/
def itemOf (f : Flight) (m : Nat) (tag : Word) : Bool := f.mbx < 2 ^ 20 && m / 256 == (2 ^ 20 + f.mbx * 256) / 256 && tag == f.tag

/-- A command in flight is an item of a batch. -/
def isItemOf (f g : Flight) : Bool := itemOf f g.mbx g.tag

/-- KV reservations end: their frames and the unused part return to the pool, and no ATU keeps a translation of theirs (R296, R297). -/
def Models.freeKv (mine : Nat → Word → Bool) (x : Models) : Models :=
  let gone := (x.kv.filter fun k => mine k.mbx k.tag).flatMap (·.sequences)
  { x with
    kv := x.kv.filter fun k => !mine k.mbx k.tag
    stale := x.stale ++ gone.flatMap fun q => q.entries.map (·.2.frame)
    atus := x.atus.map fun l => l.filter fun t => !gone.any (·.id == t.sequence) }

/-- A command ends: it leaves the commands in flight with the items of a batch, its scan jobs are squashed (R181), its crew disbands (R244), its
KV pages return to the pool (R297), and retired generations it was the last to hold are freed. -/
def State.endFlight (f : Flight) (s : State) : State :=
  let mine (m : Nat) (tag : Word) : Bool := (m == f.mbx && tag == f.tag) || itemOf f m tag
  let s := (s.host.flights.filter fun g => mine g.mbx g.tag).foldl (fun s g => s.squashJobs f.tenant g.mbx g.tag fun _ => true) s
  ({ s with
    host.flights := s.host.flights.filter fun g => !mine g.mbx g.tag
    tiles.crews := s.tiles.crews.filter fun c => !mine c.mbx c.tag
    tiles.queue := s.tiles.queue.filter fun c => !mine c.mbx c.tag
    models := s.models.freeKv mine } : State).reapGens

/-- End a command that has not completed: its unwritten records go, a zero-length ABORTED record waits for room, and its
response does not wait for it (R60). -/
def State.abortStreams (f : Flight) (s : State) : State :=
  let st : Option Nat := match f.work with
    | .streaming st _ _ => some st
    | .generate r => r.stream
    | _ => none
  match st with
  | some st =>
    s.updStream st fun x =>
      { x with waiting := (x.waiting.filter fun r => !(r.mbx == f.mbx && r.tag == f.tag)) ++
          [{ tag := f.tag, mbx := f.mbx, tenant := f.hdr.tenant, opcode := f.hdr.opcode, session := f.hdr.session,
             csn := f.bound.getD 0, payload := [], last := false, aborted := true, since := s.clock }] }
  | none => s

/-- The result header of a search (Table 5-4). -/
def resHeader (count entry flags csn map lists items nans stale missing listed : Nat) : Bytes :=
  leBytes 4 count ++ leBytes 2 entry ++ leBytes 2 flags ++ leBytes 8 csn ++ leBytes 4 map ++ leBytes 4 lists ++ leBytes 8 items ++
    leBytes 4 nans ++ leBytes 4 stale ++ leBytes 2 (min missing 65535) ++ leBytes 2 listed ++ zeros 4

/-- RES.ENTRY_BYTES of a query (Table 5-4), for EXT_BYTES of its collection. -/
def entryBytesOf (ext : Nat) (plain : Bytes) : Nat :=
  let r := field plain 0x16 2
  16 + (if bit r 0 then 8 else 0) + (if bit r 1 then ext else 0)

/-- The response head of GENERATE (Table 11-9). -/
def genHead (r : GenRun) (textBytes : Nat) : Bytes :=
  leBytes 4 r.out.length ++ leBytes 4 r.prompt.length ++ leBytes 4 (r.nans + r.nanRows) ++ leBytes 4 textBytes

/-- What a command that ends without its result answers with (R143, R163, R302): a search the result header with COUNT 0, a GENERATE its
head, everything else nothing. -/
def endPayload (ext : Nat) (f : Flight) : Bytes :=
  let op := f.opcode.toNat
  match f.work with
  | .reads _ h => h.failed
  | .generate r => genHead r 0
  | .streaming _ _ payload => (f.failed.orElse fun _ => payload).getD []
  | .search r => resHeader 0 (entryBytesOf ext r.plain) 0 r.csn r.mapVersion r.lists r.items r.nans r.stale 0 0
  | .fabric _ => resHeader 0 (entryBytesOf ext f.plain) 1 0 0 0 0 0 0 0 0
  | _ =>
    if op == 0x3001 || op == 0x3002 then
      let fabric := bit (field f.plain 6 2) 0 && decide (f.mbx < 2 ^ 40)
      resHeader 0 (entryBytesOf ext f.plain) (flag fabric) (if fabric then 0 else f.bound.getD 0) (if fabric then 0 else f.mapBound) 0 0 0 0 0 0
    else if op == 0x4012 then zeros 16
    else []

/-- Answer a command whose response is decided at once. -/
def State.answerNow (f : Flight) (st : Status) (payload : Bytes) (s : State) : State :=
  (s.endFlight f).putDone f.mbx f.hdr f.path f.reserved true f.discard st payload 0 0 false

/-- Queue the records of a command's result on its stream; its response follows its LAST record (R59); the result for a stream that a
reset of the endpoint has freed goes nowhere (R475). -/
def State.streamOut (f : Flight) (st : Nat) (status : Status) (parts : List Bytes) (s : State)
    (payload : Option Bytes := none) (failed : Option Bytes := none) : State :=
  let recs := parts.mapIdx fun i p =>
    ({ tag := f.tag, mbx := f.mbx, tenant := f.hdr.tenant, opcode := f.hdr.opcode, session := f.hdr.session,
       csn := ((s.flight f.mbx f.tag).elim f.bound (·.bound)).getD 0, payload := p, last := decide (i + 1 = parts.length)
       aborted := false, since := s.clock } : PendingRecord)
  if (s.host.streams.find st).isNone then s.answerNow f status (payload.getD (leBytes 4 parts.length))
  else
  let s := s.updStream st fun x =>
    { x with waiting := x.waiting ++ recs }
  (s.setWork f (.streaming st status payload)).updFlight f.mbx f.tag fun g => { g with failed := failed }

/-! ### The items of a batch (R145) -/

/-- STATUS, RSV and BYTES of an item, with its payload. -/
def itemBlock (st : Status) (p : Bytes) : Bytes := leBytes 1 (statusCode st) ++ zeros 3 ++ leBytes 4 p.length ++ p

/-- The records an item's result makes on a stream: its head and result header first, then whole entries, and the shard list last (R144, R145). -/
def itemRecords (n : Nat) (st : Status) (p : Bytes) : List Bytes :=
  let es := records (field p 4 2) (field p 0 4) (p.drop 48)
  let shards := p.drop (48 + field p 4 2 * field p 0 4)
  if es.isEmpty then [itemBlock st p] else (itemBlock st p).take 56 :: packEntries n es ++ (if shards.isEmpty then [] else [shards])

/-- Every item has its result: the batch answers DONE, DONE_TRUNCATED with the items that fit whole, or through its stream (R145). -/
def State.answerBatch (f : Flight) (results : List (Status × Bytes)) (str : Option Nat) (s : State) : State :=
  match str with
  | some n =>
    let max_ := match s.host.streams.find n with | some x => recordMax x - 24 | none => 0
    s.streamOut f n .done (results.flatMap fun r => itemRecords max_ r.1 r.2)
  | none =>
    let fit := fitEntries (s.rspPlain f.mbx) (results.map fun r => itemBlock r.1 r.2)
    s.answerNow f (if fit.2 then .done else .doneTruncated) fit.1.flatten

/-- BATCH.STREAM, where the results of a batch go to a stream (R145). -/
def batchStream (f : Flight) : Option Nat := if hdrStream f.hdr then some (field f.plain 2 2) else none

/-- An item has ended, also while its batch still waits for a crew: its result takes its place, and the batch answers with its last one. -/
def State.itemDone (m : Nat) (tag : Word) (st : Status) (payload : Bytes) (s : State) : State :=
  match s.flight ((m - 2 ^ 20) / 256) tag with
  | some f =>
    let rs := f.results.set (m % 256) (some (st, payload))
    let s := s.updFlight f.mbx f.tag fun g => { g with results := rs }
    match rs.mapM id with
    | some all =>
      if rs.isEmpty then s
      else ({ s with tiles.queue := s.tiles.queue.filter fun x => !(x.mbx == f.mbx && x.tag == f.tag) } : State).answerBatch f all (batchStream f)
    | none => s
  | none => s

/-! ### The merge of a fabric-wide search (R214–R218) -/

/-- The mailbox key of a sub-query that is served. -/
def servedKey (id shard : Nat) : Nat := 2 ^ 40 + id * 65536 + shard

/-- The entry of a served sub-query. -/
def State.servedBy (m : Nat) (s : State) : Option Served := s.comp.served.find? fun x => servedKey x.id x.shard == m

/-- Change a served sub-query. -/
def State.updServed (id shard : Nat) (g : Served → Served) (s : State) : State :=
  { s with comp.served := s.comp.served.map fun x => if x.id == id && x.shard == shard then g x else x }

/-- A served sub-query is over. -/
def State.dropServed (x : Served) (s : State) : State :=
  { s with comp.served := s.comp.served.filter fun y => !(y.id == x.id && y.shard == x.shard) }

/-- Keep for a second what answered work of another module was charged (R228). -/
def State.noteAnswered (id shard src tenant : Nat) (charges bytes : Tab Nat) (s : State) : State :=
  let recent := s.comp.answered.filter fun x => s.clock < x.at_ + 1000000000
  let mine (x : Answered) : Bool := x.id == id && x.shard == shard && x.from_ == src
  { s with comp.answered :=
      if recent.any mine then recent.map fun x => if mine x then { x with charges := x.charges ++ charges, bytes := x.bytes ++ bytes } else x
      else { id := id, shard := shard, from_ := src, tenant := tenant, charges := charges, bytes := bytes, at_ := s.clock } :: recent }

/-- Send the list of a served sub-query to the module that asked: one of a hedge that serves nothing is charged to no one (R228, R233). -/
def State.sendList (x : Served) (s : State) : State :=
  let b := leBytes 8 x.id ++ partialList s.nodeId x.run
  if x.hedge && x.run.covered = 0 then (s.sendFree x.from_ 0x12 (s.fabClass x.tenant) x.tenant b).1
  else (s.post x.from_ 0x12 (s.fabClass x.tenant) x.tenant false b).noteAnswered x.id x.shard x.from_ x.tenant (sendCost b.length) []

/-- Answer the fabric-wide search that a merge belongs to (R143, R144, R218). -/
def State.answerFabric (f : Flight) (g : FabricRun) (s : State) : State :=
  let st : Status := if g.missingCount ≠ 0 then .donePartialCoverage else if g.k ≤ g.list.length then .done else .doneUnderfull
  let shards := g.missing.flatMap (leBytes 4)
  let head (n : Nat) : Bytes := resHeader n g.entryBytes (1 + 2 * flag g.reranked) 0 0 g.lists g.items g.nans g.stale g.missingCount g.missing.length
  let failed := resHeader 0 g.entryBytes (1 + 2 * flag g.reranked) 0 0 g.lists g.items g.nans g.stale 0 0
  let entries := g.list.map entryOf
  if hdrStream f.hdr then
    let n := field f.plain 0x14 2
    let max_ := match s.host.streams.find n with | some x => recordMax x - 24 | none => 0
    s.streamOut f n st (head g.list.length :: (if entries.isEmpty then [] else packEntries max_ entries) ++ (if shards.isEmpty then [] else [shards]))
      (failed := some failed)
  else
    let fit := fitEntries (s.rspPlain f.mbx - 48 - shards.length) entries
    let st := if fit.2 then st else .doneTruncated
    let p := head fit.1.length ++ fit.1.flatten ++ shards
    if f.mbx < 2 ^ 20 then s.answerNow f st p else (s.endFlight f).itemDone f.mbx f.tag st p

/-- A merge that is complete gives its result: the root's answers the command, a member's goes to its parent (R214). -/
def State.settleMerge (id shard : Nat) (s : State) : State :=
  match s.comp.served.find? fun x => x.id == id && x.shard == shard with
  | none => s
  | some x =>
    if !x.run.complete then s
    else match x.root with
      | some (m, tag) => match (s.dropServed x).flight m tag with
        | some f => (s.dropServed x).answerFabric f x.run
        | none => s.dropServed x
      | none => (s.dropServed x).sendList x

/-- The own shard of a merge has ended: its list is merged, or the shard is missing. -/
def State.ownDone (m : Nat) (st : Status) (payload : Bytes) (s : State) : State :=
  match s.servedBy m with
  | none => s
  | some x =>
    let ok := st == .done || st == .doneUnderfull
    let g := { x.run with own := true }
    let g := if ok then
        { g.mergeEntries (resEntries payload) with
          covered := g.covered + 1, csn := field payload 8 8, lists := g.lists + field payload 0x14 4, items := g.items + field payload 0x18 8
          nans := g.nans + field payload 0x20 4, stale := g.stale + field payload 0x24 4 }
      else g.miss 1 [x.shard]
    (s.updServed x.id x.shard fun x => { x with run := g }).settleMerge x.id x.shard

/-- A command, a batch item or a served sub-query has its result. -/
def State.finish (m : Nat) (h : Header) (path : Path) (reserved : Nat) (admitted discard : Bool) (st : Status)
    (payload : Bytes) (reason csn : Nat) (streamed : Bool) (s : State) : State :=
  if m < 2 ^ 20 then s.putDone m h path reserved admitted discard st payload reason csn streamed
  else if m < 2 ^ 40 then s.itemDone m h.tag st payload
  else s.ownDone m st payload

/-- Answer a command in flight: its response is decided, and it waits to be written. -/
def State.answer (f : Flight) (st : Status) (payload : Bytes) (csn : Nat := 0) (streamed : Bool := false) (s : State) :
    State :=
  let s := s.endFlight f
  s.finish f.mbx f.hdr f.path f.reserved true f.discard st payload 0 csn streamed

/-- Answer a command in flight with an error detail. -/
def State.answerDetail (f : Flight) (d : Detail) (s : State) : State :=
  let s := s.endFlight f
  s.finish f.mbx f.hdr f.path f.reserved true f.discard d.status (detailBytes d) (reasonCodeOr0 d.reason) 0 false

/-- EXT_BYTES of the collection a command is bound to, or names first. -/
def State.extBytesOf (f : Flight) (s : State) : Nat :=
  (s.index.collections.find (f.coll.getD (field f.plain 0 4))).elim 0 (·.desc.extBytes)

/-- End a command whose data was lost: it answers DATA_DAMAGED with the empty result of its kind, and a stream it was writing is
aborted (R60, R143). -/
def State.dataLost (f : Flight) (s : State) : State :=
  (s.abortStreams f).answer f .dataDamaged (endPayload (s.extBytesOf f) f)

/-- The event of a decided answer has been logged already, as another entry (R45, R49). -/
def State.markLogged (f : Flight) (s : State) : State :=
  { s with host.done := s.host.done.map fun d =>
    if d.mbx == f.mbx && d.hdr.tag == f.hdr.tag && d.admitted then { d with response := { d.response with logged := true } } else d }

/-- Answer a packet that was never admitted. -/
def State.reject (m : Nat) (h : Header) (path : Path) (d : Detail) (s : State) : State :=
  s.finish m h path 0 false false d.status (detailBytes d) (reasonCodeOr0 d.reason) 0 false

/-- An opcode of an insert, an upsert or a delete (R35). -/
def isOpCode (op : Half) : Bool := 0x2010 ≤ op.toNat && op.toNat ≤ 0x2015

/-- No earlier command of the same mailbox and path still waits for its own row: commands are admitted in ring order,
and window packets among themselves in window order; inserts, upserts and deletes of a mailbox take their turn in admission order whatever their
path (R35, R64). -/
def State.isNext (f : Flight) (s : State) : Bool :=
  match s.host.flights.find? (fun g => g.mbx == f.mbx && (g.path == f.path || (isOpCode g.opcode && isOpCode f.opcode)) &&
      (match g.work with | .admitted | .csnWait _ _ => true | _ => false)) with
  | some g => g.tag == f.tag
  | none => false

/-- Run a command's own part (steps 12 to 14 of Table 2-13 and its effect) when the command of that opcode is in flight,
admitted, and its turn has come. Anything else leaves the state as it is. -/
def State.start (op : Nat) (m : Mbx) (tag : Word) (body : Flight → State → Except Detail State) (s : State) : State :=
  match s.flight m.key tag with
  | none => s
  | some f =>
    if f.opcode.toNat == op && f.work == .admitted && s.isNext f && s.serving then
      match body f s with
      | .ok t => t
      | .error d => s.answerDetail f d
    else s

/-- Step 12 of Table 2-13, lengths first (R46, R48): the plaintext length within its bounds, then HDR.CSN 0 (R44). -/
def lengthBounds (f : Flight) (lo hi : Nat) : Except Detail Unit :=
  let excess := f.hdr.length.toNat - f.plain.length
  if f.plain.length < lo then .error (bad 0x0C)
  else if f.plain.length > hi then .error { status := .lengthExceeds, offset := 0x0C, limit := hi + excess }
  else .ok ()

/-- HDR.CSN must be 0 (R44). -/
def csnZero (f : Flight) : Except Detail Unit := need (f.hdr.csn == 0) (bad 0x18)

/-- The usual opening of step 12: length bounds, and HDR.CSN 0. -/
def opening (f : Flight) (lo hi : Nat) : Except Detail Unit := do
  lengthBounds f lo hi
  csnZero f

end Sys2Proof.Machine
end

