-- ==== Sys2Proof/Machine/Bar.lean ====
section
/-!
DEFINITION. The BAR0 control window: what each register reads, what a write does, and the rows of register writes
(spec/02_mailboxes.md, R27–R32, R37, R38, R40, R60, R66, R68).
-/
namespace Sys2Proof.Machine

/-- A BAR0 register, by its place in Table 2-1; mailbox 4,096 is the management mailbox. -/
inductive BarReg where
  | devId | devState | glbErr | glbPv | fabricTime
  | haltMap (i : Nat)
  | cmdBase (m : Nat) | rspBase (m : Nat) | mbxCfg (m : Nat) | mbxStatus (m : Nat) | cmdCons (m : Nat) | rspProd (m : Nat)
  | rspCons (m : Nat) | irqMod (m : Nat) | pvCount (m : Nat) | mbxCtrl (m : Nat)
  | doorbell (m : Nat)
  | piwCfg (w : Nat) | piwStatus (w : Nat) | piwCtrl (w : Nat) | piwNext (w : Nat) | piwPvCount (w : Nat)
  | streamCons (st : Nat)
  | msixAddr (v : Nat) | msixData (v : Nat) | msixControl (v : Nat)
  | pba (i : Nat)
  deriving DecidableEq, Repr

/-- The register that a 4-byte word of BAR0 belongs to, and whether it is the upper half of an 8-byte register; none for a
reserved offset (Tables 2-1, 2-2, 2-5; R65). -/
def mailboxReg (m o : Nat) : Option (BarReg × Bool) :=
  if o < 0x08 then some (.cmdBase m, 0x04 ≤ o) else if o < 0x10 then some (.rspBase m, 0x0C ≤ o)
  else if o == 0x10 then some (.mbxCfg m, false) else if o == 0x14 then some (.mbxStatus m, false)
  else if o == 0x18 then some (.cmdCons m, false) else if o == 0x1C then some (.rspProd m, false)
  else if o == 0x20 then some (.rspCons m, false) else if o == 0x24 then some (.irqMod m, false)
  else if o == 0x28 then some (.pvCount m, false) else if o == 0x2C then some (.mbxCtrl m, false)
  else none

/-- The register at a word of a window block (R65). -/
def windowReg (w o : Nat) : Option (BarReg × Bool) :=
  if o < 0x08 then some (.piwCfg w, 0x04 ≤ o) else if o < 0x10 then some (.piwStatus w, 0x0C ≤ o)
  else if o < 0x18 then some (.piwCtrl w, 0x14 ≤ o) else if o < 0x20 then some (.piwNext w, 0x1C ≤ o)
  else if o < 0x28 then some (.piwPvCount w, 0x24 ≤ o)
  else none

/-- The register at a naturally aligned word of BAR0 (Table 2-1). -/
def barReg (off : Nat) : Option (BarReg × Bool) :=
  let upper := off % 8 == 4
  if off < 0x1000 then
    if off < 0x08 then some (.devId, upper) else if off < 0x10 then some (.devState, upper)
    else if off < 0x18 then some (.glbErr, upper) else if off < 0x20 then some (.glbPv, upper)
    else if off < 0x28 then some (.fabricTime, upper)
    else if 0x200 ≤ off ∧ off < 0x400 then some (.haltMap ((off - 0x200) / 8), upper)
    else none
  else if off < 0x1040 then mailboxReg 4096 (off - 0x1000)
  else if off < 0x1048 then some (.doorbell 4096, upper)
  else if off < 0x8000 then none
  else if off < 0x10000 then some (.doorbell ((off - 0x8000) / 8), upper)
  else if off < 0x50000 then mailboxReg ((off - 0x10000) / 64) (off % 64)
  else if off < 0x51000 then windowReg ((off - 0x50000) / 64) (off % 64)
  else if 0x52000 ≤ off ∧ off < 0x54000 then some (.streamCons ((off - 0x52000) / 8), upper)
  else if 0x60000 ≤ off ∧ off < 0x68000 then
    let v := (off - 0x60000) / 16
    if off % 16 < 8 then some (.msixAddr v, upper) else if off % 16 == 8 then some (.msixData v, false)
    else some (.msixControl v, false)
  else if 0x68000 ≤ off ∧ off < 0x68100 then some (.pba ((off - 0x68000) / 8), upper)
  else none

/-- A BAR0 access keeps R27: naturally aligned, 4 or 8 bytes, every word of it at an offset that is not reserved. -/
def barLegal (off width : Nat) : Bool :=
  if width == 4 then off % 4 == 0 && (barReg off).isSome
  else if width == 8 then off % 8 == 0 && (barReg off).isSome && (barReg (off + 4)).isSome
  else false

/-- DEV_STATE.SEASON (Table 2-3). -/
def seasonCode : Season → Nat
  | .winter => 0 | .heldInReset => 0 | .spring => 1 | .summer => 2 | .drain => 3 | .powerLoss => 4

/-- DEV_STATE.PROFILE (Table 2-3). -/
def profileCode : Profile → Nat
  | .january => 0 | .april => 1 | .july => 2 | .october => 3

/-- A management session is open (DEV_STATE.MGMT_SESSION, R79). -/
def State.mgmtOpen (s : State) : Bool :=
  match s.keys.mgmt with
  | .open _ _ => true
  | _ => false

/-- MBX_STATUS.STATE (Table 2-7). -/
def mbxStateCode : MbxState → Nat
  | .disabled => 0 | .active => 1 | .halted => 2 | .resetting => 3

/-- MBX_STATUS as it reads (Table 2-7). -/
def mbxStatusWord (b : Mailbox) : Nat :=
  mbxStateCode b.state + 4 * flag b.pv + 8 * flag b.rspWait + 16 * flag b.limitWait + 256 * reasonCodeOr0 b.lastPv

/-- PIW_STATUS.FREE: the bytes from PIW_NEXT to the slot of the oldest packet not yet admitted (Table 2-24). -/
def winFree (w : Window) : Nat :=
  match w.queued with
  | [] => 1048576
  | q :: _ => (q.offset + 1048576 - w.next) % 1048576

/-- PIW_STATUS.FULL (Table 2-24). -/
def winFull (w : Window) : Bool := winFree w < w.headroom * 65536

/-- PIW_CFG as it reads (Table 2-23). -/
def piwCfgWord (w : Window) : Nat :=
  flag w.enable + 16 * w.headroom + 256 * w.timeout + 65536 * w.bound.getD 0 + 2 ^ 28 * flag w.bound.isSome

/-- PIW_STATUS as it reads (Table 2-24). -/
def piwStatusWord (w : Window) : Nat :=
  flag (winFull w) + 2 * flag w.overrun + 4 * flag w.flushPending + 8 * flag w.flushDone + 16 * flag w.pv +
    256 * reasonCodeOr0 w.lastPv + 65536 * (w.accepted % 65536) + 2 ^ 32 * winFree w

/-- The 64 bits of a bit map from bit 64 i. -/
def bitMap (p : Nat → Bool) (i : Nat) : Nat :=
  (List.range 64).foldl (fun acc b => acc + flag (p (64 * i + b)) * 2 ^ b) 0

/-- Tenant mailbox t is HALTED (MBX_HALT_MAP). -/
def State.haltedMbx (s : State) (t : Nat) : Bool := t < 4096 && (s.mbx t).state == .halted

/-- What a register reads, as 64 bits (Tables 2-2 to 2-9, 2-23 to 2-25). -/
def regValue (r : BarReg) (s : State) : Nat :=
  match r with
  | .devId => 0x5304 + 0x2 * 2 ^ 16 + 0x01 * 2 ^ 20
  | .devState => seasonCode s.power.season + 16 * profileCode s.power.profile + 256 * flag s.placed + 512 * flag s.mgmtOpen
  | .glbErr => s.host.glbErr.toNat
  | .glbPv => s.host.glbPv.toNat
  | .fabricTime => s.fabTime
  | .haltMap i => bitMap s.haltedMbx i
  | .cmdBase m => (s.mbx m).cmdBase.toNat
  | .rspBase m => (s.mbx m).rspBase.toNat
  | .mbxCfg m => (s.mbx m).cfg.toNat
  | .mbxStatus m => mbxStatusWord (s.mbx m)
  | .cmdCons m => (s.mbx m).cmdCons.toNat
  | .rspProd m => (s.mbx m).rspProd.toNat
  | .rspCons m => (s.mbx m).rspCons.toNat
  | .irqMod m => (s.mbx m).irqMod.toNat
  | .pvCount m => (s.mbx m).pvCount.toNat
  | .mbxCtrl _ => 0
  | .doorbell m => (s.mbx m).doorbell.toNat
  | .piwCfg w => piwCfgWord (s.win w)
  | .piwStatus w => piwStatusWord (s.win w)
  | .piwCtrl _ => 0
  | .piwNext w => (s.win w).next
  | .piwPvCount w => (s.win w).pvCount.toNat
  | .streamCons st => match s.host.streams.find st with | some x => x.cons.toNat | none => 0
  | .msixAddr v => (s.host.msix.getD v {}).addr.toNat
  | .msixData v => (s.host.msix.getD v {}).data.toNat
  | .msixControl v => (s.host.msix.getD v {}).control.toNat
  | .pba i => bitMap (fun v => s.host.pba.contains v) i

/-- What a 4-byte read of BAR0 returns. -/
def barRead4 (off : Nat) (s : State) : Word :=
  match barReg off with
  | some (r, true) => BitVec.ofNat 32 (regValue r s / 2 ^ 32)
  | some (r, false) => BitVec.ofNat 32 (regValue r s)
  | none => 0

/-- What an 8-byte read of BAR0 returns: an 8-byte register, or two 4-byte registers (R28). -/
def barRead8 (off : Nat) (s : State) : Quad := barRead4 (off + 4) s ++ barRead4 off s

/-! ### Writes -/

/-- The values Table 2-6 gives MBX_CFG's fields. -/
def cfgValid (v : Word) : Bool :=
  let c := bits v.toNat 0 4; let r := bits v.toNat 5 9; let cm := bits v.toNat 10 14; let rm := bits v.toNat 15 19
  12 ≤ c && c ≤ 24 && 12 ≤ r && r ≤ 24 && 12 ≤ cm && cm ≤ 25 && cm ≤ c + 5 && 12 ≤ rm && rm ≤ 25 && rm ≤ r + 5

/-- The ring indices and the doorbell at 0 (R30, R40). -/
def zeroIndices (b : Mailbox) : Mailbox := { b with cmdCons := 0, rspProd := 0, rspCons := 0, doorbell := 0 }

/-- Start a mailbox reset (R40): admission stops, what was read from the ring and not admitted is discarded with the unread slots; a window packet
that is held for ring space stays in its window (R64). -/
def State.startReset (m : Nat) (s : State) : State :=
  let s := s.updMbx m fun b => { b with state := .resetting, partialPacket := none, rspWait := false, limitWait := false }
  { s with host.held := s.host.held.keep fun k f => k != m || f.path != .ring }

/-- A write of CMD_BASE or RSP_BASE: only while DISABLED; bits [11:0] are reserved (R30). -/
def writeBase (rsp : Bool) (m : Nat) (v : Quad) (s : State) : State :=
  if (s.mbx m).state == .disabled then
    let v := v &&& 0xFFFFFFFFFFFFF000#64
    s.updMbx m fun b =>
      if rsp then { b with rspBase := v, basesWritten := (b.basesWritten.1, true) }
      else { b with cmdBase := v, basesWritten := (true, b.basesWritten.2) }
  else s.registerViolation m .cfgInvalid

/-- A write of MBX_CFG (R30). -/
def writeCfg (m : Nat) (v : Word) (s : State) : State :=
  let b := s.mbx m
  if b.state == .disabled then
    if !cfgValid v then s.registerViolation m .cfgInvalid
    else if !v.getLsbD 31 then s.setMbx m { b with cfg := v }
    else if b.basesWritten == (true, true) then
      s.setMbx m (zeroIndices { b with cfg := v, state := .active, unreported := 0 })
    else s.registerViolation m .cfgInvalid
  else if mbxEnabled b && !v.getLsbD 31 then
    (s.setMbx m { b with cfg := b.cfg &&& 0x7FFFFFFF#32 }).startReset m
  else s.registerViolation m .cfgInvalid

/-- A write of RSP_CONS: forwards, and not past RSP_PROD (R37). -/
def writeRspCons (m : Nat) (v : Word) (s : State) : State :=
  let b := s.mbx m
  if (v - b.rspCons).toNat ≤ (b.rspProd - b.rspCons).toNat then s.setMbx m { b with rspCons := v }
  else s.registerViolation m .rspConsRange

/-- Send the mailbox's vector if any response is unreported; it reports them all (R38). -/
def State.reportResponses (m : Nat) (s : State) : State :=
  let b := s.mbx m
  if b.unreported = 0 then s else (s.setMbx m { b with unreported := 0 }).vector (mbxVector b)

/-- A write of MBX_CTRL (Table 2-8). -/
def writeCtrl (m : Nat) (v : Word) (s : State) : State :=
  let s := if v.getLsbD 1 then s.reportResponses m else s
  let st := (s.mbx m).state
  if v.getLsbD 0 && (st == .active || st == .halted) then s.startReset m else s

/-- A doorbell write (R32). -/
def writeDoorbell (m : Nat) (w : DoorbellWrite) (s : State) : State :=
  let b := s.mbx m
  let refuse (r : Reason) := (s.registerViolation m r).globalError errDoorbellPv
  match w with
  | .other => refuse .doorbellSize
  | .single v =>
    let p : Word := v.setWidth 32
    let n := ringSlots (cmdLog2 b)
    if b.state == .active && v.toNat < 2 ^ 32 && (p - b.cmdCons).toNat ≤ n && (p - b.doorbell).toNat ≤ n then
      s.setMbx m { b with doorbell := p }
    else refuse .doorbellRange

/-- A write of STREAM_CONS: forwards, and not past the producer count (R60). -/
def writeStreamCons (st : Nat) (v : Word) (s : State) : State :=
  let refuse := ((s.countGlobalPv).globalError errStreamPv).logViolation moduleKey .streamConsRange
  match s.host.streams.find st with
  | some x =>
    if (v - x.cons).toNat ≤ (x.prod - x.cons).toNat then
      { s with host.streams := s.host.streams.put st { x with cons := v } }
    else refuse
  | none => if v == 0 then s else refuse

/-- The state a window has after a flush or a reset of the endpoint (R68, R475). -/
def winFlushed (w : Window) : Window :=
  { w with next := 0, accepted := 0, overrun := false, flushPending := false, flushRequested := false,
           framingLost := false, current := none, queued := [] }

/-- A write of PIW_CFG: ENABLE only while BOUND; HEADROOM 4–15, TIMEOUT 1–255 (Table 2-23). -/
def writePiwCfg (w : Nat) (v : Word) (s : State) : State :=
  let x := s.win w
  let h := bits v.toNat 4 7; let t := bits v.toNat 8 15
  if h < 4 || t == 0 || (v.getLsbD 0 && x.bound.isNone) then
    ((s.updWin w fun x => { x with pv := true, lastPv := some .cfgInvalid, pvCount := satSucc x.pvCount }).countGlobalPv.globalError
      errPiwEvent).logViolation (x.bound.getD moduleKey) .cfgInvalid
  else s.setWin w { x with enable := v.getLsbD 0, headroom := h, timeout := t }

/-- Clear OVERRUN: the next window write begins a packet at PIW_NEXT (R66). -/
def clearOverrun (w : Nat) (s : State) : State := s.updWin w fun x => { x with overrun := false }

/-- A write of PIW_STATUS: RW1C of OVERRUN, FLUSH_DONE and PV (Table 2-24). -/
def writePiwStatus (w : Nat) (v : Word) (s : State) : State :=
  let s := if v.getLsbD 1 then clearOverrun w s else s
  s.updWin w fun x => { x with flushDone := x.flushDone && !v.getLsbD 3, pv := x.pv && !v.getLsbD 4 }

/-- The oldest packet of a window is held for response ring space (R37). -/
def State.windowHeld (w : Nat) (s : State) : Bool := s.host.held.vals.any fun f => f.path == .window w

/-- A flush takes effect at the next packet boundary (R68): with nothing in progress and nothing queued it completes at
once, and otherwise FLUSH_PENDING stands until the queue is admitted and answered. -/
def State.flushStep (w : Nat) (s : State) : State :=
  let x := s.win w
  if !x.flushRequested || x.current.isSome then s
  else if x.queued.isEmpty && !s.host.flights.any (·.path == .window w) && !s.host.done.any (·.path == .window w) &&
      !s.windowHeld w then
    s.setWin w { winFlushed x with flushDone := true }
  else s.setWin w { x with flushPending := true }

/-- Request a flush (R68). -/
def requestFlush (w : Nat) (s : State) : State := (s.updWin w fun x => { x with flushRequested := true }).flushStep w

/-- Replace one half of a 64-bit value. -/
def mergeHalf (old : Quad) (upper : Bool) (v : Word) : Quad :=
  if upper then v ++ old.setWidth 32 else (old >>> 32).setWidth 32 ++ v

/-- A write of an 8-byte register as a whole (R28). -/
def writeReg8 (r : BarReg) (v : Quad) (s : State) : State :=
  match r with
  | .glbErr => { s with host.glbErr := s.host.glbErr &&& ~~~v }
  | .cmdBase m => writeBase false m v s
  | .rspBase m => writeBase true m v s
  | .doorbell m => writeDoorbell m (.single v) s
  | .piwCfg w => writePiwCfg w (v.setWidth 32) s
  | .piwStatus w => writePiwStatus w (v.setWidth 32) s
  | .piwCtrl w => if v.getLsbD 0 then requestFlush w s else s
  | .streamCons st => writeStreamCons st (v.setWidth 32) s
  | .msixAddr n => { s with host.msix := s.host.msix.put n { s.host.msix.getD n {} with addr := v } }
  | _ => s

/-- A 4-byte write: a 4-byte register, or one half of an 8-byte register, the other half unchanged (R28). -/
def writeReg4 (r : BarReg) (upper : Bool) (v : Word) (s : State) : State :=
  match r with
  | .mbxCfg m => writeCfg m v s
  | .mbxStatus m => s.updMbx m fun b => { b with pv := b.pv && !v.getLsbD 2 }
  | .rspCons m => writeRspCons m v s
  | .irqMod m => s.updMbx m fun b => { b with irqMod := v }
  | .mbxCtrl m => writeCtrl m v s
  | .doorbell m => writeDoorbell m .other s
  | .msixData n => { s with host.msix := s.host.msix.put n { s.host.msix.getD n {} with data := v } }
  | .msixControl n =>
    let s : State := { s with host.msix := s.host.msix.put n { s.host.msix.getD n {} with control := v } }
    if !v.getLsbD 0 && s.host.pba.contains n then
      ({ s with host.pba := s.host.pba.filter (· != n) } : State).emit (.msix n)
    else s
  | .glbErr => writeReg8 .glbErr (mergeHalf 0 upper v) s
  | .cmdBase m => writeReg8 (.cmdBase m) (mergeHalf (s.mbx m).cmdBase upper v) s
  | .rspBase m => writeReg8 (.rspBase m) (mergeHalf (s.mbx m).rspBase upper v) s
  | .msixAddr n => writeReg8 (.msixAddr n) (mergeHalf (s.host.msix.getD n {}).addr upper v) s
  | .piwCfg _ | .piwStatus _ | .piwCtrl _ | .streamCons _ => if upper then s else writeReg8 r (v.setWidth 64) s
  | _ => s

/-- An 8-byte register, written by one 8-byte access as a whole (Tables 2-2, 2-5, 2-9; R65). -/
def isWideReg : BarReg → Bool
  | .devId | .devState | .glbErr | .glbPv | .fabricTime | .haltMap _ | .cmdBase _ | .rspBase _ | .doorbell _
  | .piwCfg _ | .piwStatus _ | .piwCtrl _ | .piwNext _ | .piwPvCount _ | .streamCons _ | .msixAddr _ | .pba _ => true
  | _ => false

/-- The effect of an access that breaks R27: GLB_ERR.BAR_PV and GLB_PV_COUNT, and a log entry (R7); a read returns 0. -/
def barViolation (write : Bool) (s : State) : State :=
  let s := (s.countGlobalPv.globalError errBarPv).log { seq := 0, time := 0, kind := 2 }
  if write then s else { s with host.lastRead := 0 }

/-- A write to BAR0 that reaches the module (R12, R27, R28). -/
def barWrite (off : Nat) (wide : Bool) (v : Quad) (s : State) : State :=
  if !s.pcieReachable then s
  else if !barLegal off (if wide then 8 else 4) then barViolation true s
  else match barReg off with
    | none => s
    | some (r, upper) =>
      if !wide then writeReg4 r upper (v.setWidth 32) s
      else if isWideReg r then writeReg8 r v s
      else match barReg (off + 4) with
        | some (r', _) => writeReg4 r' false ((v >>> 32).setWidth 32) (writeReg4 r false (v.setWidth 32) s)
        | none => s

/-- A command that reaches the module over PCIe has its effect only while the endpoint answers (R51, R475). -/
def State.overPcie (f : State → State) (s : State) : State := if s.pcieReachable then f s else s

/-! ### The rows -/

/-- BAR0_ACCESS_VIOLATION (R27): an access that keeps the rule is not this event and changes nothing. -/
def execBar0AccessViolation (write : Bool) (off width : Nat) (s : State) : Host.Outcome State Fault Refusal :=
  .next (s.overPcie fun s => if barLegal off width then s else barViolation write s)

/-- REGISTER_WRITE (R12, R28). -/
def execRegisterWrite (off : Nat) (wide : Bool) (value : BitVec 64) (s : State) : Host.Outcome State Fault Refusal :=
  .next (barWrite off wide value s)

/-- DOORBELL_WRITE (R32). -/
def execDoorbellWrite (m : Ring) (w : DoorbellWrite) (s : State) : Host.Outcome State Fault Refusal :=
  .next (s.overPcie (writeDoorbell m.key w))

/-- MBX_ENABLE (R30): MBX_CFG written with ENABLE 1. -/
def execMbxEnable (m : Ring) (fields : BitVec 31) (s : State) : Host.Outcome State Fault Refusal :=
  .next (s.overPcie (writeCfg m.key (1#1 ++ fields)))

/-- MBX_DISABLE (R30): MBX_CFG written with ENABLE 0. -/
def execMbxDisable (m : Ring) (fields : BitVec 31) (s : State) : Host.Outcome State Fault Refusal :=
  .next (s.overPcie (writeCfg m.key (0#1 ++ fields)))

/-- MBX_CTRL_RESET (R40). -/
def execMbxCtrlReset (m : Ring) (s : State) : Host.Outcome State Fault Refusal :=
  .next (s.overPcie (writeCtrl m.key 1))

/-- MBX_RESET_COMPLETE (R40): while an admitted command has not written its response, nothing happens. -/
def execMbxResetComplete (m : Ring) (s : State) : Host.Outcome State Fault Refusal :=
  let b := s.mbx m.key
  .next (if b.state == .resetting && s.inFlight m.key == 0 && !s.host.done.any (·.mbx == m.key) then
    s.setMbx m.key (zeroIndices { b with state := if mbxEnabled b then .active else .disabled, reserved := 0 })
  else s)

/-- IRQ_REARM (R38). -/
def execIrqRearm (m : Ring) (s : State) : Host.Outcome State Fault Refusal :=
  .next (s.overPcie (writeCtrl m.key 2))

/-- RSP_CONS_WRITE (R37). -/
def execRspConsWrite (m : Ring) (value : Word) (s : State) : Host.Outcome State Fault Refusal :=
  .next (s.overPcie (writeRspCons m.key value))

/-- STREAM_CONS_WRITE (R60): [63:32] are reserved and ignored. -/
def execStreamConsWrite (st : Fin 1024) (value : BitVec 64) (s : State) : Host.Outcome State Fault Refusal :=
  .next (s.overPcie (writeStreamCons st (value.setWidth 32)))

/-- PIW_OVERRUN_CLEAR (R66). -/
def execPiwOverrunClear (w : Fin 64) (s : State) : Host.Outcome State Fault Refusal :=
  .next (s.overPcie (clearOverrun w))

/-- PIW_CTRL_FLUSH (R68). -/
def execPiwCtrlFlush (w : Fin 64) (s : State) : Host.Outcome State Fault Refusal :=
  .next (s.overPcie (requestFlush w))

end Sys2Proof.Machine
end

