-- ==== Sys2Proof/Machine/Memory.lean ====
section
/-!
DEFINITION. Byte memory in one canonical form: addresses strictly rising, and no entry equal to 0, which is what a byte
that nothing has written reads as (DESIGN CHOICE, log entry 4). The 1 MiB buffers of the posted ingest windows are such
memories.
-/
namespace Sys2Proof.Machine

/-- A byte memory: the bytes that are not 0, by address. -/
abbrev Memory := List Host.Cell

/-- What an address that nothing has written reads as. -/
def memUnwritten : Byte := 0

/-- Read one byte. -/
def memRead : Memory → Nat → Byte
  | [], _ => memUnwritten
  | (b, v) :: t, a => if b = a then v else memRead t a

/-- Write one byte, keeping the canonical form. -/
def memWrite : Memory → Nat → Byte → Memory
  | [], a, v => if v = memUnwritten then [] else [(a, v)]
  | (b, w) :: t, a, v =>
    if a < b then (if v = memUnwritten then (b, w) :: t else (a, v) :: (b, w) :: t)
    else if a = b then (if v = memUnwritten then t else (a, v) :: t)
    else (b, w) :: memWrite t a v

/-- The canonical form above a bound: addresses rise strictly from it, and no entry reads as unwritten. -/
def Memory.wfFrom : Nat → Memory → Bool
  | _, [] => true
  | lo, (a, v) :: t => decide (lo ≤ a) && decide (v ≠ memUnwritten) && Memory.wfFrom (a + 1) t

/-- The canonical form. -/
def Memory.wf (m : Memory) : Bool := Memory.wfFrom 0 m

/-- Store bytes from an address on, in a buffer of `size` bytes that wraps. -/
def memStore (size : Nat) (m : Memory) (a : Nat) : Bytes → Memory
  | [] => m
  | v :: t => memStore size (memWrite m (a % size) v) (a + 1) t

/-- Load `n` bytes from an address on, in a buffer of `size` bytes that wraps. -/
def memLoad (size : Nat) (m : Memory) (a : Nat) : Nat → Bytes
  | 0 => []
  | n + 1 => memRead m (a % size) :: memLoad size m (a + 1) n

end Sys2Proof.Machine
end

