-- ==== Sys2Proof/Machine/Admission.lean ====
section
/-!
DEFINITION. Admission: steps 1 to 11 of Table 2-13 in their order, the token bucket, the SEQ window, and what a command
waits for before it is admitted (R33–R37, R43–R48, R64, R87, R89, R424, R425).
-/
namespace Sys2Proof.Machine

/-- The unit of RATE and BURST in cost units: one command, or 10⁶ bytes (Table 17-2). -/
def rateUnit (c : TenantConfig) : Nat := if c.cls == 2 then 1 else 1000000

/-- Depth of the bucket, in cost units (R424). -/
def bucketDepth (c : TenantConfig) : Nat := c.burst * rateUnit c

/-- The bucket's content × 10⁹ now: refilled at RATE, capped at BURST (R424). A bucket not listed is full. -/
def State.bucketNow (t : Nat) (s : State) : Nat :=
  let c := s.tenantConfig t
  match s.tenants.bucket.find t with
  | some (b, at_) => min (bucketDepth c * 1000000000) (b + c.rate * rateUnit c * (s.clock - at_))
  | none => bucketDepth c * 1000000000

/-- What a command costs: 1 for a Control tenant, HDR.LENGTH bytes for every other class (R424). -/
def State.cost (t : Nat) (h : Header) (s : State) : Nat := if (s.tenantConfig t).cls == 2 then 1 else h.length.toNat

/-- The bucket lets the next command pass: it holds the cost, or is full where the cost exceeds BURST (R424). -/
def State.bucketAllows (t : Nat) (h : Header) (s : State) : Bool :=
  let c := s.tenantConfig t
  c.rate == 0 || min (s.cost t h) (bucketDepth c) * 1000000000 ≤ s.bucketNow t

/-- Take the cost, once; the bucket never goes below 0 (R424). -/
def State.bucketTake (t : Nat) (h : Header) (s : State) : State :=
  if (s.tenantConfig t).rate == 0 then s
  else { s with tenants.bucket := s.tenants.bucket.put t (s.bucketNow t - s.cost t h * 1000000000, s.clock) }

/-- Commands a mailbox may have in flight: 4,096, or TC.INFLIGHT (R36, R423). -/
def State.inflightLimit (m : Nat) (s : State) : Nat := if m < 4096 then (s.tenantConfig m).inflight else 4096

/-- The session a sealed command names, its highest SEQ and the SEQs seen below it (R79, R85, R87). -/
structure SessionView where
  high : Nat
  seen : List Nat
  exhausted : Bool
  closing : Bool
  deriving DecidableEq, Repr

/-- A counter of a session can go no further (R89). -/
def seqSpent (n : Nat) : Bool := n ≥ 2 ^ 48

/-- A SESSION_CLOSE of a session has been admitted, and has not failed (R90). -/
def State.sessionClosing (m : Nat) (id : Word) (s : State) : Bool :=
  s.host.flights.any (fun f => f.mbx == m && f.hdr.session == id && f.hdr.opcode == 0x1004) ||
    s.host.done.any fun d => d.mbx == m && d.hdr.session == id && d.hdr.opcode == 0x1004 && d.admitted && d.response.status == .done

/-- The session of a header on a mailbox, where it is open and bound to HDR.TENANT (step 9). -/
def State.sessionOf (m : Nat) (h : Header) (s : State) : Option SessionView :=
  if m < 4096 then
    match s.keys.sessions.find h.session.toNat with
    | some x =>
      if x.tenant == h.tenant.toNat && h.session != 0 then
        some { high := x.high, seen := x.seen, closing := s.sessionClosing m h.session,
               exhausted := x.exhausted || seqSpent x.counter || seqSpent (x.high + 1) }
      else none
    | none => none
  else match s.keys.mgmt with
    | .open id _ =>
      if id == h.session then
        some { high := s.keys.mgmtHigh, seen := s.keys.mgmtSeen, closing := false,
               exhausted := seqSpent s.keys.mgmtCounter || seqSpent (s.keys.mgmtHigh + 1) }
      else none
    | _ => none

/-- A host SEQ passes the replay window (R87). -/
def seqFresh (v : SessionView) (q : Nat) : Bool :=
  q != 0 && q < 2 ^ 48 && v.high < q + 8192 && !v.seen.contains q

/-- The SEQs kept once `q` is marked: those within 8,192 below the highest (R87). -/
def seqMark (high : Nat) (seen : List Nat) (q : Nat) : List Nat :=
  let h := max high q
  (q :: seen).filter fun x => h < x + 8192

/-- Consume a SEQ: mark it, and raise H (R87). -/
def State.seqConsume (m : Nat) (h : Header) (q : Nat) (s : State) : State :=
  if m < 4096 then
    { s with keys.sessions := s.keys.sessions.upd h.session.toNat fun x =>
        { x with high := max x.high q, seen := seqMark x.high x.seen q } }
  else { s with keys.mgmtHigh := max s.keys.mgmtHigh q, keys.mgmtSeen := seqMark s.keys.mgmtHigh s.keys.mgmtSeen q }

/-- A running zeroisation affects a TRK (R94). -/
def zeroiseHits (z : Zeroise) (t : Nat) (keyId : Word) : Bool :=
  z.scope == 2 || (z.tenant == t && (z.scope == 1 || z.keyId == keyId))

/-- A running zeroisation affects the session of a header: its admission stops (R94, step 1). -/
def State.sessionStopped (m : Nat) (h : Header) (s : State) : Bool :=
  m < 4096 && hdrSealed h &&
    match s.keys.sessions.find h.session.toNat with
    | some x => s.keys.zeroising.any fun z => zeroiseHits z x.tenant x.keyId
    | none => false

/-- A protocol violation with its reason. -/
def violation (off : Nat) (r : Reason) : Detail := { status := .protocolViolation, offset := off, reason := some r }

/-- Step 3 of Table 2-13. -/
def stepThree (m : Nat) (path : Path) (h : Header) : Except Detail Unit := do
  need (h.version == 1) (violation 0x00 .version)
  need (h.status == 0) (violation 0x01 .hdrReserved)
  need (h.tenant.toNat < 4096) (violation 0x04 .hdrReserved)
  need (h.flags.toNat < 8) (violation 0x06 .hdrReserved)
  need (hdrSealed h || h.session == 0) (violation 0x10 .hdrReserved)
  need ((m == 4096 && (match path with | .window _ => false | _ => true)) || h.tenant.toNat == m) (violation 0x04 .tenantMismatch)

/-- Steps 4 to 8 of Table 2-13, and the check of R64 after step 5. -/
def stepsFourToEight (m : Nat) (path : Path) (h : Header) (s : State) : Except Detail Unit := do
  need (!s.tagInFlight m h.tag) (violation 0x08 .duplicateTag)
  match opRow h.opcode with
  | none => .error { status := .unknownOpcode, offset := 0x02 }
  | some r => do
    need ((match path with | .window _ => windowOpcode h.opcode | _ => true)) (violation 0x02 .piwOpcode)
    need (hdrSealed h == (r.mark == .sealed)) (violation 0x06 .sealedFlag)
    need (if m < 4096 then r.onTenant else r.onMgmt) (notAuthorised 0x02)
    need (!(m < 4096 && s.tenants.disabled.contains m && r.cls != .identity)) (notAuthorised noOffset)
    need (stepEight h.opcode s.power.season s.placed) wrongState

/-- Steps 9 and 10 of Table 2-13 for a sealed command (R86, R87, R89): the SEQ it consumes. -/
def stepsNineTen (m : Nat) (h : Header) (p : Packet) (s : State) : Except Detail Nat :=
  match s.sessionOf m h with
  | none => .error (notAuthorised 0x10)
  | some v => do
    need (!v.closing) (notAuthorised 0x10)
    need (!v.exhausted) (keyUnavailable 0x10)
    need (24 ≤ h.length.toNat) (notAuthorised 0x20)
    let q := field p.payload 0 8
    need (seqFresh v q) (notAuthorised 0x20)
    need (p.opens && p.plain.length == h.length.toNat - 24) (notAuthorised (0x20 + h.length.toNat - 16))
    return q

/-- A search's largest response payload (R143), for EXT_BYTES of its collection. -/
def searchBound (ext : Nat) (plain : Bytes) : Nat :=
  48 + field plain 4 2 * entryBytesOf ext plain + if bit (field plain 6 2) 0 then 4096 else 0

/-- The largest response payloads of a batch's items with their heads (R145), for EXT_BYTES of a collection ID. -/
def batchBound (ext : Nat → Nat) : Nat → Bytes → Nat
  | 0, _ => 0
  | n + 1, b =>
    let k := field b 0 4
    8 + searchBound (ext (field b 8 4)) (slice b 8 k) + batchBound ext n (b.drop (8 + (k + 7) / 8 * 8))

/-- HDR.LENGTH of a command's largest response (R37): the bound its chapter states (R143, R145, R212, R302, R313, R315), or the size of its
payload's layout; a command with neither takes the cap, which is the mailbox's own limit. -/
def State.responseBound (f : Flight) (s : State) : Nat :=
  let cap := s.rspMax f.mbx
  let b := f.plain
  let lasting (n : Nat) : Nat := min cap (n + 24)
  let whole (n : Nat) : Nat := if hdrStream f.hdr then min cap 40 else n
  let ext (id : Nat) : Nat := (s.index.collections.find id).elim 0 fun c => c.desc.extBytes
  match f.opcode.toNat with
  | 0x0001 | 0x0002 => min cap 32
  | 0x0003 => min cap (max 16 b.length)
  | 0x0010 | 0x0011 | 0x0020 | 0x0021 | 0x0030 | 0x0031 | 0x0040 | 0x0050 | 0x0051 => min cap 16
  | 0x1001 => min cap 8192
  | 0x1002 | 0x1004 | 0x1005 | 0x1006 => min cap 40
  | 0x1003 => min cap 176
  | 0x2002 | 0x2010 | 0x2011 | 0x2012 | 0x2013 | 0x2014 | 0x2015 | 0x2020 | 0x2030 | 0x2031 => min cap 64
  | 0x2040 => whole cap
  | 0x3001 | 0x3002 => lasting (searchBound (ext (field b 0 4)) b)
  | 0x3003 => whole (lasting (batchBound ext (field b 0 2) (b.drop 16)))
  | 0x3010 | 0x3011 => lasting (32 + 16 * field b 0 2)
  | 0x4010 | 0x4011 => whole cap
  | 0x4012 => whole (lasting (16 + 64 * field b 0x10 4))
  | 0x4022 => lasting (16 + 4 * (field b 8 4 + 1028))
  | 0x4023 => lasting (16 + 64 * field b 8 4)
  | _ => cap

/-- What became of a packet that was offered for admission. -/
inductive Submit where
  /-- it stays where it is: something must clear first -/
  | wait (s : State)
  /-- it was taken: answered, admitted, or held for ring space -/
  | taken (s : State)
  deriving Repr

/-- A command of this mailbox admitted earlier, or, for a ring command, a window packet whose slot has arrived, has not yet written its response (R35,
R64); a window packet is the first of its own window, and has no order to the packets queued in the others. -/
def State.fenceBlocked (m : Nat) (path : Path) (s : State) : Bool :=
  s.host.flights.any (·.mbx == m) || s.host.done.any (·.mbx == m) || (s.host.held.find m).isSome ||
    (path == .ring && s.host.windows.any fun e => e.2.bound == some m && !e.2.queued.isEmpty)

/-- A command that passed step 11 is admitted: it is in flight, and metered (R36, R444). -/
def State.takeIn (f : Flight) (s : State) : State :=
  let s := { s with host.flights := s.host.flights ++ [f] }
  (s.charge (who f.mbx) 0x00 1).charge (who f.mbx) 0x08 f.hdr.length.toNat

/-- Reserve response ring space and admit, or hold the command until the space is there, RSP_WAIT being 1 and admission from the mailbox, by its ring
and by its windows, pausing (R37). -/
def State.reserveAndAdmit (f : Flight) (s : State) : State :=
  let k := match f.path with
    | .port _ => 0
    | _ => rspSlots (s.responseBound f)
  if s.rspRoom f.mbx k || k == 0 then
    let s := s.updMbx f.mbx fun b => { b with reserved := b.reserved + k, rspWait := if k == 0 then b.rspWait else false }
    ({ s with host.held := if k == 0 then s.host.held else s.host.held.del f.mbx } : State).takeIn { f with reserved := k }
  else ({ s with host.held := s.host.held.put f.mbx f } : State).updMbx f.mbx fun b => { b with rspWait := true }

/-- Answer a packet at one of the steps 1 to 11; a protocol violation is recorded on the mailbox, and for a window packet
on the window too (R64). -/
def State.refuse (m : Nat) (path : Path) (h : Header) (d : Detail) (s : State) : State :=
  let s := match d.reason, path with
    | some r, .window w => (s.mbxViolation m r).winViolation w r
    | some r, _ => s.mbxViolation m r
    | none, _ => s
  s.reject m h path d

/-- Offer a packet whose framing holds for admission: what it must wait for, then steps 3 to 11 of Table 2-13. -/
def State.submit (m : Nat) (path : Path) (h : Header) (p : Packet) (arrival : Nat) (s : State) : Submit :=
  let ringPath := match path with | .port _ => false | _ => true
  if hdrFence h && s.fenceBlocked m path then .wait s
  else if ringPath && (s.host.held.find m).isSome then .wait s
  else if s.inflightLimit m ≤ s.inFlight m then .wait (s.updMbx m fun b => { b with limitWait := true })
  else if ringPath && !s.rspRoom m 1 then .wait (s.updMbx m fun b => { b with rspWait := true })
  else if m < 4096 && !s.bucketAllows m h then .wait s
  else if s.sessionStopped m h then .wait s
  else
    let s := if ringPath then s.updMbx m fun b => { b with limitWait := false, rspWait := false } else s
    match stepThree m path h >>= fun _ => stepsFourToEight m path h s with
    | .error d => .taken (s.refuse m path h d)
    | .ok _ =>
      if hdrSealed h then
        match stepsNineTen m h p s with
        | .error d => .taken (s.refuse m path h d)
        | .ok q =>
          let s := s.seqConsume m h q
          let s := if m < 4096 then s.bucketTake m h else s
          .taken (s.reserveAndAdmit { mbx := m, hdr := h, path := path, plain := p.plain, arrival := arrival, reserved := 0 })
      else
        let s := if m < 4096 then s.bucketTake m h else s
        .taken (s.reserveAndAdmit
          { mbx := m, hdr := h, path := path, plain := p.payload.take h.length.toNat, arrival := arrival, reserved := 0 })

/-! ### The rows that admit from a ring -/

/-- A mailbox's framing is lost: the faulty packet is answered, and the mailbox is HALTED (R39). -/
def State.halt (m : Nat) (h : Header) (d : Detail) (s : State) : State :=
  let s := s.refuse m .ring h d
  (s.updMbx m fun b => { b with state := .halted, partialPacket := none }).globalError errMbxHalt

/-- What became of the packet at the front of a ring. -/
inductive Fetch where
  | stop (s : State)
  | took (bytes : Nat) (s : State)
  deriving Repr

/-- Wait for the rest of a packet whose header is covered and whose end is not (R33). -/
def State.awaitEnd (m : Nat) (h : Header) (s : State) : State :=
  s.updMbx m fun b =>
    match b.partialPacket with
    | some _ => b
    | none => { b with partialPacket := some (h, s.clock) }

/-- The packet at the front of a mailbox's command ring: framing first (steps 1 and 2 of Table 2-13; R33, R46, R47), then
admission. -/
def State.fetchOne (m : Nat) (p : Packet) (s : State) : Fetch :=
  let b := s.mbx m
  let avail := (b.doorbell - b.cmdCons).toNat
  let h := parseHeader p.header
  let len := h.length.toNat
  let k := packetSlots len
  let most := min 16777216 (2 ^ cmdMaxLog2 b - 32)
  if b.state != .active || avail == 0 || (s.host.held.find m).isSome then .stop s
  else if headerCrc p.header != h.crc then .stop (s.halt m { h with opcode := 0 } (violation 0x14 .hdrCrc))
  else if len == 0xFFFFFFFF then .stop (s.halt m h (violation 0x0C .lengthReserved))
  else if most < len && ringSlots (cmdLog2 b) < k then
    .stop (s.halt m h { status := .lengthExceeds, offset := 0x0C, limit := most })
  else if avail < k then .stop (s.awaitEnd m h)
  else
    let arrival := match b.partialPacket with | some (_, t) => t | none => s.clock
    let take (s : State) : State := s.updMbx m fun b => { b with cmdCons := b.cmdCons + BitVec.ofNat 32 k, partialPacket := none }
    if most < len then
      if s.rspRoom m 1 then
        .took (64 * k) (take (s.refuse m .ring h { status := .lengthExceeds, offset := 0x0C, limit := most }))
      else .stop (s.updMbx m fun b => { b with rspWait := true })
    else match s.submit m .ring h p arrival with
      | .wait s => .stop s
      | .taken s => .took (64 * k) (take s)

/-- Take packets of one turn until 8 packets or 256 KiB are reached (R34). -/
def State.takeTurn (m : Nat) : List Packet → Nat → State → State
  | [], _, s => s
  | p :: ps, left, s =>
    match s.fetchOne m p with
    | .stop s => s
    | .took n s => if left ≤ n then s else State.takeTurn m ps (left - n) s

/-- A mailbox has packets pending. -/
def State.pendingRing (s : State) (m : Nat) : Bool :=
  let b := s.mbx m
  b.state == .active && b.doorbell != b.cmdCons && (s.host.held.find m).isNone

/-- The tenant mailbox whose turn comes next: the first with packets pending after the one that had the last turn (R34). -/
def State.nextTenantTurn (s : State) : Option Nat :=
  let ks := (s.host.mailboxes.keys.filter (· < 4096)).filter s.pendingRing
  match ks.find? (s.host.lastTurn < ·) with
  | some t => some t
  | none => ks.head?

/-- The mailbox that has the next turn: the management mailbox between every two tenant turns (R34). -/
def State.nextTurn (s : State) : Option Nat :=
  if s.host.mgmtNext && s.pendingRing 4096 then some 4096
  else match s.nextTenantTurn with
    | some t => some t
    | none => if s.pendingRing 4096 then some 4096 else none

/-- MAILBOX_TURN (R34): the packets are those at the front of the ring of the mailbox whose turn it is. -/
def execMailboxTurn (packets : List Packet) (s : State) : Host.Outcome State Fault Refusal :=
  .next (if s.serving && s.pcieReachable then
    match s.nextTurn with
    | none => s
    | some m =>
      let s := { s with host.mgmtNext := decide (m < 4096), host.lastTurn := if m < 4096 then m else s.host.lastTurn }
      s.takeTurn m (packets.take 8) 262144
  else s)

/-- INCOMPLETE_PACKET (R33): 10 ms after the header was covered, the end still is not. -/
def execIncompletePacket (m : Ring) (s : State) : Host.Outcome State Fault Refusal :=
  let b := s.mbx m.key
  .next (match b.partialPacket with
    | some (h, t) =>
      if b.state == .active && s.serving && t + 10000000 ≤ s.clock &&
          (b.doorbell - b.cmdCons).toNat < packetSlots h.length.toNat then
        s.halt m.key h (violation noOffset .incompletePacket)
      else s
    | none => s)

/-- The oldest queued packet of a window leaves its buffer once it is admitted or answered (R67). -/
def State.freeSlot (w : Nat) (s : State) : State :=
  if s.windowHeld w then s else s.updWin w fun x => { x with queued := x.queued.drop 1 }

/-- Resume the command that a mailbox holds for ring space, while the mailbox is ACTIVE (R40, R64) and no zeroisation stops its session (R94): steps 8
and 9 are checked again (R89, R90), and a window packet's bytes are then free. -/
def State.resumeHeld (m : Nat) (s : State) : State :=
  match s.host.held.find m with
  | none => s
  | some f =>
    if (s.mbx m).state != .active || s.sessionStopped m f.hdr then s
    else
      let drop (s : State) : State := { s with host.held := s.host.held.del m }
      let refused (d : Detail) : State := ((drop s).refuse m f.path f.hdr d).updMbx m fun b => { b with rspWait := false }
      let s := match stepEight f.opcode s.power.season s.placed, hdrSealed f.hdr, s.sessionOf m f.hdr with
        | false, _, _ => refused wrongState
        | _, true, none => refused (notAuthorised 0x10)
        | _, true, some v => if v.closing then refused (notAuthorised 0x10) else if v.exhausted then refused (keyUnavailable 0x10) else s.reserveAndAdmit f
        | _, false, _ => s.reserveAndAdmit f
      match f.path with
      | .window w => s.freeSlot w
      | _ => s

/-- The windows bound to a tenant. -/
def State.boundWindows (t : Nat) (s : State) : List Nat :=
  (s.host.windows.filter fun e => e.2.bound == some t).map Prod.fst

end Sys2Proof.Machine
end

