-- ==== Sys2Proof/Machine/Numbers.lean ====
section
/-!
DEFINITION. Number formats, roundings and fixed-rate codes (spec/10_numbers.md): every rounding is round to nearest, ties to
even, computed from the exact value.
-/
namespace Sys2Proof.Machine

/-- A floating-point value as an exact number: ± m × 2^e, an infinity, or NaN. -/
inductive Fp where
  | fin (neg : Bool) (m : Nat) (e : Int)
  | inf (neg : Bool)
  | nan
  deriving DecidableEq, Repr

/-- What the top exponent of a format means (Table 10-1). -/
inductive FpSpecials where
  /-- infinities and NaN, as IEEE 754 -/
  | ieee
  /-- no infinity; all ones is NaN (E4M3) -/
  | nanOnly
  /-- neither (MX elements) -/
  | none
  deriving DecidableEq, Repr

/-- A floating-point format: exponent bits, fraction bits, bias. -/
structure FpFormat where
  expBits : Nat
  fracBits : Nat
  bias : Nat
  specials : FpSpecials
  deriving DecidableEq, Repr

/-- FP32 (Table 10-1). -/
def fp32 : FpFormat := ⟨8, 23, 127, .ieee⟩
/-- BF16 (Table 10-1). -/
def bf16 : FpFormat := ⟨8, 7, 127, .ieee⟩
/-- FP8 E4M3 (Table 10-1). -/
def fp8e4m3 : FpFormat := ⟨4, 3, 7, .nanOnly⟩
/-- FP8 E5M2 (Table 10-1). -/
def fp8e5m2 : FpFormat := ⟨5, 2, 15, .ieee⟩
/-- MXFP6 E2M3 (Table 10-1). -/
def fp6e2m3 : FpFormat := ⟨2, 3, 1, .none⟩
/-- MXFP6 E3M2 (Table 10-1). -/
def fp6e3m2 : FpFormat := ⟨3, 2, 3, .none⟩
/-- MXFP4 E2M1 (Table 10-1). -/
def fp4e2m1 : FpFormat := ⟨2, 1, 1, .none⟩

/-- The exponent of the least fraction bit of the smallest values of a format. -/
def fpEmin (f : FpFormat) : Int := 1 - (f.bias : Int) - f.fracBits

/-- The value a code denotes. -/
def fpDecode (f : FpFormat) (w : Nat) : Fp :=
  let neg := bit w (f.expBits + f.fracBits)
  let x := bits w f.fracBits (f.expBits + f.fracBits - 1)
  let m := w % 2 ^ f.fracBits
  let top := 2 ^ f.expBits - 1
  if x == top && f.specials == .ieee then (if m == 0 then .inf neg else .nan)
  else if x == top && f.specials == .nanOnly && m == 2 ^ f.fracBits - 1 then .nan
  else if x == 0 then .fin neg m (fpEmin f)
  else .fin neg (2 ^ f.fracBits + m) (fpEmin f + x - 1)

/-- Round ± m × 2^e, with more beyond the last bit when `sticky`, to `p` bits with no bit below 2^emin (R259). -/
def roundTo (p : Nat) (emin : Int) (m : Nat) (e : Int) (sticky : Bool) : Nat × Int :=
  let k : Int := max ((m.log2 : Int) + 1 - p) (emin - e)
  if k ≤ 0 then (m, e)
  else
    let d := 2 ^ k.toNat
    let q := m / d
    let r := m % d
    let up := 2 * r > d || (2 * r == d && (sticky || q % 2 == 1))
    (if up then q + 1 else q, e + k)

/-- The largest finite code of a format, without sign. -/
def fpMaxCode (f : FpFormat) : Nat :=
  match f.specials with
  | .ieee => (2 ^ f.expBits - 1) * 2 ^ f.fracBits - 1
  | .nanOnly => 2 ^ (f.expBits + f.fracBits) - 2
  | .none => 2 ^ (f.expBits + f.fracBits) - 1

/-- The code of an exact value, rounded (R259); overflow saturates when asked, and is ±∞ otherwise (Table 10-2). -/
def fpEncodeFin (f : FpFormat) (saturate neg : Bool) (m : Nat) (e : Int) (sticky : Bool) : Nat :=
  let sign := flag neg * 2 ^ (f.expBits + f.fracBits)
  if m == 0 then sign
  else
    let (q, e) := roundTo (f.fracBits + 1) (fpEmin f) m e sticky
    if q == 0 then sign
    else
      let up : Int := min ((f.fracBits : Int) - q.log2) (e - fpEmin f)
      let (q, e) := if 0 < up then (q * 2 ^ up.toNat, e - up) else if q.log2 == f.fracBits + 1 then (q / 2, e + 1) else (q, e)
      let x : Int := if 2 ^ f.fracBits ≤ q then e - fpEmin f + 1 else 0
      let code := x.toNat * 2 ^ f.fracBits + q % 2 ^ f.fracBits
      if fpMaxCode f < code then
        sign + (if saturate then fpMaxCode f else (2 ^ f.expBits - 1) * 2 ^ f.fracBits)
      else sign + code

/-- The canonical NaN of a format (R259, Table 10-2). -/
def fpNanCode (f : FpFormat) : Nat :=
  match f.specials with
  | .ieee => if f.expBits == 5 then 0x7F else (2 ^ f.expBits - 1) * 2 ^ f.fracBits + 2 ^ (f.fracBits - 1)
  | _ => 2 ^ (f.expBits + f.fracBits) - 1

/-- Conversion into a format (R260): FP32 and BF16 overflow to ±∞, the others saturate. -/
def fpEncode (f : FpFormat) (v : Fp) : Nat :=
  let sat := !(f == fp32 || f == bf16)
  match v with
  | .nan => fpNanCode f
  | .inf neg =>
    flag neg * 2 ^ (f.expBits + f.fracBits) + (if sat then fpMaxCode f else (2 ^ f.expBits - 1) * 2 ^ f.fracBits)
  | .fin neg m e => fpEncodeFin f sat neg m e false

/-- The value of an FP32 word. -/
def f32 (w : Word) : Fp := fpDecode fp32 w.toNat

/-- The FP32 word of a value (rne32). -/
def toF32 (v : Fp) : Word := BitVec.ofNat 32 (fpEncode fp32 v)

/-- The canonical quiet NaN of FP32 (R259). -/
def f32Nan : Word := 0x7FC00000#32

/-- +0 of FP32. -/
def f32Zero : Word := 0#32

/-- An FP32 word is NaN. -/
def f32IsNan (w : Word) : Bool := f32 w == .nan

/-- An FP32 word is finite. -/
def f32Finite (w : Word) : Bool := match f32 w with | .fin _ _ _ => true | _ => false

/-- Widen BF16 to FP32, exactly. -/
def bf16ToF32 (h : Half) : Word := h ++ 0#16

/-- Round FP32 to BF16 (R260). -/
def f32ToBf16 (w : Word) : Half := BitVec.ofNat 16 (fpEncode bf16 (f32 w))

/-- A signed exact number m × 2^e from a sign and a magnitude. -/
def signedMag (neg : Bool) (m : Nat) : Int := if neg then -(m : Int) else m

/-- The exact sum of two finite values, as a value. -/
def fpAddFin (n1 : Bool) (m1 : Nat) (e1 : Int) (n2 : Bool) (m2 : Nat) (e2 : Int) : Fp :=
  let e := min e1 e2
  let s := signedMag n1 (m1 * 2 ^ (e1 - e).toNat) + signedMag n2 (m2 * 2 ^ (e2 - e).toNat)
  if s == 0 then .fin (n1 && n2) 0 0 else .fin (decide (s < 0)) s.natAbs e

/-- The exact sum of two values. -/
def fpAdd : Fp → Fp → Fp
  | .nan, _ => .nan
  | _, .nan => .nan
  | .inf a, .inf b => if a == b then .inf a else .nan
  | .inf a, _ => .inf a
  | _, .inf b => .inf b
  | .fin n1 m1 e1, .fin n2 m2 e2 => fpAddFin n1 m1 e1 n2 m2 e2

/-- The opposite value. -/
def fpNeg : Fp → Fp
  | .nan => .nan
  | .inf a => .inf (!a)
  | .fin n m e => .fin (!n) m e

/-- The exact product of two values. -/
def fpMul : Fp → Fp → Fp
  | .nan, _ => .nan
  | _, .nan => .nan
  | .inf a, .inf b => .inf (a != b)
  | .inf a, .fin n m _ => if m == 0 then .nan else .inf (a != n)
  | .fin n m _, .inf b => if m == 0 then .nan else .inf (n != b)
  | .fin n1 m1 e1, .fin n2 m2 e2 => .fin (n1 != n2) (m1 * m2) (e1 + e2)

/-- rne32 of a + b. -/
def f32Add (a b : Word) : Word := toF32 (fpAdd (f32 a) (f32 b))
/-- rne32 of a − b. -/
def f32Sub (a b : Word) : Word := toF32 (fpAdd (f32 a) (fpNeg (f32 b)))
/-- rne32 of a × b. -/
def f32Mul (a b : Word) : Word := toF32 (fpMul (f32 a) (f32 b))
/-- The opposite of an FP32 word; NaN stays canonical. -/
def f32Neg (a : Word) : Word := toF32 (fpNeg (f32 a))

/-- rne32 of the exact quotient of two values. -/
def fpDiv32 (a b : Fp) : Word :=
  match a, b with
  | .nan, _ | _, .nan => f32Nan
  | .inf _, .inf _ => f32Nan
  | .inf n, .fin n2 _ _ => toF32 (.inf (n != n2))
  | .fin n _ _, .inf n2 => toF32 (.fin (n != n2) 0 0)
  | .fin n1 m1 e1, .fin n2 m2 e2 =>
    if m2 == 0 then (if m1 == 0 then f32Nan else toF32 (.inf (n1 != n2)))
    else if m1 == 0 then toF32 (.fin (n1 != n2) 0 0)
    else
      let k := 32 + m2.log2
      let num := m1 * 2 ^ k
      BitVec.ofNat 32 (fpEncodeFin fp32 false (n1 != n2) (num / m2) (e1 - e2 - k) (num % m2 != 0))

/-- rne32 of a / b. -/
def f32Div (a b : Word) : Word := fpDiv32 (f32 a) (f32 b)

/-- The integer square root, bit by bit from bit `k` down. -/
def isqrtFrom : Nat → Nat → Nat → Nat
  | 0, _, r => r
  | k + 1, n, r =>
    let c := r + 2 ^ k
    isqrtFrom k n (if c * c ≤ n then c else r)

/-- The integer square root. -/
def isqrt (n : Nat) : Nat := isqrtFrom (n.log2 / 2 + 1) n 0

/-- rne32 of the square root. -/
def f32Sqrt (a : Word) : Word :=
  match f32 a with
  | .nan => f32Nan
  | .inf n => if n then f32Nan else a
  | .fin n m e =>
    if m == 0 then a
    else if n then f32Nan
    else
      let k : Nat := if e % 2 == 0 then 64 else 65
      let v := m * 2 ^ k
      let r := isqrt v
      BitVec.ofNat 32 (fpEncodeFin fp32 false false r ((e - k) / 2) (r * r != v))

/-- An FP32 value as an ordered integer: lower is smaller; −0 and +0 are equal; NaN has no order. -/
def f32Order (w : Word) : Int :=
  let mag : Nat := w.toNat % 2 ^ 31
  if w.getLsbD 31 then -(mag : Int) else (mag : Int)

/-- a < b; false where either is NaN. -/
def f32Lt (a b : Word) : Bool := !f32IsNan a && !f32IsNan b && decide (f32Order a < f32Order b)
/-- a ≤ b; false where either is NaN. -/
def f32Le (a b : Word) : Bool := !f32IsNan a && !f32IsNan b && decide (f32Order a ≤ f32Order b)

/-- The magnitude. -/
def f32Abs (w : Word) : Word := w &&& 0x7FFFFFFF#32

/-- rne32 of an integer. -/
def f32OfInt (i : Int) : Word := toF32 (.fin (decide (i < 0)) i.natAbs 0)

/-- round_half_even of an FP32 value to an integer (R160, R274); an infinite quotient is beyond every code, and NaN, for which there is no integer, is 0. -/
def f32RoundInt (w : Word) : Int :=
  match f32 w with
  | .fin n m e =>
    if 0 ≤ e then signedMag n (m * 2 ^ e.toNat)
    else
      let d := 2 ^ (-e).toNat
      let q := m / d
      let r := m % d
      signedMag n (if 2 * r > d || (2 * r == d && q % 2 == 1) then q + 1 else q)
  | .inf n => signedMag n (2 ^ 128)
  | .nan => 0

/-- Clamp an integer to [−m, m]. -/
def clampInt (m : Nat) (i : Int) : Int := max (-(m : Int)) (min m i)

/-- The running sum of values in ascending order, each step rne32, from +0. -/
def f32Sum (l : List Word) : Word := l.foldl f32Add f32Zero

/-- The largest magnitude of a list of finite values; +0 for none. -/
def f32MaxAbs (l : List Word) : Word := l.foldl (fun a w => if f32Lt a (f32Abs w) then f32Abs w else a) f32Zero

/-- Elements of a vector of 4-byte or 2-byte elements, widened to FP32 (Table 4-3, R278). -/
def vectorElements (format : Nat) (dim : Nat) (b : Bytes) : List Word :=
  (List.range dim).map fun i =>
    if format == 0 then BitVec.ofNat 32 (field b (4 * i) 4) else bf16ToF32 (BitVec.ofNat 16 (field b (2 * i) 2))

/-- Bytes of a vector's elements in a format (R278). -/
def vectorBytes (format : Nat) (v : List Word) : Bytes :=
  v.flatMap fun w => if format == 0 then leBytes 4 w.toNat else leBytes 2 (f32ToBf16 w).toNat

/-- The norm of R147: the square root of the fp32 sum of squares in index order. -/
def f32Norm (v : List Word) : Word := f32Sqrt (f32Sum (v.map fun x => f32Mul x x))

/-- A vector divided by its norm, elementwise with rne32 (R147, R271). -/
def normalise (v : List Word) : List Word := let n := f32Norm v; v.map fun x => f32Div x n

/-- The number of ones in the low `k` bits. -/
def popcount : Nat → Nat → Nat
  | 0, _ => 0
  | k + 1, n => n % 2 + popcount k (n / 2)

/-! ### MX blocks and scales -/

/-- A value as a list element is NaN. -/
def fpIsNan : Fp → Bool
  | .nan => true
  | _ => false

/-- The magnitude of an exact value, ±∞ as the largest finite FP32 (R261). -/
def fpMag : Fp → Nat × Int
  | .fin _ m e => (m, e)
  | .inf _ => (2 ^ 24 - 1, 104)
  | .nan => (0, 0)

/-- One magnitude is below another. -/
def magLt (a b : Nat × Int) : Bool :=
  let e := min a.2 b.2
  a.1 * 2 ^ (a.2 - e).toNat < b.1 * 2 ^ (b.2 - e).toNat

/-- The exponent of the largest normal value of an MX element format; 0 for MXINT8 (R261). -/
def mxEmax (f : FpFormat) : Int :=
  if f == fp8e4m3 then 8 else if f == fp8e5m2 then 15 else if f == fp6e2m3 then 2 else if f == fp6e3m2 then 4 else 2

/-- x of R261: the block's exponent. -/
def mxExponent (emax : Int) (v : List Fp) : Int :=
  let a := v.foldl (fun a x => if magLt a (fpMag x) then fpMag x else a) (0, 0)
  if a.1 == 0 then -127 else max (-127) (min 127 ((a.1.log2 : Int) + a.2 - emax))

/-- Scale an exact value by 2^k. -/
def fpScale (k : Int) : Fp → Fp
  | .fin n m e => .fin n m (e + k)
  | v => v

/-- An MX block of floating-point elements: its E8M0 scale and its element codes (R261). -/
def mxBlock (f : FpFormat) (v : List Fp) : Nat × List Nat :=
  if v.any fpIsNan then (0xFF, v.map fun _ => 0)
  else
    let x := mxExponent (mxEmax f) v
    ((x + 127).toNat, v.map fun e =>
      match fpScale (-x) e with
      | .fin n m k => fpEncodeFin f true n m k false
      | .inf n => flag n * 2 ^ (f.expBits + f.fracBits) + fpMaxCode f
      | .nan => 0)

/-- An exact value rounded half to even to an integer, saturated to ±m; NaN gives 0 (Table 10-2). -/
def fpToInt (m : Nat) : Fp → Int
  | .nan => 0
  | .inf n => if n then -(m : Int) else m
  | .fin n v e =>
    if 0 ≤ e then clampInt m (signedMag n (v * 2 ^ e.toNat))
    else
      let d := 2 ^ (-e).toNat
      let q := v / d
      let r := v % d
      clampInt m (signedMag n (if 2 * r > d || (2 * r == d && q % 2 == 1) then q + 1 else q))

/-- An MXINT8 block: elements have an implicit factor 2⁻⁶ (R261). -/
def mxIntBlock (v : List Fp) : Nat × List Int :=
  if v.any fpIsNan then (0xFF, v.map fun _ => 0)
  else
    let x := mxExponent 0 v
    ((x + 127).toNat, v.map fun e => fpToInt 127 (fpScale (6 - x) e))

/-- A TOKEN scale of a row: rne32(amax / qmax), rounded to BF16 when the scale format is BF16; NaN when the row holds one (R266). -/
def tokenScale (qmax : Word) (toBf16 : Bool) (row : List Word) : Word :=
  if row.any f32IsNan then f32Nan
  else
    let s := f32Div (f32MaxAbs row) qmax
    if toBf16 then bf16ToF32 (f32ToBf16 s) else s

/-- Integer codes of a row under its TOKEN scale (R266); m is 127 or 7. -/
def tokenCodes (m : Nat) (s : Word) (row : List Word) : List Int :=
  row.map fun v => if f32IsNan s || f32MaxAbs row == f32Zero then 0 else fpToInt m (f32 (f32Div v s))

/-- The exact sum of products of one chunk (R262). -/
def chunkSum (a b : List Fp) : Fp := (List.zipWith fpMul a b).foldl fpAdd (.fin false 0 0)

/-- A dot product over the reduction axis in chunks of 32, each exact chunk sum added to the FP32 accumulator with one rounding
(R262); `n` chunks. -/
def dotChunks : Nat → List Fp → List Fp → Word → Word
  | 0, _, _, acc => acc
  | n + 1, a, b, acc =>
    dotChunks n (a.drop 32) (b.drop 32) (toF32 (fpAdd (f32 acc) (chunkSum (a.take 32) (b.take 32))))

/-- Saturate an integer accumulator to INT32 (Table 10-2). -/
def satInt32 (i : Int) : Int := max (-(2 ^ 31 - 1)) (min (2 ^ 31 - 1) i)

/-- An integer dot product in chunks of 32, the accumulator saturating at INT32 (R262). -/
def dotInt : Nat → List Int → List Int → Int → Int
  | 0, _, _, acc => acc
  | n + 1, a, b, acc =>
    dotInt n (a.drop 32) (b.drop 32) (satInt32 (acc + (List.zipWith (· * ·) (a.take 32) (b.take 32)).foldl (· + ·) 0))

/-- Scale a product: rne32(rne32(s_a × s_w) × acc) (R268). -/
def scaledOutput (sa sw acc : Word) : Word := f32Mul (f32Mul sa sw) acc

/-! ### Sketches and refine codes -/

/-- The projection section of a quantiser image (Table 10-6). -/
structure Projection where
  taps : Nat
  mean : List Word
  thresh : List Word
  /-- tap words, TAPS per bit, bit 0 first -/
  tap : List Nat
  deriving DecidableEq, Repr

/-- Read a projection section for DIM and SKETCH_BITS. -/
def readProjection (dim sketchBits : Nat) (b : Bytes) : Projection :=
  let taps := field b 0 1
  { taps := taps
    mean := (List.range dim).map fun i => BitVec.ofNat 32 (field b (0x10 + 4 * i) 4)
    thresh := (List.range sketchBits).map fun j => BitVec.ofNat 32 (field b (0x10 + 4 * dim + 4 * j) 4)
    tap := (List.range (sketchBits * taps)).map fun i => field b (0x10 + 4 * dim + 4 * sketchBits + 2 * i) 2 }

/-- The signed sum of one sketch bit (R271). -/
def sketchSum (p : Projection) (x : List Word) (taps : List Nat) : Word :=
  taps.foldl (fun s t =>
    let i := t % 4096
    let u := f32Sub (x.getD i 0) (p.mean.getD i 0)
    if bit t 15 then f32Sub s u else f32Add s u) f32Zero

/-- The sketch bits from bit j on, as a number with bit j at the bottom (R271, R272). -/
def sketchFrom (p : Projection) (x : List Word) : List Word → List Nat → Nat
  | [], _ => 0
  | th :: ths, taps =>
    flag (f32Le th (sketchSum p x (taps.take p.taps))) + 2 * sketchFrom p x ths (taps.drop p.taps)

/-- The sketch of a vector (R271): bit j of the sketch is bit j of the number. -/
def sketchOf (p : Projection) (x : List Word) : Nat := sketchFrom p x p.thresh p.tap

/-- The refine scales σ_b (Table 10-7). -/
def readScales (dim : Nat) (b : Bytes) : List Word :=
  (List.range (dim / 64)).map fun i => BitVec.ofNat 32 (field b (0x10 + 4 * i) 4)

/-- The largest code magnitude of REFINE_BITS (R274). -/
def refineMax (refineBits : Nat) : Nat := if refineBits == 8 then 127 else 7

/-- One refine code before the clamp (R274). -/
def refineRaw (sigma x : Word) : Int := f32RoundInt (f32Div x sigma)

/-- The refine codes of a vector, by element (R274). -/
def refineCodes (m : Nat) (sigma : List Word) (x : List Word) : List Int :=
  x.mapIdx fun i v => clampInt m (refineRaw (sigma.getD (i / 64) f32Zero) v)

/-- The elements whose code the clamp changes (R274). -/
def refineClamped (m : Nat) (sigma : List Word) (x : List Word) : Nat :=
  ((x.mapIdx fun i v => refineRaw (sigma.getD (i / 64) f32Zero) v).filter fun c => (m : Int) < c || c < -(m : Int)).length

/-- A code as a two's complement field of `n` bits. -/
def codeField (n : Nat) (c : Int) : Nat := (c % 2 ^ n).toNat

/-- Pairs of 4-bit codes packed into bytes, the even element in the low nibble (R258). -/
def packNibbles : List Int → Bytes
  | a :: b :: t => BitVec.ofNat 8 (codeField 4 a + 16 * codeField 4 b) :: packNibbles t
  | [a] => [BitVec.ofNat 8 (codeField 4 a)]
  | [] => []

/-- The stored refine code (R274). -/
def refinePack (refineBits : Nat) (c : List Int) : Bytes :=
  if refineBits == 8 then c.map fun v => BitVec.ofNat 8 (codeField 8 v) else packNibbles c

/-- The codes of a stored refine code. -/
def refineUnpack (refineBits : Nat) (b : Bytes) : List Int :=
  if refineBits == 8 then b.map fun v => signed 8 v.toNat
  else b.flatMap fun v => [signed 4 (v.toNat % 16), signed 4 (v.toNat / 16)]

/-- The dequantised element (R274). -/
def dequantise (sigma : List Word) (c : List Int) : List Word :=
  c.mapIdx fun i v => f32Mul (sigma.getD (i / 64) f32Zero) (f32OfInt v)

/-! ### Distances (R158–R161) -/

/-- The Hamming score: −popcount(query XOR item), an exact FP32 integer (R158). -/
def hammingScore (sketchBits q x : Nat) : Word := f32OfInt (-(popcount sketchBits (Nat.xor q x) : Int))

/-- The running sum of exact products of BF16 elements (R159). -/
def bf16Dot (a b : List Half) : Word :=
  (List.zip a b).foldl (fun s p => f32Add s (f32Mul (bf16ToF32 p.1) (bf16ToF32 p.2))) f32Zero

/-- The score of a centroid c with stored cc on a query q rounded to BF16 (R159). -/
def centroidScore (metric : Nat) (q c : List Half) (cc : Word) : Word :=
  let ip := bf16Dot q c
  if metric == 2 then f32Neg (f32Sub (f32Add (bf16Dot q q) cc) (f32Mul (f32OfInt 2) ip)) else ip

/-- The query codes of one block under τ (R160). -/
def queryCodes (tau : Word) (q : List Word) : List Int :=
  q.map fun x => if tau == f32Zero then 0 else clampInt 127 (f32RoundInt (f32Div x tau))

/-- The exact integer dot product of two code blocks. -/
def codeDot (a b : List Int) : Int := (List.zipWith (· * ·) a b).foldl (· + ·) 0

/-- ip and nx of R160 over the blocks of a code, ascending. -/
def refineBlocks : List Word → List Word → List Int → Word → Word → Word × Word
  | [], _, _, s, nx => (s, nx)
  | sg :: sgs, q, c, s, nx =>
    let qb := q.take 64
    let cb := c.take 64
    let tau := f32Div (f32MaxAbs qb) (f32OfInt 127)
    let d := codeDot (queryCodes tau qb) cb
    let s' := f32Add s (f32Mul (f32Mul tau sg) (f32OfInt d))
    let nx' := f32Add nx (f32Mul (f32Mul sg sg) (f32OfInt (codeDot cb cb)))
    refineBlocks sgs (q.drop 64) (c.drop 64) s' nx'

/-- The squared norm in fp32, in index order. -/
def f32Squares (v : List Word) : Word := f32Sum (v.map fun x => f32Mul x x)

/-- The score under a metric from ip, qq and nx (R160, R161). -/
def metricScore (metric : Nat) (ip qq nx : Word) : Word :=
  if metric == 2 then f32Neg (f32Sub (f32Add qq nx) (f32Mul (f32OfInt 2) ip)) else ip

/-- The refined score of a stored code (R160). -/
def refineScore (metric : Nat) (sigma q : List Word) (code : List Int) : Word :=
  let (ip, nx) := refineBlocks sigma q code f32Zero f32Zero
  metricScore metric ip (f32Squares q) nx

/-- The refined score of a full vector (R161). -/
def fullScore (metric : Nat) (q x : List Word) : Word :=
  metricScore metric (f32Sum (List.zipWith f32Mul q x)) (f32Squares q) (f32Squares x)

/-- Bytes of a fixed-rate record: sector and byte of record p of size `size` (R277). -/
def recordPlace (size p : Nat) : Nat × Nat :=
  if size ≤ 4096 then (p / (4096 / size), (p % (4096 / size)) * size) else (p * ((size + 4095) / 4096), 0)

/-- The size of a KV page (R279): heads, elements, bits per element, format class 0 BF16, 1 E4M3 or INT8, 2 INT4. -/
def kvPageBytes (h d b : Nat) (cls : Nat) : Nat :=
  let sb := if cls == 0 then 0 else if cls == 1 then 512 * h else 512 * h * d / 64
  4096 * ((512 * h * d * b / 8 + 2 * sb + 4095) / 4096)

end Sys2Proof.Machine
end

