-- ==== Sys2Proof/Machine/CentroidMaps.lean ====
section
/-!
DEFINITION. The quantiser image and the centroid map: its checks, the initial map, the traversal (R138–R140, R148, R149,
R269, R270, R273, R487).
-/
namespace Sys2Proof.Machine

/-- The header fields of a quantiser image (Table 5-2). -/
structure QHeader where
  coarseLog2 : Nat
  degree : Nat
  entries : Nat
  projOffset : Nat
  projBytes : Nat
  scaleOffset : Nat
  scaleBytes : Nat
  coarseOffset : Nat
  residOffset : Nat
  entryOffset : Nat
  deriving DecidableEq, Repr

/-- Read the header. -/
def readQHeader (b : Bytes) : QHeader where
  coarseLog2 := field b 0x0B 1
  degree := field b 0x0C 1
  entries := field b 0x0F 1
  projOffset := field b 0x10 4
  projBytes := field b 0x14 4
  scaleOffset := field b 0x18 4
  scaleBytes := field b 0x1C 4
  coarseOffset := field b 0x20 4
  residOffset := field b 0x24 4
  entryOffset := field b 0x28 4

/-- The residual index bits b = LISTS_LOG2 − a. -/
def residLog2 (lists : Nat) (q : QHeader) : Nat := lists - q.coarseLog2

/-- The sections of an image: header offset of the field that places each, start and length. -/
def qSections (dim lists : Nat) (q : QHeader) : List (Nat × Nat × Nat) :=
  [(0x10, q.projOffset, q.projBytes), (0x18, q.scaleOffset, q.scaleBytes),
   (0x20, q.coarseOffset, 2 ^ q.coarseLog2 * dim * 2), (0x24, q.residOffset, 2 ^ residLog2 lists q * dim * 2),
   (0x28, q.entryOffset, 4 * q.entries)]

/-- A section lies inside the image, clear of the header, and overlaps none of the others (R138). -/
def sectionOk (size : Nat) (all : List (Nat × Nat × Nat)) (x : Nat × Nat × Nat) : Bool :=
  64 ≤ x.2.1 && x.2.1 + x.2.2 ≤ size &&
    all.all fun y => y.1 == x.1 || x.2.1 + x.2.2 ≤ y.2.1 || y.2.1 + y.2.2 ≤ x.2.1 || x.2.2 == 0 || y.2.2 == 0

/-- The first offending offset of the projection section, from its start (R269, R270). -/
def projectionFault (dim sketchBits : Nat) (b : Bytes) : Option Nat :=
  let taps := field b 0 1
  let p := readProjection dim sketchBits b
  if taps < 8 ∨ 64 < taps ∨ taps % 8 ≠ 0 then some 0
  else if b.length ≠ 16 + 4 * dim + 4 * sketchBits + 2 * sketchBits * taps then some 0
  else if !zeroField b 1 15 then some 1
  else match p.mean.findIdx? (fun w => !f32Finite w) with
    | some i => some (0x10 + 4 * i)
    | none => match p.thresh.findIdx? (fun w => !f32Finite w) with
      | some j => some (0x10 + 4 * dim + 4 * j)
      | none =>
        let base := 0x10 + 4 * dim + 4 * sketchBits
        match p.tap.findIdx? (fun t => dim ≤ t % 4096 || bits t 12 14 != 0) with
        | some k => some (base + 2 * k)
        | none =>
          match (List.range sketchBits).findSome? (fun j =>
              let row := (p.tap.drop (j * taps)).take taps
              (List.range taps).find? (fun k => (row.take k).any fun t => t % 4096 == row.getD k 0 % 4096) |>.map (j * taps + ·)) with
          | some k => some (base + 2 * k)
          | none => none

/-- A positive, finite, normal FP32 value (R273). -/
def f32PositiveNormal (w : Word) : Bool := 0x00800000 ≤ w.toNat && w.toNat < 0x7F800000

/-- The first offending offset of the scale section, from its start (R273). -/
def scaleFault (dim : Nat) (b : Bytes) : Option Nat :=
  if b.length ≠ 16 + 4 * (dim / 64) ∨ field b 0 2 ≠ dim / 64 then some 0
  else if field b 2 1 ≠ 0 then some 2
  else if !zeroField b 3 13 then some 3
  else ((readScales dim b).findIdx? fun w => !f32PositiveNormal w).map (0x10 + 4 * ·)

/-- The first offending offset in a quantiser image, from its start (R138). -/
def qimageFault (d : Descriptor) (b : Bytes) : Option Nat :=
  let q := readQHeader b
  let n := d.listsLog2
  let crc := crc32c (slice b 0 0x2C ++ zeros 4 ++ b.drop 0x30)
  if b.length < 64 then some 0
  else if field b 0 4 ≠ 0x474D4951 then some 0x00
  else if field b 4 2 ≠ 1 then some 0x04
  else if field b 6 2 ≠ d.dim then some 0x06
  else if field b 8 2 ≠ d.sketchBits then some 0x08
  else if field b 0x0A 1 ≠ n then some 0x0A
  else if q.coarseLog2 < 4 ∨ n < q.coarseLog2 + 4 then some 0x0B
  else if q.degree < 16 ∨ 64 < q.degree ∨ q.degree % 8 ≠ 0 then some 0x0C
  else if field b 0x0D 1 ≠ d.metric then some 0x0D
  else if field b 0x0E 1 ≠ d.refineBits then some 0x0E
  else if q.entries < 1 ∨ 64 < q.entries then some 0x0F
  else if 1048576 < q.projBytes then some 0x14
  else if 1048576 < q.scaleBytes then some 0x1C
  else match (qSections d.dim n q).find? (fun x => !sectionOk b.length (qSections d.dim n q) x) with
    | some x => some x.1
    | none =>
      if BitVec.ofNat 32 (field b 0x2C 4) != crc then some 0x2C
      else if !zeroField b 0x30 16 then some 0x30
      else match (List.range q.entries).find? (fun i => 2 ^ n ≤ field b (q.entryOffset + 4 * i) 4) with
        | some i => some (q.entryOffset + 4 * i)
        | none => match projectionFault d.dim d.sketchBits (slice b q.projOffset q.projBytes) with
          | some o => some (q.projOffset + o)
          | none => (scaleFault d.dim (slice b q.scaleOffset q.scaleBytes)).map (q.scaleOffset + ·)

/-- A row of a bf16 table in an image. -/
def bf16Row (b : Bytes) (off dim r : Nat) : List Half :=
  (List.range dim).map fun i => BitVec.ofNat 16 (field b (off + 2 * (r * dim + i)) 2)

/-- The initial centroid of slot l (R139). -/
def initialCentroid (d : Descriptor) (b : Bytes) (l : Nat) : List Half :=
  let q := readQHeader b
  let k := 2 ^ residLog2 d.listsLog2 q
  List.zipWith (fun x y => f32ToBf16 (f32Add (bf16ToF32 x) (bf16ToF32 y)))
    (bf16Row b q.coarseOffset d.dim (l / k)) (bf16Row b q.residOffset d.dim (l % k))

/-- A scored slot is better: the higher score, ties to the lower slot (R139, R148). -/
def slotBetter (a b : Word × Nat) : Bool :=
  decide (f32Order b.1 < f32Order a.1) || (f32Order a.1 == f32Order b.1 && decide (a.2 < b.2))

/-- The best `n` of scored slots, best first, without NaN scores. -/
def bestSlots (n : Nat) (l : List (Word × Nat)) : List (Word × Nat) :=
  (sortBy (l.filter fun x => !f32IsNan x.1) fun a b => slotBetter a b || a == b).take n

/-- The best `n` candidates of an edge list, best first; those with a NaN score come last (R487, DEDUCED, log entry 63). -/
def edgeSlots (n : Nat) (l : List (Word × Nat)) : List Nat :=
  ((bestSlots l.length l).map Prod.snd ++ sortBy ((l.filter fun x => f32IsNan x.1).map Prod.snd) fun a b => decide (a ≤ b)).take n

/-- The slots other than l that share its coarse or its residual index (R139). -/
def mapNeighbours (d : Descriptor) (q : QHeader) (l : Nat) : List Nat :=
  let k := 2 ^ residLog2 d.listsLog2 q
  let row := (List.range k).map fun j => l / k * k + j
  let col := (List.range (2 ^ q.coarseLog2)).map fun i => i * k + l % k
  ((row ++ col).filter (· != l)).eraseDups

/-- An edge list of DEGREE positions: the candidates, then fillers that name the slot itself (R487). -/
def fillEdges (degree l epoch : Nat) (es : List (Nat × Nat)) : List (Nat × Nat) :=
  es.take degree ++ List.replicate (degree - es.length) (l, epoch % 256)

/-- The initial slot l: centroid, cc, epoch 0, and its edges best first (R139). -/
def initialSlot (d : Descriptor) (b : Bytes) (l : Nat) : Slot :=
  let q := readQHeader b
  let c := initialCentroid d b l
  let scored := (mapNeighbours d q l).map fun j =>
    let cj := initialCentroid d b j
    (centroidScore d.metric c cj (bf16Dot cj cj), j)
  { centroid := c, cc := bf16Dot c c, epoch := 0
    edges := fillEdges q.degree l 0 ((edgeSlots q.degree scored).map fun x => (x, 0)) }

/-- A slot of a collection's current map. -/
def slotOf (c : Collection) (l : Nat) : Slot :=
  match c.map.slots.find l with
  | some x => x
  | none => initialSlot c.desc c.qimage l

/-- The epoch of a slot, without building its edges. -/
def slotEpoch (c : Collection) (l : Nat) : Nat :=
  match c.map.slots.find l with
  | some x => x.epoch
  | none => 0

/-- Where an edge of slot `holder` leads: nowhere for a filler, its slot at the current epoch, or the successors of its
forwarding record, and then it is stale (R149, R487). -/
def resolveEdge (c : Collection) (holder : Nat) (e : Nat × Nat) : List Nat × Bool :=
  if e.1 == holder then ([], false)
  else if slotEpoch c e.1 % 256 == e.2 then ([e.1], false)
  else match c.map.forwards.find? (fun f => f.slot == e.1 && f.epoch % 256 == e.2) with
    | some f => (f.targets, true)
    | none => ([e.1], false)

/-- The state of a traversal. -/
structure Walk where
  beam : List (Word × Nat)
  visited : List Nat
  expanded : List Nat
  stale : Nat := 0
  nans : Nat := 0
  rounds : Nat := 0
  deriving DecidableEq, Repr

/-- Score slots on a query rounded to bf16. -/
def scoreSlots (c : Collection) (q : List Half) (l : List Nat) : List (Word × Nat) :=
  l.map fun i => let x := slotOf c i; (centroidScore c.desc.metric q x.centroid x.cc, i)

/-- One round of R148. -/
def walkRound (c : Collection) (q : List Half) (beam : Nat) (w : Walk) (u : List Nat) : Walk :=
  let res := u.flatMap fun l => (slotOf c l).edges.map (resolveEdge c l)
  let new := ((res.flatMap Prod.fst).eraseDups).filter fun l => !w.visited.contains l
  let scored := scoreSlots c q new
  { beam := bestSlots beam (w.beam ++ scored), visited := w.visited ++ new, expanded := w.expanded ++ u
    stale := w.stale + (res.filter Prod.snd).length
    nans := w.nans + (scored.filter fun x => f32IsNan x.1).length, rounds := w.rounds + 1 }

/-- Rounds until the beam is expanded, 64 rounds have run, or 65,536 slots are visited (R148). -/
def walkRounds (c : Collection) (q : List Half) (beam : Nat) : Nat → Walk → Walk
  | 0, w => w
  | n + 1, w =>
    let u := (w.beam.map Prod.snd).filter fun l => !w.expanded.contains l
    if u.isEmpty || 65536 ≤ w.visited.length then w else walkRounds c q beam n (walkRound c q beam w u)

/-- The entry slots of an image (R138). -/
def entrySlots (b : Bytes) : List Nat :=
  let q := readQHeader b
  ((List.range q.entries).map fun i => field b (q.entryOffset + 4 * i) 4).eraseDups

/-- The traversal of R148 on the map of a collection, for a query in fp32. -/
def traverse (c : Collection) (q : List Word) (beam : Nat) : Walk :=
  let qb := q.map f32ToBf16
  let scored := scoreSlots c qb (entrySlots c.qimage)
  walkRounds c qb beam 64
    { beam := bestSlots beam scored, visited := entrySlots c.qimage, expanded := []
      nans := (scored.filter fun x => f32IsNan x.1).length }

/-- The lists probed: the first NPROBE of the beam (R148). -/
def probeOf (w : Walk) (nprobe : Nat) : List Nat := (w.beam.take nprobe).map Prod.snd

/-- The list an item is assigned to: the traversal with BEAM 64 and NPROBE 1 (R152). Where every score is NaN the spec names no list: a free value
(DESIGN CHOICE, log entry 64). -/
def assignList (c : Collection) (x : List Word) : Nat := (probeOf (traverse c x 64) 1).headD (Config.unrankedList x % 2 ^ c.desc.listsLog2)

/-- What a traversal has read: the centroids of the slots it visited, the edges of those it expanded, and the forwarding records of the slots that
stale edges name (R148, R149). -/
def Walk.reads (c : Collection) (w : Walk) : List (Nat × Nat) :=
  w.visited.map (fun l => (l, 0)) ++ w.expanded.map (fun l => (l, 1)) ++
    w.expanded.flatMap fun l => ((slotOf c l).edges.filter fun e => (resolveEdge c l e).2).map fun e => (e.1, 2)

/-- Whether a traversal read what lies in a poisoned run, and whether that run's record is lost too (R153). -/
def walkPoison (c : Collection) (w : Walk) : Option Bool :=
  if c.map.poisoned.isEmpty then none
  else
    let r := w.reads c
    let hit := c.map.poisoned.filter fun p => r.contains (p.1, p.2.1)
    if hit.isEmpty then none else some (hit.any (·.2.2))

end Sys2Proof.Machine
end

