-- ==== Sys2Proof/Machine/Placement.lean ====
section
/-!
DEFINITION. The placement image: its tables, its checks, what it lays out (R246, R285, R286, R338–R343).
-/
namespace Sys2Proof.Machine

/-- A crew class descriptor (Table 9-3). -/
structure CrewClass where
  cls : Nat
  kind : Nat
  sameDie : Bool
  exclusive : Bool
  strands : Nat
  tiles : Nat
  poolFirst : Nat
  poolTiles : Nat
  pages : Nat
  fanout : Nat
  maxCrews : Nat
  itemBoundUs : Nat
  resident : Nat
  deriving DecidableEq, Repr

/-- A region entry (Table 14-2). -/
structure Region where
  kind : Nat
  stackMask : Nat
  base : Nat
  units : Nat
  owner : Nat
  sharedNo : Nat
  gib : Nat
  deriving DecidableEq, Repr

/-- A collection class entry (Table 14-3) with its scan set. -/
structure PlaceClass where
  searchCrew : Nat
  region : Nat
  tenantFirst : Nat
  tenantLast : Nat
  indexFirst : Nat
  indexLast : Nat
  scanOffset : Nat
  scanCount : Nat
  hostCache : Bool
  publish : Bool
  shared : Nat
  deriving DecidableEq, Repr

/-- Where a table entry lies in the image. -/
def crewAt (b : Bytes) (i : Nat) : Nat := field b 0x10 4 + 32 * i
/-- Where a region entry lies. -/
def regionAt (b : Bytes) (i : Nat) : Nat := field b 0x18 4 + 32 * i
/-- Where a class entry lies. -/
def classAt (b : Bytes) (i : Nat) : Nat := field b 0x20 4 + 32 * i
/-- PIMG.CREW_COUNT -/
def crewCount (b : Bytes) : Nat := field b 0x14 1
/-- PIMG.REGION_COUNT -/
def regionCount (b : Bytes) : Nat := field b 0x1C 2
/-- PIMG.CLASS_COUNT -/
def classCount (b : Bytes) : Nat := field b 0x1E 2

/-- Read crew class `i`. -/
def crewOf (b : Bytes) (i : Nat) : CrewClass :=
  let o := crewAt b i
  { cls := field b o 1, kind := field b (o + 1) 1, sameDie := bit (field b (o + 2) 1) 0
    exclusive := bit (field b (o + 2) 1) 1, strands := field b (o + 3) 1, tiles := field b (o + 4) 2
    poolFirst := field b (o + 6) 2, poolTiles := field b (o + 8) 2, pages := field b (o + 0xA) 1
    fanout := field b (o + 0xB) 1, maxCrews := field b (o + 0xC) 2, itemBoundUs := field b (o + 0xE) 2
    resident := field b (o + 0x10) 1 }

/-- Read region `i`. -/
def regionOf (b : Bytes) (i : Nat) : Region :=
  let o := regionAt b i
  { kind := field b (o + 2) 1, stackMask := field b (o + 4) 4, base := field b (o + 8) 2, units := field b (o + 0xA) 2
    owner := field b (o + 0xC) 2, sharedNo := field b (o + 0xE) 2, gib := field b (o + 0x10) 4 }

/-- Read collection class `i`. -/
def placeClassOf (b : Bytes) (i : Nat) : PlaceClass :=
  let o := classAt b i
  { searchCrew := field b (o + 1) 1, region := field b (o + 2) 2, tenantFirst := field b (o + 4) 2
    tenantLast := field b (o + 6) 2, indexFirst := field b (o + 8) 4, indexLast := field b (o + 0xC) 4
    scanOffset := field b (o + 0x10) 4, scanCount := field b (o + 0x14) 2, hostCache := bit (field b (o + 0x16) 1) 0
    publish := bit (field b (o + 0x16) 1) 1, shared := field b (o + 0x18) 2 }

/-- The NBUs of a scan set. -/
def scanSet (b : Bytes) (c : PlaceClass) : List Nat := (List.range c.scanCount).map fun i => field b (c.scanOffset + 2 * i) 2

/-- The stacks of a mask. -/
def maskStacks (m : Nat) : List Nat := (List.range 20).filter (bit m)

/-- HBM of a region in MiB (R338). -/
def regionMib (r : Region) : Nat := 4 * (maskStacks r.stackMask).length * r.units

/-- The sections that must not overlap one another: the header and the three tables (R285). -/
def placeSections (b : Bytes) : List (Nat × Nat × Nat) :=
  [(0, 0, 96), (0x10, field b 0x10 4, 32 * crewCount b), (0x18, field b 0x18 4, 32 * regionCount b),
   (0x20, field b 0x20 4, 32 * classCount b)]

/-- A section of the image lies inside it and clear of the header and the other tables. -/
def placeSectionOk (b : Bytes) (x : Nat × Nat × Nat) : Bool :=
  x.2.1 + x.2.2 ≤ b.length &&
    (placeSections b).all fun y => y.1 == x.1 || x.2.1 + x.2.2 ≤ y.2.1 || y.2.1 + y.2.2 ≤ x.2.1

/-- The first that fails of a list of checks, each an offset in the image and whether it holds. -/
def firstFault : List (Nat × Bool) → Option Nat
  | [] => none
  | (o, ok) :: t => if ok then firstFault t else some o

/-- The lowest offset at which a check fails (R48). -/
def leastFault (l : List (Nat × Bool)) : Option Nat := ((l.filter fun x => !x.2).map Prod.fst).min?

/-- Checks of one crew class entry (R246, Table 9-3). -/
def crewChecks (b : Bytes) (i : Nat) : List (Nat × Bool) :=
  let c := crewOf b i
  let o := crewAt b i
  [(o, c.cls == i), (o + 1, decide (c.kind ≤ 6)), (o + 2, decide (field b (o + 2) 1 < 4)),
   (o + 3, 1 ≤ c.strands && c.strands ≤ 64),
   (o + 4, 1 ≤ c.tiles && c.tiles ≤ c.poolTiles && (!c.sameDie || c.tiles ≤ 1024)),
   (o + 6, decide (c.poolFirst + c.poolTiles ≤ 4096) && (!c.sameDie || c.poolFirst / 1024 == (c.poolFirst + c.poolTiles - 1) / 1024)),
   (o + 8, 1 ≤ c.poolTiles && c.poolTiles ≤ 4096), (o + 0xA, 1 ≤ c.pages && c.pages + c.resident ≤ 252),
   (o + 0xB, c.fanout == 0 || (2 ≤ c.fanout && c.fanout ≤ 64)), (o + 0xC, decide (1 ≤ c.maxCrews)),
   (o + 0xE, 1 ≤ c.itemBoundUs && c.itemBoundUs ≤ 10000),
   (o + 0x10, decide (c.resident ≤ 188) && (List.range i).all fun j =>
      let d := crewOf b j
      d.poolFirst + d.poolTiles ≤ c.poolFirst || c.poolFirst + c.poolTiles ≤ d.poolFirst || d.resident == c.resident),
   (o + 0x11, zeroField b (o + 0x11) 15)]

/-- The crew classes of an image. -/
def crews (b : Bytes) : List CrewClass := (List.range (crewCount b)).map (crewOf b)

/-- Two HBM regions share a unit of a pseudo-channel. -/
def regionsShare (r q : Region) : Bool :=
  (maskStacks r.stackMask).any (fun x => bit q.stackMask x) && decide (r.base < q.base + q.units) && decide (q.base < r.base + r.units)

/-- Checks of one region entry (R339, Table 14-2); `node` is the loading module. -/
def regionChecks (b : Bytes) (node i : Nat) : List (Nat × Bool) :=
  let r := regionOf b i
  let o := regionAt b i
  let hbm := r.kind != 7
  let only := !(2 ≤ r.kind && r.kind ≤ 6) || (List.range i).all fun j => (regionOf b j).kind != r.kind
  [(o, field b o 2 == i), (o + 2, 1 ≤ r.kind && r.kind ≤ 7 && only), (o + 3, zeroField b (o + 3) 1),
   (o + 4, if hbm then r.stackMask != 0 && decide (r.stackMask < 2 ^ 20) else r.stackMask == 0),
   (o + 8, if hbm then decide (r.base + r.units ≤ 16383) && (List.range i).all (fun j =>
      (regionOf b j).kind == 7 || !regionsShare (regionOf b j) r) else r.base == 0),
   (o + 0xA, if hbm then 1 ≤ r.units && (r.kind != 2 || regionMib r == field b 0x24 4) &&
      (r.kind != 3 || regionMib r == field b 0x28 4) && (r.kind != 6 || 8 * 1024 ≤ regionMib r) else r.units == 0),
   (o + 0xC, if hbm then r.owner == 0 else decide (r.owner < 4096)),
   (o + 0xE, if hbm then r.sharedNo == 0 else decide (r.sharedNo < 256)),
   (o + 0x10, if hbm then r.gib == 0 else if r.owner == node then 1 ≤ r.gib && r.gib ≤ 65536 else r.gib == 0),
   (o + 0x14, zeroField b (o + 0x14) 12)]

/-- Checks of the NBU numbers of a scan set from offset `o` on: each in a stack of the region, and none twice; `seen` has the bits of those before (R340). -/
def scanChecks (mask : Nat) : Nat → Nat → List Nat → List (Nat × Bool)
  | _, _, [] => []
  | o, seen, n :: t => (o, bit mask (n / 64) && !bit seen n) :: scanChecks mask (o + 2) (seen ||| 2 ^ n) t

/-- Checks of one collection class entry (R340, Table 14-3). -/
def classChecks (b : Bytes) (node i : Nat) : List (Nat × Bool) :=
  let c := placeClassOf b i
  let o := classAt b i
  let r := regionOf b c.region
  let counted := 64 ≤ c.scanCount && c.scanCount ≤ 1280
  let section_ := placeSectionOk b (0xFFFF, c.scanOffset, 2 * c.scanCount)
  let set := if counted && section_ && decide (c.region < regionCount b) && r.kind == 1 then scanSet b c else []
  [(o, field b o 1 == i), (o + 1, decide (c.searchCrew < crewCount b) && (crewOf b c.searchCrew).kind == 0),
   (o + 2, decide (c.region < regionCount b) && r.kind == 1), (o + 4, decide (c.tenantFirst ≤ c.tenantLast)),
   (o + 6, decide (c.tenantLast ≤ 4095)), (o + 8, decide (c.indexFirst ≤ c.indexLast)),
   (o + 0xC, decide (c.indexLast ≤ 0xFFFFE)),
   (o + 0x10, !counted || section_),
   (o + 0x14, counted), (o + 0x16, decide (field b (o + 0x16) 1 < 4)),
   (o + 0x17, zeroField b (o + 0x17) 1),
   (o + 0x18, if c.publish then decide (c.shared < regionCount b) && (regionOf b c.shared).kind == 7 &&
      (regionOf b c.shared).owner == node else c.shared == 0),
   (o + 0x1A, zeroField b (o + 0x1A) 6)] ++
    scanChecks r.stackMask c.scanOffset 0 set

/-- The first fault of a placement image, from its start (R246, R285, R339, R340). -/
def placementFault (b : Bytes) (node loaded : Nat) : Option Nat :=
  let secs := placeSections b
  let kinds := (crews b).map CrewClass.kind
  let rkinds := (List.range (regionCount b)).map fun i => (regionOf b i).kind
  match firstFault [
      (0x00, 96 ≤ b.length && field b 0 4 == 0x474D4950), (0x04, field b 4 2 == 1), (0x06, zeroField b 6 2),
      (0x08, field b 8 4 != 0 && decide (loaded < field b 8 4)), (0x0C, field b 0xC 4 == b.length),
      (0x10, placeSectionOk b (secs.getD 1 (0, 0, 0))), (0x14, 1 ≤ crewCount b && crewCount b ≤ 64),
      (0x15, zeroField b 0x15 3), (0x18, placeSectionOk b (secs.getD 2 (0, 0, 0))),
      (0x1C, 1 ≤ regionCount b && regionCount b ≤ 1024), (0x1E, 1 ≤ classCount b && classCount b ≤ 256),
      (0x20, placeSectionOk b (secs.getD 3 (0, 0, 0))), (0x2C, zeroField b 0x2C 4),
      (0x30, slice b 0x30 48 == Config.sha384 (slice b 0 0x30 ++ zeros 48 ++ b.drop 0x60))] with
  | some o => some o
  | none =>
    if !([0, 3, 5, 6].all kinds.contains) then some 0x14
    else if !([2, 3, 4, 5, 6].all rkinds.contains) then some 0x1C
    else leastFault ((List.range (crewCount b)).flatMap (crewChecks b) ++
      (List.range (regionCount b)).flatMap (regionChecks b node) ++
      (List.range (classCount b)).flatMap (classChecks b node))

/-- The image in force; empty before the first. -/
def State.placeImage (s : State) : Bytes :=
  match s.models.placement with
  | some p => p.image
  | none => []

/-- PLACEMENT_GEN, 0 while no image is loaded. -/
def State.placementGen (s : State) : Nat :=
  match s.models.placement with
  | some p => p.gen
  | none => 0

/-- The lowest class that serves a tenant and collection index (R341). -/
def State.classFor (tenant index : Nat) (s : State) : Option Nat :=
  (List.range (classCount s.placeImage)).find? fun i =>
    let c := placeClassOf s.placeImage i
    c.tenantFirst ≤ tenant && tenant ≤ c.tenantLast && c.indexFirst ≤ index && index ≤ c.indexLast

/-- The lowest crew class of a kind. -/
def State.crewOfKind (k : Nat) (s : State) : Option Nat :=
  (List.range (crewCount s.placeImage)).find? fun i => (crewOf s.placeImage i).kind == k

/-- The region of a kind that an image has once, by index. -/
def kindRegion (b : Bytes) (k : Nat) : Option Nat :=
  (List.range (regionCount b)).find? fun i => (regionOf b i).kind == k

/-- The item and map space a region's collections have reserved (R103, R140). -/
def State.regionReserved (r : Nat) (s : State) : Nat :=
  ((s.index.collections.vals.filter fun c => (placeClassOf s.placeImage c.cls).region == r).map (·.reserved)).foldl (· + ·) 0

/-- Free bytes of a collection region. -/
def State.regionFree (r : Nat) (s : State) : Nat :=
  regionMib (regionOf s.placeImage r) * 1048576 - s.regionReserved r

/-- Bytes of the model region in use: live and retired generations and loads (R289, R291). -/
def State.modelBytes (s : State) : Nat :=
  ((s.models.gens.filter fun g => g.kind == .model).map (·.image.length)).foldl (· + ·) 0 +
    ((s.models.loads.filter fun l => l.kind == .model).map (·.total)).foldl (· + ·) 0

/-- Bytes of a sequence's page table: LAYERS × 128 entries of 8 bytes (R296). -/
def tableBytes (layers : Nat) : Nat := 8 * (layers * 128)

/-- Bytes of the KV region that commands have reserved: pages, and their sequences' page tables (R296, R297). -/
def State.kvBytes (s : State) : Nat :=
  (s.models.kv.map fun k => k.pages * k.pageBytes + (k.sequences.map fun q => tableBytes q.layers).sum).foldl (· + ·) 0

/-- The bytes of an entry of a table of the image. -/
def entryBytes (b : Bytes) (at_ : Nat) : Bytes := slice b at_ 32

/-- A region stands in the new image with identical bytes (R286, R343). -/
def keepsRegion (old new : Bytes) (i : Nat) : Bool :=
  decide (i < regionCount new) && entryBytes new (regionAt new i) == entryBytes old (regionAt old i)

/-- A class stands in the new image with identical bytes and scan set (R343). -/
def keepsClass (old new : Bytes) (i : Nat) : Bool :=
  decide (i < classCount new) && entryBytes new (classAt new i) == entryBytes old (classAt old i) &&
    scanSet new (placeClassOf new i) == scanSet old (placeClassOf old i)

/-- Regions that hold a live object (R286, R343). -/
def State.liveRegions (s : State) : List Nat :=
  let b := s.placeImage
  let k (n : Nat) (used : Bool) : List Nat := if used then (kindRegion b n).toList else []
  (s.index.collections.vals.map fun c => (placeClassOf b c.cls).region) ++ k 2 (s.modelBytes != 0) ++
    k 3 (!s.models.kv.isEmpty) ++ k 4 (!s.tables.tables.isEmpty) ++
    k 6 (!s.index.collections.isEmpty || !s.tiers.regions.isEmpty) ++
    ((List.range (regionCount b)).filter fun i => (regionOf b i).kind == 7 && s.tiers.objects.any (·.region == i))

/-- Crew class kinds a replacement image must keep (R246). -/
def State.keepsCrews (new : Bytes) (s : State) : Bool :=
  let kinds := (crews new).map CrewClass.kind
  (!(s.index.collections.vals.any fun c => c.desc.model != 0) || kinds.contains 1) &&
    (s.tables.tables.isEmpty || kinds.contains 4) &&
    (s.models.gens.filter fun g => g.kind == .model && !g.retired).all fun g =>
      (crewOf new (field g.image 0x2C 1)).kind == 2 && decide (field g.image 0x2C 1 < crewCount new)

/-- A new image may replace the one in force (R286, R343); the first always may. -/
def State.mayReplace (new : Bytes) (s : State) : Bool :=
  !s.placed ||
    (s.liveRegions.all (keepsRegion s.placeImage new) &&
      (s.index.collections.vals.all fun c => keepsClass s.placeImage new c.cls) && s.keepsCrews new &&
      decide (s.modelBytes ≤ field new 0x24 4 * 1048576) && decide (s.kvBytes ≤ field new 0x28 4 * 1048576))

end Sys2Proof.Machine
end

