-- ==== Sys2Proof/Machine/Crews.lean ====
section
/-!
DEFINITION. Tiles and crews: which tiles a crew takes, what waits for one, what a tile's failure does
(R238–R257, R229, R230, R441, R17).
-/
namespace Sys2Proof.Machine

/-- A logical tile is served by a working position and takes work. -/
def State.tileActive (t : Nat) (s : State) : Bool := (s.tiles.state.find t).isNone

/-- IDENTIFY.ACTIVE_TILES: logical tiles that are in service (R255). -/
def State.activeTiles (s : State) : Nat := 4096 - (s.tiles.state.vals.filter (· == .gone)).length

/-- The default position of a logical tile: die × 1,088 + row × 34 + column (R238). -/
def homePosition (t : Nat) : Nat := (t / 1024) * 1088 + (t % 1024) / 32 * 34 + (t % 32 + 1)

/-- The position that serves a logical tile. -/
def State.positionOf (t : Nat) (s : State) : Nat := s.tiles.map.getD t (homePosition t)

/-- The spare positions of a die: columns 0 and 33 of its 32 rows (R238). -/
def dieSpares (d : Nat) : List Nat :=
  (List.range 32).flatMap fun row => [d * 1088 + row * 34, d * 1088 + row * 34 + 33]

/-- The spares of a die that are free and good. -/
def State.freeSpares (d : Nat) (s : State) : List Nat :=
  (dieSpares d).filter fun p =>
    !s.tiles.failed.contains p && !s.tiles.map.vals.contains p &&
      !s.tiles.state.vals.any fun x => match x with | .substituting q _ => q == p | _ => false

/-- IDENTIFY.SPARES_LEFT (R255). -/
def State.sparesLeft (s : State) : Nat := ((List.range 4).map fun d => (s.freeSpares d).length).foldl (· + ·) 0

/-- Column and row of a position on its die. -/
def positionXY (p : Nat) : Nat × Nat := (p % 1088 % 34, p % 1088 / 34)

/-- Mesh hops between two positions of a die. -/
def meshHops (p q : Nat) : Nat :=
  let (x, y) := positionXY p
  let (u, v) := positionXY q
  (x - u) + (u - x) + (y - v) + (v - y)

/-- The spare that replaces a position (R253): the same row, the nearer column first; else the fewest hops, then the lower row. -/
def State.chooseSpare (p : Nat) (s : State) : Option Nat :=
  let free := s.freeSpares (p / 1088)
  let y := (positionXY p).2
  let best (l : List Nat) : Option Nat := l.foldl (fun a q =>
    match a with
    | none => some q
    | some r => if meshHops p q < meshHops p r ∨ (meshHops p q = meshHops p r ∧ (positionXY q).2 < (positionXY r).2) then some q
                else some r) none
  match best (free.filter fun q => (positionXY q).2 == y) with
  | some q => some q
  | none => best free

/-- Crews with a membership on a tile. -/
def State.crewsOn (t : Nat) (s : State) : List Crew := s.tiles.crews.filter (·.members.contains t)

/-- Strands of a tile that are free (R243). -/
def State.freeStrands (t : Nat) (s : State) : Nat := 64 - ((s.crewsOn t).map (·.strands)).foldl (· + ·) 0

/-- Working pages of a tile that are free, under R_p resident pages (R244, R245). -/
def State.freePages (resident t : Nat) (s : State) : Nat :=
  252 - resident - ((s.crewsOn t).map fun c => c.pages + (if c.lead == t then c.leadPages else 0)).foldl (· + ·) 0

/-- The active tiles of a class's pool. -/
def State.pool (c : CrewClass) (s : State) : List Nat :=
  ((List.range c.poolTiles).map (c.poolFirst + ·)).filter s.tileActive

/-- A tile can take one more membership of a class (R247, R441). -/
def State.canJoin (c : CrewClass) (t : Nat) (s : State) : Bool :=
  c.strands ≤ s.freeStrands t && c.pages ≤ s.freePages c.resident t &&
    (!c.exclusive || (s.crewsOn t).isEmpty) && (s.tiles.suspect.find t).isNone &&
    !((s.crewsOn t).any fun k => (crewOf s.placeImage k.cls).exclusive)

/-- Order of choice: the most free strands first, then the lower number (R247). -/
def State.tileBefore (s : State) (t u : Nat) : Bool :=
  decide (s.freeStrands u < s.freeStrands t) || (s.freeStrands t == s.freeStrands u && decide (t ≤ u))

/-- The member of a list with the most free working pages, the first of equals (R247, R254). -/
def State.roomiest (resident : Nat) (l : List Nat) (s : State) : Nat :=
  l.foldl (fun a t => if s.freePages resident a < s.freePages resident t then t else a) (l.headD 0)

/-- The members a crew of a class would take, and their lead (R247): the first in the order of choice, the last of them giving way to the first tile with
the lead's pages where none of them has these. -/
def State.chooseMembers (c : CrewClass) (leadPages : Nat) (s : State) : Option (List Nat × Nat) :=
  let pool := s.pool c
  let dieFree (d : Nat) : Nat := ((pool.filter (· / 1024 == d)).map fun t => s.freeStrands t).foldl (· + ·) 0
  let die := (List.range 4).foldl (fun a d => if dieFree a < dieFree d then d else a) 0
  let pool := if c.sameDie then pool.filter (· / 1024 == die) else pool
  let ok := sortBy (pool.filter fun t => s.canJoin c t) s.tileBefore
  let want := min c.tiles pool.length
  let roomy (t : Nat) : Bool := c.pages + leadPages ≤ s.freePages c.resident t
  let first := ok.take want
  let members := if first.any roomy then first else ok.take (want - 1) ++ ((ok.drop want).find? roomy).toList
  if want ≠ 0 ∧ members.length = want ∧ members.any roomy = true then some (members, s.roomiest c.resident members) else none

/-- The crew of a command. -/
def State.crewFor (m : Nat) (tag : Word) (s : State) : Option Crew := s.tiles.crews.find? fun c => c.mbx == m && c.tag == tag

/-- In Autumn drain new crews are formed for class D commands alone (R257). -/
def State.crewBarred (m : Nat) (tag : Word) (s : State) : Bool :=
  s.power.season == .drain && (s.flight m tag).any fun f => (opRow f.opcode).any (·.cls == .work)

/-- Form a crew of class `i`, described by `c`, for a command now, where a set of tiles is free (R247, R248). -/
def State.formCrewOf (c : CrewClass) (i leadPages m : Nat) (tag : Word) (s : State) : Option State :=
  if decide (c.maxCrews ≤ (s.tiles.crews.filter (·.cls == i)).length) || s.crewBarred m tag then none
  else match s.chooseMembers c leadPages with
    | some (members, lead) =>
      some { s with tiles.crews := s.tiles.crews ++
        [{ mbx := m, tag := tag, cls := i, members := members, order := members, fanout := c.fanout, lead := lead, strands := c.strands
           pages := c.pages, leadPages := leadPages }] }
    | none => none

/-- A crew class with its tiles as a command fixes them; 0 leaves CRD.TILES. -/
def classWith (c : CrewClass) (tiles : Nat) : CrewClass := if tiles = 0 then c else { c with tiles := tiles }

/-- Form a crew of class `i` for a command now. -/
def State.formCrew (i leadPages m : Nat) (tag : Word) (s : State) (tiles : Nat := 0) : Option State :=
  s.formCrewOf (classWith (crewOf s.placeImage i) tiles) i leadPages m tag

/-- The mean wait of a class's queue over the last 10 ms, in µs (R248). -/
def State.meanWaitUs (i : Nat) (s : State) : Nat :=
  let l := s.tiles.waits.filter fun w => w.1 == i && s.clock < w.2.1 + 10000000
  if l.isEmpty then 1 else (l.map (·.2.2)).foldl (· + ·) 0 / l.length / 1000

/-- Note that a wait in a class's queue has ended. -/
def State.noteWait (w : CrewWait) (s : State) : State :=
  { s with tiles.waits := (s.tiles.waits.filter fun x => s.clock < x.2.1 + 10000000) ++ [(w.cls, s.clock, s.clock - w.since)] }

/-- Give a command a crew of class `i` and go on with `k`; where none is free, it waits in the class's queue and its own
row runs again once CREW_FORM has found it one (R247, R248). A pool without an active tile is a unit failure, and is logged (R49). -/
def State.withCrew (i leadPages : Nat) (f : Flight) (k : State → Except Detail State) (s : State) (tiles : Nat := 0) : Except Detail State :=
  if (s.crewFor f.mbx f.tag).isSome then k s
  else if (s.pool (crewOf s.placeImage i)).isEmpty then .ok (((s.logUnit i).answerDetail f (noResources 0)).markLogged f)
  else
    let waiting := (s.tiles.queue.filter (·.cls == i)).length
    match if waiting = 0 then s.formCrew i leadPages f.mbx f.tag tiles else none with
    | some t => k t
    | none =>
      if 4096 ≤ waiting then .error (busyRetry (s.meanWaitUs i))
      else .ok (({ s with tiles.queue := s.tiles.queue ++
          [{ mbx := f.mbx, tag := f.tag, cls := i, leadPages := leadPages, since := s.clock, tiles := tiles }] } : State).setWork f (.crewWait i))

/-- The pages a lead takes for a selection of `n` candidates: none in direct mode (R245). -/
def selectionPages (n : Nat) (gated runAhead : Bool) : Nat :=
  if gated then (16 * n + 131072 + 4095) / 4096 + (if runAhead then (n + 255) / 256 else 0) else 0

/-- Charge a command's tile time, which the spec leaves unstated: a free value (R444). -/
def State.chargeTiles (t : Nat) (s : State) : State := let (n, s) := s.draw; s.charge t 0x28 n

/-- CREW_FORM (R247, R248): the first command in the class's queue obtains a crew, once tiles are free. -/
def execCrewForm (cls : Fin 64) (s : State) : Host.Outcome State Fault Refusal :=
  .next (match s.tiles.queue.find? (·.cls == cls.val) with
    | none => s
    | some w =>
      match s.formCrew cls.val w.leadPages w.mbx w.tag w.tiles with
      | none => s
      | some t => (({ t with tiles.queue := t.tiles.queue.erase w } : State).noteWait w).updFlight w.mbx w.tag fun f =>
          { f with work := .admitted })

/-- CREW_QUEUE_TIMEOUT (R248): a command that has waited 200 µs in the queue is answered BUSY_RETRY. -/
def execCrewQueueTimeout (cls : Fin 64) (s : State) : Host.Outcome State Fault Refusal :=
  .next (match s.tiles.queue.find? (·.cls == cls.val) with
    | none => s
    | some w =>
      if w.since + 200000 ≤ s.clock then
        match s.flight w.mbx w.tag with
        | some f => (s.noteWait w).answerDetail f (busyRetry (s.meanWaitUs cls.val))
        | none => { s with tiles.queue := s.tiles.queue.erase w }
      else s)

/-- Change the crew of a command. -/
def State.updCrew (m : Nat) (tag : Word) (g : Crew → Crew) (s : State) : State :=
  { s with tiles.crews := s.tiles.crews.map fun c => if c.mbx == m && c.tag == tag then g c else c }

/-- Items in a member's queue. -/
def Crew.queued (c : Crew) (t : Nat) : Nat := c.queues.getD t 0

/-- Levels of sub-crews of a crew: groups of FANOUT upwards until one level has FANOUT or fewer members, and at most 4 (R249, R251). -/
def Crew.levels (c : Crew) : Nat :=
  if c.fanout < 2 then 0 else ((List.range 5).find? fun l => c.order.length ≤ c.fanout ^ (l + 1)).getD 4

/-- The sub-crew of a member at a level, by number; at level 0 the member itself, above the last level the crew (R249). -/
def Crew.group (c : Crew) (l t : Nat) : Nat := if c.levels < l then 0 else c.order.idxOf t / c.fanout ^ l

/-- The member of a list with the most queued items, one on the die of tile `t` preferred (R229). -/
def Crew.busiest (c : Crew) (t : Nat) (l : List Nat) : Option Nat :=
  let most (l : List Nat) : Option Nat := l.foldl (fun a u =>
    match a with
    | none => if c.queued u = 0 then none else some u
    | some v => if c.queued v < c.queued u then some u else some v) none
  match most (l.filter (· / 1024 == t / 1024)) with
  | some u => some u
  | none => most l

/-- The member an idle one steals from: inside its innermost sub-crew first, then level by level from the sibling sub-crews (R229, R249). -/
def Crew.victim (c : Crew) (t : Nat) : Option Nat :=
  (List.range (c.levels + 1)).findSome? fun l => c.busiest t (c.members.filter fun u => u != t && c.group (l + 1) u == c.group (l + 1) t)

/-- WORK_STEAL (R229, R230, R252): a member whose queue is empty takes half the queue, rounded up, of the busiest member; a slow or retiring one takes no
new item. -/
def execWorkSteal (m : Mbx) (tag : Word) (tile : Fin 4096) (s : State) : Host.Outcome State Fault Refusal :=
  .next (match s.crewFor m.key tag with
    | none => s
    | some c =>
      if c.members.contains tile.val && c.queued tile.val == 0 && !c.slow.contains tile.val && s.tileActive tile.val then
        match c.victim tile.val with
        | some v =>
          let n := (c.queued v + 1) / 2
          s.updCrew m.key tag fun c => { c with queues := (c.queues.put v (c.queued v - n)).put tile.val n }
        | none => s
      else s)

/-- The median of a list, the lower one of two. -/
def median (l : List Nat) : Nat := let r := sortBy l fun a b => decide (a ≤ b); r.getD ((r.length - 1) / 2) 0

/-- A member is slow (R230, R249): it, or a sub-crew it belongs to, has completed less than half the median among its siblings. `rate` gives each member's
items of the last 100 µs. -/
def Crew.lags (c : Crew) (rate : Nat → Nat) (t : Nat) : Bool :=
  (List.range (c.levels + 1)).any fun l =>
    let sum (g : Nat) : Nat := ((c.members.filter fun u => c.group l u == g).map rate).foldl (· + ·) 0
    let siblings := ((c.members.filter fun u => c.group (l + 1) u == c.group (l + 1) t).map (c.group l)).eraseDups
    decide (2 * sum (c.group l t) < median (siblings.map sum))

/-- SLOW_MEMBER (R230, R441): a member below half the median receives no new items
for the rest of the command; the event counts toward the tile's mark. -/
def execSlowMember (m : Mbx) (tag : Word) (pace : MemberPace) (s : State) : Host.Outcome State Fault Refusal :=
  let tile := pace.tile
  let rate (t : Nat) : Nat := ((pace.rates.find? fun r => r.1.val == t).map (·.2)).getD 0
  .next (match s.crewFor m.key tag with
    | none => s
    | some c =>
      if c.members.contains tile.val && !c.slow.contains tile.val && c.lags rate tile.val then
        let s := s.updCrew m.key tag fun c => { c with slow := tile.val :: c.slow }
        { s with tiles.slowNamed := (tile.val, s.clock) :: s.tiles.slowNamed.filter fun x => s.clock < x.2 + 1000000000 }
      else s)

/-- Divide the items of a stage among the members that take new ones, in blocks of consecutive items, evenly (R229, R249). -/
def Crew.deal (takes : Nat → Bool) (n : Nat) (c : Crew) : Crew :=
  let l := c.members.filter fun t => takes t && !c.slow.contains t
  let share (i : Nat) : Nat := (i + 1) * n / max 1 l.length - i * n / max 1 l.length
  { c with items := n, queues := (l.mapIdx fun i t => (t, share i)).foldl (fun q e => q.put e.1 e.2) [] }

/-- A command's crew begins a stage of `n` work items (R229). -/
def State.stage (f : Flight) (n : Nat) (s : State) : State :=
  s.updCrew f.mbx f.tag fun c => { c with restarts := 0 }.deal s.tileActive n

/-- SUSPECT_TILE (R441): a tile named slow in 16 commands within 1 s takes no new membership for 10 minutes. -/
def execSuspectTile (tile : Fin 4096) (s : State) : Host.Outcome State Fault Refusal :=
  .next (if 16 ≤ (s.tiles.slowNamed.filter fun x => x.1 == tile.val && s.clock < x.2 + 1000000000).length &&
      (s.tiles.suspect.find tile.val).isNone then
    ({ s with tiles.suspect := s.tiles.suspect.put tile.val (s.clock + 600000000000) } : State).logKind 8 tile.val
  else s)

/-- SUSPECT_TILE_EXPIRE (R441): ten minutes later the mark lifts. -/
def execSuspectTileExpire (tile : Fin 4096) (s : State) : Host.Outcome State Fault Refusal :=
  .next (match s.tiles.suspect.find tile.val with
    | some t => if t ≤ s.clock then { s with tiles.suspect := s.tiles.suspect.del tile.val } else s
    | none => s)

/-- A crew goes on without a member (R254): a lost lead is replaced by the roomiest member, and the lost member's items go to one that takes new ones, or,
where the stage's state was lost with it, the stage begins again. A crew of one takes the tiles that R247 gives it now. -/
def State.withoutMember (t : Nat) (restart : Bool) (c : Crew) (s : State) : Crew :=
  let cls := crewOf s.placeImage c.cls
  let rest := c.members.filter (· != t)
  let members := if rest.isEmpty then (s.chooseMembers { cls with tiles := 1 } c.leadPages).elim [] (·.1) else rest
  let takes (u : Nat) : Bool := s.tileActive u && u != t
  let d := { c with members := members, lead := if c.lead == t then s.roomiest cls.resident members else c.lead }
  if restart then { d with restarts := c.restarts + 1 }.deal takes c.items
  else
    let heir := ((members.filter fun u => takes u && !c.slow.contains u) ++ members).headD 0
    { d with queues := (c.queues.put heir (c.queued heir + c.queued t)).del t }

/-- A tile leaves the crews it served; `lost` names the commands whose stage state lived only on it. A stage that would restart a third time ends its
command DATA_DAMAGED (R254). -/
def State.loseMember (t : Nat) (lost : List (Nat × Word)) (s : State) : State :=
  (s.crewsOn t).foldl (fun s c =>
    let d := s.withoutMember t (lost.contains (c.mbx, c.tag)) c
    let s := s.updCrew c.mbx c.tag fun _ => d
    if 3 ≤ d.restarts then
      match s.flight c.mbx c.tag with
      | some f => s.dataLost f
      | none => s
    else s) s

/-- A logical number leaves service with an event; below 3,584 active tiles a replacement event is raised (R255). -/
def State.tileGone (t : Nat) (s : State) : State :=
  let s := ({ s with tiles.state := s.tiles.state.put t .gone } : State).logUnit t
  if s.activeTiles < 3584 then (s.logKind 5 t).emit (.event 5 t) else s

/-- A logical tile's position is declared failed: recorded, and a spare begins to load, or the number leaves service (R253, R255, R256); during a
power-loss flush it is only noted (R257). -/
def State.substitute (t : Nat) (s : State) : State :=
  let p := s.positionOf t
  if s.power.season == .powerLoss then { s with tiles.unrecorded := p :: s.tiles.unrecorded }
  else
    let spare := s.chooseSpare p
    let s := { s with tiles.failed := p :: s.tiles.failed }
    match spare with
    | some q => { s with tiles.state := s.tiles.state.put t (.substituting q s.clock) }
    | none => s.tileGone t

/-- The logical number that a position serves. -/
def State.logicalAt (p : Nat) (s : State) : Option Nat :=
  match s.tiles.map.find? fun e => e.2 == p with
  | some e => some e.1
  | none =>
    let x := p % 34
    let t := p / 1088 * 1024 + p % 1088 / 34 * 32 + (x - 1)
    if 1 ≤ x && x ≤ 32 && (s.tiles.map.find t).isNone then some t else none

/-- The substitutions under way are complete; a number out of service stays so (R253, R256). -/
def State.settleTiles (s : State) : State :=
  let moved := s.tiles.state.filterMap fun e => match e.2 with | .substituting q _ => some (e.1, q) | _ => none
  { s with
    tiles.map := moved.foldl (fun m e => m.put e.1 e.2) s.tiles.map
    tiles.state := s.tiles.state.filter fun e => e.2 == .gone }

/-- The self-test of every tile position in Spring (R252, R257): positions that fail, or failed before, are recorded, and the number each serves moves to a
spare before the die takes work. -/
def State.selfTest (bad : List (Fin 4352)) (s : State) : State :=
  let worn := s.tiles.state.filterMap fun e => if e.2 == .retiring then some (s.positionOf e.1) else none
  let s := s.settleTiles
  let failed := (bad.map (·.val) ++ worn).filter fun p => !s.tiles.failed.contains p
  let s := { s with tiles.failed := failed ++ s.tiles.failed }
  s.tiles.failed.foldl (fun s p =>
    match s.logicalAt p with
    | some t =>
      if !s.tileActive t then s
      else match s.chooseSpare p with
        | some q => ({ s with tiles.map := s.tiles.map.put t q } : State).logUnit t
        | none => s.tileGone t
    | none => s) s

/-- The positions that fail the self-test of a wake (R257): any set of them, since which tile fails is the world's (free; DESIGN CHOICE, log entry 181). -/
def State.wakeTest (s : State) : List (Fin 4352) × State :=
  let (n, s) := s.draw
  ((List.finRange 4352).filter fun p => n.testBit p.val, s)

/-- How a tile was found wanting is a failure (R252). -/
def State.faultHolds (c : TileFault) (s : State) : Bool :=
  match c with
  | .store | .router => true
  | .overrun cls ns => decide (16000 * (crewOf s.placeImage cls.val).itemBoundUs < ns)
  | .silent ns => decide (1000000 ≤ ns)

/-- TILE_FAILED (R252, R254): the items of the tile's memberships go back to their crews, and the number is substituted. -/
def execTileFailed (tile : Fin 4096) (loss : TileLoss) (s : State) : Host.Outcome State Fault Refusal :=
  .next (match s.tiles.state.find tile.val with
    | some .gone => s
    | some (.substituting _ _) => s
    | _ => if s.faultHolds loss.cause then ((s.logUnit tile.val).loseMember tile.val (loss.lost.map fun x => (x.1.key, x.2))).substitute tile.val else s)

/-- TILE_RETIRE (R252): a tile with 16 corrected errors within one hour takes no new items; it is substituted once the
memberships it has are done. The operand is a corrected error reported by the tile. -/
def execTileRetire (tile : Fin 4096) (s : State) : Host.Outcome State Fault Refusal :=
  let hour := 3600000000000
  let seen := (tile.val, s.clock) :: s.tiles.corrected.filter fun x => s.clock < x.2 + hour
  let s := { s with tiles.corrected := seen }
  .next (match s.tiles.state.find tile.val with
    | some .retiring => if (s.crewsOn tile.val).isEmpty then s.substitute tile.val else s
    | some _ => s
    | none =>
      if 16 ≤ (seen.filter (·.1 == tile.val)).length then
        let s := s.logUnit tile.val
        if (s.crewsOn tile.val).isEmpty then s.substitute tile.val
        else { s with tiles.state := s.tiles.state.put tile.val .retiring }
      else s)

/-- SPARE_SUBSTITUTED (R253, Table 9-5): 45 µs after the failure the spare has loaded and takes the logical number. -/
def execSpareSubstituted (tile : Fin 4096) (s : State) : Host.Outcome State Fault Refusal :=
  .next (match s.tiles.state.find tile.val with
    | some (.substituting q t) =>
      if t + 45000 ≤ s.clock then
        { s with tiles.map := s.tiles.map.put tile.val q, tiles.state := s.tiles.state.del tile.val
                 tiles.corrected := s.tiles.corrected.filter (·.1 != tile.val) }
      else s
    | some .retiring => if (s.crewsOn tile.val).isEmpty then s.substitute tile.val else s
    | _ => s)

/-- FLIT_RETRY_EXHAUSTED (R17): every command whose data the flit carried ends DATA_DAMAGED, the link goes down, its traffic
is rerouted, and the event is logged. -/
def execFlitRetryExhausted (bridge : Fin 28) (carried : List (Mbx × Word)) (s : State) : Host.Outcome State Fault Refusal :=
  let s := carried.foldl (fun s x =>
    match s.flight x.1.key x.2 with
    | some f => s.dataLost f
    | none => s) s
  .next (if s.tiles.bridgesDown.contains bridge.val then s
    else ({ s with tiles.bridgesDown := bridge.val :: s.tiles.bridgesDown
                   tiles.rerouting := bridge.val :: s.tiles.rerouting } : State).logUnit bridge.val)

/-- BRIDGE_REROUTE (R242): once the old route has drained, the held messages go on the new one. -/
def execBridgeReroute (bridge : Fin 28) (s : State) : Host.Outcome State Fault Refusal :=
  .next { s with tiles.rerouting := s.tiles.rerouting.filter (· != bridge.val) }

end Sys2Proof.Machine
end

