-- ==== Sys2Proof/Machine/Filters.lean ====
section
/-!
DEFINITION. Attribute fields and filters (R102, R106, R154–R156).
-/
namespace Sys2Proof.Machine

/-- Read one field descriptor (Table 4-2). -/
def readFieldDesc (b : Bytes) : FieldDesc where
  kind := field b 0 1
  area := bit (field b 1 1) 0
  offset := field b 2 1
  width := field b 3 1

/-- A field lies wholly inside its area, and its kind fits it (R102). -/
def fieldInside (extBytes : Nat) (f : FieldDesc) : Bool :=
  if f.area then
    1 ≤ f.width && f.offset + f.width ≤ extBytes && (f.kind == 4 || f.width ≤ 8)
  else f.kind != 4 && 1 ≤ f.width && f.offset + f.width ≤ 64

/-- Two fields overlap. -/
def fieldsOverlap (f g : FieldDesc) : Bool :=
  f.area == g.area && f.offset < g.offset + g.width && g.offset < f.offset + f.width

/-- Bit i of the packed word is covered by a field (R106). -/
def packedCovered (fs : List FieldDesc) (i : Nat) : Bool :=
  fs.any fun f => f.kind != 0 && !f.area && f.offset ≤ i && i < f.offset + f.width

/-- Byte i of the extended bytes is covered by a field (R106). -/
def extCovered (fs : List FieldDesc) (i : Nat) : Bool :=
  fs.any fun f => f.kind != 0 && f.area && f.offset ≤ i && i < f.offset + f.width

/-- The value of a field as an unsigned number (R155). -/
def fieldValue (f : FieldDesc) (packed : Nat) (ext : Bytes) : Nat :=
  if f.area then field ext f.offset f.width else bits packed f.offset (f.offset + f.width - 1)

/-- The width of a field's value in bits. -/
def fieldBits (f : FieldDesc) : Nat := if f.area then 8 * f.width else f.width

/-- The operators KIND permits (Table 5-7). -/
def opPermitted (kind op : Nat) : Bool :=
  if op == 1 || op == 2 then kind == 1 || kind == 2 || kind == 3
  else if 3 ≤ op && op ≤ 7 then kind == 1 || kind == 2
  else if 8 ≤ op && op ≤ 10 then kind == 3
  else if op == 11 || op == 12 then kind == 4
  else false

/-- One predicate (Table 5-6). -/
structure Pred where
  field : Nat
  op : Nat
  group : Nat
  neg : Bool
  len : Nat
  a : Nat
  b : Nat
  deriving DecidableEq, Repr

/-- Read one predicate. -/
def readPred (b : Bytes) : Pred where
  field := Sys2Proof.Machine.field b 0 1 % 16
  op := Sys2Proof.Machine.field b 1 1
  group := Sys2Proof.Machine.field b 2 1 % 32
  neg := bit (Sys2Proof.Machine.field b 2 1) 7
  len := Sys2Proof.Machine.field b 3 1
  a := Sys2Proof.Machine.field b 8 8
  b := Sys2Proof.Machine.field b 16 8

/-- The predicates of a filter. -/
def readPreds (b : Bytes) : List Pred := (records 24 (b.length / 24) b).map readPred

/-- A value under the order of its KIND (R155). -/
def ordered (kind n v : Nat) : Int := if kind == 2 then signed n v else v

/-- The operand of a comparison under the order of its KIND: 64 bits (R155). -/
def orderedOperand (kind v : Nat) : Int := if kind == 2 then signed 64 v else v

/-- One predicate of a filter is well formed (R154, R155): the first field that offends, by offset in the predicate. -/
def predFault (fs : List FieldDesc) (b : Bytes) : Option Nat :=
  let p := readPred b
  let f := fs.getD p.field { kind := 0, area := false, offset := 0, width := 0 }
  if 16 ≤ field b 0 1 ∨ f.kind = 0 then some 0
  else if 1 ≤ p.op && p.op ≤ 12 && !opPermitted f.kind p.op then some 0
  else if p.op == 7 && decide (orderedOperand f.kind p.b < orderedOperand f.kind p.a) then some 0
  else if p.op == 12 && decide (8 < f.width) then some 0
  else if p.op == 11 && decide (f.width < p.len) then some 0
  else if !(1 ≤ p.op && p.op ≤ 12) then some 1
  else if bits (field b 2 1) 5 6 ≠ 0 then some 2
  else if (p.op == 11 && !(1 ≤ p.len && p.len ≤ 8)) || (p.op != 11 && p.len != 0) then some 3
  else if !zeroField b 4 4 then some 4
  else if p.op != 7 && p.b != 0 then some 16
  else none

/-- The first offending offset in a list of predicates that begins at offset `o` (R155). -/
def predsFault (fs : List FieldDesc) : Nat → List Bytes → Option Nat
  | _, [] => none
  | o, b :: t =>
    match predFault fs b with
    | some i => some (o + i)
    | none => predsFault fs (o + 24) t

/-- The highest GROUP used. -/
def topGroup (ps : List Pred) : Nat := ps.foldl (fun m p => max m p.group) 0

/-- Every group from 0 to the highest used holds a predicate (R156); otherwise the index of the first predicate that carries the
highest GROUP. -/
def groupFault (ps : List Pred) : Option Nat :=
  if ps.isEmpty || (List.range (topGroup ps + 1)).all (fun g => ps.any (·.group == g)) then none
  else some (ps.findIdx fun p => p.group == topGroup ps)

/-- A filter of `n` predicates that begins at packet offset `o` in `b`: BAD_FIELD at the first byte that offends (R48, R154–R156). -/
def checkFilter (fs : List FieldDesc) (o n : Nat) (b : Bytes) : Except Detail Unit :=
  match predsFault fs o (records 24 n b), groupFault ((records 24 n b).map readPred) with
  | some i, some g => .error (bad (min i (o + 24 * g + 2)))
  | some i, none => .error (bad i)
  | none, some g => .error (bad (o + 24 * g + 2))
  | none, none => .ok ()

/-- A predicate's own truth, before NOT (Table 5-7). -/
def predBase (f : FieldDesc) (p : Pred) (packed : Nat) (ext : Bytes) : Bool :=
  let v := fieldValue f packed ext
  let x := ordered f.kind (fieldBits f) v
  let a := orderedOperand f.kind p.a
  let b := orderedOperand f.kind p.b
  match p.op with
  | 1 => if f.kind == 3 then v == p.a else x == a
  | 2 => if f.kind == 3 then v != p.a else x != a
  | 3 => x < a
  | 4 => x ≤ a
  | 5 => a < x
  | 6 => a ≤ x
  | 7 => a ≤ x && x ≤ b
  | 8 => Nat.land v p.a != 0
  | 9 => Nat.land v p.a == p.a
  | 10 => Nat.land v p.a == 0
  | 11 => slice ext f.offset p.len == leBytes p.len p.a
  | 12 => slice ext f.offset f.width == leBytes f.width p.a
  | _ => false

/-- A predicate on an item (R156: NOT inverts). -/
def predTrue (fs : List FieldDesc) (p : Pred) (packed : Nat) (ext : Bytes) : Bool :=
  let f := fs.getD p.field { kind := 0, area := false, offset := 0, width := 0 }
  p.neg != predBase f p packed ext

/-- An item passes a filter: every group holds a true predicate (R156). -/
def passes (fs : List FieldDesc) (ps : List Pred) (packed : Nat) (ext : Bytes) : Bool :=
  ps.isEmpty || (List.range (topGroup ps + 1)).all fun g => ps.any fun p => p.group == g && predTrue fs p packed ext

end Sys2Proof.Machine
end

