-- ==== Sys2Proof/Machine/Seals.lean ====
section
/-!
DEFINITION. Key derivations and seals (chapter 3): PRK_t, CK(c,g), LK(c), KCV; the SEAL format; tags, BIND and tweaks; the hybrid KEM and HPKE's info
(R70–R74, R79, R81, R83, R85, R86).
-/
namespace Sys2Proof.Machine

/-- ASCII bytes of a label (R73). -/
def ascii (t : String) : Bytes := t.toList.map fun c => BitVec.ofNat 8 c.toNat

/-! ### Derivations (R73) -/

/-- PRK_t of a TRK (R73). -/
def tenantPrk (trk : Bytes) : Bytes := Config.hkdfExtract (ascii "TRB-SN4 tenant") trk

/-- CK(c,g): bytes 0–63 the XTS key pair, bytes 64–95 the tag key (R73). -/
def collectionKey (trk : Bytes) (c g : Nat) : Bytes := Config.hkdfExpand (tenantPrk trk) (ascii "TRB-SN4 ck" ++ leBytes 4 c ++ leBytes 2 g) 96

/-- LK(c) (R73). -/
def logKey (trk : Bytes) (c : Nat) : Bytes := Config.hkdfExpand (tenantPrk trk) (ascii "TRB-SN4 lk" ++ leBytes 4 c) 32

/-- The key check value of a TRK (R73). -/
def kcv (trk : Bytes) : Bytes := slice (Config.hkdfExpand (tenantPrk trk) (ascii "TRB-SN4 kcv") 48) 0 8

/-- The TRK of a tenant under a KEY_ID (R84). -/
def State.trk (t : Nat) (k : Word) (s : State) : Option Trk := s.keys.trks.find? fun x => x.tenant == t && x.keyId == k

/-- The TRK of a generation of a collection, where the module holds it (R92). -/
def State.genTrk (coll gen : Nat) (s : State) : Option Bytes :=
  (s.index.collections.find coll).bind fun c => (c.gens.find? (·.1 == gen)).bind fun g => (s.trk (coll % 2 ^ 32 / 2 ^ 20) g.2.1).map (·.key)

/-- CK(c,g) of a collection generation; where its TRK is not held, the key its content was sealed under all the same. -/
def State.sectorKey (coll gen : Nat) (s : State) : Bytes :=
  match s.genTrk coll gen with
  | some k => collectionKey k (coll % 2 ^ 32) gen
  | none => Config.goneKey coll gen

/-! ### Tags, BIND and tweaks (R74) -/

/-- A 4 KiB unit under a 96-byte key: XTS ciphertext, then the first 16 bytes of HMAC-SHA-384(tag key, BIND ∥ ciphertext) (R74). -/
def sealUnit (key bind tweak plain : Bytes) : Bytes :=
  let c := Config.xts (key.take 64) tweak plain
  c ++ (Config.hmac (key.drop 64) (bind ++ c)).take 16

/-- A 128-bit tweak from its halves [63:0] and [127:64], least significant byte first (R74). -/
def tweakOf (low high : Nat) : Bytes := leBytes 8 low ++ leBytes 8 high

/-- A sector of a collection's segment as it lies in flash or the shared tier, 4,112 bytes (R74, R354, Table 16-25). -/
def State.storedSector (coll gen seg sector : Nat) (s : State) : Bytes :=
  sealUnit (s.sectorKey coll gen) (leBytes 4 coll ++ leBytes 2 gen ++ zeros 2 ++ leBytes 8 seg ++ leBytes 8 sector) (tweakOf sector seg)
    (Config.sectorPlain coll gen seg sector)

/-- A host-tier page as it is written, 4,096 bytes and its tag: region, page, version (R74, R347). -/
def State.sealedPage (region page version : Nat) (plain : Bytes) (s : State) : Bytes :=
  sealUnit (Config.hostTierKey s.keys.htkDraws) (leBytes 4 region ++ zeros 4 ++ leBytes 8 page ++ leBytes 8 version) (tweakOf page (region * 2 ^ 32)) plain

/-- A unit of the module's own content in flash: the object's kind and sequence, and the unit's index (R74). -/
def sealedOwn (kind : Word) (seq unit : Nat) (plain : Bytes) : Bytes :=
  sealUnit Config.storageKey (leBytes 4 kind.toNat ++ zeros 4 ++ leBytes 8 seq ++ leBytes 8 unit) (tweakOf unit seq) plain

/-! ### The SEAL format (R86) -/

/-- A payload under a key as SEAL.SEQ ∥ SEAL.CT ∥ SEAL.TAG: nonce SEQ(8) ∥ DIR(4) with DIR 1, and the header with its CRC as 0 for additional data
(R86, Table 3-7). -/
def sealedPayload (key : Bytes) (seq : Nat) (header plain : Bytes) : Bytes :=
  leBytes 8 seq ++ Config.gcm key (leBytes 8 seq ++ leBytes 4 1) (slice header 0 0x14 ++ zeros 4 ++ slice header 0x18 8) plain

/-! ### HPKE (R81) -/

/-- The shared secret of the Traburi hybrid KEM from KW.ENC, ct1 of 1,568 bytes and enc2 of 97 (R81). -/
def hybridSecret (enc : Bytes) : Bytes :=
  Config.sha384 (ascii "TRB-SN4 hybrid v1" ++ Config.mlkem (slice enc 0 1568) ++ Config.dhkem (slice enc 1568 97) ++ slice enc 0 1568 ++ slice enc 1568 97)

/-- The shared secret of an encapsulation the module itself has made (R81, R398). -/
def ownSecret (n : Nat) : Bytes :=
  Config.sha384 (ascii "TRB-SN4 hybrid v1" ++ (Config.encapSecrets n).1 ++ (Config.encapSecrets n).2 ++ Config.encapsulation n)

/-- HPKE info: "TRB-SN4 " ∥ OP ∥ HDR.TENANT ∥ IKC.SERIAL (R81). -/
def hpkeInfo (op : String) (tenant : Half) : Bytes := ascii "TRB-SN4 " ++ ascii op ++ leBytes 2 tenant.toNat ++ leBytes 8 Config.serial.toNat

/-- The exporter secret of the context that a wrapped payload's KW.ENC opens (R81, R83, R85). -/
def wrappedSecret (op : String) (f : Flight) : Bytes := Config.hpkeSecret (hybridSecret (slice f.plain 8 1665)) (hpkeInfo op f.hdr.tenant)

end Sys2Proof.Machine
end

