-- ==== Sys2Proof/Machine/FlashOps.lean ====
section
/-!
DEFINITION. The flash map: logical units, the journal, bands and their allocation, unmapping, what media management counts
(R361–R371, R376–R379).
-/
namespace Sys2Proof.Machine

/-- Bytes of a unit (R361). -/
def unitBytes : Nat := 65536

/-- A quad-block's key, and its parts: die position (channel × 16 + die) and block. -/
def quadKey (die block : Nat) : Nat := die * 8192 + block
/-- The die position of a quad-block. -/
def quadDie (q : Nat) : Nat := q / 8192
/-- The block of a quad-block. -/
def quadBlock (q : Nat) : Nat := q % 8192
/-- The channel of a quad-block. -/
def quadChannel (q : Nat) : Nat := q / 8192 / 16

/-- A die position. -/
def State.die (d : Nat) (s : State) : Die := s.flash.dies.getD d {}
/-- Change a die position. -/
def State.updDie (d : Nat) (g : Die → Die) (s : State) : State := { s with flash.dies := s.flash.dies.put d (g (s.die d)) }
/-- A quad-block. -/
def State.quad (q : Nat) (s : State) : QuadBlock := s.flash.quads.getD q {}
/-- Change a quad-block. -/
def State.updQuad (q : Nat) (g : QuadBlock → QuadBlock) (s : State) : State :=
  { s with flash.quads := s.flash.quads.put q (g (s.quad q)) }

/-- The die positions that the population occupies. -/
def State.positions (s : State) : List Nat :=
  (List.range 1024).filter fun d => d % 16 < s.flash.perChannel && (s.die d).state < 3

/-- Dies that take data. -/
def State.activeDies (s : State) : List Nat := s.positions.filter fun d => (s.die d).state == 0

/-- The SLC bit of an entry and where it lies (Table 15-5). -/
def mapEntry (slc : Bool) (q page wseq : Nat) : Nat :=
  1 + 2 * flag slc + 4 * quadChannel q + 256 * (quadDie q % 16) + 4096 * quadBlock q + 2 ^ 25 * page + 2 ^ 37 * (wseq % 2 ^ 27)

/-- The quad-block an entry names. -/
def entryQuad (e : Nat) : Nat := quadKey (bits e 2 7 * 16 + bits e 8 11) (bits e 12 24)

/-- Record a media event; the newest 256 are kept (R390). -/
def State.media (kind q : Nat) (s : State) : State :=
  { s with flash.events := ({ time := s.fabTime, kind := kind, channel := quadChannel q, die := quadDie q % 16, block := quadBlock q }
      :: s.flash.events).take 256 }

/-- What a read that counts leaves at the flash besides the read count of its quad-block (R226, R374): a refresh to come, and counters. -/
def State.readEffects (quad : Nat) (step : ReadStep) (mismatch : Bool) (s : State) : State :=
  let day := 86400000000000
  let s := if step == .hard || step == .badTag then s else s.updQuad quad fun b => { b with weak := true }
  let s := if mismatch then s.media 10 quad else s
  match step with
  | .retry | .soft => s.updDie (quadDie quad) fun d => { d with retries := s.clock :: d.retries.filter fun t => s.clock < t + day }
  | .reconstruct => ({ s with flash.reconstructed := s.flash.reconstructed + 1 } : State).media 4 quad
  | .damaged | .failed => s.media 5 quad
  | _ => s

/-! ### Reads outstanding in a host region -/

/-- The outstanding reads of a command: those its result waits for, or refine reads started early. -/
def readsOf (f : Flight) : List Read :=
  match f.work with
  | .reads l _ => l
  | .search r => r.prefetch
  | _ => []

/-- No command has an access outstanding in a region, and none has left one behind. -/
def State.regionQuiet (r : Nat) (s : State) : Bool :=
  !(s.host.flights.any fun f => (readsOf f).any fun x => x.tier == .host r && x.lost.isNone) &&
    !s.index.squashed.any fun x => x.read.tier == .host r && x.read.lost.isNone

/-- The slots of a region whose content is superseded are free again, once no read is issued against them (R347). -/
def State.reclaimSlots (r : Nat) (s : State) : State :=
  if s.regionQuiet r then { s with tiers.regions := s.tiers.regions.upd r fun x => { x with live := x.live.keep fun _ p => !p.stale } } else s

/-- A host-tier page is written as one unit of data and tag, under the next version of the module-wide counter (R74, R345, R347). -/
def State.writeHostPage (region slot : Nat) (plain : Bytes) (s : State) : State :=
  match s.tiers.regions.find region with
  | none => s
  | some x =>
    let b := s.sealedPage region slot s.tiers.version plain
    s.emit (.hostPage (x.base + 4096 * slot) (b.take 4096) (x.base + 4096 * x.pages + 16 * slot) (b.drop 4096))

/-- The copy of a map page in a MAP region is superseded (R21, R347). -/
def State.dropHostPage (p : Nat) (s : State) : State :=
  match s.flash.hostPages.find p with
  | none => s
  | some g =>
    let mark (x : HostRegion) : HostRegion := { x with live := x.live.each fun y => if y.sector == p then { y with stale := true } else y }
    ({ s with flash.hostPages := s.flash.hostPages.del p, tiers.regions := s.tiers.regions.upd g mark } : State).reclaimSlots g

/-- The trailing p99 of the read latency of a channel, over 1 s (R235, R375, Table 8-4); none while nothing has been read. -/
def State.p99 (channel : Nat) (s : State) : Option Nat :=
  let l := ((s.flash.latencies.getD channel []).filter fun x => s.clock < x.1 + 1000000000).map (·.2)
  if l.isEmpty then none else some ((sortBy l fun a b => decide (a ≤ b)).getD ((l.length * 99 + 99) / 100 - 1) 0)

/-! ### The map -/

/-- The map page of a logical unit (R364). -/
def mapPage (unit : Nat) : Nat := unit / 512

/-- Append a journal record and change the map: the page becomes the most recently used and dirty (R365, R368). -/
def State.mapUnit (unit : Nat) (m : Option Mapped) (s : State) : State :=
  let old := s.flash.map.find unit
  let r : JournalRecord := { unit := unit, op := if m.isSome then 1 else 2, entry := m.elim 0 (·.entry), before := old }
  let p := mapPage unit
  let s := match old with
    | some o => s.updQuad (entryQuad o.entry) fun b => { b with emptied := s.clock }
    | none => s
  let s := s.dropHostPage p
  { s with
    flash.map := match m with | some x => s.flash.map.put unit x | none => s.flash.map.del unit
    flash.journal := s.flash.journal ++ [r]
    flash.journalSince := if s.flash.journal.isEmpty then s.clock else s.flash.journalSince
    flash.hbmPages := p :: s.flash.hbmPages.filter (· != p)
    flash.dirty := if s.flash.dirty.contains p then s.flash.dirty else p :: s.flash.dirty
    flash.lostUnits := s.flash.lostUnits.filter (· != unit)
    flash.ckpt := s.flash.ckpt.map fun c => { c with changed := if c.changed.contains p then c.changed else p :: c.changed } }

/-- A map page is pinned in HBM: it covers JOURNAL, LOG or SYSTEM units (R365). -/
def State.pinnedPage (p : Nat) (s : State) : Bool :=
  s.flash.map.any fun e => mapPage e.1 == p && (match s.flash.bands.find e.2.band with
    | some b => b.stream == .journal || b.stream == .log || b.stream == .system
    | none => false)

/-- Map pages that the KIND 5 region holds. -/
def State.mapCapacity (s : State) : Nat :=
  match kindRegion s.placeImage 5 with
  | some i => regionMib (regionOf s.placeImage i) * 256
  | none => 0

/-- Map updates of units find their pages in HBM or room for them; else they wait until pages have left (R367). Before the first placement image nothing
bounds the pages. -/
def State.mapRoom (units : List Nat) (s : State) : Bool :=
  !s.placed || decide (((units.map mapPage).filter fun p => !s.flash.hbmPages.contains p).eraseDups.length + s.flash.hbmPages.length ≤ s.mapCapacity)

/-- A map page is looked at: it is in HBM, the most recently used; where there is no room, a clean page that is not pinned gives way, the least recently used,
and where there is none the page is not kept (R365, R367). -/
def State.touchPage (p : Nat) (s : State) : State :=
  let rest := s.flash.hbmPages.filter (· != p)
  if s.flash.hbmPages.contains p || !s.placed || decide (rest.length < s.mapCapacity) then { s with flash.hbmPages := p :: rest }
  else match rest.reverse.find? fun q => !s.pinnedPage q && !s.flash.dirty.contains q with
    | some q => { s with flash.hbmPages := p :: rest.filter (· != q) }
    | none => s

/-- The units of an object, in the order of its list (R361). -/
def State.unitsOf (coll seg : Nat) (s : State) : List (Nat × Mapped) :=
  sortBy (s.flash.map.filter fun e => e.2.object == (coll, seg)) fun a b => decide (a.2.index ≤ b.2.index)

/-- Unmap every unit of an object that has been reclaimed (R384); segment 0 stands for every segment of the collection. -/
def State.unmapObject (coll seg : Nat) (s : State) : State :=
  ((s.flash.map.filter fun e => e.2.object.1 == coll && (seg == 0 || e.2.object.2 == seg)).map Prod.fst).foldl
    (fun s u => s.mapUnit u none) s

/-- A journal record's 16 bytes (Table 15-6). -/
def journalBytes (r : JournalRecord) : Bytes := leBytes 4 r.unit ++ leBytes 1 r.op ++ zeros 3 ++ leBytes 8 r.entry

/-- A journal sector of up to 256 records, sealed under MSK with its number as the object sequence (R74, R368). -/
def journalSealed (seq : Nat) (l : List JournalRecord) : Bytes :=
  sealedOwn (Config.objectKind 0) seq 0 (padTo 4096 ((l.take 256).flatMap journalBytes))

/-- Program 256 journal records, or what there is, as one sector (R368). -/
def State.programJournal (s : State) : State :=
  if s.flash.journal.isEmpty then s
  else
    let s := s.emit (.journalSector s.flash.journalSeq (journalSealed s.flash.journalSeq s.flash.journal))
    { s with
    flash.journal := s.flash.journal.drop 256
    flash.journalSince := s.clock
    flash.journalSeq := s.flash.journalSeq + 1
    flash.journalBytes := s.flash.journalBytes + 4096
    flash.hostWritten := s.flash.hostWritten + 4096
    flash.nandWritten := s.flash.nandWritten + 8192 }

/-- Program every journal record that waits. -/
def State.flushJournal : Nat → State → State
  | 0, s => s
  | n + 1, s => State.flushJournal n s.programJournal

/-- The journal is durable. -/
def State.journalAll (s : State) : State := s.flushJournal (s.flash.journal.length / 256 + 1)

/-- The map as flash holds it: what the records that are not durable changed is undone (R371, R388). -/
def Flash.undo (x : Flash) : Flash :=
  x.journal.foldr (fun r x => { x with map := match r.before with | some u => x.map.put r.unit u | none => x.map.del r.unit })
    { x with journal := [] }

/-- The journal records that are not durable are lost (R371, R388). -/
def State.undoJournal (s : State) : State := { s with flash := s.flash.undo }

/-- A write stream uses SLC (Table 15-4). -/
def streamSlc : WriteStream → Bool
  | .log | .journal => true
  | _ => false

/-- The stream of an index, in the order of Table 15-4. -/
def streamOf (i : Nat) : WriteStream := [WriteStream.log, .journal, .segment, .system, .gc].getD i .gc

/-- A quad-block can be allocated (R379, R381). -/
def State.quadFree (used : List Nat) (q : Nat) (s : State) : Bool :=
  let b := s.quad q
  !b.factoryBad && !b.grownBad && b.programmed.isNone && !used.contains q

/-- The free quad-block of a die with the lowest erase count, ties to the lower block (R379). -/
def State.bestBlock (used : List Nat) (d : Nat) (s : State) : Option (Nat × Nat) :=
  (List.range s.flash.blocks).foldl (fun a b =>
    let q := quadKey d b
    if !s.quadFree used q then a
    else match a with
      | none => some ((s.quad q).erases, q)
      | some x => if (s.quad q).erases < x.1 then some ((s.quad q).erases, q) else a) none

/-- Allocate a band on a hub: 16 free quad-blocks on 16 distinct channels, the lowest erase counts first (R362, R379). -/
def State.allocate (hub : Nat) (s : State) : Option (List Nat) :=
  let used := s.flash.bands.vals.flatMap (·.members)
  let perChannel := (List.range 32).filterMap fun c =>
    let best := (s.activeDies.filter fun d => d / 16 == hub * 32 + c).filterMap fun d => s.bestBlock used d
    best.foldl (fun a x => match a with | none => some x | some y => if x.1 < y.1 then some x else some y) (none : Option (Nat × Nat))
  let sorted := sortBy perChannel fun a b => decide (a.1 < b.1) || (a.1 == b.1 && decide (a.2 ≤ b.2))
  if sorted.length < 16 then none else some ((sorted.take 16).map Prod.snd)

/-- The open band of a stream on a hub. -/
def State.openBand (st : WriteStream) (hub : Nat) (s : State) : Option (Nat × Band) :=
  s.flash.bands.find? fun e => e.2.stream == st && e.2.hub == hub && e.2.closed.isNone

/-- The open band of a stream on a hub, opening one where none is. -/
def State.needBand (st : WriteStream) (hub : Nat) (s : State) : Option (Nat × Band × State) :=
  match s.openBand st hub with
  | some e => some (e.1, e.2, s)
  | none => match s.allocate hub with
    | none => none
    | some ms =>
      let b : Band := { stream := st, hub := hub, members := ms }
      let s := ms.foldl (fun s q => s.updQuad q fun x => { x with slc := streamSlc st, programmed := some s.clock, patrolled := s.clock }) s
      some (s.flash.nextBand, b,
        { s with flash.bands := s.flash.bands.put s.flash.nextBand b, flash.nextBand := s.flash.nextBand + 1 })

/-- Pages of a band's quad-blocks: one bit per cell in SLC mode (R362). -/
def State.bandPages (b : Band) (s : State) : Nat := if streamSlc b.stream then s.flash.pages / 3 else s.flash.pages

/-- The members that hold the data of stripe p: all but the parity's in TLC, the first of each mirrored pair in SLC (R362). -/
def dataMembers (b : Band) (p : Nat) : List Nat :=
  if streamSlc b.stream then (List.range 8).map fun i => b.members.getD (2 * i) 0
  else ((List.range 16).filter (· != p % 16)).map fun i => b.members.getD i 0

/-! ### What a page holds (R360–R362) -/

/-- The back-pointer of a codeword (Table 15-3): logical unit, sector within it, write sequence, and whether it is a parity or mirror unit. -/
def backPointer (unit sector wseq : Nat) (copy : Bool) : Bytes := leBytes 8 (unit % 2 ^ 32 + 2 ^ 32 * sector + 2 ^ 36 * (wseq % 2 ^ 27) + 2 ^ 63 * flag copy)

/-- A codeword: a sealed sector of 4,112 bytes, its back-pointer, and the ECC parity over both (Table 15-3). -/
def codeword (sector pointer : Bytes) : Bytes := sector ++ pointer ++ Config.eccParity (sector ++ pointer)

/-- A page: its four codewords, and 0xFF to the end of the spare area (R360). -/
def pageBytes (spare : Nat) (words : List Bytes) : Bytes :=
  let b := words.flatten
  b ++ List.replicate (16384 + spare - b.length) 0xFF

/-- The sealed sector `k` of a unit: a sector of its object's, or of the module's own content (R74, R361). -/
def State.unitSector (x : Mapped) (k : Nat) (s : State) : Bytes :=
  if x.object.1 = 0 then sealedOwn (Config.objectKind x.content) (Config.objectSequence x.content) k (Config.ownPlain x.content k)
  else
    let gen := ((s.index.collections.find x.object.1).bind fun c => (c.segments.find? (·.id == x.object.2)).map (·.gen)).getD 0
    s.storedSector x.object.1 gen x.object.2 (16 * x.index + k)

/-- Sector and back-pointer of each of the 16 codewords of a unit. -/
def State.unitWords (unit wseq : Nat) (x : Mapped) (copy : Bool) (s : State) : List Bytes :=
  (List.range 16).map fun k => s.unitSector x k ++ backPointer unit k wseq copy

/-- The XOR of byte strings of one length. -/
def xorBytes (a b : Bytes) : Bytes := List.zipWith (· ^^^ ·) a b

/-- The codewords of a parity unit, before their ECC: the XOR of the other units of the stripe, marked as parity (R362; which back-pointer it carries but for
the mark, the spec leaves open: DESIGN CHOICE, log entry 164). -/
def parityWords (units : List (List Bytes)) : List Bytes :=
  (List.range 16).map fun k =>
    let b := units.foldl (fun a u => xorBytes a (u.getD k [])) (zeros 4120)
    slice b 0 4119 ++ (slice b 4119 1).map fun x => x ||| 0x80

/-- Program the four pages of a unit, the page `page` of a quad-block in each plane: sector s of the unit is codeword s mod 4 in plane s div 4 (R361). -/
def State.programUnit (quad page : Nat) (words : List Bytes) (s : State) : State :=
  (List.range 4).foldl (fun s plane =>
    s.emit (.flashPage quad plane page (pageBytes s.flash.spare (((words.drop (4 * plane)).take 4).map fun w => codeword (w.take 4112) (w.drop 4112))))) s

/-- Mapped units of a band (R376). -/
def State.bandMapped (n : Nat) (s : State) : Nat := (s.flash.map.filter fun e => e.2.band == n).length

/-- Mapped units of a quad-block. -/
def State.quadMapped (q : Nat) (s : State) : Nat := (s.flash.map.filter fun e => entryQuad e.2.entry == q).length

/-- Quad-blocks that may hold data. -/
def State.usableQuads (s : State) : Nat :=
  (s.positions.filter fun d => (s.die d).state ≤ 1).length * s.flash.blocks -
    (s.flash.quads.filter fun e => (e.2.factoryBad || e.2.grownBad) && decide ((s.die (quadDie e.1)).state ≤ 1)).length

/-- MSS.RAW_BYTES. -/
def State.rawBytes (s : State) : Nat := s.usableQuads * s.flash.pages * unitBytes

/-- USABLE_BYTES: 0.875 × raw less twice the map size (R376). -/
def State.usableBytes (s : State) : Nat :=
  s.rawBytes * 7 / 8 - 2 * (s.positions.length * s.flash.blocks * s.flash.pages * 8)

/-- Units mapped outside the ingest log (R378). -/
def State.mappedUnits (s : State) : Nat :=
  (s.flash.map.filter fun e => match s.flash.bands.find e.2.band with | some b => b.stream != .log | none => true).length

/-- All bands, and those free (R376). -/
def State.allBands (s : State) : Nat := s.usableQuads / 16
/-- Bands that hold nothing. -/
def State.freeBands (s : State) : Nat := s.allBands - s.flash.bands.length

/-- Retire a quad-block (R381). -/
def State.retireQuad (q : Nat) (s : State) : State := (s.updQuad q fun b => { b with grownBad := true }).media 6 q

/-- Close a band (R372). -/
def State.closeBand (n : Nat) (s : State) : State :=
  { s with flash.bands := s.flash.bands.upd n fun b => { b with closed := match b.closed with | some t => some t | none => some s.clock } }

/-- Mean and largest erase count of a die (R379). -/
def State.dieErases (d : Nat) (s : State) : Nat × Nat :=
  let es := (s.flash.quads.filter fun e => quadDie e.1 == d).map fun e => e.2.erases
  (es.foldl (· + ·) 0 / max 1 s.flash.blocks, es.foldl max 0)

/-- LIFE_USED: mean erase count over rated endurance, permille (R379). -/
def State.lifeUsed (s : State) : Nat :=
  (s.flash.quads.map fun e => e.2.erases).foldl (· + ·) 0 * 1000 / (max 1 s.usableQuads * max 1 Config.endurance)

end Sys2Proof.Machine
end

