-- ==== Sys2Proof/Machine/Mailbox.lean ====
section
/-!
DEFINITION. Responses, interrupts and stream records: how a decided response is sealed and written, and what waits for it
(R38, R45, R56–R61, R86, R89, R443, R475).
-/
namespace Sys2Proof.Machine

/-- A command, or a decided response of an admitted one, with this tag is still in flight. -/
def State.present (m : Nat) (tag : Word) (s : State) : Bool := s.tagInFlight m tag

/-- Another command of a session is still in flight (R90). -/
def State.sessionBusy (f : Flight) (s : State) : Bool :=
  s.host.flights.any (fun g => g.hdr.session == f.hdr.session && g.mbx == f.mbx && g.tag != f.tag) ||
    s.host.done.any (fun d => d.hdr.session == f.hdr.session && d.mbx == f.mbx && d.admitted)

/-- Another command of a tenant is still in flight (R425). -/
def State.tenantBusy (t : Nat) (f : Flight) (s : State) : Bool :=
  s.host.flights.any (fun g => g.mbx == t && !(g.mbx == f.mbx && g.tag == f.tag)) ||
    s.host.done.any (fun d => d.mbx == t && d.admitted)

/-- A command that waits for other commands' responses is answered once the last of them is written: STOP_COMMAND (R56),
SESSION_CLOSE (R90), TENANT_DISABLE (R425). -/
def State.settleOne (s : State) (f : Flight) : State :=
  match f.work with
  | .stopWait m t => if s.present m t then s else s.answer f .done []
  | .closeWait => if s.sessionBusy f then s else s.answer f .done []
  | .disableWait t => if s.tenantBusy t f then s else s.answer f .done []
  | _ => s

/-- Answer every command whose wait for other responses is over. -/
def State.settle (s : State) : State := s.host.flights.foldl State.settleOne s

/-- The SEAL.SEQ a sealed response or record takes: 0 for KEY_IMPORT and SESSION_OPEN (R83, R85), else the module counter of
the session, which moves on (R89). None where the session's key is gone or spent. -/
def State.sealSeq (m : Nat) (h : Header) (s : State) : Option (Nat × State) :=
  if h.opcode == 0x1002 || h.opcode == 0x1003 then some (0, s)
  else if m < 4096 then
    match s.keys.sessions.find h.session.toNat with
    | some x =>
      if seqSpent x.counter || x.ks.isEmpty then none
      else some (x.counter, { s with keys.sessions := s.keys.sessions.put h.session.toNat { x with counter := x.counter + 1 } })
    | none => none
  else match s.keys.mgmt with
    | .open id _ =>
      if id == h.session && !seqSpent s.keys.mgmtCounter then
        some (s.keys.mgmtCounter, { s with keys.mgmtCounter := s.keys.mgmtCounter + 1 })
      else none
    | _ => none

/-- The key that seals a response or record: the module's own direction of the management session, the tenant session's K_s, or what an H command's
rule gives, in `own` (R79, R83, R85, R86). -/
def State.sealKey (m : Nat) (h : Header) (own : Bytes) (s : State) : Bytes :=
  if h.opcode == 0x1002 || h.opcode == 0x1003 then own
  else if m < 4096 then (s.keys.sessions.find h.session.toNat).elim [] (·.ks)
  else s.keys.mgmtKeys.2

/-- The header of a response (R45, Table 2-10). -/
def responseHeader (h : Header) (r : Response) : Header :=
  { h with
    version := 1, status := BitVec.ofNat 8 (statusCode r.status), flags := BitVec.ofNat 16 (flag r.sealed + 2 * flag r.streamed + 4 * flag r.logged)
    length := BitVec.ofNat 32 (responseLength r), csn := BitVec.ofNat 64 r.csn, crc := 0 }

/-- A response as it leaves: sealed under the session's next counter; where the key is gone, KEY_UNAVAILABLE, which needs
no key (R45). -/
def State.sealResponse (d : Done) (s : State) : Response × Option Nat × State :=
  if d.response.sealed then
    match s.sealSeq d.mbx d.hdr with
    | some (q, s) => ({ d.response with key := [] }, some q, s)
    | none =>
      ({ d.response with status := .keyUnavailable, payload := detailBytes (keyUnavailable noOffset), sealed := false }, none, s)
  else (d.response, none, s)

/-- A response as it is written: it is accounted for, LOGGED says whether the event was logged (R45, R49, R446), and where it is sealed its payload
stands under the tag with the header (R86). -/
def State.outgoing (d : Done) (s : State) : Response × Option (Nat × Bytes) × State :=
  let (r, q, s) := s.sealResponse d
  let r := { r with logged := r.logged || (statusIsLogged r.status && s.mayLog (who d.mbx)) }
  let key := s.sealKey d.mbx d.hdr d.response.key
  (r, q.map fun n => (n, sealedPayload key n (headerBytes (responseHeader d.hdr r)) r.payload), s.account d.mbx d.hdr r d.reason)

/-- What follows once a response has been written: a closed session's key is erased (R90), and the caller's zeroised session's key after
the KEY_ZEROISE response (R94). -/
def State.afterWritten (d : Done) (s : State) : State :=
  let s :=
    if d.hdr.opcode == 0x1004 && d.response.status == .done then
      { s with keys.sessions := s.keys.sessions.del d.hdr.session.toNat }
    else if d.hdr.opcode == 0x1006 then
      { s with keys.sessions := s.keys.sessions.upd d.hdr.session.toNat fun x => if x.exhausted then { x with ks := [] } else x }
    else s
  s.settle

/-- Take a decided response out of the line. -/
def State.dropDone (d : Done) (s : State) : State := { s with host.done := s.host.done.erase d }

/-- Discard a response that can no longer be written: one KIND 1 entry with LR.DETAIL 1 (R443, R475). -/
def State.discardResponse (d : Done) (s : State) : State :=
  let s := s.dropDone d
  let s := if statusIsLogged d.response.status then s.charge (who d.mbx) 0xA0 1 else s
  (s.log { seq := 0, time := 0, kind := 1, status := statusCode d.response.status, tenant := who d.mbx,
           opcode := d.hdr.opcode.toNat, tag := d.hdr.tag, detail := 1 }).settle

/-- Write one response into the ring at RSP_PROD (R38); only into slots the host has consumed (R37). -/
def State.writeRing (d : Done) (s : State) : State :=
  let (r, q, s) := s.outgoing d
  let b := s.mbx d.mbx
  let k := rspSlots (responseLength r)
  let s := s.dropDone d
  let s := s.setMbx d.mbx { b with
    rspProd := b.rspProd + BitVec.ofNat 32 k, reserved := b.reserved - d.reserved
    unreported := b.unreported + 1, oldest := if b.unreported = 0 then s.clock else b.oldest }
  (s.emit (.response d.mbx (rspAddress b b.rspProd) b.rspProd d.hdr.opcode d.hdr.tenant d.hdr.tag d.hdr.session q r)).afterWritten d

/-- The response fits between RSP_PROD and RSP_CONS plus the ring (R37). -/
def State.fitsRing (d : Done) (s : State) : Bool :=
  let b := s.mbx d.mbx
  (b.rspProd - b.rspCons).toNat + rspSlots (responseLength d.response) ≤ ringSlots (rspLog2 b)

/-- The management port whose connection takes a response: the one it came by, or the other (R443). -/
def State.portFor (p : Nat) (s : State) : Option Nat :=
  let up (i : Nat) : Bool := (s.host.ports.getD i {}).connected
  if up p then some p else if up (1 - p) then some (1 - p) else none

/-- Write one response as a KIND 1 record (R442). -/
def State.writePort (p : Nat) (d : Done) (s : State) : State :=
  let (r, q, s) := s.outgoing d
  let s := s.dropDone d
  let s := { s with host.ports := s.host.ports.modify p fun x => { x with lastTx := s.clock } }
  (s.emit (.mgmtRecord p d.hdr.opcode d.hdr.tag d.hdr.session q r)).afterWritten d

/-- A decided response of a mailbox can leave the line: it is discarded, or its way out is there. -/
def State.leaves (s : State) (m : Nat) (d : Done) : Bool :=
  d.mbx == m && (d.discard || match d.path with | .port p => (s.portFor p).isSome | _ => true)

/-- Write the first decided response of a mailbox, by the way its command came. -/
def State.writeOne (m : Nat) (s : State) : State :=
  match s.host.done.find? (s.leaves m) with
  | none => s
  | some d =>
    if d.discard then s.discardResponse d
    else match d.path with
      | .port p => match s.portFor p with | some q => s.writePort q d | none => s
      | _ => if s.fitsRing d then s.writeRing d else s

/-- Write up to `n` responses in completion order (R38). -/
def State.writeMany (m : Nat) : Nat → State → State
  | 0, s => s
  | n + 1, s => State.writeMany m n (s.writeOne m)

/-- The vector is due by count (R38). -/
def State.reportByCount (m : Nat) (s : State) : State :=
  let b := s.mbx m
  let c := bits b.irqMod.toNat 0 15
  if c ≠ 0 ∧ c ≤ b.unreported then s.reportResponses m else s

/-- RESPONSE_WRITE (R38): a batch of decided responses, then the RSP_PROD shadow, then the CMD_CONS shadow, then the vector
when it is due by count. In Autumn power loss nothing is written (R52). -/
def execResponseWrite (m : Ring) (count : Nat) (s : State) : Host.Outcome State Fault Refusal :=
  .next (if s.serving then
    let t := s.writeMany m.key (min count 4096)
    if (t.mbx m.key).rspProd == (s.mbx m.key).rspProd then t
    else let b := t.mbx m.key
      ((t.emit (.rspShadow m.key (shadowAddress b.rspBase (rspLog2 b)) b.rspProd)).emit
        (.cmdShadow m.key (shadowAddress b.cmdBase (cmdLog2 b)) b.cmdCons)).reportByCount m.key
  else s)

/-- IRQ_MOD_TIMER (R38): TIME_US has passed since the oldest unreported response. -/
def execIrqModTimer (m : Ring) (s : State) : Host.Outcome State Fault Refusal :=
  let b := s.mbx m.key
  let t := bits b.irqMod.toNat 16 31
  .next (if t ≠ 0 ∧ b.unreported ≠ 0 ∧ b.oldest + t * 1000 ≤ s.clock then s.reportResponses m.key else s)

/-! ### Stream records -/

/-- The streams that name a command as a writer (R61). -/
def streamBusy (x : Stream) : Bool := !(x.waiting.filter fun r => !r.aborted).isEmpty

/-- REC.SEQ of the next record of a command. -/
def nextRecordSeq (x : Stream) (r : PendingRecord) : Nat :=
  match x.seqs.find? (fun e => e.1 == r.mbx && e.2.1 == r.tag) with
  | some e => e.2.2
  | none => 0

/-- Slots a record takes: its header, its payload, and 24 bytes of seal (R58, R86). -/
def recordSlots (r : PendingRecord) : Nat := packetSlots (r.payload.length + 24)

/-- The stream has room for the record at the front (R60). -/
def streamRoom (x : Stream) (r : PendingRecord) : Bool := (x.prod - x.cons).toNat + recordSlots r ≤ 2 ^ x.slotsLog2

/-- The header whose session seals a record. -/
def recordHeader (r : PendingRecord) : Header where
  version := 1
  status := 0
  opcode := r.opcode
  tenant := r.tenant
  flags := 0
  tag := r.tag
  length := 0
  session := r.session
  crc := 0
  csn := 0

/-- REC.FLAGS of a record (Table 2-21). -/
def recordFlags (r : PendingRecord) (q : Option Nat) : Nat := flag r.last + 2 * flag r.aborted + 4 * flag q.isSome

/-- The header of a stream record with REC.CRC as 0 (Table 2-21). -/
def recordHead (st : Nat) (x : Stream) (r : PendingRecord) (q : Option Nat) : Bytes :=
  leBytes 2 st ++ leBytes 2 (recordFlags r q) ++ leBytes 4 r.tag.toNat ++ leBytes 4 (nextRecordSeq x r) ++
    leBytes 4 (r.payload.length + 24 * flag q.isSome) ++ leBytes 2 r.tenant.toNat ++ leBytes 2 r.opcode.toNat ++ zeros 4 ++ leBytes 8 r.csn

/-- Bytes of a record as written: header, payload, and its seal where it has one. -/
def recordBytesOut (r : PendingRecord) (q : Option Nat) : Nat := 32 + r.payload.length + 24 * flag q.isSome

/-- A stream once its front record has been written: the command's other records wait from now on. -/
def streamWritten (now : Nat) (x : Stream) (r : PendingRecord) (rest : List PendingRecord) : Stream :=
  let seqs := x.seqs.filter fun e => !(e.1 == r.mbx && e.2.1 == r.tag)
  { x with
    prod := x.prod + BitVec.ofNat 32 (recordSlots r)
    waiting := rest.map fun y => if y.mbx == r.mbx && y.tag == r.tag then { y with since := now } else y
    unreported := x.unreported + 1, oldest := if x.unreported = 0 then now else x.oldest
    seqs := if r.last || r.aborted then seqs else (r.mbx, r.tag, nextRecordSeq x r + 1) :: seqs }

/-- Write the record at the front of a stream under SEAL.SEQ `q`: the record, the producer shadow, then the interrupt by count (R59). -/
def State.writeRecord (st : Nat) (x : Stream) (r : PendingRecord) (rest : List PendingRecord) (q : Option Nat) (s : State) : State :=
  let x' := streamWritten s.clock x r rest
  let s := { s with host.streams := s.host.streams.put st x' }
  let s := s.charge (who r.mbx) 0x10 (recordBytesOut r q)
  let key := s.sealKey r.mbx (recordHeader r) []
  let out := q.map fun n => (n, sealedPayload key n (recordHead st x r q) r.payload)
  let s := s.emit (.record st (ringAddress x.base x.slotsLog2 x.prod) x.prod (recordFlags r q) r.tag (nextRecordSeq x r) r.tenant r.opcode r.csn out r.payload)
  let s := s.emit (.streamShadow st (shadowAddress x.base x.slotsLog2) x'.prod)
  if x'.irqCount ≤ x'.unreported then (s.updStream st fun x => { x with unreported := 0 }).vector x'.vector else s

/-- A record that no key can seal does not leave (R4): its command ends KEY_UNAVAILABLE, as a response it could not seal would (R45). -/
def State.recordKeyless (st : Nat) (r : PendingRecord) (s : State) : State :=
  match s.flight r.mbx r.tag with
  | some f => (s.abortStreams f).answerDetail f (keyUnavailable noOffset)
  | none => s.updStream st fun x => { x with waiting := x.waiting.drop 1 }

/-- STREAM_RECORD_WRITE (R59): the record at the front goes out when there is room; a command's LAST record lets its response
follow, STREAMED, with the record count. -/
def execStreamRecordWrite (st : Fin 1024) (s : State) : Host.Outcome State Fault Refusal :=
  .next (match s.host.streams.find st with
    | some x => match x.waiting with
      | r :: rest =>
        if !r.aborted && streamRoom x r && s.serving && s.pcieReachable then
          match s.sealSeq r.mbx (recordHeader r) with
          | none => s.recordKeyless st r
          | some (q, s) =>
            let n := nextRecordSeq x r
            let s := s.writeRecord st x r rest (some q)
            if r.last then
              match s.flight r.mbx r.tag with
              | some f => match f.work with
                | .streaming _ status p => s.answer f status (p.getD (leBytes 4 (n + 1))) 0 true
                | _ => s
              | none => s
            else s
        else s
      | [] => s
    | none => s)

/-- STREAM_ABORT_RECORD (R60): the zero-length record is sealed while the session has a key, and goes out without a seal where it has none (DESIGN CHOICE,
log entry 143): it carries no content. -/
def execStreamAbortRecord (st : Fin 1024) (s : State) : Host.Outcome State Fault Refusal :=
  .next (match s.host.streams.find st with
    | some x => match x.waiting with
      | r :: rest =>
        if r.aborted && streamRoom x r && s.serving && s.pcieReachable then
          match s.sealSeq r.mbx (recordHeader r) with
          | none => s.writeRecord st x r rest none
          | some (q, s) => s.writeRecord st x r rest (some q)
        else s
      | [] => s
    | none => s)

/-- The record whose command has waited 1 s for room on a stream that lacks it (R60). -/
def Stream.overdue (x : Stream) (now : Nat) : Option PendingRecord :=
  match x.waiting with
  | r :: _ => if streamRoom x r then none else x.waiting.find? fun y => !y.aborted && y.since + 1000000000 ≤ now
  | [] => none

/-- STREAM_WAIT_TIMEOUT (R60): a command without a deadline has waited 1 s for room. -/
def execStreamWaitTimeout (st : Fin 1024) (s : State) : Host.Outcome State Fault Refusal :=
  .next (match s.host.streams.find st with
    | some x => match x.overdue s.clock with
      | some r => match s.flight r.mbx r.tag with
        | some f => if f.deadline.isNone then (s.abortStreams f).answer f .deadlineExceeded (endPayload (s.extBytesOf f) f) else s
        | none => s
      | none => s
    | none => s)

/-- STREAM_IRQ_TIMER (R59): SOPEN.IRQ_US has passed since the oldest unreported record. -/
def execStreamIrqTimer (st : Fin 1024) (s : State) : Host.Outcome State Fault Refusal :=
  .next (match s.host.streams.find st with
    | some x =>
      if x.irqUs ≠ 0 ∧ x.unreported ≠ 0 ∧ x.oldest + x.irqUs * 1000 ≤ s.clock then
        (s.updStream st fun x => { x with unreported := 0 }).vector x.vector
      else s
    | none => s)

end Sys2Proof.Machine
end

