-- ==== Sys2Proof/Machine/Collections.lean ====
section
/-!
DEFINITION. What every command on a collection shares: lookup and its refusals, visibility, delete marks, sealing state,
binding a snapshot, space (R95, R100, R103, R111–R123, R131, R134).
-/
namespace Sys2Proof.Machine

/-- A collection by ID. -/
def State.coll (id : Nat) (s : State) : Option Collection := s.index.collections.find id

/-- Write a collection. -/
def State.setColl (c : Collection) (s : State) : State :=
  { s with index.collections := s.index.collections.put c.id c }

/-- Change a collection. -/
def State.updColl (id : Nat) (g : Collection → Collection) (s : State) : State :=
  { s with index.collections := s.index.collections.upd id g }

/-- The owner of a collection, table or handle ID (R100, R283); a replica's key carries its shard above the ID. -/
def ownerOf (id : Nat) : Nat := id % 2 ^ 32 / 2 ^ 20

/-- A running zeroisation affects a collection (R94). -/
def State.zeroisingColl (id : Nat) (s : State) : Bool := s.keys.zeroising.any (·.collections.contains id)

/-- Vector inserts a second (Table 1-6); upserts and deletes count as such (R117). -/
def vectorRate : Profile → Nat
  | .january => 50000 | .april => 250000 | .july => 500000 | .october => 500000

/-- Encoder chunks a second (Table 1-6). -/
def chunkRate : Profile → Nat
  | .january => 1000 | .april => 8000 | .july => 12000 | .october => 22000

/-- Bytes that a rebuild reads (R134): the rows, the centroid map records and the tombstone records. -/
def rebuildBytes (c : Collection) : Nat :=
  c.versions.length * (c.desc.sketchBits / 8 + 26 + c.desc.extBytes) +
    (2 ^ c.desc.listsLog2 * (64 + 2 * c.desc.dim + 4 * (readQHeader c.qimage).degree) + 64 * c.map.forwards.length) +
    24 * ((c.segments.filter (·.tombstone)).map (·.records.length)).sum

/-- The time the replay of the log takes at the rates of a profile, ns (R134). -/
def replayTime (c : Collection) (p : Profile) : Nat :=
  let texts := (c.ops.map fun o => match o.body with | .insert l _ => (l.filter fun r => !r.text.isEmpty).length | _ => 0).sum
  let others := (c.ops.map fun o => match o.body with
    | .insert l _ => (l.filter (·.text.isEmpty)).length | .delete ids => ids.length | _ => 0).sum
  others * 1000000000 / vectorRate p + texts * 1000000000 / chunkRate p

/-- The expected remaining time of a rebuild, in µs, saturated: the upper end of R134. -/
def State.rebuildHint (c : Collection) (since : Nat) (s : State) : Nat :=
  min 65535 ((since + 800000000 + rebuildBytes c / 75 + replayTime c s.power.rates - s.clock) / 1000)

/-- The collection a command names, whatever its state; COLLECTION_DESCRIBE and COLLECTION_DROP need no more (R100, R132). -/
def State.namedColl (off id : Nat) (f : Flight) (s : State) : Except Detail Collection :=
  if ownerOf id != f.tenant then .error (notAuthorised off)
  else match s.coll id with
    | some c => if c.dropping.isSome then .error (bad off) else .ok c
    | none => .error (bad off)

/-- The collection a command works on: key-lost, waiting for keys and rebuilding answer as R94, R95 and R134 say. -/
def State.usableColl (off id : Nat) (f : Flight) (s : State) : Except Detail Collection := do
  let c ← s.namedColl off id f
  if s.zeroisingColl id then .error (keyUnavailable off)
  else match c.availability with
    | .ready => .ok c
    | .keyPending _ | .keyLost => .error (keyUnavailable off)
    | .rebuilding since => .error { busyRetry (s.rebuildHint c since) with offset := off }

/-- A predicate tombstone excludes a version at q (R116). -/
def tombExcludes (d : Descriptor) (v : Version) (q : Nat) (t : PredTombstone) : Bool :=
  t.csn ≤ q && decide (v.ins < t.csn) && passes d.fields (readPreds t.predicates) v.packed v.ext

/-- A query bound at q sees a version (R112). -/
def visible (c : Collection) (q : Nat) (v : Version) : Bool :=
  v.ins ≤ q && (match v.del with | some d => decide (q < d) | none => true) && !c.predicates.any (tombExcludes c.desc v q)

/-- The versions visible at q. -/
def visibleVersions (c : Collection) (q : Nat) : List Version := c.versions.filter (visible c q)

/-- An operation that is waiting for its commit. -/
def Collection.uncommitted (c : Collection) : List Operation := c.ops.filter fun o => c.committed < o.csn

/-- Items an operation adds. -/
def opItems (o : Operation) : Nat := match o.body with | .insert items _ => items.length | .delete ids => ids.length | _ => 0

/-- Items an operation stores. -/
def opStored (o : Operation) : Nat := match o.body with | .insert items _ => items.length | _ => 0

/-- Items acknowledged and not yet applied (R118). -/
def Collection.toApply (c : Collection) : Nat := ((c.ops.filter fun o => o.acked && !o.applied).map opStored).foldl (· + ·) 0

/-- A segment. -/
def Collection.segment (c : Collection) (id : Nat) : Option Segment := c.segments.find? (·.id == id)

/-- Change a segment. -/
def Collection.updSegment (c : Collection) (id : Nat) (g : Segment → Segment) : Collection :=
  { c with segments := c.segments.map fun x => if x.id == id then g x else x }

/-- A segment's content is in flash under its manifest (Table 4-5). -/
def segDurable (x : Segment) : Bool := x.state == .sealed || x.state == .merging

/-- The segment a version lies in is SEALED or MERGING. -/
def Collection.inSealed (c : Collection) (v : Version) : Bool := c.segments.any fun x => x.id == v.seg && segDurable x

/-- The OPEN item segment (R122). -/
def Collection.openSegment (c : Collection) : Option Segment := c.segments.find? fun x => x.state == .opened && !x.tombstone

/-- The OPEN tombstone segment (R126). -/
def Collection.openTombs (c : Collection) : Option Segment := c.segments.find? fun x => x.state == .opened && x.tombstone

/-- Rows of a segment. -/
def Collection.rows (c : Collection) (seg : Nat) : List Version := c.versions.filter (·.seg == seg)

/-- A segment's highest CSN: the highest among its rows, or its records (R123). -/
def Collection.highest (c : Collection) (x : Segment) : Nat :=
  if x.tombstone then (x.records.map (·.2.2)).foldl max 0 else ((c.rows x.id).map (·.ins)).foldl max 0

/-- Segments that are SEALING, at most 4 (R122, R126). -/
def Collection.sealingCount (c : Collection) : Nat := (c.segments.filter fun x => x.state == .sealing).length

/-- Item segments that are SEALED or MERGING, at most 65,536 (R122). -/
def Collection.durableCount (c : Collection) : Nat := (c.segments.filter fun x => !x.tombstone && segDurable x).length

/-- Tombstone records: in the open tombstone segment, which the first record opens (R126). -/
def Collection.addRecords (c : Collection) (now : Nat) (recs : List (Nat × Nat × Nat)) : Collection :=
  if recs.isEmpty then c
  else match c.openTombs with
    | some t => c.updSegment t.id fun x => { x with records := x.records ++ recs }
    | none => { c with
        segments := c.segments ++ [{ id := c.nextSegment, state := .opened, tombstone := true, firstAt := some now, records := recs }]
        nextSegment := c.nextSegment + 1 }

/-- Set del(v) to the smaller of what it was and d (R112, R184). -/
def markVersion (d : Nat) (v : Version) : Version :=
  { v with del := match v.del with | some e => some (min e d) | none => some d }

/-- Mark the versions that `sel` names as deleted at d; marks on rows of SEALED segments become tombstone records (R126).
Answers the collection and how many were marked. -/
def Collection.mark (c : Collection) (now d : Nat) (sel : Version → Bool) : Collection × Nat :=
  let hit := fun v : Version => sel v && (match v.del with | some e => decide (d < e) | none => true)
  let recs := (c.versions.filter fun v => hit v && c.inSealed v).map fun v => (v.seg, v.pos, d)
  (({ c with versions := c.versions.map fun v => if hit v then markVersion d v else v } : Collection).addRecords now recs,
    (c.versions.filter hit).length)

/-- Tombstone records that are not yet SEALED and whose row still exists (R131). -/
def Collection.unsealedRecords (c : Collection) : List (Nat × Nat × Nat) :=
  (c.segments.filter fun x => x.tombstone && x.state != .sealed).flatMap fun x =>
    x.records.filter fun r => c.segments.any fun y => y.id == r.1

/-- CS.SEALED_CSN: the highest CSN at or below which every change is sealed (R131). A predicate tombstone that is still held keeps
its CSN unsealed. -/
def Collection.sealedCsn (c : Collection) : Nat :=
  let low := ((c.versions.filter fun v => !c.inSealed v).map (·.ins)) ++ (c.unsealedRecords.map (·.2.2)) ++ c.predicates.map (·.csn)
  min c.committed (low.foldl min (c.committed + 1) - 1)

/-- The generations that are live: the current one, and those that a segment, a compaction's output, a log record, a map record or one of the shared
objects `shared` carries (R92, R127, R153). -/
def Collection.liveGens (c : Collection) (shared : List Nat) : List (Nat × Word × Bytes) :=
  c.gens.filter fun g => g.1 == c.gen || c.segments.any (fun x => x.state != .opened && x.gen == g.1) ||
    c.ops.any (fun o => o.gen == g.1) || c.compaction.any (·.gen == g.1) || c.map.record == g.1 ||
    c.oldMaps.any (·.map.record == g.1) || shared.contains g.1

/-- The live generations of a collection; an object of the shared tier that is still held carries its own (R92, R352). -/
def State.liveGensOf (c : Collection) (s : State) : List (Nat × Word × Bytes) :=
  c.liveGens ((s.tiers.objects.filter fun o => o.collection == c.id).map (·.gen))

/-- Release the ingest-log records whose every change is sealed (R124). -/
def Collection.release (c : Collection) : Collection :=
  let q := c.sealedCsn
  { c with ops := c.ops.filter fun o => !(o.applied && o.acked && o.csn ≤ q) }

/-- Predicate tombstones leave once their marks are written and sealed (R116). -/
def Collection.dropPredicates (c : Collection) : Collection :=
  let unsealed (d : Nat) : Bool := (c.versions.any fun v => v.del == some d && !c.inSealed v) || c.unsealedRecords.any (·.2.2 == d)
  { c with predicates := c.predicates.filter fun t => !(t.marked && !unsealed t.csn) }

/-- A tombstone segment retires when every segment it refers to has retired (R126). -/
def Collection.retireTombs (c : Collection) : Collection :=
  { c with segments := c.segments.filter fun x =>
      !(x.tombstone && x.state == .sealed && x.records.all fun r => !c.segments.any fun y => y.id == r.1) }

/-- Commands in flight that read a collection's snapshot (R119). -/
def State.boundTo (id : Nat) (s : State) : List Flight :=
  s.host.flights.filter fun f => f.coll == some id

/-- A command bound below a CSN is in flight on a collection (R129). -/
def State.boundBelow (id p : Nat) (s : State) : Bool := (s.boundTo id).any fun f => f.bound.any (· < p)

/-- Bind a command to its snapshot at admission (R44, R119, R121): the committed CSN, or HDR.CSN once it has committed. -/
def State.bindSnapshot (c : Collection) (f : Flight) (k : Nat → State → Except Detail State) (s : State) :
    Except Detail State :=
  let q := f.hdr.csn.toNat
  if f.bound.isSome then k (f.bound.getD 0) s
  else if c.assigned < q then .error (bad 0x18)
  else if q ≠ 0 ∧ q < c.floor then .error (wrongStateAt 0x18)
  else if c.committed < q then .ok (s.setWork f (.csnWait c.id q))
  else
    let q := if q = 0 then c.committed else q
    k q (s.updFlight f.mbx f.tag fun g => { g with bound := some q, coll := some c.id, mapBound := c.map.version, boundAt := s.clock })

/-- HDR.CSN is at most the highest CSN assigned (R44); a header field, so it comes before the payload's (R48). -/
def csnAssigned (c : Collection) (f : Flight) : Except Detail Unit := need (decide (f.hdr.csn.toNat ≤ c.assigned)) (bad 0x18)

/-- HBM a tenant's quota counts: collection reservations, tables and model images (R424), in bytes. -/
def State.hbmCharged (t : Nat) (s : State) : Nat :=
  ((s.index.collections.vals.filter fun c => ownerOf c.id == t).map (·.reserved)).foldl (· + ·) 0 +
    ((s.tables.tables.vals.filter fun x => ownerOf x.id == t).map (·.reserved)).foldl (· + ·) 0 +
    ((s.models.gens.filter fun g => g.kind == .model && ownerOf g.handle == t).map (·.image.length)).foldl (· + ·) 0 +
    ((s.models.loads.filter fun l => l.kind == .model && l.tenant == t).map (·.total)).foldl (· + ·) 0

/-- The tenant's HBM quota leaves room for `n` more bytes (R424). -/
def State.quotaHbm (t n : Nat) (s : State) : Except Detail Unit :=
  let q := (s.tenantConfig t).hbmQuota
  need (q == 0 || decide (s.hbmCharged t + n ≤ q * 2 ^ 30)) (noResources (q * 1024))

/-- Bytes of a version's records in flash: refine code, vector and tokens (R277 gives their places). -/
def recordBytes (d : Descriptor) (v : Version) : Nat := v.refine.length + v.vector.length + 4 * v.tokens.length +
  (d.sketchBits / 8 + 42 + d.extBytes)

/-- Flash that a tenant's sealed segments and tombstones occupy, in bytes (R124; MTR.FLASH_BYTES). -/
def State.flashMapped (t : Nat) (s : State) : Nat :=
  ((s.index.collections.vals.filter fun c => ownerOf c.id == t).map fun c =>
    ((c.versions.filter c.inSealed).map (recordBytes c.desc)).foldl (· + ·) 0 +
      ((c.segments.filter fun x => x.tombstone && x.state == .sealed).map fun x => 24 * x.records.length).foldl (· + ·) 0).foldl (· + ·) 0

/-- The current generation of a handle. -/
def State.currentGen (kind : ImageKind) (handle : Nat) (s : State) : Option Generation :=
  s.models.gens.find? fun g => g.kind == kind && g.handle == handle && g.current

/-- A generation by number. -/
def State.generation (kind : ImageKind) (handle gen : Nat) (s : State) : Option Generation :=
  s.models.gens.find? fun g => g.kind == kind && g.handle == handle && g.gen == gen

/-- A handle the caller may use: another tenant's is NOT_AUTHORISED, one with no current generation BAD_FIELD (R283). -/
def State.handle (kind : ImageKind) (off h : Nat) (f : Flight) (s : State) : Except Detail Generation :=
  if ownerOf h != f.tenant then .error (notAuthorised off)
  else match s.currentGen kind h with
    | some g => .ok g
    | none => .error (bad off)

/-- The vocabulary a model declares: VIMG.DIGEST begins with MIMG.VOCAB_DIGEST (R299, R304). -/
def vocabMatches (model vocab : Bytes) : Bool := slice model 0x60 16 == slice vocab 0x50 16

end Sys2Proof.Machine
end

