-- ==== Sys2Proof/Machine/Extents.lean ====
section
/-!
DEFINITION. Where rows lie in HBM: extents, their places, commit indices and what they cost (R119, R120, R151, R172–R174, R187, R195).
-/
namespace Sys2Proof.Machine

/-- An NBU. -/
def State.nbu (n : Nat) (s : State) : Nbu := s.index.nbus.getD n {}

/-- Change an NBU. -/
def State.updNbu (n : Nat) (g : Nbu → Nbu) (s : State) : State := { s with index.nbus := s.index.nbus.put n (g (s.nbu n)) }

/-! ### Extents and their rows -/

/-- A list owns an extent, or shares it as a legacy extent (R151). -/
def ownedBy (l : Nat) (e : Extent) : Bool := e.list == l || e.legacy == some l

/-- The extents that no others have replaced. -/
def Collection.current (c : Collection) : List Extent := c.extents.filter (·.replaced.isNone)

/-- An extent by its number. -/
def Collection.extent (c : Collection) (id : Nat) : Option Extent := c.extents.find? (·.id == id)

/-- The rows of an extent, in append order. -/
def Collection.extentRows (c : Collection) (e : Extent) : List Version := c.versions.filter (·.extent == e.id)

/-- v_q(e): the leading rows of an extent that are visible at `q`; every row where its commit index has been dropped (R120, R173). -/
def Collection.leading (c : Collection) (q : Nat) (e : Extent) : Nat :=
  match c.indices.find? (·.id == e.index) with
  | none => e.rows
  | some x => match x.entries.find? fun p => decide (p.1 ≤ q) with
    | some p => min e.rows (p.2 - e.first)
    | none => 0

/-- The extents of a collection under the map version a command has bound, each with its leading rows at `q` (R119, R146, R177). -/
def Collection.boundExtents (c : Collection) (map q : Nat) : List (Extent × List (Nat × Nat)) :=
  match c.oldMaps.find? (·.map.version == map) with
  | some m => m.extents.map fun x => (x.1, x.2.filter fun k => decide (k.2 ≤ q))
  | none => c.current.map fun e => (e, ((c.extentRows e).take (c.leading q e)).map fun v => (v.id, v.ins))

/-- The collection with the map that a command has bound (R146). -/
def Collection.underMap (c : Collection) (map : Nat) : Collection :=
  match c.oldMaps.find? (·.map.version == map) with
  | some m => { c with map := m.map }
  | none => c

/-- The lists of a collection that hold rows. -/
def Collection.listsHeld (c : Collection) : List Nat := (c.versions.map (·.list)).eraseDups

/-- The position after the last row of a list (R173). -/
def Collection.nextPosition (c : Collection) (l : Nat) : Nat :=
  ((c.current.filter (ownedBy l)).map fun e => e.first + e.rows).foldl max 0

/-! ### Places -/

/-- Bytes of a row in an extent (R173). -/
def itemRowBytes (c : Collection) : Nat := c.desc.sketchBits / 8 + 24 + c.desc.extBytes

/-- Bytes of an extent: its header and 64 rows (R173, Table 6-1). -/
def extentBytes (c : Collection) : Nat := 64 + 64 * itemRowBytes c

/-- The scan set of a collection (R172). -/
def State.scanSetOf (c : Collection) (s : State) : List Nat := scanSet s.placeImage (placeClassOf s.placeImage c.cls)

/-- The entries of the scan set from a list's home on, entry l mod s first, wrapping at the end; those that are OFFLINE hold nothing (R172, R195). -/
def State.setFrom (c : Collection) (l : Nat) (s : State) : List Nat :=
  let set := s.scanSetOf c
  ((set.drop (l % set.length)) ++ set.take (l % set.length)).filter fun n => (s.nbu n).state != 2

/-- The home NBU of a list (R172). -/
def State.homeNbu (c : Collection) (l : Nat) (s : State) : Nat := (s.setFrom c l).headD 0

/-- The NBU that holds an extent; what an OFFLINE pseudo-channel held is looked for in the list's home (R195). -/
def State.extentNbu (c : Collection) (e : Extent) (s : State) : Nat := if (s.nbu e.nbu).state == 2 then s.homeNbu c e.list else e.nbu

/-- Commands in flight that were bound before an extent was replaced: it is kept for them (R119). -/
def State.extentHeld (c : Collection) (e : Extent) (s : State) : Bool :=
  match e.replaced with
  | none => true
  | some t => (s.boundTo c.id).any fun f => decide (f.boundAt ≤ t)

/-- The extents that take HBM, each with its collection; after a reset a collection has none until its rebuild ends (R134). -/
def State.heldExtents (s : State) : List (Collection × Extent) :=
  (s.index.collections.vals.filter fun c => match c.availability with | .keyPending _ | .rebuilding _ => false | _ => true).flatMap fun c => (c.extents.filter fun e => s.extentHeld c e).map fun e => (c, e)

/-- What is taken in a pseudo-channel, as start and end: extents, and runs that are never allocated again (R187). -/
def State.takenIn (n : Nat) (s : State) : List (Nat × Nat) :=
  ((s.heldExtents.filter fun x => x.2.nbu == n).map fun x => (x.2.addr, x.2.addr + extentBytes x.1)) ++
    (s.nbu n).retired.map fun r => (r * 2048, (r + 1) * 2048)

/-- The address range of a region in a pseudo-channel of its stacks (R338). -/
def regionRange (b : Bytes) (i n : Nat) : List (Nat × Nat) :=
  let r := regionOf b i
  if bit r.stackMask (n / 64) then [(r.base * 65536, (r.base + r.units) * 65536)] else []

/-- Where extents of a collection may lie in a pseudo-channel: its class's region, and then the module working space, which pays for headers and
unused rows (R174, R340, Table 14-2; DEDUCED, log entry 144). -/
def State.extentRanges (c : Collection) (n : Nat) (s : State) : List (Nat × Nat) :=
  regionRange s.placeImage (placeClassOf s.placeImage c.cls).region n ++
    (match kindRegion s.placeImage 6 with | some i => regionRange s.placeImage i n | none => [])

/-- The lowest free place of a size in a range. -/
def freeIn (size : Nat) (taken : List (Nat × Nat)) (r : Nat × Nat) : Option Nat :=
  ((r.1 :: taken.map (·.2)).filter fun x => decide (r.1 ≤ x) && decide (x + size ≤ r.2) &&
    taken.all fun o => decide (x + size ≤ o.1) || decide (o.2 ≤ x)).min?

/-- A place for an extent of a list: the first entry of the scan set from the list's home on that has a free one (R172). -/
def State.freeExtent (c : Collection) (l : Nat) (s : State) : Option (Nat × Nat) :=
  (s.setFrom c l).findSome? fun n => ((s.extentRanges c n).findSome? (freeIn (extentBytes c) (s.takenIn n))).map fun a => (n, a)

/-- Bytes of the module working space that headers and unused rows take (R174). -/
def State.slackBytes (s : State) : Nat := (s.heldExtents.map fun x => 64 + (64 - x.2.rows) * itemRowBytes x.1).sum

/-- Bytes of the module working space (R174, Table 14-2). -/
def State.workingSpace (s : State) : Nat :=
  match kindRegion s.placeImage 6 with | some i => regionMib (regionOf s.placeImage i) * 1048576 | none => 0

/-- Data pages granted in all (R345). -/
def State.grantedPages (s : State) : Nat := (s.tiers.regions.vals.map (·.pages)).sum

/-- Bytes of the module working space that are free: headers and unused rows of extents take of it, and 8 bytes of version for each granted page (R174,
R345, Table 14-2). -/
def State.workingFree (s : State) : Nat := s.workingSpace - (s.slackBytes + 8 * s.grantedPages)

/-- Bytes of commit indices in a pseudo-channel (R120). -/
def State.indexBytes (region n : Nat) (s : State) : Nat :=
  ((s.index.collections.vals.filter fun c => (placeClassOf s.placeImage c.cls).region == region).map fun c =>
    ((c.indices.filter fun x => s.homeNbu c x.list == n).map fun x => 8 * x.entries.length).sum).sum

/-- Bytes of a region in a pseudo-channel that no reservation holds; the reservations lie evenly over its pseudo-channels (R120; DESIGN CHOICE, log
entry 145). -/
def State.unreservedIn (region : Nat) (s : State) : Nat :=
  let r := regionOf s.placeImage region
  let n := 64 * (maskStacks r.stackMask).length
  r.units * 65536 - (s.regionReserved region + n - 1) / n

/-- One more entry of a commit index has room in the home pseudo-channel of its list (R120). -/
def State.indexRoom (c : Collection) (l : Nat) (s : State) : Bool :=
  let r := (placeClassOf s.placeImage c.cls).region
  decide (s.indexBytes r (s.homeNbu c l) + 8 ≤ s.unreservedIn r)

/-! ### Appends -/

/-- The extent that the next row of a list in a segment goes on after: the last of its own that has not been closed; rows that another list shares lie
apart (R151). -/
def Collection.lastExtent (c : Collection) (l seg : Nat) (legacy : Option Nat) : Option Extent :=
  (c.current.filter fun e => e.list == l && e.seg == seg && e.legacy == legacy && !e.closed).getLast?

/-- Open an extent for a list in a segment (R172, R174): none where no place is free or the working space is used up. -/
def State.openExtent (c : Collection) (l seg index first : Nat) (legacy : Option Nat) (s : State) : Option Collection :=
  let s := s.setColl c
  if s.workingFree < extentBytes c then none
  else (s.freeExtent c l).map fun p =>
    { c with
      extents := c.extents ++ [{ id := c.nextExtent, list := l, legacy := legacy, seg := seg, index := index, nbu := p.1, addr := p.2, first := first, rows := 0 }]
      nextExtent := c.nextExtent + 1 }

/-- Record in a commit index that an operation's rows are visible below a position (R120). -/
def indexEntry (csn pos : Nat) : List (Nat × Nat) → List (Nat × Nat)
  | [] => [(csn, pos)]
  | p :: t => if p.1 == csn then (csn, pos) :: t else (csn, pos) :: p :: t

/-- Put a row into an extent, and its operation into the commit index (R120, R185): none where the index has no room. -/
def State.fillRow (c : Collection) (v : Version) (e : Extent) (s : State) : Option (Collection × Nat) :=
  let grown := c.indices.any fun x => x.id == e.index && !x.entries.any (·.1 == v.ins)
  if grown && !(s.setColl c).indexRoom c e.list then none
  else some ({ c with
      extents := c.extents.map fun x => if x.id == e.id then { x with rows := x.rows + 1 } else x
      indices := c.indices.map fun x => if x.id == e.index then { x with entries := indexEntry v.ins (e.first + e.rows + 1) x.entries } else x }, e.id)

/-- Append a row to its list (R172–R174): `indexed` where a commit index covers it; `legacy` is the list that shares it (R151). -/
def State.placeRow (indexed : Bool) (legacy : Option Nat) (c : Collection) (v : Version) (s : State) : Option (Collection × Nat) :=
  match c.lastExtent v.list v.seg legacy with
  | some e =>
    if e.rows < 64 then s.fillRow c v e
    else (s.openExtent c v.list v.seg e.index (e.first + e.rows) legacy).bind fun c => (c.extents.getLast?).bind fun e => s.fillRow c v e
  | none =>
    let index := if indexed then c.nextExtent else 0
    let c' := if indexed then
        { c with indices := c.indices ++ [{ id := c.nextExtent, list := v.list, seg := v.seg }], nextExtent := c.nextExtent + 1 }
      else c
    (s.openExtent c' v.list v.seg index (c.nextPosition v.list) legacy).bind fun c => (c.extents.getLast?).bind fun e => s.fillRow c v e

/-- Place the rows of a collection that have no extent yet, in order; none where an append has to wait (R120, R172, R174). `legacy` names the list that
shares a row, for rows that are placed again. -/
def State.placeRows (indexed : Bool) (legacy : Version → Option Nat) (c : Collection) (s : State) : Option Collection :=
  (c.versions.foldl (fun a v => a.bind fun (x : Collection × List Version) =>
      if v.extent != 0 then some (x.1, v :: x.2)
      else (s.placeRow indexed (legacy v) x.1 v).map fun r => (r.1, { v with extent := r.2 } :: x.2)) (some (c, []))).map
    fun x => { x.1 with versions := x.2.reverse }

/-- The rows of a list's extents stop growing (R123, R151). -/
def Collection.closeExtents (c : Collection) (p : Extent → Bool) : Collection :=
  { c with extents := c.extents.map fun e => if p e then { e with closed := true } else e }

/-! ### What goes when nothing needs it -/

/-- Drop the commit indices of closed segments whose highest CSN the floor has passed (R120). -/
def Collection.dropIndices (c : Collection) : Collection :=
  { c with indices := c.indices.filter fun x => match c.segment x.seg with
      | some g => g.state == .opened || decide (c.floor < c.highest g)
      | none => false }

/-- Free the replaced extents and the old map versions that no command is bound to (R119, R146). -/
def State.tidy (c : Collection) (s : State) : Collection :=
  { c with
    extents := c.extents.filter fun e => s.extentHeld c e
    oldMaps := c.oldMaps.filter fun m => (s.boundTo c.id).any fun f => f.mapBound == m.map.version }

/-- Keep the map version that stands for the commands bound to it, before a newer one is published (R146, R151). -/
def State.keepMap (c : Collection) (s : State) : Collection :=
  let c := s.tidy c
  if (s.boundTo c.id).any fun f => f.mapBound == c.map.version then
    { c with oldMaps := { map := c.map, extents := c.boundExtents c.map.version (2 ^ 64) } :: c.oldMaps }
  else c

/-! ### Replacing extents (R129, R151, R187, R195) -/

/-- Cut rows into extents of 64. -/
def chunk64 : Nat → List Version → List (List Version)
  | 0, _ => []
  | n + 1, l => if l.isEmpty then [] else l.take 64 :: chunk64 n (l.drop 64)

/-- New extents for rows, closed, from a position on, in order, each in the place of `like`; answers the collection with the rows in them, the new
extents not yet among its extents. -/
def State.copyRows (c : Collection) (like : Extent) (rows : List Version) (s : State) : Option (Collection × List Extent) :=
  (chunk64 (rows.length + 1) rows).foldl (fun a l => a.bind fun (x : Collection × List Extent) =>
    let t := s.setColl { x.1 with extents := x.1.extents ++ x.2 }
    if t.workingFree < extentBytes c then none
    else (t.freeExtent c like.list).map fun p =>
      let e : Extent := { like with
        id := x.1.nextExtent, nbu := p.1, addr := p.2, first := like.first + (x.2.map (·.rows)).sum, rows := l.length, closed := true }
      ({ x.1 with
        nextExtent := x.1.nextExtent + 1
        versions := x.1.versions.map fun v => if l.any fun w => w.id == v.id && w.ins == v.ins then { v with extent := e.id } else v }, x.2 ++ [e]))
    (some (c, []))

/-- Put new extents before the first of those they replace, which are kept for the commands bound before (R119). -/
def Collection.replaceExtents (c : Collection) (now : Nat) (old : Extent → Bool) (new : List Extent) : Collection :=
  let mark (e : Extent) : Extent := if old e then { e with replaced := some now } else e
  { c with extents := c.extents.takeWhile (fun e => !old e) ++ new ++ (c.extents.dropWhile fun e => !old e).map mark }

/-- Move an extent to another place of its scan set (R187, R195); none where there is none. -/
def State.moveExtent (c : Collection) (e : Extent) (s : State) : Option Collection :=
  (s.freeExtent c e.list).map fun p => { c with extents := c.extents.map fun x => if x.id == e.id then { x with nbu := p.1, addr := p.2 } else x }

/-- Background work over a collection's extents stops at one that is poisoned (R186). -/
def State.workBlocked (c : Collection) (p : Extent → Bool) (s : State) : Bool :=
  s.index.poisoned.any fun q => q.collection == c.id && c.current.any fun e => e.id == q.extent && p e

/-! ### What NBUs write (R175, R176, R183, R191) -/

/-- Granules that bytes from an offset on touch. -/
def granulesAt (off len : Nat) : Nat := if len = 0 then 0 else (off + len + 63) / 64 - off / 64

/-- Granules that a row's append writes in its extent: the header, and the row's part of each column (R173, R183). -/
def rowGranules (d : Descriptor) (r : Nat) : Nat :=
  let k := d.sketchBits / 8
  1 + granulesAt (64 + r * k) k + granulesAt (64 + 64 * k + 16 * r) 16 + granulesAt (1088 + 64 * k + 8 * r) 8 +
    granulesAt (1600 + 64 * k + r * d.extBytes) d.extBytes

/-- Work of an NBU adds to one of its counters; while it is FAILED, tiles do the work and it does none (R176, R195). -/
def nbuDoes (n off k : Nat) (t : Tab Nbu) : Tab Nbu := if (t.getD n {}).state == 0 && k != 0 then t.put n (nbuCount off k (t.getD n {})) else t

/-- What the NBUs have done to bring a row from one state of its collection to the next: an append, a mark, or a copy inside one pseudo-channel; copies
across pseudo-channels are written by tiles (R175, R176). -/
def Collection.rowWork (old new : Collection) (v : Version) (t : Tab Nbu) : Tab Nbu :=
  let place (c : Collection) (w : Version) : Nat := ((c.extent w.extent).elim 0 (·.nbu))
  let row := rowGranules new.desc (((new.versions.filter (·.extent == v.extent)).findIdx? fun w => w.id == v.id && w.ins == v.ins).getD 0)
  match old.versions.find? fun w => w.id == v.id && w.ins == v.ins with
  | none => nbuDoes (place new v) 0x18 row t
  | some w =>
    let t := if w.del == v.del then t else nbuDoes (place new v) 0x18 1 t
    if w.extent == v.extent then t
    else if w.extent == 0 then nbuDoes (place new v) 0x18 row t
    else if place old w == place new v then nbuDoes (place new v) 0x18 row (nbuDoes (place new v) 0x00 (itemRowBytes new) t)
    else t

/-- Count what the NBUs have written to bring a collection from one state to the next (Table 6-8; DESIGN CHOICE, log entry 151). -/
def State.countWrites (old new : Collection) (s : State) : State :=
  { s with index.nbus := new.versions.foldl (fun t v => old.rowWork new v t) s.index.nbus }

/-- Count the zero-fill of a collection's extents (R94, R132, R197). -/
def State.countFill (c : Collection) (s : State) : State :=
  { s with index.nbus := c.extents.foldl (fun t e => nbuDoes e.nbu 0x18 (extentBytes c / 64) t) s.index.nbus }

/-- Count a pass over the attribute blocks of a collection's rows (R116, Table 6-2). -/
def State.countPass (c : Collection) (perRow : Nat) (s : State) : State :=
  { s with index.nbus := c.current.foldl (fun t e => nbuDoes e.nbu 0x00 (e.rows * perRow) t) s.index.nbus }

end Sys2Proof.Machine
end

