-- ==== Sys2Proof/Machine/CollectionCommands.lean ====
section
/-!
DEFINITION. COLLECTION_CREATE, COLLECTION_DROP, COLLECTION_DESCRIBE, COMMIT_WAIT, GET_ITEMS, and what resumes the commands that
wait (R36, R100–R104, R130–R133).
-/
namespace Sys2Proof.Machine

/-- Read a descriptor and its field table. -/
def readDescriptor (b : Bytes) : Descriptor where
  raw := slice b 0 192
  keyId := BitVec.ofNat 32 (field b 0x04 4)
  dim := field b 0x08 2
  sketchBits := field b 0x0A 2
  refineBits := field b 0x0C 1
  metric := field b 0x0D 1
  vecFormat := field b 0x0E 1
  storeFull := bit (field b 0x0F 1) 0
  storeTokens := bit (field b 0x0F 1) 1
  extBytes := field b 0x11 1
  listsLog2 := field b 0x12 1
  compactPct := field b 0x13 1
  model := field b 0x14 4
  vocab := field b 0x18 4
  chunkTokens := field b 0x1C 2
  sealMs := field b 0x1E 2
  maxItems := field b 0x20 8
  sealItems := field b 0x28 4
  retainCsn := field b 0x2C 4
  fields := (List.range 16).map fun i => readFieldDesc (slice b (0x40 + 8 * i) 8)

/-- Field i of a field table obeys R102. -/
def fieldEntryOk (b : Bytes) (d : Descriptor) (i : Nat) : Bool :=
  let o := 0x40 + 8 * i
  let f := readFieldDesc (slice b o 8)
  if i < field b 0x10 1 then
    1 ≤ f.kind && f.kind ≤ 4 && decide (field b (o + 1) 1 < 2) && zeroField b (o + 4) 4 && fieldInside d.extBytes f &&
      (List.range i).all fun j => !fieldsOverlap (readFieldDesc (slice b (0x40 + 8 * j) 8)) f
  else zeroField b o 8

/-- The checks of a COLLECTION_CREATE plaintext in ascending offset (R100–R102, Table 4-1). -/
def createFields (tenant : Nat) (b : Bytes) : List (Nat × Bool) :=
  let d := readDescriptor b
  [(0x00, ownerOf (field b 0 4) == tenant && field b 0 4 % 2 ^ 20 != 0xFFFFF),
   (0x08, 64 ≤ d.dim && d.dim ≤ 4096 && d.dim % 64 == 0),
   (0x0A, 256 ≤ d.sketchBits && d.sketchBits ≤ 4096 && d.sketchBits % 256 == 0),
   (0x0C, d.refineBits == 4 || d.refineBits == 8), (0x0D, decide (d.metric ≤ 2)), (0x0E, decide (d.vecFormat ≤ 1)),
   (0x0F, decide (field b 0x0F 1 < 4)), (0x10, decide (field b 0x10 1 ≤ 16)), (0x11, d.extBytes ≤ 64 && d.extBytes % 8 == 0),
   (0x12, 10 ≤ d.listsLog2 && d.listsLog2 ≤ 24), (0x13, d.compactPct == 0 || (5 ≤ d.compactPct && d.compactPct ≤ 90)),
   (0x18, (d.vocab == 0) == (d.model == 0)),
   (0x1C, if d.model == 0 then d.chunkTokens == 0 else 1 ≤ d.chunkTokens && d.chunkTokens ≤ 8192),
   (0x1E, 100 ≤ d.sealMs && d.sealMs ≤ 60000), (0x20, 1 ≤ d.maxItems && d.maxItems ≤ 8000000000),
   (0x28, 65536 ≤ d.sealItems && d.sealItems ≤ 16777216), (0x30, b.length == 0xC0 + field b 0x30 4), (0x34, zeroField b 0x34 12)] ++
  (List.range 16).map fun i => (0x40 + 8 * i, fieldEntryOk b d i)

/-- HBM reserved for a collection, for its items and its centroid map (R103, R140). -/
def createReserve (d : Descriptor) (q : QHeader) : Nat :=
  d.maxItems * (d.sketchBits / 8 + 26 + d.extBytes) +
    (2 ^ d.listsLog2 + 2 ^ (d.listsLog2 - 4)) * (64 + 2 * d.dim + 4 * q.degree) + 262144

/-- The encoder and vocabulary generations a text collection pins (R104): they exist, the model is an encoder of the
collection's dimension, and the vocabulary is the one it declares. -/
def State.createModel (d : Descriptor) (f : Flight) (s : State) : Except Detail (Nat × Nat) :=
  if d.model = 0 then .ok (0, 0)
  else do
    let m ← s.handle .model 0x34 d.model f
    need (field m.image 6 1 == 0 && field m.image 0x28 4 == d.dim) (bad 0x34)
    let v ← s.handle .vocab 0x38 d.vocab f
    need (vocabMatches m.image v.image) (bad 0x38)
    return (m.gen, v.gen)

/-- COLLECTION_CREATE (R100–R104, R138–R140, R246, R341). -/
def execCollectionCreate (m : Mbx) (tag : Word) (s : State) : Host.Outcome State Fault Refusal :=
  .next (s.start 0x2001 m tag fun f s => do
    let b := f.plain
    lengthBounds f 0xC0 16777216
    csnZero f
    fields (createFields f.tenant b)
    let d := readDescriptor b
    let img := b.drop 0xC0
    match qimageFault d img with
    | some o => .error (bad (0x20 + 0xC0 + o))
    | none => do
      let id := field b 0 4
      need (s.coll id).isNone (wrongStateAt 0x20)
      match s.trk f.tenant d.keyId with
      | none => .error (keyUnavailable 0x24)
      | some k => do
        let pins ← s.createModel d f
        match s.classFor f.tenant (id % 2 ^ 20) with
        | none => .error (noResources 0xFFFFFFFF)
        | some cls => do
          need (d.model == 0 || (s.crewOfKind 1).isSome) (noResources 0)
          need (decide (s.index.collections.length < 65536)) (noResources 65536)
          let r := (placeClassOf s.placeImage cls).region
          let n := createReserve d (readQHeader img)
          need (decide (n ≤ s.regionFree r)) (noResources (s.regionFree r / 1048576))
          s.quotaHbm f.tenant n
          let c : Collection := {
            id := id, desc := d, qimage := img, gens := [(1, d.keyId, kcv k.key)], modelGen := pins.1, vocabGen := pins.2
            cls := cls, reserved := n, segments := [{ id := 1, state := .opened }] }
          .ok ((s.setColl c).answer f .done (leBytes 8 n ++ zeros 8)))

/-- End the waiting commands of a collection STOPPED. -/
def State.stopWaiters (id : Nat) (s : State) : State :=
  s.host.flights.foldl (fun s f =>
    match f.work with
    | .commitWait c _ _ _ =>
      if c == id then s.answer f .stopped (leBytes 8 ((s.coll id).elim 0 (·.committed)) ++ leBytes 8 ((s.coll id).elim 0 (·.sealedCsn)))
      else s
    | .sealWait c _ | .compactWait c | .ackWait c _ => if c == id then s.answer f .stopped [] else s
    | _ => s) s

/-- A running compaction stops: what it has not switched is discarded, and its inputs stay MERGING, since a segment never returns to an earlier state
(R122, R132). Lists already switched keep their rows, in the output segment. -/
def Collection.stopCompaction (c : Collection) : Collection := { c with compaction := none }

/-- Discard what is acknowledged and not committed (R111, R132). -/
def Collection.discardUncommitted (c : Collection) : Collection :=
  { c with
    ops := c.ops.filter fun o => o.csn ≤ c.committed
    versions := (c.versions.filter fun v => v.ins ≤ c.committed).map fun v =>
      match v.del with | some d => if c.committed < d then { v with del := none } else v | none => v
    extents := c.extents.map fun e =>
      { e with rows := e.rows - (c.versions.filter fun v => v.extent == e.id && decide (c.committed < v.ins)).length }
    indices := c.indices.map fun x => { x with entries := x.entries.filter fun p => decide (p.1 ≤ c.committed) }
    predicates := c.predicates.filter fun t => t.csn ≤ c.committed }

/-- COLLECTION_DROP (R132): the drop is programmed into the directory, admission stops, what waits ends, and uncommitted
operations are discarded; COLLECTION_DROP_COMPLETE answers. -/
def execCollectionDrop (m : Mbx) (tag : Word) (s : State) : Host.Outcome State Fault Refusal :=
  .next (s.start 0x2002 m tag fun f s => do
    opening f 8 8
    fields [(4, zeroField f.plain 4 4)]
    let id := field f.plain 0 4
    let _ ← s.namedColl 0x20 id f
    let s := s.stopWaiters id
    let s := s.updColl id fun c => { (c.stopCompaction).discardUncommitted with dropping := some (m.key, tag) }
    .ok (s.setWork f (.dropWait id)))

/-- COLLECTION_DROP_COMPLETE (R132): nothing refers to the collection any more; its HBM is zero-filled and freed and its flash
queued for reclaim. -/
def execCollectionDropComplete (collection : Word) (s : State) : Host.Outcome State Fault Refusal :=
  let id := collection.toNat
  .next (match s.coll id with
    | some c => match c.dropping with
      | some (m, tag) =>
        if (s.boundTo id).isEmpty then
          let s := { s with
            index.collections := s.index.collections.del id
            index.batch := s.index.batch.filter (·.1 != id)
            tiers.objects := s.tiers.objects.map fun (o : SharedObject) => if o.collection == id then { o with superseded := true } else o }
          let s := (s.countFill c).unmapObject id 0
          match s.flight m tag with
          | some f => s.answer f .done []
          | none => s
        else s
      | none => s
    | none => s)

/-- CS.FLAGS (Table 4-7). -/
def csFlags (c : Collection) : Nat :=
  flag c.compaction.isSome + 2 * flag (c.sealingCount != 0) + 4 * flag (c.availability == .keyLost) +
    8 * flag (match c.availability with | .keyPending _ => true | _ => false) +
    16 * flag (match c.availability with | .rebuilding _ => true | _ => false)

/-- The state block of COLLECTION_DESCRIBE (Table 4-7). -/
def stateBlock (c : Collection) (gens : List Nat) : Bytes :=
  leBytes 8 c.committed ++ leBytes 8 c.assigned ++ leBytes 8 c.floor ++ leBytes 8 c.sealedCsn ++
    leBytes 8 (visibleVersions c c.committed).length ++ leBytes 8 c.versions.length ++
    leBytes 4 c.durableCount ++
    leBytes 4 ((c.openSegment.elim 0 fun x => (c.rows x.id).length)) ++ leBytes 1 c.predicates.length ++ leBytes 1 (csFlags c) ++
    leBytes 2 gens.length ++ ((List.range 4).flatMap fun i => leBytes 2 (gens.getD i 0)) ++
    leBytes 4 (min c.dupIds 0xFFFFFFFF) ++ leBytes 4 (min c.truncChunks 0xFFFFFFFF) ++ leBytes 4 (min c.deleteMisses 0xFFFFFFFF)

/-- COLLECTION_DESCRIBE (R130). -/
def execCollectionDescribe (m : Mbx) (tag : Word) (s : State) : Host.Outcome State Fault Refusal :=
  .next (s.start 0x2003 m tag fun f s => do
    opening f 8 8
    fields [(4, zeroField f.plain 4 4)]
    let c ← s.namedColl 0x20 (field f.plain 0 4) f
    .ok (s.answer f .done (c.desc.raw ++ stateBlock c ((s.liveGensOf c).map (·.1)))))

/-- The condition of a COMMIT_WAIT (R131). -/
def commitReached (c : Collection) (csn : Nat) (needSealed : Bool) : Bool :=
  csn ≤ c.committed && (!needSealed || csn ≤ c.sealedCsn)

/-- COMMITTED and SEALED_CSN. -/
def commitPayload (c : Collection) : Bytes := leBytes 8 c.committed ++ leBytes 8 c.sealedCsn

/-- COMMIT_WAIT (R130, R131). -/
def execCommitWait (m : Mbx) (tag : Word) (s : State) : Host.Outcome State Fault Refusal :=
  .next (s.start 0x2020 m tag fun f s => do
    let b := f.plain
    opening f 32 32
    fields [(4, decide (field b 4 4 < 2)), (0x10, 1 ≤ field b 0x10 4 && field b 0x10 4 ≤ 10000000), (0x14, zeroField b 0x14 12)]
    let id := field b 0 4
    let c ← s.usableColl 0x20 id f
    need (decide (field b 8 8 ≤ c.assigned)) (bad 0x28)
    let csn := if field b 8 8 = 0 then c.assigned else field b 8 8
    let sl := bit (field b 4 4) 0
    if commitReached c csn sl then .ok (s.answer f .done (commitPayload c))
    else .ok (s.setWork f (.commitWait id csn sl (f.arrival + field b 0x10 4 * 1000))))

/-- COMMIT_WAIT_COMPLETE (R131): the condition holds, or the time is over. -/
def execCommitWaitComplete (m : Mbx) (tag : Word) (s : State) : Host.Outcome State Fault Refusal :=
  .next (match s.flight m.key tag with
    | some f => match f.work with
      | .commitWait id csn sl t => match s.coll id with
        | some c =>
          if commitReached c csn sl then s.answer f .done (commitPayload c)
          else if t ≤ s.clock then s.answer f .deadlineExceeded (commitPayload c)
          else s
        | none => s
      | _ => s
    | none => s)

/-- A stream that a command names (R58): it exists and is the tenant's. -/
def State.ownStream (off st : Nat) (f : Flight) (s : State) : Except Detail Stream :=
  match s.host.streams.find st with
  | some x => if x.tenant == f.tenant then .ok x else .error (bad off)
  | none => .error (bad off)

/-- Charge what a command's reads and scans come to (R444); what a served sub-query is charged may still turn out to be the losing side's (R228). -/
def State.chargeHeld (f : Flight) (h : Held) (s : State) : State :=
  let s := s.chargeAll f.tenant h.charges
  match s.servedBy f.mbx with
  | some x => if x.root.isNone then s.noteAnswered x.id x.shard x.from_ x.tenant h.charges h.bytes else s
  | none => s

/-- Give a command its result: in its response, or in the records of its stream (R45, R59). -/
def State.deliver (f : Flight) (h : Held) (s : State) : State :=
  let s := s.chargeHeld f h
  match h.stream with
  | some st => s.streamOut f st h.status h.parts (failed := some h.failed)
  | none => s.answer f h.status h.parts.flatten

/-- End a command by a tier status or by damage, with what it answers then. -/
def State.readsFail (f : Flight) (h : Held) (st : Status) (s : State) : State := (s.chargeHeld f h).answer f st h.failed

/-- Whether rows lie in extents that are poisoned, and whether the rebuild of one has failed (R186, R195). -/
def State.rowsBlocked (c : Collection) (vs : List Version) (s : State) : Option Bool :=
  let hit := s.index.poisoned.filter fun p => p.collection == c.id && vs.any (·.extent == p.extent)
  if hit.isEmpty then none else some (hit.any (·.dead))

/-- A command's result waits for its reads, or is given at once where it has none; with the media FAILED a flash access fails
at once (R358, R374). Of the reads, `refine` are refine reads that are issued now (R234). -/
def State.afterReads (f : Flight) (reads : List Read) (h : Held) (s : State) (refine : Nat := 0) : State :=
  if reads.isEmpty then s.deliver f h
  else if s.flash.failed && reads.any (·.tier == .flash) then s.readsFail f h .tierFailed
  else
    let old := s.comp.readsIssued.filter fun x => s.clock < x.1 + 10000000
    ({ s with comp.readsIssued := old ++ List.replicate refine (s.clock, false) } : State).setWork f (.reads reads h)

/-- One entry of GET_ITEMS (Table 4-8) for a version. -/
def itemEntry (d : Descriptor) (vec tok : Bool) (v : Version) : Bytes :=
  padTo 8 (leBytes 8 v.id ++ leBytes 4 (1 + 2 * flag vec + 4 * flag tok) ++
    leBytes 4 (if tok then v.tokens.length else 0) ++ leBytes 8 v.packed ++ v.ext.take d.extBytes ++
    (if vec then v.vector else []) ++ (if tok then v.tokens.flatMap (leBytes 4) else []))

/-- The entry of an ID with no visible version. -/
def missingEntry (d : Descriptor) (id : Nat) : Bytes := leBytes 8 id ++ zeros 16 ++ zeros d.extBytes

/-- The visible versions of an ID, in ascending ins. -/
def versionsOf (c : Collection) (q id : Nat) : List Version :=
  sortBy ((visibleVersions c q).filter (·.id == id)) fun a b => a.ins ≤ b.ins

/-- The size of a record of an area (Table 10-8). -/
def areaRecord (d : Descriptor) (area : Nat) : Nat :=
  match area with
  | 0 => d.dim * d.refineBits / 8
  | 1 => d.dim * (if d.vecFormat == 1 then 2 else 4)
  | _ => 8 * ((4 + 4 * d.chunkTokens + 7) / 8)

/-- Sectors that an area of a segment takes (R277). -/
def areaSectors (d : Descriptor) (area rows : Nat) : Nat :=
  if (area == 1 && !d.storeFull) || (area == 2 && !d.storeTokens) || rows == 0 then 0
  else (recordPlace (areaRecord d area) (rows - 1)).1 + max 1 ((areaRecord d area + 4095) / 4096)

/-- The logical unit that holds a sector of an area of a segment: the areas follow one another in the object's sectors (R277, R361; their order is
DESIGN CHOICE, log entry 163). -/
def State.unitOf (c : Collection) (seg area sector : Nat) (s : State) : Option Nat :=
  let base := ((List.range area).map fun a => areaSectors c.desc a (c.rows seg).length).sum
  ((s.unitsOf c.id seg).find? fun e => e.2.index == (base + sector) / 16).map Prod.fst

/-- A read goes through the map: where the page that names its unit is in a MAP region and not in HBM, that page is read first (R366). -/
def State.throughMap (c : Collection) (r : Read) (s : State) : Read :=
  match if r.tier == .flash then (s.unitOf c r.seg r.area r.sector).map mapPage else none with
  | none => r
  | some p =>
    if s.flash.hbmPages.contains p then r
    else match s.flash.hostPages.find p with
      | some g => { r with tier := .host g, mapPage := some p }
      | none => r

/-- Add a version's sector to a list of reads; versions whose records share a sector share one read (R162). -/
def addRead (r : Read) : List Read → List Read
  | [] => [r]
  | x :: t => if x.seg == r.seg && x.area == r.area && x.sector == r.sector && x.tier == r.tier then
      { x with items := x.items ++ r.items.filter fun i => !x.items.contains i } :: t
    else x :: addRead r t

/-- The CACHE page that holds a refine sector, by region (R348). -/
def State.cachedIn (coll seg sector : Nat) (s : State) : Option Nat :=
  (s.tiers.regions.find? fun e => e.2.kind == 2 && !e.2.failed && e.2.revoking.isNone &&
    e.2.live.any fun p => p.2.collection == coll && p.2.seg == seg && p.2.sector == sector).map Prod.fst

/-- The reads that bring the records of versions in an area: none for a staged record; a CACHE page before flash for refine codes
(R125, R162, R277, R348), and a map page in a MAP region before that (R366). -/
def State.recordReads (c : Collection) (area : Nat) (vs : List Version) (s : State) : List Read :=
  let size := areaRecord c.desc area
  let n := max 1 ((size + 4095) / 4096)
  ((vs.filter (!·.staged)).flatMap fun v => (List.range n).map fun i =>
    let sector := (recordPlace size v.pos).1 + i
    let tier := if area == 0 then match s.cachedIn c.id v.seg sector with | some r => Tier.host r | none => .flash else .flash
    s.throughMap c { tier := tier, collection := c.id, seg := v.seg, area := area, sector := sector, since := s.clock, items := [(v.id, v.ins)] }).foldl
    (fun l r => addRead r l) []

/-- The second wave of a result's reads goes out, each to the copy that holds now (R162, R164), or the result is given. -/
def State.nextReads (f : Flight) (h : Held) (s : State) : State :=
  let reads := h.next.flatMap fun x => match s.coll x.1 with
    | some c => s.recordReads c x.2.1 (x.2.2.filterMap fun k => c.versions.find? fun v => v.id == k.1 && v.ins == k.2)
    | none => []
  let s := if h.next.isEmpty then s else s.stage f ((h.next.map (·.2.2.length)).sum)
  s.afterReads f reads { h with next := [] }

/-- GET_ITEMS (R133): every visible version of each ID, whole entries, in request order. -/
def execGetItems (m : Mbx) (tag : Word) (s : State) : Host.Outcome State Fault Refusal :=
  .next (s.start 0x2040 m tag fun f s => do
    let b := f.plain
    lengthBounds f 24 32784
    let n := field b 4 2
    fields [(4, 1 ≤ n && n ≤ 4096), (6, decide (field b 6 2 < 4)), (0xA, zeroField b 0xA 6)]
    need (b.length == 16 + 8 * n) (bad 0x0C)
    let str ← if hdrStream f.hdr then (s.ownStream 0x28 (field b 8 2) f).map some else pure none
    let c ← s.usableColl 0x20 (field b 0 4) f
    csnAssigned c f
    let vec := bit (field b 6 2) 0
    let tok := bit (field b 6 2) 1
    need ((!vec || c.desc.storeFull) && (!tok || c.desc.storeTokens)) (bad 0x26)
    s.bindSnapshot c f (fun q s =>
      let found := (List.range n).map fun i => (field b (16 + 8 * i) 8, versionsOf c q (field b (16 + 8 * i) 8))
      let entries := found.flatMap fun x => if x.2.isEmpty then [missingEntry c.desc x.1] else x.2.map (itemEntry c.desc vec tok)
      let all := found.flatMap Prod.snd
      match s.rowsBlocked c all with
      | some true => .ok (s.answer f .dataDamaged [])
      | some false => .ok (s.setWork f .rebuildWait)
      | none =>
      let reads := (if vec then s.recordReads c 1 all else []) ++ (if tok then s.recordReads c 2 all else [])
      match str with
      | some x => .ok (s.afterReads f reads { status := .done, parts := packEntries (recordMax x - 24) entries, stream := some (field b 8 2) })
      | none =>
        let fit := fitEntries (s.rspPlain f.mbx) entries
        .ok (s.afterReads f reads { status := if fit.2 then .done else .doneTruncated, parts := fit.1 })))

/-- ADMISSION_RESUME (R36): commands that waited for ring space, for the in-flight limit, or for a CSN go on once the condition
clears. -/
def execAdmissionResume (m : Mbx) (s : State) : Host.Outcome State Fault Refusal :=
  let ring (s : State) : State :=
    let s := s.resumeHeld m.key
    s.updMbx m.key fun b => { b with
      limitWait := b.limitWait && decide (s.inflightLimit m.key ≤ s.inFlight m.key)
      rspWait := b.rspWait && ((s.host.held.find m.key).isSome || !s.rspRoom m.key 1) }
  let s := if m.key ≤ 4096 then ring s else s
  .next { s with host.flights := s.host.flights.map fun f =>
    match f.work with
    | .csnWait c q =>
      if f.mbx == m.key && (match s.coll c with | some c => q ≤ c.committed || c.availability != .ready || c.dropping.isSome | none => true) then
        { f with work := .admitted }
      else f
    | _ => f }

end Sys2Proof.Machine
end

