-- ==== Sys2Proof/Machine/Links.lean ====
section
/-!
DEFINITION. Vievo ports and links: training, discovery, keys, the link layer, fabric clocks (R391–R398, R420, R434, R473).
-/
namespace Sys2Proof.Machine

/-- The hub a port belongs to (Table 16-1). -/
def portHub (port : Nat) : Nat := port / 16

/-- A port may leave DOWN (R396, R434, R473): the fabric runs, its hub's clock has been present for 10 ms, no fence holds it idle, and 10 ms have
passed since it went DOWN. -/
def State.mayTrain (port : Nat) (s : State) : Bool :=
  let x := s.vievo port
  s.fabricUp && s.pins.fabClk.getLsbD (portHub port) && !x.idled && decide (x.since + 10000000 ≤ s.clock)

/-- A port goes DOWN: what was in its replay buffer is lost (R394), and what discovery found is forgotten. -/
def State.linkDown (port : Nat) (s : State) : State :=
  s.updVievo port fun x => {
    x with
    state := .down, heldReason := 0, since := s.clock, lanes := 0, marginal := false, partner := none, partnerSerial := 0, partnerBuild := 0
    hello := false, identity := [], said := [], heard := [], kex := false, kexIn := [], kexOut := none, transcript := [], txKey := [], rxKey := []
    replay := [], awaiting := false, replays := 0, arrived := [], owed := [0, 0, 0, 0, 0, 0, 0, 0]
    credits := [2048, 4096, 4096, 4096, 4096, 4096, 4096, 0] }

/-- A discovery message (Table 16-20). -/
def discoveryMessage (kind part : Nat) (body : Bytes) : Bytes :=
  leBytes 1 kind ++ leBytes 1 part ++ zeros 2 ++ leBytes 4 body.length ++ body

/-- The HELLO of a port (Table 16-21). -/
def State.helloBody (port : Nat) (s : State) : Bytes :=
  leBytes 8 Config.serial.toNat ++ leBytes 2 s.nodeId ++ leBytes 1 (flag s.fabric.route.isSome) ++ leBytes 1 port ++
    leBytes 4 Config.flaumBuild.toNat ++ zeros 16

/-- Send a link-local discovery message: in DISCOVERY frames, or on a live link in packets of class 0, which go ahead of what is queued
(R393, R398, R410). -/
def State.sendLink (port kind part : Nat) (body : Bytes) (s : State) : State :=
  let b := discoveryMessage kind part body
  let live := portOpen (s.vievo port)
  let dst := (s.vievo port).partner.getD 0
  let id := s.fabric.nextMsg.getD (dst * 8) 0
  let p : FabPacket := {
    type := 1, cls := 0, hops := 16, dst := dst, src := s.nodeId, pkey := 0, first := true, last := false, module := true, tenant := 0
    msgId := id, offset := 0, msgLen := b.length, payload := [] }
  let s := { s with fabric.nextMsg := s.fabric.nextMsg.put (dst * 8) ((id + 1) % 2 ^ 32) }
  (messagePackets p (b.length / 4096 + 1) 0 b).foldl (fun s p =>
    if live then s.sendFrame port 1 0 (packetBytes p) else s.emit (.frame port 0 3 false (discoveryFrame (packetBytes p))))
    (s.emit (.link port 1 b))

/-- The HELLO and IDENTITY messages of a port, in the order they are sent (R397): kind, part and body. -/
def State.identityMessages (port : Nat) (s : State) : List (Nat × Nat × Bytes) :=
  (1, 0, s.helloBody port) :: [0, 1, 2].map fun part => (2, part, Config.certificate part)

/-- Send HELLO and the three IDENTITY messages (R397). -/
def State.sendIdentity (port : Nat) (s : State) : State :=
  let l := s.identityMessages port
  let s := l.foldl (fun s m => s.sendLink port m.1 m.2.1 m.2.2) s
  s.updVievo port fun x => { x with sentAt := s.clock, said := l.flatMap fun m => discoveryMessage m.1 m.2.1 m.2.2 }

/-! ### Link keys (R398) -/

/-- The body of the KEX of an encapsulation (Table 16-21). -/
def kexBody (n : Nat) : Bytes := Config.encapsulation n ++ zeros 7

/-- What two ends contribute, the end with the lower serial first. -/
def lowFirst (x : Port) (own other : Bytes) : Bytes := if Config.serial.toNat < x.partnerSerial then own ++ other else other ++ own

/-- TH (R398, R420): over both ends' HELLO and certificate messages; at a rekey over the previous TH and both KEX messages. -/
def Port.newTranscript (x : Port) (draw : Nat) : Bytes :=
  Config.sha384 (if x.state == .keying then lowFirst x x.said x.heard
    else x.transcript ++ lowFirst x (discoveryMessage 3 0 (kexBody draw)) x.kexIn)

/-- LS (R398): ss_lo comes from the encapsulation to the end with the lower serial, that is, the one which the other end made. -/
def Port.linkSecret (x : Port) (draw : Nat) : Bytes :=
  Config.hkdfExtract (ascii "TRB-SN4 link") (lowFirst x (hybridSecret (slice x.kexIn 8 1665)) (ownSecret draw) ++ x.newTranscript draw)

/-- The key of the direction in which the module of a serial sends: 32 bytes of key, 4 of salt (R398). -/
def linkKey (ls : Bytes) (sender : Nat) : Bytes := Config.hkdfExpand ls (ascii "TRB-SN4 link tx" ++ leBytes 8 sender) 36

/-- CONFIRM of a sender (Table 16-21). -/
def linkConfirm (ls th : Bytes) (sender : Nat) : Bytes :=
  Config.hmac (Config.hkdfExpand ls (ascii "TRB-SN4 link confirm" ++ leBytes 8 sender) 48) th

/-- Send KEX (R398): of a new encapsulation, or again of the one of the exchange in progress. -/
def State.sendKex (port : Nat) (s : State) : State :=
  let (n, s) := match (s.vievo port).kexOut with
    | some n => (n, s)
    | none => s.draw
  let s := s.sendLink port 3 0 (kexBody n)
  s.updVievo port fun x => { x with sentAt := s.clock, kexOut := some n }

/-- Send KEX_CONFIRM (R420): both encapsulations of the exchange are there. -/
def State.sendConfirm (port : Nat) (s : State) : State :=
  let x := s.vievo port
  let n := x.kexOut.getD 0
  s.sendLink port 4 0 (linkConfirm (x.linkSecret n) (x.newTranscript n) Config.serial.toNat)

/-- Begin discovery on a trained port (R396, R397). -/
def State.beginDiscovery (port : Nat) (s : State) : State :=
  let s := s.updVievo port fun x => {
    x with
    state := .discoveryOnly, heldReason := 0, since := s.clock, partner := none, partnerSerial := 0, partnerBuild := 0
    hello := false, identity := [], heard := [], kex := false, kexIn := [], kexOut := none }
  s.sendIdentity port

/-- A port is HELD with a reason of Table 16-16. -/
def State.holdPort (port reason : Nat) (s : State) : State :=
  s.updVievo port fun x => { x with state := .held, heldReason := reason, since := s.clock, kex := false, kexIn := [], kexOut := none }

/-- The reason the route image gives for holding a port: 1 DISABLED, 2 MISCABLED, 3 BUILD (R397, Table 16-4). -/
def State.routeHolds (port : Nat) (s : State) : Option Nat :=
  match s.fabric.route with
  | none => none
  | some r =>
    let e := field r (0x20 + 4 * port) 4
    let x := s.vievo port
    if !bit e 17 then some 1
    else if bit e 16 && x.partner != some (bits e 0 15) then some 2
    else if bit (field r 6 2) 1 && decide (x.partnerBuild < field r 0x14 4) then some 3
    else none

/-- The lanes a port runs with (R392): all eight, the group of four that trained, or none. -/
def lanesUsed (l : BitVec 8) : Nat :=
  if l = 0xFF then 0xFF else if l &&& 0x0F = 0x0F then 0x0F else if l &&& 0xF0 = 0xF0 then 0xF0 else 0

/-- PORT_TRAINING (R392, R396): `lanes` are those that trained. -/
def execPortTraining (port : Fin 32) (lanes : BitVec 8) (s : State) : Host.Outcome State Fault Refusal :=
  let x := s.vievo port
  .next (if (x.state == .down || x.state == .training) && s.mayTrain port then
    let l := lanesUsed lanes
    if l = 0 then s.linkDown port
    else (s.updVievo port fun x => { x with lanes := l }).beginDiscovery port
  else s)

/-- PORT_RETRAIN_TIMER (R396): a DOWN port trains again. -/
def execPortRetrainTimer (port : Fin 32) (s : State) : Host.Outcome State Fault Refusal :=
  .next (if (s.vievo port).state == .down && s.mayTrain port then s.updVievo port fun x => { x with state := .training } else s)

/-- HELD_RETRY_TIMER (R397, R406): after 10 s. -/
def execHeldRetryTimer (port : Fin 32) (s : State) : Host.Outcome State Fault Refusal :=
  let x := s.vievo port
  .next (if x.state == .held && s.fabricUp && decide (x.since + 10000000000 ≤ s.clock) then s.beginDiscovery port else s)

/-- PORT_LANE_LOSS (R396): from any state to DOWN. -/
def execPortLaneLoss (port : Fin 32) (s : State) : Host.Outcome State Fault Refusal :=
  .next (if (s.vievo port).state == .down then s else s.linkDown port)

/-- A discovery message's head and length hold (R406, Table 16-20). -/
def discoveryFaultless (b : Bytes) : Bool := 8 ≤ b.length && zeroField b 2 2 && field b 4 4 == b.length - 8

/-- HELLO (R397). -/
def execHello (s : State) : Host.Outcome State Fault Refusal :=
  .next (match s.takeMessage 0x01 [1] with
    | none => s
    | some (x, s) =>
      let b := x.body.drop 8
      let f := field b 10 1
      s.wellFormed x (discoveryFaultless x.body && field x.body 1 1 == 0 && b.length == 32 && decide (f < 4) && zeroField b 16 16) (fun s =>
        if (s.vievo x.port).state != .discoveryOnly then s
        else s.updVievo x.port fun y => { y with
          hello := true, heard := if y.hello then y.heard else y.heard ++ x.body, partnerSerial := field b 0 8, partner := if bit f 0 then some (field b 8 2) else none, partnerBuild := field b 12 4 }))

/-- IDENTITY (R397): `verified` is the verdict on the whole identity. With its last part the port is HELD, or moves to KEYING and sends its
encapsulation (R398). -/
def execIdentity (verified : Bool) (s : State) : Host.Outcome State Fault Refusal :=
  .next (match s.takeMessage 0x01 [2] with
    | none => s
    | some (x, s) =>
      let part := field x.body 1 1
      s.wellFormed x (discoveryFaultless x.body && decide (part ≤ 2) && (part != 2 || x.body.length == 1792)) (fun s =>
        let p := x.port
        if (s.vievo p).state != .discoveryOnly then s
        else
          let s := s.updVievo p fun y => if y.identity.contains part then y else { y with identity := y.identity ++ [part], heard := y.heard ++ x.body }
          if (s.vievo p).identity.length < 3 || !(s.vievo p).hello then s
          else if !verified then s.holdPort p 4
          else match s.routeHolds p with
            | some r => s.holdPort p r
            | none => (s.updVievo p fun y => { y with state := .keying, since := s.clock }).sendKex p))

/-- The partner of a port is fenced electrically here (R434). -/
def State.electricallyFenced (port : Nat) (s : State) : Bool := (s.vievo port).partner.any s.comp.electrical.contains

/-- A port whose exchange is complete, under its new keys: FSEQ begins at 1 in both directions (R393, R398). -/
def Port.keyed (now : Nat) (x : Port) : Port :=
  let n := x.kexOut.getD 0
  { x with
    state := if x.lanes = 0xFF then .up else .degraded
    since := if x.state == .keying then now else x.since
    transcript := x.newTranscript n, txKey := linkKey (x.linkSecret n) Config.serial.toNat, rxKey := linkKey (x.linkSecret n) x.partnerSerial
    kex := false, kexIn := [], kexOut := none, keyGen := x.keyGen + 1, keyedAt := now, txSeq := 0, rxSeq := 0, acked := 0, ackSent := 0
    ackSince := now, replays := 0, awaiting := false, replay := [] }

/-- Link keys are installed; a partner that is fenced electrically is cut off at once (R398, R434). -/
def State.installKeys (port : Nat) (s : State) : State :=
  let s := s.updVievo port (Port.keyed s.clock)
  match (s.vievo port).partner with
  | some n => if s.electricallyFenced port then (s.linkDown port).updVievo port fun x => { x with idledBy := [n] } else s
  | none => s

/-- A port exchanges keys: at bring-up, or for a rekey on the live link (R398). -/
def portKeys (x : Port) : Bool := x.state == .keying || x.state == .up || x.state == .degraded

/-- KEX (R398, R420): the partner's encapsulation is held, and KEX_CONFIRM goes out; on a live link it begins or answers a rekey. -/
def execKex (s : State) : Host.Outcome State Fault Refusal :=
  .next (match s.takeMessage 0x01 [3] with
    | none => s
    | some (x, s) =>
      s.wellFormed x (discoveryFaultless x.body && field x.body 1 1 == 0 && x.body.length == 1680 && zeroField x.body 1673 7) (fun s =>
        let y := s.vievo x.port
        if !portKeys y || y.kex then s
        else
          let s := if y.kexOut.isSome then s else s.sendKex x.port
          (s.updVievo x.port fun y => { y with kex := true, kexIn := x.body, sentAt := s.clock }).sendConfirm x.port))

/-- KEX_CONFIRM (R398, R420): verified, the keys are installed; one that fails holds the port. -/
def execKexConfirm (verified : Bool) (s : State) : Host.Outcome State Fault Refusal :=
  .next (match s.takeMessage 0x01 [4] with
    | none => s
    | some (x, s) =>
      s.wellFormed x (discoveryFaultless x.body && field x.body 1 1 == 0 && x.body.length == 56) (fun s =>
        let y := s.vievo x.port
        if !portKeys y || !y.kex then s
        else if verified then s.installKeys x.port else s.holdPort x.port 4))

/-- LINK_REKEY (R398): the exchange repeats after 2⁴⁰ frames or 24 h. -/
def execLinkRekey (port : Fin 32) (s : State) : Host.Outcome State Fault Refusal :=
  let x := s.vievo port
  .next (if (x.state == .up || x.state == .degraded) && x.kexOut.isNone && (decide (2 ^ 40 ≤ x.txSeq) || decide (x.keyedAt + 86400000000000 ≤ s.clock)) then
    s.sendKex port
  else s)

/-- The messages of a key exchange go out again: KEX, and KEX_CONFIRM where the partner's KEX is held (Table 16-8). -/
def State.resendKeys (port : Nat) (s : State) : State :=
  let s := s.sendKex port
  if (s.vievo port).kex then s.sendConfirm port else s

/-- DISCOVERY_MESSAGE_RETRY (Table 16-8): what the port's state, or a rekey in progress, has sent goes out again after 100 ms. -/
def execDiscoveryMessageRetry (port : Fin 32) (s : State) : Host.Outcome State Fault Refusal :=
  let x := s.vievo port
  .next (if !s.fabricUp || s.clock < x.sentAt + 100000000 then s
  else match x.state with
    | .discoveryOnly => s.sendIdentity port
    | .keying => s.resendKeys port
    | .up | .degraded => if x.kexOut.isSome then s.resendKeys port else s
    | _ => s)

/-! ### The link layer -/

/-- Frames of KIND 0–2 pass (Table 16-3). -/
def linkUp (x : Port) : Bool := x.state == .up || x.state == .degraded

/-- A frame is dropped, and RETRY_REQ asks for the one that is expected (R394). -/
def State.dropFrame (port : Nat) (s : State) : State :=
  if (s.vievo port).awaiting then s else (s.updVievo port fun x => { x with awaiting := true }).sendFrame port 2 0 []

/-- Count what FEC made of a frame (Table 16-16). -/
def State.countFec (port : Nat) (c : FrameCheck) (s : State) : State :=
  match c with
  | .corrected => s.updVievo port fun x => { x with correctedCw := s.clock :: x.correctedCw.filter fun t => s.clock < t + 1000000000 }
  | .uncorrectable => s.updVievo port fun x => { x with uncorrectableCw := min (x.uncorrectableCw + 1) 0xFFFFFFFF }
  | _ => s

/-- The frame's data is intact. -/
def frameIntact : FrameCheck → Bool
  | .good | .corrected => true
  | _ => false

/-- LH.ACK and LH.CREDIT of an accepted frame: what is acknowledged leaves the replay buffer, and credits return (R394, R395). -/
def State.acceptFrame (port : Nat) (h : Bytes) (s : State) : State :=
  let ack := field h 8 6
  let c := field h 14 2
  s.updVievo port fun x =>
    let progress := decide (x.acked < ack)
    let cls := c % 8
    { x with
      rxSeq := x.rxSeq + 1, awaiting := false, acked := max x.acked ack, replay := x.replay.keep fun q _ => ack < q
      ackSince := if progress then s.clock else x.ackSince, replays := if progress then 0 else x.replays
      credits := x.credits.set cls (x.credits.getD cls 0 + c / 8) }

/-- LINK_FRAME_RECEIVE (R393, R394): a frame of KIND 0, 1 or 3; a RETRY_REQ frame is a row of its own. -/
def execLinkFrameReceive (port : Fin 32) (header packet : Bytes) (check : FrameCheck) (s : State) : Host.Outcome State Fault Refusal :=
  let kind := field header 6 1
  let x := s.vievo port
  .next (
    if !s.fabricUp || x.idled || kind == 2 then s
    else
      let s := if x.state == .down || x.state == .training then s else s.countFec port check
      if kind == 3 then
        if (x.state == .discoveryOnly || x.state == .keying || x.state == .held) && frameIntact check then
          s.updVievo port fun x => { x with arrived := x.arrived ++ [packet] }
        else s
      else if !linkUp x then s
      else if !frameIntact check || field header 0 6 != x.rxSeq + 1 then s.dropFrame port
      else
        let s := s.acceptFrame port header
        if kind == 1 then s.updVievo port fun x => { x with arrived := x.arrived ++ [packet] } else s)

/-- The frames of the replay buffer above an FSEQ go out again (R394). -/
def State.replayFrom (port ack : Nat) (s : State) : State :=
  let x := s.vievo port
  let l := x.replay.keys.filter fun q => ack < q
  let s := s.updVievo port fun x => { x with
    retries := min (x.retries + l.length) 0xFFFFFFFF, replays := if l.isEmpty then x.replays else x.replays + 1 }
  l.foldl (fun s q =>
    let f := (x.replay.find q).getD { kind := 0, bytes := [] }
    s.emit (.frame port q f.kind true f.bytes)) s

/-- RETRY_REQ (R394). -/
def execRetryReq (port : Fin 32) (header : Bytes) (check : FrameCheck) (s : State) : Host.Outcome State Fault Refusal :=
  let x := s.vievo port
  .next (
    if !s.fabricUp || !linkUp x || x.idled || field header 6 1 != 2 then s
    else
      let s := s.countFec port check
      if !frameIntact check || field header 0 6 != x.rxSeq + 1 then s.dropFrame port
      else (s.acceptFrame port header).replayFrom port (field header 8 6))

/-- LINK_ACK_TIMEOUT (R394): 8 fruitless replays, or 1 ms without an acknowledgement. -/
def execLinkAckTimeout (port : Fin 32) (s : State) : Host.Outcome State Fault Refusal :=
  let x := s.vievo port
  .next (if linkUp x && !x.replay.isEmpty && (decide (8 ≤ x.replays) || decide (x.ackSince + 1000000 ≤ s.clock)) then s.linkDown port else s)

/-- PORT_MARGINAL (R392): flagged and logged; the port keeps running. -/
def execPortMarginal (port : Fin 32) (s : State) : Host.Outcome State Fault Refusal :=
  let x := s.vievo port
  .next (if x.state != .down && !x.marginal then (s.updVievo port fun x => { x with marginal := true }).logUnit port else s)

/-- FAB_REFCLK_LOSS (R473): every port of the hub goes DOWN. -/
def execFabRefclkLoss (hub : Fin 2) (s : State) : Host.Outcome State Fault Refusal :=
  .next (if s.pins.fabClk.getLsbD hub then
    let s := { s with pins.fabClk := s.pins.fabClk &&& ~~~(1#2 <<< hub.val) }
    let s := (List.range 16).foldl (fun s i =>
      if (s.vievo (16 * hub + i)).state == .down then s else s.linkDown (16 * hub + i)) s
    s.logUnit hub
  else s)

/-- FAB_REFCLK_RESTORE (R473): the clock has been present for 10 ms, and the hub's ports may train. -/
def execFabRefclkRestore (hub : Fin 2) (s : State) : Host.Outcome State Fault Refusal :=
  .next { s with pins.fabClk := s.pins.fabClk ||| (1#2 <<< hub.val) }

end Sys2Proof.Machine
end

