-- ==== Sys2Proof/Machine/Packets.lean ====
section
/-!
DEFINITION. Packets: receiving, reassembly, forwarding, ageing, egress turns, gates (R401–R413, R433).
-/
namespace Sys2Proof.Machine

/-! ### Packets as they arrive (Table 16-7) -/

/-- A packet's fields. -/
def readPacket (b : Bytes) : FabPacket where
  type := field b 1 1
  cls := field b 2 1
  hops := field b 3 1
  dst := field b 4 2
  src := field b 6 2
  pkey := field b 8 2
  first := bit (field b 10 1) 0
  last := bit (field b 10 1) 1
  module := bit (field b 10 1) 2
  tenant := field b 14 2
  msgId := field b 16 4
  offset := field b 20 4
  msgLen := field b 24 4
  payload := b.drop 32

/-- The CRC of a packet holds (R405). -/
def packetCrcHolds (b : Bytes) : Bool := 32 ≤ b.length && field b 28 4 == (crc32c (slice b 0 28 ++ zeros 4 ++ b.drop 32)).toNat

/-- The class a message type takes (Table 16-8). -/
def typeClassOk (type cls : Nat) : Bool :=
  match type with
  | 0x01 | 0x02 | 0x03 | 0x60 => cls == 0
  | 0x10 | 0x11 | 0x12 | 0x13 | 0x14 => 1 ≤ cls && cls ≤ 3
  | 0x20 => cls == 4
  | 0x21 | 0x31 => cls == 5
  | 0x30 => 1 ≤ cls && cls ≤ 3
  | 0x40 => cls == 5 || cls == 2
  | 0x50 => cls ≤ 3
  | _ => false

/-- A packet obeys Table 16-7 (R406). -/
def packetFaultless (b : Bytes) : Bool :=
  let p := readPacket b
  field b 0 1 == 1 && typeClassOk p.type p.cls && decide (p.pkey < 4096) && decide (field b 10 1 < 8) && field b 11 1 == 0 &&
    decide (p.payload.length ≤ 4096) && field b 12 2 == p.payload.length && decide (p.tenant < 4096) && (!p.module || p.tenant == 0) &&
    decide (p.msgLen ≤ 16781312) && (!p.first || p.offset == 0)

/-- Discovery and time messages belong to the link they come by; every other packet to the node it names. -/
def State.forMe (p : FabPacket) (s : State) : Bool :=
  p.type == 1 || p.type == 2 || (p.dst == s.nodeId && s.fabric.route.isSome)

/-- A node other than this module is fenced here (R433). -/
def State.fencedOther (n : Nat) (s : State) : Bool := s.fencedNode n && n != s.nodeId

/-- A fence drops a packet that carries a fenced node, unless it is of class 0 in partition 0 (R433). -/
def State.fenceDrops (p : FabPacket) (s : State) : Bool :=
  !(p.cls == 0 && p.pkey == 0) && (s.fencedOther p.src || s.fencedOther p.dst)

/-- The destination's partition check (R407). -/
def State.pkeyAccepts (p : FabPacket) (s : State) : Bool :=
  if p.pkey == 0 then baseType p.type else p.pkey == s.comp.partition

/-- The transit check (R407). -/
def State.pkeyTransit (p : FabPacket) (s : State) : Bool :=
  p.pkey == s.comp.partition || p.pkey == 0 || bit (field s.routeImage (0xA0 + p.pkey / 8) 1) (p.pkey % 8)

/-- Count a packet dropped under R403. -/
def State.countDrop (s : State) : State := { s with fabric.dropped := min (s.fabric.dropped + 1) 0xFFFFFFFF }

/-- Count a message dropped under R405. -/
def State.countLost (s : State) : State := { s with fabric.lost := min (s.fabric.lost + 1) 0xFFFFFFFF }

/-- Tell a packet's source that its message was not delivered (R403): at most 1,000 a second and source. -/
def State.unreachable (p : FabPacket) (reason : Nat) (s : State) : State :=
  let body := leBytes 4 p.msgId ++ leBytes 2 p.dst ++ leBytes 1 reason ++ leBytes 1 p.type ++ zeros 8
  if p.src == s.nodeId then
    { s with fabric.inbox := s.fabric.inbox ++ [{ type := 3, cls := 0, src := s.nodeId, tenant := 0, port := 0, body := body }] }
  else
    let recent := s.fabric.unreachSent.filter fun e => s.clock < e.2 + 1000000000
    if 1000 ≤ (recent.filter (·.1 == p.src)).length then s
    else ({ s with fabric.unreachSent := (p.src, s.clock) :: recent } : State).post p.src 3 0 0 true body

/-- Take the oldest packet of a port; the space its frame had is free again, and its credits are to be returned (R395). -/
def State.takePacket (port : Nat) (s : State) : Option (Bytes × State) :=
  match (s.vievo port).arrived with
  | b :: rest => some (b, s.updVievo port fun x => { x with
      arrived := rest
      owed := if linkUp x then x.owed.modify (field b 2 1) (· + creditUnits b.length) else x.owed })
  | [] => none

/-! ### Reassembly (R405) -/

/-- Drop what is in reassembly for a flow. -/
def State.dropAssembly (src cls : Nat) (s : State) : State :=
  { s with fabric.reassembly := s.fabric.reassembly.filter fun r => !(r.src == src && r.cls == cls) }

/-- The message a flow has in reassembly. -/
def State.assembly (src cls : Nat) (s : State) : Option Reassembly := s.fabric.reassembly.find? fun r => r.src == src && r.cls == cls

/-- Deliver a complete message to the step that handles its type. -/
def State.deliverMessage (port : Nat) (r : Reassembly) (s : State) : State :=
  { s with fabric.inbox := s.fabric.inbox ++ [{ type := r.type, cls := r.cls, src := r.src, tenant := r.tenant, port := port, body := r.got }] }

/-- Bytes held in reassembly. -/
def State.assemblyBytes (s : State) : Nat := (s.fabric.reassembly.map fun r => r.msgLen).foldl (· + ·) 0

/-- Add a packet that is addressed to this module to its message (R405). -/
def State.assemble (port : Nat) (p : FabPacket) (s : State) : State :=
  let go (r : Reassembly) (s : State) : State :=
    let r := { r with got := r.got ++ p.payload, last := s.clock }
    let s := s.dropAssembly p.src p.cls
    if r.msgLen < r.got.length then s.countLost
    else if p.last then (if r.got.length = r.msgLen then s.deliverMessage port r else s.countLost)
    else { s with fabric.reassembly := s.fabric.reassembly ++ [r] }
  if p.first then
    let s := if (s.assembly p.src p.cls).isSome then (s.dropAssembly p.src p.cls).countLost else s
    if 65536 ≤ s.fabric.reassembly.length || 268435456 < s.assemblyBytes + p.msgLen then s.unreachable p 4
    else go { src := p.src, cls := p.cls, type := p.type, msgId := p.msgId, msgLen := p.msgLen, tenant := p.tenant, got := [], last := s.clock } s
  else match s.assembly p.src p.cls with
    | none => s
    | some r =>
      if r.msgId != p.msgId || r.type != p.type then s
      else if r.got.length != p.offset || r.msgLen != p.msgLen then (s.dropAssembly p.src p.cls).countLost
      else go r s

/-- MESSAGE_RECEIVE (R405–R407, R433): the oldest packet of a port, when it is addressed to this module. -/
def execMessageReceive (port : Fin 32) (s : State) : Host.Outcome State Fault Refusal :=
  .next (match s.takePacket port with
    | none => s
    | some (b, t) =>
      let p := readPacket b
      if !s.fabricUp then s
      else if !packetCrcHolds b then
        let t := if (t.assembly p.src p.cls).isSome then t.dropAssembly p.src p.cls else t
        t.countLost.logKind 9 port
      else if !packetFaultless b then t.partnerViolation port p.src
      else if !s.forMe p then s
      else if t.fenceDrops p then t
      else if !t.pkeyAccepts p then t.countDrop
      else t.assemble port p)

/-- REASSEMBLY_TIMEOUT (R405): no packet of the message has arrived for 1 ms. -/
def execReassemblyTimeout (src : Half) (cls : Fin 7) (s : State) : Host.Outcome State Fault Refusal :=
  .next (match s.assembly src.toNat cls with
    | some r => if r.last + 1000000 ≤ s.clock then (s.dropAssembly src.toNat cls).countLost else s
    | none => s)

/-- PROTOCOL_VIOLATION_HOLD (R406): 10,000 violations within 1 s. -/
def execProtocolViolationHold (port : Fin 32) (s : State) : Host.Outcome State Fault Refusal :=
  let x := s.vievo port
  let recent := x.violations.filter fun t => s.clock < t + 1000000000
  .next (if 10000 ≤ recent.length && x.state != .down && x.state != .held then
    (s.holdPort port 5).updVievo port fun x => { x with violations := [] }
  else s)

/-! ### Forwarding and ageing -/

/-- PACKET_FORWARD (R401, R403, R407, R433): the oldest packet of a port, when it is not addressed to this module. -/
def execPacketForward (port : Fin 32) (s : State) : Host.Outcome State Fault Refusal :=
  .next (match s.takePacket port with
    | none => s
    | some (b, t) =>
      let p := readPacket b
      if !s.fabricUp || !packetCrcHolds b || !packetFaultless b || s.forMe p then s
      else if t.fenceDrops p then t
      else if !t.pkeyTransit p then t.countDrop
      else if p.hops ≤ 1 then t.countDrop.unreachable p 2
      else match t.flowPort p.src p.dst p.cls with
        | none => t.countDrop.unreachable p 1
        | some q => (t.enqueue q { p with hops := p.hops - 1 }).emit (.forward q p.src p.dst p.cls (p.hops - 1)))

/-- Packets of flows that have left their old port go on to their new one, or are unreachable by now (R402, R403). -/
def State.releaseHeld (s : State) : State :=
  let l := s.fabric.held
  l.foldl (fun s p => match s.flowPort p.src p.dst p.cls with
    | some q => s.enqueue q p
    | none => s.countDrop.unreachable p 1) { s with fabric.held := [] }

/-- PACKET_AGED (R403): the packet at the head of a queue has waited 2 ms. -/
def execPacketAged (port : Fin 32) (cls : Fin 7) (s : State) : Host.Outcome State Fault Refusal :=
  .next (match (s.vievo port).queues.getD cls [] with
    | q :: rest =>
      if q.since + 2000000 ≤ s.clock then
        let s := s.updVievo port fun x => { x with queues := x.queues.put cls rest }
        (s.countDrop.unreachable q.packet 3).releaseHeld
      else s
    | [] => s)

/-! ### Gates and turns -/

/-- The cycle of a gate list, ns (R411). -/
def gateCycle (g : GateList) : Nat := (g.entries.map (·.1)).foldl (· + ·) 0

/-- How long class c stays open from a time `t` within the entries of a cycle, ns; entries already past are skipped. -/
def openFor (c : Nat) : List (Nat × Nat) → Nat → Nat
  | [], _ => 0
  | (d, g) :: rest, t =>
    if d ≤ t then openFor c rest (t - d)
    else if bit g c then d - t + openFor c rest 0 else 0

/-- The open time class c has left on a port: none while its gate is closed; a gate open to the end of the cycle goes on into the next
(R409, R411, R413). Class 0 is never gated (R410). -/
def openLeft (c now : Nat) (g : GateList) : Nat :=
  if c = 0 then 2 ^ 62
  else
    let cyc := gateCycle g
    let t := ((now : Int) - g.base).emod (max cyc 1) |>.toNat
    let first := openFor c g.entries t
    if first + t = cyc then first + openFor c g.entries 0 else first

/-- The cost of a packet in its class (R409). -/
def packetCost (c o : Nat) (p : FabPacket) : Nat := if c = 1 then 1 else p.payload.length + 32 + o

/-- Bytes a port passes in a nanosecond (Table 16-1). -/
def portRate (x : Port) : Nat := if x.state == .degraded then 100 else 200

/-- A frame can be sent now: its class has credits for all of it, and the replay buffer of 2 MiB takes it (R394, R395). -/
def canSend (x : Port) (p : FabPacket) : Bool :=
  decide (creditUnits (32 + p.payload.length) ≤ x.credits.getD p.cls 0) &&
    decide ((x.replay.vals.map (·.bytes.length)).foldl (· + ·) 0 + frameBytes p ≤ 2097152)

/-- Send the head of a class's queue. -/
def sendHead (now : Nat) (c : Nat) (x : Port) : Port :=
  match x.queues.getD c [] with
  | [] => x
  | q :: rest => { x.sendFrame now 1 c (packetBytes q.packet) with queues := x.queues.put c rest }

/-- Send from class c while its deficit, its gate and its credits allow (R409): `left` is the gate's open time less what this turn has used, in bytes. -/
def sendWhile (now c o : Nat) : Nat → Nat → Port → Port
  | 0, _, x => x
  | n + 1, left, x =>
    match x.queues.getD c [] with
    | [] => x
    | q :: _ =>
      let k := packetCost c o q.packet
      if k ≤ x.deficits.getD c 0 && frameBytes q.packet ≤ left && canSend x q.packet then
        let x := { x with deficits := x.deficits.put c (x.deficits.getD c 0 - k) }
        sendWhile now c o n (left - frameBytes q.packet) (sendHead now c x)
      else x

/-- Bytes of class 0 in the last 100 µs (R410). -/
def class0Used (now : Nat) (x : Port) : Nat := ((x.class0.filter fun e => now < e.1 + 100000).map (·.2)).foldl (· + ·) 0

/-- Class 0 has used 2 % of the port's time over the preceding 100 µs (R410). -/
def class0Capped (now : Nat) (x : Port) : Bool := decide (2000 * portRate x ≤ class0Used now x)

/-- Class 0 goes ahead of every other class until it is capped (R410). -/
def sendClass0 (now : Nat) : Nat → Port → Port
  | 0, x => x
  | n + 1, x =>
    match x.queues.getD 0 [] with
    | [] => x
    | q :: _ => if class0Capped now x || !canSend x q.packet then x else sendClass0 now n (sendHead now 0 x)

/-- The quantum of a class: 8,320 bytes for class 0 while it takes turns (R410). -/
def quantumOf (g : GateList) (c : Nat) : Nat := if c = 0 then 8320 else g.quanta.getD c 0

/-- One deficit round-robin turn of class c (R409). -/
def takeTurn (clock now c : Nat) (x : Port) : Port :=
  let g := x.gates
  let l := x.queues.getD c []
  if l.isEmpty then { x with deficits := x.deficits.put c 0 }
  else
    let left := openLeft c now g
    if left = 0 then x
    else
      let q := quantumOf g c
      let x := { x with deficits := x.deficits.put c (min (x.deficits.getD c 0 + q) (2 * q)) }
      let x := sendWhile clock c g.overhead l.length (left * portRate x) x
      if (x.queues.getD c []).isEmpty then { x with deficits := x.deficits.put c 0 } else x

/-- The class whose turn follows (R409, R410): 1 to 6, then class 0 while it is capped, then 1 again. -/
def nextTurn (now c : Nat) (x : Port) : Nat :=
  if c = 6 then (if class0Capped now x then 0 else 1) else c + 1

/-- An acknowledgement or credits wait for a frame that carries them. -/
def Port.owes (x : Port) : Bool := x.ackSent < x.rxSeq || x.owed.any (0 < ·)

/-- EGRESS_TURN (R409, R410): class 0 first, then the turn of the port's next class; an IDLE frame carries acknowledgement and credits where no other
frame does. -/
def execEgressTurn (port : Fin 32) (s : State) : Host.Outcome State Fault Refusal :=
  let x := s.vievo port
  .next (if !s.fabricUp || !portOpen x then s
  else
    let x := { x with class0 := x.class0.filter fun e => s.clock < e.1 + 100000 }
    let y := sendClass0 s.clock (x.queues.getD 0 []).length x
    let y := takeTurn s.clock s.fabTime y.turn y
    let y := { y with turn := nextTurn s.clock y.turn y }
    let y := if y.txSeq == x.txSeq && y.owes then y.sendFrame s.clock 0 0 [] else y
    ((s.updVievo port fun _ => y).emitFrames port x.txSeq).releaseHeld)

end Sys2Proof.Machine
end

