-- ==== Sys2Proof/Machine/FabricCommands.lean ====
section
/-!
DEFINITION. FABRIC_STATUS, route images, gate lists and fabric time (R399, R400, R411–R415, R418).
-/
namespace Sys2Proof.Machine

/-- The code of a port state (Table 16-16). -/
def portStateCode : PortState → Nat
  | .down => 0 | .training => 1 | .discoveryOnly => 2 | .keying => 3 | .up => 4 | .degraded => 5 | .held => 6

/-- The code of a time state (Table 16-15). -/
def timeStateCode : TimeState → Nat
  | .free => 0 | .acquiring => 1 | .locked => 2 | .holdover => 3

/-- A 32-bit two's complement number. -/
def int32 (i : Int) : Nat := (i.emod (2 ^ 32)).toNat

/-- A route image's generation. -/
def routeGen (r : Bytes) : Nat := field r 8 4

/-- The fabric summary (Table 16-15). -/
def State.fabricSummary (s : State) : Bytes :=
  let up := s.fabric.ports.filter linkUp
  let deg := s.fabric.ports.filter fun x => x.state == .degraded
  leBytes 2 s.nodeId ++ leBytes 2 (flag s.fabric.route.isSome + 2 * flag s.fabric.grandmaster + 4 * flag s.fabric.routeWait.isSome) ++
    leBytes 4 (routeGen s.routeImage) ++ leBytes 4 s.fabric.gateGen ++ leBytes 1 up.length ++ leBytes 1 deg.length ++
    leBytes 1 (timeStateCode s.fabric.time) ++ leBytes 1 (s.comp.partition % 256) ++ leBytes 8 s.fabTime ++ leBytes 4 (int32 s.fabric.offsetNs) ++
    leBytes 2 s.fabric.stepsRemoved ++ leBytes 2 (s.comp.partition / 256) ++ leBytes 8 s.fabric.gmId ++ leBytes 4 s.fabric.pv ++
    leBytes 4 s.fabric.lost ++ leBytes 4 s.fabric.dropped ++ leBytes 4 s.fabric.unreachRx ++ zeros 8

/-- The entry of a port (Table 16-16). -/
def portEntry (now port : Nat) (x : Port) : Bytes :=
  leBytes 1 (port + 32 * portStateCode x.state) ++ leBytes 1 x.heldReason ++ leBytes 2 (x.partner.getD 0) ++ leBytes 4 x.partnerBuild ++
    leBytes 4 (x.correctedCw.filter fun t => now < t + 1000000000).length ++ leBytes 4 x.uncorrectableCw ++ leBytes 4 x.retries ++
    leBytes 4 x.pv ++ leBytes 1 x.lanes ++ leBytes 1 (flag x.marginal) ++ zeros 6

/-- FABRIC_STATUS (R418). -/
def execFabricStatus (m : Mbx) (tag : Word) (s : State) : Host.Outcome State Fault Refusal :=
  .next (s.start 0x6001 m tag fun f s => do
    opening f 8 8
    let b := f.plain
    fields [(0, decide (field b 0 1 ≤ 1)), (1, zeroField b 1 7)]
    if field b 0 1 = 0 then .ok (s.answer f .done s.fabricSummary)
    else do
      need (decide (4096 ≤ f.mbx)) (notAuthorised 0x20)
      .ok (s.answer f .done (s.fabric.ports.zipIdx.flatMap fun (x, i) => portEntry s.clock i x)))

/-! ### Route images -/

/-- One route entry obeys R400: `enabled` tells the ports whose ENABLE is 1. -/
def routeEntryOk (r : Bytes) (node n : Nat) : Bool :=
  let e := routeEntry r n
  let ps := routePorts e
  let enabled (p : Nat) : Bool := bit (field r (0x20 + 4 * p) 4) 17
  if n = node then e == 2 ^ 22 + 2 ^ 23
  else if !bit e 22 then e == 0
  else decide (e < 2 ^ 23) && ps.all enabled && decide ps.Nodup

/-- The checks of R400 in ascending offset. -/
def routeFields (r : Bytes) (activeGen now : Nat) : List (Nat × Bool) :=
  let at_ := field r 0x18 8
  [(0x000, field r 0 4 == 0x474D4952), (0x004, field r 4 2 == 1), (0x006, decide (field r 6 2 < 4)), (0x008, decide (activeGen < field r 8 4)),
   (0x00E, decide (field r 0xE 1 ≤ 127)), (0x00F, bit (field r 6 2) 0 || field r 0xF 1 == 255), (0x011, zeroField r 0x11 3),
   (0x018, decide (at_ ≤ now + 10000000000))] ++
  ((List.range 32).map fun p => (0x020 + 4 * p, decide (field r (0x20 + 4 * p) 4 < 2 ^ 18))) ++
  [(0x2A0, slice r 0x2A0 48 == Config.sha384 (r.take 0x2A0 ++ zeros 48 ++ r.drop 0x2D0)), (0x2D0, zeroField r 0x2D0 48)]

/-- The first route entry that breaks R400. -/
def routeFault (r : Bytes) : Option Nat := (List.range 65536).find? fun n => !routeEntryOk r (field r 0xC 2) n

/-- ROUTE_LOAD (R399, R400). -/
def execRouteLoad (m : Mbx) (tag : Word) (s : State) : Host.Outcome State Fault Refusal :=
  .next (s.start 0x6010 m tag fun f s => do
    opening f 262912 262912
    let r := f.plain
    fields (routeFields r (routeGen s.routeImage) s.fabTime)
    match routeFault r with
    | some n => .error (bad (0x20 + 0x300 + 4 * n))
    | none => do
      need s.fabric.routeWait.isNone wrongState
      let bound := s.comp.compositions.length != 0 || s.comp.partition != 0 || s.comp.sources.length != 0
      need (s.fabric.route.isNone || field r 0xC 2 == s.nodeId || !bound) (wrongStateAt 0x2C)
      .ok (({ s with fabric.routeWait := some { image := r, mbx := f.mbx, tag := f.tag } } : State).setWork f .eventWait))

/-- A new image judges every port whose partner is known (R397): one it refuses is HELD, and a HELD one retries at once. -/
def State.rejudge (port : Nat) (s : State) : State :=
  match (s.vievo port).state with
  | .held => s.beginDiscovery port
  | .keying | .up | .degraded => match s.routeHolds port with
    | some r => s.holdPort port r
    | none => s
  | _ => s

/-- ROUTE_ACTIVATE (R399, R400): at ACTIVATE_AT the image is in force and kept in flash, and ROUTE_LOAD answers. -/
def execRouteActivate (s : State) : Host.Outcome State Fault Refusal :=
  .next (match s.fabric.routeWait with
    | none => s
    | some w =>
      if field w.image 0x18 8 ≤ s.fabTime then
        let s := { s with fabric.route := some w.image, fabric.routeWait := none }
        let s := (List.range 32).foldl (fun s p => s.rejudge p) s
        match s.flight w.mbx w.tag with
        | some f => s.answer f .done (leBytes 4 (routeGen w.image) ++ zeros 4)
        | none => s
      else s)

/-! ### Gate lists -/

/-- Read the entries of a gate list (Table 16-12). -/
def gateEntries (b : Bytes) : List (Nat × Nat) :=
  (List.range (field b 6 1)).map fun i => (field b (0x40 + 8 * i) 4, field b (0x44 + 8 * i) 1)

/-- The checks of R412 in ascending offset; what no single byte breaks is laid to GL.ENTRIES. -/
def gateFields (b : Bytes) : List (Nat × Bool) :=
  let es := gateEntries b
  let cyc := (es.map (·.1)).foldl (· + ·) 0
  let opens (c : Nat) : Nat := ((es.filter fun e => bit e.2 c).map (·.1)).foldl (· + ·) 0
  let q (c : Nat) : Nat := field b (0x20 + 4 * c) 4
  [(0, field b 0 4 == 0x474D4954), (4, field b 4 2 == 1), (6, 1000 ≤ cyc && cyc ≤ 1000000), (8, field b 8 4 != 0), (12, zeroField b 12 4),
   (0x20, q 0 == 0), (0x24, 1 ≤ q 1 && q 1 ≤ 256)] ++
  ((List.range 5).map fun i => (0x28 + 4 * i, 4160 ≤ q (2 + i) && q (2 + i) ≤ 1048576)) ++ [(0x3C, q 7 == 0)] ++
  (es.mapIdx fun i e => (0x40 + 8 * i, decide (200 ≤ e.1) && bit e.2 0 && !bit e.2 7 && zeroField b (0x45 + 8 * i) 3)) ++
  [(6, (List.range 6).all fun c => decide (cyc ≤ 100 * opens (c + 1)))]

/-- Read a gate list. -/
def readGates (b : Bytes) : GateList where
  entries := gateEntries b
  overhead := field b 7 1
  base := field b 0x18 8
  quanta := (List.range 8).map fun c => field b (0x20 + 4 * c) 4

/-- The first cycle boundary of a list at or after a time (R411, R412). -/
def gateBoundary (g : GateList) (t : Nat) : Nat :=
  let cyc := max (gateCycle g) 1
  (t + ((g.base : Int) - t).emod cyc).toNat

/-- A list is active on every named port, or has been replaced on those where it waited: its command answers, and GATE_GEN counts it where it has
become active (R412). -/
def State.gateSettled (mbx : Nat) (tag : Word) (s : State) (active : Bool := true) : State :=
  if s.fabric.ports.any fun x => x.gateWait.any fun w => w.mbx == mbx && w.tag == tag then s
  else
    let s := { s with fabric.gateGen := (s.fabric.gateGen + flag active) % 2 ^ 32 }
    match s.flight mbx tag with
    | some f => s.answer f .done (leBytes 4 s.fabric.gateGen ++ zeros 4)
    | none => s

/-- GATE_LIST_LOAD (R411, R412): it replaces a list that waits on a named port. -/
def execGateListLoad (m : Mbx) (tag : Word) (s : State) : Host.Outcome State Fault Refusal :=
  .next (s.start 0x6011 m tag fun f s => do
    opening f 0x40 576
    let b := f.plain
    let n := field b 6 1
    fields [(0, field b 0 4 == 0x474D4954), (4, field b 4 2 == 1), (6, 1 ≤ n && n ≤ 64)]
    need (b.length == 0x40 + 8 * n) (bad 0x0C)
    fields (gateFields b)
    let g := readGates b
    let old := s.fabric.ports.zipIdx.filterMap fun (x, i) =>
      if bit (field b 8 4) i then x.gateWait else none
    let w : GateWait := { list := g, at_ := gateBoundary g (max (field b 0x10 8) s.fabTime), mbx := f.mbx, tag := f.tag }
    let s := (List.range 32).foldl (fun s p => if bit (field b 8 4) p then s.updVievo p fun x => { x with gateWait := some w } else s) s
    let s := s.setWork f .eventWait
    .ok (old.eraseDups.foldl (fun s e => s.gateSettled e.mbx e.tag (s.fabric.ports.any fun x => x.gates == e.list)) s))

/-- GATE_LIST_ACTIVATE (R412): the port's waiting list is in force from its first cycle boundary at or after ACTIVATE_AT; deficits are kept. -/
def execGateListActivate (port : Fin 32) (s : State) : Host.Outcome State Fault Refusal :=
  .next (match (s.vievo port).gateWait with
    | none => s
    | some w =>
      if w.at_ ≤ s.fabTime then
        (s.updVievo port fun x => { x with gates := w.list, gateWait := none }).gateSettled w.mbx w.tag
      else s)

/-! ### Fabric time -/

/-- The parent's offset lies within 100 ns (R415). -/
def closeOffset (o : Int) : Bool := decide (-100 ≤ o ∧ o ≤ 100)

/-- TIME (R414, R415): a PTP message is processed; `reading` is what the time profile of IEEE 1588 makes of it. -/
def execTime (reading : TimeReading) (s : State) : Host.Outcome State Fault Refusal :=
  .next (match s.takeMessage 0x02 [] with
    | none => s
    | some (_, s) =>
      let s := { s with fabric.grandmaster := reading.self && bit (field s.routeImage 6 2) 0 }
      if !reading.parent then s
      else
        let since := if closeOffset reading.offset then some (s.fabric.closeSince.getD s.clock) else none
        let locked := s.fabric.lockedOnce && (since.any fun t => decide (t + 1000000000 ≤ s.clock))
        { s with
          fabric.offsetNs := reading.offset, fabric.stepsRemoved := reading.steps.toNat, fabric.gmId := reading.gm.toNat
          fabric.closeSince := since
          fabric.time := if locked then .locked else if s.fabric.time == .locked then .locked else .acquiring })

/-- A one-second interval ends (R446): a KIND 11 entry for each tenant of which events were suppressed, outside the limit. -/
def State.endLogInterval (s : State) : State :=
  let s := s.tenants.logSuppressed.foldl (fun s e =>
    if e.2 = 0 then s else s.logAppend { seq := 0, time := 0, kind := 11, tenant := e.1, detail := e.2 }) s
  { s with tenants.logCount := [], tenants.logSuppressed := [], tenants.logInterval := s.fabTime }

/-- Fabric time is stepped (R413, R415, R446, R460): the tick and the log interval in progress end, and gate cycles follow the new time. -/
def State.stepTime (d : Int) (s : State) : State :=
  let t := ((s.fabTime : Int) - d).toNat
  ({ s with fabTime := t, governor.lastTick := t } : State).endLogInterval

/-- TIME_FIRST_LOCK (R415): the offset has stayed within 100 ns for 1 s for the first time since reset: time is stepped once. -/
def execTimeFirstLock (s : State) : Host.Outcome State Fault Refusal :=
  .next (match s.fabric.closeSince with
    | some t =>
      if !s.fabric.lockedOnce && decide (t + 1000000000 ≤ s.clock) then
        ({ s with fabric.time := .locked, fabric.lockedOnce := true, fabric.offsetNs := 0 } : State).stepTime s.fabric.offsetNs
      else s
    | none => s)

/-- TIME_HOLDOVER (R415): the parent is lost after LOCKED; before it, time runs free. -/
def execTimeHoldover (s : State) : Host.Outcome State Fault Refusal :=
  .next { s with
    fabric.time := if s.fabric.time == .locked || s.fabric.time == .holdover then .holdover else .free
    fabric.closeSince := none }

end Sys2Proof.Machine
end

