-- ==== Sys2Proof/Machine/ModelImage.lean ====
section
/-!
DEFINITION. The model image: header, operator, tensor and scale tables, and the checks of BEGIN and COMMIT (R265, R287–R290, R295).
-/
namespace Sys2Proof.Machine

/-- The fields of a model image header (Table 11-2). -/
structure ModelHeader where
  kind : Nat
  actFormat : Nat
  bytes : Nat
  weightBytes : Nat
  layers : Nat
  dModel : Nat
  heads : Nat
  kvHeads : Nat
  headDim : Nat
  ffn : Nat
  maxSeq : Nat
  kvFormat : Nat
  pool : Nat
  outDim : Nat
  crewClass : Nat
  pos : Nat
  ops : Nat
  opOffset : Nat
  tensorOffset : Nat
  tensors : Nat
  scdOffset : Nat
  scds : Nat
  cls : Nat
  sep : Nat
  eos : Nat
  deriving DecidableEq, Repr

/-- Read the header. -/
def readModelHeader (b : Bytes) : ModelHeader where
  kind := field b 6 1
  actFormat := field b 7 1
  bytes := field b 8 8
  weightBytes := field b 0x10 8
  layers := field b 0x18 2
  dModel := field b 0x1A 2
  heads := field b 0x1C 1
  kvHeads := field b 0x1D 1
  headDim := field b 0x1E 2
  ffn := field b 0x20 4
  maxSeq := field b 0x24 2
  kvFormat := field b 0x26 1
  pool := field b 0x27 1
  outDim := field b 0x28 4
  crewClass := field b 0x2C 1
  pos := field b 0x2D 1
  ops := field b 0x2E 2
  opOffset := field b 0x30 4
  tensorOffset := field b 0x34 4
  tensors := field b 0x38 4
  scdOffset := field b 0x3C 4
  scds := field b 0x40 4
  cls := field b 0x44 4
  sep := field b 0x48 4
  eos := field b 0x50 4

/-- No token, no tensor of an operator's second input, no layer. -/
def none32 : Nat := 0xFFFFFFFF
/-- The 16-bit index that means none (Tables 11-2, 11-3). -/
def none16 : Nat := 0xFFFF

/-- An operator record (Table 11-3). -/
structure OpRecord where
  code : Nat
  flags : Nat
  layer : Nat
  in0 : Nat
  in1 : Nat
  out : Nat
  scd : Nat
  param : Word
  deriving DecidableEq, Repr

/-- Operator record `i`. -/
def opAt (b : Bytes) (i : Nat) : OpRecord :=
  let o := field b 0x30 4 + 16 * i
  { code := field b o 1, flags := field b (o + 1) 1, layer := field b (o + 2) 2, in0 := field b (o + 4) 2
    in1 := field b (o + 6) 2, out := field b (o + 8) 2, scd := field b (o + 0xA) 2, param := BitVec.ofNat 32 (field b (o + 0xC) 4) }

/-- A tensor record (Table 11-4). -/
structure TensorRecord where
  offset : Nat
  bytes : Nat
  format : Nat
  rank : Nat
  dims : List Nat
  deriving DecidableEq, Repr

/-- Tensor record `i`. -/
def tensorAt (b : Bytes) (i : Nat) : TensorRecord :=
  let o := field b 0x34 4 + 32 * i
  { offset := field b o 8, bytes := field b (o + 8) 8, format := field b (o + 0x10) 1, rank := field b (o + 0x11) 1
    dims := (List.range 3).map fun j => field b (o + 0x14 + 4 * j) 4 }

/-- A tensor's columns: its last extent. -/
def tensorCols (t : TensorRecord) : Nat := t.dims.getD (t.rank - 1) 1
/-- Its rows: the product of its other extents. -/
def tensorRows (t : TensorRecord) : Nat := (t.dims.take (t.rank - 1)).foldl (· * ·) 1
/-- It carries weight bytes. -/
def isWeight (t : TensorRecord) : Bool := t.bytes != 0

/-- A scale descriptor (Table 10-4). -/
structure ScaleDesc where
  mode : Nat
  format : Nat
  dataFormat : Nat
  groupLog2 : Nat
  offset : Nat
  count : Nat
  deriving DecidableEq, Repr

/-- Scale descriptor `i`. -/
def scdAt (b : Bytes) (i : Nat) : ScaleDesc :=
  let o := field b 0x3C 4 + 16 * i
  { mode := field b o 1, format := field b (o + 1) 1, dataFormat := field b (o + 2) 1, groupLog2 := field b (o + 3) 1
    offset := field b (o + 4) 4, count := field b (o + 8) 4 }

/-- Bits of an element (Table 10-1). -/
def elementBits (fmt : Nat) : Nat :=
  match fmt with
  | 0 | 6 => 32
  | 1 => 16
  | 5 | 0xC => 4
  | 0xA | 0xB => 6
  | _ => 8

/-- An MX format. -/
def isMx (fmt : Nat) : Bool := 8 ≤ fmt && fmt ≤ 0xD
/-- An integer format of the matrix array. -/
def isIntFormat (fmt : Nat) : Bool := fmt == 4 || fmt == 5
/-- A matrix format (Table 10-3). -/
def isMatrixFormat (fmt : Nat) : Bool := decide (fmt ≤ 0xD) && fmt != 6 && fmt != 7
/-- A floating-point format of Table 10-1 by its code; MX codes give their element format. -/
def floatFormat (fmt : Nat) : FpFormat :=
  match fmt with
  | 0 => fp32
  | 1 => bf16
  | 2 | 8 => fp8e4m3
  | 3 | 9 => fp8e5m2
  | 0xA => fp6e2m3
  | 0xB => fp6e3m2
  | _ => fp4e2m1

/-- Bytes of one scale of a scale format. -/
def scaleBytes (fmt : Nat) : Nat := if fmt == 0 then 4 else if fmt == 1 then 2 else 1

/-- Scale `i` of a learned tensor, widened to FP32. -/
def learnedScale (b : Bytes) (d : ScaleDesc) (i : Nat) : Word :=
  if d.format == 0 then BitVec.ofNat 32 (field b (d.offset + 4 * i) 4)
  else bf16ToF32 (BitVec.ofNat 16 (field b (d.offset + 2 * i) 2))

/-- An activation format of KV pages or between operators (Table 11-2, R279). -/
def kvFormatOk (fmt : Nat) : Bool := fmt == 1 || fmt == 2 || fmt == 4 || fmt == 5

/-- The header fields that stand alone, with the rest of BEGIN's checks (R289). -/
def modelHeaderChecks (b : Bytes) (total : Nat) : List (Nat × Bool) :=
  let h := readModelHeader b
  [(0x00, field b 0 4 == 0x474D494D), (0x04, field b 4 2 == 1), (0x06, decide (h.kind ≤ 2)), (0x07, kvFormatOk h.actFormat),
   (0x08, h.bytes == total && decide (160 ≤ h.bytes)), (0x10, decide (h.weightBytes ≤ 64 * 2 ^ 30)),
   (0x18, 1 ≤ h.layers && h.layers ≤ 128), (0x1A, 64 ≤ h.dModel && h.dModel ≤ 8192 && h.dModel % 64 == 0),
   (0x1C, 1 ≤ h.heads && h.heads ≤ 128), (0x1D, 1 ≤ h.kvHeads && h.kvHeads ≤ 64 && h.heads % h.kvHeads == 0),
   (0x1E, 64 ≤ h.headDim && h.headDim ≤ 256 && h.headDim % 64 == 0 && decide (h.kvHeads * h.headDim ≤ 2048)),
   (0x20, 64 ≤ h.ffn && h.ffn ≤ 65536 && h.ffn % 64 == 0),
   (0x24, 64 ≤ h.maxSeq && decide (h.maxSeq ≤ if h.kind == 2 then 32768 else 8192)), (0x26, kvFormatOk h.kvFormat),
   (0x27, if h.kind == 2 then h.pool == 2 else if h.kind == 1 then h.pool == 3 else decide (h.pool ≤ 1)),
   (0x28, if h.kind == 2 then 1 ≤ h.outDim && h.outDim ≤ 262144 else if h.kind == 1 then h.outDim == 1 else 1 ≤ h.outDim),
   (0x2D, decide (h.pos ≤ 1)), (0x2E, decide (1 ≤ h.ops)), (0x38, 1 ≤ h.tensors && h.tensors ≤ 65535),
   (0x54, zeroField b 0x54 12)]

/-- A table lies inside the image, clear of the header. -/
def tableOk (b : Bytes) (o n : Nat) : Bool := n == 0 || (160 ≤ o && decide (o + n ≤ b.length))

/-- An operator's inputs have the formats of Table 11-5. -/
def opFormatsOk (b : Bytes) (r : OpRecord) : Bool :=
  let f0 := (tensorAt b r.in0).format
  let f1 := (tensorAt b r.in1).format
  let two := r.in1 != none16
  match r.code with
  | 0x01 => f0 == 6 && two && decide (f1 ≤ 0xD)
  | 0x02 => isMatrixFormat f0 && two && isMatrixFormat f1
  | 0x0F | 0x10 => isMatrixFormat f0 && two && isMatrixFormat f1 && (tensorAt b r.out).format == 0
  | 0x03 | 0x04 => decide (f0 ≤ 1) && two && decide (f1 ≤ 1)
  | 0x05 | 0x06 => f0 == 0 && (!two || decide (f1 ≤ 1))
  | 0x0A => f0 == 0 && two && f1 == 0
  | 0x0E => decide (f0 ≤ 0xD) && (tensorAt b r.out).format == 0
  | _ => f0 == 0

/-- The extents of an operator agree: the reduction axis is the last extent of a weight, its rows are the output channels. -/
def opExtentsOk (b : Bytes) (r : OpRecord) : Bool :=
  let h := readModelHeader b
  let a := tensorAt b r.in0
  let w := tensorAt b r.in1
  let o := tensorAt b r.out
  match r.code with
  | 0x01 => tensorCols w == tensorCols o
  | 0x02 => tensorCols w == tensorCols a && tensorRows w == tensorCols o
  | 0x0F => tensorCols w == tensorCols a && tensorRows w == tensorCols o && tensorCols o == h.outDim
  | 0x10 => tensorCols w == tensorCols a && tensorRows w == 1 && tensorCols o == 1
  | 0x03 | 0x04 => tensorCols a == tensorCols o && tensorCols w == tensorCols o
  | 0x05 | 0x06 => tensorCols a == tensorCols o && (r.in1 == none16 || tensorCols w == tensorCols o)
  | 0x09 => tensorCols a == tensorCols o && tensorCols a % h.headDim == 0
  | 0x0A => tensorCols a == h.heads * h.headDim && tensorCols o == tensorCols a && tensorCols w == 2 * h.kvHeads * h.headDim
  | 0x0D => tensorCols a == tensorCols o && (r.scd == none16 || (let m := (scdAt b r.scd).mode; m != 2 && m != 3)) &&
      (!isMx o.format || tensorCols o % 32 == 0)
  | _ => tensorCols a == tensorCols o

/-- Checks of one operator record, by image offset (R290). -/
def opChecks (b : Bytes) (i : Nat) : List (Nat × Bool) :=
  let h := readModelHeader b
  let r := opAt b i
  let o := h.opOffset + 16 * i
  let prior := ((List.range i).map fun j => (opAt b j).layer).filter (· != none16)
  [(o, 1 ≤ r.code && r.code ≤ 0x10 && (r.code != 0x0F || h.kind == 2) && (r.code != 0x10 || h.kind == 1) &&
      (r.code != 0x0B || h.kind == 0)),
   (o + 1, decide (r.flags < 4) && bit r.flags 0 == (r.code == 0x0A && h.kind == 2)),
   (o + 2, r.layer == none16 || (decide (r.layer < h.layers) && prior.all (· ≤ r.layer))),
   (o + 4, decide (r.in0 < h.tensors)), (o + 6, r.in1 == none16 || decide (r.in1 < h.tensors)),
   (o + 8, decide (r.out < h.tensors) && !isWeight (tensorAt b r.out)), (o + 0xA, r.scd == none16 || decide (r.scd < h.scds)),
   (o, opFormatsOk b r), (o + 4, opExtentsOk b r)]

/-- Checks of one tensor record (R290). -/
def tensorChecks (b : Bytes) (i : Nat) : List (Nat × Bool) :=
  let h := readModelHeader b
  let t := tensorAt b i
  let o := h.tensorOffset + 32 * i
  [(o, if isWeight t then 160 ≤ t.offset && decide (t.offset + t.bytes ≤ b.length) else t.offset == 0),
   (o + 8, !isWeight t || t.bytes == (tensorRows t * tensorCols t * elementBits t.format + 7) / 8),
   (o + 0x10, decide (t.format ≤ 0xD)), (o + 0x11, 1 ≤ t.rank && t.rank ≤ 3), (o + 0x12, zeroField b (o + 0x12) 2),
   (o + 0x14, (List.range 3).all fun j => if j < t.rank then 1 ≤ t.dims.getD j 0 else t.dims.getD j 0 == 1)]

/-- Groups of a reduction axis under GROUP scales; the last may be short (R268, DEDUCED, log entry 161). -/
def groupCount (d : ScaleDesc) (t : TensorRecord) : Nat := (tensorCols t + 2 ^ d.groupLog2 - 1) / 2 ^ d.groupLog2

/-- The scale values that a mode gives a tensor of a shape (Table 10-5). -/
def scaleCount (d : ScaleDesc) (t : TensorRecord) : Nat :=
  match d.mode with
  | 1 => 1
  | 2 | 4 | 5 => tensorRows t
  | 3 => tensorRows t * groupCount d t
  | 6 => tensorRows t * tensorCols t / 32
  | _ => 0

/-- The tensor that an operator's scale descriptor scales: what QUANTIZE writes, what DEQUANTIZE reads, a weight operand; none where the operator has no
such tensor. -/
def scaledTensor (b : Bytes) (r : OpRecord) : Option TensorRecord :=
  if r.code == 0x0D then some (tensorAt b r.out)
  else if r.code == 0x0E then some (tensorAt b r.in0)
  else if r.in1 != none16 && isWeight (tensorAt b r.in1) then some (tensorAt b r.in1)
  else none

/-- Checks of one scale descriptor (R265): its mode and formats, its count for the tensors it scales, its tensor and its values; the MX scales of a weight
are learned. -/
def scdChecks (b : Bytes) (i : Nat) : List (Nat × Bool) :=
  let h := readModelHeader b
  let d := scdAt b i
  let o := h.scdOffset + 16 * i
  let learned := 1 ≤ d.mode && d.mode ≤ 3
  let size := d.count * scaleBytes d.format
  let users := (((List.range h.ops).map (opAt b)).filter fun r => r.scd == i).filterMap (scaledTensor b)
  [(o, decide (d.mode ≤ 6)),
   (o + 1, if d.mode == 0 then d.format == 0 else if d.mode == 6 then d.format == 7 else decide (d.format ≤ 1)),
   (o + 2, decide (d.dataFormat ≤ 0xD) && (d.mode == 6) == isMx d.dataFormat && (d.mode != 0 || decide (d.dataFormat ≤ 3))),
   (o + 3, if d.mode == 3 then 5 ≤ d.groupLog2 && d.groupLog2 ≤ 8 else if d.mode == 6 then d.groupLog2 == 5 else d.groupLog2 == 0),
   (o + 4, if learned then 160 ≤ d.offset && decide (d.offset + size ≤ b.length)
      else if d.mode == 6 then (d.offset == 0 && !users.any isWeight) || (160 ≤ d.offset && decide (d.offset + d.count ≤ b.length)) else d.offset == 0),
   (o + 8, users.all fun t => d.count == scaleCount d t),
   (o + 0xC, zeroField b (o + 0xC) 4)] ++
  (if learned then (List.range d.count).map fun j =>
      (d.offset + scaleBytes d.format * j, (let w := learnedScale b d j; f32Finite w && f32Lt f32Zero w))
   else if d.mode == 6 && d.offset != 0 then (List.range d.count).map fun j => (d.offset + j, field b (d.offset + j) 1 != 0xFF)
   else [])

/-- The first fault of a complete model image, from its start (R290, R295); `b` has MIMG.BYTES bytes. -/
def modelFault (place b : Bytes) : Option Nat :=
  let h := readModelHeader b
  let pages := (crewOf place h.crewClass).pages
  match firstFault (modelHeaderChecks b b.length ++
      [(0x2C, decide (h.crewClass < crewCount place) && (crewOf place h.crewClass).kind == 2 &&
          decide (64 * (8 + 4 * h.headDim) ≤ 4096 * pages)),
       (0x30, tableOk b h.opOffset (16 * h.ops)), (0x34, tableOk b h.tensorOffset (32 * h.tensors)),
       (0x3C, tableOk b h.scdOffset (16 * h.scds)),
       (0x70, slice b 0x70 48 == Config.sha384 (slice b 0 0x70 ++ zeros 48 ++ b.drop 0xA0)),
       (0x10, h.weightBytes == ((List.range h.tensors).map fun i => (tensorAt b i).bytes).foldl (· + ·) 0)]) with
  | some o => some o
  | none => firstFault ((List.range h.ops).flatMap (opChecks b) ++ (List.range h.tensors).flatMap (tensorChecks b) ++
      (List.range h.scds).flatMap (scdChecks b))

end Sys2Proof.Machine
end

