-- ==== Sys2Proof/Machine/Text.lean ====
section
/-!
DEFINITION. UTF-8, vocabularies, segmentation, detokenisation and grammars (R304, R305, R308–R314, R317–R322).
-/
namespace Sys2Proof.Machine

/-! ### UTF-8 (R308) -/

/-- What a lead byte starts: the length of the sequence and the range of its second byte. -/
def utf8Lead (b : Nat) : Option (Nat × Nat × Nat) :=
  if b < 0x80 then some (1, 0, 0)
  else if b < 0xC2 then none
  else if b < 0xE0 then some (2, 0x80, 0xBF)
  else if b == 0xE0 then some (3, 0xA0, 0xBF)
  else if b == 0xED then some (3, 0x80, 0x9F)
  else if b < 0xF0 then some (3, 0x80, 0xBF)
  else if b == 0xF0 then some (4, 0x90, 0xBF)
  else if b < 0xF4 then some (4, 0x80, 0xBF)
  else if b == 0xF4 then some (4, 0x80, 0x8F)
  else none

/-- The continuation bytes that follow well-formed, at most `n` of them, the first in [lo, hi]. -/
def utf8Tail : Nat → Nat → Nat → Bytes → Bytes
  | 0, _, _, _ => []
  | _, _, _, [] => []
  | n + 1, lo, hi, b :: t => if lo ≤ b.toNat && b.toNat ≤ hi then b :: utf8Tail n 0x80 0xBF t else []

/-- What one character takes from a byte string. -/
inductive Utf8Step where
  /-- a code point of `n` bytes -/
  | char (c n : Nat)
  /-- an ill-formed maximal subpart of `n` bytes -/
  | bad (n : Nat)
  /-- the bytes end inside a sequence that is well-formed so far -/
  | short
  deriving DecidableEq, Repr

/-- The first character of a byte string that is not empty. -/
def utf8Step (b : Bytes) : Utf8Step :=
  match b with
  | [] => .short
  | h :: t =>
    match utf8Lead h.toNat with
    | none => .bad 1
    | some (n, lo, hi) =>
      let c := utf8Tail (n - 1) lo hi t
      if c.length = n - 1 then
        .char (c.foldl (fun v x => v * 64 + x.toNat % 64)
          (if n == 1 then h.toNat else if n == 2 then h.toNat % 32 else if n == 3 then h.toNat % 16 else h.toNat % 8)) n
      else if c.length = t.length then .short
      else .bad (c.length + 1)

/-- U+FFFD -/
def replacement : Nat := 0xFFFD

/-- Text decoded and repaired: its code points, the replacements made, and the incomplete sequence it ends in. -/
structure Decoded where
  chars : List Nat
  replaced : Nat
  tail : Bytes
  deriving DecidableEq, Repr

/-- Decode, from a list of characters in reverse; `mark` stands for a replaced subpart. -/
def utf8From (mark : Nat) : Nat → Bytes → List Nat → Nat → Decoded
  | 0, b, acc, r => ⟨acc.reverse, r, b⟩
  | n + 1, b, acc, r =>
    if b.isEmpty then ⟨acc.reverse, r, []⟩
    else match utf8Step b with
      | .char c k => utf8From mark n (b.drop k) (c :: acc) r
      | .bad k => utf8From mark n (b.drop k) (mark :: acc) (r + 1)
      | .short => ⟨acc.reverse, r, b⟩

/-- Decode a byte string that may go on. -/
def utf8Decode (b : Bytes) : Decoded := utf8From replacement (b.length + 1) b [] 0

/-- Decode a whole text: an incomplete end is ill-formed (R312). -/
def utf8Whole (b : Bytes) : List Nat × Nat :=
  let d := utf8Decode b
  if d.tail.isEmpty then (d.chars, d.replaced) else (d.chars ++ [replacement], d.replaced + 1)

/-- A byte string is valid UTF-8. -/
def utf8Valid (b : Bytes) : Bool := let d := utf8Decode b; d.replaced == 0 && d.tail.isEmpty

/-- The bytes of a code point. -/
def utf8Encode (c : Nat) : Bytes :=
  let t (k : Nat) : Byte := BitVec.ofNat 8 (0x80 + c / 64 ^ k % 64)
  if c < 0x80 then [BitVec.ofNat 8 c]
  else if c < 0x800 then [BitVec.ofNat 8 (0xC0 + c / 64), t 0]
  else if c < 0x10000 then [BitVec.ofNat 8 (0xE0 + c / 4096), t 1, t 0]
  else [BitVec.ofNat 8 (0xF0 + c / 262144), t 2, t 1, t 0]

/-- The bytes of a text. -/
def utf8Bytes (l : List Nat) : Bytes := l.flatMap utf8Encode

/-- White_Space of Unicode 15.1.0. PRESUMED: the property's members, from the standard. -/
def whiteSpace (c : Nat) : Bool :=
  (9 ≤ c && c ≤ 13) || c == 0x20 || c == 0x85 || c == 0xA0 || c == 0x1680 || (0x2000 ≤ c && c ≤ 0x200A) || c == 0x2028 ||
    c == 0x2029 || c == 0x202F || c == 0x205F || c == 0x3000

/-- A Unicode scalar value. -/
def scalarValue (c : Nat) : Bool := c < 0x110000 && !(0xD800 ≤ c && c < 0xE000)

/-! ### Vocabularies (Tables 12-1, 12-2) -/

/-- VIMG.FLAGS bit `i`: 0 BYTE_FALLBACK, 1 PREFIX_SPACE, 2 COLLAPSE, 3 CASE_FOLD. -/
def vocabFlag (b : Bytes) (i : Nat) : Bool := bit (field b 6 2) i
/-- VIMG.PIECES -/
def vocabPieces (b : Bytes) : Nat := field b 0x0C 4
/-- Where piece record `i` lies. -/
def pieceAt (b : Bytes) (i : Nat) : Nat := field b 0x10 4 + 16 * i
/-- PC.KIND -/
def pieceKind (b : Bytes) (i : Nat) : Nat := field b (pieceAt b i + 5) 1
/-- A piece's bytes in the pool. -/
def pieceBytes (b : Bytes) (i : Nat) : Bytes := slice b (field b 0x14 4 + field b (pieceAt b i) 4) (field b (pieceAt b i + 4) 1)
/-- PC.SCORE -/
def pieceScore (b : Bytes) (i : Nat) : Word := BitVec.ofNat 32 (field b (pieceAt b i + 8) 4)
/-- VIMG.SPACE_MARK -/
def spaceMark (b : Bytes) : Nat := field b 0x24 4
/-- VIMG.MAX_SPAN -/
def maxSpan (b : Bytes) : Nat := field b 0x2A 2
/-- The piece of a kind with these bytes. -/
def findPiece (b : Bytes) (kind : Nat) (s : Bytes) : Option Nat :=
  (List.range (vocabPieces b)).find? fun i => pieceKind b i == kind && pieceBytes b i == s

/-- The checks of BEGIN on a vocabulary header (R305, Table 12-1). -/
def vocabHeaderChecks (b : Bytes) (total : Nat) : List (Nat × Bool) :=
  [(0x00, field b 0 4 == 0x474D4956), (0x04, field b 4 2 == 1), (0x06, decide (field b 6 2 < 16)),
   (0x08, field b 8 4 == total && 128 ≤ total && decide (total ≤ 33554432)),
   (0x0C, 256 ≤ vocabPieces b && vocabPieces b ≤ 262144), (0x18, decide (field b 0x18 4 ≤ 16777216)),
   (0x20, f32Finite (BitVec.ofNat 32 (field b 0x20 4))),
   (0x24, spaceMark b == 0x20 || (scalarValue (spaceMark b) && !whiteSpace (spaceMark b))), (0x28, decide (field b 0x28 1 ≤ 2)),
   (0x29, zeroField b 0x29 1), (0x2A, 64 ≤ maxSpan b && maxSpan b ≤ 1024), (0x2C, zeroField b 0x2C 36)]

/-- The checks of one piece record. -/
def pieceChecks (b : Bytes) (i : Nat) : List (Nat × Bool) :=
  let o := pieceAt b i
  let n := field b (o + 4) 1
  [(o, decide (field b o 4 + n ≤ field b 0x18 4) &&
      (pieceKind b i != 0 || (utf8Valid (pieceBytes b i) &&
        (List.range i).all fun j => pieceKind b j != 0 || pieceBytes b j != pieceBytes b i))),
   (o + 4, 1 ≤ n && n ≤ 64 && (pieceKind b i != 1 || n == 1)), (o + 5, decide (pieceKind b i ≤ 2)), (o + 6, zeroField b (o + 6) 2),
   (o + 8, f32Finite (pieceScore b i)), (o + 0xC, zeroField b (o + 0xC) 4)]

/-- The first fault of a whole vocabulary image, from its start (R305). -/
def vocabFault (digestOk : Bool) (b : Bytes) : Option Nat :=
  let n := vocabPieces b
  let bytes := (List.range n).filter fun i => pieceKind b i == 1
  let inside (o k : Nat) : Bool := 128 ≤ o && decide (o + k ≤ b.length)
  match firstFault (vocabHeaderChecks b b.length ++ [(0x10, inside (field b 0x10 4) (16 * n)),
      (0x14, inside (field b 0x14 4) (field b 0x18 4)), (0x50, digestOk)]) with
  | some o => some o
  | none =>
    firstFault (((List.range n).flatMap (pieceChecks b)) ++
      [(0x06, if vocabFlag b 0 then bytes.length == 256 && (List.range 256).all fun v => bytes.any fun i => pieceBytes b i == [BitVec.ofNat 8 v]
          else bytes.isEmpty),
       (0x1C, if vocabFlag b 0 then field b 0x1C 4 == 0xFFFFFFFF else decide (field b 0x1C 4 < n) && pieceKind b (field b 0x1C 4) == 2)])

/-! ### From text to tokens (R309–R311) -/

/-- Runs of white space become one U+0020. -/
def collapseSpaces : Bool → List Nat → List Nat
  | _, [] => []
  | prev, c :: t => if whiteSpace c then (if prev then collapseSpaces true t else 0x20 :: collapseSpaces true t) else c :: collapseSpaces false t

/-- Split at a boundary before each white space character. -/
def splitSpans (l : List Nat) : List (List Nat) :=
  (l.foldl (fun acc c =>
    match acc with
    | [] => [[c]]
    | s :: r => if whiteSpace c then [c] :: s :: r else (s ++ [c]) :: r) ([] : List (List Nat))).reverse

/-- Cut a span into pieces of at most `n` bytes, each as long as whole characters allow (R310). -/
def cutSpan (n : Nat) (s : List Nat) : List (List Nat) :=
  (s.foldl (fun acc c =>
    match acc with
    | [] => [[c]]
    | p :: r => if n < (utf8Bytes (p ++ [c])).length then [c] :: p :: r else (p ++ [c]) :: r) ([] : List (List Nat))).reverse

/-- The spans of a text, cut (R309 steps 1 and 2, R310). -/
def textSpans (v : Bytes) (l : List Nat) : List (List Nat) :=
  (splitSpans (if vocabFlag v 2 then collapseSpaces false l else l)).flatMap (cutSpan (maxSpan v))

/-- A span after steps 3 to 6 of R309. -/
def spanText (v : Bytes) (mark : Bool) (s : List Nat) : List Nat :=
  let s := if field v 0x28 1 == 0 then s else Config.unicodeNormal (field v 0x28 1) s
  let s := if vocabFlag v 3 then s.map Config.unicodeLower else s
  let s := s.map fun c => if c == 0x20 then spaceMark v else c
  if mark then spaceMark v :: s else s

/-- The edge of R311 from character i to the end of `w`, the characters between: its tokens and score. -/
def spanEdge (v : Bytes) (w : List Nat) : Option (List Nat × Word) :=
  match findPiece v 0 (utf8Bytes w) with
  | some p => some ([p], pieceScore v p)
  | none =>
    match w with
    | [c] =>
      if vocabFlag v 0 then
        let ps := (utf8Encode c).map fun b => (findPiece v 1 [b]).getD 0
        some (ps, f32Sum (ps.map (pieceScore v)))
      else some ([field v 0x1C 4], BitVec.ofNat 32 (field v 0x20 4))
    | _ => none

/-- best[j] from the best of the boundaries before it, longest edge first (R311). -/
def bestAt (v : Bytes) (s : List Nat) (best : List (Word × List Nat)) (j : Nat) : Word × List Nat :=
  (List.range j).foldl (fun a i =>
    match spanEdge v ((s.take j).drop i), best[i]? with
    | some (ts, sc), some (b, l) =>
      let x := f32Add b sc
      if f32Lt a.1 x then (x, l ++ ts) else a
    | _, _ => a) (0xFF800000#32, [])

/-- The tokens of a span along its most probable path (R311). -/
def segment (v : Bytes) (s : List Nat) : List Nat :=
  (((List.range s.length).foldl (fun best k => best ++ [bestAt v s best (k + 1)]) [(f32Zero, [])]).getLastD (f32Zero, [])).2

/-- The tokens of spans; `first` says that the first begins a text and may take the prefix space. -/
def spansTokens (v : Bytes) (first : Bool) (l : List (List Nat)) : List Nat :=
  (l.mapIdx fun i s => segment v (spanText v (first && i == 0 && vocabFlag v 1 && !(s.head?.any whiteSpace)) s)).flatten

/-- The tokens of a whole text, and the replacements made (R308–R312). -/
def tokenise (v : Bytes) (text : Bytes) : List Nat × Nat :=
  let d := utf8Whole text
  (spansTokens v true (textSpans v d.1), d.2)

/-! ### From tokens to text (R314) -/

/-- A token's bytes. -/
def tokenBytes (v : Bytes) (t : Nat) : Bytes :=
  if vocabPieces v ≤ t then []
  else match pieceKind v t with
    | 0 => utf8Bytes ((utf8Decode (pieceBytes v t)).chars.map fun c => if c == spaceMark v then 0x20 else c)
    | 1 => pieceBytes v t
    | _ => []

/-! ### Stop strings (R317, R318) -/

/-- `a` ends with `b`. -/
def endsWith (a b : Bytes) : Bool := b.length ≤ a.length && a.drop (a.length - b.length) == b

/-- The first character at which a stop string ends: how many characters are out then, and where the longest such string begins, in bytes. -/
def stopAt (stops : List Bytes) : Bytes → Nat → List Nat → Option (Nat × Nat)
  | _, _, [] => none
  | out, n, c :: t =>
    let out := out ++ utf8Encode c
    let ends := (stops.filter (endsWith out)).map List.length
    if ends.isEmpty then stopAt stops out (n + 1) t else some (n + 1, out.length - ends.foldl max 0)

/-- The longest suffix of a text that is a proper prefix of a stop string, in bytes (R318). -/
def stopHold (stops : List Bytes) (text : Bytes) : Nat :=
  (stops.flatMap fun s => (List.range s.length).filter fun k => endsWith text (s.take k)).foldl max 0

/-! ### Grammars (R320, R321) -/

/-- GIMG.STATES -/
def grammarStates (b : Bytes) : Nat := field b 0x0C 4
/-- GIMG.CLASSES -/
def grammarClasses (b : Bytes) : Nat := field b 6 1
/-- A transition: NEXT, RET and ACTION (Table 12-7). -/
def grammarEntry (b : Bytes) (i : Nat) : Nat × Nat × Nat :=
  let o := field b 0x18 4 + 8 * i
  (field b o 2, field b (o + 2) 2, field b (o + 4) 1)

/-- The checks of BEGIN on a grammar header (Table 12-6). -/
def grammarHeaderChecks (b : Bytes) (total : Nat) : List (Nat × Bool) :=
  [(0x00, field b 0 4 == 0x474D4947), (0x04, field b 4 2 == 1), (0x06, 1 ≤ grammarClasses b && grammarClasses b ≤ 64),
   (0x07, zeroField b 7 1), (0x08, field b 8 4 == total && decide (96 ≤ total)),
   (0x0C, 1 ≤ grammarStates b && grammarStates b ≤ 65536 && decide (grammarStates b * grammarClasses b ≤ 4194304)),
   (0x10, decide (field b 0x10 2 < grammarStates b)), (0x12, decide (field b 0x12 2 ≤ 1024)), (0x20, zeroField b 0x20 16)]

/-- The first fault of a whole grammar image, from its start (R320). -/
def grammarFault (digestOk : Bool) (b : Bytes) : Option Nat :=
  let n := grammarStates b * grammarClasses b
  let inside (o k : Nat) : Bool := 96 ≤ o && decide (o + k ≤ b.length)
  match firstFault (grammarHeaderChecks b b.length ++ [(0x14, inside (field b 0x14 4) 256), (0x18, inside (field b 0x18 4) (8 * n)),
      (0x1C, inside (field b 0x1C 4) ((grammarStates b + 7) / 8)), (0x30, digestOk)]) with
  | some o => some o
  | none =>
    let cls := (List.range 256).map fun i => (field b 0x14 4 + i, decide (field b (field b 0x14 4 + i) 1 < grammarClasses b))
    let ents := (List.range n).flatMap fun i =>
      let o := field b 0x18 4 + 8 * i
      let (nx, rt, ac) := grammarEntry b i
      [(o, decide (nx < grammarStates b) && ((ac == 1 || ac == 2) || nx == 0)),
       (o + 2, decide (rt < grammarStates b) && (ac == 2 || rt == 0)), (o + 4, decide (ac ≤ 3)), (o + 5, zeroField b (o + 5) 3)]
    firstFault (cls ++ ents)

/-- A configuration of the automaton: state and stack. -/
abbrev GrammarConf := Nat × List Nat

/-- Feed one byte: none where it is dead (R321). -/
def feedByte (b : Bytes) (c : GrammarConf) (x : Byte) : Option GrammarConf :=
  let cls := field b (field b 0x14 4 + x.toNat) 1
  match grammarEntry b (c.1 * grammarClasses b + cls) with
  | (nx, _, 1) => some (nx, c.2)
  | (nx, rt, 2) => if field b 0x12 2 ≤ c.2.length then none else some (nx, rt :: c.2)
  | (_, _, 3) => match c.2 with | [] => none | r :: t => some (r, t)
  | _ => none

/-- Feed a string. -/
def feedBytes (b : Bytes) : GrammarConf → Bytes → Option GrammarConf
  | c, [] => some c
  | c, x :: t => match feedByte b c x with | some d => feedBytes b d t | none => none

/-- The configuration is accepting with an empty stack. -/
def grammarAccepts (b : Bytes) (c : GrammarConf) : Bool := c.2.isEmpty && bit (field b (field b 0x1C 4 + c.1 / 8) 1) (c.1 % 8)

/-- A grammar allows a token in a configuration (R321). -/
def grammarAllows (g v : Bytes) (eos : Nat) (c : GrammarConf) (t : Nat) : Bool :=
  if t == eos then grammarAccepts g c
  else decide (t < vocabPieces v) && pieceKind v t != 2 && (feedBytes g c (tokenBytes v t)).isSome

/-- The configuration after a chosen token. -/
def grammarStep (g v : Bytes) (c : GrammarConf) (t : Nat) : GrammarConf := (feedBytes g c (tokenBytes v t)).getD c

end Sys2Proof.Machine
end

