-- ==== Sys2Proof/Machine/ImageLoads.lean ====
section
/-!
DEFINITION. Loading and retiring images: MODEL_LOAD, VOCAB_LOAD, GRAMMAR_LOAD in their phases, retirement, the placement image, and the
repair of weight runs (R283–R291, R298, R304–R307).
-/
namespace Sys2Proof.Machine

/-- Bytes of the header that BEGIN carries (R289, R305). -/
def beginBytes : ImageKind → Nat
  | .model => 160 | .vocab => 128 | .grammar => 96

/-- The checks of BEGIN. -/
def beginChecks (k : ImageKind) (b : Bytes) (total : Nat) : List (Nat × Bool) :=
  match k with
  | .model => modelHeaderChecks b total
  | .vocab => vocabHeaderChecks b total
  | .grammar => grammarHeaderChecks b total

/-- Live generations of a kind. -/
def State.liveGens (k : ImageKind) (s : State) : List Generation := s.models.gens.filter fun g => g.kind == k && !g.retired

/-- Live generations of a handle. -/
def State.handleGens (k : ImageKind) (h : Nat) (s : State) : List Generation := (s.liveGens k).filter (·.handle == h)

/-- The limits on generations (R283, R304, Table 12-6): 32 handles of models, 16 vocabulary generations, 64 grammar generations, and 4 of
one handle; a load in progress has its place kept (DESIGN CHOICE, entry 137). -/
def State.genLimits (k : ImageKind) (h : Nat) (s : State) : Except Detail Unit := do
  let held := (s.liveGens k).map (·.handle) ++ (s.models.loads.filter (·.kind == k)).map (·.handle)
  match k with
  | .model => need (held.contains h || decide (held.eraseDups.length < 32)) (noResources 32)
  | .vocab => need (decide (held.length < 16)) (noResources 16)
  | .grammar => need (decide (held.length < 64)) (noResources 64)
  need (decide ((s.handleGens k h).length < 4)) (noResources 4)

/-- Bytes of the model region (R285). -/
def State.modelRegion (s : State) : Nat := field s.placeImage 0x24 4 * 1048576

/-- BEGIN (R289). -/
def State.loadBegin (k : ImageKind) (f : Flight) (s : State) : Except Detail State := do
  let b := f.plain
  let img := b.drop 32
  let total := field b 0x10 8
  match firstFault (beginChecks k img total) with
  | some o => .error (bad (0x40 + o))
  | none => do
    let h := field b 0 4
    need (!s.models.loads.any fun l => l.kind == k && l.handle == h) (noResources 1)
    need (decide ((s.models.loads.filter (·.tenant == f.tenant)).length < 4)) (noResources 4)
    need (decide (s.models.loads.length < 16)) (noResources 16)
    s.genLimits k h
    if k == .model then do
      need (decide (s.modelBytes + total ≤ s.modelRegion)) (noResources (s.modelRegion / 1048576))
      s.quotaHbm f.tenant total
    let id := s.models.nextLoad
    .ok (({ s with
      models.loads := s.models.loads ++ [{ id := id, kind := k, handle := h, tenant := f.tenant, total := total, writes := [(0, img)], last := s.clock }]
      models.nextLoad := id % 0xFFFFFFFF + 1 } : State).answer f .done (leBytes 4 id ++ zeros 4))

/-- The load a phase names (R289). -/
def State.load (k : ImageKind) (f : Flight) (s : State) : Except Detail ImageLoad :=
  match s.models.loads.find? fun l => l.id == field f.plain 0x18 4 && l.kind == k && l.handle == field f.plain 0 4 with
  | some l => if l.committing.isSome then .error wrongState else .ok l
  | none => .error (bad 0x38)

/-- Change a load. -/
def State.updLoad (id : Nat) (g : ImageLoad → ImageLoad) (s : State) : State :=
  { s with models.loads := s.models.loads.map fun l => if l.id == id then g l else l }

/-- Discard a load. -/
def State.dropLoad (id : Nat) (s : State) : State := { s with models.loads := s.models.loads.filter (·.id != id) }

/-- Byte `i` of a load, as its latest write left it. -/
def loadByte (l : ImageLoad) (i : Nat) : Option Byte :=
  l.writes.findSome? fun w => if w.1 ≤ i then w.2[i - w.1]? else none

/-- The image a load has received; none while a byte is missing. -/
def loadImage (l : ImageLoad) : Option Bytes := (List.range l.total).mapM (loadByte l)

/-- The digest of an image with its field at `o` taken as 0. -/
def digestOk (o : Nat) (b : Bytes) : Bool := slice b o 48 == Config.sha384 (slice b 0 o ++ zeros 48 ++ b.drop (o + 48))

/-- The first fault of a whole image (R290, R305, R320): a byte that was never written, then the image's own checks. -/
def State.imageFault (l : ImageLoad) (s : State) : Option Nat :=
  match (List.range l.total).find? fun i => (loadByte l i).isNone with
  | some o => some o
  | none =>
    let b := (loadImage l).getD []
    match l.kind with
    | .model => modelFault s.placeImage b
    | .vocab => vocabFault (digestOk 0x50 b) b
    | .grammar => grammarFault (digestOk 0x30 b) b

/-- COMMIT (R289, R290): a fault is answered with its 64-bit offset in the image, and discards the load; otherwise the image is programmed
to flash, and MODEL_LOAD_COMMIT_DONE answers. -/
def State.loadCommit (l : ImageLoad) (f : Flight) (s : State) : Except Detail State :=
  match s.imageFault l with
  | some o => .ok ((s.dropLoad l.id).answerDetail f
      { status := .badField, offset := o % 2 ^ 32, space := 1, offsetHi := o / 2 ^ 32 })
  | none => .ok ((s.updLoad l.id fun l => { l with committing := some (f.mbx, f.tag), last := s.clock }).setWork f (.loadWait l.id))

/-- A phase of an image load (R289, R305). -/
def State.imageLoad (k : ImageKind) (f : Flight) (s : State) : Except Detail State := do
  let b := f.plain
  opening f 32 16777216
  let ph := field b 4 1
  fields [(0, 1 ≤ field b 0 4 % 2 ^ 20), (4, decide (ph ≤ 3)), (5, zeroField b 5 3),
    (8, if ph == 1 then field b 8 8 % 4096 == 0 else field b 8 8 == 0), (0x10, ph == 0 || field b 0x10 8 == 0),
    (0x18, if ph == 0 then field b 0x18 4 == 0 else true), (0x1C, zeroField b 0x1C 4)]
  let n := b.length - 32
  need (if ph == 0 then n == beginBytes k else ph == 1 || n == 0) (bad 0x0C)
  need (ownerOf (field b 0 4) == f.tenant) (notAuthorised 0x20)
  if ph == 0 then s.loadBegin k f
  else do
    let l ← s.load k f
    if ph == 1 then do
      let o := field b 8 8
      need (decide (o + n ≤ l.total)) (bad (if l.total ≤ o then 0x28 else 0x40 + (l.total - o)))
      .ok ((s.updLoad l.id fun l => { l with writes := (o, b.drop 32) :: l.writes, last := s.clock }).answer f .done [])
    else if ph == 2 then s.loadCommit l f
    else .ok ((s.dropLoad l.id).answer f .done [])

/-- MODEL_LOAD (R289). -/
def execModelLoad (m : Mbx) (tag : Word) (s : State) : Host.Outcome State Fault Refusal :=
  .next (s.start 0x4001 m tag (State.imageLoad .model))
/-- VOCAB_LOAD (R305). -/
def execVocabLoad (m : Mbx) (tag : Word) (s : State) : Host.Outcome State Fault Refusal :=
  .next (s.start 0x4020 m tag (State.imageLoad .vocab))
/-- GRAMMAR_LOAD (R305). -/
def execGrammarLoad (m : Mbx) (tag : Word) (s : State) : Host.Outcome State Fault Refusal :=
  .next (s.start 0x4030 m tag (State.imageLoad .grammar))

/-- MODEL_LOAD_COMMIT_DONE (R289, R305): the committed image of load `load` is in flash, and is the handle's next and current generation; with the
media FAILED or in LOW_SPACE the copy cannot be written, and the load stays open (R378, Table 11-10). -/
def execModelLoadCommitDone (load : Word) (s : State) : Host.Outcome State Fault Refusal :=
  .next (match s.models.loads.find? (·.id == load.toNat) with
    | none => s
    | some l => match l.committing with
      | none => s
      | some (m, tag) =>
        let ans (st : Status) (p : Bytes) (s : State) : State := match s.flight m tag with | some f => s.answer f st p | none => s
        if !s.serving then s
        else if s.flash.failed || s.flash.lowSpace then ans .tierFailed [] (s.updLoad l.id fun l => { l with committing := none, last := s.clock })
        else
          let img := (loadImage l).getD []
          let n := ((s.models.gens.filter fun g => g.kind == l.kind && g.handle == l.handle).map (·.gen)).foldl max 0 + 1
          let gens := s.models.gens.map fun (g : Generation) => if g.kind == l.kind && g.handle == l.handle then { g with current := false } else g
          let s := ({ s with models.gens := gens ++ [{ kind := l.kind, handle := l.handle, gen := n, image := img }] } : State).dropLoad l.id
          let s := s.charge l.tenant 0x40 l.total
          ans .done (leBytes 2 n ++ leBytes 2 (s.handleGens l.kind l.handle).length ++
            leBytes 8 (if l.kind == .model then (readModelHeader img).weightBytes else img.length)) s)

/-- LOAD_IDLE_TIMEOUT (R289): a load that has received no phase for 60 s is discarded. -/
def execLoadIdleTimeout (load : Word) (s : State) : Host.Outcome State Fault Refusal :=
  .next (match s.models.loads.find? (·.id == load.toNat) with
    | some l => if l.committing.isNone && l.last + 60000000000 ≤ s.clock then s.dropLoad l.id else s
    | none => s)

/-- A collection pins a generation (R104). -/
def State.pinned (g : Generation) (s : State) : Bool :=
  s.index.collections.vals.any fun c => match g.kind with
    | .model => c.desc.model == g.handle && c.modelGen == g.gen
    | .vocab => c.desc.vocab == g.handle && c.vocabGen == g.gen
    | .grammar => false

/-- MODEL_RETIRE, VOCAB_RETIRE and GRAMMAR_RETIRE (R291, R306). -/
def State.imageRetire (k : ImageKind) (f : Flight) (s : State) : Except Detail State := do
  let b := f.plain
  opening f 8 8
  fields [(6, zeroField b 6 2)]
  let h := field b 0 4
  need (ownerOf h == f.tenant) (notAuthorised 0x20)
  let live := s.handleGens k h
  need (!live.isEmpty) (bad 0x20)
  let gs := if field b 4 2 == 0 then live else live.filter (·.gen == field b 4 2)
  need (!gs.isEmpty) (bad 0x24)
  need (!gs.any fun g => s.pinned g) (wrongStateAt 0x24)
  let hit (g : Generation) : Bool := gs.contains g
  let s1 : State := { s with models.gens := s.models.gens.map fun (g : Generation) => if hit g then { g with retired := true, current := false } else g }
  let s2 := s1.reapGens
  let size (s : State) : Nat := (s.models.gens.map (·.image.length)).foldl (· + ·) 0
  .ok (s2.answer f .done (leBytes 2 gs.length ++ zeros 2 ++ leBytes 8 (size s1 - size s2)))

/-- MODEL_RETIRE (R291). -/
def execModelRetire (m : Mbx) (tag : Word) (s : State) : Host.Outcome State Fault Refusal :=
  .next (s.start 0x4002 m tag (State.imageRetire .model))
/-- VOCAB_RETIRE (R306). -/
def execVocabRetire (m : Mbx) (tag : Word) (s : State) : Host.Outcome State Fault Refusal :=
  .next (s.start 0x4021 m tag (State.imageRetire .vocab))
/-- GRAMMAR_RETIRE (R306). -/
def execGrammarRetire (m : Mbx) (tag : Word) (s : State) : Host.Outcome State Fault Refusal :=
  .next (s.start 0x4031 m tag (State.imageRetire .grammar))

/-- PLACEMENT_LOAD (R285, R286): the image is checked and programmed to flash; PLACEMENT_IN_FORCE answers. -/
def execPlacementLoad (m : Mbx) (tag : Word) (s : State) : Host.Outcome State Fault Refusal :=
  .next (s.start 0x4003 m tag fun f s => do
    opening f 96 8388608
    match placementFault f.plain s.nodeId s.placementGen with
    | some o => .error (bad (0x20 + o))
    | none => do
      need (s.models.placing.isNone && s.mayReplace f.plain) wrongState
      .ok (({ s with models.placing := some { placement := { gen := field f.plain 8 4, image := f.plain }, mbx := m.key, tag := tag } } : State).setWork f
        .placeWait))

/-- PLACEMENT_IN_FORCE (R286, R343): the image has been programmed; the conditions are checked again, and it comes into force. -/
def execPlacementInForce (s : State) : Host.Outcome State Fault Refusal :=
  .next (match s.models.placing with
    | none => s
    | some p =>
      if !s.serving then s
      else
        let ok := s.mayReplace p.placement.image
        let s : State := { s with
          models.placing := none
          models.placement := if ok then some p.placement else s.models.placement }
        match s.flight p.mbx p.tag with
        | some f => if ok then s.answer f .done (leBytes 4 p.placement.gen ++ zeros 4) else s.answerDetail f wrongState
        | none => s)

/-- Commands that waited for a rebuild run again (R153, R186, R298). -/
def State.resumeRebuild (s : State) : State :=
  { s with host.flights := s.host.flights.map fun f => if f.work == .rebuildWait then { f with work := .admitted } else f }

/-- Change a generation. -/
def State.updGen (k : ImageKind) (h n : Nat) (g : Generation → Generation) (s : State) : State :=
  { s with models.gens := s.models.gens.map fun x => if x.kind == k && x.handle == h && x.gen == n then g x else x }

/-- MODEL_WEIGHT_RUN_REPAIRED (R298): the run has been rewritten from flash, or the flash copy failed its tag and the generation stays
damaged; the commands that waited go on. -/
def execModelWeightRunRepaired (model : Word) (gen : Half) (run : Nat) (tagHolds : Bool) (s : State) : Host.Outcome State Fault Refusal :=
  let mend (l : List (Nat × Bool)) : List (Nat × Bool) :=
    if tagHolds then l.filter (·.1 != run) else l.map fun d => if d.1 == run then (run, true) else d
  .next ((s.updGen .model model.toNat gen.toNat fun g => { g with damaged := mend g.damaged }).resumeRebuild)

end Sys2Proof.Machine
end

