-- ==== Sys2Proof/Machine/Piw.lean ====
section
/-!
DEFINITION. Posted ingest windows: BAR2 writes, the slot, the timeout, admission and the flush (R62–R68).
-/
namespace Sys2Proof.Machine

/-- Bytes of a window (R62). -/
def windowSize : Nat := 1048576

/-- The distance of a window offset from PIW_NEXT. -/
def windowDistance (x : Window) (off : Nat) : Nat := (off + windowSize - x.next) % windowSize

/-- Answer a window packet whose slot is inconsistent or whose header CRC fails, on the bound mailbox (R63). Where that mailbox is not ACTIVE the answer
waits in line all the same, and RESPONSE_WRITE writes it at RSP_PROD (DESIGN CHOICE, log entry 141). -/
def State.answerSlot (w : Nat) (h : Header) (off : Nat) (r : Reason) (s : State) : State :=
  match (s.win w).bound with
  | some t => s.refuse t (.window w) h (violation off r)
  | none => s.winViolation w r

/-- The slot write completes the packet, which ACCEPTED counts while its framing is intact (Table 2-24), and which is checked (R63). -/
def completePacket (w : Nat) (slot : Nat) (s : State) : State :=
  let x := s.win w
  let pkt := slot % 2 ^ 32
  let raw := memLoad windowSize x.buffer (x.next + 8) 32
  let h := parseHeader raw
  let s := s.setWin w { x with current := none }
  if pkt % 64 ≠ 0 ∨ pkt < 64 ∨ 262144 < pkt then
    ((s.updWin w fun x => { x with framingLost := true }).winSilent w .piwSlot).flushStep w
  else
    let s := s.updWin w fun x => { x with next := (x.next + pkt) % windowSize }
    let s := s.updWin w fun y => { y with accepted := (x.accepted + 1) % 65536 }
    let s :=
      if headerCrc raw != h.crc then s.answerSlot w { h with opcode := 0 } 0x14 .hdrCrc
      else if slot / 2 ^ 48 ≠ 0 ∨ bits slot 32 47 ≠ x.accepted % 65536 ∨ pkt ≠ 64 * ((40 + h.length.toNat + 63) / 64) then
        s.answerSlot w h noOffset .piwSlot
      else
        s.updWin w fun y => { y with queued := x.queued ++ [{ offset := x.next, bytes := pkt, arrival := s.clock }] }
    s.flushStep w

/-- A BAR2 write of `bytes` at offset `off` of window `w` (R63, R66, R68). -/
def windowWrite (w off : Nat) (bytes : Bytes) (s : State) : State :=
  let x := s.win w
  let d := windowDistance x off
  let n := bytes.length
  let isSlot := d == 0 && n == 8
  if n == 0 then s
  else if !x.enable || x.bound.isNone || x.framingLost || x.flushPending then s.winSilent w .piwWrite
  else if x.overrun then s
  else if x.current.isNone && winFull x then
    (s.setWin w { x with overrun := true }).globalError errPiwEvent
  else if winFree x < d + n then s.winSilent w .piwWrite
  else if d < 8 && !isSlot then s.winSilent w .piwWrite
  else
    let s := s.setWin w { x with
      current := some (x.current.getD { since := s.clock }), buffer := memStore windowSize x.buffer off bytes }
    if isSlot then completePacket w (leNat bytes) s else s

/-- PIW_DATA_WRITE (R66): a posted write of any length; what would run past the window's end does not reach it. -/
def execPiwDataWrite (w : Fin 64) (off : Fin 1048576) (bytes : Bytes) (s : State) : Host.Outcome State Fault Refusal :=
  .next (s.overPcie (windowWrite w off (bytes.take (windowSize - off))))

/-- PIW_SLOT_WRITE (R63): a single aligned 8-byte write at PIW_NEXT. -/
def execPiwSlotWrite (w : Fin 64) (slot : BitVec 64) (s : State) : Host.Outcome State Fault Refusal :=
  .next (s.overPcie fun s => windowWrite w (s.win w).next (leBytes 8 slot.toNat) s)

/-- PIW_PACKET_TIMEOUT (R63): TIMEOUT after a packet's first write its slot has not arrived. -/
def execPiwPacketTimeout (w : Fin 64) (s : State) : Host.Outcome State Fault Refusal :=
  let x := s.win w
  .next (match x.current with
    | some p =>
      if p.since + x.timeout * 100000 ≤ s.clock then
        ((s.setWin w { x with current := none, framingLost := true }).winSilent w .piwTimeout).flushStep w
      else s
    | none => s)

/-- PIW_FLUSH_COMPLETE (R68): every packet queued before the flush has its response; PIW_UNBIND then clears the binding and
ENABLE, and is answered (R65). -/
def execPiwFlushComplete (w : Fin 64) (s : State) : Host.Outcome State Fault Refusal :=
  .next (
    let s := s.flushStep w
    if (s.win w).flushRequested then s
    else match s.host.flights.find? (·.work == .flushWait w) with
      | some f => (s.updWin w fun x => { x with bound := none, enable := false }).answer f .done []
      | none => s)

end Sys2Proof.Machine
end

