-- ==== Sys2Proof/Machine/Replication.lean ====
section
/-!
DEFINITION. What a primary sends to the replicas of a collection: copies of SEALED segments, and operations in CSN order (R438, Table 16-23).
-/
namespace Sys2Proof.Machine

/-- A replica message (Table 16-23). -/
def replicaMessage (kind collection csn segment offset : Nat) (body : Bytes) : Bytes :=
  leBytes 1 kind ++ zeros 3 ++ leBytes 4 collection ++ leBytes 8 csn ++ leBytes 8 segment ++ leBytes 4 offset ++ leBytes 4 body.length ++ body

/-- A version as an item of a replica's OP: what the primary has computed, nothing to compute again (R438, Table 16-23). -/
def replicaItem (d : Descriptor) (v : Version) : Bytes :=
  padTo 8 (leBytes 8 v.id ++ leBytes 8 v.packed ++ v.ext ++ leBytes (d.sketchBits / 8) v.sketch ++ v.refine ++
    (if d.storeFull then v.vector else []) ++
    (if d.storeTokens then leBytes 4 v.tokens.length ++ v.tokens.flatMap (leBytes 4) else []))

/-- The body of an OP message; none for an operation that changed nothing. -/
def Collection.opBody (c : Collection) (o : Operation) : Option Bytes :=
  let head (op n : Nat) : Bytes := leBytes 2 op ++ zeros 2 ++ leBytes 4 n
  match o.body with
  | .insert items upsert =>
    let op := 0x2010 + 2 * flag upsert + flag (c.desc.model != 0)
    let vs := items.filterMap fun r => c.versions.find? fun v => v.id == r.id && v.ins == o.csn
    some (head op vs.length ++ vs.flatMap (replicaItem c.desc))
  | .delete ids => some (head 0x2014 ids.length ++ ids.flatMap (leBytes 8))
  | .deleteByFilter p => some (head 0x2015 0 ++ leBytes 1 (p.length / 24) ++ zeros 7 ++ p)
  | .empty => none

/-- Send the committed operations above a CSN to a replica, in CSN order, as far as they can be sent; answers the last CSN sent (R438). -/
def State.sendOps (c : Collection) (node above : Nat) (s : State) : State × Nat :=
  let r := (c.ops.filter fun o => decide (above < o.csn) && decide (o.csn ≤ c.committed)).foldl (fun (a : State × Nat × Bool) o =>
    if !a.2.2 then a
    else match c.opBody o with
      | some b =>
        let t := a.1.send node 0x21 5 (ownerOf c.id) false (replicaMessage 1 c.id o.csn 0 0 b)
        if t.2 then (t.1, o.csn, true) else (a.1, a.2.1, false)
      | none => (a.1, o.csn, true)) (s, above, true)
  (r.1, r.2.1)

/-- Send a SEALED segment as it is stored, 4,000 sectors a message (R438, Table 16-23). -/
def State.sendSegment (c : Collection) (node : Nat) (x : Segment) (s : State) : State :=
  let bytes := if x.tombstone then 24 * x.records.length else ((c.rows x.id).map (recordBytes c.desc)).sum
  let sectors := (bytes + 4095) / 4096
  (List.range ((sectors + 3999) / 4000)).foldl (fun s i =>
    let body := (List.range (min 4000 (sectors - 4000 * i))).flatMap fun j => s.storedSector c.id x.gen x.id (4000 * i + j)
    s.post node 0x21 5 (ownerOf c.id) false (replicaMessage 2 c.id (c.highest x) x.id (4112 * 4000 * i) body)) s

/-- Copy what is sealed to a replica (R438): the SEALED segments, unless it reads them from the shared tier, and COPY_END; the answer says whether
COPY_END could be sent. -/
def State.copyTo (c : Collection) (node : Nat) (s : State) : State × Bool :=
  let segs := if (placeClassOf s.placeImage c.cls).publish then [] else c.segments.filter segDurable
  let s := segs.foldl (fun s x => s.sendSegment c node x) s
  s.send node 0x21 5 (ownerOf c.id) false (replicaMessage 5 c.id c.sealedCsn 0 0 [])

/-- Bring a replica on: a copy where it lacks what the log no longer holds, and the operations it has not been sent (R438). -/
def State.pumpReplica (c : Collection) (r : Replica) (s : State) : State :=
  if r.state = 2 then s
  else
    let t := if r.sent < c.sealedCsn then s.copyTo c r.node else (s, true)
    if !t.2 then s
    else
      let u := t.1.sendOps c r.node (max r.sent c.sealedCsn)
      u.1.updColl c.id fun c => { c with replicas := c.replicas.map fun x => if x.node = r.node then { x with sent := u.2 } else x }

end Sys2Proof.Machine
end

