-- ==== Sys2Proof/Machine/Ingest.lean ====
section
/-!
DEFINITION. Operations: INSERT_*, UPSERT_*, DELETE_ITEMS, DELETE_BY_FILTER, their acknowledgement, application and commit
(R24, R25, R105–R118, R120, R271, R274, R278).
-/
namespace Sys2Proof.Machine

/-- The time ingest work takes at the profile's rate, ns; encoding slows down with the active tiles (R255). -/
def State.ingestCost (text : Bool) (n : Nat) (s : State) : Nat :=
  if text then max 1 n * 1000000000 * 4096 / (chunkRate s.power.rates * max 1 s.activeTiles)
  else max 1 n * 1000000000 / vectorRate s.power.rates

/-- The lowest set bit's byte among bits of a packed word that no field covers (R106). -/
def packedFault (fs : List FieldDesc) (v : Nat) : Option Nat :=
  ((List.range 64).find? fun i => bit v i && !packedCovered fs i).map (· / 8)

/-- The first nonzero extended byte that no field covers (R106). -/
def extFault (fs : List FieldDesc) (e : Bytes) : Option Nat :=
  (List.range e.length).find? fun i => e.getD i 0 != 0 && !extCovered fs i

/-- The first element of a vector that is not finite; under cosine a vector of zeros offends at its start (R106). -/
def vectorFault (d : Descriptor) (v : List Word) : Option Nat :=
  let e := if d.vecFormat == 1 then 2 else 4
  match v.findIdx? (fun w => !f32Finite w) with
  | some i => some (e * i)
  | none => if d.metric == 1 && v.all (fun w => f32Abs w == 0) then some 0 else none

/-- An offset relative to a base, as a BAD_FIELD. -/
def faultAt (base : Nat) : Option Nat → Except Detail Unit
  | some i => .error (bad (base + i))
  | none => .ok ()

/-- The size of a vector record (Table 4-3). -/
def vectorRecordBytes (d : Descriptor) : Nat := 16 + d.extBytes + d.dim * (if d.vecFormat == 1 then 2 else 4)

/-- Read one vector record at packet offset `o`, with the IDs already seen (R106). -/
def readVectorRecord (d : Descriptor) (o : Nat) (seen : List Nat) (b : Bytes) : Except Detail ItemRecord := do
  let id := field b 0 8
  need (id != 2 ^ 64 - 1 && !seen.contains id) (bad o)
  faultAt (o + 8) (packedFault d.fields (field b 8 8))
  let ext := slice b 16 d.extBytes
  faultAt (o + 16) (extFault d.fields ext)
  let vec := b.drop (16 + d.extBytes)
  faultAt (o + 16 + d.extBytes) (vectorFault d (vectorElements d.vecFormat d.dim vec))
  return { id := id, packed := field b 8 8, ext := ext, vector := some (vec.take (vectorRecordBytes d - 16 - d.extBytes)) }

/-- Read `n` vector records (R105). -/
def readVectorRecords (d : Descriptor) : Nat → Nat → List Nat → Bytes → Except Detail (List ItemRecord)
  | 0, _, _, _ => .ok []
  | n + 1, o, seen, b => do
    let r ← readVectorRecord d o seen (b.take (vectorRecordBytes d))
    let t ← readVectorRecords d n (o + vectorRecordBytes d) (r.id :: seen) (b.drop (vectorRecordBytes d))
    return r :: t

/-- The bytes of a text record that starts a byte string, where its head is whole (Table 4-3). -/
def textRecordBytes (d : Descriptor) (b : Bytes) : Option Nat :=
  if b.length < 0x18 then none else some (0x18 + d.extBytes + (field b 0x10 4 + 7) / 8 * 8)

/-- Bytes of the first `n` text records that are whole, and how many they are (R105). -/
def wholeText (d : Descriptor) : Nat → Bytes → Nat × Nat
  | 0, _ => (0, 0)
  | n + 1, b => match textRecordBytes d b with
    | some k => if k ≤ b.length then let r := wholeText d n (b.drop k); (k + r.1, r.2 + 1) else (0, 0)
    | none => (0, 0)

/-- Read `n` text records (R105, R106). -/
def readTextRecords (d : Descriptor) : Nat → Nat → List Nat → Bytes → Except Detail (List ItemRecord)
  | 0, _, _, _ => .ok []
  | n + 1, o, seen, b => do
    let id := field b 0 8
    need (id != 2 ^ 64 - 1 && !seen.contains id) (bad o)
    faultAt (o + 8) (packedFault d.fields (field b 8 8))
    let k := field b 0x10 4
    need (1 ≤ k && k ≤ 65536) (bad (o + 0x10))
    need (zeroField b 0x14 4) (bad (o + 0x14))
    let ext := slice b 0x18 d.extBytes
    faultAt (o + 0x18) (extFault d.fields ext)
    let pad := (8 - k % 8) % 8
    need (zeroField b (0x18 + d.extBytes + k) pad) (bad (o + 0x18 + d.extBytes + k))
    let size := 0x18 + d.extBytes + k + pad
    let t ← readTextRecords d n (o + size) (id :: seen) (b.drop size)
    return { id := id, packed := field b 8 8, ext := ext, vector := none, text := slice b (0x18 + d.extBytes) k } :: t

/-- While 4 segments are SEALING, the open segment grows to 2 × SEAL_ITEMS and no further (R123): `n` more rows do not fit. -/
def Collection.capped (c : Collection) (n : Nat) : Bool :=
  decide (4 ≤ c.sealingCount) && c.openSegment.any fun x =>
    decide (2 * c.desc.sealItems ≤ (c.rows x.id).length) || decide (2 * c.desc.sealItems < (c.rows x.id).length + n)

/-- An operation of `n` items, `stored` of which it stores, beyond the limits of its collection, with the hint its refusal carries: what is acknowledged
and uncommitted, an open segment at its cap, and the rates of the profile (R25, R118, R120, R123, R174). -/
def State.opBusy (c : Collection) (text : Bool) (n stored : Nat) (s : State) : Option Nat :=
  let pend := c.uncommitted.filter (·.acked)
  let wait := (s.index.ingestDone - s.clock) / 1000
  if c.appendsWait || decide (65536 ≤ pend.length) || decide (4194304 ≤ (pend.map opItems).foldl (· + ·) 0) then some (max wait 300)
  else if c.capped (((c.ops.filter (!·.applied)).map opStored).sum + stored) then some 20000
  else if 4000000 < s.index.ingestDone - s.clock + s.ingestCost text n then some (wait - 4000)
  else none

/-- Capacity checks of an operation of `n` items, `stored` of which it stores; on a window it waits where a mailbox insert is answered BUSY_RETRY (R25,
R118, R123, R174, R424). -/
def State.opLimits (c : Collection) (f : Flight) (text : Bool) (n stored : Nat) (k : State → Except Detail State) (s : State) :
    Except Detail State := do
  need (stored == 0 || decide (c.versions.length + c.toApply + stored ≤ c.desc.maxItems))
    (noResources (min c.desc.maxItems 0xFFFFFFFF))
  let quota := (s.tenantConfig f.tenant).flashQuota
  need (stored == 0 || quota == 0 || decide (s.flashMapped f.tenant < quota * 2 ^ 30)) (noResources quota)
  match s.opBusy c text n stored with
  | some hint => match f.path with
    | .window _ => .ok s
    | _ => .error (busyRetry hint)
  | none => k s

/-- An operation's log record as it goes to log peers: under LK(c) of the generation it was taken in, where that TRK is held (R70, R435). -/
def State.logSealed (id : Nat) (o : Operation) (s : State) : Option Bytes :=
  (s.genTrk id o.gen).map fun k => Config.logSeal (logKey k id) o.csn o.record

/-- Send an operation's log record to log peers; one that no key seals is not sent (R70). -/
def State.shipRecord (peers : List Nat) (id : Nat) (o : Operation) (s : State) : State :=
  match s.logSealed id o with
  | some r => peers.foldl (fun s p => s.post p 0x20 4 (ownerOf id) false (logMessage 1 id o.csn s.nodeId r)) s
  | none => s

/-- Bytes of ingest-log records in the log buffer that are not durable yet, this module's own and its sources' (R386). -/
def State.logBuffered (s : State) : Nat :=
  (s.index.collections.vals.map fun c => ((c.ops.filter fun o => o.buffered && !o.durable).map (·.record.length)).sum).sum +
    ((s.comp.records.filter fun r => !r.durable).map (·.record.length)).sum

/-- The log buffer, 32 MiB across both hubs, has room for a record (R386). -/
def State.logRoom (n : Nat) (s : State) : Bool := decide (s.logBuffered + n ≤ 33554432)

/-- Admit an operation: it takes the next CSN of its collection, its log record goes into the log buffer and to the log peers,
and the command waits for its acknowledgement (R108, R109, R24). -/
def State.admitOp (c : Collection) (f : Flight) (body : OpBody) (encoded : Bool) (n : Nat) (s : State) : State :=
  let csn := c.assigned + 1
  let rec_ := leBytes 2 f.opcode.toNat ++ f.plain
  let o : Operation := {
    csn := csn, body := body, mbx := f.mbx, tag := f.tag, encoded := encoded, gen := c.gen, record := rec_, sentAt := s.clock
    buffered := s.logRoom rec_.length }
  let s := s.updColl c.id fun c => { c with assigned := csn, ops := c.ops ++ [o] }
  let s := { s with index.ingestDone := max s.index.ingestDone s.clock + s.ingestCost (!encoded) n }
  (s.shipRecord s.logPeers c.id o).updFlight f.mbx f.tag fun g => { g with work := .ackWait c.id csn, bound := some csn }

/-- A window packet whose operation its collection cannot take yet stays in its window, which keeps its bytes (R25, R67). -/
def State.packetHeld (t : Nat) (opcode : Half) (plain : Bytes) (s : State) : Bool :=
  windowOpcode opcode && (s.index.collections.find (field plain 0 4)).any fun c =>
    let n := if opcode == 0x2015 then 1 else field plain 4 4
    ownerOf c.id == t && (s.opBusy c (opcode == 0x2011 || opcode == 0x2013) n (if 0x2014 ≤ opcode.toNat then 0 else n)).isSome

/-- PIW_PACKET_ADMIT (R64, R67): the oldest queued packet is admitted, or answered, and its bytes are freed; `opens` and
`plain` are the crypto engine's verdict on its payload. -/
def execPiwPacketAdmit (w : Fin 64) (opens : Bool) (plain : Bytes) (s : State) : Host.Outcome State Fault Refusal :=
  let x := s.win w
  .next (match x.queued, x.bound with
    | q :: _, some t =>
      if s.serving && (s.mbx t).state == .active && !s.tenants.disabled.contains t && (s.host.held.find t).isNone then
        let raw := memLoad windowSize x.buffer (q.offset + 8) 32
        let h := parseHeader raw
        let payload := memLoad windowSize x.buffer (q.offset + 40) h.length.toNat
        if opens && s.packetHeld t h.opcode plain then s
        else match s.submit t (.window w) h { header := raw, payload := payload, opens := opens, plain := plain } q.arrival with
        | .wait s => s
        | .taken s => s.freeSlot w.val
      else s
    | _, _ => s)

/-- The head of an insert or upsert (R105). -/
def insertHead (f : Flight) : Except Detail (Nat × Nat) := do
  lengthBounds f 16 16777216
  csnZero f
  let n := field f.plain 4 4
  fields [(4, 1 ≤ n && n ≤ 65536), (8, zeroField f.plain 8 8)]
  return (field f.plain 0 4, n)

/-- A collection is served here read-only as a replica (R439). -/
def writable (c : Collection) : Except Detail Unit := need (!c.isReplica) (wrongStateAt 0x20)

/-- INSERT_VECTORS and UPSERT_VECTORS up to their CSN. -/
def State.insertVectors (upsert : Bool) (f : Flight) (s : State) : Except Detail State := do
  let (id, n) ← insertHead f
  let c ← s.usableColl 0x20 id f
  need (c.desc.model == 0) (wrongStateAt 0x20)
  writable c
  let k := vectorRecordBytes c.desc
  let body := f.plain.drop 16
  need (body.length == n * k) (bad (0x20 + 16 + min n (body.length / k) * k))
  let recs ← readVectorRecords c.desc n 0x30 [] body
  s.opLimits c f false n n (fun s => .ok (s.admitOp c f (.insert recs upsert) true n))

/-- INSERT_TEXT and UPSERT_TEXT up to their CSN: the records join the encoder batch after the acknowledgement (R107, R293). -/
def State.insertText (upsert : Bool) (f : Flight) (s : State) : Except Detail State := do
  let (id, n) ← insertHead f
  let c ← s.usableColl 0x20 id f
  need (c.desc.model != 0) (wrongStateAt 0x20)
  writable c
  let body := f.plain.drop 16
  let w := wholeText c.desc n body
  need (w.2 == n && w.1 == body.length) (bad (0x20 + 16 + w.1))
  let recs ← readTextRecords c.desc n 0x30 [] body
  s.opLimits c f true n n (fun s => .ok (s.admitOp c f (.insert recs upsert) false n))

/-- INSERT_VECTORS (R105). -/
def execInsertVectors (m : Mbx) (tag : Word) (s : State) : Host.Outcome State Fault Refusal :=
  .next (s.start 0x2010 m tag (State.insertVectors false))

/-- INSERT_TEXT (R105, R107). -/
def execInsertText (m : Mbx) (tag : Word) (s : State) : Host.Outcome State Fault Refusal :=
  .next (s.start 0x2011 m tag (State.insertText false))

/-- UPSERT_VECTORS (R114). -/
def execUpsertVectors (m : Mbx) (tag : Word) (s : State) : Host.Outcome State Fault Refusal :=
  .next (s.start 0x2012 m tag (State.insertVectors true))

/-- UPSERT_TEXT (R114). -/
def execUpsertText (m : Mbx) (tag : Word) (s : State) : Host.Outcome State Fault Refusal :=
  .next (s.start 0x2013 m tag (State.insertText true))

/-- DELETE_ITEMS (R115). -/
def execDeleteItems (m : Mbx) (tag : Word) (s : State) : Host.Outcome State Fault Refusal :=
  .next (s.start 0x2014 m tag fun f s => do
    let b := f.plain
    let (id, n) ← insertHead f
    need (b.length == 16 + 8 * n) (bad (0x20 + 16 + min n ((b.length - 16) / 8) * 8))
    let c ← s.usableColl 0x20 id f
    writable c
    let ids := (List.range n).map fun i => field b (16 + 8 * i) 8
    s.opLimits c f false n 0 (fun s => .ok (s.admitOp c f (.delete ids) true n)))

/-- Predicate tombstones a collection holds or will hold once its operations are applied (R116). -/
def Collection.tombCount (c : Collection) : Nat :=
  c.predicates.length + (c.ops.filter fun o => !o.applied && (match o.body with | .deleteByFilter _ => true | _ => false)).length

/-- DELETE_BY_FILTER (R116). -/
def execDeleteByFilter (m : Mbx) (tag : Word) (s : State) : Host.Outcome State Fault Refusal :=
  .next (s.start 0x2015 m tag fun f s => do
    let b := f.plain
    opening f 40 784
    let n := field b 4 1
    fields [(4, 1 ≤ n && n ≤ 32), (5, zeroField b 5 11)]
    need (b.length == 16 + 24 * n) (bad 0x0C)
    let c ← s.usableColl 0x20 (field b 0 4) f
    writable c
    checkFilter c.desc.fields 0x30 n (b.drop 16)
    need (decide (c.tombCount < 16)) (busyRetry 20000)
    s.opLimits c f false 1 0 (fun s => .ok (s.admitOp c f (.deleteByFilter (b.drop 16)) true 1)))

/-- Change an operation of a collection. -/
def Collection.updOp (c : Collection) (csn : Nat) (g : Operation → Operation) : Collection :=
  { c with ops := c.ops.map fun o => if o.csn == csn then g o else o }

/-- An operation of a collection by its CSN. -/
def Collection.op (c : Collection) (csn : Nat) : Option Operation := c.ops.find? (·.csn == csn)

/-- The record may be acknowledged (R24): it is in the log buffer, and both peers have confirmed it, or, with fewer than two
peers reachable, it has been programmed to flash. -/
def State.ackable (o : Operation) (s : State) : Bool :=
  o.buffered && if s.livePeers.length == 2 then s.comp.peers.all o.confirmed.contains else o.durable

/-- ACK.COUNT (R109). -/
def ackCount : OpBody → Nat
  | .insert items _ => items.length | .delete ids => ids.length | _ => 0

/-- An operation is acknowledged: what it inserts is charged, and its texts join the encoder batch (R107, R109, R444). -/
def State.acknowledge (id csn : Nat) (o : Operation) (s : State) : State :=
  let s := s.updColl id fun c => c.updOp csn fun _ => { o with acked := true, ackTime := s.clock }
  match o.body with
  | .insert items _ =>
    let s := s.charge (ownerOf id) 0x58 items.length
    if o.encoded then s else
      { s with
        index.batch := s.index.batch ++ (List.range items.length).map fun i => (id, csn, i)
        index.batchSince := if s.index.batch.isEmpty then s.clock else s.index.batchSince }
  | _ => s

/-- OPERATION_ACK (R24, R109, R386): a record that found the log buffer full goes in once there is room; the operation is acknowledged and answered DONE
with its CSN. `programmed` reports that its log record has been programmed to flash. A self-fenced module does not acknowledge into a replicated collection (R433). -/
def execOperationAck (collection : Word) (csn : Nat) (programmed : Bool) (s : State) : Host.Outcome State Fault Refusal :=
  let id := collection.toNat
  .next (match s.coll id with
    | none => s
    | some c => match c.op csn with
      | none => s
      | some o =>
        let o := { o with buffered := o.buffered || s.logRoom o.record.length }
        let o := { o with durable := o.durable || (programmed && o.buffered) }
        let s := s.updColl id fun c => c.updOp csn fun _ => o
        if o.acked || !s.ackable o || !s.serving || ((s.selfFenced || (s.comp.compositions.find c.composition).any (·.fenced)) && !c.replicas.isEmpty) then s
        else
          let s := s.acknowledge id csn o
          match s.flight o.mbx o.tag with
          | some f =>
            if f.work == .ackWait id csn then s.answer f .done (leBytes 4 (ackCount o.body) ++ zeros 4) csn else s
          | none => s)

/-- The vector an item is quantised from: as supplied, widened, and normalised under cosine (R271, R278). -/
def preparedVector (d : Descriptor) (b : Bytes) : List Word :=
  let x := vectorElements d.vecFormat d.dim b
  if d.metric == 1 then normalise x else x

/-- The version an item record becomes (R106, R152, R271–R278), at the end of the open segment. -/
def newVersion (c : Collection) (csn seg pos : Nat) (r : ItemRecord) : Version × Nat :=
  let d := c.desc
  let q := readQHeader c.qimage
  let x := preparedVector d (r.vector.getD [])
  let p := readProjection d.dim d.sketchBits (slice c.qimage q.projOffset q.projBytes)
  let sigma := readScales d.dim (slice c.qimage q.scaleOffset q.scaleBytes)
  let l := assignList c x
  ({ id := r.id, packed := r.packed, ext := r.ext, ins := csn, list := l, seg := seg, pos := pos, sketch := sketchOf p x
     refine := refinePack d.refineBits (refineCodes (refineMax d.refineBits) sigma x)
     vector := if d.storeFull then vectorBytes d.vecFormat x else []
     tokens := if d.storeTokens then r.tokens else [] },
   refineClamped (refineMax d.refineBits) sigma x)

/-- Append items to the open segment; answers how many code elements were clamped too (R120, R274). -/
def Collection.append (c : Collection) (now csn : Nat) (items : List ItemRecord) : Collection × Nat :=
  match c.openSegment with
  | none => (c, 0)
  | some x =>
    let n := (c.rows x.id).length
    let new := items.mapIdx fun i r => newVersion c csn x.id (n + i) r
    let c := c.updSegment x.id fun x => { x with firstAt := match x.firstAt with | some t => some t | none => some now }
    ({ c with versions := c.versions ++ new.map (·.1) }, (new.map (·.2)).foldl (· + ·) 0)

/-- Apply an operation (R110, R113–R116): the collection, the marks written, the elements clamped, and the deletes that found no
version. -/
def Collection.apply (c : Collection) (now : Nat) (o : Operation) : Collection × Nat × Nat × Nat :=
  let done (c : Collection) : Collection := c.updOp o.csn fun o => { o with applied := true }
  match o.body with
  | .insert items upsert =>
    let hit := if upsert then c.mark now o.csn (fun v => visible c (o.csn - 1) v && items.any (·.id == v.id)) else (c, 0)
    let r := hit.1.append now o.csn items
    (done r.1, hit.2, r.2, 0)
  | .delete ids =>
    let hit := c.mark now o.csn (fun v => visible c (o.csn - 1) v && ids.contains v.id)
    let misses := (ids.filter fun i => !c.versions.any fun v => v.id == i && visible c (o.csn - 1) v).length
    (done hit.1, hit.2, 0, misses)
  | .deleteByFilter p => (done { c with predicates := c.predicates ++ [{ csn := o.csn, predicates := p }] }, 0, 0, 0)
  | .empty => (done c, 0, 0, 0)

/-- An operation looks its item IDs up in the ID tables of sealed segments, which are in flash (R117). -/
def Collection.looksUp (c : Collection) (o : Operation) : Bool :=
  (match o.body with | .insert _ upsert => upsert | .delete _ => true | _ => false) && c.versions.any c.inSealed

/-- The writes of an operation may go ahead: it is acknowledged and encoded, and every operation below it has been applied, since a list is appended in
CSN order and marks go by what is visible below the operation (R115, R120, R123; DEDUCED, log entry 49). Nothing is applied to a collection that does not
serve (R111, R134), nor once power loss has begun (R135). -/
def Collection.applicable (c : Collection) (o : Operation) : Bool :=
  o.acked && o.encoded && !o.applied && c.availability == .ready && c.dropping.isNone && c.ops.all fun p => decide (o.csn ≤ p.csn) || p.applied

/-- OPERATION_APPLY (R110): the writes of an acknowledged operation are done. Where its lookups meet a failed or late tier, it is delayed
until the bound of R25 is 1 ms away, and its lookups are then continued from the replica or log peer (R117). Appends wait where no extent is free, where
the commit index has no room, and at the cap of the open segment (R120, R123, R174). -/
def execOperationApply (collection : Word) (done : Applied) (s : State) : Host.Outcome State Fault Refusal :=
  let id := collection.toNat
  .next (match s.coll id with
    | none => s
    | some c => match c.op done.csn with
      | none => s
      | some o =>
        let late := !done.tier && c.looksUp o && decide (s.clock < o.ackTime + 4000000)
        if c.applicable o && s.serving && !late && !(opStored o != 0 && c.capped (opStored o)) then
          let r := c.apply s.clock o
          match s.placeRows true (fun _ => none) { r.1 with deleteMisses := c.deleteMisses + r.2.2.2, appendsWait := false } with
          | none => s.updColl id fun c => { c with appendsWait := true }
          | some d =>
            let s := (s.setColl d).countWrites c d
            let s := if r.2.1 = 0 then s else s.charge (ownerOf id) 0x60 r.2.1
            if r.2.2.1 = 0 then s else s.charge (ownerOf id) 0xA8 r.2.2.1
        else s)

/-- The last CSN of the gap-free prefix of applied operations above C (R110). -/
def Collection.prefixEnd (c : Collection) : Nat → Nat
  | 0 => c.committed
  | n + 1 =>
    let p := c.prefixEnd n
    match c.op (p + 1) with
    | some o => if o.applied then p + 1 else p
    | none => p

/-- The seal of the open segment takes effect: it closes to appends under the current generation, and a new segment opens
(R92, R122, R123). -/
def Collection.sealOpen (c : Collection) : Collection :=
  match c.openSegment with
  | none => c
  | some x =>
    if (c.rows x.id).isEmpty || 4 ≤ c.sealingCount then c
    else
      let c := c.updSegment x.id fun x => { x with state := .sealing, gen := c.gen }
      { c with segments := c.segments ++ [{ id := c.nextSegment, state := .opened }], nextSegment := c.nextSegment + 1, sealRequested := false }

/-- The seal of the open tombstone segment takes effect, as that of an item segment does (R122, R126). -/
def Collection.sealTombs (c : Collection) : Collection :=
  match c.openTombs with
  | none => c
  | some x =>
    if x.records.isEmpty || 4 ≤ c.sealingCount then c
    else { c.updSegment x.id fun x => { x with state := .sealing, gen := c.gen } with tombsRequested := false }

/-- No applied operation waits for its commit: the collection stands at a commit boundary (R123). -/
def Collection.atBoundary (c : Collection) : Bool := !c.uncommitted.any (·.applied)

/-- Commands that wait for the seal of the open segment learn its number once it begins (R131). -/
def State.bindSealers (id seg : Nat) (s : State) : State :=
  { s with host.flights := s.host.flights.map fun f => if f.work == .sealWait id 0 then { f with work := .sealWait id seg } else f }

/-- Ask for the seal of the open tombstone segment, where it holds records (R126). -/
def Collection.askTombs (c : Collection) : Collection :=
  { c with tombsRequested := c.tombsRequested || c.openTombs.any fun x => !x.records.isEmpty }

/-- Seal at a commit boundary what has been asked for: the open segment, then the open tombstone segment (R123, R126). -/
def State.sealAtBoundary (id : Nat) (s : State) : State :=
  match s.coll id with
  | none => s
  | some c =>
    if !c.atBoundary then s
    else
      let d := if c.sealRequested then c.sealOpen else c
      let s := s.setColl (if d.tombsRequested then d.sealTombs else d)
      match c.openSegment with
      | some x => if c.sealRequested && !d.sealRequested then s.bindSealers id x.id else s
      | none => s

/-- Note a new value of C: what it was in the last 100 ms is kept (R438). -/
def Collection.noteCommit (c : Collection) (now : Nat) : Collection :=
  let recent := c.commits.takeWhile fun e => decide (now < e.1 + 100000000)
  { c with commits := (now, c.committed) :: c.commits.take (recent.length + 1) }

/-- C as it was at a time of the last 100 ms. -/
def Collection.committedAt (c : Collection) (t : Nat) : Nat := ((c.commits.find? fun e => decide (e.1 ≤ t)).elim c.floor (·.2))

/-- COMMIT_PUBLISH (R110, R111): C advances over the gap-free prefix of applied operations, which then go to the replicas (R438); that of a key-lost
collection has stopped. -/
def execCommitPublish (collection : Word) (s : State) : Host.Outcome State Fault Refusal :=
  let id := collection.toNat
  .next (match s.coll id with
    | none => s
    | some c =>
      let p := c.prefixEnd c.ops.length
      if c.committed < p && c.availability == .ready && s.serving then
        let new := ({ c with committed := p } : Collection).noteCommit s.clock
        let s := new.replicas.foldl (fun s r => s.pumpReplica new r) (s.setColl new)
        s.sealAtBoundary id
      else s)

end Sys2Proof.Machine
end

