-- ==== Sys2Proof/Machine/Elementary.lean ====
section
/-!
DEFINITION. The transcendental functions of R288, each the exact value rounded to FP32 (R259): computed in fixed point with 512
fractional bits, which leaves more than 300 correct bits, and rounded from 120 of them.
-/
namespace Sys2Proof.Machine

/-- One in fixed point. -/
def fixOne : Int := 2 ^ 512

/-- The product of two fixed-point numbers. -/
def fixMul (a b : Int) : Int := a * b / fixOne

/-- Σ x^(2i+1) / (2i+1) with alternating signs (the arctangent) or not (its hyperbolic form), from a running power. -/
def arctanSum (alternate : Bool) (x2 : Int) : Nat → Nat → Int → Int
  | 0, _, _ => 0
  | n + 1, i, p =>
    let t := p / (2 * i + 1 : Int)
    (if alternate && i % 2 == 1 then -t else t) + arctanSum alternate x2 n (i + 1) (fixMul p x2)

/-- The arctangent of 1 / k. -/
def fixArccot (k : Int) : Int := arctanSum true (fixOne / (k * k)) 240 0 (fixOne / k)

/-- π (Machin). -/
def fixPi : Int := 16 * fixArccot 5 - 4 * fixArccot 239

/-- The logarithm of f for 1 ≤ f < 2. -/
def fixLn (f : Int) : Int :=
  let z := (f - fixOne) * fixOne / (f + fixOne)
  2 * arctanSum false (fixMul z z) 180 0 z

/-- ln 2. -/
def fixLn2 : Int := 2 * arctanSum false (fixOne / 9) 180 0 (fixOne / 3)

/-- Σ x^i / i!, from a running term. -/
def expSum (x : Int) : Nat → Int → Int → Int
  | 0, _, _ => 0
  | n + 1, i, t => t + expSum x n (i + 1) (fixMul t x / i)

/-- Σ of the sine's or cosine's series, from a running term whose index is k. -/
def sinSum (x2 : Int) : Nat → Int → Int → Int
  | 0, _, _ => 0
  | n + 1, k, t => t + sinSum x2 n (k + 2) (-(fixMul t x2) / ((k + 1) * (k + 2)))

/-- The nearest integer to a / b, for b > 0. -/
def nearest (a b : Int) : Int := (2 * a + b) / (2 * b)

/-- e^x as m × 2^k with m in fixed point. -/
def fixExp (x : Int) : Int × Int :=
  let k := nearest x fixLn2
  (expSum (x - k * fixLn2) 100 1 fixOne, k)

/-- A finite value in fixed point; exact for every FP32 value. -/
def fixOf (neg : Bool) (m : Nat) (e : Int) : Int := signedMag neg (m * 2 ^ (e + 512).toNat)

/-- Round v × 2^(k − 512) to FP32, from its first 120 bits. -/
def fixToF32 (v k : Int) : Word :=
  let (q, e) := roundTo 120 (-100000) v.natAbs (k - 512) false
  BitVec.ofNat 32 (fpEncodeFin fp32 false (decide (v < 0)) q e false)

/-- exp of an FP32 value. -/
def f32Exp (w : Word) : Word :=
  match f32 w with
  | .nan => f32Nan
  | .inf n => if n then f32Zero else w
  | .fin n m e =>
    if m == 0 then 0x3F800000#32
    else if 8 ≤ e + m.log2 then (if n then f32Zero else toF32 (.inf false))
    else
      let r := fixExp (fixOf n m e)
      fixToF32 r.1 r.2

/-- tanh of an FP32 value. -/
def f32Tanh (w : Word) : Word :=
  match f32 w with
  | .nan => f32Nan
  | .inf n => if n then 0xBF800000#32 else 0x3F800000#32
  | .fin n m e =>
    if m == 0 then w
    else if 7 ≤ e + m.log2 then (if n then 0xBF800000#32 else 0x3F800000#32)
    else
      let r := fixExp (2 * fixOf false m e)
      let y := r.1 * 2 ^ r.2.toNat
      let v := (y - fixOne) * fixOne / (y + fixOne)
      fixToF32 (if n then -v else v) 0

/-- Σ of the error function's series without its factor 2/√π. -/
def erfSum (x2 : Int) : Nat → Int → Int → Int
  | 0, _, _ => 0
  | n + 1, i, t => t / (2 * i + 1) + erfSum x2 n (i + 1) (-(fixMul t x2) / (i + 1))

/-- erf of an FP32 value. -/
def f32Erf (w : Word) : Word :=
  match f32 w with
  | .nan => f32Nan
  | .inf n => if n then 0xBF800000#32 else 0x3F800000#32
  | .fin n m e =>
    if m == 0 then w
    else if 3 ≤ e + m.log2 then (if n then 0xBF800000#32 else 0x3F800000#32)
    else
      let x := fixOf n m e
      let c : Int := isqrt (4 * fixOne * fixOne * fixOne / fixPi).toNat
      fixToF32 (fixMul c (erfSum (fixMul x x) 500 0 x)) 0

/-- sin and cos of an FP32 value. -/
def f32SinCos (w : Word) : Word × Word :=
  match f32 w with
  | .nan | .inf _ => (f32Nan, f32Nan)
  | .fin n m e =>
    if m == 0 then (w, 0x3F800000#32)
    else
      let x := fixOf n m e
      let h := fixPi / 2
      let k := nearest x h
      let r := x - k * h
      let r2 := fixMul r r
      let sn := sinSum r2 80 1 r
      let cs := sinSum r2 80 0 fixOne
      match k % 4 with
      | 0 => (fixToF32 sn 0, fixToF32 cs 0)
      | 1 => (fixToF32 cs 0, fixToF32 (-sn) 0)
      | 2 => (fixToF32 (-sn) 0, fixToF32 (-cs) 0)
      | _ => (fixToF32 (-cs) 0, fixToF32 sn 0)

/-- The reciprocal square root of an FP32 value. -/
def f32Rsqrt (w : Word) : Word :=
  match f32 w with
  | .nan => f32Nan
  | .inf n => if n then f32Nan else f32Zero
  | .fin n m e =>
    if m == 0 then toF32 (.inf n)
    else if n then f32Nan
    else
      let (m, e) := if e % 2 == 0 then (m, e) else (2 * m, e - 1)
      let r := isqrt (2 ^ 600 / m)
      BitVec.ofNat 32 (fpEncodeFin fp32 false false r (-300 - e / 2) (r * r * m != 2 ^ 600))

/-- rne32 of 1 / √n. -/
def f32InvSqrtNat (n : Nat) : Word := f32Rsqrt (f32OfInt n)

/-- A rotary angle: rne32(pos × base^(−2i / D)) (Table 11-5); NaN for a base that is not finite and positive. -/
def ropeAngle (pos : Nat) (base : Word) (i d : Nat) : Word :=
  match f32 base with
  | .fin false m e =>
    if m == 0 then f32Nan
    else if i == 0 || pos == 0 then f32OfInt pos
    else
      let ln := fixLn ((m : Int) * fixOne / 2 ^ m.log2) + (e + m.log2) * fixLn2
      let r := fixExp (-(ln * (2 * i) / d))
      fixToF32 (r.1 * pos) r.2
  | _ => f32Nan

end Sys2Proof.Machine
end

