-- ==== Sys2Proof/Machine/Operators.lean ====
section
/-!
DEFINITION. Model execution: weights, operators, blockwise attention over KV pages, and running a whole image on a sequence
(R258–R268, R279, R280, R288, R292, R294, R300).

The image does not say which activation tensors are the model's inputs, nor where an operator's further operands stand. The
conventions the model takes are named in the assumption log (entry 166).
-/
namespace Sys2Proof.Machine

/-- An activation: format, rows of element values, and the scale of each row (none: every scale is missing and counts as 1).
The elements of an MX block carry its scale. -/
structure Act where
  fmt : Nat
  rows : List (List Fp)
  scale : List Word := []
  deriving DecidableEq, Repr

/-- FP32 rows as an activation. -/
def actOf (rows : List (List Word)) : Act := { fmt := 0, rows := rows.map fun r => r.map f32 }

/-- A value times a scale, rounded once (R280, Table 11-5). -/
def scaled (s : Word) (v : Fp) : Word := toF32 (fpMul (f32 s) v)

/-- Row i of an activation as FP32 values: rne32(scale × element) (R288). -/
def actRow (a : Act) (i : Nat) : List Word :=
  let r := a.rows.getD i []
  match a.scale[i]? with
  | some s => r.map (scaled s)
  | none => r.map toF32

/-- An activation as FP32 rows. -/
def actRows (a : Act) : List (List Word) := (List.range a.rows.length).map (actRow a)

/-- The bits of packed element `i` that begins at byte `o` (R258). -/
def packedBits (b : Bytes) (o fmt i : Nat) : Nat :=
  let n := elementBits fmt
  let k := i * n
  field b (o + k / 8) ((k % 8 + n + 7) / 8) / 2 ^ (k % 8) % 2 ^ n

/-- An element of a stored tensor as an exact value, without its scale (Table 10-1). -/
def elementValue (fmt v : Nat) : Fp :=
  let int (n : Nat) (e : Int) : Fp := let x := signed n v; .fin (decide (x < 0)) x.natAbs e
  match fmt with
  | 4 => int 8 0
  | 5 => int 4 0
  | 6 => int 32 0
  | 7 => if v == 0xFF then .nan else .fin false 1 ((v : Int) - 127)
  | 0xD => int 8 (-6)
  | _ => fpDecode (floatFormat fmt) v

/-- A row of a weight tensor, MX elements with the scale of their block. -/
def weightRow (b : Bytes) (t : TensorRecord) (d : ScaleDesc) (r : Nat) : List Fp :=
  (List.range (tensorCols t)).map fun k =>
    let i := r * tensorCols t + k
    let v := elementValue t.format (packedBits b t.offset t.format i)
    if isMx t.format then
      match elementValue 7 (field b (d.offset + i / 32) 1) with
      | .nan => .nan
      | s => fpMul s v
    else v

/-- The scale of output channel `r` and group `g` of a weight; none where it is missing (R268). -/
def weightScale (b : Bytes) (t : TensorRecord) (d : ScaleDesc) (r g : Nat) : Option Word :=
  match d.mode with
  | 1 => some (learnedScale b d 0)
  | 2 => some (learnedScale b d r)
  | 3 => some (learnedScale b d (r * groupCount d t + g))
  | _ => none

/-- No scale descriptor. -/
def noScd : ScaleDesc := { mode := 0, format := 0, dataFormat := 0, groupLog2 := 0, offset := 0, count := 0 }
/-- The scale descriptor of an operator. -/
def scdOf (b : Bytes) (r : OpRecord) : ScaleDesc := if r.scd == none16 then noScd else scdAt b r.scd

/-- An integer value. -/
def fpInt : Fp → Int
  | .fin n m _ => signedMag n m
  | _ => 0

/-- The accumulator of a dot product over a reduction axis of `k` elements (R262, R263): exact and saturating for two integer
formats, FP32 otherwise. -/
def accumulate (fa fw k : Nat) (a w : List Fp) : Fp :=
  let n := (k + 31) / 32
  if isIntFormat fa && isIntFormat fw then
    let acc := dotInt n (a.map fpInt) (w.map fpInt) 0
    .fin (decide (acc < 0)) acc.natAbs 0
  else f32 (dotChunks n a w f32Zero)

/-- One output of a matrix product (R268). -/
def matmulCell (b : Bytes) (fa : Nat) (a : List Fp) (sa : Option Word) (t : TensorRecord) (d : ScaleDesc) (r : Nat) : Word :=
  let w := weightRow b t d r
  let one := 0x3F800000#32
  if d.mode == 3 then
    let n := 2 ^ d.groupLog2
    (List.range (groupCount d t)).foldl (fun y g =>
      let acc := accumulate fa t.format (min n (tensorCols t - g * n)) ((a.drop (g * n)).take n) ((w.drop (g * n)).take n)
      f32Add y (scaled (f32Mul (sa.getD one) ((weightScale b t d r g).getD one)) acc)) f32Zero
  else
    let acc := accumulate fa t.format (tensorCols t) a w
    match sa, weightScale b t d r 0 with
    | none, none => toF32 acc
    | x, y => scaled (f32Mul (x.getD one) (y.getD one)) acc

/-- A matrix product of an activation with a weight. -/
def matmul (b : Bytes) (a : Act) (t : TensorRecord) (d : ScaleDesc) : List (List Word) :=
  a.rows.mapIdx fun i row => (List.range (tensorRows t)).map fun r => matmulCell b a.fmt row a.scale[i]? t d r

/-- Quantise one row of FP32 values into a format (R260, R261, R266): values, scale, and how many NaN met INT8 or INT4; a row whose scale is NaN counts its
own NaN. `gap` gives the elements that Table 10-2 does not: of E8M0, and of a NaN into INT32. -/
def quantiseRow (fmt : Nat) (d : ScaleDesc) (tensorScale : Word) (gap : Nat → Word) (row : List Word) : List Fp × Option Word × Nat :=
  if isMx fmt then
    let blocks := (List.range ((row.length + 31) / 32)).map fun k => ((row.drop (32 * k)).take 32).map f32
    (blocks.flatMap (fun v =>
      if fmt == 0xD then
        let q := mxIntBlock v
        if q.1 == 0xFF then v.map fun _ => Fp.nan else q.2.map fun x => .fin (decide (x < 0)) x.natAbs ((q.1 : Int) - 127 - 6)
      else
        let q := mxBlock (floatFormat fmt) v
        if q.1 == 0xFF then v.map fun _ => Fp.nan else q.2.map fun c => fpScale ((q.1 : Int) - 127) (fpDecode (floatFormat fmt) c)),
      none, 0)
  else
    let qmax := f32OfInt (if fmt == 4 then 127 else if fmt == 5 then 7 else if fmt == 3 then 57344 else 448)
    let s : Option Word := match d.mode with
      | 1 => some tensorScale
      | 4 | 5 => if [0, 1, 6, 7].contains fmt then none else some (tokenScale qmax (d.format == 1) row)
      | _ => none
    let quotient (w : Word) : Word := match s with | some x => f32Div w x | none => w
    let conv (i : Nat) (w : Word) : Fp :=
      let v := quotient w
      if fmt == 7 || (fmt == 6 && f32IsNan v) then elementValue fmt (gap i).toNat
      else if isIntFormat fmt || fmt == 6 then
        let c := fpToInt (if fmt == 4 then 127 else if fmt == 5 then 7 else 2147483647) (f32 v)
        .fin (decide (c < 0)) c.natAbs 0
      else fpDecode (floatFormat fmt) (fpEncode (floatFormat fmt) (f32 v))
    let lost := if !isIntFormat fmt then 0
      else if s.any f32IsNan then (row.filter f32IsNan).length else (row.filter fun w => f32IsNan (quotient w)).length
    let flat := match s with | some x => f32IsNan x || ((d.mode == 4 || d.mode == 5) && f32MaxAbs row == f32Zero) | none => false
    (if flat then row.map fun _ => .fin false 0 0 else row.mapIdx conv, s, if flat && !s.any f32IsNan then 0 else lost)

/-- Store rows in the format of an operator's output tensor: FP32 and BF16 directly. -/
def storeRows (t : TensorRecord) (rows : List (List Word)) : Act :=
  if t.format == 1 then { fmt := 1, rows := rows.map fun r => r.map fun w => f32 (bf16ToF32 (f32ToBf16 w)) } else actOf rows

/-- The mean of a row: the index-order running sum over its length. -/
def rowMean (r : List Word) : Word := f32Div (f32Sum r) (f32OfInt r.length)

/-- LAYER_NORM and RMS_NORM of a row (Table 11-5). -/
def normRow (centre : Bool) (eps : Word) (r : List Word) : List Word :=
  let d := if centre then let mu := rowMean r; r.map fun x => f32Sub x mu else r
  let k := f32Rsqrt (f32Add (rowMean (d.map fun x => f32Mul x x)) eps)
  d.map fun x => f32Mul x k

/-- GELU, erf form: x/2 × (1 + erf(x/√2)), each step rounded. -/
def geluErf (x : Word) : Word :=
  f32Mul (f32Mul 0x3F000000#32 x) (f32Add 0x3F800000#32 (f32Erf (f32Mul x (f32InvSqrtNat 2))))
/-- GELU, tanh form: x/2 × (1 + tanh(√(2/π)(x + 0.044715 x³))), each step rounded. -/
def geluTanh (x : Word) : Word :=
  let x3 := f32Mul (f32Mul x x) x
  f32Mul (f32Mul 0x3F000000#32 x) (f32Add 0x3F800000#32
    (f32Tanh (f32Mul 0x3F4C422A#32 (f32Add x (f32Mul 0x3D372713#32 x3)))))
/-- SILU: x × 1 / (1 + exp(−x)), each step rounded. -/
def silu (x : Word) : Word := f32Mul x (f32Div 0x3F800000#32 (f32Add 0x3F800000#32 (f32Exp (f32Neg x))))

/-- Rotate the pairs of one head (Table 11-5). -/
def ropePairs (pos : Nat) (base : Word) (d : Nat) : Nat → List Word → List Word
  | i, x :: y :: t =>
    let sc := f32SinCos (ropeAngle pos base i d)
    f32Sub (f32Mul x sc.2) (f32Mul y sc.1) :: f32Add (f32Mul x sc.1) (f32Mul y sc.2) :: ropePairs pos base d (i + 1) t
  | _, r => r

/-- Rotate every head of a row. -/
def ropeRow (pos : Nat) (base : Word) (d : Nat) (r : List Word) : List Word :=
  (List.range (r.length / d)).flatMap fun h => ropePairs pos base d 0 ((r.drop (h * d)).take d)

/-! ### Blockwise attention (R294) -/

/-- A row of keys or values as its KV page gives it back: written under a TOKEN scale in BF16 and dequantised (R279, R280); INT4 scales
cover 64 elements. With it, the NaN that met INT8 or INT4 (R260, R266). -/
def kvRow (fmt : Nat) (r : List Word) : List Word × Nat :=
  if fmt == 1 then (r.map fun w => bf16ToF32 (f32ToBf16 w), 0)
  else
    let d := { noScd with mode := 4, format := 1 }
    let n := if fmt == 5 then 64 else r.length
    let groups := (List.range ((r.length + n - 1) / n)).map fun g => quantiseRow fmt d f32Zero (fun _ => 0) ((r.drop (g * n)).take n)
    (groups.flatMap fun q => q.1.map fun v => scaled (q.2.1.getD f32Zero) v, (groups.map (·.2.2)).sum)

/-- The larger of two FP32 values. -/
def f32Max (a b : Word) : Word := if f32Lt a b then b else a
/-- −∞ -/
def f32NegInf : Word := 0xFF800000#32

/-- The state of one query row over the blocks: m, l and o. -/
structure AttnRow where
  m : Word
  l : Word
  o : List Word
  nan : Bool := false
  deriving DecidableEq, Repr

/-- The dot product of two FP32 rows (R262). -/
def f32Dot (a b : List Word) : Word := dotChunks ((a.length + 31) / 32) (a.map f32) (b.map f32) f32Zero

/-- One block of allowed keys. -/
def attnBlock (alpha : Word) (q : List Word) (ks vs : List (List Word)) (st : AttnRow) : AttnRow :=
  let s := ks.map fun k => f32Mul alpha (f32Dot q k)
  let mb := s.foldl f32Max st.m
  let c := f32Exp (f32Sub st.m mb)
  let p := s.map fun x => bf16ToF32 (f32ToBf16 (f32Exp (f32Sub x mb)))
  let ones := p.map fun _ => 0x3F800000#32
  { m := mb, l := f32Add (f32Mul c st.l) (f32Dot p ones)
    o := st.o.mapIdx fun e oe => f32Add (f32Mul c oe) (f32Dot p (vs.map fun v => bf16ToF32 (f32ToBf16 (v.getD e f32Zero))))
    nan := st.nan || s.any f32IsNan }

/-- The blocks of 256 keys that hold an allowed key, in ascending order. -/
def attnBlocks (alpha : Word) (q : List Word) : Nat → List (List Word) → List (List Word) → AttnRow → AttnRow
  | 0, _, _, st => st
  | n + 1, ks, vs, st =>
    if ks.isEmpty then st else attnBlocks alpha q n (ks.drop 256) (vs.drop 256) (attnBlock alpha q (ks.take 256) (vs.take 256) st)

/-- One query row of one head over its allowed keys: the output, and whether a score was NaN. -/
def attnRow (d : Nat) (q : List Word) (ks vs : List (List Word)) : List Word × Bool :=
  let st := attnBlocks (f32InvSqrtNat d) q (ks.length / 256 + 1) ks vs
    { m := f32NegInf, l := f32Zero, o := List.replicate d f32Zero }
  if st.nan then (List.replicate d f32Nan, true)
  else (st.o.map fun o => if st.l == f32Zero then f32Zero else f32Div o st.l, false)

/-- ATTENTION over a sequence: query rows, and rows of keys followed by values; answers the rows, and the NaN rows and the NaN written to KV pages that it
counts (R260, R294). -/
def attention (h : ModelHeader) (causal : Bool) (q kv : List (List Word)) : List (List Word) × Nat :=
  let d := h.headDim
  let head (g : Nat) (r : List Word) : List Word := (r.drop (g * d)).take d
  let pages := (List.range (2 * h.kvHeads)).map fun g => kv.map fun r => kvRow h.kvFormat (head g r)
  let keys := (pages.take h.kvHeads).map fun x => x.map (·.1)
  let vals := (pages.drop h.kvHeads).map fun x => x.map (·.1)
  let out := q.mapIdx fun i r => (List.range h.heads).map fun g =>
    let kvh := g / (h.heads / h.kvHeads)
    let n := if causal then i + 1 else kv.length
    attnRow d (head g r) ((keys.getD kvh []).take n) ((vals.getD kvh []).take n)
  (out.map fun r => r.flatMap Prod.fst, (out.map fun r => (r.filter Prod.snd).length).sum + (pages.map fun x => (x.map (·.2)).sum).sum)

/-! ### Running an image -/

/-- What a pass holds: activations by tensor, and the NaN count. -/
structure Pass where
  env : Tab Act
  nans : Nat := 0
  deriving DecidableEq, Repr

/-- The embedding of an ID: the weight's row widened to FP32; an ID beyond the table has no stated row (free). -/
def embedRow (b : Bytes) (op : Nat) (t : TensorRecord) (d : ScaleDesc) (id : Nat) : List Word :=
  if id < tensorRows t then
    (weightRow b t d id).map fun v => match weightScale b t d id 0 with | some s => scaled s v | none => toF32 v
  else (List.range (tensorCols t)).map fun k => Config.modelGap b op (id * tensorCols t + k)

/-- The second operand's row for row i: a weight vector for every row, or an activation's row. -/
def operandRow (b : Bytes) (p : Pass) (r : OpRecord) (i : Nat) : List Word :=
  let t := tensorAt b r.in1
  if isWeight t then
    let rows := tensorRows t
    (weightRow b t (scdOf b r) (if rows ≤ 1 then 0 else i % rows)).map toF32
  else actRow (p.env.getD r.in1 { fmt := 0, rows := [] }) i

/-- The operand IN0 as an activation; a weight is read as rows. -/
def operandAct (b : Bytes) (p : Pass) (r : OpRecord) : Act :=
  let t := tensorAt b r.in0
  if isWeight t then { fmt := t.format, rows := (List.range (tensorRows t)).map (weightRow b t (scdOf b r)) }
  else p.env.getD r.in0 { fmt := 0, rows := [] }

/-- Run one operator (Table 11-5). -/
def runOp (b : Bytes) (i : Nat) (p : Pass) : Pass :=
  let h := readModelHeader b
  let r := opAt b i
  let a := operandAct b p r
  let rows := actRows a
  let ot := tensorAt b r.out
  let w := tensorAt b r.in1
  let put (x : Act) (n : Nat) : Pass := { env := p.env.put r.out x, nans := p.nans + n }
  let f32s (x : List (List Word)) : Pass := put (storeRows ot x) 0
  let gain (i : Nat) (row : List Word) : List Word := if r.in1 == none16 then row else List.zipWith f32Mul row (operandRow b p r i)
  match r.code with
  | 0x01 => f32s (a.rows.map fun row => embedRow b i w (scdOf b r) (row.headD (.fin false 0 0) |> fpInt).toNat)
  | 0x02 | 0x0F => f32s (matmul b a w (scdOf b r))
  | 0x03 => f32s (rows.mapIdx fun i row => List.zipWith f32Add row (operandRow b p r i))
  | 0x04 => f32s (rows.mapIdx fun i row => List.zipWith f32Mul row (operandRow b p r i))
  | 0x05 => f32s (rows.mapIdx fun i row => gain i (normRow true r.param row))
  | 0x06 => f32s (rows.mapIdx fun i row => gain i (normRow false r.param row))
  | 0x07 => f32s (rows.map fun row => row.map (if bit r.flags 1 then geluTanh else geluErf))
  | 0x08 => f32s (rows.map fun row => row.map silu)
  | 0x09 => f32s (rows.mapIdx fun i row => ropeRow i r.param h.headDim row)
  | 0x0A =>
    let x := attention h (bit r.flags 0) rows (actRows (p.env.getD r.in1 { fmt := 0, rows := [] }))
    put (storeRows ot x.1) x.2
  | 0x0B => f32s [if h.pool == 0 then rows.headD [] else
      (List.range (tensorCols ot)).map fun k => rowMean (rows.map fun row => row.getD k f32Zero)]
  | 0x0C => f32s (rows.map normalise)
  | 0x0D =>
    let d := scdOf b r
    let q := rows.mapIdx fun k row => quantiseRow ot.format d (if d.mode == 1 then learnedScale b d 0 else f32Zero)
      (fun j => Config.modelGap b i (k * row.length + j)) row
    put { fmt := ot.format, rows := q.map (·.1), scale := if q.any (·.2.1.isSome) then q.map fun x => x.2.1.getD 0x3F800000#32 else [] }
      (q.map (·.2.2)).sum
  | 0x0E =>
    let d := scdOf b r
    f32s (if isWeight (tensorAt b r.in0) then a.rows.mapIdx fun i row => row.map fun v => match weightScale b (tensorAt b r.in0) d i 0 with
        | some s => scaled s v | none => toF32 v
      else rows)
  | 0x10 => f32s ((matmul b a w (scdOf b r)).take 1)
  | _ => p

/-- The input tensors: INT32 activations that no operator writes, ascending: token IDs, positions, segments. -/
def inputTensors (b : Bytes) : List Nat :=
  let h := readModelHeader b
  let outs := (List.range h.ops).map fun i => (opAt b i).out
  (List.range h.tensors).filter fun i => (tensorAt b i).format == 6 && !isWeight (tensorAt b i) && !outs.contains i

/-- IDs as an INT32 activation. -/
def idAct (l : List Nat) : Act := { fmt := 6, rows := l.map fun i => [.fin false i 0] }

/-- Run an image on a sequence with its segments: the rows of the last operator's output, and the NaN count (R292). -/
def runModel (b : Bytes) (tokens segments : List Nat) : List (List Word) × Nat :=
  let h := readModelHeader b
  let ins := [idAct tokens, idAct (List.range tokens.length), idAct segments]
  let env : Tab Act := ((inputTensors b).zip ins).foldl (fun e x => e.put x.1 x.2) []
  let p := (List.range h.ops).foldl (fun p i => runOp b i p) { env := env }
  (actRows (p.env.getD (opAt b (h.ops - 1)).out { fmt := 0, rows := [] }), p.nans)

/-- A sequence as a model takes it: the CLS token first where the image has one, cut to MAX_SEQ; whether it was cut (R300). -/
def modelSequence (h : ModelHeader) (tokens : List Nat) : List Nat × Bool :=
  let t := if h.cls == none32 then tokens else h.cls :: tokens
  (t.take h.maxSeq, decide (h.maxSeq < t.length))

/-- An encoder's vector of a sequence, and the NaN count; a sequence without a token has no stated vector (free). -/
def encodeSequence (b : Bytes) (tokens : List Nat) : List Word × Nat :=
  if tokens.isEmpty then ((List.range (readModelHeader b).outDim).map (Config.modelGap b 65536), 0) else
  let r := runModel b tokens (tokens.map fun _ => 0)
  (r.1.headD [], r.2)

/-- The pair of R300: CLS, a, SEP, b, SEP with its segments; a is cut to min(512, max − 4), b to the room that remains. -/
def pairSequence (h : ModelHeader) (max : Nat) (a b : List Nat) : List Nat × List Nat :=
  let c := if h.cls == none32 then [] else [h.cls]
  let s := if h.sep == none32 then [] else [h.sep]
  let first := c ++ a.take (min 512 (max - 4)) ++ s
  let second := b.take (max - first.length - s.length) ++ s
  (first ++ second, (first.map fun _ => 0) ++ second.map fun _ => 1)

/-- A cross-encoder's score of a pair, and the NaN count of its pass. -/
def scorePair (b : Bytes) (max : Nat) (x y : List Nat) : Word × Nat :=
  let p := pairSequence (readModelHeader b) max x y
  let r := runModel b p.1 p.2
  ((r.1.headD []).headD f32Zero, r.2)

/-- A decoder's logits for the token after a sequence, and the NaN rows of its positions. One row has the same bits in a prefill and in
a single step (R294), so the pass runs over the whole sequence. -/
def nextLogits (b : Bytes) (tokens : List Nat) : List Word × Nat :=
  let r := runModel b tokens (tokens.map fun _ => 0)
  (r.1.getLastD [], r.2)

end Sys2Proof.Machine
end

