-- ==== Sys2Proof/Machine/ModelCommands.lean ====
section
/-!
DEFINITION. ENCODE, SCORE_PAIRS, TOKENIZE, DETOKENIZE, tokenize contexts, and the encoder batches of text ingest (R107, R293, R297–R300, R313,
R315).
-/
namespace Sys2Proof.Machine

/-- Bind a command to the current generation of a handle, once (R282). -/
def State.bindGen (k : ImageKind) (off h : Nat) (f : Flight) (s : State) : Except Detail (Generation × State) :=
  match f.binds.find? fun b => b.1 == imageCode k && b.2.1 == h with
  | some b => match s.generation k h b.2.2 with
    | some g => .ok (g, s)
    | none => .error (bad off)
  | none => do
    let g ← s.handle k off h f
    return (g, s.updFlight f.mbx f.tag fun x => { x with binds := (imageCode k, h, g.gen) :: x.binds })

/-- A command that reads weights of a generation: it waits while a damaged run is being rewritten, and ends DATA_DAMAGED when the run's
flash copy failed too (R298). A pass reads every weight. -/
def State.withWeights (g : Generation) (f : Flight) (failed : Bytes) (k : State → Except Detail State) (s : State) : Except Detail State :=
  if g.damaged.any (·.2) then .ok (s.answer f .dataDamaged failed)
  else if !g.damaged.isEmpty then .ok (s.setWork f .rebuildWait)
  else k s

/-- Bytes of one KV page of a model (R279). -/
def kvPage (h : ModelHeader) : Nat :=
  kvPageBytes h.kvHeads h.headDim (elementBits h.kvFormat) (if h.kvFormat == 1 then 0 else if h.kvFormat == 5 then 2 else 1)

/-- Pages of one sequence of `n` tokens (R297). -/
def kvPages (h : ModelHeader) (n : Nat) : Nat := h.layers * ((n + 255) / 256)

/-- The work items of one pass of an image over sequences of so many token rows (R292): a dense operator has one per 64 rows, attention one per 64 rows and
head, LOGITS one per row and 16,384 entries, POOL and SCORE_HEAD one per sequence. -/
def passItems (b : Bytes) (ns : List Nat) : Nat :=
  let h := readModelHeader b
  let blocks := (ns.map fun n => (n + 63) / 64).sum
  ((List.range h.ops).map fun i => match (opAt b i).code with
    | 0x0A => h.heads * blocks
    | 0x0F => ns.length * ((h.outDim + 16383) / 16384)
    | 0x0B | 0x10 => ns.length
    | _ => blocks).sum

/-! ### KV pages and address translation (R296, R297) -/

/-- The virtual page number of a position of a layer (R296). -/
def vpnOf (layer pos : Nat) : Nat := layer * 128 + pos / 256

/-- Where the next page table of `n` bytes goes: the lowest place in the region that no table holds (where in the region, the spec leaves open: DESIGN
CHOICE, log entry 77). -/
def State.tablePlace (n : Nat) (s : State) : Nat :=
  let used := (s.models.kv.flatMap (·.sequences)).map fun q => (q.table, q.table + tableBytes q.layers)
  let free (a : Nat) : Bool := used.all fun u => a + n ≤ u.1 || u.2 ≤ a
  ((0 :: used.map (·.2)).filter free).foldl min (used.foldl (fun a u => max a u.2) 0)

/-- The frame that the next page takes, the lowest that no sequence holds; zero-filled where it comes from the pool again (R297). -/
def State.freeFrame (s : State) : Nat :=
  let used := (s.models.kv.flatMap (·.sequences)).flatMap fun q => q.entries.map (·.2.frame)
  ((List.range (used.length + 1)).find? fun n => !used.contains n).getD used.length

/-- Change the sequence of an ID. -/
def State.updSequence (id : Nat) (g : KvSequence → KvSequence) (s : State) : State :=
  { s with models.kv := s.models.kv.map fun k => { k with sequences := k.sequences.map fun q => if q.id == id then g q else q } }

/-- The first token of a page is written: its slot takes a frame and the check of its sequence (R296, R297). -/
def State.writePage (id vpn : Nat) (s : State) : State :=
  let n := s.freeFrame
  ({ s with models.stale := s.models.stale.filter (· != n) } : State).updSequence id fun q =>
    { q with entries := q.entries.put vpn { frame := n, check := id } }

/-- A sequence's tokens up to `n` are written in every layer. -/
def State.writeTokens (q : KvSequence) (n : Nat) (s : State) : State :=
  (List.range q.layers).foldl (fun s layer => (List.range ((n + 255) / 256)).foldl (fun s b =>
    if (q.entries.find (vpnOf layer (256 * b))).isSome then s else s.writePage q.id (vpnOf layer (256 * b))) s) s

/-- The sequences of a command. -/
def State.sequencesOf (f : Flight) (s : State) : List KvSequence :=
  (s.models.kv.filter fun k => k.mbx == f.mbx && k.tag == f.tag).flatMap (·.sequences)

/-- Translate a slot of a sequence: an entry whose check is another sequence's is no translation (R296). -/
def KvSequence.translate (q : KvSequence) (vpn : Nat) : Option Nat :=
  match q.entries.find vpn with
  | some e => if e.check == q.id then some e.frame else none
  | none => none

/-- An ATU caches a translation, the newest of at most 65,536 (R296; which of the four translates, the spec leaves open: DESIGN CHOICE, log entry 77). -/
def State.cacheTranslation (t : Translation) (s : State) : State :=
  let i : Fin 4 := ⟨t.sequence % 4, Nat.mod_lt _ (by decide)⟩
  { s with models.atus := s.models.atus.set i.val ((t :: (s.models.atus[i]).filter (· != t)).take 65536) i.isLt }

/-- Read every page of a command's sequences through the ATUs; none where an entry's check fails (R296, R298). -/
def State.readPages (f : Flight) (s : State) : Option State :=
  let l := (s.sequencesOf f).flatMap fun q => q.entries.map fun e => (q, e.1, q.translate e.1)
  if l.any fun x => x.2.2.isNone then none
  else some (l.foldl (fun s x => s.cacheTranslation { sequence := x.1.id, vpn := x.2.1, frame := x.2.2.getD 0 }) s)

/-- A pass over a command's sequences that holds `n` tokens now: the pages of new tokens are written, and every page is read (R294, R296, R297). -/
def State.throughPages (f : Flight) (n : Nat) (s : State) : Option State :=
  ((s.sequencesOf f).foldl (fun s q => s.writeTokens q n) s).readPages f

/-- A command's sequences, one per number of tokens: each has the next sequence ID and a page table (R296). -/
def State.addSequences (layers : Nat) : Nat → State → List KvSequence × State
  | 0, s => ([], s)
  | n + 1, s =>
    let q : KvSequence := { id := s.models.nextSequence, layers := layers, table := s.tablePlace (tableBytes layers) + n * tableBytes layers }
    let r := State.addSequences layers n { s with models.nextSequence := s.models.nextSequence + 1 }
    (q :: r.1, r.2)

/-- Reserve KV pages for a command's sequences of so many tokens (R297), and their page tables, which lie in the same region (R296); the hint of a pool that
is full now is not stated (free). -/
def State.reserveKv (f : Flight) (h : ModelHeader) (ns : List Nat) (s : State) : Except Detail State := do
  let region := field s.placeImage 0x28 4 * 1048576
  let size := kvPage h
  let pages := (ns.map (kvPages h)).sum
  let need_ := pages * size + ns.length * tableBytes h.layers
  need (decide (need_ ≤ region)) (noResources (region / size))
  need (decide (s.kvBytes + need_ ≤ region)) (busyRetry (Config.free s.free))
  let (qs, s) := s.addSequences h.layers ns.length
  return { s with models.kv := s.models.kv ++ [{ mbx := f.mbx, tag := f.tag, pages := pages, pageBytes := size, sequences := qs }] }

/-- Run a batch: each sequence's pages are written, in order (R292, R297). -/
def State.runPages (f : Flight) (ns : List Nat) (s : State) : State :=
  ((s.sequencesOf f).zip ns).foldl (fun s x => s.writeTokens x.1 x.2) s

/-- Give whole entries after a head: in the response, as many as fit, or in a stream's records, the head in the first (R144, R212). -/
def State.giveEntries (f : Flight) (str : Option (Nat × Stream)) (st : Status) (head : Nat → Bytes) (entries : List Bytes) (s : State) : State :=
  match str with
  | some (n, x) => s.streamOut f n st (head entries.length :: (if entries.isEmpty then [] else packEntries (recordMax x - 24) entries))
  | none =>
    let room := s.rspPlain f.mbx - (head 0).length
    let fit := fitEntries room entries
    s.answer f (if fit.2 then st else .doneTruncated) (head fit.1.length ++ fit.1.flatten)

/-- The stream a command names where HDR.FLAGS.STREAM is set; 0 is required otherwise (R58). -/
def State.streamField (off st : Nat) (f : Flight) (s : State) : Except Detail (Option (Nat × Stream)) :=
  if hdrStream f.hdr then (s.ownStream off st f).map fun x => some (st, x)
  else if st = 0 then .ok none else .error (bad off)

/-- Read a byte string with its padding to 8 at packet offset `o`: zero padding, or BAD_FIELD. -/
def readPadded (o n : Nat) (b : Bytes) : Except Detail (Bytes × Bytes) := do
  need (zeroField b n ((8 - n % 8) % 8)) (bad (o + n))
  return (b.take n, b.drop (n + (8 - n % 8) % 8))

/-- The inputs of ENCODE, with their packet offsets (R299). -/
def readInputs : Nat → Nat → Bytes → Except Detail (List (Nat × Bytes))
  | 0, o, b => if b.isEmpty then .ok [] else .error (bad o)
  | n + 1, o, b => do
    let k := field b 0 4
    need (8 ≤ b.length && decide (8 + (k + 7) / 8 * 8 ≤ b.length)) (bad o)
    need (zeroField b 4 4) (bad (o + 4))
    let r ← readPadded (o + 8) k (b.drop 8)
    let t ← readInputs n (o + 8 + (k + 7) / 8 * 8) r.2
    return (o, r.1) :: t

/-- The pairs of SCORE_PAIRS (R299). -/
def readPairs : Nat → Nat → Bytes → Except Detail (List ((Nat × Bytes) × (Nat × Bytes)))
  | 0, o, b => if b.isEmpty then .ok [] else .error (bad o)
  | n + 1, o, b => do
    let x := field b 0 4
    let y := field b 4 4
    need (8 ≤ b.length && decide (8 + (x + 7) / 8 * 8 + (y + 7) / 8 * 8 ≤ b.length)) (bad o)
    let p ← readPadded (o + 8) x (b.drop 8)
    let oy := o + 8 + (x + 7) / 8 * 8
    let q ← readPadded oy y p.2
    let t ← readPairs n (oy + (y + 7) / 8 * 8) q.2
    return ((o, p.1), (o + 4, q.1)) :: t

/-- INT32 token IDs. -/
def tokenIds (b : Bytes) : List Nat := (List.range (b.length / 4)).map fun i => field b (4 * i) 4

/-- The tokens of an input: text tokenised with the vocabulary, or IDs; and the replacements made. -/
def inputTokens (v : Bytes) (ids : Bool) (b : Bytes) : List Nat × Nat := if ids then (tokenIds b, 0) else tokenise v b

/-- What tokenising texts brings: tokens and repairs (R308, Table 17-7). -/
def textCharges (l : List (List Nat × Nat)) : Tab Nat :=
  let r := (l.map (·.2)).sum
  (0x70, (l.map (·.1.length)).sum) :: if r = 0 then [] else [(0xAC, r)]

/-- Charge what tokenising texts brings. -/
def State.chargeText (t : Nat) (l : List (List Nat × Nat)) (s : State) : State := s.chargeAll t (textCharges l)

/-- ENCODE (R299, R300). -/
def execEncode (m : Mbx) (tag : Word) (s : State) : Host.Outcome State Fault Refusal :=
  .next (s.start 0x4010 m tag fun f s => do
    let b := f.plain
    opening f 16 16777216
    let n := field b 8 2
    let ids := field b 0xB 1 == 1
    fields [(8, 1 ≤ n && n ≤ 256), (0xA, decide (field b 0xA 1 < 2)), (0xB, decide (field b 0xB 1 < 2)), (0xE, zeroField b 0xE 2)]
    let ins ← readInputs n 0x30 (b.drop 16)
    match if ids then ins.find? (fun x => x.2.length % 4 != 0) else none with
    | some x => .error (bad x.1)
    | none => do
      let str ← s.streamField 0x2C (field b 0xC 2) f
      let (g, s) ← s.bindGen .model 0x20 (field b 0 4) f
      let (v, s) ← s.bindGen .vocab 0x24 (field b 4 4) f
      let h := readModelHeader g.image
      need (h.kind == 0) (bad 0x20)
      need (vocabMatches g.image v.image) (bad 0x24)
      s.withWeights g f [] (fun s => s.withCrew h.crewClass 0 f (fun s => do
        let toks := ins.map fun x => inputTokens v.image ids x.2
        let seqs := toks.map fun x => modelSequence h x.1
        let s ← s.reserveKv f h (seqs.map (·.1.length))
        let s := (s.runPages f (seqs.map (·.1.length))).stage f (passItems g.image (seqs.map (·.1.length)))
        let outs := seqs.map fun x => encodeSequence g.image x.1
        let s := ((if ids then s else s.chargeText f.tenant toks).chargeTiles f.tenant)
        let head (k : Nat) : Bytes := leBytes 4 k ++ leBytes 4 (outs.map (·.2)).sum ++ leBytes 4 (seqs.filter (·.2)).length ++ zeros 4
        return s.giveEntries f str .done head (outs.map fun x => vectorBytes (field b 0xA 1) x.1))))

/-- SCORE_PAIRS (R299, R300). -/
def execScorePairs (m : Mbx) (tag : Word) (s : State) : Host.Outcome State Fault Refusal :=
  .next (s.start 0x4011 m tag fun f s => do
    let b := f.plain
    opening f 16 16777216
    let n := field b 8 2
    let mx := field b 0xA 2
    let ids := field b 0xC 1 == 1
    fields [(8, 1 ≤ n && n ≤ 1024), (0xA, decide (64 ≤ mx)), (0xC, decide (field b 0xC 1 < 2)), (0xD, zeroField b 0xD 1)]
    let ps ← readPairs n 0x30 (b.drop 16)
    match if ids then (ps.flatMap fun x => [x.1, x.2]).find? (fun x => x.2.length % 4 != 0) else none with
    | some x => .error (bad x.1)
    | none => do
      let str ← s.streamField 0x2E (field b 0xE 2) f
      let (g, s) ← s.bindGen .model 0x20 (field b 0 4) f
      let (v, s) ← s.bindGen .vocab 0x24 (field b 4 4) f
      let h := readModelHeader g.image
      need (h.kind == 1) (bad 0x20)
      need (vocabMatches g.image v.image) (bad 0x24)
      need (decide (mx ≤ h.maxSeq)) (bad 0x2A)
      s.withWeights g f [] (fun s => s.withCrew h.crewClass 0 f (fun s => do
        let toks := ps.map fun x => (inputTokens v.image ids x.1.2, inputTokens v.image ids x.2.2)
        let ns := toks.map fun x => (pairSequence h mx x.1.1 x.2.1).1.length
        let s ← s.reserveKv f h ns
        let s := (s.runPages f ns).stage f (passItems g.image ns)
        let outs := toks.map fun x => scorePair g.image mx x.1.1 x.2.1
        let s := ((if ids then s else s.chargeText f.tenant (toks.flatMap fun x => [x.1, x.2])).chargeTiles f.tenant)
        let nans := (outs.map (·.2)).sum + (outs.filter fun x => f32IsNan x.1).length
        let head (k : Nat) : Bytes := leBytes 4 k ++ leBytes 4 nans ++ zeros 8
        return s.giveEntries f str .done head (outs.map fun x => leBytes 4 x.1.toNat))))

/-- The first crew class of KIND 6, on which text work runs (R323). -/
def State.textCrew (s : State) : Nat := (s.crewOfKind 6).getD 0

/-- Another command of a tokenize context is being run (R313). -/
def State.contextBusy (id : Nat) (f : Flight) (s : State) : Bool :=
  s.host.flights.any fun g => g.opcode == f.opcode && !(g.mbx == f.mbx && g.tag == f.tag) && g.work != .admitted && field g.plain 6 2 == id

/-- The first free context number from `n` on. -/
def State.freeContext (s : State) : Nat :=
  let used (i : Nat) : Bool := s.models.contexts.any (·.id == i)
  let n := s.models.nextContext
  ((List.range 300).map fun i => (n + i - 1) % 65535 + 1).find? (fun i => !used i) |>.getD n

/-- What a TOKENIZE works on: the context before it (none for a text of its own), the vocabulary generation, and what it carries over. -/
def State.tokenizeSource (f : Flight) (s : State) : Except Detail (Option TokenContext × Generation × State) := do
  let b := f.plain
  let h := field b 0 4
  let id := field b 6 2
  need (ownerOf h == f.tenant) (notAuthorised 0x20)
  if id = 0 then do
    let (v, s) ← s.bindGen .vocab 0x20 h f
    return (none, v, s)
  else match s.models.contexts.find? (·.id == id) with
    | none => .error (bad 0x26)
    | some c => do
      need (c.tenant == f.tenant) (notAuthorised 0x26)
      need (c.vocab == h) (bad 0x20)
      need (!s.contextBusy id f) (wrongStateAt 0x26)
      match s.generation .vocab h c.gen with
      | some v => return (some c, v, s)
      | none => .error (bad 0x20)

/-- TOKENIZE (R313). -/
def execTokenize (m : Mbx) (tag : Word) (s : State) : Host.Outcome State Fault Refusal :=
  .next (s.start 0x4022 m tag fun f s => do
    let b := f.plain
    opening f 16 4000016
    let n := field b 8 4
    fields [(4, decide (field b 4 2 < 4)), (8, n ≤ 4000000 && (n != 0 || field b 6 2 != 0)), (0xC, zeroField b 0xC 4)]
    need (b.length == 16 + (n + 7) / 8 * 8) (bad 0x0C)
    need (zeroField b (16 + n) ((8 - n % 8) % 8)) (bad (0x30 + n))
    let more := bit (field b 4 2) 0
    let (c, v, s) ← s.tokenizeSource f
    need (!more || c.isSome || decide (s.models.contexts.length < 256)) (noResources 256)
    need (!more || c.isSome || decide ((s.models.contexts.filter (·.tenant == f.tenant)).length < 16)) (noResources 16)
    s.withCrew s.textCrew 0 f (fun s =>
      let text := (match c with | some c => c.carry | none => []) ++ slice b 16 n
      let started := match c with | some c => c.started | none => bit (field b 4 2) 1
      let d := utf8Decode text
      let whole := utf8Whole text
      let spans := textSpans v.image (if more then d.chars else whole.1)
      let out := if more then spans.dropLast else spans
      let held := if more then utf8Bytes (spans.getLastD []) ++ d.tail else []
      let replaced := if more then d.replaced else whole.2
      let ids := spansTokens v.image (!started) out
      let id := match c with | some c => c.id | none => s.freeContext
      let rest := s.models.contexts.filter fun x => c.isNone || x.id != id
      let ctx : TokenContext := { id := id, tenant := f.tenant, vocab := v.handle, gen := v.gen, carry := held, started := started || !out.isEmpty, last := s.clock }
      let s := { s with models.contexts := if more then rest ++ [ctx] else rest
                        models.nextContext := if more && c.isNone then id % 65535 + 1 else s.models.nextContext }
      let s := ((s.stage f spans.length).chargeText f.tenant [(ids, replaced)]).chargeTiles f.tenant
      let head (k : Nat) : Bytes := leBytes 2 (if more then id else 0) ++ zeros 2 ++ leBytes 4 k ++ leBytes 4 held.length ++ leBytes 4 replaced
      .ok (s.giveEntries f none .done head (ids.map (leBytes 4)))))

/-- TOKENIZE_CONTEXT_EXPIRE (R313): a context that has received no command for 10 s is freed. -/
def execTokenizeContextExpire (ctx : Half) (s : State) : Host.Outcome State Fault Refusal :=
  .next (match s.models.contexts.find? (·.id == ctx.toNat) with
    | some c =>
      if c.last + 10000000000 ≤ s.clock && !s.host.flights.any (fun g => g.opcode == 0x4022#16 && g.work != .admitted && field g.plain 6 2 == c.id) then
        ({ s with models.contexts := s.models.contexts.filter (·.id != c.id) } : State).reapGens
      else s
    | none => s)

/-- Characters of a text, as many whole ones as fit in `n` bytes. -/
def fitChars : Nat → List Nat → List Nat
  | _, [] => []
  | n, c :: t => let k := (utf8Encode c).length; if k ≤ n then c :: fitChars (n - k) t else []

/-- DETOKENIZE (R314, R315). -/
def execDetokenize (m : Mbx) (tag : Word) (s : State) : Host.Outcome State Fault Refusal :=
  .next (s.start 0x4023 m tag fun f s => do
    let b := f.plain
    opening f 16 16000016
    let n := field b 8 4
    fields [(4, decide (field b 4 2 < 2)), (6, zeroField b 6 2), (8, 1 ≤ n && n ≤ 4000000), (0xC, zeroField b 0xC 4)]
    need (b.length == 16 + 4 * n) (bad 0x0C)
    let (v, s) ← s.bindGen .vocab 0x20 (field b 0 4) f
    let ids := tokenIds (b.drop 16)
    match ids.findIdx? (fun i => vocabPieces v.image ≤ i) with
    | some i => .error (bad (0x30 + 4 * i))
    | none => s.withCrew s.textCrew 0 f (fun s =>
      let d := utf8Whole (ids.flatMap (tokenBytes v.image))
      let text := if bit (field b 4 2) 0 && vocabFlag v.image 1 && d.1.head? == some 0x20 then d.1.drop 1 else d.1
      let room := s.rspPlain f.mbx - 16
      let fit := fitChars (room / 8 * 8) text
      let s := (s.stage f ((n + 65535) / 65536)).chargeTiles f.tenant
      let s := if d.2 = 0 then s else s.charge f.tenant 0xAC d.2
      let bytes := utf8Bytes fit
      .ok (s.answer f (if fit.length = text.length then .done else .doneTruncated)
        (leBytes 4 bytes.length ++ leBytes 4 d.2 ++ zeros 8 ++ padTo 8 bytes))))

/-- An item record once it is encoded: its tokens and vector (R107, R147, R278); whether its text was cut. -/
def encodeItem (d : Descriptor) (model vocab : Bytes) (r : ItemRecord) : ItemRecord × Bool × (List Nat × Nat) :=
  let t := tokenise vocab r.text
  let kept := t.1.take d.chunkTokens
  let v := (encodeSequence model (modelSequence (readModelHeader model) kept).1).1
  ({ r with vector := some (vectorBytes d.vecFormat v), tokens := kept }, decide (d.chunkTokens < t.1.length), t)

/-- Encode one sequence of the batch. -/
def State.encodeOne (s : State) (x : Nat × Nat × Nat) : State :=
  match s.coll x.1 with
  | none => s
  | some c => match c.op x.2.1, s.generation .model c.desc.model c.modelGen, s.generation .vocab c.desc.vocab c.vocabGen with
    | some o, some m, some v => match o.body with
      | .insert items up => match items[x.2.2]? with
        | none => s
        | some r =>
          let e := encodeItem c.desc m.image v.image r
          let items := items.set x.2.2 e.1
          let c := { c with truncChunks := c.truncChunks + (if e.2.1 then 1 else 0) }
          let c := c.updOp o.csn fun o => { o with body := .insert items up, encoded := items.all (·.vector.isSome) }
          ((s.setColl c).chargeText (ownerOf c.id) [e.2.2]).chargeTiles (ownerOf c.id)
      | _ => s
    | _, _, _ => s

/-- The KV space of one sequence of a batch: its pages and its page table (R296, R297). -/
def State.batchKv (s : State) (x : Nat × Nat × Nat) : Nat :=
  match s.coll x.1 with
  | none => 0
  | some c => match c.op x.2.1, s.generation .model c.desc.model c.modelGen, s.generation .vocab c.desc.vocab c.vocabGen with
    | some o, some m, some v => match o.body with
      | .insert items _ => match items[x.2.2]? with
        | none => 0
        | some r =>
          let h := readModelHeader m.image
          kvPages h (modelSequence h ((tokenise v.image r.text).1.take c.desc.chunkTokens)).1.length * kvPage h + tableBytes h.layers
      | _ => 0
    | _, _, _ => 0

/-- A batch can run: a crew of the first class of KIND 1 can form, and its pages fit in the KV region; both are given back when its pass ends (R248, R293,
R297). -/
def State.batchFits (l : List (Nat × Nat × Nat)) (s : State) : Bool :=
  (s.crewOfKind 1).any (fun i => ((crewOf s.placeImage i).maxCrews > (s.tiles.crews.filter (·.cls == i)).length) &&
    (s.chooseMembers (crewOf s.placeImage i) 0).isSome) &&
  decide (s.kvBytes + (l.map s.batchKv).sum ≤ field s.placeImage 0x28 4 * 1048576)

/-- ENCODER_BATCH_CLOSE (R293): the batch holds 64 sequences, or 1 ms has passed since its first; its pass runs. A pass over a damaged weight
run waits for the repair (R298), and one whose crew or pages are not free waits for them (R248, R297). -/
def execEncoderBatchClose (s : State) : Host.Outcome State Fault Refusal :=
  let b := s.index.batch
  let hurt := (b.take 64).any fun x => match s.coll x.1 with
    | some c => (s.generation .model c.desc.model c.modelGen).any fun g => !g.damaged.isEmpty
    | none => false
  .next (if !b.isEmpty && s.serving && !hurt && s.batchFits (b.take 64) && (64 ≤ b.length || s.index.batchSince + 1000000 ≤ s.clock) then
    (b.take 64).foldl State.encodeOne { s with index.batch := b.drop 64, index.batchSince := s.clock }
  else s)

end Sys2Proof.Machine
end

