-- ==== Sys2Proof/Machine/Reads.lean ====
section
/-!
DEFINITION. What becomes of a command's outstanding reads: data, failure, lateness, hedges (R163, R225, R226, R235, R350, R351).
-/
namespace Sys2Proof.Machine

/-- Replace the outstanding reads of a command. -/
def State.putReads (f : Flight) (l : List Read) (s : State) : State :=
  s.updFlight f.mbx f.tag fun g => { g with work :=
    match g.work with
    | .reads _ h => .reads l h
    | .search r => .search { r with prefetch := l }
    | w => w }

/-- The meter of a tier's reads (Table 17-7). -/
def tierMeter : Tier → Nat
  | .flash => 0x38
  | .host _ => 0x48
  | .shared _ => 0x50

/-- A hedge that has been sent and may still answer. -/
def hedgePending (r : Read) : Bool := match r.hedge with | some h => !h.failed && !h.ids.isEmpty | none => false

/-- The body of a hedged-read message (Table 16-22). -/
def hedgeMessage (kind status area coll id item ins shard deadline : Nat) (data : Bytes) : Bytes :=
  leBytes 1 kind ++ leBytes 1 status ++ leBytes 1 area ++ zeros 1 ++ leBytes 4 coll ++ leBytes 8 id ++ leBytes 8 item ++
    leBytes 8 ins ++ leBytes 4 shard ++ leBytes 4 data.length ++ leBytes 8 deadline ++ data

/-- The code of a tier in LR.DETAIL of a log entry about a sealed unit or a read: 1 flash, 2 host tier, 3 shared tier; the place stands below it
(R71, DESIGN CHOICE, log entry 158). -/
def tierCode : Tier → Nat
  | .flash => 1 | .host _ => 2 | .shared _ => 3

/-- An integrity failure, in a tier and at a place: a KIND 9 entry (R71), with the request that met it, where a command did. -/
def State.logIntegrity (t tier place : Nat) (s : State) (request : Nat × Word := (0, 0)) : State :=
  s.log { seq := 0, time := 0, kind := 9, tenant := t, opcode := request.1, tag := request.2, detail := tier * 2 ^ 28 + place % 2 ^ 28 }

/-- A read of a request that has failed, is late or is damaged (R71, R226, R235): KIND 9 for damage, else KIND 4; with the request, the tier and the place. -/
def State.logRead (tenant opcode : Nat) (tag : Word) (r : Read) (st : Status) (place : Nat) (s : State) : State :=
  s.log { seq := 0, time := 0, kind := if st == .dataDamaged then 9 else 4, status := statusCode st, tenant := tenant, opcode := opcode, tag := tag
          detail := tierCode r.tier * 2 ^ 28 + place % 2 ^ 28 }

/-- Where a read went: the quad-block it has come back from, its region, its owner; else its sector. -/
def readPlace (r : Read) : Nat :=
  match r.came, r.tier with
  | some x, _ => x.1
  | none, .host g => g
  | none, .shared n => n
  | none, .flash => r.sector

/-- The log entry of a read of a command in flight. -/
def State.logReadOf (f : Flight) (r : Read) (st : Status) (s : State) : State := s.logRead f.tenant f.opcode.toNat f.tag r st (readPlace r)

/-- Reads that their command leaves behind: one issued to a die or a tier completes there (R225); `counted` says that they were squashed (R226). -/
def State.leaveReads (f : Flight) (counted : Bool) (l : List Read) (s : State) : State :=
  { s with index.squashed := s.index.squashed ++ (l.filter fun r => r.lost.isNone || r.lost == some .tierLate).map fun r =>
      ({ mbx := f.mbx, tag := f.tag, tenant := f.tenant, opcode := f.opcode.toNat, read := r, counted := counted && r.lost.isNone } : SquashedRead) }

/-- Cancel the hedges of reads that are no longer needed (R225). -/
def State.cancelHedges (f : Flight) (l : List Read) (s : State) : State :=
  l.foldl (fun s r => match r.hedge with
    | some h => h.ids.foldl (fun s id => (s.sendFree h.node 0x14 (s.fabClass f.tenant) f.tenant
        (hedgeMessage 4 0 r.area r.collection id 0 0 0 0 [])).1) s
    | none => s) s

/-- The result a command was waiting for is ready, or its second wave of reads goes out (R164). -/
def State.readsDone (f : Flight) (s : State) : State :=
  match f.work with
  | .reads [] h => s.nextReads f h
  | _ => s

/-- A command whose state has just changed. -/
def State.again (f : Flight) (k : Flight → State → State) (s : State) : State :=
  match s.flight f.mbx f.tag with
  | some g => k g s
  | none => s

/-- What a command keeps of a read that has come back: its charge, unless a hedge brought the data (R228); a search keeps what came early
until it is confirmed. -/
def readKept (r : Read) (hedged : Bool) : Work → Work
  | .reads l h => .reads l (if hedged then h else { h with charges := h.charges.put (tierMeter r.tier) (h.charges.getD (tierMeter r.tier) 0 + 1) })
  | .search x => .search { x with fetched := (r, hedged) :: x.fetched }
  | w => w

/-- Read `i` of a command has brought its data: it is charged to the tenant, and a search keeps what came early (R221, R228). -/
def State.readArrived (f : Flight) (i : Nat) (s : State) : State :=
  match (readsOf f)[i]? with
  | none => s
  | some r =>
    let s := if hedgePending r then s.cancelHedges f [r] else s
    let s := s.putReads f ((readsOf f).eraseIdx i)
    let s := s.updFlight f.mbx f.tag fun g => { g with work := readKept r false g.work }
    s.again f State.readsDone

/-- The hedge of read `i` has given every record: it stands for the read (R235), and its messages are charged; the losing original goes to the speculation
account (R228), and completes at its die (R225). -/
def State.hedgeWon (f : Flight) (i : Nat) (s : State) : State :=
  match (readsOf f)[i]? with
  | none => s
  | some r =>
    let s := (s.chargeSpec f.tenant 0x30 1).chargeSpec f.tenant 0x18 1
    let s := r.items.foldl (fun s _ => s.chargeAll f.tenant (sendCost 48)) s
    let s := if r.lost.isSome then s.chargeSpec f.tenant 0x20 1 else s.leaveReads f true [r]
    let s := s.putReads f ((readsOf f).eraseIdx i)
    let s := s.updFlight f.mbx f.tag fun g => { g with work := readKept r true g.work }
    s.again f State.readsDone

/-- A command ends because of read `i` (R163, R351): its hedges are cancelled, and its other reads are left behind. -/
def State.endByRead (f : Flight) (i : Nat) (st : Status) (s : State) : State :=
  match f.work with
  | .reads l h =>
    let late := if st == .tierLate then (l.take (i + 1)).drop i else []
    (((s.cancelHedges f l).leaveReads f false (l.eraseIdx i)).leaveReads f false (late.map fun r => { r with lost := some .tierLate })).readsFail f h st
  | _ => s

/-- Read `i` of a command gives no data, for the reason `st`: its hedge is awaited where one is out, and the failure is logged (R235); a read started
early is kept until it is confirmed or squashed (R226); otherwise the command ends. -/
def State.readLost (f : Flight) (i : Nat) (st : Status) (s : State) : State :=
  match (readsOf f)[i]? with
  | none => s
  | some r =>
    if hedgePending r then (s.logReadOf f r st).putReads f ((readsOf f).set i { r with lost := some st })
    else match f.work with
      | .reads _ _ => s.endByRead f i st
      | .search _ => s.putReads f ((readsOf f).set i { r with lost := some st })
      | _ => s

/-- Read `i` of a command is late (R235, R351): its hedge, outstanding or failed, does not help any more; one started early ends its command once it is
confirmed. -/
def State.readLate (f : Flight) (i : Nat) (s : State) : State :=
  match (readsOf f)[i]? with
  | none => s
  | some r =>
    let s := if r.hedge.isSome then s.logReadOf f r .tierLate else s
    match f.work with
    | .reads _ _ => s.endByRead f i .tierLate
    | .search _ => (s.cancelHedges f ([r].filter hedgePending)).putReads f ((readsOf f).set i { r with
        lost := some .tierLate, hedge := r.hedge.map fun h => { h with failed := true } })
    | _ => s

/-- Read `i` of those that a command has left behind. -/
def State.leftRead (m : Nat) (tag : Word) (i : Nat) (s : State) : Option SquashedRead :=
  (s.index.squashed.filter fun x => x.mbx == m && x.tag == tag)[i]?

/-- A read that was left behind fails, is late or is damaged: one that was squashed is logged and counted (R226). -/
def State.leftFails (x : SquashedRead) (st : Status) (place : Nat) (s : State) : State :=
  if x.counted then (s.logRead x.tenant x.opcode x.tag x.read st place).chargeSpec x.tenant 0x20 1 else s

/-- A read that was left behind is over. -/
def State.dropLeft (x : SquashedRead) (s : State) : State := { s with index.squashed := s.index.squashed.erase x }

/-- The bound after which a read is late, ns (Table 14-6). -/
def State.readBound (r : Read) (s : State) : Nat :=
  match r.tier with
  | .flash => 3000000
  | .host g => (s.tiers.regions.find g).elim 200000 fun x => x.boundUs * 1000
  | .shared _ => 5000000

/-- Answer a HOST_REGION_REVOKE whose accesses are done (R349): the pages are dropped and the grant ends. -/
def State.settleRevoke (r : Nat) (s : State) : State :=
  match s.tiers.regions.find r with
  | some x => match x.revoking with
    | some (m, tag, pages) =>
      if s.regionQuiet r then
        let s := { s with tiers.regions := s.tiers.regions.del r, flash.hostPages := s.flash.hostPages.keep fun _ g => g != r }
        match s.flight m tag with
        | some f => s.answer f .done (leBytes 4 pages ++ zeros 4)
        | none => s
      else s
    | none => s
  | none => s

/-- An access in a region has ended: superseded slots, or a revoke, may have waited for it. -/
def State.tierSettled (t : Tier) (s : State) : State := match t with | .host g => (s.reclaimSlots g).settleRevoke g | _ => s

/-- The read of a map page gives nothing: the command ends, and the page is read from flash by the next that needs it (R366, R370). -/
def State.mapPageLost (r : Read) (s : State) : State := match r.mapPage with | some p => s.dropHostPage p | none => s

/-- Read `i` of a command has its map page: the page is in HBM, the host read is charged, and the read of the sector itself goes to flash (R366). -/
def State.mapPageArrived (f : Flight) (i : Nat) (r : Read) (p : Nat) (s : State) : State :=
  let charged (w : Work) : Work := match w with
    | .reads l h => .reads l { h with charges := h.charges.put 0x48 (h.charges.getD 0x48 0 + 1) }
    | w => w
  ((s.touchPage p).updFlight f.mbx f.tag fun g => { g with work := charged g.work }).putReads f
    ((readsOf f).set i { r with tier := .flash, mapPage := none, since := s.clock })

/-- LOWER_TIER_LATE (R226, R350, R351): a read without data at its bound ends its command TIER_LATE; its later completion is discarded unopened, and
counted. A read that a command has left behind is numbered after those it has outstanding. -/
def execLowerTierLate (m : Mbx) (tag : Word) (read : Nat) (s : State) : Host.Outcome State Fault Refusal :=
  let l := (s.flight m.key tag).elim [] readsOf
  let due (r : Read) : Bool := decide (r.since + s.readBound r ≤ s.clock) && r.lost.isNone && r.came.isNone
  let t := { s with tiers.lateDiscarded := s.tiers.lateDiscarded + 1 }
  .next (match l[read]?, s.flight m.key tag, s.leftRead m.key tag (read - l.length) with
    | some r, some f, _ => if due r then ((t.mapPageLost r).readLate f read).tierSettled r.tier else s
    | none, _, some x =>
      if due x.read then
        let t := t.leftFails x .tierLate (readPlace x.read)
        ({ t with index.squashed := t.index.squashed.map fun y =>
            if y == x then { x with counted := false, read := { x.read with lost := some .tierLate } } else y } : State).tierSettled x.read.tier
      else s
    | _, _, _ => s)

/-- Make a host region FAILED: it is treated as revoked, and its grant stays (R350). -/
def State.failRegion (r : Nat) (s : State) : State :=
  ({ s with
    tiers.regions := s.tiers.regions.upd r fun x => { x with failed := true, live := [] }
    flash.hostPages := s.flash.hostPages.keep fun _ g => g != r } : State).logUnit r

/-- A failed access in a region, in the last second (R350). -/
def State.noteFailure (r : Nat) (s : State) : State :=
  { s with tiers.regions := s.tiers.regions.upd r fun x =>
      { x with failures := s.clock :: x.failures.filter fun t => s.clock < t + 1000000000 } }

/-- HOST_REGION_FAILED (R350): at the third failure within 1 s, or at a completion timeout. -/
def execHostRegionFailed (region : Word) (timeout : Bool) (s : State) : Host.Outcome State Fault Refusal :=
  let r := region.toNat
  .next (match s.tiers.regions.find r with
    | some x => if !x.failed && (timeout || 3 ≤ (x.failures.filter fun t => s.clock < t + 1000000000).length) then s.failRegion r else s
    | none => s)

/-- An access in a region has failed or not (R350): the third failure within 1 s, or a completion timeout, makes the region FAILED. -/
def State.regionOutcome (g : Nat) (outcome : HostRead) (s : State) : State :=
  let s := if outcome == .failed || outcome == .timeout then s.noteFailure g else s
  let fail : Bool := match s.tiers.regions.find g with
    | some x => !x.failed && (outcome == .timeout || (outcome == .failed && 3 ≤ x.failures.length))
    | none => false
  if fail then s.failRegion g else s

/-- HOST_TIER_READ_COMPLETE (R350, R71): data that passes the tag check arrives; a bad tag ends the command DATA_DAMAGED; a failure
ends it TIER_FAILED and counts toward the region's. A read that its command has left behind is discarded unopened (R225, R226). -/
def execHostTierReadComplete (m : Mbx) (tag : Word) (read : Nat) (outcome : HostRead) (s : State) :
    Host.Outcome State Fault Refusal :=
  let l := (s.flight m.key tag).elim [] readsOf
  .next (match l[read]?, s.flight m.key tag, s.leftRead m.key tag (read - l.length) with
    | some r, some f, _ => match r.tier with
      | .host g =>
        if r.lost.isSome then s
        else
          let s := match outcome, r.mapPage with
            | .data, some p => s.mapPageArrived f read r p
            | .data, none => s.readArrived f read
            | .badTag, _ => ((s.mapPageLost r).logReadOf f r .dataDamaged).readLost f read .dataDamaged
            | .failed, _ | .timeout, _ => (s.mapPageLost r).readLost f read .tierFailed
          (s.regionOutcome g outcome).tierSettled r.tier
      | _ => s
    | none, _, some x => match x.read.tier with
      | .host g =>
        let s := if (outcome == .failed || outcome == .timeout) && x.read.lost.isNone then s.leftFails x .tierFailed g else s
        ((s.dropLeft x).regionOutcome g outcome).tierSettled x.read.tier
      | _ => s
    | _, _, _ => s)

end Sys2Proof.Machine
end

