-- ==== Sys2Proof/Machine/ListScan.lean ====
section
/-!
DEFINITION. One search on one module: preparation, traversal, run-ahead, scan jobs on NBUs, selection, refine and rerank
(R137, R146–R149, R153, R157–R164, R172–R181, R203–R205, R220–R228).
-/
namespace Sys2Proof.Machine

/-! ### Scan jobs (R151, R177, R180) -/

/-- One job for each pair of probed list and NBU that holds bound extents of the list, its own and the legacy extents it shares, but for those that
`covered` names (R151, R177). -/
def State.listJobs (f : Flight) (c : Collection) (ext : List (Extent × List (Nat × Nat))) (spec : Bool) (l : Nat) (covered : List Nat) (s : State) :
    List (Nat × ScanJob) :=
  let mine := ext.filter fun x => ownedBy l x.1 && !covered.contains x.1.id && !x.2.isEmpty
  ((mine.map fun x => s.extentNbu c x.1).eraseDups).map fun n =>
    (n, { mbx := f.mbx, tag := f.tag, collection := c.id, list := l, speculative := spec
          extents := (mine.filter fun x => s.extentNbu c x.1 == n).map fun x => (x.1.id, x.2) })

/-- The extents that jobs scan. -/
def jobExtents (l : List (Nat × ScanJob)) : List Nat := l.flatMap fun j => j.2.extents.map (·.1)

/-- The jobs of lists, each extent once (R151). -/
def State.allJobs (f : Flight) (c : Collection) (ext : List (Extent × List (Nat × Nat))) (spec : Bool) (s : State) :
    List Nat → List Nat → List (Nat × ScanJob)
  | [], _ => []
  | l :: t, covered =>
    let jobs := s.listJobs f c ext spec l covered
    jobs ++ s.allJobs f c ext spec t (jobExtents jobs ++ covered)

/-- An NBU takes one more job: 32 have contexts, and 256 wait (R180). -/
def Nbu.hasRoom (x : Nbu) : Bool := decide (x.jobs.length < 288)

/-- Send jobs to their NBUs, in order; those that find a queue full are held at the crew (R180). -/
def State.sendJobs (l : List (Nat × ScanJob)) (s : State) : State × List (Nat × ScanJob) :=
  l.foldl (fun a x =>
    if (a.1.nbu x.1).hasRoom && !a.2.any (·.1 == x.1) then (a.1.updNbu x.1 fun n => { n with jobs := n.jobs ++ [x.2] }, a.2)
    else (a.1, a.2 ++ [x])) (s, [])

/-- Jobs held at their crews go to an NBU that has room again, the earlier command first (R180). -/
def State.takeHeld (n : Nat) : Nat → State → State
  | 0, s => s
  | k + 1, s =>
    if !(s.nbu n).hasRoom then s
    else
      let first := s.host.flights.findSome? fun f => match f.work with
        | .search r => (r.held.find? (·.1 == n)).map fun j => (f, r, j)
        | _ => none
      match first with
      | some (f, r, j) =>
        State.takeHeld n k ((s.updNbu n fun x => { x with jobs := x.jobs ++ [j.2] }).setWork f (.search { r with held := r.held.erase j }))
      | none => s

/-! ### Query descriptors (Table 5-3) -/

/-- QD.REFINE -/
def qdRefine (b : Bytes) : Nat := field b 0xC 2
/-- QD.K -/
def qdK (b : Bytes) : Nat := field b 4 2
/-- QD.NPROBE -/
def qdProbe (b : Bytes) : Nat := field b 8 2
/-- The beam: QD.BEAM, or max(NPROBE, 64) for 0. -/
def qdBeam (b : Bytes) : Nat := if field b 0xA 2 = 0 then max (qdProbe b) 64 else field b 0xA 2
/-- QD.FLAGS.NO_RUN_AHEAD -/
def qdCalm (b : Bytes) : Bool := bit (field b 6 2) 1
/-- QD.FLAGS.FULL -/
def qdFull (b : Bytes) : Bool := bit (field b 6 2) 2
/-- The command is a rerank: QD.RR_DEPTH is 0 for SEARCH. -/
def qdRerank (b : Bytes) : Bool := field b 0x28 2 != 0
/-- n_c, the candidate count of R157. -/
def qdDepth (b : Bytes) : Nat := if qdRefine b ≠ 0 then qdRefine b else if qdRerank b then field b 0x28 2 else qdK b
/-- The predicates of a query. -/
def qdPreds (b : Bytes) : List Pred := readPreds (b.drop (64 + (field b 0x18 4 + 7) / 8 * 8))

/-! ### Run-ahead (R220) -/

/-- The beams after each round of a traversal. -/
def walkBeams (c : Collection) (q : List Half) (beam : Nat) : Nat → Walk → List (List Nat)
  | 0, _ => []
  | n + 1, w =>
    let u := (w.beam.map Prod.snd).filter fun l => !w.expanded.contains l
    if u.isEmpty || 65536 ≤ w.visited.length then []
    else let w' := walkRound c q beam w u; w'.beam.map Prod.snd :: walkBeams c q beam n w'

/-- The beams of the traversal of R148. -/
def beamsOf (c : Collection) (q : List Word) (beam : Nat) : List (List Nat) :=
  let qb := q.map f32ToBf16
  walkBeams c qb beam 64 { beam := bestSlots beam (scoreSlots c qb (entrySlots c.qimage)), visited := entrySlots c.qimage, expanded := [] }

/-- The later waves: slots within the first NPROBE places at the end of two consecutive rounds, up to the limit. -/
def laterWaves (nprobe limit : Nat) : List (List Nat) → List Nat → List Nat
  | a :: b :: t, started =>
    let new := (b.take nprobe).filter fun l => (a.take nprobe).contains l && !started.contains l
    laterWaves nprobe limit (b :: t) ((started ++ new).take limit)
  | _, started => started

/-- The lists that run-ahead starts: none where the traversal ends in three rounds or fewer, and none at the end of the last round, which is the end
of the traversal (R220, DEDUCED, log entry 136). -/
def runAheadLists (nprobe : Nat) (beams : List (List Nat)) : List Nat :=
  if beams.length ≤ 3 then []
  else
    let limit := (5 * nprobe + 3) / 4
    laterWaves nprobe limit ((beams.drop 2).dropLast) (((beams.getD 2 []).take ((5 * nprobe + 63) / 64)).take limit)

/-- The NBU scan share of a tick, in bytes (Table 6-11). -/
def scanShare : Profile → Nat
  | .january => 40000000000 | .april => 48000000000 | .july => 64000000000 | .october => 32000000000

/-- The flash reads of a tick that queries may take (Table 5-9). -/
def readShare : Profile → Nat
  | .january => 20000 | .april => 16000 | .july => 20000 | .october => 8000

/-- Run-ahead may start more scans in this tick: 12 % of the scan share (R222). -/
def State.mayRunAhead (b : Bytes) (s : State) : Bool := !qdCalm b && decide (s.index.specBytes * 100 < 12 * scanShare s.power.rates)

/-- Refine reads may start early in this tick: 5 % of the read share (R222). -/
def State.mayPrefetch (b : Bytes) (s : State) : Bool := !qdCalm b && decide (s.index.specReads * 100 < 5 * readShare s.power.rates)

/-! ### Results -/

/-- The version of a candidate. -/
def Collection.versionAt (c : Collection) (e : Entry) : Option Version := c.versions.find? fun v => v.id == e.id && v.ins == e.ins

/-- A candidate's refined score (R160, R161). -/
def refinedScore (c : Collection) (full : Bool) (q : List Word) (v : Version) : Word :=
  let d := c.desc
  let h := readQHeader c.qimage
  if full then fullScore d.metric q (vectorElements d.vecFormat d.dim v.vector)
  else refineScore d.metric (readScales d.dim (slice c.qimage h.scaleOffset h.scaleBytes)) q (refineUnpack d.refineBits v.refine)

/-- Score candidates anew: the best `n`, and how many scores were NaN (R162, R200). -/
def rescore (n : Nat) (score : Version → Word) (flagBit : Nat) (l : List (Entry × Version)) : List (Entry × Version) × Nat :=
  let all := l.map fun x => (x, score x.2)
  let ok := (all.filter fun x => !f32IsNan x.2).map fun x => ({ x.1.1 with key := scoreKey x.2, flags := x.1.1.flags + flagBit }, x.1.2)
  ((sortBy ok fun a b => better a.1 b.1 || a.1.id == b.1.id).take n, all.length - ok.length)

/-- The optional fields of an entry (Table 5-5). -/
def entryExtra (c : Collection) (b : Bytes) (v : Version) : Bytes :=
  (if bit (field b 0x16 2) 0 then leBytes 8 v.packed else []) ++ (if bit (field b 0x16 2) 1 then v.ext.take c.desc.extBytes else [])

/-- What a search gives for its final entries (R143, R144, R157): its status and payload, or the records of its stream; `next` is what is read in a second
wave. -/
def State.searchHeld (f : Flight) (r : SearchRun) (c : Collection) (nans : Nat) (l : List (Entry × Version)) (next : List (Nat × Nat × List (Nat × Nat)))
    (charges bytes : Tab Nat) (s : State) : Held :=
  let b := r.plain
  let fin := (l.filter fun x => decide (field b 0x20 4 ≤ x.1.key)).take (qdK b)
  let st : Status := if fin.length < qdK b then .doneUnderfull else .done
  let size := entryBytesOf c.desc.extBytes b
  let head (n : Nat) : Bytes := resHeader n size (2 * flag (qdRerank b)) r.csn r.mapVersion r.lists r.items (r.nans + nans) r.stale 0 0
  let entries := fin.map fun x => entryOf { x.1 with node := s.nodeId, extra := entryExtra c b x.2 }
  if hdrStream f.hdr then
    let n := field b 0x14 2
    let max_ := match s.host.streams.find n with | some x => recordMax x - 24 | none => 0
    { status := st, stream := some n, failed := head 0, next := next, charges := charges, bytes := bytes
      parts := head fin.length :: (if entries.isEmpty then [] else packEntries max_ entries) }
  else
    let fit := fitEntries (s.rspPlain f.mbx - 48) entries
    { status := if fit.2 then st else .doneTruncated, parts := head fit.1.length :: fit.1, failed := head 0, next := next, charges := charges
      bytes := bytes }

/-! ### The end of selection -/

/-- Two reads are of one sector. -/
def sameSector (a b : Read) : Bool := a.collection == b.collection && a.seg == b.seg && a.area == b.area && a.sector == b.sector

/-- Refine reads that are not needed go to the speculation account (R225, R226, R228); those issued complete where they are. -/
def State.squashReads (f : Flight) (l : List Read) (fetched : Nat) (s : State) : State :=
  let s := s.cancelHedges f (l.filter hedgePending)
  let s := s.chargeSpec f.tenant 0x18 (l.length + fetched)
  let s := (l.filter fun r => r.hedge.isNone).foldl (fun s r => match r.lost with | some st => s.logReadOf f r st | none => s) s
  (s.chargeSpec f.tenant 0x20 (l.filter (·.lost.isSome)).length).leaveReads f true l

/-- A read started early is confirmed: what it leaves at the flash is no longer held back (R226). -/
def State.confirmRead (r : Read) (s : State) : State :=
  match r.came with
  | some (quad, step, mismatch) => s.readEffects quad step mismatch
  | none => s

/-- The key of a version. -/
def Version.key (v : Version) : Nat × Nat := (v.id, v.ins)

/-- The results of a search need rows that lie in poisoned extents: their packed word or extended bytes are read from HBM (R186, Table 6-2). -/
def State.resultsBlocked (c : Collection) (b : Bytes) (l : List (Entry × Version)) (s : State) : Option Bool :=
  if field b 0x16 2 == 0 then none else s.rowsBlocked c (l.map (·.2))

/-- Selection is over: the candidates are refined and reranked once the reads they need are back (R157, R162–R164, R221). A search whose results lie in
an extent that is being rebuilt waits for it, with all its lists delivered (R186). -/
def State.selectionDone (f : Flight) (r : SearchRun) (s : State) : State :=
  match s.coll r.collection with
  | none => s
  | some c =>
    let b := r.plain
    let cand := r.stage.close.list.filterMap fun e => (c.versionAt e).map fun v => (e, v)
    let refined := if qdRefine b = 0 then (cand, 0)
      else rescore (if qdRerank b then field b 0x28 2 else qdK b) (refinedScore c (qdFull b) r.q) 1 cand
    let rr := (s.generation .model r.rr.1 r.rr.2).elim [] (·.image)
    let pairs := if qdRerank b then (refined.1.take (field b 0x28 2)) else []
    let fin := if qdRerank b then
        rescore (qdK b) (fun v => (scorePair rr (field b 0x2A 2) r.tokens v.tokens).1) 2 pairs
      else (refined.1, 0)
    let fromStaging (v : Version) : Bool := r.staged.contains v.key
    let need := if qdRefine b = 0 then [] else s.recordReads c (if qdFull b then 1 else 0) ((cand.map (·.2)).filter fun v => !fromStaging v)
    let next := if pairs.isEmpty then [] else [(c.id, 2, pairs.map (·.2.key))]
    let kept := r.prefetch.filter fun x => need.any (sameSector x)
    let got := r.fetched.filter fun x => need.any (sameSector x.1)
    let new := need.filter fun x => !(kept.any (sameSector x) || got.any fun y => sameSector x y.1)
    match s.resultsBlocked c b fin.1 with
    | some false => s.setWork f (.search r)
    | some true =>
      (s.squashReads f r.prefetch r.fetched.length).readsFail f (s.searchHeld f r c (refined.2 + fin.2) fin.1 [] [] []) .dataDamaged
    | none =>
      let s := if qdRefine b = 0 then s else s.stage f ((cand.length + 63) / 64)
      let s := s.squashReads f (r.prefetch.filter fun x => !need.any (sameSector x)) (r.fetched.length - got.length)
      let (tiles, s) := s.draw
      let meters := got.foldl (fun (t : Tab Nat) x => if x.2 then t else t.put (tierMeter x.1.tier) (t.getD (tierMeter x.1.tier) 0 + 1))
        ((if r.bytes.isEmpty then [] else [(0x30, r.bytes.vals.sum)]) ++ [(0x28, tiles)] ++ r.charges)
      let h := s.searchHeld f r c (refined.2 + fin.2) fin.1 next meters r.bytes
      let s := (kept ++ got.map (·.1)).foldl (fun s x => s.confirmRead x) s
      match kept.find? fun x => x.lost.isSome && !hedgePending x with
      | some x =>
        let s := if x.lost == some .dataDamaged then s.logReadOf f x .dataDamaged else s
        ((s.cancelHedges f kept).leaveReads f false kept).readsFail f h (x.lost.getD .tierFailed)
      | none =>
        let first := kept ++ new
        if first.isEmpty then s.nextReads f h else s.afterReads f first h (new.filter (·.area < 2)).length

/-- A search goes on once its traversal is over and every confirmed job has delivered its list. -/
def State.searchProgress (f : Flight) (r : SearchRun) (s : State) : State :=
  if r.probing.isNone && decide (r.jobs ≤ r.delivered) then s.selectionDone f r else s.setWork f (.search r)

/-- Searches that waited for the rebuild of an extent go on (R186). -/
def State.resumeSearches (s : State) : State :=
  s.host.flights.foldl (fun s f => match s.flight f.mbx f.tag with
    | some f => match f.work with
      | .search r => if r.probing.isNone && decide (r.jobs ≤ r.delivered) then s.selectionDone f r else s
      | _ => s
    | none => s) s

/-! ### From the snapshot to the scans -/

/-- The generations a search binds besides its snapshot: the pinned encoder and vocabulary for a text query, the vocabulary for a rerank. -/
def State.bindPinned (c : Collection) (f : Flight) (s : State) : State :=
  let add (k h n : Nat) (l : List (Nat × Nat × Nat)) := if h = 0 || l.contains (k, h, n) then l else (k, h, n) :: l
  s.updFlight f.mbx f.tag fun x => { x with binds := add 0 c.desc.model c.modelGen (add 1 c.desc.vocab c.vocabGen x.binds) }

/-- Reserve KV pages for one sequence, once (R297). -/
def State.reserveOnce (f : Flight) (h : ModelHeader) (n : Nat) (s : State) : Except Detail State :=
  if kvPages h n = 0 || s.models.kv.any fun k => k.mbx == f.mbx && k.tag == f.tag then .ok s
  else (s.reserveKv f h [n]).map fun s => s.runPages f [n]

/-- A query after preparation (R147): its vector, the tokens that are encoded, all its tokens, and what tokenisation counts. -/
structure Prepared where
  q : List Word
  kept : List Nat := []
  tokens : List Nat := []
  counts : Option (List Nat × Nat) := none
  deriving DecidableEq, Repr

/-- Prepare a query (R147); a rerank takes the first 512 of all its tokens (R164). -/
def prepareQuery (c : Collection) (model vocab b : Bytes) : Prepared :=
  let d := c.desc
  let norm (v : List Word) : List Word := if d.metric == 1 then normalise v else v
  let body := slice b 64 (field b 0x18 4)
  if field b 0xE 1 == 2 then
    let t := tokenise vocab body
    let kept := t.1.take d.chunkTokens
    { q := norm (encodeSequence model (modelSequence (readModelHeader model) kept).1).1, kept := kept, tokens := t.1, counts := some t }
  else { q := norm (vectorElements (field b 0xE 1) d.dim body) }

/-- The crew of a search: of its collection's class; the items of a batch share the batch's (R247). -/
def State.searchCrew (c : Collection) (f : Flight) (k : State → Except Detail State) (s : State) : Except Detail State :=
  if 2 ^ 20 ≤ f.mbx ∧ f.mbx < 2 ^ 40 then k s
  else
    let n := qdDepth f.plain
    s.withCrew (placeClassOf s.placeImage c.cls).searchCrew (selectionPages n (decide (256 < n)) (!qdCalm f.plain)) f k

/-- What a search answers when it fails before its scans: RES.COUNT 0, and what it has bound (R143, R163). -/
def emptyResult (c : Collection) (q map : Nat) (b : Bytes) : Bytes := resHeader 0 (entryBytesOf c.desc.extBytes b) 0 q map 0 0 0 0 0 0

/-- Traverse and start the scans (R148, R157, R177, R220–R224): where run-ahead starts jobs, the traversal is still under way until SPECULATION_SQUASH;
otherwise its end starts the command's jobs at once. -/
def State.startScans (c : Collection) (q : Nat) (rr : Nat × Nat) (f : Flight) (x : Prepared) (s : State) : State :=
  let b := f.plain
  let w := traverse c x.q (qdBeam b)
  let probe := probeOf w (qdProbe b)
  let counted (s : State) : State := if f.mbx < 2 ^ 40 then s.charge f.tenant 0x68 1 else s
  match walkPoison c w with
  | some true => (counted s).answer f .dataDamaged (emptyResult c q c.map.version b)
  | some false => s.setWork f .rebuildWait
  | none =>
    let started := if s.mayRunAhead b then runAheadLists (qdProbe b) (beamsOf c x.q (qdBeam b)) else []
    let ext := c.boundExtents c.map.version q
    let s := (counted s).stage f w.expanded.length
    let own := decide (f.mbx < 2 ^ 40)
    let s := match x.counts with | some t => if own then s.chargeText f.tenant [t] else s | none => s
    let r : SearchRun := {
      plain := b, collection := c.id, csn := q, mapVersion := c.map.version, q := x.q, tokens := x.tokens, rr := rr, lists := probe.length
      jobs := 0, nans := w.nans, stale := w.stale, stage := { n := qdDepth b }
      charges := if own then [] else match x.counts with | some t => textCharges [t] | none => [] }
    if started.isEmpty then
      let jobs := s.allJobs f c ext false probe []
      let (s, held) := s.sendJobs jobs
      s.searchProgress f { r with jobs := jobs.length, held := held }
    else
      let jobs := s.allJobs f c ext true started []
      let s := s.chargeSpec f.tenant 0x00 jobs.length
      let (s, held) := s.sendJobs jobs
      s.setWork f (.search { r with probing := some probe, held := held })

/-- A search whose snapshot is bound, on the map it has bound (R146, R147). -/
def State.searchBound (c : Collection) (q : Nat) (rr : Nat × Nat) (f : Flight) (s : State) : Except Detail State :=
  let b := f.plain
  let s := s.bindPinned c f
  let fail := emptyResult c q c.map.version b
  let text := field b 0xE 1 == 2
  let m := s.generation .model c.desc.model c.modelGen
  let v := (s.generation .vocab c.desc.vocab c.vocabGen).elim [] (·.image)
  let run (s : State) : Except Detail State := s.searchCrew c f (fun s => do
    let img := m.elim [] (·.image)
    let x := prepareQuery c img v b
    let h := readModelHeader img
    let s ← if text then s.reserveOnce f h (modelSequence h x.kept).1.length else pure s
    return s.startScans c q rr f x)
  let second (s : State) : Except Detail State :=
    match s.generation .model rr.1 rr.2 with
    | some g => s.withWeights g f fail run
    | none => run s
  match m with
  | some g => if text then s.withWeights g f fail second else second s
  | none => second s

/-! ### Scan jobs -/

/-- Whether an extent is poisoned, and whether its rebuild has failed (R186). -/
def State.extentPoisoned (c e : Nat) (s : State) : Option Bool :=
  let hit := s.index.poisoned.filter fun p => p.collection == c && p.extent == e
  if hit.isEmpty then none else some (hit.any (·.dead))

/-- The extent a job comes to next, and whether it is poisoned (R186). -/
def State.jobBlocked (j : ScanJob) (s : State) : Option Bool := s.extentPoisoned j.collection (j.extents.getD j.scanned (0, [])).1

/-- A predicate or tombstone of a job names an extended field (R178). -/
def readsExtended (c : Collection) (q : Nat) (b : Bytes) : Bool :=
  let names (ps : List Pred) : Bool := ps.any fun p => (c.desc.fields[p.field]?).any (·.area)
  names (qdPreds b) || (c.predicates.filter fun t => decide (t.csn ≤ q)).any fun t => names (readPreds t.predicates)

/-- The list of a job after rows of one more extent (R157, R177, R179): rows in order, visibility, filter, Hamming score. -/
def scanRows (c : Collection) (r : SearchRun) (t : Nat) (rows : List (Nat × Nat)) (found : List Entry) : List Entry :=
  let d := c.desc
  let h := readQHeader c.qimage
  let qs := sketchOf (readProjection d.dim d.sketchBits (slice c.qimage h.projOffset h.projBytes)) r.q
  let ps := qdPreds r.plain
  let hits := rows.filterMap fun k => (c.versions.find? fun v => v.id == k.1 && v.ins == k.2).bind fun v =>
    if visible c r.csn v && passes d.fields ps v.packed v.ext then
      some ({ id := v.id, key := scoreKey (hammingScore d.sketchBits qs v.sketch), ins := v.ins } : Entry)
    else none
  if qdDepth r.plain ≤ 1024 then (reduceAll (found ++ hits)).take (qdDepth r.plain) else reduceAll (found ++ hits.filter fun e => decide (t ≤ e.key))

/-- The job an NBU serves next: among its 32 contexts, command jobs first, and none that waits for a rebuild (R180, R181); a speculative job is not held up
by a rebuild that has failed. -/
def State.nextJob (x : Nbu) (s : State) : Option ScanJob :=
  let ready := (x.jobs.take 32).filter fun j => j.result.isNone && s.jobBlocked j != some false
  match ready.find? fun j => !j.speculative with
  | some j => some j
  | none => ready.head?

/-- Replace a job of an NBU. -/
def Nbu.setJob (x : Nbu) (j k : ScanJob) : Nbu := { x with jobs := x.jobs.map fun i => if i == j then k else i }

/-- A job of a context has been served for one extent: the others come before it again (R181). -/
def Nbu.rotate (x : Nbu) (j k : ScanJob) : Nbu := { x with jobs := (x.jobs.take 32).erase j ++ k :: x.jobs.drop 32 }

/-- A job after one more extent: `rows` were examined, `row` bytes each. -/
def ScanJob.advance (j : ScanJob) (found : List Entry) (rows row : Nat) : ScanJob :=
  { j with
    scanned := j.scanned + 1, found := found, bytes := j.bytes + rows * row
    result := if j.extents.length ≤ j.scanned + 1 then some found else none }

/-- Whether tiles scan the next extent of an NBU that is slow, or whose stack is thermally capped: the split in proportion to measured rates leaves it open
for each extent (free; R236). -/
def State.tilesScan (n : Nat) (s : State) : Bool × State :=
  if (s.nbu n).slow || decide (s.governor.stackCaps.getD (n / 64) 100 < 100) then
    let (v, s) := s.draw
    (v % 2 == 1, s)
  else (false, s)

/-- SCAN_JOB (R177–R181, R236): an NBU serves its jobs in turn, one extent at a time, a command's before speculative ones; a FAILED NBU's jobs are run by tiles
(R195). -/
def execScanJob (nbu : Fin 1280) (s : State) : Host.Outcome State Fault Refusal :=
  .next (if (s.nbu nbu.val).state == 2 || !s.serving then s
  else
    let s := s.takeHeld nbu.val 288
    match s.nextJob (s.nbu nbu.val) with
    | none => s
    | some j => match s.flight j.mbx j.tag, s.coll j.collection with
      | some f, some c => match f.work with
        | .search r =>
          let e := j.extents.getD j.scanned (0, [])
          if s.jobBlocked j == some true then
            if j.speculative then s.updNbu nbu.val fun x => x.rotate j ({ j with damaged := true }.advance j.found 0 0)
            else (s.squashReads f r.prefetch r.fetched.length).answer f .dataDamaged (endPayload c.desc.extBytes f)
          else
            let row := c.desc.sketchBits / 8 + 16 + (if readsExtended c r.csn r.plain then c.desc.extBytes else 0)
            let (byTiles, s) := s.tilesScan nbu.val
            let k := j.advance (scanRows c r j.t e.2 j.found) e.2.length row
            let s := s.updNbu nbu.val fun x =>
              let x := x.rotate j k
              if x.state == 0 && !byTiles then nbuCount 0x08 e.2.length (nbuCount 0x00 (e.2.length * row) x) else x
            if j.speculative then { s with index.specBytes := s.index.specBytes + e.2.length * row } else s
        | _ => s
      | _, _ => s)

/-- Rows a job has examined. -/
def ScanJob.examined (j : ScanJob) : Nat := ((j.extents.take j.scanned).map (·.2.length)).sum

/-- SCAN_JOB_COMPLETE (R179, R180, R205): a finished command job delivers its list, in threshold mode 256 entries at a time; what the gate has no room
for waits in the job's context, and a context that becomes free takes the next job. -/
def execScanJobComplete (nbu : Fin 1280) (s : State) : Host.Outcome State Fault Refusal :=
  .next (match (s.nbu nbu.val).jobs.find? fun j => j.result.isSome && !j.speculative with
    | none => s
    | some j => match s.flight j.mbx j.tag with
      | none => s
      | some f => match f.work with
        | .search r =>
          let l := j.result.getD []
          let n := min r.stage.room (if qdDepth r.plain ≤ 1024 then l.length else 256)
          if n = 0 && !l.isEmpty then s
          else
            let rest := l.drop n
            let s := s.updNbu nbu.val fun x =>
              nbuCount 0x10 (l.take n).length (if rest.isEmpty then { x with jobs := x.jobs.filter (· != j) } else x.setJob j { j with result := some rest })
            let r := { r with stage := r.stage.offer (l.take n) }
            if rest.isEmpty then
              s.searchProgress f { r with delivered := r.delivered + 1, items := r.items + j.examined, bytes := r.bytes.put nbu.val (r.bytes.getD nbu.val 0 + j.bytes) }
            else s.setWork f (.search r)
        | _ => s)

/-- GATE_COMPACTION (R205): a full staging buffer is merged into the list, and t rises. -/
def execGateCompaction (m : Mbx) (tag : Word) (s : State) : Host.Outcome State Fault Refusal :=
  .next (match s.flight m.key tag with
    | some f => match f.work with
      | .search r => if r.stage.full.isEmpty then s else s.setWork f (.search { r with stage := (r.stage.compact).swap })
      | _ => s
    | none => s)

/-- THRESHOLD_UPDATE (R204): the current t reaches an NBU, which applies it to the rows it scores from now on. -/
def execThresholdUpdate (nbu : Fin 1280) (m : Mbx) (tag : Word) (s : State) : Host.Outcome State Fault Refusal :=
  .next (match s.flight m.key tag with
    | some f => match f.work with
      | .search r => s.updNbu nbu.val fun x => { x with jobs := x.jobs.map fun j =>
          if j.mbx == f.mbx && j.tag == f.tag && !j.speculative && j.result.isNone then { j with t := max j.t r.stage.t } else j }
      | _ => s
    | none => s)

/-- The reads that fit under the cap of speculative flash reads: as long as the cap has not been reached, one more starts (R222). -/
def capReads (n : Nat) : List Read → List Read
  | [] => []
  | r :: t => if r.tier == .flash then (match n with | 0 => capReads 0 t | k + 1 => r :: capReads k t) else r :: capReads n t

/-- REFINE_PREFETCH (R221, R222): once the list holds n_c IDs and three quarters of the confirmed jobs are done, refine reads start for the best half
of the candidates; a version whose copy is staged is read from staging now, and stays so. -/
def execRefinePrefetch (m : Mbx) (tag : Word) (s : State) : Host.Outcome State Fault Refusal :=
  .next (match s.flight m.key tag with
    | some f => match f.work with
      | .search r => match s.coll r.collection with
        | some c =>
          let b := r.plain
          if qdRefine b ≠ 0 ∧ r.probing = none ∧ r.stage.list.length = qdDepth b ∧ 3 * r.jobs ≤ 4 * r.delivered ∧ s.mayPrefetch b = true ∧
              s.serving = true then
            let vs := ((r.stage.list.take ((qdDepth b + 1) / 2)).filterMap c.versionAt).filter fun v => !r.staged.contains v.key
            let new := (s.recordReads c (if qdFull b then 1 else 0) vs).filter fun x =>
              !(r.prefetch.any (sameSector x) || r.fetched.any fun y => sameSector x y.1)
            let new := capReads ((5 * readShare s.power.rates + 99) / 100 - s.index.specReads) new
            let flash := (new.filter fun x => x.tier == .flash).length
            let issued := (new.filter (·.area < 2)).map fun _ => (s.clock, false)
            ({ s with index.specReads := s.index.specReads + flash, comp.readsIssued := s.comp.readsIssued ++ issued } : State).setWork f
              (.search { r with prefetch := r.prefetch ++ new, staged := r.staged ++ (vs.filter (·.staged)).map (·.key) })
          else s
        | none => s
      | _ => s
    | none => s)

/-- Run-ahead jobs of the probe set become command jobs and keep their progress; the current t goes to each (R224). -/
def confirmJob (f : Flight) (probe : List Nat) (t : Nat) (j : ScanJob) : ScanJob :=
  if j.mbx == f.mbx && j.tag == f.tag && j.speculative && probe.contains j.list then { j with speculative := false, t := max j.t t } else j

/-- The end of a traversal that run-ahead has overtaken (R220, R224–R228): jobs of the probe set are confirmed, the others are squashed, and the lists
not started are scanned as command jobs. A confirmed job that has met a lost granule ends the command. The tile time spent on squashed jobs is not
stated (free). -/
def State.endTraversal (f : Flight) (r : SearchRun) (probe : List Nat) (s : State) : State :=
  match s.coll r.collection with
  | none => s
  | some c =>
    let mine (j : ScanJob) : Bool := j.mbx == f.mbx && j.tag == f.tag
    let s := { s with index.nbus := s.index.nbus.each fun x => { x with jobs := x.jobs.map (confirmJob f probe r.stage.t) } }
    let held := (r.held.filter fun j => probe.contains j.2.list).map fun j => (j.1, confirmJob f probe r.stage.t j.2)
    let squashed := s.index.nbus.vals.any fun x => x.jobs.any fun j => mine j && j.speculative
    let s := s.squashJobs f.tenant f.mbx f.tag (·.speculative)
    let s := if held.length < r.held.length then s.chargeSpec f.tenant 0x08 (r.held.length - held.length) else s
    let (n, s) := s.draw
    let s := if squashed then s.chargeSpec f.tenant 0x48 n else s
    let out := s.index.nbus.vals.flatMap fun x => x.jobs.filter mine
    if out.any (·.damaged) then s.answer f .dataDamaged (endPayload c.desc.extBytes f)
    else
      let c' := c.underMap r.mapVersion
      let jobs := s.allJobs f c' (c.boundExtents r.mapVersion r.csn) false probe ((out.map fun j => (0, j)) ++ held |> jobExtents)
      let (s, waiting) := s.sendJobs jobs
      s.searchProgress f { r with
        probing := none, jobs := out.length + held.length + jobs.length, held := held ++ waiting }

/-- SPECULATION_SQUASH (R224–R228): the traversal of a command with run-ahead jobs ends. -/
def execSpeculationSquash (m : Mbx) (tag : Word) (s : State) : Host.Outcome State Fault Refusal :=
  .next (match s.flight m.key tag with
    | some f => match f.work with
      | .search r => match r.probing with
        | some probe => s.endTraversal f r probe
        | none => s
      | _ => s
    | none => s)

end Sys2Proof.Machine
end

