-- ==== Sys2Proof/Machine/FabricSearch.lean ====
section
/-!
DEFINITION. The query descriptor's checks, and searches over the fabric: the merge tree, sub-queries sent and served (R141, R142, R145, R154,
R164, R165, R214–R218, R231–R233, R416).
-/
namespace Sys2Proof.Machine

/-! ### Checks of a query (R141, R142) -/

/-- Field checks of a plaintext that stands at packet offset `o`. -/
def fieldsAt (o : Nat) (l : List (Nat × Bool)) : Except Detail Unit := fields (l.map fun x => (o - 0x20 + x.1, x.2))

/-- The fields of Table 5-3 that need no collection, ascending; `rr` for SEARCH_RERANK, `stream` when HDR.FLAGS.STREAM is 1. -/
def queryFields (rr stream : Bool) (b : Bytes) : List (Nat × Bool) :=
  let k := qdK b
  let fabric := bit (field b 6 2) 0
  [(0x04, 1 ≤ k && k ≤ 16384), (0x06, decide (field b 6 2 < 8)), (0x08, 1 ≤ qdProbe b && qdProbe b ≤ 8192),
   (0x0A, field b 0xA 2 == 0 || (qdProbe b ≤ field b 0xA 2 && field b 0xA 2 ≤ 8192)),
   (0x0C, qdRefine b == 0 || (k ≤ qdRefine b && qdRefine b ≤ 16384)), (0x0E, if rr then field b 0xE 1 == 2 else decide (field b 0xE 1 ≤ 2)),
   (0x0F, decide (field b 0xF 1 ≤ 32)), (0x10, field b 0x10 4 == 0 || (100 ≤ field b 0x10 4 && field b 0x10 4 ≤ 10000000)),
   (0x14, stream || field b 0x14 2 == 0), (0x16, decide (field b 0x16 2 < 4)),
   (0x18, field b 0xE 1 != 2 || (1 ≤ field b 0x18 4 && field b 0x18 4 ≤ 32768)), (0x1C, fabric || field b 0x1C 4 == 0),
   (0x24, rr || field b 0x24 4 == 0),
   (0x28, if rr then k ≤ qdRerankDepth b && qdRerankDepth b ≤ 1024 && (qdRefine b == 0 || qdRerankDepth b ≤ qdRefine b) else qdRerankDepth b == 0),
   (0x2A, if rr then 64 ≤ field b 0x2A 2 && field b 0x2A 2 ≤ 8192 else field b 0x2A 2 == 0), (0x2C, zeroField b 0x2C 20)]
where
  /-- QD.RR_DEPTH -/
  qdRerankDepth (b : Bytes) : Nat := field b 0x28 2

/-- The checks of a query that need no collection; `o` is the packet offset of the plaintext, `len` that of its length. -/
def checkQuery (rr stream : Bool) (o len csn : Nat) (b : Bytes) : Except Detail Unit := do
  need (!(bit (field b 6 2) 0 && csn != 0)) (bad 0x18)
  fieldsAt o (queryFields rr stream b)
  need (b.length == 64 + (field b 0x18 4 + 7) / 8 * 8 + 24 * field b 0xF 1) (bad len)

/-- The first element of a vector query that is not finite, or the first byte of one that is all zero under cosine (R142). -/
def queryFault (d : Descriptor) (b : Bytes) : Option Nat :=
  let fmt := field b 0xE 1
  if fmt == 2 then none
  else
    let v := vectorElements fmt d.dim (slice b 64 (field b 0x18 4))
    match v.findIdx? (fun w => !f32Finite w) with
    | some i => some ((if fmt == 1 then 2 else 4) * i)
    | none => if d.metric == 1 && v.all (fun w => f32Abs w == 0) then some 0 else none

/-- The checks of a query on its collection; `o` is the packet offset of the plaintext (R142, R154–R156). -/
def checkQueryOn (c : Collection) (o : Nat) (b : Bytes) : Except Detail Unit := do
  let d := c.desc
  let n := field b 0x18 4
  let fmt := field b 0xE 1
  fieldsAt o [(0x06, !qdFull b || d.storeFull), (0x08, decide (qdProbe b ≤ 2 ^ d.listsLog2)), (0x16, !bit (field b 0x16 2) 1 || d.extBytes != 0),
    (0x18, if fmt == 2 then true else n == d.dim * (if fmt == 1 then 2 else 4))]
  faultAt (o + 64) (queryFault d b)
  need (zeroField b (64 + n) ((8 - n % 8) % 8)) (bad (o + 64 + n))
  checkFilter d.fields (o + 64 + (n + 7) / 8 * 8) (field b 0xF 1) (b.drop (64 + (n + 7) / 8 * 8))
  need (fmt != 2 || d.model != 0) (wrongStateAt o)

/-- The cross-encoder of a rerank (R146, R164): bound when it is named; it declares the pinned vocabulary, and the collection stores tokens. -/
def State.bindReranker (c : Collection) (f : Flight) (s : State) : Except Detail ((Nat × Nat) × State) :=
  if !qdRerank f.plain then .ok ((0, 0), s)
  else do
    need c.desc.storeTokens (bad 0x20)
    let (g, s) ← s.bindGen .model 0x44 (field f.plain 0x24 4) f
    let v := (s.generation .vocab c.desc.vocab c.vocabGen).elim [] (·.image)
    need (field g.image 6 1 == 1 && vocabMatches g.image v) (bad 0x44)
    return ((g.handle, g.gen), s)

/-- The cross-encoder a search has bound. -/
def boundReranker (f : Flight) : Nat × Nat :=
  if !qdRerank f.plain then (0, 0)
  else match f.binds.find? fun b => b.1 == 0 && b.2.1 == field f.plain 0x24 4 with
    | some b => (b.2.1, b.2.2)
    | none => (0, 0)

/-- A search that has its snapshot goes on, or again after it waited for a crew or a rebuild. -/
def State.searchAgain (f : Flight) (q : Nat) (s : State) : Except Detail State :=
  match s.coll (f.coll.getD 0) with
  | none => .ok s
  | some c =>
    if s.zeroisingColl c.id || c.availability == .keyLost then .error (keyUnavailable 0x20)
    else s.searchBound (c.underMap f.mapBound) q (boundReranker f) f

/-! ### The merge tree (R214, R416) -/

/-- The members in tree order: the root, then the others in ascending node ID. -/
def treeOrder (root : Nat) (members : List Nat) : List Nat := root :: members.filter (· != root)

/-- The positions of the children of position `i` among `m`. -/
def childrenOf (m i : Nat) : List Nat := ((List.range 16).map fun j => 16 * i + 1 + j).filter (· < m)

/-- The positions of the subtree at `i`; four levels hold every composition. -/
def subtreeOf (m : Nat) : Nat → Nat → List Nat
  | 0, i => [i]
  | n + 1, i => i :: (childrenOf m i).flatMap (subtreeOf m n)

/-- Members not declared lost. -/
def Composition.live (k : Composition) : List Nat := k.members.filter fun n => !k.lost.contains n

/-- The shard number of a node: its index in the list. -/
def Composition.shardOf (k : Composition) (n : Nat) : Nat := k.members.idxOf n

/-- The SUBQUERY head (Table 16-9). -/
def subqueryHead (x : Served) (shard flags csn map : Nat) : Bytes :=
  leBytes 8 x.id ++ leBytes 2 x.tenant ++ leBytes 1 x.cls ++ leBytes 1 flags ++ leBytes 4 shard ++ leBytes 8 csn ++ leBytes 4 map ++ zeros 4 ++
    leBytes 8 x.deadline ++ zeros 8

/-- The head of a collective message (Table 16-26). -/
def collectiveHead (id kind op position composition version heard : Nat) : Bytes :=
  leBytes 8 id ++ leBytes 1 kind ++ leBytes 1 op ++ leBytes 2 position ++ leBytes 4 composition ++ leBytes 4 version ++ leBytes 4 heard

/-- Send a sub-query to the node of one child: direct where the tree has one level, else as a broadcast down (R416). -/
def State.sendSubquery (x : Served) (k : Composition) (direct : Bool) (node shard : Nat) (s : State) : State × Bool :=
  let body := subqueryHead x shard 0 0 0 ++ x.plain
  let cls := s.fabClass x.tenant
  if direct then s.send node 0x10 cls x.tenant false body
  else s.send node 0x50 cls x.tenant false
    (collectiveHead x.id 1 1 x.run.position k.id k.version 0 ++ leBytes 1 0x10 ++ zeros 3 ++ leBytes 4 body.length ++ body)

/-- The shards a module waits for: the children of its position, each with what its subtree covers. The shard of a SUSPECT member with a server is asked of
the server, and the children of that member are asked directly (R440, DESIGN CHOICE, log entry 159). -/
def childShards (k : Composition) (order : List Nat) (now : Nat) : Nat → Nat → List Shard
  | 0, _ => []
  | n + 1, i => (childrenOf order.length i).flatMap fun j =>
    let x := order.getD j 0
    let no := k.shardOf x
    match if k.suspect.contains x then k.servers.find no else none with
    | some r => { no := no, covers := [no], node := r, sent := now } :: childShards k order now n j
    | none =>
      [{ no := no, covers := (subtreeOf order.length 4 j).map fun p => k.shardOf (order.getD p 0), node := x, sent := now }]

/-- The shards of lost members: the receiving module asks the server named for each (R439). -/
def lostShards (k : Composition) (now : Nat) : List Shard :=
  k.lost.map fun n => { no := k.shardOf n, covers := [k.shardOf n], node := (k.servers.find (k.shardOf n)).getD n, sent := now }

/-- Nothing more can serve a shard: it is missing (R217). -/
def State.shardMissing (x : Served) (no : Nat) (s : State) : State :=
  (s.updServed x.id x.shard fun y =>
    match y.run.shards.find? (·.no == no) with
    | some d => { y with run := { y.run.miss d.covers.length d.covers with
        shards := y.run.shards.map fun e => if e.no == no then { e with missing := true } else e } }
    | none => y).settleMerge x.id x.shard

/-- A child that was asked and does not serve: each shard that its list was to cover is looked for on its own (R217). -/
def goneShards (members : List Nat) (d : Shard) : List Shard :=
  if d.covers.length ≤ 1 then [{ d with gone := true }]
  else d.covers.map fun n => { no := n, covers := [n], node := members.getD n 0, sent := d.sent, gone := true }

/-- A node does not serve its shard, as its primary or as its hedge; with neither left, the shard is missing. -/
def State.shardGone (x : Served) (no : Nat) (byHedge : Bool) (s : State) : State :=
  let members := (s.comp.compositions.find x.run.composition).elim [] (·.members)
  let s := s.updServed x.id x.shard fun y => { y with run := { y.run with shards := y.run.shards.flatMap fun e =>
    if e.no == no then (if byHedge then [{ e with hedgeGone := true }] else goneShards members e) else [e] } }
  match s.comp.served.find? fun y => y.id == x.id && y.shard == x.shard with
  | some y => match y.run.shards.find? (·.no == no) with
    | some d => if d.gone && d.hedge.isSome && d.hedgeGone then s.shardMissing y no else s
    | none => s
  | none => s

/-- Change one shard of a merge. -/
def State.updShard (x : Served) (no : Nat) (g : Shard → Shard) (s : State) : State :=
  s.updServed x.id x.shard fun y => { y with run := { y.run with shards := y.run.shards.map fun e => if e.no == no then g e else e } }

/-- The next SQ.ID of this module. -/
def State.freshSubq (s : State) : Nat × State := (s.nodeId + s.comp.nextSubq * 65536, { s with comp.nextSubq := s.comp.nextSubq + 1 })

/-- Send the sub-queries of a served search to its children, and to the servers of shards under SQ.IDs of their own (log entry 159); a child that cannot be
reached does not serve its shard. -/
def State.sendChildren (x : Served) (k : Composition) (s : State) : State :=
  let direct := decide (k.members.length ≤ 17)
  x.run.shards.foldl (fun s d =>
    if k.lost.contains d.node then s.shardGone x d.no false
    else
      let moved := d.node != k.members.getD d.no 0
      let (id, s) := if moved then s.freshSubq else (x.id, s)
      let s := if moved then s.updShard x d.no fun e => { e with id := id } else s
      let (s, ok) := s.sendSubquery { x with id := id } k (direct || moved) d.node d.no
      if ok then { s with comp.dispatched := (s.comp.dispatched.filter fun e => s.clock < e.1 + 10000000) ++ [(s.clock, false)] }
      else s.shardGone x d.no false) s

/-- The command that stands for a served sub-query among those in flight. -/
def servedFlight (x : Served) (now fabTime : Nat) (path : Path) : Flight where
  mbx := servedKey x.id x.shard
  hdr := {
    version := 1, status := 0, opcode := if qdRerank x.plain then 0x3002 else 0x3001, tenant := BitVec.ofNat 16 x.tenant, flags := 0, tag := 0
    length := 0, session := 0, crc := 0, csn := 0 }
  path := path
  plain := x.plain
  arrival := now
  reserved := 0
  coll := some x.collection
  deadline := if x.deadline = 0 then none else some (now + (x.deadline - fabTime))

/-- A hedge is declined: it answers with its shard missing (R233). -/
def State.declineHedge (x : Served) (s : State) : State :=
  let s := { s with host.flights := s.host.flights.filter fun f => f.mbx != servedKey x.id x.shard }
  (s.updServed x.id x.shard fun y => { y with run := { y.run.miss 1 [x.shard] with own := true } }).settleMerge x.id x.shard

/-- Run the own shard of a served sub-query (R119, R165, R232, R233): it binds the CSN and map version it was told to, once they are here, or what has
committed; its admission notice goes to the receiving module. -/
def State.serveOwn (x : Served) (f : Flight) (s : State) : Except Detail State :=
  match f.bound with
  | some q => s.searchAgain f q
  | none => match s.coll x.collection with
    | none => .error (bad 0x20)
    | some c =>
      if s.zeroisingColl c.id then .error (keyUnavailable 0x20)
      else match c.availability, x.told with
        | .ready, some (q, map) =>
          if q < c.floor ∨ (map < c.map.version ∧ !c.oldMaps.any (·.map.version == map)) then .ok (s.declineHedge x)
          else if c.committed < q ∨ c.map.version < map then
            .ok ((s.updServed x.id x.shard fun y => { y with waitSince := some (y.waitSince.getD s.clock) }).setWork f (.csnWait c.id q))
          else do
            let (rr, s) ← s.bindReranker c f
            let s := s.updFlight f.mbx f.tag fun g => { g with bound := some q, mapBound := map, boundAt := s.clock }
            match s.flight f.mbx f.tag with
            | some g => s.searchBound (c.underMap map) q rr g
            | none => .ok s
        | .ready, none => do
          let (rr, s) ← s.bindReranker c f
          let s := s.updFlight f.mbx f.tag fun g => { g with bound := some c.committed, mapBound := c.map.version, boundAt := s.clock }
          let s := if x.root.isSome || x.hedge then s
            else s.post (x.id % 65536) 0x11 (s.fabClass x.tenant) x.tenant false
              (leBytes 8 x.id ++ leBytes 8 c.committed ++ leBytes 4 c.map.version ++ leBytes 4 x.shard)
          match s.flight f.mbx f.tag with
          | some g => s.searchBound c c.committed rr g
          | none => .ok s
        | _, _ => .error (keyUnavailable 0x20)

/-- Begin a served sub-query: its entry, its children's sub-queries, and its own shard. -/
def State.beginServed (x : Served) (k : Composition) (path : Path) (s : State) : State :=
  let f := servedFlight x s.clock s.fabTime path
  let s := { s with comp.served := s.comp.served ++ [x], host.flights := s.host.flights ++ [f] }
  let s := s.sendChildren x k
  match s.serveOwn x f with
  | .ok t => t
  | .error d => s.answerDetail f d

/-- A fabric-wide search at its receiving module (R165): its sub-queries go out, and its own shard is run. -/
def State.fabricSearch (f : Flight) (c : Collection) (s : State) : Except Detail State :=
  let b := f.plain
  match s.comp.compositions.find (field b 0x1C 4) with
  | none => .error (bad 0x3C)
  | some k =>
    if !k.active then .error (wrongStateAt 0x3C)
    else if s.selfFenced || k.fenced then .error fencedDetail
    else
      let (id, s) := s.freshSubq
      let x : Served := {
        id := id, shard := k.shardOf s.nodeId, from_ := s.nodeId, root := some (f.mbx, f.tag), collection := c.id, tenant := f.tenant
        cls := (s.tenantConfig f.tenant).cls, plain := b
        deadline := match f.deadline with | some t => s.fabTime + (t - s.clock) | none => 0
        run := {
          composition := k.id, position := 0, k := qdK b, entryBytes := entryBytesOf c.desc.extBytes b, reranked := qdRerank b
          shards := childShards k (treeOrder s.nodeId k.live) s.clock 4 0 ++ lostShards k s.clock } }
      let s := s.setWork f (.fabric id)
      let s := s.charge f.tenant 0x68 1
      .ok (s.beginServed x k f.path)

/-! ### What members do with the messages of a search -/

/-- The SQ.ID under which a child was asked. -/
def Served.askedAs (x : Served) (d : Shard) : Nat := if d.id = 0 then x.id else d.id

/-- Cancel the sub-query of a shard at its child, or the hedge of it (R225). -/
def State.cancelShard (x : Served) (d : Shard) (hedge : Bool) (s : State) : State :=
  let cancel (n id : Nat) : State := (s.sendFree n 0x13 (s.fabClass x.tenant) x.tenant (leBytes 8 id ++ leBytes 4 d.no ++ zeros 4)).1
  if !hedge then (if d.gone then s else cancel d.node (x.askedAs d))
  else match d.hedge with
    | some h => if d.hedgeGone then s else cancel h d.hedgeId
    | none => s

/-- The cancel messages to the modules a merge still waits for (R225). -/
def State.cancelShards (x : Served) (s : State) : State :=
  x.run.shards.foldl (fun s d => if d.merged || d.missing then s else (s.cancelShard x d false).cancelShard x d true) s

/-- The shard that a list under an ID from a node is for, and whether it answers the hedge (R216). -/
def Served.listFor (x : Served) (id src : Nat) : Option (Shard × Bool) :=
  let open_ (d : Shard) : Bool := !d.merged && !d.missing
  match x.run.shards.find? fun d => open_ d && !d.gone && d.node == src && x.askedAs d == id with
  | some d => some (d, false)
  | none => (x.run.shards.find? fun d => open_ d && !d.hedgeGone && d.hedge == some src && d.hedgeId == id).map (·, true)

/-- The plaintext of a sub-query holds: Table 5-3, its length, and FABRIC. -/
def subqueryFaultless (b : Bytes) : Bool :=
  64 ≤ b.length && bit (field b 6 2) 0 && (checkQuery (qdRerank b) true 0x20 0x0C 0 b matches .ok _)

/-- A sub-query of a composition to the collection under `key` obeys R165 and Table 16-19. -/
def subqueryOk (body : Bytes) (k : Composition) (key : Nat) (c : Collection) (s : State) : Bool :=
  let plain := body.drop 48
  let flags := field body 0xB 1
  let shard := field body 0xC 4
  let id := field body 0 8
  112 ≤ body.length && decide (field body 8 2 < 4096) && decide (field body 0xA 1 ≤ 2) && decide (flags < 4) && zeroField body 0x1C 4 &&
    zeroField body 0x28 8 && (bit flags 1 || (field body 0x10 8 == 0 && field body 0x18 4 == 0)) && subqueryFaultless plain &&
    k.active && decide (shard < k.members.length) && k.members.contains (id % 65536) && ownerOf key == field body 8 2 &&
    !(s.comp.served.any fun y => y.id == id && y.shard == shard) && (checkQueryOn c 0x20 plain matches .ok _)

/-- Admit a sub-query that node `src` sent (R165, R232, R233, R406). -/
def State.admitSubquery (x : Inbound) (body : Bytes) (s : State) : State :=
  let plain := body.drop 48
  let flags := field body 0xB 1
  let shard := field body 0xC 4
  let hedge := bit flags 0
  let own := field plain 0 4
  match s.comp.compositions.find (field plain 0x1C 4) with
  | none => s.partnerViolation x.port x.src
  | some k =>
    let primary := !hedge && k.shardOf s.nodeId == shard
    let key := if primary then own else own + 2 ^ 32 * (shard + 1)
    match s.coll key with
    | none => s.partnerViolation x.port x.src
    | some c =>
      let id := field body 0 8
      s.wellFormed x (subqueryOk body k key c s) (fun s =>
        if s.power.season != .summer then s
        else
          let order := treeOrder (id % 65536) k.live
          let i := order.idxOf s.nodeId
          let y : Served := {
            id := id, shard := shard, from_ := x.src, collection := key, tenant := field body 8 2, cls := field body 0xA 1, deadline := field body 0x20 8
            hedge := hedge, told := if bit flags 1 then some (field body 0x10 8, field body 0x18 4) else none, plain := plain
            run := {
              composition := k.id, position := i, k := qdK plain, entryBytes := entryBytesOf c.desc.extBytes plain, reranked := qdRerank plain
              shards := if primary then childShards k order s.clock 4 i else [] } }
          s.beginServed y k .ring)

/-- Numbers rise strictly. -/
def ascending (l : List Nat) : Bool := (l.zip (l.drop 1)).all fun x => decide (x.1 < x.2)

/-- A partial list obeys R209 and R217 for a merge. -/
def listFaultless (g : FabricRun) (src : Nat) (b : Bytes) : Bool :=
  let n := field b 0 4
  let e := field b 6 2
  let l := (records e n (b.drop 48)).map (readEntry e)
  48 ≤ b.length && decide (n ≤ field b 4 2) && field b 4 2 == g.k && e == g.entryBytes && field b 8 2 == src && decide (field b 0xE 2 ≤ 1024) &&
    field b 0xE 2 == min (field b 0xC 2) 1024 && decide (field b 0x2C 2 < 4) && zeroField b 0x2E 2 && (field b 0xA 2 == 1 || field b 0x10 8 == 0) &&
    bit (field b 0x2C 2) 0 == decide (n < field b 4 2) && ascending ((records 4 (field b 0xE 2) (b.drop (48 + n * e))).map leNat) &&
    b.length == 48 + n * e + 4 * field b 0xE 2 && l.all (fun x => !nanKey x.key && x.key != 0x7FFFFFFF && x.id != padId) &&
    (l.zip (l.drop 1)).all (fun x => better x.1 x.2) && (l.map (·.id)).eraseDups.length == l.length

/-- Merge a child's list (R214–R218): the other side of a hedge is cancelled, and the completion time is kept (R231). -/
def State.mergeList (x : Served) (d : Shard) (byHedge : Bool) (b : Bytes) (s : State) : State :=
  let n := field b 0 4
  let e := field b 6 2
  let l := (records e n (b.drop 48)).map (readEntry e)
  let listed := (records 4 (field b 0xE 2) (b.drop (48 + n * e))).map leNat
  let s := s.updServed x.id x.shard fun y =>
    let g := (y.run.mergeEntries l).miss (field b 0xC 2) listed
    { y with run := { g with
      shards := g.shards.map fun z => if z.no == d.no then { z with merged := true } else z
      covered := g.covered + field b 0xA 2, csn := if field b 0xA 2 = 1 then field b 0x10 8 else g.csn, items := g.items + field b 0x18 8, lists := g.lists + field b 0x20 4, nans := g.nans + field b 0x24 4
      stale := g.stale + field b 0x28 4 } }
  let s := s.cancelShard x d (!byHedge)
  let s := if byHedge then (s.chargeSpec x.tenant 0x30 1).chargeAll x.tenant (sendCost (48 + x.plain.length)) else s
  let key := x.run.composition * 65536 + d.node
  let s := if byHedge then s
    else { s with comp.completions := s.comp.completions.put key ((s.clock - d.sent) :: (s.comp.completions.getD key []).take 1023) }
  let last := match s.comp.served.find? fun y => y.id == x.id && y.shard == x.shard with | some y => y.run.complete | none => false
  let s := if last && x.root.isSome then
      { s with comp.compositions := s.comp.compositions.upd x.run.composition fun k => { k with finishers := d.node :: k.finishers.take 1023 } }
    else s
  s.settleMerge x.id x.shard

/-- An ID of this module's own that is no longer known: what arrives under it is discarded (R216, R225). -/
def State.ownPastId (id next : Nat) (s : State) : Bool := id % 65536 == s.nodeId && decide (id / 65536 < next)

/-- A sub-query of this ID is, or was, merged here: a list under it is no violation (R216, R225). -/
def State.knownSubq (id : Nat) (s : State) : Bool :=
  s.ownPastId id s.comp.nextSubq || s.comp.served.any (·.id == id) || s.comp.answered.any (·.id == id)

/-- The trailing median of a member's completion times, ns: 1 ms while there are none (R231, DESIGN CHOICE, log entry 159). -/
def State.medianOf (composition node : Nat) (s : State) : Nat :=
  let l := s.comp.completions.getD (composition * 65536 + node) []
  if l.isEmpty then 1000000 else (sortBy l fun a b => decide (a ≤ b)).getD ((l.length - 1) / 2) 0

/-- The replica a hedge goes to: of the live ones besides the node asked first, the one with the lowest trailing median, ties to the lower node (R231). -/
def State.hedgeReplica (k : Composition) (d : Shard) (l : List Half) (s : State) : Option Nat :=
  let ok := (l.map (·.toNat)).filter fun n => k.live.contains n && n != d.node
  (sortBy ok fun a b => decide (s.medianOf k.id a < s.medianOf k.id b) || (s.medianOf k.id a == s.medianOf k.id b && decide (a ≤ b))).head?

/-- P95 of a member's completion times, ns: 1 ms until 64 samples exist (R231). -/
def State.p95 (composition node : Nat) (s : State) : Nat :=
  let l := s.comp.completions.getD (composition * 65536 + node) []
  if l.length < 64 then 1000000 else (sortBy l fun a b => decide (a ≤ b)).getD ((l.length * 95 + 99) / 100 - 1) 0

end Sys2Proof.Machine
end

