-- ==== Sys2Proof/Machine/SearchCommands.lean ====
section
/-!
DEFINITION. SEARCH, SEARCH_RERANK, SEARCH_BATCH and the messages and hedges of searches (R141–R146, R163–R166, R214–R218, R225, R231–R235, R420).
-/
namespace Sys2Proof.Machine

/-- Search commands in flight past their own checks, counting each batch item (R146). -/
def State.searchesInFlight (s : State) : Nat :=
  (s.host.flights.filter fun f => f.mbx < 2 ^ 40 && (f.opcode == 0x3001 || f.opcode == 0x3002) &&
    (f.bound.isSome || (match f.work with | .fabric _ => true | _ => false))).length

/-- Run `k` where `n` more searches may be in flight; the hint of a full module is not stated (free). -/
def State.underSearchLimit (n : Nat) (f : Flight) (k : State → Except Detail State) (s : State) : Except Detail State :=
  if s.searchesInFlight + n ≤ 8192 then k s
  else let (h, s) := s.draw; .ok (s.answerDetail f (busyRetry h))

/-- The time a query's deadline passes: QD.DEADLINE_US from the reading of the command's header (R146). -/
def queryDeadline (arrival : Nat) (b : Bytes) : Option Nat := if field b 0x10 4 = 0 then none else some (arrival + field b 0x10 4 * 1000)

/-- Run an item of a batch. -/
def State.runItem (f : Flight) (s : State) : Except Detail State :=
  if bit (field f.plain 6 2) 0 then
    match s.coll (field f.plain 0 4) with
    | some c => s.fabricSearch f c
    | none => .error (bad 0x20)
  else s.searchAgain f (f.bound.getD 0)

/-- The body of SEARCH and SEARCH_RERANK: a command, an item of a batch, or a sub-query that is served. -/
def State.searchBody (rr : Bool) (f : Flight) (s : State) : Except Detail State :=
  if 2 ^ 40 ≤ f.mbx then
    match s.servedBy f.mbx with
    | some x => s.serveOwn x f
    | none => .ok s
  else if 2 ^ 20 ≤ f.mbx then
    match s.flight ((f.mbx - 2 ^ 20) / 256) f.tag with
    | some p => if p.work == .batch then s.runItem f else .ok s
    | none => .ok s
  else match f.bound with
    | some q => s.searchAgain f q
    | none => do
      let b := f.plain
      s.unfenced (if bit (field b 6 2) 0 then field b 0x1C 4 else 0)
      need (64 ≤ b.length) (bad 0x0C)
      checkQuery rr (hdrStream f.hdr) 0x20 0x0C f.hdr.csn.toNat b
      let _ ← s.streamField 0x34 (field b 0x14 2) f
      let c ← s.usableColl 0x20 (field b 0 4) f
      csnAssigned c f
      checkQueryOn c 0x20 b
      let (g, s) ← s.bindReranker c f
      let s := s.updFlight f.mbx f.tag fun x => { x with deadline := queryDeadline f.arrival b }
      let f := { f with deadline := queryDeadline f.arrival b }
      s.underSearchLimit 1 f (fun s =>
        if bit (field b 6 2) 0 then s.fabricSearch f c
        else s.bindSnapshot c f (fun q s => match s.flight f.mbx f.tag with
          | some x => s.searchBound c q g x
          | none => .ok s))

/-- SEARCH (R141–R144, R146, R165). -/
def execSearch (m : Mbx) (tag : Word) (s : State) : Host.Outcome State Fault Refusal :=
  .next (s.start 0x3001 m tag (State.searchBody false) )

/-- SEARCH_RERANK (R164). -/
def execSearchRerank (m : Mbx) (tag : Word) (s : State) : Host.Outcome State Fault Refusal :=
  .next (s.start 0x3002 m tag (State.searchBody true))

/-! ### SEARCH_BATCH (R145) -/

/-- The items of a batch from packet offset `o` on: each plaintext with its packet offset. -/
def readItems : Nat → Nat → Bytes → Except Detail (List (Nat × Bytes))
  | 0, o, b => if b.isEmpty then .ok [] else .error (bad o)
  | n + 1, o, b => do
    let k := field b 0 4
    let size := 8 + (k + 7) / 8 * 8
    need (8 ≤ b.length && 64 ≤ k && decide (size ≤ b.length)) (bad o)
    need (zeroField b 4 4) (bad (o + 4))
    need (zeroField b (8 + k) (size - 8 - k)) (bad (o + 8 + k))
    let t ← readItems n (o + size) (b.drop size)
    return (o + 8, slice b 8 k) :: t

/-- The field checks of every item, as those of a SEARCH, with offsets within the batch (step 12 of Table 2-13). -/
def checkItemFields (f : Flight) : List (Nat × Bytes) → Except Detail Unit
  | [] => .ok ()
  | (o, p) :: t => do
    checkQuery false false o (o - 8) f.hdr.csn.toNat p
    checkItemFields f t

/-- The checks of what every item names (step 13). -/
def State.checkItems (f : Flight) (s : State) : List (Nat × Bytes) → Except Detail Unit
  | [] => .ok ()
  | (o, p) :: t => do
    let c ← s.usableColl o (field p 0 4) f
    csnAssigned c f
    checkQueryOn c o p
    if bit (field p 6 2) 0 then
      match s.comp.compositions.find (field p 0x1C 4) with
      | none => throw (bad (o + 0x1C))
      | some k => need k.active (wrongStateAt (o + 0x1C))
    s.checkItems f t

/-- The command in flight that stands for an item, bound to its snapshot. -/
def State.itemFlight (f : Flight) (i : Nat) (p : Bytes) (q : Option Nat) (s : State) : Flight :=
  let fabric := bit (field p 6 2) 0
  { mbx := itemKey f.mbx i, hdr := { f.hdr with opcode := 0x3001, flags := 0, csn := 0 }, path := f.path, plain := p, arrival := f.arrival
    reserved := 0, deadline := queryDeadline f.arrival p
    bound := if fabric then none else some (q.getD ((s.coll (field p 0 4)).elim 0 (·.committed)))
    coll := if fabric then none else some (field p 0 4)
    mapBound := if fabric then 0 else (s.coll (field p 0 4)).elim 0 (·.map.version), boundAt := s.clock }

/-- Run a batch whose items are bound: one crew serves them all, and each item ends on its own. -/
def State.runBatch (f : Flight) (s : State) : Except Detail State :=
  let items := s.host.flights.filter (isItemOf f)
  let class_ : Nat := (items.head?.bind fun g => s.coll (field g.plain 0 4)).elim 0 (·.cls)
  let pages := items.foldl (fun n g =>
    let d := qdDepth g.plain
    max n (selectionPages d (decide (256 < d)) (!qdCalm g.plain))) 0
  s.withCrew (placeClassOf s.placeImage class_).searchCrew pages f (fun s =>
    let s := s.setWork f .batch
    .ok (items.foldl (fun s g =>
      match s.flight g.mbx g.tag with
      | some g => match s.runItem g with
        | .ok t => t
        | .error d => s.answerDetail g d
      | none => s) s))

/-- SEARCH_BATCH (R145). -/
def execSearchBatch (m : Mbx) (tag : Word) (s : State) : Host.Outcome State Fault Refusal :=
  .next (s.start 0x3003 m tag fun f s =>
    if s.host.flights.any (isItemOf f) then s.runBatch f
    else do
      let b := f.plain
      let n := field b 0 2
      lengthBounds f 16 8603664
      fields [(0, 1 ≤ n && n ≤ 256), (2, hdrStream f.hdr || field b 2 2 == 0), (4, zeroField b 4 12)]
      let items ← readItems n 0x30 (b.drop 16)
      let same := items.all fun x => field x.2 0 4 == field b 0x18 4
      need (f.hdr.csn == 0 || same) (bad 0x18)
      let _ ← s.streamField 0x22 (field b 2 2) f
      checkItemFields f items
      s.checkItems f items
      s.underSearchLimit n f (fun s =>
        let go (q : Option Nat) (s : State) : Except Detail State :=
          let s := s.updFlight f.mbx f.tag fun g => { g with results := List.replicate n none }
          ({ s with host.flights := s.host.flights ++ items.mapIdx fun i x => s.itemFlight f i x.2 q } : State).runBatch f
        if f.hdr.csn == 0 then go none s
        else match s.coll (field b 0x18 4) with
          | some c => s.bindSnapshot c f (fun q s => go (some q) s)
          | none => .error (bad 0x18)))

/-! ### Messages of a fabric-wide search -/

/-- SUBQUERY (R165, R406). -/
def execSubquery (s : State) : Host.Outcome State Fault Refusal :=
  .next (match s.takeMessage 0x10 [] with
    | some (x, s) => s.admitSubquery x x.body
    | none => s)

/-- ADMIT_NOTICE (R232): the receiving module keeps the CSN and map version that the member bound. -/
def execAdmitNotice (s : State) : Host.Outcome State Fault Refusal :=
  .next (match s.takeMessage 0x11 [] with
    | some (x, s) =>
      let id := field x.body 0 8
      s.wellFormed x (x.body.length == 24 && s.ownPastId id s.comp.nextSubq) (fun s =>
        let upd (y : Served) : Served :=
          if y.root.isSome && (y.id == id || y.run.shards.any fun d => d.id == id) then
            { y with run := { y.run with notices := y.run.notices.put (field x.body 20 4) (field x.body 8 8, field x.body 16 4) } }
          else y
        { s with comp.served := s.comp.served.map upd })
    | none => s)

/-- PARTIAL_LIST (R209, R214–R218, R233): the first complete list of a shard is merged, a later one is discarded, and one that breaks the rules is not
served. -/
def execPartialList (s : State) : Host.Outcome State Fault Refusal :=
  .next (match s.takeMessage 0x12 [] with
    | none => s
    | some (x, s) =>
      let id := field x.body 0 8
      let b := x.body.drop 8
      match s.comp.served.findSome? fun y => (y.listFor id x.src).map fun d => (y, d) with
      | none => if s.knownSubq id then s else s.partnerViolation x.port x.src
      | some (y, d, byHedge) =>
        if !listFaultless y.run x.src b then (s.partnerViolation x.port x.src).shardGone y d.no byHedge
        else if d.covers.length = 1 ∧ field b 0xC 2 ≠ 0 then
          let s := if byHedge then s.chargeSpec y.tenant 0x40 1 else s
          s.shardGone y d.no byHedge
        else s.mergeList y d byHedge b)

/-- What a sub-query in progress has cost its tenant so far: nothing, before it is answered; what it has read, by meter, and by NBU. -/
def workDone (f : Flight) : Tab Nat × Tab Nat :=
  match f.work with
  | .reads _ h => (h.charges, h.bytes)
  | .search r => ([(0x38, r.fetched.length)], r.bytes)
  | _ => ([], [])

/-- The flight of a served sub-query is squashed (R225): its reads and its bytes go to the speculation account; the tile time is not stated (free). -/
def State.squashServed (y : Served) (f : Flight) (s : State) : State :=
  let done := workDone f
  let s := s.squashReads f (readsOf f) (done.1.getD 0x38 0)
  let s := s.squashBytes y.tenant done.2
  let (n, s) := s.draw
  (s.chargeSpec y.tenant 0x48 n).endFlight f

/-- What was charged for answered work turns out to be the losing side's, or squashed: it goes to the speculation account (R228). -/
def State.takeBack (x : Answered) (s : State) : State :=
  ({ s.moveToSpec x.tenant x.charges with comp.answered := s.comp.answered.erase x } : State).squashBytes x.tenant x.bytes

/-- The answered work that `p` names, where there is any, is taken back. -/
def State.takeAnswered (p : Answered → Bool) (s : State) : State :=
  match s.comp.answered.find? p with
  | some y => s.takeBack y
  | none => s

/-- CANCEL (R225, R228): a served sub-query ends at its next step boundary; what it has done, also for a list sent already, goes to the speculation
account. -/
def execCancel (s : State) : Host.Outcome State Fault Refusal :=
  .next (match s.takeMessage 0x13 [] with
    | none => s
    | some (x, s) =>
      s.wellFormed x (x.body.length == 16 && zeroField x.body 12 4) (fun s =>
        let id := field x.body 0 8
        let shard := field x.body 8 4
        let s := s.takeAnswered fun y => y.id == id && y.shard == shard && y.from_ == x.src
        match s.comp.served.find? fun y => y.id == id && y.shard == shard && y.from_ == x.src && y.root.isNone with
        | none => s
        | some y =>
          let s := s.cancelShards y
          let s := match s.flight (servedKey y.id y.shard) 0 with
            | some f => s.squashServed y f
            | none => s
          (s.noteAnswered y.id y.shard y.from_ y.tenant [] []).dropServed y))

/-- The merge that a mailbox and tag stand for: of a command's fabric-wide search, or of a sub-query that is served. -/
def State.mergeOf (m : Nat) (tag : Word) (s : State) : Option Served :=
  s.comp.served.find? fun y => y.root == some (m, tag) || (y.root.isNone && servedKey y.id y.shard == m)

/-- SUBQUERY_HEDGE (R217, R231, R232, R234): at the hedge point of a shard, or once its member does not serve it, its sub-query goes to one of its IN_SYNC
`replicas`; with none a shard that is not served is missing. A child with a subtree that may still answer is not hedged (DESIGN CHOICE, log entry 159). -/
def execSubqueryHedge (m : Mbx) (tag : Word) (shard : Nat) (replicas : List Half) (s : State) : Host.Outcome State Fault Refusal :=
  .next (match s.mergeOf m.key tag with
    | none => s
    | some x => match x.run.shards.find? (fun d => d.no == shard && !d.merged && !d.missing), s.comp.compositions.find x.run.composition with
      | some d, some k =>
        let point := d.sent + max (s.p95 x.run.composition d.node * 5 / 4) 150000
        let late := x.deadline != 0 && decide (x.deadline < 300000 + (s.fabTime + point - s.clock))
        let old := s.comp.dispatched.filter fun e => s.clock < e.1 + 10000000
        let hedged := (old.filter (·.2)).length
        if d.hedge.isSome then (if d.gone && d.hedgeGone then s.shardMissing x shard else s)
        else if !(d.gone || (point ≤ s.clock && !late && decide (d.covers.length ≤ 1))) then s
        else match s.hedgeReplica k d replicas with
          | none => if d.gone then s.shardMissing x shard else s
          | some r =>
            if 5 * (old.length - hedged) < 100 * (hedged + 1) then
              let s := s.chargeSpec x.tenant 0x38 1
              if d.gone then s.shardMissing x shard else s
            else
              let n := x.run.notices.find shard
              let (id, s) := s.freshSubq
              let body := subqueryHead { x with id := id } shard (1 + 2 * flag n.isSome) (n.getD (0, 0)).1 (n.getD (0, 0)).2 ++ x.plain
              let (s, ok) := s.sendFree r 0x10 (s.fabClass x.tenant) x.tenant body
              let s := s.updShard x shard fun e => { e with hedge := some r, hedgeId := id }
              if ok then ({ s with comp.dispatched := old ++ [(s.clock, true)] } : State).chargeSpec x.tenant 0x28 1
              else s.shardGone x shard true
      | _, _ => s)

/-- HEDGE_BIND_TIMEOUT (R233): the CSN a hedge was told to bind has not committed within 1 ms. -/
def execHedgeBindTimeout (id shard : Nat) (s : State) : Host.Outcome State Fault Refusal :=
  .next (match s.comp.served.find? fun y => y.id == id && y.shard == shard with
    | some x => match x.waitSince, s.flight (servedKey id shard) 0 with
      | some t, some f => if t + 1000000 ≤ s.clock && f.bound.isNone then s.declineHedge x else s
      | _, _ => s
    | none => s)

/-! ### Hedged refine reads (R234, R235, R420) -/

/-- Ask a replica for the records of read `i` (R235, Table 16-22): `old` are the reads of the last 10 ms, of which the hedge is one more. -/
def State.sendReadHedge (f : Flight) (i : Nat) (r : Read) (node shard : Nat) (old : List (Nat × Bool)) (s : State) : State :=
  let until_ := s.fabTime + (r.since + s.readBound r - s.clock)
  let ids := (List.range r.items.length).map fun i => s.nodeId + (s.comp.nextRead + i) * 65536
  let sent := (ids.zip r.items).foldl (fun (a : State × Bool) x =>
    let t := a.1.sendFree node 0x14 (a.1.fabClass f.tenant) f.tenant
      (hedgeMessage 1 0 r.area (r.collection % 2 ^ 32) x.1 x.2.1 x.2.2 shard until_ [])
    (t.1, a.2 && t.2)) (({ s with comp.nextRead := s.comp.nextRead + r.items.length, comp.readsIssued := old ++ [(s.clock, true)] } : State), true)
  let s := (sent.1.chargeSpec f.tenant 0x28 1).updFlight f.mbx f.tag fun g => { g with hedges := g.hedges + 1 }
  s.putReads f ((readsOf f).set i { r with hedge := some { node := node, ids := ids, failed := !sent.2 } })

/-- REFINE_READ_HEDGE (R234, R235): past its hedge point, a refine read at a channel is asked of an IN_SYNC replica; the p99 of a channel without a read in
the last second is not stated (free). -/
def execRefineReadHedge (m : Mbx) (tag : Word) (place : ReadAt) (s : State) : Host.Outcome State Fault Refusal :=
  .next (match s.flight m.key tag with
    | none => s
    | some f => match (readsOf f)[place.read]? with
      | none => s
      | some r => match s.coll r.collection with
        | none => s
        | some c => match c.replicas.find? (·.state == 1) with
          | none => s
          | some p =>
            let (free, s) := s.draw
            let p99 := (s.p99 place.channel.val).getD free
            let old := s.comp.readsIssued.filter fun e => s.clock < e.1 + 10000000
            let hedged := (old.filter (·.2)).length
            if !(r.tier == .flash && decide (r.area < 2) && r.hedge.isNone && r.lost.isNone && decide (r.since + max (2 * p99) 100000 ≤ s.clock)) then s
            else if 32 ≤ f.hedges ∨ 2 * (old.length - hedged) < 100 * (hedged + 1) then s.chargeSpec f.tenant 0x38 1
            else
              s.sendReadHedge f place.read r p.node ((s.comp.compositions.find c.composition).elim 0 fun k => k.shardOf s.nodeId) old)

/-- The layout of a hedged-read message (Table 16-22). -/
def hedgeFaultless (b : Bytes) : Bool :=
  let n := field b 0x24 4
  let k := field b 0 1
  48 ≤ b.length && b.length == 48 + n && decide (field b 2 1 < 2) && zeroField b 3 1 && (k == 2 || n == 0) &&
    (if k == 3 then [0x22, 0x23, 0x24, 0x26, 0x27].contains (field b 1 1) else field b 1 1 == 0)

/-- The status of Table 16-22 for a replica's own read. -/
def hedgeStatus : HedgeOutcome → Nat
  | .data => 0
  | .failed => 0x22
  | .late => 0x23
  | .damaged => 0x24

/-- A CANCEL of a hedged read (R225, R228): it takes a waiting READ away, or the charges of one that was answered. -/
def State.cancelHedgeRead (x : Inbound) (s : State) : State :=
  let hit (y : Inbound) : Bool := y.type == 0x14 && y.src == x.src && field y.body 0 1 == 1 && field y.body 8 8 == field x.body 8 8
  let n := (s.fabric.inbox.filter hit).length
  let s := { s with fabric.inbox := s.fabric.inbox.filter fun y => !hit y }
  let s := s.takeAnswered fun y => y.id == field x.body 8 8 && y.from_ == x.src
  if n = 0 then s else s.chargeSpec x.tenant 0x18 n

/-- HEDGE_READ (R228, R235, R420): a replica reads the record of a version and answers DATA or FAIL; a CANCEL takes a waiting READ away, or the charges of
one that was answered. Data is charged as what won, until a CANCEL says otherwise. The status of a
version it does not hold is not stated (free among Table 16-22's). -/
def execHedgeRead (outcome : HedgeOutcome) (s : State) : Host.Outcome State Fault Refusal :=
  .next (match s.takeMessage 0x14 [1, 4] with
    | none => s
    | some (x, s) =>
      let b := x.body
      s.wellFormed x (hedgeFaultless b) (fun s =>
        if field b 0 1 == 4 then s.cancelHedgeRead x
        else
          let key := field b 4 4 + 2 ^ 32 * (field b 0x20 4 + 1)
          let answer (kind st : Nat) (data : Bytes) (s : State) : State := (s.sendFree x.src 0x14 x.cls x.tenant
            (hedgeMessage kind st (field b 2 1) (field b 4 4) (field b 8 8) (field b 0x10 8) (field b 0x18 8) (field b 0x20 4) (field b 0x28 8) data)).1
          match s.coll key with
          | none => s.partnerViolation x.port x.src
          | some c =>
            if c.availability == .keyLost || s.zeroisingColl key then answer 3 0x27 [] s
            else match c.versions.find? fun v => v.id == field b 0x10 8 && v.ins == field b 0x18 8 with
              | none =>
                let (n, s) := s.draw
                answer 3 ([0x22, 0x23, 0x24, 0x26, 0x27].getD (n % 5) 0x22) [] s
              | some v =>
                if outcome == .data || v.staged then
                  let data := if field b 2 1 == 0 then v.refine else v.vector
                  let cost := (if v.staged then [] else [(0x38, 1)]) ++ sendCost (48 + data.length)
                  answer 2 0 data ((s.chargeAll x.tenant cost).noteAnswered (field b 8 8) (field b 0x20 4) x.src x.tenant cost [])
                else answer 3 (hedgeStatus outcome) [] s)
    )

/-- HEDGE_DATA (R235): a replica's answer is used if it comes first; when it fails, the original read alone is awaited, and with both failed the command
ends by the original's outcome. -/
def execHedgeData (s : State) : Host.Outcome State Fault Refusal :=
  .next (match s.takeMessage 0x14 [2, 3] with
    | none => s
    | some (x, s) =>
      let b := x.body
      let id := field b 8 8
      let mine (r : Read) : Bool := r.hedge.any fun h => h.node == x.src && h.ids.contains id
      s.wellFormed x (hedgeFaultless b && s.ownPastId id s.comp.nextRead) (fun s =>
        match s.host.flights.find? fun f => (readsOf f).any mine with
        | none => s
        | some f =>
          let i := (readsOf f).findIdx mine
          match (readsOf f)[i]? with
          | none => s
          | some r =>
            let h := r.hedge.getD { node := 0, ids := [] }
            if field b 0 1 == 2 then
              let ids := h.ids.filter (· != id)
              let s := s.putReads f ((readsOf f).set i { r with hedge := some { h with ids := ids } })
              if ids.isEmpty && !h.failed then s.again f (fun f s => s.hedgeWon f i) else s
            else
              let s := s.log { seq := 0, time := 0, kind := 4, status := field b 1 1, tenant := f.tenant, opcode := f.opcode.toNat, tag := f.tag, detail := x.src }
              let s := s.putReads f ((readsOf f).set i { r with hedge := some { h with failed := true } })
              match r.lost with
              | some st => s.again f (fun f s => s.readLost f i st)
              | none => s))

end Sys2Proof.Machine
end

