-- ==== Sys2Proof/Machine/Generate.lean ====
section
/-!
DEFINITION. GENERATE and its token steps: the prompt, the choice of a token, stop strings, what is released and when, and how the command
ends (R297, R301, R302, R316–R319, R321, R322).
-/
namespace Sys2Proof.Machine

/-- The caller is of class Sprint (R318). -/
def State.isSprint (t : Nat) (s : State) : Bool := (s.tenants.config.find t).any (·.cls == 0)

/-- Stop strings from packet offset `o` on (R317): LEN 1–64 and valid UTF-8. -/
def readStops : Nat → Nat → Bytes → Except Detail (List Bytes)
  | 0, _, _ => .ok []
  | n + 1, o, b => do
    let k := field b 0 1
    need (1 ≤ k && k ≤ 64) (bad o)
    need (zeroField b 1 7) (bad (o + 1))
    need (utf8Valid (slice b 8 k)) (bad (o + 8))
    let t ← readStops n (o + 72) (b.drop 72)
    return slice b 8 k :: t

/-- The field checks of Table 11-8. -/
def genFields (f : Flight) : List (Nat × Bool) :=
  let b := f.plain
  let seeded := field b 0xF 1 == 1
  let temp := BitVec.ofNat 32 (field b 0x18 4)
  let p := field b 0x14 4
  [(0x0C, hdrStream f.hdr || field b 0xC 2 == 0), (0x0E, decide (field b 0xE 1 < 2)), (0x0F, decide (field b 0xF 1 < 2)),
   (0x10, 1 ≤ field b 0x10 4 && field b 0x10 4 ≤ 32768), (0x14, 1 ≤ p && p ≤ 16777000 && (field b 0xE 1 == 0 || p % 4 == 0)),
   (0x18, if seeded then f32Finite temp && f32Lt f32Zero temp else temp == 0),
   (0x1C, if seeded then 1 ≤ field b 0x1C 2 && field b 0x1C 2 ≤ 256 else field b 0x1C 2 == 0), (0x1E, decide (field b 0x1E 1 ≤ 8)),
   (0x1F, zeroField b 0x1F 1),
   (0x28, field b 0x28 4 == 0 || (100 ≤ field b 0x28 4 && field b 0x28 4 ≤ 600000000)), (0x2C, zeroField b 0x2C 4)]

/-- The grammar a GENERATE binds; none for handle 0 (R322). -/
def State.bindGrammar (eos : Nat) (f : Flight) (s : State) : Except Detail (Option Generation × State) :=
  let h := field f.plain 8 4
  if h = 0 then .ok (none, s)
  else do
    let (g, s) ← s.bindGen .grammar 0x28 h f
    need (eos != none32) (bad 0x28)
    return (some g, s)

/-- The tokens a decoder has so far (R301). -/
def genSequence (h : ModelHeader) (r : GenRun) : List Nat := (if h.cls == none32 then [] else [h.cls]) ++ r.prompt ++ r.out

/-- GENERATE (R301): the prompt is tokenised, pages are reserved, and the prefill runs; tokens follow step by step. -/
def execGenerate (m : Mbx) (tag : Word) (s : State) : Host.Outcome State Fault Refusal :=
  .next (s.start 0x4012 m tag fun f s => do
    let b := f.plain
    opening f 48 16777216
    fields (genFields f)
    let p := field b 0x14 4
    let n := field b 0x1E 1
    let at_ := 48 + (p + 7) / 8 * 8
    need (b.length == at_ + 72 * n) (bad 0x0C)
    need (zeroField b (48 + p) ((8 - p % 8) % 8)) (bad (0x20 + 48 + p))
    let stops ← readStops n (0x20 + at_) (b.drop at_)
    let str ← s.streamField 0x2C (field b 0xC 2) f
    let (g, s) ← s.bindGen .model 0x20 (field b 0 4) f
    let (v, s) ← s.bindGen .vocab 0x24 (field b 4 4) f
    let h := readModelHeader g.image
    let (gr, s) ← s.bindGrammar h.eos f
    need (h.kind == 2) (bad 0x20)
    need (vocabMatches g.image v.image) (bad 0x24)
    let ids := field b 0xE 1 == 1
    let toks := inputTokens v.image ids (slice b 48 p)
    need (decide (toks.1.length + field b 0x10 4 ≤ h.maxSeq)) (bad 0x30)
    let us := field b 0x28 4
    let s := s.updFlight f.mbx f.tag fun x => { x with deadline := if us = 0 then none else some (f.arrival + us * 1000) }
    s.withWeights g f (zeros 16) (fun s => s.withCrew h.crewClass 0 f (fun s => do
      let s ← s.reserveKv f h [toks.1.length + field b 0x10 4]
      let s := ((if ids then s else s.chargeText f.tenant [toks]).chargeTiles f.tenant)
      let run : GenRun := {
        model := (g.handle, g.gen), vocab := (v.handle, v.gen), grammar := match gr with | some x => (x.handle, x.gen) | none => (0, 0)
        prompt := toks.1, conf := match gr with | some x => (field x.image 0x10 2, []) | none => (0, []), stops := stops
        stream := str.map (·.1), sprint := s.isSprint f.tenant }
      return (s.stage f (passItems g.image [(genSequence h run).length])).setWork f (.generate run))))

/-! ### The choice of a token (R301) -/

/-- SplitMix64's finaliser (R301, R326). -/
def mix64 (z : Quad) : Quad :=
  let z := (z ^^^ (z >>> 30)) * 0xBF58476D1CE4E5B9#64
  let z := (z ^^^ (z >>> 27)) * 0x94D049BB133111EB#64
  z ^^^ (z >>> 31)

/-- u of token `n`: a multiple of 2^−24 below 1. -/
def sampleU (seed n : Nat) : Fp :=
  .fin false (mix64 (BitVec.ofNat 64 (seed + n + 0x9E3779B97F4A7C15)) >>> 40).toNat (-24)

/-- Order of candidates: the greater logit first, ties to the lower token. -/
def candBefore (a b : Nat × Word) : Bool :=
  decide (f32Order b.2 < f32Order a.2) || (f32Order a.2 == f32Order b.2 && decide (a.1 ≤ b.1))

/-- The best `k` of the allowed tokens. -/
def candidates (k : Nat) (l : List (Nat × Word)) : List (Nat × Word) := (sortBy l candBefore).take k

/-- Running FP32 sums. -/
def runningSums : Word → List Word → List Word
  | _, [] => []
  | a, x :: t => f32Add a x :: runningSums (f32Add a x) t

/-- The candidate a seeded choice picks; none where a NaN leaves no running sum that reaches the target. -/
def samplePick (seed n : Nat) (temp : Word) (c : List (Nat × Word)) : Option Nat :=
  let top := f32 ((c.headD (0, f32Zero)).2)
  let w := c.map fun x => f32Exp (fpDiv32 (fpAdd (f32 x.2) (fpNeg top)) (f32 temp))
  let sums := runningSums f32Zero w
  let target := toF32 (fpMul (sampleU seed n) (f32 (sums.getLastD f32Zero)))
  ((c.zip sums).find? fun x => f32Le target x.2).map (·.1.1)

/-- The tokens the bound grammar permits, of all that have a logit. -/
def permitted (gr : Option Bytes) (vocab : Bytes) (eos : Nat) (conf : GrammarConf) (logits : List Word) : List (Nat × Word) :=
  (logits.mapIdx fun i w => (i, w)).filter fun x => match gr with
    | some g => grammarAllows g vocab eos conf x.1
    | none => true

/-! ### Text (R314, R316–R319) -/

/-- What stands for a replaced subpart while it must be told from a U+FFFD of the text. -/
def replacedMark : Nat := 0x110000

/-- The characters of the tokens' bytes, replaced subparts marked, and the incomplete character at the end. -/
def genChars (vocab : Bytes) (out : List Nat) : List Nat × Bytes :=
  let b := out.flatMap (tokenBytes vocab)
  let d := utf8From replacedMark (b.length + 1) b [] 0
  (d.chars, d.tail)

/-- A marked character as text. -/
def unmark (c : Nat) : Nat := if c == replacedMark then replacement else c

/-- The bytes of marked characters. -/
def markedBytes (l : List Nat) : Bytes := utf8Bytes (l.map unmark)

/-- A replaced character begins among the bytes [lo, hi) of the text. -/
def replacedIn (lo hi : Nat) : Nat → List Nat → Bool
  | _, [] => false
  | o, c :: t => (c == replacedMark && lo ≤ o && decide (o < hi)) || replacedIn lo hi (o + (utf8Encode (unmark c)).length) t

/-- The payload of a text record (Table 12-5). -/
def textRecord (r : GenRun) (flags trim : Nat) (text : Bytes) : Bytes :=
  leBytes 4 r.covered ++ leBytes 2 (r.out.length - r.covered) ++ leBytes 1 flags ++ leBytes 1 trim ++ leBytes 4 text.length ++ zeros 4 ++ text

/-- Queue a text record. -/
def State.textOut (f : Flight) (st : Nat) (payload : Bytes) (last : Bool) (s : State) : State :=
  s.updStream st fun x => { x with
    waiting := x.waiting ++
      [{ tag := f.tag, mbx := f.mbx, tenant := f.hdr.tenant, opcode := f.hdr.opcode, session := f.hdr.session, csn := f.bound.getD 0
         payload := payload, last := last, aborted := false, since := s.clock }] }

/-- A stream lacks room for the record that waits at its front (R60). -/
def State.streamLacks (st : Nat) (s : State) : Bool :=
  match s.host.streams.find st with
  | some x => match x.waiting with | r :: _ => !streamRoom x r | [] => false
  | none => false

/-- End a GENERATE (R302, R319): its whole text is `chars`, cut at `cut` bytes where a stop string ended it. Streamed, the final record
releases what was held, unless the stream lacks room; unstreamed, the text follows the head. -/
def State.genEnd (f : Flight) (r : GenRun) (st : Status) (chars : List Nat) (cut : Option Nat) (s : State) : State :=
  let all := markedBytes chars
  let text := match cut with | some n => all.take n | none => all
  match r.stream with
  | some n =>
    if (s.host.streams.find n).isNone then s.answer f st (genHead r 0)
    else if s.streamLacks n then (s.abortStreams f).answer f st (genHead r 0)
    else
      let new := text.drop r.released
      let flags := flag cut.isSome + 2 + 4 * flag (replacedIn r.released text.length 0 chars)
      (s.textOut f n (textRecord r flags (r.released - text.length) new) true).setWork f (.streaming n st (some (genHead r 0)))
  | none =>
    let room := s.rspPlain f.mbx - 16
    if text.length ≤ room then s.answer f st (genHead r text.length ++ text)
    else
      let fit := utf8Bytes (fitChars room ((utf8Decode text).chars))
      s.answer f .doneTruncated (genHead r fit.length ++ fit)

/-- End a GENERATE that no stop string ended: what was held is released, an incomplete character as U+FFFD (R319). -/
def State.genStop (f : Flight) (r : GenRun) (st : Status) (s : State) : State :=
  let v := (s.generation .vocab r.vocab.1 r.vocab.2).elim [] (·.image)
  let d := genChars v r.out
  s.genEnd f r st (if d.2.isEmpty then d.1 else d.1 ++ [replacedMark]) none

/-- A token has been chosen and is not EOS: it is output; its text is matched and released, or the command ends (R302, R316–R318). -/
def State.genToken (f : Flight) (r : GenRun) (vocab : Bytes) (s : State) : State :=
  let s := s.charge f.tenant 0x78 1
  let d := genChars vocab r.out
  match stopAt r.stops [] 0 (d.1.map unmark) with
  | some (n, cut) => s.genEnd f r .stopped (d.1.take n) (some cut)
  | none =>
    let text := markedBytes d.1
    let avail := if r.sprint then text.length else text.length - stopHold r.stops text
    if field f.plain 0x10 4 ≤ r.out.length then s.genStop f r .done
    else if s.power.season == .drain then s.genStop f r .stopped
    else match r.stream with
      | some n =>
        if avail ≤ r.released then s.setWork f (.generate r)
        else
          let new := (text.take avail).drop r.released
          (s.textOut f n (textRecord r (4 * flag (replacedIn r.released avail 0 d.1)) 0 new) false).setWork f
            (.generate { r with released := avail, covered := r.out.length })
      | none => s.setWork f (.generate { r with released := avail, covered := r.out.length })

/-- Choose the next token (R301) and go on, or end. -/
def State.genStep (f : Flight) (r : GenRun) (g v : Generation) (gr : Option Bytes) (s : State) : State :=
  let h := readModelHeader g.image
  let p := nextLogits g.image (genSequence h r)
  let all := permitted gr v.image h.eos r.conf p.1
  let ok := all.filter fun x => !f32IsNan x.2
  let r := { r with nans := r.nans + (all.length - ok.length), nanRows := p.2 }
  let s := s.chargeTiles f.tenant
  if all.isEmpty then s.genStop f r .grammarDeadEnd
  else if ok.isEmpty then s.genStop f r .stopped
  else
    let seeded := field f.plain 0xF 1 == 1
    let c := candidates (if seeded then field f.plain 0x1C 2 else 1) ok
    let (k, s) := s.draw
    let t := if seeded then
        (samplePick (field f.plain 0x20 8) r.out.length (BitVec.ofNat 32 (field f.plain 0x18 4)) c).getD ((c.getD (k % c.length) (0, f32Zero)).1)
      else (c.headD (0, f32Zero)).1
    let s := s.stage f (passItems g.image [1])
    if t == h.eos then s.genStop f r .done
    else s.genToken f { r with out := r.out ++ [t], conf := match gr with | some x => grammarStep x v.image r.conf t | none => r.conf } v.image

/-- GENERATE_TOKEN_STEP (R301): a step waits while its stream lacks room (R60) and while a damaged weight run is being rewritten, and a run
whose flash copy failed ends the command DATA_DAMAGED, as a page table entry of another sequence does (R296, R298). -/
def execGenerateTokenStep (m : Mbx) (tag : Word) (s : State) : Host.Outcome State Fault Refusal :=
  .next (match s.flight m.key tag with
    | some f => match f.work with
      | .generate r =>
        match s.generation .model r.model.1 r.model.2, s.generation .vocab r.vocab.1 r.vocab.2 with
        | some g, some v =>
          if !s.serving || r.stream.any (fun n => s.streamLacks n) then s
          else if g.damaged.any (·.2) then (s.abortStreams f).answer f .dataDamaged (genHead r 0)
          else if !g.damaged.isEmpty then s
          else match s.throughPages f (genSequence (readModelHeader g.image) r).length with
            | none => (s.abortStreams f).answer f .dataDamaged (genHead r 0)
            | some s => s.genStep f r g v (if r.grammar.2 = 0 then none else (s.generation .grammar r.grammar.1 r.grammar.2).map (·.image))
        | _, _ => s
      | _ => s
    | none => s)

end Sys2Proof.Machine
end

