-- ==== Sys2Proof/Machine/SelectCommands.lean ====
section
/-!
DEFINITION. SELECT_TOPK and MERGE_PARTIAL (R210–R213).
-/
namespace Sys2Proof.Machine

/-! ### SELECT_TOPK and MERGE_PARTIAL (R210–R213) -/

/-- A crew of 1 tile for K ≤ 256 and of 4 otherwise, of the first class of KIND 3; where none is free the answer is BUSY_RETRY with hint 20
(R213, Table 7-7). -/
def State.selectionCrew (k : Nat) (f : Flight) (go : State → Except Detail State) (s : State) : Except Detail State :=
  s.withCrew ((s.crewOfKind 3).getD 0) (selectionPages k (decide (256 < k)) false) f go (if k ≤ 256 then 1 else 4)

/-- Answer a selection (R207, R208, R212): `l` its valid entries in arrival order. -/
def State.answerSelection (f : Flight) (str : Option (Nat × Stream)) (k : Nat) (pad : Bool) (nans input : Nat) (l : List Entry) (s : State) :
    State :=
  let g := runStage k l
  let kth := (g.list.getLastD { id := 0, key := 0 }).key
  let ties := if g.list.length < k then 0 else ((reduceAll l).filter (·.key == kth)).length - (g.list.filter (·.key == kth)).length
  let short := decide (g.list.length < k)
  let out := g.list.map entryOf ++ (if pad then List.replicate (k - g.list.length) padEntry else [])
  let head (n : Nat) : Bytes :=
    let v := min n g.list.length
    leBytes 4 n ++ leBytes 4 (n - v) ++ leBytes 4 nans ++ leBytes 4 g.dups ++
      leBytes 4 (((g.list.take v).getLastD { id := 0, key := 0 }).key) ++ leBytes 4 ties ++ leBytes 4 input ++ zeros 4
  (s.chargeTiles f.tenant).giveEntries f str (if short then .doneUnderfull else .done) head out

/-- The field checks of the head of Table 7-5; `flags` bounds FLAGS and `count` COUNT or LISTS. -/
def selectFields (f : Flight) (flags count : Nat) : List (Nat × Bool) :=
  let b := f.plain
  [(0, 1 ≤ field b 0 2 && field b 0 2 ≤ 16384), (2, decide (field b 2 2 < flags)), (4, 1 ≤ field b 4 4 && field b 4 4 ≤ count),
   (8, hdrStream f.hdr || field b 8 2 == 0), (10, zeroField b 10 6)]

/-- Check the input entries of SELECT_TOPK from packet offset `o` on (R210). -/
def checkInputs : Nat → Nat → Bytes → Except Detail Unit
  | 0, _, _ => .ok ()
  | n + 1, o, b => do
    need (field b 0 8 != padId) (bad o)
    need (zeroField b 12 4) (bad (o + 12))
    checkInputs n (o + 16) (b.drop 16)

/-- SELECT_TOPK (R210, R212). -/
def execSelectTopk (m : Mbx) (tag : Word) (s : State) : Host.Outcome State Fault Refusal :=
  .next (s.start 0x3010 m tag fun f s => do
    let b := f.plain
    opening f 16 16000016
    fields (selectFields f 4 1000000)
    let n := field b 4 4
    need (b.length == 16 + 16 * n) (bad 0x0C)
    checkInputs n 0x30 (b.drop 16)
    let str ← s.streamField 0x28 (field b 8 2) f
    let k := field b 0 2
    let rows := (records 16 n (b.drop 16)).map fun r => (field r 0 8, BitVec.ofNat 32 (field r 8 4))
    let ok := rows.filter fun r => !f32IsNan r.2
    let min_ := bit (field b 2 2) 1
    let l := ok.map fun r => ({ id := r.1, key := scoreKey (if min_ then r.2 ^^^ 0x80000000#32 else r.2), node := s.nodeId } : Entry)
    s.selectionCrew k f (fun s => .ok (s.answerSelection f str k (bit (field b 2 2) 0) (n - ok.length) n l)))

/-- Read the entries of a partial list given to MERGE_PARTIAL (R211): padding is ignored, NaN keys are dropped and counted, −0 is folded. -/
def readMerged : Nat → Nat → Bytes → Except Detail (List Entry × Nat)
  | 0, _, _ => .ok ([], 0)
  | n + 1, o, b => do
    let e := readEntry 16 b
    need (e.id != padId || zeroField b 8 8) (bad o)
    need (e.id == padId || decide (field b 0xE 2 < 4)) (bad (o + 0xE))
    let r ← readMerged n (o + 16) (b.drop 16)
    if e.id == padId then return r
    else if e.key == 0x7FFFFFFF then return ({ e with key := 0x80000000 } :: r.1, r.2)
    else if nanKey e.key then return (r.1, r.2 + 1)
    else return (e :: r.1, r.2)

/-- Read the partial lists of MERGE_PARTIAL from packet offset `o` on: entries, NaN keys, and entries read. -/
def readLists : Nat → Nat → Nat → Bytes → Except Detail (List Entry × Nat × Nat)
  | 0, o, _, b => if b.isEmpty then .ok ([], 0, 0) else .error (bad o)
  | n + 1, o, seen, b => do
    let c := field b 0 4
    need (48 ≤ b.length) (bad o)
    need (decide (c ≤ field b 4 2) && decide (seen + c ≤ 1000000)) (bad o)
    need (1 ≤ field b 4 2 && field b 4 2 ≤ 16384) (bad (o + 4))
    need (field b 6 2 == 16) (bad (o + 6))
    need (zeroField b 0xC 2) (bad (o + 0xC))
    need (zeroField b 0xE 2) (bad (o + 0xE))
    need (decide (field b 0x2C 2 < 4)) (bad (o + 0x2C))
    need (zeroField b 0x2E 2) (bad (o + 0x2E))
    need (decide (48 + 16 * c ≤ b.length)) (bad o)
    let r ← readMerged c (o + 48) (b.drop 48)
    let t ← readLists n (o + 48 + 16 * c) (seen + c) (b.drop (48 + 16 * c))
    return (r.1 ++ t.1, r.2 + t.2.1, c + t.2.2)

/-- MERGE_PARTIAL (R211, R212). -/
def execMergePartial (m : Mbx) (tag : Word) (s : State) : Host.Outcome State Fault Refusal :=
  .next (s.start 0x3011 m tag fun f s => do
    let b := f.plain
    opening f 16 16777216
    fields (selectFields f 2 4096)
    let r ← readLists (field b 4 4) 0x30 0 (b.drop 16)
    let str ← s.streamField 0x28 (field b 8 2) f
    let k := field b 0 2
    s.selectionCrew k f (fun s => .ok (s.answerSelection f str k (bit (field b 2 2) 0) r.2.1 r.2.2 r.1)))

end Sys2Proof.Machine
end

