-- ==== Sys2Proof/Machine/TableOps.lean ====
section
/-!
DEFINITION. Feature tables: rows and their values, keys, blocks, the updates of a step, skew and moves (R324–R328, R332, R334).
-/
namespace Sys2Proof.Machine

/-! ### Rows (R325) -/

/-- Bytes of a stored element. -/
def rowElemBytes (d : TableDesc) : Nat := elementBits d.format / 8

/-- RB: the bytes of a stored row (R325). -/
def rowSize (d : TableDesc) : Nat := 64 * ((16 + d.dim * rowElemBytes d + 63) / 64)

/-- A descriptor's fields (Table 13-1). -/
def readTableDesc (b : Bytes) : TableDesc where
  composition := field b 4 4
  dim := field b 8 2
  format := field b 0xA 1
  store := field b 0xB 1
  rowsLog2 := field b 0xC 1
  rLog2 := field b 0xD 1
  combine := field b 0xE 1
  update := field b 0xF 1
  seed := field b 0x10 8
  migratePct := field b 0x18 1

/-- The descriptor's bytes, as CREATE carries them (Table 16-24). -/
def tableDescBytes (id : Nat) (d : TableDesc) : Bytes :=
  leBytes 4 id ++ leBytes 4 d.composition ++ leBytes 2 d.dim ++ leBytes 1 d.format ++ leBytes 1 d.store ++ leBytes 1 d.rowsLog2 ++
    leBytes 1 d.rLog2 ++ leBytes 1 d.combine ++ leBytes 1 d.update ++ leBytes 8 d.seed ++ leBytes 1 d.migratePct ++ zeros 39

/-- The codes of a row's elements. -/
def Row.codes (d : TableDesc) (r : Row) : List Nat := if r.elems.isEmpty then List.replicate d.dim 0 else r.elems

/-- The stored row (Table 13-2). -/
def rowBytes (d : TableDesc) (r : Row) : Bytes :=
  let b := leBytes 8 r.lastStep ++ leBytes 4 r.scale.toNat ++ zeros 4 ++ (r.codes d).flatMap (leBytes (rowElemBytes d))
  b ++ zeros (rowSize d - b.length)

/-- A row from its stored bytes. -/
def readRow (d : TableDesc) (b : Bytes) : Row where
  lastStep := field b 0 8
  scale := BitVec.ofNat 32 (field b 8 4)
  elems := (records (rowElemBytes d) d.dim (b.drop 16)).map leNat

/-- The floating-point format of a table's elements. -/
def rowFormat (d : TableDesc) : FpFormat := if d.format == 0 then fp32 else if d.format == 1 then bf16 else fp8e4m3

/-- The values of a row's elements in FP32 (R325). -/
def rowValues (d : TableDesc) (r : Row) : List Word :=
  (r.codes d).map fun c =>
    if d.format == 4 then f32Mul r.scale (f32OfInt (signed 8 c)) else toF32 (fpDecode (rowFormat d) c)

/-- The value of a composed key, element by element (R326). -/
def composeRows (d : TableDesc) (q r : List Word) : List Word := List.zipWith (if d.combine == 0 then f32Add else f32Mul) q r

/-- An FP32 value that is not finite becomes the largest finite one of its sign (R332). -/
def finiteF32 (w : Word) : Word := if f32Finite w then w else if w.getLsbD 31 then 0xFF7FFFFF#32 else 0x7F7FFFFF#32

/-- Store values in a row's format (R260, R266, R332); `saturate` after an ADD: elements that are not finite take the largest finite value, and
are counted. -/
def storeValues (d : TableDesc) (saturate : Bool) (v : List Word) : Word × List Nat × Nat :=
  let w := if saturate then v.map finiteF32 else v
  if d.format == 4 then
    let s := tokenScale 0x42FE0000#32 false w
    (s, (tokenCodes 127 s w).map (codeField 8), if saturate then (v.filter fun x => !f32Finite x).length else 0)
  else
    let f := rowFormat d
    let codes := w.map fun x => fpEncode f (f32 x)
    let finite (c : Nat) : Bool := match fpDecode f c with | .fin _ _ _ => true | _ => false
    let fix (x : Word) (c : Nat) : Nat := if saturate && !finite c then flag (x.getLsbD 31) * 2 ^ (f.expBits + f.fracBits) + fpMaxCode f else c
    (0, List.zipWith fix w codes,
      if saturate then ((v.zip codes).filter fun x => !f32Finite x.1 || !finite x.2).length else 0)

/-- Apply the updates of one step that reach a row, in the order of R332; with the elements that saturated. -/
def applyRow (d : TableDesc) (step : Nat) (r : Row) (us : List RowUpdate) : Row × Nat :=
  let before (a b : RowUpdate) : Bool :=
    decide (a.issuer < b.issuer) || (a.issuer == b.issuer && (decide (a.seq < b.seq) || (a.seq == b.seq && decide (a.index ≤ b.index))))
  let us := sortBy us before
  if d.update == 0 then
    let x := storeValues d false ((us.map (·.delta)).getLastD [])
    ({ lastStep := step, scale := x.1, elems := x.2.1 }, 0)
  else if r.poisoned then (r, 0)
  else
    let x := storeValues d true (us.foldl (fun acc u => List.zipWith f32Add acc u.delta) (rowValues d r))
    ({ lastStep := step, scale := x.1, elems := x.2.1 }, x.2.2)

/-! ### Keys and blocks (R326, R328) -/

/-- h(k) (R326). -/
def tableHash (d : TableDesc) (k : Nat) : Nat := (mix64 (BitVec.ofNat 64 (Nat.xor k d.seed + 0x9E3779B97F4A7C15))).toNat

/-- The row of a key in one part: 0 the table's own row, 1 the Q part's, 2 the R part's (R326, R331). -/
def keyRow (d : TableDesc) (part k : Nat) : Nat :=
  if part = 2 then tableHash d k % 2 ^ d.rLog2
  else if d.store = 0 then k
  else tableHash d k / 2 ^ (64 - d.rowsLog2)

/-- The parts whose rows give a key's value. -/
def keyParts (d : TableDesc) : List Nat := if d.store = 2 then [1, 2] else [0]

/-- A key is in a table's range: only DIRECT bounds it (R326). -/
def keyOk (d : TableDesc) (k : Nat) : Bool := d.store != 0 || decide (k < 2 ^ d.rowsLog2)

/-- The block of a row (R328). -/
def blockOf (row : Nat) : Nat := row / 4096

/-- The home of a block: under version 1 the member at B mod m, then where moves have put it (R328, R334). -/
def Table.home (t : Table) (self block : Nat) : Nat :=
  if t.members.isEmpty then self else t.blocks.getD block (t.members.getD (block % t.members.length) 0)

/-- The coordinator of a table: the lowest member (R328). -/
def Table.coordinator (t : Table) (self : Nat) : Nat := t.members.headD self

/-- The other members. -/
def Table.others (t : Table) (self : Nat) : List Nat := t.members.filter (· != self)

/-- Bytes of one block. -/
def blockBytes (d : TableDesc) : Nat := min 4096 (2 ^ d.rowsLog2) * rowSize d

/-- Bytes that member `i` of `m` reserves (R327); `m` 0 for a module-local table. -/
def tableReserve (d : TableDesc) (m i : Nat) : Nat :=
  let r := if d.store = 2 then 2 ^ d.rLog2 * rowSize d else 0
  if m = 0 then 2 ^ d.rowsLog2 * rowSize d + r
  else
    let blocks := (2 ^ d.rowsLog2 + 4095) / 4096
    ((blocks + m - 1 - i) / m + 64) * blockBytes d + r

/-- A row that this module holds. -/
def Table.row (t : Table) (part row : Nat) : Row := (if part = 2 then t.rrows else t.rows).getD row {}

/-- A row can be read here in a step: the step is current, and the block is at home and has been received (R330, R334). -/
def Table.ready (t : Table) (self step part row : Nat) : Bool :=
  t.step == step && (part == 2 || (t.home self (blockOf row) == self && !t.incoming.contains (blockOf row)))

/-- Apply the buffered updates of the current step to the rows held here (R330, R332), with the elements that saturated. -/
def Table.applyStep (t : Table) : Table × Nat :=
  let mine := t.buffer.filter (·.step == t.step)
  let rest := t.buffer.filter (·.step != t.step)
  ((mine.map fun u => (u.part == 2, u.row)).eraseDups).foldl (fun (a : Table × Nat) k =>
    let us := mine.filter fun u => (u.part == 2) == k.1 && u.row == k.2
    let r := applyRow t.desc t.step (a.1.row (if k.1 then 2 else 0) k.2) us
    (if k.1 then { a.1 with rrows := a.1.rrows.put k.2 r.1 } else { a.1 with rows := a.1.rows.put k.2 r.1 }, a.2 + r.2))
    ({ t with buffer := rest }, 0)

/-! ### Windows, skew and moves (R334) -/

/-- Note the time: a window of 1 s that has ended is closed. -/
def Table.roll (t : Table) (now : Nat) : Table :=
  let w := now / 1000000000
  if w = t.window then t
  else { t with window := w, closed := some (if w = t.window + 1 then t.counts else []), counts := [] }

/-- Count lookups served of a block. -/
def Table.count (t : Table) (now : Nat) (parts : List (Nat × Nat)) : Table :=
  parts.foldl (fun t p => if p.1 = 2 then t else { t with counts := t.counts.put (blockOf p.2) (t.counts.getD (blockOf p.2) 0 + 1) }) (t.roll now)

/-- The load of a member. -/
def memberLoad (l : List (Nat × Nat × Nat)) (n : Nat) : Nat := ((l.filter (·.1 == n)).map (·.2.2)).sum

/-- The largest shard load times the members, and the total: their quotient is the skew. -/
def skewOf (members : List Nat) (l : List (Nat × Nat × Nat)) : Nat × Nat :=
  (((members.map (memberLoad l)).foldl max 0) * members.length, (members.map (memberLoad l)).sum)

/-- Skew exceeds 1 + pct / 100. -/
def overSkew (pct : Nat) (members : List Nat) (l : List (Nat × Nat × Nat)) : Bool :=
  let k := skewOf members l
  decide ((100 + pct) * k.2 < 100 * k.1)

/-- The member with the most load, or the least, ties to the lower node ID. -/
def extremeMember (most : Bool) (members : List Nat) (l : List (Nat × Nat × Nat)) : Nat :=
  members.foldl (fun a n => if (if most then memberLoad l a < memberLoad l n else memberLoad l n < memberLoad l a) then n else a) (members.headD 0)

/-- The hottest block of a member, ties to the lower number. -/
def hottestBlock (n : Nat) (l : List (Nat × Nat × Nat)) : Option (Nat × Nat) :=
  (l.filter (·.1 == n)).foldl (fun a x =>
    match a with
    | none => some x.2
    | some y => if y.2 < x.2.2 ∨ (y.2 = x.2.2 ∧ x.2.1 < y.1) then some x.2 else some y) none

/-- The moves of a close, at most `k` (R334): block and new home. -/
def chooseMoves (pct : Nat) (members : List Nat) : Nat → List (Nat × Nat × Nat) → List (Nat × Nat)
  | 0, _ => []
  | k + 1, l =>
    let hot := extremeMember true members l
    let cool := extremeMember false members l
    match hottestBlock hot l with
    | some (b, c) =>
      if overSkew pct members l && hot != cool then
        (b, cool) :: chooseMoves pct members k ((cool, b, c) :: l.filter fun x => !(x.1 == hot && x.2.1 == b))
      else []
    | none => []

/-- The moves the coordinator makes at this close, with the count of windows over the threshold as it then stands (R334, R335). -/
def Table.evaluate (t : Table) : List (Nat × Nat) × Nat :=
  let windows := if t.closed.isNone then t.overWindows else if overSkew t.desc.migratePct t.members t.loads then t.overWindows + 1 else 0
  if t.forced || (t.desc.migratePct != 0 && t.closed.isSome && decide (3 ≤ windows)) then (chooseMoves t.desc.migratePct t.members 64 t.loads, 0)
  else ([], windows)

/-! ### Finding tables and the commands on them -/

/-- A table that exists. -/
def State.table (id : Nat) (s : State) : Option Table := (s.tables.tables.find id).filter (·.creating.isNone)

/-- Change a table. -/
def State.updTable (id : Nat) (g : Table → Table) (s : State) : State := { s with tables.tables := s.tables.tables.upd id g }

/-- The bytes that tables have reserved of their region. -/
def State.tableBytes (s : State) : Nat := (s.tables.tables.vals.map (·.reserved)).sum

/-- Free bytes of the feature-table region. -/
def State.tableFree (s : State) : Nat :=
  (kindRegion s.placeImage 4).elim 0 (fun r => regionMib (regionOf s.placeImage r) * 1048576) - s.tableBytes

/-- A command in flight is a lookup or an update of a table. -/
def usesTable (id : Nat) (f : Flight) : Bool := (f.opcode.toNat == 0x5010 || f.opcode.toNat == 0x5011) && field f.plain 0 4 == id

/-- Commands of the current step, admitted here, are still in flight. -/
def State.stepBusy (t : Table) (s : State) : Bool := s.host.flights.any fun f => usesTable t.id f && field f.plain 4 8 == t.step

/-- Commands in flight that were admitted before the table's TABLE_DROP. -/
def State.beforeDrop (t : Table) (s : State) : List Flight :=
  match t.dropping with
  | some (m, tag) => if m == noCommand then [] else s.host.flights.takeWhile fun f => !(f.mbx == m && f.tag == tag)
  | none => s.host.flights

/-- The table a command names at packet offset 0x20; one being dropped is unknown to every later command (R324, R336). -/
def State.namedTable (f : Flight) (s : State) : Except Detail Table :=
  let id := field f.plain 0 4
  if ownerOf id != f.tenant then .error (notAuthorised 0x20)
  else match s.table id with
    | none => .error (bad 0x20)
    | some t =>
      if t.remoteDrop.isSome || (t.dropping.isSome && !(s.beforeDrop t).any fun g => g.mbx == f.mbx && g.tag == f.tag) then .error (bad 0x20)
      else .ok t

/-- Step 11 for a command that names a table of its tenant: a table on a composition is not used under a self-fence (R48, R433). -/
def State.unfencedTable (f : Flight) (s : State) : Except Detail Unit :=
  match s.table (field f.plain 0 4) with
  | some t => if ownerOf t.id == f.tenant && !t.members.isEmpty then s.unfenced t.desc.composition else .ok ()
  | none => .ok ()

/-- A table is not used after a member was lost (R330). -/
def usableTable (t : Table) : Except Detail Unit := need (!t.broken) (wrongStateAt 0x20)

/-- A feature-table message (Table 16-24). -/
def tableMessage (kind status issuer table step req count : Nat) (body : Bytes) : Bytes :=
  leBytes 1 kind ++ leBytes 1 status ++ leBytes 2 issuer ++ leBytes 4 table ++ leBytes 8 step ++ leBytes 8 req ++ leBytes 4 count ++
    leBytes 4 body.length ++ body

/-- Send a feature-table message in the class of the table's tenant; END goes in class 2 (Table 16-8). -/
def State.tablePost (dst table : Nat) (msg : Bytes) (s : State) : State :=
  s.post dst 0x30 (if field msg 0 1 = 6 then 2 else s.fabClass (ownerOf table)) (ownerOf table) false msg

/-- The next TO.REQ_ID. -/
def State.newReq (s : State) : Nat × State :=
  (s.nodeId + 65536 * s.tables.nextReq, { s with tables.nextReq := s.tables.nextReq + 1 })

end Sys2Proof.Machine
end

