-- ==== Sys2Proof/Machine/TableCommands.lean ====
section
/-!
DEFINITION. The commands of feature tables and the closes of their steps (R324, R327–R337).
-/
namespace Sys2Proof.Machine

/-! ### Lookups (R328, R333) -/

/-- The keys of a lookup from offset `o`. -/
def lookupKeys (b : Bytes) (o n : Nat) : List Nat := (records 8 n (b.drop o)).map leNat

/-- Prefetched rows that were not used are counted (R333). -/
def State.dropPrefetched (p : Prefetched → Bool) (unused : Prefetched → Bool) (s : State) : State :=
  let gone := (s.tables.prefetch.filter p).filter unused
  let s := { s with tables.prefetch := s.tables.prefetch.filter fun x => !p x }
  gone.foldl (fun s x => s.charge (ownerOf x.table) 0xB4 1) s

/-- A lookup has every row it needs: it answers with them, or with DATA_DAMAGED; its NEXT keys are noted (R333). -/
def State.answerLookup (f : Flight) (run : LookupRun) (d : TableDesc) (s : State) : State :=
  let b := f.plain
  let n := field b 0xC 4
  let fmt := field b 0x14 1
  let used (x : Prefetched) : Bool := run.got.any fun g => g.2.1 == x.part && g.2.2.lastStep == x.lastStep &&
    keyRow d g.2.1 ((lookupKeys b 32 n).getD g.1 0) == x.row
  let s := s.dropPrefetched (fun x => x.mbx == f.mbx && x.table == run.table) fun x => !used x
  if run.got.any (·.2.2.poisoned) then (s.abortStreams f).answer f .dataDamaged []
  else
    let rowOf (i part : Nat) : Row := (run.got.find? fun g => g.1 == i && g.2.1 == part).elim {} (·.2.2)
    let value (i : Nat) : List Word :=
      if d.store = 2 then composeRows d (rowValues d (rowOf i 1)) (rowValues d (rowOf i 2)) else rowValues d (rowOf i 0)
    let entry (i : Nat) : Bytes := if fmt = 2 then rowBytes d (rowOf i 0) else vectorBytes fmt (value i)
    let size := if fmt = 2 then rowSize d else if fmt = 0 then 4 * d.dim else 2 * d.dim
    let next := lookupKeys b (32 + 8 * n) (field b 0x10 4)
    let rest := s.tables.nexts.filter fun x => !(x.mbx == f.mbx && x.table == run.table)
    let s := { s with tables.nexts := if next.isEmpty then rest else rest ++ [({ mbx := f.mbx, table := run.table, keys := next } : NextKeys)] }
    let str := match s.streamField 0x36 (field b 0x16 2) f with | .ok x => x | .error _ => none
    (s.chargeTiles f.tenant).giveEntries f str .done (fun k => leBytes 4 k ++ leBytes 4 size ++ zeros 8) ((List.range n).map entry)

/-- A lookup takes the rows that are ready here (R330). -/
def State.pumpLookup (s : State) (f : Flight) : State :=
  match (s.flight f.mbx f.tag).map Flight.work with
  | some (Work.lookup run) => match s.table run.table with
    | none => s
    | some t =>
      let mine (x : Nat × Nat × Nat) : Bool := t.ready s.nodeId run.step x.2.1 x.2.2
      let now := run.left.filter mine
      let run := { run with
        left := run.left.filter fun x => !mine x, got := run.got ++ now.map fun x => (x.1, x.2.1, t.row x.2.1 x.2.2) }
      let s := s.updTable t.id fun t => t.count s.clock (now.map (·.2))
      if run.left.isEmpty then s.answerLookup f run t.desc else s.setWork f (.lookup run)
  | _ => s

/-- Rows that another member asked for go to it once all of them are ready here; a row that is poisoned makes the answer DATA_DAMAGED. -/
def State.pumpRequest (s : State) (r : TableRequest) : State :=
  match s.table r.table with
  | none => { s with tables.requests := s.tables.requests.erase r }
  | some t =>
    let answer (st count : Nat) (body : Bytes) (s : State) : State :=
      ({ s with tables.requests := s.tables.requests.erase r } : State).tablePost r.from_ r.table
        (tableMessage 5 st (r.req % 65536) r.table r.step r.req count body)
    if t.broken then answer 0x25 0 [] s
    else if r.entries.all fun x => t.ready s.nodeId r.step x.2.1 x.2.2 then
      let rows := r.entries.map fun x => (x.1, t.row x.2.1 x.2.2)
      let s := (s.updTable t.id fun t => t.count s.clock (r.entries.map (·.2))).chargeTiles r.tenant
      if rows.any (·.2.poisoned) then answer 0x24 0 [] s
      else answer 0 rows.length (rows.flatMap fun x => leBytes 4 x.1 ++ zeros 4 ++ rowBytes t.desc x.2) s
    else s

/-- Whatever waits for rows of a table takes those that are ready. -/
def State.pumpTable (id : Nat) (s : State) : State :=
  let s := (s.host.flights.filter (usesTable id)).foldl State.pumpLookup s
  (s.tables.requests.filter (·.table == id)).foldl State.pumpRequest s

/-- Every command on a table ends with COMPOSITION_LOST, and the table is BROKEN (R330). -/
def State.breakTable (id : Nat) (s : State) : State :=
  let s := s.updTable id fun t => { t with broken := true, closing := false }
  let s := { s with tables.nexts := s.tables.nexts.filter (·.table != id), tables.ahead := s.tables.ahead.filter (·.table != id) }
  let s := (s.host.flights.filter (usesTable id)).foldl (fun s f => (s.abortStreams f).answer f .compositionLost []) s
  s.pumpTable id

/-- Ask the homes of rows for them; a home that cannot be reached breaks the table (R330, Table 16-8). -/
def State.askRows (t : Table) (tenant req step : Nat) (keys : List Nat) (rows : List (Nat × Nat × Nat)) (s : State) : State × Bool :=
  (t.others s.nodeId).foldl (fun (a : State × Bool) n =>
    let l := rows.filter fun x => x.2.1 != 2 && t.home a.1.nodeId (blockOf x.2.2) == n
    if l.isEmpty then a
    else
      let body := l.flatMap fun x => leBytes 4 x.1 ++ leBytes 1 x.2.1 ++ zeros 3 ++ leBytes 8 (keys.getD x.1 0)
      let r := a.1.send n 0x30 (a.1.fabClass tenant) tenant false (tableMessage 4 0 a.1.nodeId t.id step req l.length body)
      (r.1, a.2 && r.2)) (s, true)

/-- What a command does for its STEP (R329): it runs in the current step, waits for the close it begins, or is refused. -/
def State.inStep (t : Table) (f : Flight) (k : State → Except Detail State) (s : State) : Except Detail State :=
  let q := field f.plain 4 8
  if q = t.step ∧ t.endSent = false then k s
  else if q = t.step + 1 then .ok ((s.updTable t.id fun t => { t with closing := true }).setWork f .stepWait)
  else .error (wrongStateAt 0x24)

/-- The first key of a list that is out of a DIRECT table's range (R326). -/
def keyFault (d : TableDesc) (o size : Nat) (keys : List Nat) : Except Detail Unit :=
  match keys.findIdx? fun k => !keyOk d k with
  | some i => .error (bad (o + size * i))
  | none => .ok ()

/-- TABLE_LOOKUP (R326, R328–R330, R333). -/
def execTableLookup (m : Mbx) (tag : Word) (s : State) : Host.Outcome State Fault Refusal :=
  .next (s.start 0x5010 m tag fun f s => do
    s.unfencedTable f
    opening f 32 16777216
    let b := f.plain
    let n := field b 0xC 4
    let us := field b 0x18 4
    fields [(4, 1 ≤ field b 4 8 && decide (field b 4 8 < 2 ^ 48)), (0xC, 1 ≤ n && n ≤ 65536), (0x10, decide (field b 0x10 4 ≤ 65536)),
      (0x14, decide (field b 0x14 1 ≤ 2)), (0x15, zeroField b 0x15 1), (0x18, us == 0 || (100 ≤ us && us ≤ 10000000)), (0x1C, zeroField b 0x1C 4)]
    need (b.length == 32 + 8 * (n + field b 0x10 4)) (bad 0x0C)
    let t ← s.namedTable f
    need (field b 0x14 1 != 2 || t.desc.store != 2) (bad 0x34)
    let _ ← s.streamField 0x36 (field b 0x16 2) f
    keyFault t.desc 0x40 8 (lookupKeys b 32 (n + field b 0x10 4))
    usableTable t
    let s := s.updFlight f.mbx f.tag fun g => { g with deadline := if us = 0 then none else some (f.arrival + us * 1000) }
    s.inStep t f (fun s => s.withCrew ((s.crewOfKind 4).getD 0) 0 f (fun s =>
      let keys := lookupKeys b 32 n
      let rows := keys.zipIdx.flatMap fun (k, i) => (keyParts t.desc).map fun p => (i, p, keyRow t.desc p k)
      let r := s.newReq
      let s := r.2.setWork f (.lookup { table := t.id, step := t.step, req := r.1, left := rows })
      let x := s.askRows t f.tenant r.1 t.step keys rows
      .ok (if x.2 then x.1.pumpLookup f else x.1.breakTable t.id))))

/-- TABLE_PREFETCH (R333): the NEXT rows of a lookup that has answered are read into the mailbox's buffer for the table. -/
def execTablePrefetch (m : Mbx) (table : Word) (s : State) : Host.Outcome State Fault Refusal :=
  .next (match s.tables.nexts.find? fun x => x.mbx == m.key && x.table == table.toNat, s.table table.toNat with
    | some x, some t =>
      let s := { s with tables.nexts := s.tables.nexts.erase x }
      if t.broken || !s.serving then s
      else
        let rows := x.keys.zipIdx.flatMap fun (k, i) => (keyParts t.desc).map fun p => (i, p, keyRow t.desc p k)
        let here := rows.filter fun y => t.ready s.nodeId t.step y.2.1 y.2.2
        let s := { s with tables.prefetch := s.tables.prefetch ++ here.map fun (y : Nat × Nat × Nat) =>
          ({ mbx := x.mbx, table := t.id, part := y.2.1, row := y.2.2, lastStep := (t.row y.2.1 y.2.2).lastStep, since := s.clock } : Prefetched) }
        let s := s.chargeTiles (ownerOf t.id)
        let there := rows.filter fun y => y.2.1 != 2 && t.home s.nodeId (blockOf y.2.2) != s.nodeId
        if there.isEmpty then s
        else
          let r := s.newReq
          let s := { r.2 with tables.ahead := r.2.tables.ahead ++ [({ req := r.1, mbx := x.mbx, table := t.id, rows := there } : AheadRead)] }
          (s.askRows t (ownerOf t.id) r.1 t.step x.keys there).1
    | _, _ => s)

/-- TABLE_PREFETCH_EXPIRE (R333): rows held 10 ms without use leave the buffer. -/
def execTablePrefetchExpire (m : Mbx) (table : Word) (s : State) : Host.Outcome State Fault Refusal :=
  .next (s.dropPrefetched (fun x => x.mbx == m.key && x.table == table.toNat && decide (x.since + 10000000 ≤ s.clock)) fun _ => true)

/-! ### Updates (R331) -/

/-- Bytes of an update's element. -/
def deltaBytes (fmt : Nat) : Nat := if fmt = 0 then 4 else 2

/-- Bytes of an entry of an update. -/
def updateEntryBytes (d : TableDesc) (fmt : Nat) : Nat := 16 + (d.dim * deltaBytes fmt + 7) / 8 * 8

/-- Check an update's entry that stands at packet offset `o` (R326, R331). -/
def updateEntryFault (d : TableDesc) (fmt o : Nat) (b : Bytes) : Except Detail Unit := do
  let part := field b 8 1
  let k := d.dim * deltaBytes fmt
  need (keyOk d (field b 0 8)) (bad o)
  need (if d.store = 2 then part == 1 || part == 2 else part == 0) (bad (o + 8))
  need (zeroField b 9 7) (bad (o + 9))
  match (vectorElements fmt d.dim (b.drop 16)).findIdx? fun x => !f32Finite x with
  | some i => .error (bad (o + 16 + deltaBytes fmt * i))
  | none => need (zeroField b (16 + k) (b.length - 16 - k)) (bad (o + 16 + k))

/-- Check the entries in order. -/
def updateFault (d : TableDesc) (fmt : Nat) : Nat → List Bytes → Except Detail Unit
  | _, [] => .ok ()
  | o, e :: t => do
    updateEntryFault d fmt o e
    updateFault d fmt (o + e.length) t

/-- An entry as it is buffered. -/
def readUpdate (d : TableDesc) (fmt step issuer seq index : Nat) (b : Bytes) : RowUpdate where
  step := step
  issuer := issuer
  seq := seq
  index := index
  part := field b 8 1
  row := keyRow d (field b 8 1) (field b 0 8)
  delta := vectorElements fmt d.dim (b.drop 16)

/-- An update reaches a member: an R row every one, any other row its home (R328). -/
def Table.reaches (t : Table) (self n : Nat) (u : RowUpdate) : Bool := u.part == 2 || t.home self (blockOf u.row) == n

/-- Send the entries of an update that reach other members. -/
def State.sendUpdates (t : Table) (tenant seq fmt req : Nat) (us : List (RowUpdate × Bytes)) (s : State) : State × Bool :=
  (t.others s.nodeId).foldl (fun (a : State × Bool) n =>
    let l := us.filter fun u => t.reaches a.1.nodeId n u.1
    if l.isEmpty then a
    else
      let body := leBytes 4 seq ++ leBytes 1 fmt ++ zeros 3 ++ l.flatMap fun u => leBytes 4 u.1.index ++ zeros 4 ++ u.2
      let r := a.1.send n 0x30 (a.1.fabClass tenant) tenant false (tableMessage 3 0 a.1.nodeId t.id t.step req l.length body)
      (r.1, a.2 && r.2)) (s, true)

/-- TABLE_UPDATE (R326, R328–R331). -/
def execTableUpdate (m : Mbx) (tag : Word) (s : State) : Host.Outcome State Fault Refusal :=
  .next (s.start 0x5011 m tag fun f s => do
    s.unfencedTable f
    opening f 32 16777216
    let b := f.plain
    let seq := field b 0xC 4
    let n := field b 0x10 4
    let fmt := field b 0x14 1
    fields [(4, 1 ≤ field b 4 8 && decide (field b 4 8 < 2 ^ 48)), (0x10, 1 ≤ n && n ≤ 65536), (0x14, decide (fmt ≤ 1)), (0x15, zeroField b 0x15 11)]
    let t ← s.namedTable f
    let size := updateEntryBytes t.desc fmt
    need (b.length == 32 + n * size) (bad 0x0C)
    let es := records size n (b.drop 32)
    updateFault t.desc fmt 0x40 es
    usableTable t
    s.inStep t f (fun s => do
      need (!t.seqs.contains seq) (bad 0x2C)
      need (decide ((t.buffer.filter (·.step == t.step)).length < 4194304)) (noResources 4194304)
      s.withCrew ((s.crewOfKind 4).getD 0) 0 f (fun s =>
        let us := es.zipIdx.map fun (e, i) => (readUpdate t.desc fmt t.step s.nodeId seq i e, e)
        let mine := (us.map (·.1)).filter (t.reaches s.nodeId s.nodeId)
        let s := s.updTable t.id fun t => { t with buffer := t.buffer ++ mine, seqs := seq :: t.seqs }
        let r := s.newReq
        let x := r.2.sendUpdates t f.tenant seq fmt r.1 us
        .ok (if x.2 then (x.1.chargeTiles f.tenant).answer f .done (leBytes 4 n ++ zeros 4) else x.1.breakTable t.id))))

/-! ### The close of a step (R330, R332, R334) -/

/-- The block loads an END carries: those of a window that has closed and was not reported yet. -/
def Table.ownLoads (t : Table) (self : Nat) : List (Nat × Nat × Nat) := (t.closed.getD []).map fun e => (self, e.1, e.2)

/-- Every other member's END of the current step is held. -/
def Table.othersEnded (t : Table) (self : Nat) : Bool := (t.others self).all fun n => t.ends.contains (n, t.step)

/-- The coordinator evaluates the skew at its closes: it then sends its END last, with the map (R334). -/
def Table.judges (t : Table) (self : Nat) : Bool :=
  !t.members.isEmpty && t.coordinator self == self && (t.desc.migratePct != 0 || t.forced)

/-- What the coordinator's END carries: the moves, and the count of windows over the threshold. -/
def Table.verdict (t : Table) (self : Nat) : List (Nat × Nat) × Nat :=
  if t.judges self then ({ t with loads := t.loads ++ t.ownLoads self } : Table).evaluate else ([], t.overWindows)

/-- This module's END of the current step goes to every other member (R330). -/
def State.sendEnd (t : Table) (s : State) : State :=
  let own := t.ownLoads s.nodeId
  let v := t.verdict s.nodeId
  let body := leBytes 4 (t.mapVersion + flag (!v.1.isEmpty)) ++ leBytes 4 v.1.length ++ own.flatMap (fun x => leBytes 4 x.2.1 ++ leBytes 4 x.2.2) ++
    v.1.flatMap fun x => leBytes 4 x.1 ++ leBytes 2 x.2 ++ zeros 2
  let s := (t.others s.nodeId).foldl (fun s n => s.tablePost n t.id (tableMessage 6 0 s.nodeId t.id t.step s.nodeId own.length body)) s
  let all := t.loads ++ own
  s.updTable t.id fun t => { t with
    endSent := true, overWindows := v.2, forced := t.forced && !t.judges s.nodeId
    loads := if t.closed.isSome then [] else all, lastLoads := if t.closed.isSome then all else t.lastLoads, closed := none
    moves := t.moves ++ v.1.map fun x => (t.step, x.1, x.2) }

/-- Copy a block to its new home (R334). -/
def State.sendBlock (t : Table) (block home : Nat) (s : State) : State :=
  let first := 4096 * block
  let rows := (List.range (min 4096 (2 ^ t.desc.rowsLog2))).flatMap fun i => rowBytes t.desc (t.rows.getD (first + i) {})
  let s := s.post home 0x31 5 (ownerOf t.id) false (leBytes 4 t.id ++ leBytes 4 block ++ leBytes 4 t.mapVersion ++ zeros 4 ++ rows)
  s.updTable t.id fun t => { t with rows := t.rows.keep fun r _ => blockOf r != block }

/-- The close ends here once every END is held: the step's updates are applied, the new map is in force, moved blocks are copied, and commands of the
next step run (R330, R332, R334). -/
def State.endClose (id : Nat) (s : State) : State :=
  match s.table id with
  | none => s
  | some t =>
    if !(t.endSent && t.othersEnded s.nodeId) || t.broken then s
    else
      let r := t.applyStep
      let moves := (t.moves.filter (·.1 == t.step)).map (·.2)
      let incoming := (moves.filter fun x => x.2 == s.nodeId && t.home s.nodeId x.1 != s.nodeId).map (·.1)
      let leaving := moves.filter fun x => x.2 != s.nodeId && t.home s.nodeId x.1 == s.nodeId
      let u := { r.1 with
        step := t.step + 1, closing := false, endSent := false, seqs := [], ends := t.ends.filter fun e => t.step < e.2
        moves := t.moves.filter fun x => t.step < x.1, blocks := moves.foldl (fun b x => b.put x.1 x.2) t.blocks
        mapVersion := t.mapVersion + flag (!moves.isEmpty), moved := if moves.isEmpty then t.moved else moves.length
        incoming := t.incoming ++ incoming.filter fun b => !t.arrived.contains b, arrived := t.arrived.filter fun b => !incoming.contains b }
      let s := ({ s with tables.tables := s.tables.tables.put id u } : State).charge (ownerOf id) 0xB0 r.2
      let s := leaving.foldl (fun s x => s.sendBlock u x.1 x.2) s
      let s := { s with host.flights := s.host.flights.map fun (f : Flight) => if usesTable id f && f.work == Work.stepWait then { f with work := .admitted } else f }
      s.pumpTable id

/-! ### Drops (R336) -/

/-- Nothing of a table is held any more. -/
def State.freeTable (id : Nat) (s : State) : State :=
  { s with
    tables.tables := s.tables.tables.del id, tables.requests := s.tables.requests.filter (·.table != id)
    tables.prefetch := s.tables.prefetch.filter (·.table != id), tables.nexts := s.tables.nexts.filter (·.table != id)
    tables.ahead := s.tables.ahead.filter (·.table != id) }

/-- The TABLE_DROP that waits answers DONE, and the ID is free again (R336). -/
def State.endDrop (t : Table) (s : State) : State :=
  let s := s.freeTable t.id
  match t.dropping.bind fun x => s.flight x.1 x.2 with
  | some f => s.answer f .done []
  | none => s

/-- Go on with the drop of a table: once the commands admitted earlier and a close in progress are done, its part is freed and DROP goes to the
other members; once they have answered, TABLE_DROP is done. A drop that another member asked for is acknowledged (R336). -/
def State.settleDrop (id : Nat) (s : State) : State :=
  match s.table id with
  | none => s
  | some t =>
    match t.remoteDrop with
    | some (n, req) =>
      if s.host.flights.any (usesTable id) then s
      else (s.freeTable id).tablePost n id (tableMessage 8 0 n id 0 req 0 [])
    | none =>
      if t.dropping.isNone then s
      else match t.dropSent with
        | some _ => if t.dropLeft.isEmpty then s.endDrop t else s
        | none =>
          if (s.beforeDrop t).any (usesTable id) || t.closing then s
          else
            let lost := (s.comp.compositions.find t.desc.composition).elim [] (·.lost)
            let r := s.newReq
            let x := ((t.others s.nodeId).filter fun n => !lost.contains n).foldl (fun (a : State × List Nat) n =>
              let y := a.1.send n 0x30 (a.1.fabClass (ownerOf id)) (ownerOf id) false (tableMessage 7 0 a.1.nodeId id 0 r.1 0 [])
              (y.1, if y.2 then a.2 ++ [n] else a.2)) (r.2, [])
            if x.2.isEmpty then x.1.endDrop t
            else x.1.updTable id fun t => { t with
              rows := [], rrows := [], buffer := [], blocks := [], dropLeft := x.2, dropSent := some s.clock }

/-- TABLE_DROP (R336): the first run refuses later commands; where commands admitted earlier were still running, the same row goes on once they are
done. -/
def execTableDrop (m : Mbx) (tag : Word) (s : State) : Host.Outcome State Fault Refusal :=
  .next (match s.flight m.key tag with
    | none => s
    | some f =>
      if f.opcode.toNat == 0x5002 && f.work == .eventWait then s.settleDrop (field f.plain 0 4)
      else s.start 0x5002 m tag fun f s => do
        s.unfencedTable f
        need (f.plain.length == 8) (bad 0x0C)
        csnZero f
        fields [(4, zeroField f.plain 4 4)]
        let t ← s.namedTable f
        let s := (s.updTable t.id fun t => { t with dropping := some (f.mbx, f.tag) }).setWork f .eventWait
        .ok (s.settleDrop t.id))

/-- TABLE_DROP_TIMEOUT (R336): 100 ms after DROP was sent, members that have not answered are not waited for. -/
def execTableDropTimeout (table : Word) (s : State) : Host.Outcome State Fault Refusal :=
  .next (match s.table table.toNat with
    | some t => match t.dropSent with
      | some x => if x + 100000000 ≤ s.clock then s.endDrop t else s
      | none => s
    | none => s)

/-- TABLE_STEP_CLOSE (R329, R330): once the commands of the closing step are done, END goes out and the step ends when every END is held. A
coordinator that moves blocks at this close does so in TABLE_BLOCK_MIGRATE. -/
def execTableStepClose (table : Word) (s : State) : Host.Outcome State Fault Refusal :=
  let id := table.toNat
  .next (if !s.serving then s
  else
    let s := s.updTable id fun t => t.roll s.clock
    match s.table id with
    | none => s
    | some t =>
      let ready := t.closing && !t.endSent && !t.broken && !s.stepBusy t
      let waits := t.judges s.nodeId && (!t.othersEnded s.nodeId || !(t.verdict s.nodeId).1.isEmpty)
      ((if ready && !waits then s.sendEnd t else s).endClose id).settleDrop id)

/-- TABLE_BLOCK_MIGRATE (R334): the coordinator, holding every other END, sends its own with the new map. -/
def execTableBlockMigrate (table : Word) (s : State) : Host.Outcome State Fault Refusal :=
  let id := table.toNat
  .next (if !s.serving then s
  else
    let s := s.updTable id fun t => t.roll s.clock
    match s.table id with
    | none => s
    | some t =>
      let ready := t.closing && !t.endSent && !t.broken && !s.stepBusy t
      if ready && t.judges s.nodeId && t.othersEnded s.nodeId && !(t.verdict s.nodeId).1.isEmpty then ((s.sendEnd t).endClose id).settleDrop id
      else s)

/-! ### Creating (R324–R327) -/

/-- The field checks of a descriptor (Table 13-1). -/
def tableFields (b : Bytes) : List (Nat × Bool) :=
  let d := readTableDesc b
  [(0, field b 0 4 % 2 ^ 20 != 0xFFFFF), (8, 8 ≤ d.dim && d.dim ≤ 1024 && d.dim % 8 == 0), (0xA, [0, 1, 2, 4].contains d.format),
   (0xB, decide (d.store ≤ 2)), (0xC, 10 ≤ d.rowsLog2 && d.rowsLog2 ≤ 34),
   (0xD, if d.store = 2 then 4 ≤ d.rLog2 && d.rLog2 ≤ 20 else d.rLog2 == 0), (0xE, if d.store = 2 then decide (d.combine ≤ 1) else d.combine == 0),
   (0xF, decide (d.update ≤ 1)), (0x18, d.migratePct == 0 || (10 ≤ d.migratePct && d.migratePct ≤ 400)), (0x19, zeroField b 0x19 39)]

/-- Reserve a table's part here, or say what is exhausted (R246, R324, R327, R424). -/
def State.reserveTable (id : Nat) (d : TableDesc) (members : List Nat) (s : State) : Except Detail State := do
  let n := tableReserve d members.length (members.idxOf s.nodeId)
  need (s.crewOfKind 4).isSome (noResources 0)
  need (decide (s.tables.tables.length < 256)) (noResources 256)
  need (decide ((s.tables.tables.vals.filter fun t => ownerOf t.id == ownerOf id).length < 32)) (noResources 32)
  need (decide (n ≤ s.tableFree)) (noResources (s.tableFree / 1048576))
  s.quotaHbm (ownerOf id) n
  return { s with tables.tables := s.tables.tables.put id { id := id, desc := d, members := members, reserved := n, window := s.clock / 1000000000 } }

/-- Nothing of a table that was being created is held anywhere (R327). -/
def State.freeCreated (t : Table) (s : State) : State :=
  let r := s.newReq
  ((t.others s.nodeId).foldl (fun (s : State) n => s.tablePost n t.id (tableMessage 7 0 s.nodeId t.id 0 r.1 0 [])) r.2).freeTable t.id

/-- The creation of a table ends: done once every member has reserved; else nothing is created anywhere (R327). -/
def State.endCreate (t : Table) (st : Option Detail) (s : State) : State :=
  match t.creating with
  | none => s
  | some (m, tag, _) =>
    let s := match st with
      | none => s.updTable t.id fun t => { t with creating := none }
      | some _ => s.freeCreated t
    match s.flight m tag, st with
    | some f, none => s.answer f .done []
    | some f, some (d : Detail) => if d.status == .compositionLost then s.answer f .compositionLost [] else s.answerDetail f d
    | none, _ => s

/-- TABLE_CREATE (R324–R327). -/
def execTableCreate (m : Mbx) (tag : Word) (s : State) : Host.Outcome State Fault Refusal :=
  .next (s.start 0x5001 m tag fun f s => do
    s.unfenced (field f.plain 4 4)
    need (f.plain.length == 64) (bad 0x0C)
    csnZero f
    let b := f.plain
    fields (tableFields b)
    let id := field b 0 4
    let d := readTableDesc b
    need (ownerOf id == f.tenant) (notAuthorised 0x20)
    need ((s.tables.tables.find id).isNone) (wrongStateAt 0x20)
    if d.composition = 0 then (s.reserveTable id d []).map fun s => s.answer f .done []
    else match s.comp.compositions.find d.composition with
      | none => .error (bad 0x24)
      | some k => do
        need k.active (wrongStateAt 0x24)
        let s ← s.reserveTable id d k.members
        let others := k.members.filter (· != s.nodeId)
        let r := s.newReq
        let s := (r.2.updTable id fun t => { t with creating := some (f.mbx, f.tag, others) }).setWork f .eventWait
        let x := others.foldl (fun (a : State × Bool) n =>
          let y := a.1.send n 0x30 (a.1.fabClass f.tenant) f.tenant false (tableMessage 1 0 a.1.nodeId id 0 r.1 0 (tableDescBytes id d))
          (y.1, a.2 && y.2 && !k.lost.contains n)) (s, true)
        match x.1.tables.tables.find id with
        | none => .ok x.1
        | some t =>
          if !x.2 then .ok (x.1.endCreate t (some { status := .compositionLost, offset := noOffset }))
          else if others.isEmpty then .ok (x.1.endCreate t none)
          else .ok x.1)

/-- TABLE_REBALANCE (R335). -/
def execTableRebalance (m : Mbx) (tag : Word) (s : State) : Host.Outcome State Fault Refusal :=
  .next (s.start 0x5020 m tag fun f s => do
    s.unfencedTable f
    opening f 16 16
    let b := f.plain
    fields [(4, decide (field b 4 4 < 4)), (8, zeroField b 8 8)]
    let t ← s.namedTable f
    usableTable t
    let s := s.updTable t.id fun t => { t.roll s.clock with forced := t.forced || (!t.members.isEmpty && bit (field b 4 4) 0 && !bit (field b 4 4) 1) }
    let t := (s.table t.id).getD t
    let members := if t.members.isEmpty then [s.nodeId] else t.members
    let loads := if t.members.isEmpty && t.closed.isSome then t.ownLoads s.nodeId else t.lastLoads
    let k := skewOf members loads
    let (skew, s) := if k.2 = 0 then let (n, s) := s.draw; (BitVec.ofNat 32 n, s) else (fpDiv32 (.fin false k.1 0) (.fin false k.2 0), s)
    .ok (s.answer f .done (leBytes 4 t.mapVersion ++ leBytes 4 skew.toNat ++ leBytes 4 t.moved ++ leBytes 4 members.length ++
      members.flatMap fun n => leBytes 2 n ++ zeros 2 ++ leBytes 4 (min 0xFFFFFFFF (memberLoad loads n)))))

end Sys2Proof.Machine
end

