-- ==== Sys2Proof/Machine/Stop.lean ====
section
/-!
DEFINITION. Ending a command before it completes: STOP_COMMAND, deadlines, and zeroisation (R56, R60, R94, R166, R225, R302).
-/
namespace Sys2Proof.Machine

/-- A command of this kind is in its last step: it ends with its own status, and a stop waits for that (R50, R56). -/
def unstoppable : Work → Bool
  | .flushWait _ | .closeWait | .fillWait | .disableWait _ | .profileWait | .winterWait | .dropWait _ => true
  | _ => false

/-- What a fabric-wide search has asked of other modules is cancelled, and its merge is over (R225). -/
def State.endMerge (m : Nat) (tag : Word) (s : State) : State :=
  match s.comp.served.find? fun x => x.root == some (m, tag) with
  | none => s
  | some x =>
    let s := (s.cancelShards x).dropServed x
    match s.flight (servedKey x.id x.shard) 0 with
    | some g => (s.squashReads g (readsOf g) 0).endFlight g
    | none => s

/-- The work in flight of a command, and of the items of a batch, is given up (R166, R181, R225). -/
def State.giveUp (f : Flight) (s : State) : State :=
  let all := f :: s.host.flights.filter (isItemOf f)
  all.foldl (fun s g =>
    let early := match g.work with | .search r => r.fetched.length | _ => 0
    let s := if (readsOf g).isEmpty && early = 0 then s else s.squashReads g (readsOf g) early
    s.endMerge g.mbx g.tag) s

/-- A gate list that waits on every port it names is dropped; one in force on some of them already comes into force on the others too, and answers no
command (R50, R412). -/
def State.stopGates (f : Flight) (s : State) : State :=
  let mine (x : Port) : Bool := x.gateWait.any fun w => w.mbx == f.mbx && w.tag == f.tag
  let waits := (List.range 32).all fun p => !bit (field f.plain 8 4) p || mine (s.vievo p)
  { s with fabric.ports := s.fabric.ports.map fun x =>
    if mine x then { x with gateWait := if waits then none else x.gateWait.map fun w => { w with mbx := noCommand } } else x }

/-- The change that a stopped command was about to make, or is making (R50): one that has not begun is dropped; one that has begun goes on to its end, and
no command waits for it any more. -/
def State.stopChange (f : Flight) (s : State) : State :=
  let me (w : Nat × Word) : Bool := w.1 == f.mbx && w.2 == f.tag
  match f.work with
  | .compactWait id => s.updColl id fun c => c.stopCompaction
  | .loadWait l => s.updLoad l fun l => { l with committing := none }
  | .placeWait => { s with models.placing := none }
  | .revokeWait r => { s with tiers.regions := s.tiers.regions.upd r fun x => { x with revoking := x.revoking.map fun w => (noCommand, w.2) } }
  | .eventWait => match f.opcode.toNat with
    | 0x5001 => (s.tables.tables.vals.filter fun t => t.creating.any fun w => me (w.1, w.2.1)).foldl
        (fun s t => s.freeCreated t) s
    | 0x5002 => { s with tables.tables := s.tables.tables.each fun t =>
        if t.dropping.any me then { t with dropping := if t.dropSent.isNone then none else some (noCommand, f.tag) } else t }
    | 0x6010 => { s with fabric.routeWait := none }
    | 0x6011 => s.stopGates f
    | _ => { s with comp.compositions := s.comp.compositions.each fun k => { k with
        waiting := k.waiting.filter fun w => !me (w.1, w.2.1)
        leaving := if k.leaving.any (·.any me) then (if k.leaveSent then some none else none) else k.leaving } }
  | _ => s

/-- End a command before it completes, with STOPPED, DEADLINE_EXCEEDED or KEY_UNAVAILABLE. -/
def State.endCommand (f : Flight) (st : Status) (s : State) : State :=
  let s := (s.giveUp f).stopChange f
  if st == .keyUnavailable then (s.abortStreams f).answerDetail f (keyUnavailable noOffset)
  else match f.work with
    | .generate r => s.genStop f r st
    | .commitWait c _ _ _ =>
      s.answer f st (leBytes 8 ((s.coll c).elim 0 (·.committed)) ++ leBytes 8 ((s.coll c).elim 0 (·.sealedCsn)))
    | _ => (s.abortStreams f).answer f st (endPayload (s.extBytesOf f) f)

/-- The mailbox a STOP_COMMAND's target is on (R56). -/
def stopMailbox (f : Flight) : Nat := if f.mbx < 4096 then f.mbx else f.tenant

/-- STOP_COMMAND (R56). -/
def execStopCommand (m : Mbx) (tag : Word) (s : State) : Host.Outcome State Fault Refusal :=
  .next (s.start 0x0040 m tag fun f s => do
    opening f 8 8
    fields [(4, zeroField f.plain 4 4)]
    let t : Word := BitVec.ofNat 32 (field f.plain 0 4)
    let k := stopMailbox f
    need (s.tagInFlight k t && t != f.tag) (wrongStateAt 0x20)
    let s := s.setWork f (.stopWait k t)
    match s.flight k t with
    | some g => .ok (if unstoppable g.work then s else s.endCommand g .stopped)
    | none => .ok s)

/-- Each list of a merge that has not come by the deadline is logged as a partner violation (R217). -/
def State.logLateLists (x : Served) (s : State) : State :=
  (x.run.shards.filter fun d => !d.merged && !d.missing).foldl (fun s d =>
    let s := if d.gone then s else s.logKind 3 d.node
    match d.hedge with
    | some h => if d.hedgeGone then s else s.logKind 3 h
    | none => s) s

/-- A served sub-query goes on without the lists that have not come by its deadline: their shards are missing (R217). -/
def State.lateLists (x : Served) (s : State) : State :=
  (x.run.shards.filter fun d => !d.merged && !d.missing).foldl (fun s d => s.shardMissing x d.no) (s.logLateLists x)

/-- COMMAND_DEADLINE_EXPIRE (R166, R217): the deadline of a command, of an item of a batch or of a sub-query has passed. -/
def execCommandDeadlineExpire (m : Mbx) (tag : Word) (s : State) : Host.Outcome State Fault Refusal :=
  let merge := s.mergeOf m.key tag
  let t := match s.flight m.key tag with
    | some f => match f.deadline with
      | some t =>
        if t ≤ s.clock then
          let s := match merge with | some x => if x.root.isSome then s.logLateLists x else s | none => s
          s.endCommand f .deadlineExceeded
        else s
      | none => s
    | none => s
  .next (match merge with
    | some x =>
      if x.root.isNone && x.deadline != 0 && decide (x.deadline ≤ s.fabTime) && t.comp.served.any (fun y => y.id == x.id && y.shard == x.shard) then
        t.lateLists x
      else t
    | none => t)

end Sys2Proof.Machine
end

