-- ==== Sys2Proof/Machine/Compositions.lean ====
section
/-!
DEFINITION. Compositions: joining, heartbeats, losses, coordinators, fences, barriers, SUSPECT members (R416, R420, R427–R434, R440).
-/
namespace Sys2Proof.Machine

/-! ### Members and their tree -/

/-- The live members in tree order, rooted at `root` (R416, R428). -/
def Composition.order (k : Composition) (root : Nat) : List Nat := treeOrder root k.live

/-- The members at given positions. -/
def membersAt (order : List Nat) (ps : List Nat) : List Nat := ps.map fun p => order.getD p 0

/-- The children of a member in the tree rooted at `root`. -/
def Composition.kids (k : Composition) (root n : Nat) : List Nat :=
  membersAt (k.order root) (childrenOf (k.order root).length ((k.order root).idxOf n))

/-- The subtree of a member, itself included. -/
def Composition.under (k : Composition) (root n : Nat) : List Nat :=
  membersAt (k.order root) (subtreeOf (k.order root).length 4 ((k.order root).idxOf n))

/-- The parent of a member. -/
def Composition.parent (k : Composition) (root n : Nat) : Nat := (k.order root).getD (((k.order root).idxOf n - 1) / 16) root

/-- A member has been heard within the last `ms` milliseconds. -/
def Composition.recent (k : Composition) (now ms n : Nat) : Bool := (k.heard.find n).any fun t => decide (now < t + ms * 1000000)

/-- Members heard, this one included: directly, or through the reports of children (R429). -/
def Composition.hears (k : Composition) (self now : Nat) : Nat :=
  let direct := (k.live.filter fun n => n != self && k.recent now 20 n).length
  let told := (((k.kids k.coordinator self).filter (k.recent now 10)).map fun n => k.childHeard.getD n 1).sum
  1 + max direct told

/-- More than half of the members are heard (R429). -/
def Composition.majority (k : Composition) (self now : Nat) : Bool := decide (k.members.length < 2 * k.hears self now)

/-- The heartbeat this module sends up: members heard in its subtree, and those silent for 10 ms (Table 16-26). -/
def Composition.report (k : Composition) (self now : Nat) : Nat × List Nat :=
  let kids := k.kids k.coordinator self
  let ok := kids.filter (k.recent now 10)
  (1 + (ok.map fun n => k.childHeard.getD n 1).sum, kids.filter (fun n => !k.recent now 10 n) ++ ok.flatMap fun n => k.silent.getD n [])

/-- Change a composition. -/
def State.updComp (id : Nat) (g : Composition → Composition) (s : State) : State :=
  { s with comp.compositions := s.comp.compositions.upd id g }

/-- A composition or fence message (Table 16-27). -/
def compMessage (kind comp version sender heard count : Nat) (body : Bytes) : Bytes :=
  leBytes 1 kind ++ zeros 3 ++ leBytes 4 comp ++ leBytes 4 version ++ leBytes 2 sender ++ leBytes 2 heard ++ leBytes 4 count ++
    leBytes 4 body.length ++ body

/-- Send one, in class 0. -/
def State.compPost (dst kind : Nat) (k : Composition) (heard count : Nat) (body : Bytes) (s : State) : State :=
  s.post dst 0x60 0 0 true (compMessage kind k.id k.version s.nodeId heard count body)

/-- Send one to every other live member. -/
def State.compAll (kind : Nat) (k : Composition) (heard count : Nat) (body : Bytes) (s : State) : State :=
  (k.live.filter (· != s.nodeId)).foldl (fun s n => s.compPost n kind k heard count body) s

/-! ### What the loss of a member ends (R430, Table 17-6) -/

/-- A served sub-query whose root or parent is lost ends without an answer. -/
def State.abandonServed (x : Served) (s : State) : State :=
  let s := s.cancelShards x
  let s := match s.flight (servedKey x.id x.shard) 0 with
    | some f => (s.giveUp f).endFlight f
    | none => s
  s.dropServed x

/-- A member is lost: what it was asked to serve in a merge is not served. -/
def State.nodeLeaves (x : Served) (n : Nat) (s : State) : State :=
  (x.run.shards.filter fun d => !d.merged && !d.missing && (d.node == n || d.hedge == some n)).foldl (fun s d =>
    let s := if d.node == n && !d.gone then s.shardGone x d.no false else s
    if d.hedge == some n && !d.hedgeGone then s.shardGone x d.no true else s) s

/-- What a merge at this module does when a member is lost: with the member inside its tree the search ends, with a leaf its shard is not served. -/
def State.mergeLoses (k : Composition) (n : Nat) (s : State) (x : Served) : State :=
  match s.comp.served.find? fun y => y.id == x.id && y.shard == x.shard with
  | none => s
  | some x =>
    let order := treeOrder s.nodeId (k.members.filter fun m => m == n || !k.lost.contains m)
    let inner := !(childrenOf order.length (order.idxOf n)).isEmpty
    match x.root with
    | some (m, tag) =>
      if inner then match s.flight m tag with
        | some f => s.endCommand f .compositionLost
        | none => s
      else s.nodeLeaves x n
    | none => if x.from_ == n || x.id % 65536 == n then s.abandonServed x else s.nodeLeaves x n

/-- What tables do: their commands end, and they are BROKEN (R330, R336). -/
def State.tableLoses (n : Nat) (s : State) (t : Table) : State :=
  let s := if t.creating.isSome then s.endCreate t (some { status := .compositionLost, offset := noOffset }) else s.breakTable t.id
  (s.updTable t.id fun t => { t with dropLeft := t.dropLeft.filter (· != n) }).settleDrop t.id

/-- Replicas on lost members are LOST (Table 17-6). -/
def State.loseReplicas (id : Nat) (p : Nat → Bool) (s : State) : State :=
  let lose (r : Replica) : Replica := if p r.node then { r with state := 2 } else r
  let g (c : Collection) : Collection := if c.composition = id then { c with replicas := c.replicas.map lose } else c
  { s with index.collections := s.index.collections.each g }

/-- Shared-tier reads from a lost owner fail (R354). -/
def State.ownerLost (n : Nat) (s : State) : State :=
  s.host.flights.foldl (fun s f =>
    match s.flight f.mbx f.tag with
    | some g => match (readsOf g).findIdx? fun r => r.tier == .shared n && r.lost.isNone with
      | some i => s.readLost g i .tierFailed
      | none => s
    | none => s) s

/-- A barrier does not wait for a lost member any more: it is over here (Table 17-6). -/
def Composition.barriersLose (k : Composition) (self n : Nat) : Tab (List Nat × Nat) :=
  k.barriers.keep fun id b =>
    !((k.kids (id % 65536) self).any fun c => (k.under (id % 65536) c).contains n && !b.1.contains c)

/-- Everything here that used a member that is lost ends as Table 17-6 says. -/
def State.memberGone (id n : Nat) (s : State) : State :=
  match s.comp.compositions.find id with
  | none => s
  | some k =>
    let s := (s.comp.served.filter (·.run.composition == id)).foldl (State.mergeLoses k n) s
    let s := (s.tables.tables.vals.filter fun t => t.desc.composition == id && t.members.contains n && !t.broken).foldl (State.tableLoses n) s
    let s := (s.loseReplicas id fun x => x == n).ownerLost n
    s.updComp id fun k => { k with
      barriers := k.barriersLose s.nodeId n, probes := k.probes.del n, servers := k.servers.keep fun _ x => x != n }

/-- A member leaves the live ones here: the tree is another, and everyone has 10 ms again to be heard in it. -/
def Composition.without (k : Composition) (n now : Nat) : Composition :=
  let lost := if k.lost.contains n then k.lost else sortBy (n :: k.lost) fun a b => decide (a ≤ b)
  let live := k.members.filter fun x => !lost.contains x
  { k with
    lost := lost, heard := live.map fun x => (x, now), silent := [], childHeard := []
    coordinator := if lost.contains k.coordinator then live.headD 0 else k.coordinator }

/-- The coordinator declares a member lost: VERSION rises, the entry is logged, and every member is told (R428). -/
def State.declareLost (id n : Nat) (s : State) : State :=
  match s.comp.compositions.find id with
  | none => s
  | some k =>
    if k.lost.contains n then s
    else
      let k := { k.without n s.clock with version := k.version + 1 }
      let s := ({ s with comp.compositions := s.comp.compositions.put id k } : State).logKind 6 n
      let s := s.compAll 3 k 0 k.lost.length (padTo 8 (k.lost.flatMap (leBytes 2)))
      s.memberGone id n

/-- A node that is fenced here is lost in every composition shared with it (R433). -/
def State.treatLost (n : Nat) (s : State) : State :=
  (s.comp.compositions.filter fun e => e.2.members.contains n && n != s.nodeId).foldl (fun s e =>
    if e.2.coordinator == s.nodeId then s.declareLost e.1 n
    else (s.updComp e.1 fun k => k.without n s.clock).memberGone e.1 n) s

/-- The membership of this module in a composition ends: its tables are BROKEN, sub-queries of it end, and searches on it end (R337, R431). -/
def State.endMembership (id : Nat) (s : State) : State :=
  let s := (s.tables.tables.vals.filter fun t => t.desc.composition == id && !t.broken).foldl (State.tableLoses s.nodeId) s
  let s := (s.comp.served.filter (·.run.composition == id)).foldl (fun s x =>
    match x.root with
    | some (m, tag) => match s.flight m tag with
      | some f => s.endCommand f .compositionLost
      | none => s
    | none => s.abandonServed x) s
  let s := s.loseReplicas id fun _ => true
  let s := (s.tables.tables.vals.filter fun t => t.desc.composition == id && t.dropSent.isSome).foldl (fun s t => s.endDrop t) s
  { s with comp.compositions := s.comp.compositions.del id }

/-! ### Joining (R427) -/

/-- The composition is ACTIVE: its members count as heard from now on, and JOIN answers with the shard number. -/
def State.activate (k : Composition) (s : State) : State :=
  let s := s.updComp k.id fun k => { k with
    active := true, waiting := [], coordHeard := s.clock, heard := k.members.map fun n => (n, s.clock) }
  k.waiting.foldl (fun s w =>
    match s.flight w.1 w.2.1 with
    | some f => s.answer f .done (leBytes 4 (k.shardOf s.nodeId) ++ zeros 4)
    | none => s) s

/-- The coordinator holds an identical JOIN of every member: it makes the composition ACTIVE, and tells each. -/
def State.tryActivate (id : Nat) (s : State) : State :=
  match s.comp.compositions.find id with
  | none => s
  | some k =>
    if k.active || k.coordinator != s.nodeId || !k.members.all k.joined.contains then s
    else (s.compAll 2 k 0 0 k.digest).activate k

/-- The packet offset of the first node of a JOIN list that breaks R427. -/
def joinFault (self : Nat) (ns : List Nat) (outside : Option Nat) : Option Nat :=
  match (ns.zip (ns.drop 1)).findIdx? (fun x => decide (x.2 ≤ x.1)) with
  | some i => some (0x30 + 2 * (i + 1))
  | none => if ns.contains self then outside.map fun i => 0x30 + 2 * i else some 0x30

/-- COMPOSITION_JOIN (R427, Table 17-9). `outside` tells the first listed node that is not in the module's partition. -/
def execCompositionJoin (m : Mbx) (tag : Word) (outside : Option Half) (s : State) : Host.Outcome State Fault Refusal :=
  .next (s.start 0x6030 m tag fun f s => do
    need (!s.selfFenced) fencedDetail
    opening f 24 16777216
    let b := f.plain
    let n := field b 8 4
    let id := field b 0 4
    fields [(0, id != 0), (8, 1 ≤ n && n ≤ 65536), (12, zeroField b 12 4)]
    need (b.length == 16 + (2 * n + 7) / 8 * 8) (bad 0x0C)
    need (s.fabric.route.isSome && s.comp.partition != 0) (bad 0x30)
    let ns := (records 2 n (b.drop 16)).map leNat
    match joinFault s.nodeId ns (outside.map (·.toNat)) with
    | some o => .error (bad o)
    | none => do
      need (zeroField b (16 + 2 * n) (b.length - 16 - 2 * n)) (bad (0x30 + 2 * n))
      let old := s.comp.compositions.find id
      need (old.all fun k => decide (k.version < field b 4 4)) (wrongStateAt 0x24)
      need (old.isSome || decide (s.comp.compositions.length < 256)) (noResources 256)
      let digest := Config.sha384 b
      let version := field b 4 4
      let early := s.comp.earlyJoins.filter fun j => j.1 == id && j.2.1 == version && j.2.2.2 == digest
      let k : Composition := {
        id := id, version := version, members := ns, digest := digest, joined := s.nodeId :: early.map (·.2.2.1), coordinator := ns.headD 0
        coordHeard := s.clock, waiting := (old.elim [] (·.waiting)) ++ [(f.mbx, f.tag, s.clock)] }
      let s := if old.isSome then s.endMembership id else s
      let s := { s with
        comp.compositions := s.comp.compositions.put id k, comp.earlyJoins := s.comp.earlyJoins.filter fun j => !(j.1 == id && decide (j.2.1 ≤ version)) }
      let s := s.setWork f .eventWait
      .ok (if k.coordinator == s.nodeId then s.tryActivate id else s.compPost k.coordinator 1 k 0 0 digest))

/-- COMPOSITION_JOIN_TIMEOUT (R427): after 60 s the JOIN answers, and the composition stays FORMING. -/
def execCompositionJoinTimeout (m : Mbx) (tag : Word) (s : State) : Host.Outcome State Fault Refusal :=
  let hit (w : Nat × Word × Nat) : Bool := w.1 == m.key && w.2.1 == tag && decide (w.2.2 + 60000000000 ≤ s.clock)
  .next (match s.comp.compositions.vals.find? fun k => k.waiting.any hit, s.flight m.key tag with
    | some k, some f =>
      (s.updComp k.id fun k => { k with waiting := k.waiting.filter fun w => !hit w }).answer f .deadlineExceeded []
    | _, _ => s)

/-! ### Leaving (R431) -/

/-- DONE for the COMPOSITION_LEAVE that waits, and the membership ends. -/
def State.left (k : Composition) (s : State) : State :=
  let s := s.endMembership k.id
  match k.leaving with
  | some (some (m, tag)) => match s.flight m tag with
    | some f => s.answer f .done []
    | none => s
  | _ => s

/-- Go on with leaving a composition: once the sub-queries admitted and the steps of its tables are done, the coordinator is told, or, being the
coordinator, the module raises VERSION itself. -/
def State.settleLeave (id : Nat) (s : State) : State :=
  match s.comp.compositions.find id with
  | none => s
  | some k =>
    let busy := (s.comp.served.any fun x => x.run.composition == id && x.root.isNone) ||
      s.tables.tables.vals.any fun t => t.desc.composition == id && !t.broken && t.closing
    if k.leaving.isNone || k.leaveSent || busy then s
    else if k.coordinator == s.nodeId then
      let lost := sortBy (s.nodeId :: k.lost) fun a b => decide (a ≤ b)
      let k := { k with version := k.version + 1, lost := lost }
      (s.compAll 3 k 0 lost.length (padTo 8 (lost.flatMap (leBytes 2)))).left k
    else (s.updComp id fun k => { k with leaveSent := true }).compPost k.coordinator 6 k 0 0 []

/-- A module begins to leave: the current step of each of the composition's tables closes. -/
def State.beginLeave (id : Nat) (cmd : Option (Nat × Word)) (s : State) : State :=
  let s := { s with tables.tables := s.tables.tables.each fun t =>
    if t.desc.composition = id && !t.broken && t.creating.isNone then { t with closing := true } else t }
  s.updComp id fun k => { k with leaving := some cmd }

/-- COMPOSITION_LEAVE (R431): the same row goes on once what the module must complete first is done. -/
def execCompositionLeave (m : Mbx) (tag : Word) (s : State) : Host.Outcome State Fault Refusal :=
  .next (match s.flight m.key tag with
    | none => s
    | some f =>
      if f.opcode.toNat == 0x6031 && f.work == .eventWait then s.settleLeave (field f.plain 0 4)
      else s.start 0x6031 m tag fun f s => do
        opening f 8 8
        fields [(4, zeroField f.plain 4 4)]
        match s.comp.compositions.find (field f.plain 0 4) with
        | none => .error (bad 0x20)
        | some k => do
          need (k.active && k.leaving.isNone) (wrongStateAt 0x20)
          .ok (((s.beginLeave k.id (some (f.mbx, f.tag))).setWork f .eventWait).settleLeave k.id))

/-! ### Heartbeats and losses (R428) -/

/-- HEARTBEAT_TICK (R428): up to the parent; the coordinator, while it hears a majority, sends down, and probes what lies under a silent member. -/
def execHeartbeatTick (composition : Word) (s : State) : Host.Outcome State Fault Refusal :=
  .next (match s.comp.compositions.find composition.toNat with
    | none => s
    | some k =>
      let self := s.nodeId
      if !k.active || !s.serving then s
      else if k.coordinator == self then
        let kids := k.kids self self
        let s := if k.majority self s.clock then
            kids.foldl (fun s n => s.post n 0x50 0 0 true (collectiveHead self 1 3 0 k.id k.version 0)) s
          else s
        let quiet := (kids.filter fun n => !k.recent s.clock 10 n).flatMap fun n => (k.under self n).filter (· != n)
        (quiet.filter fun n => !k.recent s.clock 10 n && (k.probes.find n).isNone).foldl (fun s n =>
          (s.updComp k.id fun k => { k with probes := k.probes.put n s.clock }).compPost n 4 k 0 0 []) s
      else
        let r := k.report self s.clock
        s.post (k.parent k.coordinator self) 0x50 0 0 true
          (collectiveHead k.coordinator 2 3 ((k.order k.coordinator).idxOf self) k.id k.version r.1 ++ leBytes 4 r.2.length ++ zeros 4 ++
            padTo 8 (r.2.flatMap (leBytes 2))))

/-- MEMBER_LOST (R428): the coordinator declares lost a member that its parent reports silent for 10 ms. -/
def execMemberLost (composition : Word) (node : Half) (s : State) : Host.Outcome State Fault Refusal :=
  let n := node.toNat
  .next (match s.comp.compositions.find composition.toNat with
    | none => s
    | some k =>
      let self := s.nodeId
      if k.active && k.coordinator == self && n != self && k.live.contains n && (k.report self s.clock).2.contains n then s.declareLost k.id n else s)

/-- PROBE_TIMEOUT (R428): a probe has drawn no answer within 5 ms. -/
def execProbeTimeout (composition : Word) (node : Half) (s : State) : Host.Outcome State Fault Refusal :=
  let n := node.toNat
  .next (match s.comp.compositions.find composition.toNat with
    | none => s
    | some k => match k.probes.find n with
      | some t =>
        if k.coordinator == s.nodeId && decide (t + 5000000 ≤ s.clock) then s.declareLost k.id n else s
      | none => s)

/-- The coordinator this module follows has been silent for 20 ms (R429). -/
def Composition.coordSilent (k : Composition) (self now : Nat) : Bool := k.coordinator != self && decide (k.coordHeard + 20000000 ≤ now)

/-- COORDINATOR_TAKEOVER (R429): the coordinator is silent; a module that hears a majority, and no lower member, takes the role and declares the old
one lost; one that does not hear a majority yet probes the members it has not heard. -/
def execCoordinatorTakeover (composition : Word) (s : State) : Host.Outcome State Fault Refusal :=
  .next (match s.comp.compositions.find composition.toNat with
    | none => s
    | some k =>
      let self := s.nodeId
      if !k.active || !k.coordSilent self s.clock || k.lost.contains self then s
      else
        let others := k.live.filter fun n => n != self && n != k.coordinator
        if k.majority self s.clock then
          if others.any fun n => n < self && k.recent s.clock 20 n then s
          else
            let s := s.updComp k.id fun x => { x with coordinator := self, coordHeard := s.clock, probes := [] }
            let s := s.compAll 7 k (k.hears self s.clock) 0 []
            s.declareLost k.id k.coordinator
        else (others.filter fun n => !k.recent s.clock 20 n).foldl (fun s n =>
          (s.updComp k.id fun x => { x with probes := x.probes.put n s.clock }).compPost n 4 k 0 0 []) s)

/-- SELF_FENCE (R429): for 20 ms no coordinator with a majority was reached; the fence lifts once one is. -/
def execSelfFence (composition : Word) (s : State) : Host.Outcome State Fault Refusal :=
  .next (match s.comp.compositions.find composition.toNat with
    | none => s
    | some k =>
      let self := s.nodeId
      let alone := if k.coordinator == self then !k.majority self s.clock else k.coordSilent self s.clock
      let tell (flags : Nat) (s : State) : State :=
        if k.coordinator == self then s else s.compPost k.coordinator 8 k 0 0 (leBytes 2 self ++ leBytes 1 flags ++ zeros 5)
      if !k.active || alone == k.fenced then s
      else if alone then tell 0 ((s.updComp k.id fun k => { k with fenced := true }).logKind 7 self)
      else tell 2 ((s.updComp k.id fun k => { k with fenced := false }).logKind 7 self))

/-! ### Composition messages (Table 16-27) -/

/-- A member was heard directly. -/
def State.hearMember (id n : Nat) (s : State) : State :=
  s.updComp id fun k => { k with heard := k.heard.put n s.clock, probes := k.probes.del n }

/-- LOST: the new list of lost members, under a higher VERSION; a module that finds itself in it is out (R428, R431). -/
def State.lostHere (k : Composition) (version : Nat) (lost : List Nat) (s : State) : State :=
  if version ≤ k.version then s
  else if lost.contains s.nodeId then s.left k
  else
    let new := lost.filter fun n => !k.lost.contains n
    let s := s.updComp k.id fun k => { lost.foldl (fun k n => k.without n s.clock) k with version := version }
    new.foldl (fun s n => s.memberGone k.id n) s

/-- A member leaves: it is told with the others that it is out (R431). -/
def State.declareLeft (k : Composition) (n : Nat) (s : State) : State :=
  let s := s.declareLost k.id n
  match s.comp.compositions.find k.id with
  | some k => s.compPost n 3 k 0 k.lost.length (padTo 8 (k.lost.flatMap (leBytes 2)))
  | none => s

/-- FENCE: the receiver logs it, and applies or lifts R433 for NODE. -/
def State.fenceHere (body : Bytes) (s : State) : State :=
  let n := field body 0 2
  let s := s.logKind 7 n
  if bit (field body 2 1) 1 then { s with comp.told := s.comp.told.filter (· != n) }
  else ({ s with comp.told := if s.comp.told.contains n then s.comp.told else n :: s.comp.told } : State).treatLost n

/-- The layout of a composition message. -/
def compFaultless (b : Bytes) : Bool :=
  let kind := field b 0 1
  let n := field b 0x10 4
  let len := field b 0x14 4
  24 ≤ b.length && 1 ≤ kind && kind ≤ 8 && zeroField b 1 3 && len == b.length - 24 && (kind == 7 || field b 0xE 2 == 0) &&
    (if kind ≤ 2 then len == 48 else if kind = 3 then len == (2 * n + 7) / 8 * 8 else if kind = 8 then len == 8 && zeroField b 0x1B 5 else len == 0)

/-- COMPOSITION (R427–R429, R431, R433, R420). -/
def execComposition (s : State) : Host.Outcome State Fault Refusal :=
  .next (match s.takeMessage 0x60 [] with
    | none => s
    | some (x, s) =>
      let b := x.body
      let kind := field b 0 1
      let id := field b 4 4
      let version := field b 8 4
      if !s.serving then s
      else s.wellFormed x (compFaultless b && field b 0xC 2 == x.src) (fun s =>
        if kind = 8 then s.fenceHere (b.drop 24)
        else match s.comp.compositions.find id with
          | none =>
            if kind = 1 then
              { s with comp.earlyJoins := (s.comp.earlyJoins.filter fun j => !(j.1 == id && j.2.2.1 == x.src)) ++ [(id, version, x.src, b.drop 24)] }
            else s.partnerViolation x.port x.src
          | some k =>
            if !k.members.contains x.src && kind != 1 then s.partnerViolation x.port x.src
            else
              let s := s.hearMember id x.src
              match kind with
              | 1 =>
                if k.version < version then
                  { s with comp.earlyJoins := (s.comp.earlyJoins.filter fun j => !(j.1 == id && j.2.2.1 == x.src)) ++ [(id, version, x.src, b.drop 24)] }
                else if version == k.version && b.drop 24 == k.digest && k.members.contains x.src then
                  if k.active then s.compPost x.src 2 k 0 0 k.digest
                  else (s.updComp id fun k => { k with joined := x.src :: k.joined.filter (· != x.src) }).tryActivate id
                else s
              | 2 => if !k.active && x.src == k.coordinator && version == k.version && b.drop 24 == k.digest then s.activate k else s
              | 3 => s.lostHere k version ((records 2 (field b 0x10 4) (b.drop 24)).map leNat)
              | 4 => s.compPost x.src 5 k 0 0 []
              | 5 => s
              | 6 => if k.coordinator == s.nodeId then s.declareLeft k x.src else s
              | _ =>
                if k.members.length < 2 * field b 0xE 2 && (x.src < k.coordinator || k.coordSilent s.nodeId s.clock || k.lost.contains k.coordinator) then
                  s.updComp id fun k => { k with coordinator := x.src, coordHeard := s.clock, silent := [], childHeard := [] }
                else s))

/-! ### Collectives (R416, Table 16-26) -/

/-- Take the oldest collective message whose CL.KIND is one of `kinds`. -/
def State.takeCollective (kinds : List Nat) (s : State) : Option (Inbound × State) :=
  match s.fabric.inbox.find? fun x => x.type == 0x50 && kinds.contains (field x.body 8 1) with
  | some x => some (x, { s with fabric.inbox := s.fabric.inbox.erase x })
  | none => none

/-- COLL_DOWN (R416, R428, R429): a broadcast's carried message is handled, and a heartbeat or a barrier's release goes on to the children. -/
def execCollDown (s : State) : Host.Outcome State Fault Refusal :=
  .next (match s.takeCollective [1, 3] with
    | none => s
    | some (x, s) =>
      let b := x.body
      let op := field b 9 1
      let n := field b 0x1C 4
      let root := field b 0 2
      if !s.serving then s
      else match s.comp.compositions.find (field b 0xC 4) with
        | none => s.partnerViolation x.port x.src
        | some k =>
          let ok := 24 ≤ b.length && k.members.contains x.src && field b 0x14 4 == 0 &&
            (if field b 8 1 = 3 then op == 2 && b.length == 24
             else (op == 1 && 32 ≤ b.length && field b 24 1 == 0x10 && zeroField b 25 3 && b.length == 32 + n) || (op == 3 && b.length == 24))
          s.wellFormed x ok (fun s =>
            let forward (s : State) : State :=
              (k.kids root s.nodeId).foldl (fun s c => s.post c 0x50 x.cls x.tenant (op == 3)
                (collectiveHead (field b 0 8) (field b 8 1) op ((k.order root).idxOf s.nodeId) k.id k.version 0)) s
            if op = 1 then s.admitSubquery x (b.drop 32)
            else if op = 3 then
              if !k.active || !(root == k.coordinator || root < k.coordinator || k.coordSilent s.nodeId s.clock) || k.lost.contains root then s
              else
                let s := s.updComp k.id fun k => { k with coordinator := root, coordHeard := s.clock, heard := k.heard.put x.src s.clock }
                forward s
            else forward (s.updComp k.id fun k => { k with barriers := k.barriers.del (field b 0 8) })))

/-- A barrier at this module: its own arrival counts from when it first hears of it, and once every child's subtree has reported, the report goes up,
or, at the root, the last finisher is recorded and the release goes down (R416, R440). -/
def State.settleBarrier (k : Composition) (id cls tenant : Nat) (s : State) : State :=
  match k.barriers.find id with
  | none => s
  | some (arrived, last) =>
    let root := id % 65536
    let kids := k.kids root s.nodeId
    if !kids.all arrived.contains then s
    else
      let s := s.updComp k.id fun k => { k with barriers := k.barriers.del id }
      if root == s.nodeId then
        let s := s.updComp k.id fun k => { k with finishers := last :: k.finishers.take 1023 }
        kids.foldl (fun s c => s.post c 0x50 cls tenant false (collectiveHead id 3 2 0 k.id k.version 0)) s
      else
        s.post (k.parent root s.nodeId) 0x50 cls tenant false
          (collectiveHead id 2 2 ((k.order root).idxOf s.nodeId) k.id k.version (k.under root s.nodeId).length ++ leBytes 2 last ++ zeros 6)

/-- COLL_UP (R416, R428): a child's heartbeat or barrier report. -/
def execCollUp (s : State) : Host.Outcome State Fault Refusal :=
  .next (match s.takeCollective [2] with
    | none => s
    | some (x, s) =>
      let b := x.body
      let op := field b 9 1
      let n := field b 24 4
      if !s.serving then s
      else match s.comp.compositions.find (field b 0xC 4) with
        | none => s.partnerViolation x.port x.src
        | some k =>
          let ok := 32 ≤ b.length && k.members.contains x.src &&
            (if op = 3 then zeroField b 28 4 && b.length == 32 + (2 * n + 7) / 8 * 8 else op == 2 && zeroField b 26 6 && b.length == 32)
          s.wellFormed x ok (fun s =>
            if k.lost.contains x.src then s
            else if op = 3 then
              s.updComp k.id fun k => { k with
                heard := k.heard.put x.src s.clock, childHeard := k.childHeard.put x.src (field b 0x14 4)
                silent := k.silent.put x.src ((records 2 n (b.drop 32)).map leNat), probes := k.probes.del x.src }
            else
              let id := field b 0 8
              let old := k.barriers.getD id ([], s.nodeId)
              let k := { k with barriers := k.barriers.put id (x.src :: old.1.filter (· != x.src), field b 24 2) }
              ({ s with comp.compositions := s.comp.compositions.put k.id k } : State).settleBarrier k id x.cls x.tenant))

/-! ### Last finishers (R440) -/

/-- How often a member was last among the last 1,024 barriers and merges. -/
def Composition.lastCount (k : Composition) (n : Nat) : Nat := (k.finishers.filter (· == n)).length

/-- SUSPECT_MEMBER (R440): at the threshold (rounded up, since the counts are whole) the member is marked, and an IN_SYNC `replica` takes its shard's sub-queries; below half of it the mark
lifts. -/
def execSuspectMember (composition : Word) (node : Half) (replica : Option Half) (s : State) : Host.Outcome State Fault Refusal :=
  let n := node.toNat
  .next (match s.comp.compositions.find composition.toNat with
    | none => s
    | some k =>
      let limit := max ((4095 + k.members.length) / k.members.length) 32
      let report (s : State) : State := (s.logKind 8 n).emit (.event 8 n)
      if !k.members.contains n then s
      else if !k.suspect.contains n && decide (limit ≤ k.lastCount n) then
        report (s.updComp k.id fun k => { k with
          suspect := n :: k.suspect, servers := match replica with | some r => k.servers.put (k.shardOf n) r.toNat | none => k.servers })
      else if k.suspect.contains n && decide (2 * k.lastCount n < limit) then
        report (s.updComp k.id fun k => { k with
          suspect := k.suspect.filter (· != n), servers := if k.lost.contains n then k.servers else k.servers.del (k.shardOf n) })
      else s)

/-! ### FENCE_SET (R432–R434) -/

/-- The ports that an electrical fence of a node holds idle (R434). -/
def State.fencedPorts (n : Nat) (s : State) : List Nat :=
  (List.range 32).filter fun p => n == s.nodeId || (s.vievo p).partner == some n

/-- Tell the coordinator of every composition shared with a node (R420). -/
def State.tellFence (n flags : Nat) (s : State) : State :=
  (s.comp.compositions.vals.filter fun k => k.active && k.members.contains n && k.coordinator != s.nodeId).foldl (fun s k =>
    s.compPost k.coordinator 8 k 0 0 (leBytes 2 n ++ leBytes 1 flags ++ zeros 5)) s

/-- The ports of an electrical fence go idle. -/
def State.idlePorts (n : Nat) (s : State) : State :=
  (s.fencedPorts n).foldl (fun s p => (s.linkDown p).updVievo p fun x => { x with idledBy := n :: x.idledBy.filter (· != n) }) s

/-- A fence of a node holds a port idle no longer. -/
def unidle (n : Nat) (x : Port) : Port := { x with idledBy := x.idledBy.filter (· != n) }

/-- FENCE_SET (R432–R434). -/
def execFenceSet (m : Mbx) (tag : Word) (s : State) : Host.Outcome State Fault Refusal :=
  .next (s.start 0x6021 m tag fun f s => do
    opening f 12 12
    let b := f.plain
    let op := field b 0 1
    let n := field b 4 2
    let elec := bit (field b 1 1) 0
    fields [(0, op == 1 || op == 3 || op == 4), (1, decide (field b 1 1 < 2)), (2, zeroField b 2 2), (6, zeroField b 6 6)]
    let s := if op = 1 then
        let s := (s.tellFence n (flag elec)).logKind 7 n
        let s := { s with
          comp.fences := if s.comp.fences.contains n then s.comp.fences else n :: s.comp.fences
          comp.electrical := if elec && !s.comp.electrical.contains n then n :: s.comp.electrical else s.comp.electrical }
        let s := if n == s.nodeId then s else s.treatLost n
        if elec then s.idlePorts n else s
      else if op = 3 then
        let s := { s with
          comp.fences := s.comp.fences.filter (· != n), comp.electrical := s.comp.electrical.filter (· != n)
          comp.told := s.comp.told.filter (· != n)
          fabric.ports := s.fabric.ports.map (unidle n) }
        (s.tellFence n 2).logKind 7 n
      else { s with comp.records := s.comp.records.filter (·.source != n) }
    .ok (s.answer f .done (leBytes 4 s.comp.fences.length ++ zeros 4)))

end Sys2Proof.Machine
end

