-- ==== Sys2Proof/Machine/GranuleCode.lean ====
section
/-!
DEFINITION. The code that guards each granule of HBM: Reed-Solomon over GF(2⁸), 64 data bytes and 8 check bytes (R182). Symbol i of the 72 has the locator
αⁱ, and the check bytes are symbols 64 to 71 (DEDUCED, log entry 150).
-/
namespace Sys2Proof.Machine

/-- One step of a product in GF(2⁸) under x⁸ + x⁴ + x³ + x² + 1: times x. -/
def gfTwice (a : Nat) : Nat := if 256 ≤ 2 * a then (2 * a) ^^^ 0x11D else 2 * a

/-- The product of two symbols, over the low `n` bits of the second. -/
def gfMulBits : Nat → Nat → Nat → Nat
  | 0, _, _ => 0
  | n + 1, a, b => (if b % 2 = 1 then a else 0) ^^^ gfMulBits n (gfTwice a) (b / 2)

/-- The product of two symbols. -/
def gfMul (a b : Nat) : Nat := gfMulBits 8 a b

/-- αⁿ. -/
def gfAlpha : Nat → Nat
  | 0 => 1
  | n + 1 => gfTwice (gfAlpha n)

/-- A power of a symbol. -/
def gfPow (a : Nat) : Nat → Nat
  | 0 => 1
  | n + 1 => gfMul a (gfPow a n)

/-- The inverse of a symbol other than 0. -/
def gfInv (a : Nat) : Nat := gfPow a 254

/-- The value of a word at the root αʲ. -/
def rsSyndrome (w : List Nat) (j : Nat) : Nat := w.foldr (fun c acc => c ^^^ gfMul acc (gfAlpha j)) 0

/-- The eight syndromes of a word: all 0 where it is a codeword. -/
def rsSyndromes (w : List Nat) : List Nat := (List.range 8).map (rsSyndrome w)

/-- The coefficients below the first of the polynomial that the check bytes are computed with, its roots α⁰, α⁻¹ to α⁻⁷, highest first. -/
def rsGenerator : List Nat :=
  ((List.range 8).foldl (fun g j =>
    let a := gfAlpha ((255 - j) % 255)
    List.zipWith (fun x y => x ^^^ gfMul a y) (g ++ [0]) (0 :: g)) [1]).drop 1

/-- The 8 check bytes of 64 data bytes. -/
def rsCheck (d : List Nat) : List Nat :=
  d.foldl (fun r b =>
    let f := b ^^^ r.headD 0
    List.zipWith (fun x g => x ^^^ gfMul f g) (r.drop 1 ++ [0]) rsGenerator) (List.replicate 8 0)

/-- A granule as it is stored: its data and its check bytes. -/
def rsEncode (d : List Nat) : List Nat := d ++ rsCheck d

/-- The errors that two symbols at given places would need, where they explain all syndromes. -/
def rsPair (syn : List Nat) (i k : Nat) : Option (List (Nat × Nat)) :=
  let a := gfAlpha i
  let b := gfAlpha k
  let ek := gfMul (syn.getD 1 0 ^^^ gfMul a (syn.getD 0 0)) (gfInv (a ^^^ b))
  let ei := syn.getD 0 0 ^^^ ek
  if ei != 0 && ek != 0 && (List.range 8).all fun j => syn.getD j 0 == gfMul ei (gfPow a j) ^^^ gfMul ek (gfPow b j) then some [(i, ei), (k, ek)] else none

/-- What is wrong with a word, symbol by symbol: nothing, one symbol or two; none where the code cannot correct it (R182). -/
def rsErrors (w : List Nat) : Option (List (Nat × Nat)) :=
  let syn := rsSyndromes w
  let e := syn.getD 0 0
  if syn.all (· == 0) then some []
  else match (List.range 72).find? fun i => e != 0 && (List.range 8).all fun j => syn.getD j 0 == gfMul e (gfPow (gfAlpha i) j) with
    | some i => some [(i, e)]
    | none => (List.range 72).findSome? fun k => (List.range k).findSome? fun i => rsPair syn i k

/-- A word with its errors taken out, and how many symbols that changed; none where the code cannot correct it. -/
def rsDecode (w : List Nat) : Option (List Nat × Nat) :=
  (rsErrors w).map fun es => (w.mapIdx (fun i c => (es.filter (·.1 == i)).foldl (fun c x => c ^^^ x.2) c), es.length)

end Sys2Proof.Machine
end

