-- ==== Sys2Proof/Machine/Segments.lean ====
section
/-!
DEFINITION. Segments and compaction: sealing, tombstone segments, retirement, materialised predicate tombstones, compaction
(R116, R122–R131).
-/
namespace Sys2Proof.Machine

/-- DONE payload of SEGMENT_SEAL (Table 4-6). -/
def sealPayload (seg items csn : Nat) : Bytes := leBytes 8 seg ++ leBytes 4 items ++ zeros 4 ++ leBytes 8 csn

/-- SEGMENT_SEAL (R123, R130, R131): an empty open segment answers at once; otherwise the seal begins at the first commit
boundary, and the command answers once its segment is SEALED. -/
def execSegmentSeal (m : Mbx) (tag : Word) (s : State) : Host.Outcome State Fault Refusal :=
  .next (s.start 0x2030 m tag fun f s => do
    opening f 8 8
    fields [(4, zeroField f.plain 4 4)]
    let id := field f.plain 0 4
    let c ← s.usableColl 0x20 id f
    match c.openSegment with
    | none => .ok s
    | some x =>
      if (c.rows x.id).isEmpty then
        .ok (((s.updColl id Collection.askTombs).sealAtBoundary id).answer f .done (sealPayload 0 0 c.committed))
      else do
        need (decide (c.sealingCount < 4)) (busyRetry 20000)
        let s := s.updColl id fun c => { c.askTombs with sealRequested := true }
        .ok ((s.setWork f (.sealWait id 0)).sealAtBoundary id))

/-- The open segment is due to be sealed: its item count, or the age of its first item (R123). -/
def sealDue (c : Collection) (now : Nat) (x : Segment) : Bool :=
  let n := if x.tombstone then x.records.length else (c.rows x.id).length
  n != 0 && (c.desc.sealItems ≤ n || x.firstAt.any fun t => decide (t + c.desc.sealMs * 1000000 ≤ now))

/-- Bytes of the records that the module's own ingest log holds (R109, R124). -/
def State.logBytes (s : State) : Nat := (s.index.collections.vals.map fun c => (c.ops.map (·.record.length)).sum).sum

/-- The module's ingest log has reached 75 % of its 16 GiB (R123, R436). -/
def State.logFull (s : State) : Bool := decide (3 * 2 ^ 32 ≤ s.logBytes)

/-- SEGMENT_SEAL_TRIGGER (R123, R126): the open segment or the open tombstone segment has reached SEAL_ITEMS or SEAL_MS, or the
module's ingest log has reached 75 %; the seal takes effect at the next commit boundary. -/
def execSegmentSealTrigger (collection : Word) (tombstones : Bool) (s : State) : Host.Outcome State Fault Refusal :=
  let id := collection.toNat
  .next (match s.coll id with
    | none => s
    | some c =>
      if c.availability != .ready || c.dropping.isSome || !s.serving then s
      else
        let c := if tombstones then (if s.logFull || c.openTombs.any (sealDue c s.clock) then c.askTombs else c)
          else { c with sealRequested := c.sealRequested ||
            c.openSegment.any fun x => sealDue c s.clock x || (s.logFull && !(c.rows x.id).isEmpty) }
        (s.setColl c).sealAtBoundary id)

/-- Answer the SEGMENT_SEAL commands that wait for a segment (R131). -/
def State.answerSealers (id : Nat) (x : Segment) (items csn : Nat) (s : State) : State :=
  s.host.flights.foldl (fun s f =>
    if f.work == .sealWait id x.id then s.answer f .done (sealPayload x.id items csn) else s) s

/-- Tell the log peers up to which CSN their records may go (R436). -/
def State.sendRelease (id csn : Nat) (s : State) : State :=
  s.logPeers.foldl (fun s p => s.post p 0x20 4 0 true (logMessage 3 id csn s.nodeId [])) s

/-- End the SEGMENT_SEAL commands that wait for a segment: a tier failed while it was written (Table 4-9). -/
def State.failSealers (id seg : Nat) (s : State) : State :=
  s.host.flights.foldl (fun s f => if f.work == .sealWait id seg then s.answer f .tierFailed [] else s) s

/-- Another item segment may become SEALED: at most 65,536 are SEALED and MERGING together, and a running compaction's output counts from its start
(R122; DESIGN CHOICE, log entry 146). -/
def Collection.durableRoom (c : Collection) : Bool :=
  decide (c.durableCount + (if c.compaction.any fun k => !c.segments.any fun x => x.id == k.output then 1 else 0) < 65536)

/-- SEGMENT_SEALED (R122, R124, R125): the manifest is verified, or a tier failed, which leaves the segment SEALING and its operations in
the log. The segment becomes SEALED, its records are read from flash from
now on, and the ingest-log records whose every change is sealed are released here and on the log peers. -/
def execSegmentSealed (collection : Word) (seg : Nat) (failed : Bool) (s : State) : Host.Outcome State Fault Refusal :=
  let id := collection.toNat
  .next (match s.coll id with
    | none => s
    | some c => match c.segment seg with
      | none => s
      | some x =>
        if (failed || s.flash.failed) && x.state == .sealing then s.failSealers id seg
        else if x.state == .sealing && c.availability == .ready && s.serving && !s.flash.lowSpace && (x.tombstone || c.durableRoom) then
          let c := c.updSegment seg fun x => { x with state := .sealed }
          let c := { c with map.evaluate := true }
          let c := { c with versions := c.versions.map fun (v : Version) => if v.seg == seg then { v with staged := false } else v }
          let items := (c.rows seg).length
          let csn := c.highest x
          let before := c.ops.length
          let c := (c.dropPredicates).release
          let s := ((s.setColl c).answerSealers id x items csn).sealAtBoundary id
          if c.ops.length < before then s.sendRelease id c.sealedCsn else s
        else s)

/-- Nothing holds rows of a segment any more: its lists have been switched, and no command is bound to the extents they left (R119, Table 4-5). -/
def State.segmentFree (c : Collection) (seg : Nat) (s : State) : Bool :=
  (c.rows seg).isEmpty && !(c.extents.any fun e => e.seg == seg && s.extentHeld c e)

/-- SEGMENT_RETIRE (R119, R122, R126): a segment whose lists have all been replaced, and to which no command is bound, is RETIRED
and its space freed; tombstone segments that refer to nothing any more go with it. -/
def execSegmentRetire (collection : Word) (seg : Nat) (s : State) : Host.Outcome State Fault Refusal :=
  let id := collection.toNat
  .next (match s.coll id with
    | none => s
    | some c => match c.segment seg with
      | none => s
      | some x =>
        let running := c.compaction.any fun k => k.inputs.contains seg
        if x.state == .merging && !running && s.segmentFree c seg then
          let c := { c with
            segments := c.segments.filter fun y => y.id != seg
            extents := c.extents.filter fun e => e.seg != seg
            indices := c.indices.filter fun x => x.seg != seg }
          let s := (s.setColl ((c.retireTombs).release)).unmapObject id seg
          { s with tiers.objects := s.tiers.objects.map fun (o : SharedObject) =>
              if o.collection == id && o.segment == seg then { o with superseded := true } else o }
        else s)

/-- Write the background marks of a predicate tombstone: del(v) = d where DEL_CSN is still ∞ (R116). -/
def Collection.materialise (c : Collection) (now : Nat) (t : PredTombstone) : Collection × Nat :=
  let r := c.mark now t.csn (fun v => v.del.isNone && decide (v.ins < t.csn) &&
    passes c.desc.fields (readPreds t.predicates) v.packed v.ext)
  ({ r.1 with predicates := r.1.predicates.map fun x => if x.csn == t.csn then { x with marked := true } else x }, r.2)

/-- TOMBSTONE_MATERIALISED (R116): the background marks are done; once they are sealed the tombstone goes. A poisoned extent stops the pass (R186). -/
def execTombstoneMaterialised (collection : Word) (csn : Nat) (s : State) : Host.Outcome State Fault Refusal :=
  let id := collection.toNat
  .next (match s.coll id with
    | none => s
    | some c => match c.predicates.find? (·.csn == csn) with
      | none => s
      | some t =>
        if c.committed < csn || !s.serving || (!t.marked && s.workBlocked c fun _ => true) then s
        else
          let r := if t.marked then (c, 0) else c.materialise s.clock t
          let wide := (readPreds t.predicates).any fun p => (c.desc.fields[p.field]?).any (·.area)
          let s := if t.marked then s else (s.countWrites c r.1).countPass c (16 + (if wide then c.desc.extBytes else 0))
          let s := s.setColl (r.1.dropPredicates).release
          if r.2 = 0 then s else s.charge (ownerOf id) 0x60 r.2)

/-- The purge point: C − RETAIN_CSN, saturating at 0 (R129). -/
def purgePoint (c : Collection) : Nat := c.committed - c.desc.retainCsn

/-- Segments that a compaction with a purge point may take: SEALED ones, and those that a stopped compaction left MERGING with rows in them, all of
their CSNs at or below it (R122, R128; DEDUCED, log entry 147). -/
def eligible (c : Collection) (p : Nat) : List Segment :=
  c.segments.filter fun x => (x.state == .sealed || (x.state == .merging && !(c.rows x.id).isEmpty)) && !x.tombstone && decide (c.highest x ≤ p)

/-- Materialise every predicate tombstone at or below P (R129). -/
def Collection.materialiseAll (c : Collection) (now p : Nat) : Collection :=
  (c.predicates.filter fun t => t.csn ≤ p && !t.marked).foldl (fun c t => (c.materialise now t).1) c

/-- HBM of a list's rows in the segments taken, the largest first (R129). -/
def largestList (c : Collection) (inputs : List Nat) : Nat :=
  let rows := (c.versions.filter fun v => inputs.contains v.seg).map (·.list)
  (rows.map fun l => (rows.filter (· == l)).length).foldl max 0 * (c.desc.sketchBits / 8 + 26 + c.desc.extBytes)

/-- Start a compaction: materialise, raise the floor, which drops commit indices, and take the segments; its output has the generation that is current
now (R92, R120, R127, R129). -/
def Collection.startCompaction (c : Collection) (now p : Nat) (inputs : List Nat) (waiter : Option (Nat × Word)) : Collection :=
  let c := c.materialiseAll now p
  let lists := sortBy ((c.versions.filter fun v => inputs.contains v.seg).map (·.list)).eraseDups fun a b => decide (a ≤ b)
  ({ c with
    floor := max c.floor p
    segments := c.segments.map fun x => if inputs.contains x.id then { x with state := .merging } else x
    compaction := some { waiter := waiter, inputs := inputs, output := c.nextSegment, purge := p, gen := c.gen, lists := lists }
    nextSegment := c.nextSegment + 1 } : Collection).dropIndices

/-- A compaction of a collection starts; the marks it writes first are metered (R129, R444). -/
def State.beginCompaction (c : Collection) (inputs : List Nat) (waiter : Option (Nat × Word)) (s : State) : State :=
  let d := c.startCompaction s.clock (purgePoint c) inputs waiter
  let unmarked (c : Collection) : Nat := (c.versions.filter (·.del.isNone)).length
  let n := unmarked c - unmarked d
  let s := (s.setColl d).countWrites c d
  if n = 0 then s else s.charge (ownerOf c.id) 0x60 n

/-- DONE payload of COMPACT (Table 4-6). -/
def compactPayload (ins outs dropped floor : Nat) : Bytes := leBytes 4 ins ++ leBytes 4 outs ++ leBytes 8 dropped ++ leBytes 8 floor

/-- A compaction that has no list left ends, and its COMPACT is answered (R131). -/
def State.finishCompaction (id : Nat) (s : State) : State :=
  match s.coll id with
  | none => s
  | some c => match c.compaction with
    | none => s
    | some k =>
      if !k.lists.isEmpty then s
      else
        let outs := if (c.rows k.output).isEmpty then 0 else 1
        let s := s.setColl ({ c with compaction := none } : Collection).dropPredicates.release
        match k.waiter with
        | none => s
        | some (m, tag) => match s.flight m tag with
          | some f => s.answer f .done (compactPayload k.inputs.length outs k.dropped c.floor)
          | none => s

/-- COMPACT (R127–R130). -/
def execCompact (m : Mbx) (tag : Word) (s : State) : Host.Outcome State Fault Refusal :=
  .next (s.start 0x2031 m tag fun f s => do
    let b := f.plain
    opening f 16 16
    let fl := field b 4 4
    fields [(4, fl == 1 || fl == 2), (8, zeroField b 8 8)]
    let id := field b 0 4
    let c ← s.usableColl 0x20 id f
    need c.compaction.isNone (wrongStateAt 0x20)
    let p := purgePoint c
    let inputs := ((eligible c p).filter fun x => fl == 1 || x.gen != c.gen).map (·.id)
    let free := s.regionFree (placeClassOf s.placeImage c.cls).region
    need (decide (largestList c inputs ≤ free)) (noResources (free / 1048576))
    need (inputs.isEmpty || c.durableRoom) (noResources 65536)
    let s := s.beginCompaction c inputs (some (m.key, tag))
    .ok ((s.setWork f (.compactWait id)).finishCompaction id))

/-- A SEALED segment whose share of items deleted at or below P has reached COMPACT_PCT (R128). -/
def overPct (c : Collection) (p : Nat) (x : Segment) : Bool :=
  let rows := c.rows x.id
  !rows.isEmpty && decide (rows.length * c.desc.compactPct ≤ 100 * (rows.filter fun v => v.del.any (· ≤ p)).length)

/-- AUTO_COMPACTION_START (R128, R129): it takes the segments over COMPACT_PCT and no others, which R128 leaves open (DESIGN CHOICE, log entry 148); where
HBM for the largest list is not free, it waits. -/
def execAutoCompactionStart (collection : Word) (s : State) : Host.Outcome State Fault Refusal :=
  let id := collection.toNat
  .next (match s.coll id with
    | none => s
    | some c =>
      let p := purgePoint c
      let inputs := ((eligible c p).filter (overPct c p)).map (·.id)
      if c.desc.compactPct != 0 && c.compaction.isNone && c.availability == .ready && c.dropping.isNone && !inputs.isEmpty && c.durableRoom &&
          s.power.season == .summer && decide (largestList c inputs ≤ s.regionFree (placeClassOf s.placeImage c.cls).region) then
        s.beginCompaction c inputs none
      else s)

/-- The runs of a list's extents that hold rows of the segments a compaction takes: extents next to one another in the list, alike in their legacy flag. -/
def inputRuns (inputs : List Nat) (l : Nat) : List Extent → List (List Extent)
  | [] => []
  | e :: t =>
    let rest := inputRuns inputs l t
    if !(ownedBy l e) || e.replaced.isSome then rest
    else if e.list != l || !inputs.contains e.seg then [] :: rest
    else match rest with
      | (x :: r) :: t => if x.legacy == e.legacy then (e :: x :: r) :: t else [e] :: (x :: r) :: t
      | rest => [e] :: rest

/-- Switch one list: rows deleted at or below P go, the others lie in the output segment, bit-identical, in new extents where the old ones stood
(R127, R129, R151); none where no place is free. -/
def State.switchList (c : Collection) (k : Compaction) (l : Nat) (rest : List Nat) (s : State) : Option Collection :=
  let taken := fun v : Version => v.list == l && k.inputs.contains v.seg
  let gone := fun v : Version => taken v && v.del.any (· ≤ k.purge)
  let stay := c.versions.filter fun v => taken v && !gone v
  let held := c.rows k.output
  let dups := (stay.mapIdx fun i v => held.any (·.id == v.id) || (stay.take i).any (·.id == v.id)).filter (· == true)
  let c' : Collection := if c.segments.any (·.id == k.output) then c
    else { c with segments := c.segments ++ [{ id := k.output, state := .sealed, gen := k.gen }], map.evaluate := true }
  let moved := stay.mapIdx fun i v => { v with seg := k.output, pos := held.length + i }
  let c' := { c' with
    versions := (c.versions.filter fun v => !taken v) ++ moved
    dupIds := c.dupIds + dups.length
    compaction := some { k with lists := rest, dropped := k.dropped + (c.versions.filter gone).length } }
  ((inputRuns k.inputs l c.extents).filter (!·.isEmpty)).foldl (fun a run => a.bind fun c =>
    match run with
    | [] => some c
    | e :: _ => (s.copyRows c { e with seg := k.output, index := 0 } (moved.filter fun v => run.any (·.id == v.extent))).map fun x =>
        x.1.replaceExtents s.clock (fun y => run.any (·.id == y.id)) x.2) (some c')

/-- A compaction ends by a tier status or damage: its inputs stay in place, and its COMPACT is answered (R71, Table 4-9). -/
def State.failCompaction (c : Collection) (k : Compaction) (l : Loss) (s : State) : State :=
  let s := s.setColl c.stopCompaction
  let who := (k.waiter.bind fun w => s.flight w.1 w.2).elim (0, 0) fun f => (f.opcode.toNat, f.tag)
  let s := if l == .damaged then s.logIntegrity (ownerOf c.id) 1 0 (request := who) else s
  match k.waiter with
  | none => s
  | some (m, tag) => match s.flight m tag with
    | some f => s.answer f (if l == .damaged then .dataDamaged else .tierFailed) []
    | none => s

/-- COMPACTION_LIST_SWITCH (R129): the next list's extents are switched, once no command bound below P is in flight; where its reads were
lost, the compaction ends. -/
def execCompactionListSwitch (collection : Word) (lost : Option Loss) (s : State) : Host.Outcome State Fault Refusal :=
  let id := collection.toNat
  .next (match s.coll id with
    | none => s
    | some c => match c.compaction with
      | none => s
      | some k => match lost, k.lists with
        | some l, _ => s.failCompaction c k l
        | none, [] => s.finishCompaction id
        | none, l :: rest =>
          if s.boundBelow id k.purge || !s.serving || s.workBlocked c (ownedBy l) then s
          else match s.switchList c k l rest with
            | some d => ((s.setColl d).countWrites c d).finishCompaction id
            | none => s)

end Sys2Proof.Machine
end

