-- ==== Sys2Proof/Machine/NbuCommands.lean ====
section
/-!
DEFINITION. The near-bank scan units' marks, faults and diagnostics (R153, R170, R171, R176, R182–R187, R190–R195, R298).
-/
namespace Sys2Proof.Machine

/-- Put an entry at the head of an NBU's ECC log, which keeps the newest 64 (R191, Table 6-9). -/
def Nbu.logEcc (x : Nbu) (time addr kind bytes : Nat) : Nbu :=
  { x with log := { time := time, addr := addr / 64 * 64, kind := kind, bytes := bytes } :: x.log.take 63 }

/-- An acknowledged delete or upsert that may be applied marks a version (R114, R115). -/
def Collection.opMarks (c : Collection) (csn : Nat) (v : Version) : Bool :=
  match c.op csn with
  | some o => c.applicable o && visible c (csn - 1) v && (match o.body with
    | .insert items up => up && items.any (·.id == v.id)
    | .delete ids => ids.contains v.id
    | _ => false)
  | none => false

/-- A committed predicate tombstone whose marks are not written yet marks a version (R116). -/
def Collection.tombMarks (c : Collection) (csn : Nat) (v : Version) : Bool :=
  match c.predicates.find? (·.csn == csn) with
  | some t => !t.marked && csn ≤ c.committed && v.del.isNone && decide (v.ins < csn) && passes c.desc.fields (readPreds t.predicates) v.packed v.ext
  | none => false

/-- NBU_MARK_WRITE (R114–R116, R176, R183, R184): one mark of an acknowledged delete or upsert, or of a committed predicate tombstone, reaches a row; marks
may come in any order. While the NBU is FAILED, a tile writes it. -/
def execNbuMarkWrite (collection : Word) (csn id ins : Nat) (s : State) : Host.Outcome State Fault Refusal :=
  let k := collection.toNat
  .next (match s.coll k with
    | none => s
    | some c =>
      if c.availability != .ready || c.dropping.isSome || !s.serving then s
      else
        let r := c.mark s.clock csn fun v => v.id == id && v.ins == ins && (c.opMarks csn v || c.tombMarks csn v)
        if r.2 = 0 then s else ((s.setColl r.1).countWrites c r.1).charge (ownerOf k) 0x60 1)

/-! ### Uncorrectable granules (R186, R187, R195) -/

/-- The jobs of a command on an NBU that scan an extent. -/
def Nbu.jobsOver (x : Nbu) (m : Nat) (tag : Word) (c e : Nat) : List ScanJob :=
  x.jobs.filter fun j => j.mbx == m && j.tag == tag && j.collection == c && j.extents.any (·.1 == e)

/-- What the command that read a lost granule comes to (R186): it ends DATA_DAMAGED, unless only run-ahead jobs of its read it, which then end it only if
they are confirmed (R226). -/
def State.readerLoses (n : Nat) (hit : GranuleHit) (m : Nat) (tag : Word) (s : State) : State :=
  let jobs := match hit with
    | .row c _ e => (s.nbu n).jobsOver m tag c e
    | _ => []
  if !jobs.isEmpty && jobs.all (·.speculative) then
    s.updNbu n fun x => { x with jobs := x.jobs.map fun j => if jobs.contains j then { j with damaged := true } else j }
  else match s.flight m tag with
    | some f => s.dataLost f
    | none => s

/-- Poison an extent until it is rebuilt (R186, R195). -/
def State.poison (p : PoisonedExtent) (s : State) : State :=
  if s.index.poisoned.any fun q => q.collection == p.collection && q.extent == p.extent then s else { s with index.poisoned := p :: s.index.poisoned }

/-- What holds a granule that is lost is poisoned: it waits for its rebuild (R153, R186, R298, R333). -/
def State.poisonHit (n : Nat) (hit : GranuleHit) (s : State) : State :=
  match hit with
  | .row c l e => s.poison { collection := c, list := l, extent := e, nbu := n }
  | .mapSlot c slot part => (s.updColl c fun c =>
      if c.map.poisoned.any fun p => p.1 == slot && p.2.1 == part then c
      else { c with map.poisoned := (slot, part, false) :: c.map.poisoned }).logIntegrity moduleKey 0 n
  | .weights m g run => s.updGen .model m g fun x => if x.damaged.any (·.1 == run) then x else { x with damaged := (run, false) :: x.damaged }
  | .tableRow t part r => { s with tables.tables := s.tables.tables.upd t fun x =>
      if part = 2 then { x with rrows := x.rrows.put r { x.rrows.getD r {} with poisoned := true } }
      else { x with rows := x.rows.put r { x.rows.getD r {} with poisoned := true } } }
  | .kv | .other => s

/-- An extent that is said to hold a granule does hold it (R173). -/
def State.hitHolds (n addr : Nat) (hit : GranuleHit) (s : State) : Bool :=
  match hit with
  | .row c l e => match s.coll c with
    | some c => match c.extent e with
      | some x => x.list == l && x.nbu == n && decide (x.addr ≤ addr) && decide (addr < x.addr + extentBytes c)
      | none => false
    | none => false
  | _ => true

/-- GRANULE_UNCORRECTABLE (R153, R186, R226, R298): the granule is poisoned and logged, what holds it waits for its rebuild, and the command that read it
ends DATA_DAMAGED. -/
def execGranuleUncorrectable (nbu : Fin 1280) (addr : BitVec 30) (hit : GranuleHit) (reader : Option (Mbx × Word)) (s : State) :
    Host.Outcome State Fault Refusal :=
  let n := nbu.val
  .next (if (s.nbu n).state == 2 || !s.serving || !s.hitHolds n addr.toNat hit then s
    else
      let s := s.updNbu n fun x => nbuCount 0x38 1 ({ x with
        ue := min (x.ue + 1) 0xFFFFFFFF, broken := addr.toNat / 2048 :: x.broken.filter (· != addr.toNat / 2048) }.logEcc s.fabTime addr.toNat 2 0)
      let s := s.poisonHit n hit
      match reader with
      | none => s
      | some (m, tag) => s.readerLoses n hit m.key tag)

/-- An extent of a collection moves to a free place of its scan set; none where there is none (R187, R195). -/
def State.move (c e : Nat) (s : State) : Option State :=
  (s.coll c).bind fun c => (c.extent e).bind fun e => (s.moveExtent c e).map fun d => s.setColl d

/-- EXTENT_REBUILD_DONE (R186, R195): the rebuilt extent, in a new place, takes the poisoned one's, and waiting commands go on; when the source fails, it
stays poisoned, and they end. With no free place it waits. -/
def execExtentRebuildDone (collection : Nat) (list extent : Nat) (ok : Bool) (s : State) : Host.Outcome State Fault Refusal :=
  let hit (p : PoisonedExtent) : Bool := p.collection == collection && p.list == list && p.extent == extent
  let go (s : State) : State := (s.resumeRebuild).resumeSearches
  .next (if !s.index.poisoned.any hit then s
  else if !ok then go { s with index.poisoned := s.index.poisoned.map fun p => if hit p then { p with dead := true } else p }
  else match s.move collection extent with
    | some s => go { s with index.poisoned := s.index.poisoned.filter fun p => !hit p }
    | none => s)

/-- The extents with bytes in a run, poisoned ones aside. -/
def State.extentsIn (n run : Nat) (s : State) : List (Nat × Nat) :=
  (s.heldExtents.filter fun x => x.2.nbu == n && decide (x.2.addr < (run + 1) * 2048) && decide (run * 2048 < x.2.addr + extentBytes x.1) &&
    !s.index.poisoned.any fun p => p.collection == x.1.id && p.extent == x.2.id).map fun x => (x.1.id, x.2.id)

/-- RUN_RETIRE (R187): a run with an uncorrectable error, or 8 corrected errors within one hour, is never allocated again, and its extents move; the
diagnostic window's runs are never retired (R192). Where no place is free for one of them, the run waits. -/
def execRunRetire (nbu : Fin 1280) (run : Fin 524288) (s : State) : Host.Outcome State Fault Refusal :=
  let x := s.nbu nbu.val
  let recent := (x.corrected.filter fun c => c.1 == run.val && s.clock < c.2 + 3600000000000).length
  .next (if !x.retired.contains run.val && run.val < 0x7FFE0 && (8 ≤ recent || x.broken.contains run.val) then
    let t := s.updNbu nbu.val fun x => { x with retired := run.val :: x.retired }.logEcc s.fabTime (run.val * 2048) 3 0
    ((s.extentsIn nbu.val run.val).foldl (fun a e => a.bind fun s => s.move e.1 e.2) (some t)).getD s
  else s)

/-- PATROL_SCRUB (R182, R183, R187): granules that have been corrected, by the scrub or by whatever read them, each with the bytes corrected; `complete`
ends a pass, which has read every granule of the pseudo-channel. -/
def execPatrolScrub (nbu : Fin 1280) (corrected : List (BitVec 30 × Fin 3)) (complete : Bool) (s : State) : Host.Outcome State Fault Refusal :=
  .next (if (s.nbu nbu.val).state == 2 || !s.serving then s
    else
      let s := corrected.foldl (fun s g => s.updNbu nbu.val fun x =>
        nbuCount 0x30 1 ({ x with corrected := (g.1.toNat / 2048, s.clock) :: x.corrected.filter fun c => s.clock < c.2 + 3600000000000 }.logEcc
          s.fabTime g.1.toNat 1 g.2.val)) s
      if complete then s.updNbu nbu.val fun x =>
        let x := { x with scrubbed := s.clock }
        if x.state == 0 then nbuCount 0x00 (2 ^ 30) x else x
      else s)

/-- NBU_FAILED (R195): tiles take over its pseudo-channel, and the event is logged. -/
def execNbuFailed (nbu : Fin 1280) (s : State) : Host.Outcome State Fault Refusal :=
  .next (if (s.nbu nbu.val).state == 0 then (s.updNbu nbu.val fun x => { x with state := 1 }).logUnit nbu.val else s)

/-- Jobs that find a queue full are held at their crews (R180). -/
def State.holdJobs (l : List (Nat × ScanJob)) (s : State) : State :=
  l.foldl (fun s j => match s.flight j.2.mbx j.2.tag with
    | some f => match f.work with
      | .search r => s.setWork f (.search { r with held := r.held ++ [j] })
      | _ => s
    | none => s) s

/-- The extents that lie in a pseudo-channel, as they are poisoned when it is lost (R195). -/
def State.lostWith (n : Nat) (s : State) : List PoisonedExtent :=
  (s.heldExtents.filter fun x => x.2.nbu == n).map fun x => { collection := x.1.id, list := x.2.list, extent := x.2.id, nbu := n }

/-- Where a job over an OFFLINE pseudo-channel goes: to its list's home (R195). -/
def State.jobHome (n : Nat) (j : ScanJob) (s : State) : Nat := (s.coll j.collection).elim n fun c => s.homeNbu c j.list

/-- A pseudo-channel is OFFLINE (R195): its NBU has no jobs, the event is logged, what lay there is poisoned until its rebuild, and jobs held for it are
held for their lists' homes. -/
def State.takeOffline (n : Nat) (s : State) : State :=
  let lost := s.lostWith n
  let s := lost.foldl (fun s p => s.poison p) ((s.updNbu n fun x => { x with state := 2, jobs := [] }).logUnit n)
  { s with host.flights := s.host.flights.map fun (f : Flight) => match f.work with
    | .search r => { f with work := .search { r with held := r.held.map fun (j : Nat × ScanJob) => if j.1 == n then (s.jobHome n j.2, j.2) else j } }
    | _ => f }

/-- PSEUDO_CHANNEL_OFFLINE (R195): every extent that lay there is rebuilt on the other entries of its scan set; jobs over them, and those held for it, go to
their lists' homes and wait there. -/
def execPseudoChannelOffline (nbu : Fin 1280) (s : State) : Host.Outcome State Fault Refusal :=
  let n := nbu.val
  .next (if (s.nbu n).state == 2 then s
    else
      let t := s.takeOffline n
      let r := t.sendJobs ((s.nbu n).jobs.map fun j => (t.jobHome n j, j))
      r.1.holdJobs r.2)

/-! ### Diagnostics (R190–R192) -/

/-- RATE_PCT of an NBU: what the governor granted its stack (R194). -/
def State.ratePct (n : Nat) (s : State) : Nat := s.governor.nbuRates.getD n 100

/-- What a diagnostic read finds of ordinary accesses that waited, and of the longest wait, at most 1,200 ns (R188): neither is stated (free), and each only
grows. -/
def Nbu.found (draw : Nat → Nat) (x : Nbu) : Nbu := nbuCount 0x20 (draw 0) { x with maxWait := max x.maxWait (draw 1 % 1201) }

/-- A diagnostic read of NBUs takes what it finds there. -/
def State.foundIn (l : List Nat) (s : State) : State :=
  let draw (k i : Nat) : Nat := Config.free (s.free + 2 * k + i)
  { l.foldl (fun s k => s.updNbu k (Nbu.found (draw k))) s with free := s.free + 2560 }

/-- The status block of an NBU (Table 6-7). -/
def State.nbuStatus (n : Nat) (s : State) : Bytes :=
  let x := s.nbu n
  let hour := (x.corrected.filter fun c => s.clock < c.2 + 3600000000000).length
  leBytes 1 x.state ++ leBytes 1 (min 32 x.jobs.length) ++ leBytes 2 n ++ leBytes 2 x.retired.length ++ leBytes 1 (s.ratePct n) ++ zeros 1 ++
    leBytes 4 (min 0xFFFFFFFF ((s.clock - max x.scrubbed s.index.scrubBase) / 1000000000)) ++ leBytes 4 hour ++ leBytes 4 x.ue ++ leBytes 4 x.maxWait ++ zeros 8

/-- One counter of Table 6-8 over NBUs, saturating. -/
def counterOf (ns : List Nbu) (off : Nat) : Nat := min (2 ^ 64 - 1) (ns.map fun x => x.ctr.getD off 0).sum

/-- What a PATTERN finds in its first granule with one bit flipped in each of its first `inj` bytes: granules returned wrong, corrected and uncorrectable,
and the symbols changed. Table 6-10's text states it for up to 6 bytes; beyond, it is what the code makes of the bits flipped, 3 bits of `r` for each
byte (R182, R192). -/
def patternFinds (inj r : Nat) : Nat × Nat × Nat × Nat :=
  if inj = 0 then (0, 0, 0, 0)
  else if inj ≤ 2 then (0, 1, 0, inj)
  else if inj ≤ 6 then (0, 0, 1, 0)
  else match rsDecode ((List.range 72).map fun i => if i < inj then 2 ^ (r / 8 ^ i % 8) else 0) with
    | some (w, k) => (if (w.take 64).all (· == 0) then 0 else 1, 1, 0, k)
    | none => (0, 0, 1, 0)

/-- An NBU once a PATTERN that runs `us` microseconds has begun: its granules are written, and what it finds is counted and logged (R192). -/
def Nbu.patterned (clock time us : Nat) (found : Nat × Nat × Nat × Nat) (x : Nbu) : Nbu :=
  let x := { x with patternUntil := clock + 1000 * us }
  let x := if x.state == 0 then nbuCount 0x18 1024 x else x
  let x := if found.2.2.1 = 0 then x else nbuCount 0x38 1 ({ x with ue := min (x.ue + 1) 0xFFFFFFFF }.logEcc time 0x3FFF0000 2 0)
  if found.2.1 = 0 then x
  else nbuCount 0x30 1 ({ x with corrected := (0x7FFE0, clock) :: x.corrected }.logEcc time 0x3FFF0000 1 found.2.2.2)

/-- NBU_DIAG_READ (R190–R192, Table 6-10). PATTERN writes the 1,024 granules of the window; its duration in its range, and which bits it flips, are not
stated (free). -/
def execNbuDiagRead (m : Mbx) (tag : Word) (s : State) : Host.Outcome State Fault Refusal :=
  .next (s.start 0x7032 m tag fun f s => do
    let b := f.plain
    opening f 8 8
    let n := field b 0 2
    let op := field b 2 1
    fields [(0, n ≤ 1279 || (n == 0xFFFF && decide (op < 2))), (2, decide (op ≤ 3)), (3, if op == 3 then field b 3 1 ≤ 3 else field b 3 1 == 0),
      (4, if op == 3 then field b 4 1 ≤ 7 else field b 4 1 == 0), (5, zeroField b 5 3)]
    need (!(op == 3 && (s.nbu n).state == 2)) (wrongStateAt 0x20)
    let list := if n == 0xFFFF then List.range 1280 else [n]
    let give (l : List Bytes) (s : State) : State :=
      let fit := fitEntries (s.rspPlain f.mbx) l
      s.answer f (if fit.2 then .done else .doneTruncated) fit.1.flatten
    if op = 0 then
      let s := s.foundIn list
      return give (list.map fun k => s.nbuStatus k) s
    else if op = 1 then
      let s := s.foundIn list
      let ns := list.map fun k => s.nbu k
      return give [(List.range 8).flatMap fun i => leBytes 8 (counterOf ns (8 * i))] s
    else if op = 2 then
      let l := (s.nbu n).log
      return give ((leBytes 4 l.length ++ zeros 12) :: l.map fun e => leBytes 8 e.time ++ leBytes 4 e.addr ++ leBytes 1 e.kind ++ leBytes 1 e.bytes ++ zeros 2) s
    else
      let inj := field b 4 1
      need (decide ((s.nbu n).patternUntil ≤ s.clock)) (busyRetry 50)
      let (d, s) := s.draw
      let (r, s) := s.draw
      let us := 10 + d % 21
      let found := patternFinds inj r
      return (s.updNbu n (Nbu.patterned s.clock s.fabTime us found)).answer f .done
        (leBytes 4 found.1 ++ leBytes 4 found.2.1 ++ leBytes 4 found.2.2.1 ++ leBytes 4 us ++ zeros 16))

end Sys2Proof.Machine
end

