-- ==== Sys2Proof/Machine/Upkeep.lean ====
section
/-!
DEFINITION. The centroid map's upkeep, and the rebuild of a collection after a reset (R134, R149–R153).
-/
namespace Sys2Proof.Machine

/-! ### Rebalancing (R149–R152) -/

/-- The weighted mean of values, rounded once to bf16; none of no weight. -/
def meanBf16 (l : List (Nat × Fp)) : Option Half :=
  let n := (l.map (·.1)).sum
  if n = 0 then none
  else match l.foldl (fun a x => fpAdd a (fpMul (.fin false x.1 0) x.2)) (.fin false 0 0) with
    | .fin neg m e => some (BitVec.ofNat 16 (fpEncodeFin bf16 false neg (m * 2 ^ 64 / n) (e - 64) (decide (m * 2 ^ 64 % n ≠ 0))))
    | v => some (BitVec.ofNat 16 (fpEncode bf16 v))

/-- The merged centroid of two slots: the item-weighted mean of theirs (R151); over no items it is not stated (free). -/
def mergedCentroid (nx ny : Nat) (x y : List Half) : List Half :=
  (List.range x.length).map fun i =>
    match meanBf16 [(nx, f32 (bf16ToF32 (x.getD i 0))), (ny, f32 (bf16ToF32 (y.getD i 0)))] with
    | some h => h
    | none => Config.emptyMean x y i

/-- The dequantised refine code of a version. -/
def Collection.dequantised (c : Collection) (v : Version) : List Word :=
  let h := readQHeader c.qimage
  dequantise (readScales c.desc.dim (slice c.qimage h.scaleOffset h.scaleBytes)) (refineUnpack c.desc.refineBits v.refine)

/-- Items stored in a list. -/
def Collection.itemsIn (c : Collection) (l : Nat) : Nat := (c.versions.filter (·.list == l)).length

/-- A slot may take part in a rebalance: it has no forwarding record, shares no legacy extent and is whole (R149). -/
def Collection.mayRebalance (c : Collection) (l : Nat) : Bool :=
  !(c.map.forwards.any (·.slot == l)) && !(c.current.any fun e => e.legacy.isSome && ownedBy l e) && !(c.map.poisoned.any (·.1 == l))

/-- The first resolved edge target of a slot. -/
def Collection.firstTarget (c : Collection) (l : Nat) : Option Nat := ((slotOf c l).edges.flatMap fun e => (resolveEdge c l e).1).head?

/-- Pair split candidates with merge pairs, each slot once (R150). -/
def pairUp : Nat → List Nat → List (Nat × Nat) → List Nat → List (Nat × Nat × Nat)
  | 0, _, _, _ => []
  | _, [], _, _ => []
  | n + 1, s :: t, ps, used =>
    if used.contains s then pairUp n t ps used
    else match ps.find? fun p => !(used.contains p.1 || used.contains p.2 || p.1 == s || p.2 == s) with
      | some p => (p.1, p.2, s) :: pairUp n t ps (p.1 :: p.2 :: s :: used)
      | none => []

/-- The rebalances of an evaluation (R150): x and y merge, s splits; at most 16, and no more than the forwarding records allow. -/
def Collection.rebalances (c : Collection) : List (Nat × Nat × Nat) :=
  let slots := 2 ^ c.desc.listsLog2
  let stored := c.versions.length
  let split := sortBy ((c.listsHeld.filter fun l => decide (8 * stored < c.itemsIn l * slots) && decide (65536 ≤ c.itemsIn l) && c.mayRebalance l).map
    fun l => (c.itemsIn l, l)) fun a b => decide (b.1 < a.1) || (a.1 == b.1 && decide (a.2 ≤ b.2))
  if split.isEmpty then []
  else
    let merge := sortBy ((List.range slots).filterMap fun x => (c.firstTarget x).bind fun y =>
      let n := c.itemsIn x + c.itemsIn y
      if x != y && decide (2 * n * slots < stored) && c.mayRebalance x && c.mayRebalance y then some (n, x, y) else none)
        fun a b => decide (a.1 < b.1) || (a.1 == b.1 && decide (a.2.1 ≤ b.2.1))
    let room := (4096 - c.map.forwards.length) / 3
    (pairUp split.length (split.map (·.2)) (merge.map (·.2)) []).take (min 16 room)

/-- The edges of a slot among candidates: the best DEGREE under R159, never itself, then fillers (R151, R487). -/
def Collection.edgesAmong (c : Collection) (l : Nat) (cands : List Nat) : List (Nat × Nat) :=
  let me := slotOf c l
  let q := readQHeader c.qimage
  let scored := ((cands.eraseDups).filter (· != l)).map fun j => let x := slotOf c j; (centroidScore c.desc.metric me.centroid x.centroid x.cc, j)
  fillEdges q.degree l me.epoch ((edgeSlots q.degree scored).map fun x => (x, slotEpoch c x % 256))

/-- What one rebalance does with given centroids for x, k and y: epochs, forwarding records, extents; edges are empty yet. x takes y's extents, k and y
share k's, and none of them grows any more (R149, R151). -/
def Collection.switchSlots (c : Collection) (x y k : Nat) (cx ck cy : List Half) : Collection :=
  let sx := slotOf c x
  let sy := slotOf c y
  let sk := slotOf c k
  let slot (cen : List Half) (old : Slot) : Slot := { centroid := cen, cc := bf16Dot cen cen, epoch := old.epoch + 1, edges := [] }
  let owner (e : Extent) : Extent :=
    if e.replaced.isSome then e
    else if e.list == x || e.list == y then { e with list := x, closed := true }
    else if e.list == k then { e with legacy := some y, closed := true }
    else e
  { c with
    map.slots := ((c.map.slots.put x (slot cx sx)).put k (slot ck sk)).put y (slot cy sy)
    map.forwards := c.map.forwards ++ [⟨x, sx.epoch, [x]⟩, ⟨y, sy.epoch, [x]⟩, ⟨k, sk.epoch, [k, y]⟩]
    extents := c.extents.map owner
    versions := c.versions.map fun (v : Version) => if v.list == y then { v with list := x } else v }

/-- Give a slot its edges. -/
def Collection.setEdges (c : Collection) (l : Nat) (edges : List (Nat × Nat)) : Collection :=
  { c with map.slots := c.map.slots.upd l fun z => { z with edges := edges } }

/-- A dequantised element or a centroid's, in units of 2⁻¹⁴⁹: exact, since every such value is finite. -/
def fpUnits : Fp → Int
  | .fin neg m e => (if neg then -1 else 1) * (m : Int) * 2 ^ (e + 149).toNat
  | _ => 0

/-- The mean of `n` values whose sum is given in units of 2⁻¹⁴⁹, rounded once to bf16. -/
def meanOfUnits (sum : Int) (n : Nat) : Half :=
  let m := sum.natAbs * 2 ^ 64
  BitVec.ofNat 16 (fpEncodeFin bf16 false (decide (sum < 0)) (m / n) (-213) (decide (m % n ≠ 0)))

/-- Sums of rows, element-wise. -/
def rowSums (dim : Nat) (l : List (List Int)) : List Int := l.foldl (List.zipWith (· + ·)) (List.replicate dim 0)

/-- The first assignment of 2-means: the seeds are the old centroid plus and minus the standard deviation of each dimension, and an item belongs to the
second where it lies on its side, ties as given (R151). The square roots are taken to 64 bits below the unit (DESIGN CHOICE, log entry 152). -/
def seedSecond (cen : List Int) (rows : List (List Int)) (tie : Bool) : List Bool :=
  let n := rows.length
  let sum := rowSums cen.length rows
  let sq := rowSums cen.length (rows.map fun r => r.map fun x => x * x)
  let dev := List.zipWith (fun q a => (isqrt (((n : Int) * q - a * a).toNat * 2 ^ 128) : Int)) sq sum
  rows.map fun r =>
    let side : Int := (List.zipWith (· * ·) (List.zipWith (· - ·) r cen) dev).sum
    decide (side < 0) || (side == 0 && tie)

/-- A later assignment: each item to the nearer mean, compared exactly; while no item has one of the means, all stay with the other. -/
def nearSecond (dim : Nat) (rows : List (List Int)) (tie : Bool) (second : List Bool) : List Bool :=
  let part (b : Bool) : List (List Int) := ((rows.zip second).filter (·.2 == b)).map (·.1)
  let n (b : Bool) : Nat := (part b).length
  let sum (b : Bool) : List Int := rowSums dim (part b)
  if n true = 0 ∨ n false = 0 then second
  else
    let far (b : Bool) (s : List Int) (r : List Int) : Nat :=
      ((List.zipWith (fun x a => ((n b : Int) * x - a).natAbs ^ 2) r s).sum) * n (!b) ^ 2
    let st := sum true
    let sf := sum false
    rows.map fun r => decide (far true st r < far false sf r) || (far true st r == far false sf r && tie)

/-- The split's centroids: four iterations of 2-means over the dequantised codes of its items, rounded to bf16; ties go to the lower slot, and the centroid
of a slot that no item is nearest to is not stated (free) (R151). -/
def splitCentroids (cen : List Half) (codes : List (List Word)) (tie : Bool) : List Half × List Half :=
  let rows := codes.map fun r => r.map fun w => fpUnits (f32 w)
  let dim := cen.length
  let first := seedSecond (cen.map fun h => fpUnits (f32 (bf16ToF32 h))) rows tie
  let last := nearSecond dim rows tie (nearSecond dim rows tie (nearSecond dim rows tie first))
  let mean (b : Bool) : List Half :=
    let l := ((rows.zip last).filter (·.2 == b)).map (·.1)
    if l.isEmpty then (List.range dim).map (Config.emptySplit cen b) else (rowSums dim l).map fun a => meanOfUnits a l.length
  (mean false, mean true)

/-- One rebalance (R151): centroids, epochs, forwarding records, extents and edges. -/
def Collection.rebalance (c : Collection) (x y k : Nat) : Collection :=
  let sk := slotOf c k
  let cands := [x, y, k].flatMap fun l => (slotOf c l).edges.flatMap fun e => (resolveEdge c l e).1
  let two := splitCentroids sk.centroid ((c.versions.filter (·.list == k)).map c.dequantised) (decide (y < k))
  let merged := mergedCentroid (c.itemsIn x) (c.itemsIn y) (slotOf c x).centroid (slotOf c y).centroid
  [x, y, k].foldl (fun c l => c.setEdges l (c.edgesAmong l cands)) (c.switchSlots x y k merged two.1 two.2)

/-- The map of a collection is changed and published as a new version, once its map record is written under the current generation; the version that
commands are bound to is kept for them (R146, R151, R153). -/
def State.publishMap (c : Collection) (change : Collection → Collection) (s : State) : Collection :=
  let d := change (s.keepMap c)
  { d with map.version := d.map.version + 1, map.record := d.gen }

/-- The body of a REBALANCE message. -/
def rebalanceBody (c : Collection) (l : List (Nat × Nat × Nat)) : Bytes :=
  leBytes 4 c.map.version ++ leBytes 2 l.length ++ zeros 2 ++
    l.flatMap (fun r => leBytes 4 r.1 ++ leBytes 4 r.2.1 ++ leBytes 4 r.2.2 ++ zeros 4) ++
    l.flatMap fun r => [r.1, r.2.2, r.2.1].flatMap fun k =>
      let z := slotOf c k
      z.centroid.flatMap (fun h => leBytes 2 h.toNat) ++ z.edges.flatMap fun e => leBytes 4 (e.1 + 2 ^ 24 * (e.2 % 256))

/-- Send what a map version has changed to the replicas (R152, R438): a rebalance by its slots x, y and s. A redistribution goes as x = s, and the rebuild of
one slot as x = y = s, since Table 16-23 has no form of its own for them (DESIGN CHOICE, log entry 153). -/
def State.tellMap (c : Collection) (l : List (Nat × Nat × Nat)) (s : State) : State :=
  (c.replicas.filter (·.state != 2)).foldl (fun s r => s.post r.node 0x21 5 (ownerOf c.id) false
    (replicaMessage 3 c.id c.committed 0 0 (rebalanceBody c l))) (s.setColl c)

/-- REBALANCE_PUBLISH (R150–R153): the rebalances of the evaluation due are published as one map version at a commit boundary, and sent to replicas. -/
def execRebalancePublish (collection : Word) (s : State) : Host.Outcome State Fault Refusal :=
  let id := collection.toNat
  .next (match s.coll id with
    | none => s
    | some c =>
      if !c.map.evaluate || !c.atBoundary || c.availability != .ready || c.dropping.isSome || c.isReplica || !s.serving then s
      else
        let l := c.rebalances
        let c := { c with map.evaluate := false }
        if l.isEmpty then s.setColl c
        else s.tellMap (s.publishMap c fun c => l.foldl (fun c r => c.rebalance r.1 r.2.1 r.2.2) c) l)

/-- Which of two slots an item of a legacy extent goes to: that of the nearer centroid (R151). -/
def Collection.nearerOf (c : Collection) (k y : Nat) (v : Version) : Nat :=
  match bestSlots 1 (scoreSlots c ((c.dequantised v).map f32ToBf16) [k, y]) with
  | b :: _ => b.2
  | [] => if Config.unrankedList (c.dequantised v) % 2 == 0 then k else y

/-- The entries of a commit index over rows from a position on (R120). -/
def indexOver (first : Nat) (rows : List Version) : List (Nat × Nat) :=
  (rows.mapIdx fun i v => (v.ins, first + i + 1)).foldl (fun l p => indexEntry p.1 p.2 l) []

/-- Put the rows that go to one list into extents of its own, under a commit index of their own where they still need one (R120, R151). -/
def State.copyTaken (c : Collection) (like : Extent) (l : Nat) (rows : List Version) (s : State) : Option (Collection × List Extent) :=
  if rows.isEmpty then some (c, [])
  else
    let held := c.indices.any (·.id == like.index)
    let c := if held then { c with
        indices := c.indices ++ [{ id := c.nextExtent, list := l, seg := like.seg, entries := indexOver like.first rows }], nextExtent := c.nextExtent + 1 }
      else c
    s.copyRows c { like with list := l, legacy := none, index := if held then c.nextExtent - 1 else 0 } rows

/-- Move the items of the legacy extents of a slot into it or the list that shares them (R151); none where no place is free. -/
def State.redistribute (c : Collection) (k y : Nat) (s : State) : Option Collection :=
  let old (e : Extent) : Bool := e.replaced.isNone && e.list == k && e.legacy == some y
  (((c.extents.filter old).map fun e => (e.seg, e.index)).eraseDups).foldl (fun a g => a.bind fun c =>
    let mine (e : Extent) : Bool := old e && e.seg == g.1 && e.index == g.2
    match c.extents.filter mine with
    | [] => some c
    | e :: es =>
      let rows := ((e :: es).flatMap c.extentRows).map fun v => { v with list := c.nearerOf k y v }
      let c := { c with versions := c.versions.map fun (v : Version) => (rows.find? fun w => w.id == v.id && w.ins == v.ins).getD v }
      (s.copyTaken c e k (rows.filter (·.list == k))).bind fun p =>
        (s.copyTaken { p.1 with extents := p.1.extents ++ p.2 } e y (rows.filter (·.list == y))).map fun q =>
          let c := { q.1 with extents := c.extents, indices := q.1.indices.filter (·.id != e.index) }
          c.replaceExtents s.clock (fun x => (e :: es).any (·.id == x.id)) (p.2 ++ q.2)) (some c)

/-- LEGACY_REDISTRIBUTE_DONE (R151): the items of the legacy extents of `slot` lie in s or y by nearest centroid, under a map version of its own. On a
replica it comes with the primary's version (R152). -/
def execLegacyRedistributeDone (collection : Word) (slot : Nat) (s : State) : Host.Outcome State Fault Refusal :=
  let id := collection.toNat
  .next (match s.coll id with
    | none => s
    | some c => match c.current.find? fun e => e.list == slot && e.legacy.isSome with
      | none => s
      | some e =>
        let y := e.legacy.getD slot
        if !c.atBoundary || c.availability != .ready || c.dropping.isSome || c.isReplica || !s.serving || s.workBlocked c (ownedBy slot) then s
        else match s.redistribute (s.keepMap c) slot y with
          | none => s
          | some d =>
            let d := { d with map.version := d.map.version + 1, map.record := d.gen }
            (s.tellMap d [(slot, y, slot)]).countWrites c d)

/-- The slots of a map once every edge that carries an old epoch of a slot leads to a successor, at its current epoch (R149). -/
def Collection.redirected (c : Collection) (slot epoch next : Nat) : Tab Slot :=
  let hit (l : Nat) (e : Nat × Nat) : Bool := l != slot && e.1 == slot && e.2 == epoch % 256 && slotEpoch c slot % 256 != epoch % 256
  let holders := (List.range (2 ^ c.desc.listsLog2)).filter fun l => (slotOf c l).edges.any (hit l)
  holders.foldl (fun (t : Tab Slot) l =>
    let x := slotOf c l
    t.put l { x with edges := x.edges.map fun e => if hit l e then (next, slotEpoch c next % 256) else e }) c.map.slots

/-- FORWARDING_RECORD_RELEASE (R149): every edge that carries (slot, old epoch) has been rewritten to a successor, at its current epoch, and the record is
freed; which of two successors takes an edge's place is not stated (free). -/
def execForwardingRecordRelease (collection : Word) (slot epoch : Nat) (s : State) : Host.Outcome State Fault Refusal :=
  let id := collection.toNat
  .next (match s.coll id with
    | none => s
    | some c => match c.map.forwards.find? fun r => r.slot == slot && r.epoch == epoch with
      | none => s
      | some r =>
        if c.availability != .ready || !s.serving then s
        else
          let (n, s) := s.draw
          let next := r.targets.getD (n % r.targets.length) slot
          s.setColl { c with map.slots := c.redirected slot epoch next, map.forwards := c.map.forwards.erase r })

/-- The slots whose edges name a slot (R153). -/
def Collection.namedBy (c : Collection) (l : Nat) : List Nat :=
  (List.range (2 ^ c.desc.listsLog2)).filter fun k => k != l && (slotOf c k).edges.any (·.1 == l)

/-- Rebuild what a slot has lost with its record: its centroid from its items, or its edges from the slots that name it and its neighbours (R153). Of a
lost forwarding record nothing is said: it goes, and edges that carry it lead to its slot (DESIGN CHOICE, log entry 154). -/
def Collection.rebuildSlot (c : Collection) (l part : Nat) : Collection :=
  let old := slotOf c l
  match part with
  | 0 =>
    let codes := (c.versions.filter (·.list == l)).map c.dequantised
    let cen := (List.range c.desc.dim).map fun i =>
      match meanBf16 (codes.map fun x => (1, f32 (x.getD i 0))) with
      | some h => h
      | none => Config.emptyMean old.centroid old.centroid i
    { c with map.slots := c.map.slots.put l { old with centroid := cen, cc := bf16Dot cen cen } }
  | 1 =>
    let edges := c.edgesAmong l (c.namedBy l ++ mapNeighbours c.desc (readQHeader c.qimage) l)
    { c with map.slots := c.map.slots.put l { old with edges := edges } }
  | _ => { c with map.forwards := c.map.forwards.filter (·.slot != l) }

/-- MAP_RUN_REPAIR (R71, R153): a poisoned run is rewritten from its map record; when the record fails its tag, which is logged, what it held is rebuilt and
published as a new map version at the next commit boundary. -/
def execMapRunRepair (collection : Word) (run : MapRun) (recordHolds : Bool) (s : State) : Host.Outcome State Fault Refusal :=
  let slot := run.slot
  let part := run.part
  let id := collection.toNat
  let hit (p : Nat × Nat × Bool) : Bool := p.1 == slot && p.2.1 == part
  .next (match s.coll id with
    | none => s
    | some c => match c.map.poisoned.find? hit with
      | none => s
      | some (_, _, true) =>
        if c.atBoundary && c.availability == .ready && s.serving then
          let whole (c : Collection) : Collection := { c with map.poisoned := c.map.poisoned.filter fun p => !hit p }
          s.tellMap (s.publishMap c fun c => whole (c.rebuildSlot slot part)) [(slot, slot, slot)]
        else s
      | some (_, _, false) =>
        if recordHolds then (s.setColl { c with map.poisoned := c.map.poisoned.filter fun p => !hit p }).resumeRebuild
        else ((s.setColl { c with map.poisoned := c.map.poisoned.map fun p => if hit p then (slot, part, true) else p }).logIntegrity
          (ownerOf id) 1 slot).resumeRebuild)

/-! ### Rebuild after a reset (R134) -/

/-- COLLECTION_REBUILD (R134): the last missing key of a collection is held again, and its rebuild begins. -/
def execCollectionRebuild (collection : Nat) (s : State) : Host.Outcome State Fault Refusal :=
  let id := collection
  .next (match s.coll id with
    | none => s
    | some c =>
      if c.availability == .keyPending [] && c.dropping.isNone && s.power.season == .summer then
        s.setColl { c with availability := .rebuilding s.clock }
      else s)

/-- Encode the text records of an operation that is replayed (R134, R276). -/
def State.encodeAll (c : Collection) (o : Operation) (s : State) : Operation :=
  match o.body, s.generation .model c.desc.model c.modelGen, s.generation .vocab c.desc.vocab c.vocabGen with
  | .insert items up, some m, some v =>
    { o with encoded := true, body := .insert (items.map fun r => if r.vector.isSome then r else (encodeItem c.desc m.image v.image r).1) up }
  | _, _, _ => o

/-- Replay one ingest-log record: what the sealed segments already hold is not added again. -/
def Collection.replay (c : Collection) (now : Nat) (o : Operation) : Collection :=
  let o := match o.body with
    | .insert items up => { o with body := .insert (items.filter fun r => !c.versions.any fun v => v.id == r.id && v.ins == o.csn) up }
    | _ => o
  (c.apply now o).1

/-- Place every row of a collection anew; rows of legacy extents stay shared, and no commit index is needed, since F is C (R120, R134, R151). None where
no place is free. -/
def State.placeAgain (c : Collection) (s : State) : Option Collection :=
  let shared (v : Version) : Option Nat := ((c.versions.find? fun w => w.id == v.id && w.ins == v.ins).bind fun w => c.extent w.extent).bind (·.legacy)
  (s.placeRows false shared { c with extents := [], indices := [], versions := c.versions.map fun v => { v with extent := 0 } }).map
    fun c => c.closeExtents fun _ => true

/-- A collection with the marks of its tombstone records and its log replayed in CSN order: C, F and the assigned CSN are at the highest logged CSN (R134). -/
def State.replayLog (c : Collection) (s : State) : Collection :=
  let recs := (c.segments.filter (·.tombstone)).flatMap (·.records)
  let marked := c.versions.map fun v => (recs.filter fun r => r.1 == v.seg && r.2.1 == v.pos).foldl (fun v r => markVersion r.2.2 v) v
  let ops := c.ops.map fun o => s.encodeAll c { o with acked := true, applied := false }
  let top := (c.ops.map (·.csn)).foldl max c.committed
  { ops.foldl (fun c o => c.replay s.clock o) { c with versions := marked, ops := ops } with
    committed := top, assigned := top, floor := top, availability := .ready }

/-- COLLECTION_REBUILD_DONE (R134): sealed content and delete marks are back, the log is replayed in CSN order; C is the highest logged CSN, F is C. -/
def execCollectionRebuildDone (collection : Nat) (s : State) : Host.Outcome State Fault Refusal :=
  let id := collection
  .next (match s.coll id with
    | none => s
    | some c => match c.availability with
      | .rebuilding _ =>
        if c.dropping.isSome then s
        else
          let c := s.replayLog c
          match s.placeAgain c with
          | some d => (s.setColl d).countWrites { c with versions := [] } d
          | none => s
      | _ => s)

end Sys2Proof.Machine
end

