-- ==== Sys2Proof/Machine/Peers.lean ====
section
/-!
DEFINITION. Log peers and replicas: PARTITION_SET, the log messages, REPLICA_SET, replica messages, the server of a lost shard
(R24, R426, R435–R439, Tables 16-23, 17-4).
-/
namespace Sys2Proof.Machine

/-! ### The partition and the log peers (R426) -/

/-- Operations of this module's own collections whose log record has not been released. -/
def State.unreleased (s : State) : List (Nat × Operation) :=
  s.index.collections.flatMap fun e => if e.2.isReplica then [] else e.2.ops.map fun o => (e.1, o)

/-- A new peer set comes into force once its peers have confirmed every record that is not released (R426). -/
def State.settlePeers (s : State) : State :=
  match s.comp.newPeers with
  | some ps =>
    if s.unreleased.all fun o => ps.all o.2.confirmed.contains then { s with comp.peers := ps, comp.newPeers := none } else s
  | none => s

/-- PARTITION_SET (R426). `answer` is what the proposed peers say. -/
def execPartitionSet (m : Mbx) (tag : Word) (answer : PeerAnswer) (s : State) : Host.Outcome State Fault Refusal :=
  .next (s.start 0x6020 m tag fun f s => do
    opening f 8 8
    let b := f.plain
    let part := field b 0 2
    let n := field b 2 1
    let p0 := field b 4 2
    let p1 := field b 6 2
    let self := s.nodeId
    fields [(0, decide (part ≤ 4095)), (2, decide (n ≤ 2) && (part != 0 || n == 0)), (3, zeroField b 3 1),
      (4, if n = 0 then p0 == 0 else p0 != self && answer != .outside false),
      (6, if n < 2 then p1 == 0 else p1 != self && p1 != p0 && answer != .outside true)]
    need (part == s.comp.partition || s.comp.compositions.isEmpty) (wrongStateAt 0x20)
    need (n == 0 || answer != .full) (noResources 2)
    let ps := [p0, p1].take n
    let s := { s with comp.partition := part, comp.newPeers := some ps }
    let fresh := ps.filter fun p => !s.comp.peers.contains p
    let s := s.unreleased.foldl (fun s o => s.shipRecord fresh o.1 o.2) s
    .ok (s.settlePeers.answer f .done []))

/-! ### The log of a source on its peers (R435, R436) -/

/-- The layout of a log message (Table 17-4). -/
def logFaultless (b : Bytes) : Bool :=
  24 ≤ b.length && zeroField b 1 3 && zeroField b 0x12 2 && field b 0x14 4 == b.length - 24 &&
    ([1, 5].contains (field b 0 1) || b.length == 24)

/-- Bytes a source's records take in its area. -/
def State.heldBytes (source : Nat) (s : State) : Nat := ((s.comp.records.filter (·.source == source)).map fun r => 24 + r.record.length).sum

/-- A record of a source is held. -/
def State.heldRecord (source coll csn : Nat) (s : State) : Bool :=
  s.comp.records.any fun r => r.source == source && r.collection == coll && r.csn == csn

/-- LOG_RECORD (R386, R435, R436): the record goes into the hold-up-protected log buffer and is confirmed; one of a third source, of one whose 16 GiB are
full, or that finds the buffer full, is not. -/
def execLogRecord (s : State) : Host.Outcome State Fault Refusal :=
  .next (match s.takeMessage 0x20 [1] with
    | none => s
    | some (x, s) =>
      let b := x.body
      let coll := field b 4 4
      let csn := field b 8 8
      if !s.serving then s
      else s.wellFormed x (logFaultless b && field b 0x10 2 == x.src) (fun s =>
        let known := s.comp.sources.contains x.src
        if !known && decide (2 ≤ s.comp.sources.length) then s
        else if !s.heldRecord x.src coll csn && (decide (2 ^ 34 < s.heldBytes x.src + b.length) || !s.logRoom (b.length - 24)) then s
        else
          let s := if known then s else { s with comp.sources := s.comp.sources ++ [x.src] }
          let s := if s.heldRecord x.src coll csn then s
            else { s with comp.records := s.comp.records ++ [{ source := x.src, collection := coll, csn := csn, record := b.drop 24 }] }
          s.post x.src 0x20 4 x.tenant false (logMessage 2 coll csn x.src [])))

/-- LOG_CONFIRM (R24, R435): a peer holds a record. -/
def execLogConfirm (s : State) : Host.Outcome State Fault Refusal :=
  .next (match s.takeMessage 0x20 [2] with
    | none => s
    | some (x, s) =>
      let b := x.body
      let note (o : Operation) : Operation := if o.confirmed.contains x.src then o else { o with confirmed := x.src :: o.confirmed }
      if !s.serving then s
      else s.wellFormed x (logFaultless b && field b 0x10 2 == s.nodeId) (fun s =>
        let s := { s with comp.unreached := s.comp.unreached.filter (· != x.src) }
        if s.logPeers.contains x.src then (s.updColl (field b 4 4) fun c => c.updOp (field b 8 8) note).settlePeers else s))

/-- LOG_RECORD_RESEND (Table 16-8): a record that a peer has not confirmed 100 µs after it was sent is sent again. -/
def execLogRecordResend (collection : Word) (csn : Nat) (peer : Half) (s : State) : Host.Outcome State Fault Refusal :=
  let id := collection.toNat
  let p := peer.toNat
  .next (match (s.coll id).bind fun c => c.op csn with
    | none => s
    | some o =>
      if s.logPeers.contains p && !o.confirmed.contains p && decide (o.sentAt + 100000 ≤ s.clock) && s.serving then
        (s.updColl id fun c => c.updOp csn fun o => { o with sentAt := s.clock }).shipRecord [p] id o
      else s)

/-- LOG_RELEASE (R436): a source needs its records of a collection no longer, up to a CSN. -/
def execLogRelease (s : State) : Host.Outcome State Fault Refusal :=
  .next (match s.takeMessage 0x20 [3] with
    | none => s
    | some (x, s) =>
      let b := x.body
      if !s.serving then s
      else s.wellFormed x (logFaultless b && field b 0x10 2 == x.src) (fun s =>
        { s with comp.records := s.comp.records.filter fun r =>
            !(r.source == x.src && r.collection == field b 4 4 && decide (r.csn ≤ field b 8 8)) }))

/-- LOG_FETCH (R439): the records of a source above a CSN go to the replica that asks, in CSN order, and then FETCH_END. -/
def execLogFetch (s : State) : Host.Outcome State Fault Refusal :=
  .next (match s.takeMessage 0x20 [4] with
    | none => s
    | some (x, s) =>
      let b := x.body
      let coll := field b 4 4
      let source := field b 0x10 2
      let hits := sortBy (s.comp.records.filter fun r => r.source == source && r.collection == coll && decide (field b 8 8 < r.csn))
        fun r q => decide (r.csn ≤ q.csn)
      if !s.serving then s
      else s.wellFormed x (logFaultless b) (fun s =>
        let s := hits.foldl (fun s r => s.post x.src 0x20 4 (ownerOf coll) false (logMessage 5 coll r.csn source r.record)) s
        s.post x.src 0x20 4 (ownerOf coll) false (logMessage 6 coll 0 source [])))

/-! ### A replica serves a lost primary's shard (R439) -/

/-- The operation that a log record holds: its opcode, then its plaintext (R109). -/
def recordOp (d : Descriptor) (b : Bytes) : Option OpBody :=
  let op := field b 0 2
  let p := b.drop 2
  let n := field p 4 4
  if op = 0x2010 ∨ op = 0x2012 then (readVectorRecords d n 0x30 [] (p.drop 16)).toOption.map fun l => .insert l (op == 0x2012)
  else if op = 0x2011 ∨ op = 0x2013 then (readTextRecords d n 0x30 [] (p.drop 16)).toOption.map fun l => .insert l (op == 0x2013)
  else if op = 0x2014 then some (.delete ((List.range n).map fun i => field p (16 + 8 * i) 8))
  else if op = 0x2015 then some (.deleteByFilter (p.drop 16))
  else none

/-- The record of a CSN, where every peer asked has sent it. -/
def ShardFetch.both (x : ShardFetch) (csn : Nat) : Option Bytes :=
  let has (p : Nat) : Bool := (x.got.zip x.by_).any fun e => e.1.csn == csn && e.2 == p
  if x.peers.all has then (x.got.find? (·.csn == csn)).map (·.record) else none

/-- What the crypto engine opens of the records fetched, by CSN: each is under LK(c) of one of the generations whose TRK the module holds (R70, R92). -/
def State.openRecords (key : Nat) (x : ShardFetch) (s : State) : List (Nat × Bytes) :=
  let keys := ((s.coll key).elim [] (·.gens)).filterMap fun g => (s.genTrk key g.1).map fun k => logKey k (key % 2 ^ 32)
  x.got.filterMap fun r => (keys.findSome? fun k => Config.logOpened k r.csn r.record).map fun p => (r.csn, p)

/-- Apply what both peers hold, in CSN order from C, up to the first CSN that one of them lacks (R439), or whose record does not open under LK(c), which is
rejected (R70): `opened` is what the crypto engine opens, by CSN. -/
def State.applyFetched (key : Nat) (x : ShardFetch) (opened : List (Nat × Bytes)) : Nat → State → State
  | 0, s => s
  | n + 1, s =>
    match s.coll key with
    | none => s
    | some c =>
      let csn := c.committed + 1
      match ((x.both csn).bind fun _ => (opened.find? (·.1 == csn)).map Prod.snd).bind (recordOp c.desc) with
      | none => s
      | some body =>
        let o := s.encodeAll c { csn := csn, body := body, mbx := 0, tag := 0, encoded := true, acked := true }
        let new := c.replay s.clock o
        match s.placeRows true (fun _ => none) { new with committed := csn, assigned := csn } with
        | none => s
        | some d => ((s.setColl d).countWrites c d).applyFetched key x opened n

/-- FETCH_DATA (R439): records and the end of a log peer's answer; once every peer has ended, the replica opens and applies what all of them hold. -/
def execFetchData (s : State) : Host.Outcome State Fault Refusal :=
  .next (match s.takeMessage 0x20 [5, 6] with
    | none => s
    | some (x, s) =>
      let b := x.body
      let coll := field b 4 4
      let mine (e : Nat × ShardFetch) : Bool := e.1 % 2 ^ 32 == coll && e.2.peers.contains x.src && e.2.source == field b 0x10 2
      if !s.serving then s
      else s.wellFormed x (logFaultless b) (fun s =>
        match s.comp.fetching.find? mine with
        | none => s
        | some (key, y) =>
          if field b 0 1 = 5 then
            let r : HeldRecord := { source := y.source, collection := coll, csn := field b 8 8, record := b.drop 24 }
            { s with comp.fetching := s.comp.fetching.put key { y with got := y.got ++ [r], by_ := y.by_ ++ [x.src] } }
          else
            let y := { y with ended := x.src :: y.ended.filter (· != x.src) }
            if y.peers.all y.ended.contains then
              ({ s with comp.fetching := s.comp.fetching.del key } : State).applyFetched key y (s.openRecords key y) y.got.length
            else { s with comp.fetching := s.comp.fetching.put key y }))

/-- The replica to name: the highest C, ties to the lower node (R439). -/
def bestReplica (l : List (Half × Nat)) : Option Nat :=
  ((sortBy l fun a b => decide (b.2 < a.2) || (a.2 == b.2 && decide (a.1.toNat ≤ b.1.toNat))).head?).map (·.1.toNat)

/-- REPLICA_PROMOTE (R439): the primary of a shard is lost, and the best of its IN_SYNC `replicas` is its server; being named, this module asks the log
`peers` of the lost primary for the records above its own C. -/
def execReplicaPromote (composition : Word) (shard : Half) (replicas : List (Half × Nat)) (peers : Option (Half × Half)) (s : State) :
    Host.Outcome State Fault Refusal :=
  let no := shard.toNat
  .next (match s.comp.compositions.find composition.toNat, bestReplica replicas with
    | some k, some best =>
      let node := k.members.getD no 0
      if !k.active || !k.lost.contains node || k.lost.contains best || (k.servers.find no).isSome then s
      else
        let s := s.updComp k.id fun k => { k with servers := k.servers.put no best }
        if best != s.nodeId then s
        else match peers with
          | none => s
          | some (p, q) =>
            let mine := s.index.collections.vals.filter fun c => c.isReplica && c.composition == k.id && c.id / 2 ^ 32 == no + 1
            mine.foldl (fun s c =>
              let ask (n : Nat) (s : State) : State := s.post n 0x20 4 (ownerOf c.id) false (logMessage 4 (c.id % 2 ^ 32) c.committed node [])
              let s := { s with comp.fetching := s.comp.fetching.put c.id { source := node, peers := [p.toNat, q.toNat] } }
              ask q.toNat (ask p.toNat s)) s
    | _, _ => s)

/-! ### REPLICA_SET (R437) -/

/-- A replica's entry in DONE. -/
def replicaEntry (r : Replica) : Bytes := leBytes 2 r.node ++ leBytes 1 r.state ++ zeros 1 ++ leBytes 8 r.c

/-- REPLICA_SET (R437). `answer` is what the proposed nodes say. -/
def execReplicaSet (m : Mbx) (tag : Word) (answer : ReplicaAnswer) (s : State) : Host.Outcome State Fault Refusal :=
  .next (s.start 0x6040 m tag fun f s => do
    need (!s.selfFenced) fencedDetail
    s.unfenced (field f.plain 4 4)
    opening f 16 16
    let b := f.plain
    let n := field b 8 1
    let id := field b 0 4
    let ns := (List.range n).map fun i => field b (12 + 2 * i) 2
    fields [(8, decide (n ≤ 2)), (9, zeroField b 9 3), (12, n != 0 || zeroField b 12 2), (14, n == 2 || zeroField b 14 2)]
    let c ← s.usableColl 0x20 id f
    match s.comp.compositions.find (field b 4 4) with
    | none => .error (bad 0x24)
    | some k => do
      need k.active (wrongStateAt 0x24)
      let ok (i : Nat) : Bool :=
        let x := ns.getD i 0
        k.live.contains x && x != s.nodeId && !(ns.take i).contains x
      fields [(12, n == 0 || ok 0), (14, n != 2 || ok 1)]
      let old := c.replicas.filter fun r => ns.contains r.node
      let fresh := ns.filter fun x => !old.any (·.node == x)
      match fresh, answer with
      | _ :: _, .lacksKey second => .error (keyUnavailable (0x2C + 2 * flag second))
      | _ :: _, .noRoom limit => .error (noResources limit.toNat)
      | _, _ =>
        let of (x : Nat) : Replica := (old.find? (·.node == x)).getD { node := x, state := 0, c := 0 }
        let c := { c with composition := k.id, replicas := ns.map of }
        let s := (c.replicas.filter fun r => fresh.contains r.node).foldl (fun s r => (s.copyTo c r.node).1.pumpReplica c { r with sent := c.sealedCsn }) (s.setColl c)
        .ok (s.answer f .done (c.replicas.flatMap replicaEntry)))

/-! ### Replica messages (R438, Table 16-23) -/

/-- The key under which a primary's collection is replicated here, and the composition (R437). -/
def State.replicaKey (src coll : Nat) (s : State) : Option (Nat × Nat) :=
  (s.comp.compositions.vals.find? fun k => k.active && k.members.contains src && k.members.contains s.nodeId).map fun k =>
    (coll + 2 ^ 32 * (k.shardOf src + 1), k.id)

/-- The replica of a primary's collection: it begins as an empty copy of the descriptor, image and keys that this module's own shard has. -/
def State.replicaOf (src coll : Nat) (s : State) : Option Collection :=
  (s.replicaKey src coll).bind fun (key, k) =>
    match s.coll key with
    | some c => some c
    | none => (s.coll coll).map fun (o : Collection) => {
        id := key, desc := o.desc, qimage := o.qimage, gens := o.gens, gen := o.gen, modelGen := o.modelGen, vocabGen := o.vocabGen, cls := o.cls
        reserved := o.reserved, segments := [{ id := 1, state := .opened }], composition := k, isReplica := true }

/-- Read one item of an OP: what the primary computed; only the list, which an item of Table 16-23 does not carry, is looked up again, under the map version
that the replica has at that CSN (R152). -/
def readReplicaItem (c : Collection) (csn seg pos : Nat) (b : Bytes) : Option (Version × Bytes) :=
  let d := c.desc
  let sk := 16 + d.extBytes
  let rf := sk + d.sketchBits / 8
  let vc := rf + d.dim * d.refineBits / 8
  let tk := vc + (if d.storeFull then d.dim * (if d.vecFormat == 1 then 2 else 4) else 0)
  let n := if d.storeTokens then field b tk 4 else 0
  let len := tk + (if d.storeTokens then 4 + 4 * n else 0)
  let size := (len + 7) / 8 * 8
  if b.length < size || !zeroField b len (size - len) then none
  else
    let v : Version := {
      id := field b 0 8, packed := field b 8 8, ext := slice b 16 d.extBytes, ins := csn, list := 0, seg := seg, pos := pos
      sketch := field b sk (d.sketchBits / 8), refine := slice b rf (vc - rf), vector := slice b vc (tk - vc)
      tokens := if d.storeTokens then (records 4 n (b.drop (tk + 4))).map leNat else [] }
    let l := assignList c (if d.storeFull then vectorElements d.vecFormat d.dim v.vector else c.dequantised v)
    some ({ v with list := l }, b.drop size)

/-- Read `n` items. -/
def readReplicaItems (c : Collection) (csn seg : Nat) : Nat → Nat → Bytes → Option (List Version)
  | 0, _, b => if b.isEmpty then some [] else none
  | n + 1, pos, b => (readReplicaItem c csn seg pos b).bind fun r => (readReplicaItems c csn seg n (pos + 1) r.2).map (r.1 :: ·)

/-- Apply an OP with the rules of its opcode at its CSN; none where its body breaks Table 16-23. -/
def Collection.replicaApply (c : Collection) (now csn : Nat) (b : Bytes) : Option Collection :=
  let op := field b 0 2
  let n := field b 4 4
  let body := b.drop 8
  let seg := c.openSegment.elim 0 (·.id)
  if b.length < 8 || !zeroField b 2 2 then none
  else if 0x2010 ≤ op ∧ op ≤ 0x2013 then
    (readReplicaItems c csn seg n (c.rows seg).length body).map fun vs =>
      let c := if 0x2012 ≤ op then (c.mark now csn (fun v => visible c (csn - 1) v && vs.any (·.id == v.id))).1 else c
      { c with versions := c.versions ++ vs.filter fun v => !c.versions.any fun w => w.id == v.id && w.ins == csn }
  else if op = 0x2014 then
    if body.length != 8 * n then none
    else
      let ids := (records 8 n body).map leNat
      some (c.mark now csn (fun v => visible c (csn - 1) v && ids.contains v.id)).1
  else if op = 0x2015 then
    if n != 0 || body.length != 8 + 24 * field body 0 1 || !zeroField body 1 7 then none
    else some { c with predicates := c.predicates ++ [{ csn := csn, predicates := body.drop 8 }] }
  else none

/-- Tell the primary the replica's C. -/
def State.ackReplica (x : Inbound) (coll : Nat) (c : Collection) (s : State) : State :=
  s.post x.src 0x21 5 x.tenant false (replicaMessage 4 coll c.committed 0 0 [])

/-- One slot of a REBALANCE body: its centroid and its edges. -/
def rebalanceSlot (c : Collection) (b : Bytes) : List Half × List (Nat × Nat) :=
  let n := (readQHeader c.qimage).degree
  ((records 2 c.desc.dim b).map (fun r => BitVec.ofNat 16 (leNat r)),
    (records 4 n (b.drop (2 * c.desc.dim))).map fun r => (leNat r % 2 ^ 24, leNat r / 2 ^ 24))

/-- The layout of a REBALANCE body. -/
def rebalanceFaultless (c : Collection) (b : Bytes) : Bool :=
  let n := field b 4 2
  8 ≤ b.length && 1 ≤ n && n ≤ 16 && zeroField b 6 2 &&
    b.length == 8 + 16 * n + 3 * n * (2 * c.desc.dim + 4 * (readQHeader c.qimage).degree) &&
    (List.range n).all fun i => zeroField b (8 + 16 * i + 12) 4 && [0, 4, 8].all fun j => decide (field b (8 + 16 * i + j) 4 < 2 ^ c.desc.listsLog2)

/-- A slot as a REBALANCE gives it, its epoch unchanged. -/
def Collection.takeSlot (c : Collection) (l : Nat) (x : List Half × List (Nat × Nat)) : Collection :=
  { c with map.slots := c.map.slots.put l { slotOf c l with centroid := x.1, cc := bf16Dot x.1 x.1, edges := x.2 } }

/-- A replica takes over a map version as the primary computed it (R152, R438): a rebalance, a redistribution, which it carries out on its own rows, or the
rebuild of a slot (DESIGN CHOICE, log entry 153). -/
def State.takeRebalance (c : Collection) (b : Bytes) (s : State) : Collection :=
  let n := field b 4 2
  let size := 2 * c.desc.dim + 4 * (readQHeader c.qimage).degree
  let slot (i j : Nat) := rebalanceSlot c (b.drop (8 + 16 * n + (3 * i + j) * size))
  let c := (List.range n).foldl (fun (c : Collection) i =>
    let x := field b (8 + 16 * i) 4
    let y := field b (12 + 16 * i) 4
    let k := field b (16 + 16 * i) 4
    if x == k then (if y == x then c.takeSlot x (slot i 0) else (s.redistribute c k y).getD c)
    else
      let c := c.switchSlots x y k (slot i 0).1 (slot i 1).1 (slot i 2).1
      ((c.setEdges x (slot i 0).2).setEdges k (slot i 1).2).setEdges y (slot i 2).2) (s.keepMap c)
  { c with map.version := field b 0 4, map.record := c.gen }

/-- Rows, each with the list that shares it, and tombstone records of a primary's SEALED segment, and the centroid map whose record lies with it
(R153, R438); none where no place is free. -/
def State.takeRows (c : Collection) (seg gen : Nat) (rows : List (Version × Option Nat)) (recs : List (Nat × Nat × Nat)) (map : Option CentroidMap)
    (s : State) : Option Collection :=
  let c := if c.segments.any (·.id == seg) || seg == 0 then c else { c with segments := c.segments ++ [{ id := seg, state := .sealed, gen := gen }] }
  let c := match map with
    | some m => { s.keepMap c with map := m }
    | none => c
  let new := rows.filter fun v => !c.versions.any fun w => w.id == v.1.id && w.ins == v.1.ins
  let all := c.versions ++ new.map fun v => { v.1 with staged := false, extent := 0 }
  let shared (v : Version) : Option Nat := (new.find? fun w => w.1.id == v.id && w.1.ins == v.ins).bind (·.2)
  (s.placeRows false shared { c with
    nextSegment := max c.nextSegment (seg + 1)
    versions := all.map fun v => (recs.filter fun r => r.1 == v.seg && r.2.1 == v.pos).foldl (fun v r => markVersion r.2.2 v) v }).map
      fun c => c.closeExtents fun e => new.any fun v => v.1.seg == e.seg

/-- The layout of a replica message's head. -/
def replicaFaultless (b : Bytes) : Bool :=
  let kind := field b 0 1
  32 ≤ b.length && 1 ≤ kind && kind ≤ 5 && zeroField b 1 3 && field b 0x1C 4 == b.length - 32 &&
    (kind == 2 || (zeroField b 0x10 12)) && ([1, 2, 3].contains kind || b.length == 32) && (kind != 2 || b.length % 4112 == 32)

/-- What a primary makes of an ACK: IN_SYNC while the replica's C was the primary's within the last 5 ms (R438). -/
def Collection.noteAck (c : Collection) (now node csn : Nat) : Collection :=
  let g (r : Replica) : Replica := if r.node = node ∧ r.state ≠ 2 then
    { r with c := csn, state := if decide (c.committedAt (now - 5000000) ≤ csn) then 1 else r.state } else r
  { c with replicas := c.replicas.map g }

/-- REPLICA_OP (R438, Table 16-23). `opened` gives the rows, tombstone records and map record that a SEGMENT chunk, or with COPY_END the segments read from
the shared tier, open to; none where a tag fails. -/
def execReplicaOp (opened : Option (List (Version × Option Nat) × List (Nat × Nat × Nat) × Option CentroidMap)) (s : State) : Host.Outcome State Fault Refusal :=
  .next (match s.takeMessage 0x21 [] with
    | none => s
    | some (x, s) =>
      let b := x.body
      let kind := field b 0 1
      let coll := field b 4 4
      let csn := field b 8 8
      let body := b.drop 32
      if !s.serving then s
      else s.wellFormed x (replicaFaultless b) (fun s =>
        if kind = 4 then s.updColl coll fun c => c.noteAck s.clock x.src csn
        else match s.replicaOf x.src coll with
          | none => s.partnerViolation x.port x.src
          | some c =>
            if kind = 1 then
              if csn ≤ c.committed then (s.setColl c).ackReplica x coll c
              else match c.replicaApply s.clock csn body with
                | none => s.partnerViolation x.port x.src
                | some new => match s.placeRows true (fun _ => none) { new with committed := csn, assigned := csn } with
                  | none => s.setColl c
                  | some d => ((s.setColl d).countWrites c d).ackReplica x coll d
            else if kind = 3 then s.wellFormed x (rebalanceFaultless c body) (fun s => s.setColl (s.takeRebalance c body))
            else match opened with
              | none => (s.setColl c).logIntegrity (ownerOf coll) 3 x.src
              | some (rows, recs, map) =>
                match s.takeRows c (field b 0x10 8) c.gen rows recs map with
                | none => s.setColl c
                | some new =>
                  if kind = 5 then
                    let new := { new with committed := max new.committed csn, assigned := max new.committed csn }
                    ((s.setColl new).countWrites c new).ackReplica x coll new
                  else (s.setColl new).countWrites c new))

/-- REPLICA_FALLS_BEHIND (R438): a replica whose C the primary's left more than 100 ms ago is CATCHING_UP again. -/
def execReplicaFallsBehind (collection : Word) (node : Half) (s : State) : Host.Outcome State Fault Refusal :=
  .next (match s.coll collection.toNat with
    | none => s
    | some c =>
      let g (r : Replica) : Replica :=
        if r.node = node.toNat ∧ r.state = 1 ∧ r.c < c.committedAt (s.clock - 100000000) then { r with state := 0 } else r
      s.setColl { c with replicas := c.replicas.map g })

end Sys2Proof.Machine
end

