-- ==== Sys2Proof/Machine/TableMessages.lean ====
section
/-!
DEFINITION. What a member does with the messages of feature tables (R327, R328, R330, R334, R336, R420, Table 16-24).
-/
namespace Sys2Proof.Machine

/-- The head of a feature-table message obeys Table 16-24. -/
def tableHeadOk (b : Bytes) : Bool :=
  let kind := field b 0 1
  32 ≤ b.length && 1 ≤ kind && kind ≤ 8 && (kind == 2 || kind == 5 || kind == 8 || field b 1 1 == 0) && field b 0x1C 4 == b.length - 32 &&
    (if kind = 1 then field b 0x1C 4 == 64 else if kind = 2 || kind = 7 || kind = 8 then field b 0x1C 4 == 0 else true)

/-- A table message for a table of which its sender is a member: any other is a partner violation (R406). -/
def State.withTable (x : Inbound) (k : Table → State → State) (s : State) : State :=
  match s.tables.tables.find (field x.body 4 4) with
  | some t => if t.members.contains x.src then k t s else s.partnerViolation x.port x.src
  | none => s.partnerViolation x.port x.src

/-- CREATE: this member reserves its part and acknowledges, or says why not (R327). -/
def State.tableCreateHere (x : Inbound) (s : State) : State :=
  let b := x.body.drop 32
  let id := field x.body 4 4
  let d := readTableDesc b
  match s.comp.compositions.find d.composition with
  | none => s.partnerViolation x.port x.src
  | some k =>
    s.wellFormed x ((fields (tableFields b) matches .ok _) && field b 0 4 == id && k.active && k.members.contains x.src) (fun s =>
      let ack (st : Status) (s : State) : State :=
        s.tablePost x.src id (tableMessage 2 (statusCode st) (field x.body 2 2) id 0 (field x.body 0x10 8) 0 [])
      if (s.tables.tables.find id).isSome || s.power.season != .summer then ack .wrongState s
      else match s.reserveTable id d k.members with
        | .ok t => ack .done t
        | .error e => ack e.status s)

/-- CREATE_ACK (R327): the limit of another member is not told (free). -/
def State.tableCreateAck (x : Inbound) (t : Table) (s : State) : State :=
  match t.creating with
  | none => s
  | some (m, tag, left) =>
    if field x.body 1 1 ≠ 0 then
      let (n, s) := s.draw
      s.endCreate t (some (noResources (n % 2 ^ 32)))
    else
      let left := left.filter (· != x.src)
      let s := s.updTable t.id fun t => { t with creating := some (m, tag, left) }
      if left.isEmpty then s.endCreate t none else s

/-- UPDATE: entries for rows at home here, or of the R part, are buffered for their step (R330–R332). -/
def State.tableUpdateHere (x : Inbound) (t : Table) (s : State) : State :=
  let b := x.body
  let fmt := field b 0x24 1
  let n := field b 0x18 4
  let size := 8 + updateEntryBytes t.desc fmt
  let es := records size n (b.drop 40)
  let ok := 40 ≤ b.length && decide (fmt ≤ 1) && zeroField b 0x25 3 && b.length == 40 + n * size &&
    es.all fun e => zeroField e 4 4 && (updateEntryFault t.desc fmt 0 (e.drop 8) matches .ok _)
  s.wellFormed x ok (fun s =>
    if t.broken || field b 8 8 < t.step then s
    else s.updTable t.id fun t => { t with
      buffer := t.buffer ++ es.map fun e => readUpdate t.desc fmt (field b 8 8) (field b 2 2) (field b 0x20 4) (field e 0 4) (e.drop 8) })

/-- LOOKUP: the rows asked for go back in ROWS once they are ready (R328, R330). -/
def State.tableLookupHere (x : Inbound) (t : Table) (s : State) : State :=
  let b := x.body
  let n := field b 0x18 4
  let es := records 16 n (b.drop 32)
  let ok := b.length == 32 + 16 * n && es.all fun e => zeroField e 5 3 && decide (field e 4 1 ≤ 1) && keyOk t.desc (field e 8 8)
  s.wellFormed x ok (fun s =>
    let r : TableRequest := {
      table := t.id, from_ := x.src, req := field b 0x10 8, step := field b 8 8, tenant := x.tenant
      entries := es.map fun e => (field e 0 4, field e 4 1, keyRow t.desc (field e 4 1) (field e 8 8)) }
    ({ s with tables.requests := s.tables.requests ++ [r] } : State).pumpRequest r)

/-- ROWS: they fill a lookup, or a prefetch buffer (R328, R333). -/
def State.tableRowsHere (x : Inbound) (t : Table) (s : State) : State :=
  let b := x.body
  let n := field b 0x18 4
  let req := field b 0x10 8
  let size := 8 + rowSize t.desc
  let es := (records size n (b.drop 32)).map fun e => (field e 0 4, readRow t.desc (e.drop 8))
  s.wellFormed x (b.length == 32 + n * size) (fun s =>
    match s.tables.ahead.find? fun (a : AheadRead) => a.req == req with
    | some a =>
      let mine := a.rows.filter fun y => es.any (·.1 == y.1)
      let s := { s with tables.ahead := (s.tables.ahead.filter fun (y : AheadRead) => y.req != req) ++
        (if (a.rows.all fun y => es.any (·.1 == y.1)) || field b 1 1 != 0 then [] else [{ a with rows := a.rows.filter fun y => !es.any (·.1 == y.1) }]) }
      { s with tables.prefetch := s.tables.prefetch ++ mine.map fun (y : Nat × Nat × Nat) =>
        ({ mbx := a.mbx, table := t.id, part := y.2.1, row := y.2.2, lastStep := ((es.find? (·.1 == y.1)).elim 0 (·.2.lastStep))
           since := s.clock } : Prefetched) }
    | none =>
      match s.host.flights.find? fun f => match f.work with | .lookup run => run.req == req && run.table == t.id | _ => false with
      | none => s
      | some f => match f.work with
        | .lookup run =>
          if field b 1 1 = 0x24 then (s.abortStreams f).answer f .dataDamaged []
          else if field b 1 1 ≠ 0 then (s.abortStreams f).answer f .compositionLost []
          else
            let mine (y : Nat × Nat × Nat) : Bool := y.2.1 != 2 && t.home s.nodeId (blockOf y.2.2) == x.src && es.any (·.1 == y.1)
            let run := { run with
              left := run.left.filter fun y => !mine y
              got := run.got ++ (run.left.filter mine).map fun y => (y.1, y.2.1, ((es.find? (·.1 == y.1)).elim {} (·.2))) }
            (s.setWork f (.lookup run)).pumpLookup f
        | _ => s)

/-- END: the member has closed its step; the coordinator's carries the moves (R330, R334). -/
def State.tableEndHere (x : Inbound) (t : Table) (s : State) : State :=
  let b := x.body
  let n := field b 0x18 4
  let moves := field b 0x24 4
  let loads := (records 8 n (b.drop 40)).map fun e => (x.src, field e 0 4, field e 4 4)
  let ms := records 8 moves (b.drop (40 + 8 * n))
  let ok := 40 ≤ b.length && b.length == 40 + 8 * (n + moves) && (moves == 0 || t.coordinator s.nodeId == x.src) &&
    ms.all fun e => zeroField e 6 2 && t.members.contains (field e 4 2)
  s.wellFormed x ok (fun s =>
    let step := field b 8 8
    let s := s.updTable t.id fun t => { t with
      ends := if t.ends.contains (x.src, step) then t.ends else t.ends ++ [(x.src, step)]
      loads := if loads.isEmpty then t.loads else (t.loads.filter (·.1 != x.src)) ++ loads
      moves := t.moves ++ ms.map fun e => (step, field e 0 4, field e 4 2) }
    (s.endClose t.id).settleDrop t.id)

/-- TABLE_OP (R327, R328, R330, R336, R406). -/
def execTableOp (s : State) : Host.Outcome State Fault Refusal :=
  .next (match s.takeMessage 0x30 [] with
    | none => s
    | some (x, s) =>
      if !s.serving then s
      else s.wellFormed x (tableHeadOk x.body) (fun s =>
        match field x.body 0 1 with
        | 1 => s.tableCreateHere x
        | 2 => s.withTable x (State.tableCreateAck x)
        | 3 => s.withTable x (State.tableUpdateHere x)
        | 4 => s.withTable x (State.tableLookupHere x)
        | 5 => s.withTable x (State.tableRowsHere x)
        | 6 => s.withTable x (State.tableEndHere x)
        | 7 => s.withTable x fun t s =>
            (s.updTable t.id fun t => { t with remoteDrop := some (x.src, field x.body 0x10 8) }).settleDrop t.id
        | _ => s.withTable x fun t s =>
            (s.updTable t.id fun t => { t with dropLeft := t.dropLeft.filter (· != x.src) }).settleDrop t.id))

/-- TABLE_BLOCK (R334): a moved block reaches its new home, and whatever waits for it goes on. -/
def execTableBlock (s : State) : Host.Outcome State Fault Refusal :=
  .next (match s.takeMessage 0x31 [] with
    | none => s
    | some (x, s) =>
      if !s.serving then s
      else match s.tables.tables.find (field x.body 0 4) with
        | none => s.partnerViolation x.port x.src
        | some t =>
          let b := x.body
          let block := field b 4 4
          let version := field b 8 4
          let n := min 4096 (2 ^ t.desc.rowsLog2)
          let now := version == t.mapVersion && t.incoming.contains block
          let early := version == t.mapVersion + 1
          let ok := t.members.contains x.src && zeroField b 12 4 && b.length == 16 + n * rowSize t.desc && (now || early)
          s.wellFormed x ok (fun s =>
            let rows := (records (rowSize t.desc) n (b.drop 16)).zipIdx.filterMap fun (r, i) =>
              if r.all (· == 0) then none else some (4096 * block + i, readRow t.desc r)
            let s := s.updTable t.id fun t => { t with
              rows := rows.foldl (fun m r => m.put r.1 r.2) t.rows
              incoming := t.incoming.filter (· != block), arrived := if now then t.arrived else block :: t.arrived }
            s.pumpTable t.id))

end Sys2Proof.Machine
end

