-- ==== Sys2Proof/Machine/TierCommands.lean ====
section
/-!
DEFINITION. The host memory tier and the shared tier: granting and revoking host regions, cache filling, publishing, leases, shared
reads (R344–R355).
-/
namespace Sys2Proof.Machine

/-- Bytes of a granted extent: data pages and tag array (R345). -/
def extentSize (pages : Nat) : Nat := 4096 * pages + (16 * pages + 4095) / 4096 * 4096

/-- Two extents overlap. -/
def extentsOverlap (a n b m : Nat) : Bool := decide (a < b + m) && decide (b < a + n)

/-- HOST_REGION_GRANT (R344, R345). -/
def execHostRegionGrant (m : Mbx) (tag : Word) (s : State) : Host.Outcome State Fault Refusal :=
  .next (s.start 0x7010 m tag fun f s => do
    let b := f.plain
    opening f 32 32
    let id := field b 0 4
    let base := field b 8 8
    let pages := field b 0x10 4
    let us := field b 0x14 4
    let size := extentSize pages
    fields [(0, id != 0 && (s.tiers.regions.find id).isNone), (4, field b 4 1 == 1 || field b 4 1 == 2), (5, zeroField b 5 3),
      (8, base % 4096 == 0 && decide (base + size ≤ 2 ^ 64) &&
        !s.tiers.regions.vals.any fun x => extentsOverlap base size x.base (extentSize x.pages)),
      (0x10, 256 ≤ pages && pages ≤ 16777216), (0x14, us == 0 || (20 ≤ us && us ≤ 10000)), (0x18, zeroField b 0x18 8)]
    need (decide (s.tiers.regions.length < 64)) (noResources 64)
    need (decide (s.grantedPages + pages ≤ 67108864)) (noResources 67108864)
    need (decide (8 * pages ≤ s.workingFree)) (noResources (s.workingFree / 1048576))
    let x : HostRegion := { kind := field b 4 1, base := base, pages := pages, boundUs := if us = 0 then 200 else us }
    let s := { s with tiers.regions := s.tiers.regions.put id x }
    .ok (s.answer f .done (leBytes 4 id ++ zeros 4 ++ leBytes 8 (4096 * pages))))

/-- HOST_REGION_REVOKE (R349): no access is issued from now on; the answer follows once those outstanding are done. -/
def execHostRegionRevoke (m : Mbx) (tag : Word) (s : State) : Host.Outcome State Fault Refusal :=
  .next (s.start 0x7011 m tag fun f s => do
    let b := f.plain
    opening f 8 8
    let id := field b 0 4
    match s.tiers.regions.find id with
    | none => .error (bad 0x20)
    | some x => do
      need x.revoking.isNone (bad 0x20)
      fields [(4, zeroField b 4 4)]
      let s := { s with tiers.regions := s.tiers.regions.upd id fun x => { x with revoking := some (m.key, tag, x.live.length) } }
      .ok ((s.setWork f (.revokeWait id)).settleRevoke id))

/-- Every refine sector of a segment is in a CACHE page. -/
def State.cachedWhole (c : Collection) (seg : Nat) (s : State) : Bool :=
  (List.range (areaSectors c.desc 0 (c.rows seg).length)).all fun k => (s.cachedIn c.id seg k).isSome

/-- A sector may be copied into a CACHE region now: it is a refine sector of a SEALED segment, the segments that are newer have been copied, and it has no
copy yet (R342, R348; that the order is kept within a collection, DEDUCED, log entry 167). -/
def State.mayCache (c : Collection) (seg sector : Nat) (s : State) : Bool :=
  let sealedItems (y : Segment) : Bool := segDurable y && !y.tombstone
  c.segments.any (fun y => y.id == seg && sealedItems y) && decide (sector < areaSectors c.desc 0 (c.rows seg).length) &&
    (s.cachedIn c.id seg sector).isNone && c.segments.all fun y => y.id ≤ seg || !sealedItems y || s.cachedWhole c y.id

/-- A slot for a sector of a segment: a free page, else one of the oldest segment cached, where that is older, once no read is issued against it
(R347, R348). -/
def State.cacheSlot (id seg : Nat) (x : HostRegion) (s : State) : Option Nat :=
  match (List.range x.pages).find? (fun i => (x.live.find i).isNone) with
  | some i => some i
  | none =>
    let oldest := x.live.vals.foldl (fun a p => min a p.seg) ((x.live.vals.headD { version := 0, sector := 0 }).seg)
    if !s.regionQuiet id || seg ≤ oldest then none else (x.live.find? fun e => e.2.seg == oldest).map Prod.fst

/-- HOST_CACHE_FILL (R347, R348): a refine sector of a SEALED segment is copied into a CACHE region under the next version. In LOW_SPACE
cache filling waits (R378). -/
def execHostCacheFill (region collection : Word) (seg sector : Nat) (s : State) : Host.Outcome State Fault Refusal :=
  let id := region.toNat
  .next (match s.tiers.regions.find id, s.coll collection.toNat with
    | some x, some c =>
      let ok := x.kind == 2 && !x.failed && x.revoking.isNone && (placeClassOf s.placeImage c.cls).hostCache &&
        s.mayCache c seg sector && !s.flash.lowSpace && (s.power.season == .summer || s.power.season == .drain)
      match if ok then s.cacheSlot id seg x else none with
      | some i =>
        let gen := ((c.segment seg).map (·.gen)).getD 0
        let s := s.writeHostPage id i (Config.sectorPlain c.id gen seg sector)
        { s with
          tiers.regions := s.tiers.regions.upd id fun x => { x with
            live := x.live.put i { version := s.tiers.version, collection := c.id, seg := seg, sector := sector } }
          tiers.version := s.tiers.version + 1 }
      | none => s
    | _, _ => s)

/-! ### The shared tier -/

/-- Flash a shared region's objects take. -/
def State.sharedBytes (region : Nat) (s : State) : Nat :=
  ((s.tiers.objects.filter (·.region == region)).map fun o => match s.coll o.collection with
    | some c => ((c.rows o.segment).map (recordBytes c.desc)).foldl (· + ·) 0
    | none => 0).foldl (· + ·) 0

/-- Reclaim superseded objects on which no lease remains (R353). -/
def State.reclaimObjects (s : State) : State :=
  { s with tiers.objects := s.tiers.objects.filter fun o =>
      !(o.superseded && !s.tiers.given.any fun l => l.collection == o.collection && l.gen == o.gen && l.segment == o.segment) }

/-- SHARED_PUBLISH (R352): a SEALED segment of a publishing class becomes an object of the shared region; where the region is full the
publication is skipped and counted; in LOW_SPACE it waits (R378). -/
def execSharedPublish (collection : Word) (seg : Nat) (s : State) : Host.Outcome State Fault Refusal :=
  .next (match s.coll collection.toNat with
    | none => s
    | some c =>
      let k := placeClassOf s.placeImage c.cls
      match c.segment seg with
      | none => s
      | some x =>
        if !k.publish || !segDurable x || x.tombstone || s.flash.lowSpace || !s.serving ||
            s.tiers.objects.any (fun o => o.collection == c.id && o.gen == x.gen && o.segment == seg) then s
        else
          let size := ((c.rows seg).map (recordBytes c.desc)).foldl (· + ·) 0
          if (regionOf s.placeImage k.shared).gib * 2 ^ 30 < s.sharedBytes k.shared + size then s.charge (ownerOf c.id) 0xBC 1
          else { s with tiers.objects := s.tiers.objects ++ [{ region := k.shared, collection := c.id, gen := x.gen, segment := seg }] })

/-- The head of a shared-tier message (Table 16-25). -/
def sharedMessage (kind reason sharedNo coll gen count seg sector req : Nat) (body : Bytes) : Bytes :=
  leBytes 1 kind ++ leBytes 1 reason ++ leBytes 2 sharedNo ++ leBytes 4 coll ++ leBytes 2 gen ++ zeros 2 ++ leBytes 4 count ++
    leBytes 8 seg ++ leBytes 8 sector ++ leBytes 8 req ++ body

/-- LEASE_RENEW (R353): a reader renews, every 1 s, its leases on one owner's objects. -/
def execLeaseRenew (owner : Half) (s : State) : Host.Outcome State Fault Refusal :=
  let n := owner.toNat
  let mine := s.tiers.held.filter (·.node == n)
  .next (if mine.isEmpty || mine.all (fun l => s.clock < l.since + 1000000000) || s.selfFenced then s
    else
      let req := s.nodeId + 65536 * s.tiers.nextReq
      let body := mine.flatMap fun l => leBytes 4 l.collection ++ leBytes 2 l.gen ++ zeros 2 ++ leBytes 8 l.segment
      let s := { s with tiers.nextReq := s.tiers.nextReq + 1 }
      s.post n 0x40 2 0 true (sharedMessage 4 0 0 0 0 mine.length 0 0 req body))

/-- LEASE_EXPIRE (R353, R355): a lease whose holder has not been heard for 10 s expires, and what is superseded and unleased is
reclaimed. -/
def execLeaseExpire (holder : Half) (s : State) : Host.Outcome State Fault Refusal :=
  let n := holder.toNat
  .next (({ s with tiers.given := s.tiers.given.filter fun l => !(l.node == n && decide (l.since + 10000000000 ≤ s.clock)) } : State).reclaimObjects)

/-- An owner does not serve its objects: REFUSE reason (R354, Table 16-25); 0 where it serves. -/
def State.refuseReason (src : Nat) (s : State) : Nat :=
  if s.fencedNode src || s.selfFenced then 4
  else if s.power.season == .summer || s.power.season == .drain then 0 else 3

/-- SHARED_READ (R354): an owner serves sectors of an object under a lease of the reader, or refuses. -/
def execSharedRead (s : State) : Host.Outcome State Fault Refusal :=
  .next (match s.takeMessage 0x40 [1] with
    | none => s
    | some (x, s) =>
      let b := x.body
      s.wellFormed x (b.length == 40 && field b 1 1 == 0 && zeroField b 0xA 2) fun s =>
        let coll := field b 4 4
        let gen := field b 8 2
        let count := field b 0xC 4
        let seg := field b 0x10 8
        let sector := field b 0x18 8
        let req := field b 0x20 8
        let here := s.tiers.objects.any fun o => o.collection == coll && o.gen == gen && o.segment == seg
        let leased := s.tiers.given.any fun l => l.node == x.src && l.collection == coll && l.gen == gen && l.segment == seg
        let why := if s.refuseReason x.src != 0 then s.refuseReason x.src else if !here then 1 else if !leased then 2 else 0
        if why = 0 then
          let body := (List.range count).flatMap fun i => s.storedSector coll gen seg (sector + i)
          s.post x.src 0x40 5 0 true (sharedMessage 2 0 (field b 2 2) coll gen count seg sector req body)
        else s.post x.src 0x40 5 0 true (sharedMessage 3 why (field b 2 2) coll gen count seg sector req []))

/-- An entry of a LEASE or LEASE_ACK body: collection, generation, status, segment. -/
def leaseEntries (b : Bytes) : List (Nat × Nat × Nat × Nat) :=
  (records 16 (b.length / 16) b).map fun e => (field e 0 4, field e 4 2, field e 6 1, field e 8 8)

/-- LEASE (R353): an owner grants a lease on each object it still holds, and answers; a reader notes what was granted, and forgets what
was reclaimed. -/
def execLease (s : State) : Host.Outcome State Fault Refusal :=
  .next (match s.takeMessage 0x40 [4, 5] with
    | none => s
    | some (x, s) =>
      let b := x.body
      s.wellFormed x (40 ≤ b.length && b.length == 40 + 16 * field b 0xC 4) fun s =>
        let es := leaseEntries (b.drop 40)
        if field b 0 1 = 4 then
          let has (e : Nat × Nat × Nat × Nat) : Bool := s.refuseReason x.src == 0 &&
            s.tiers.objects.any fun o => o.collection == e.1 && o.gen == e.2.1 && o.segment == e.2.2.2
          let granted := es.filter has
          let fresh := granted.map fun e => ({ node := x.src, collection := e.1, gen := e.2.1, segment := e.2.2.2, since := s.clock } : Lease)
          let keep := s.tiers.given.filter fun l => !fresh.any fun g => g.node == l.node && g.collection == l.collection && g.gen == l.gen && g.segment == l.segment
          let body := es.flatMap fun e => leBytes 4 e.1 ++ leBytes 2 e.2.1 ++ leBytes 1 (flag (!has e)) ++ zeros 1 ++ leBytes 8 e.2.2.2
          ({ s with tiers.given := keep ++ fresh } : State).post x.src 0x40 2 0 true
            (sharedMessage 5 0 (field b 2 2) 0 0 es.length 0 0 (field b 0x20 8) body)
        else
          { s with tiers.held := s.tiers.held.filterMap fun l =>
              match es.find? (fun e => e.1 == l.collection && e.2.1 == l.gen && e.2.2.2 == l.segment && l.node == x.src) with
              | some e => if e.2.2.1 = 0 then some { l with since := s.clock } else none
              | none => some l })

end Sys2Proof.Machine
end

