-- ==== Sys2Proof/Machine/FabricLosses.lean ====
section
/-!
DEFINITION. Messages that did not arrive, and what a reader makes of an owner's answers (R353, R354, R403, Table 16-8).
-/
namespace Sys2Proof.Machine

/-! ### Shared-tier answers (R353, R354, Table 16-25) -/

/-- The command that waits for a shared read, and which of its outstanding reads it is. -/
def State.sharedWaiter (r : SharedRead) (s : State) : Option (Flight × Nat) :=
  (s.flight r.mbx r.tag).bind fun f => ((readsOf f).findIdx? fun x => x.tier == .shared r.owner && x.lost.isNone).map fun i => (f, i)

/-- A shared read ends with a status: it is not waited for any more. -/
def State.sharedLost (r : SharedRead) (st : Status) (s : State) : State :=
  let s := { s with tiers.reads := s.tiers.reads.erase r }
  match s.sharedWaiter r with
  | some (f, i) => s.readLost f i st
  | none => s

/-- SHARED_DATA (R353, R354): sectors that open under CK reach the command that reads them; a tag that fails damages its data; without the key it ends
KEY_UNAVAILABLE; a refusal fails the read. What answers no read of this module any more is discarded. -/
def execSharedData (opens : Bool) (s : State) : Host.Outcome State Fault Refusal :=
  .next (match s.takeMessage 0x40 [2, 3] with
    | none => s
    | some (x, s) =>
      let b := x.body
      let kind := field b 0 1
      let req := field b 0x20 8
      let ok := 40 ≤ b.length && zeroField b 0xA 2 &&
        (if kind = 2 then field b 1 1 == 0 && b.length == 40 + 4112 * field b 0xC 4 else decide (1 ≤ field b 1 1) && decide (field b 1 1 ≤ 4) && b.length == 40)
      if !s.serving then s
      else s.wellFormed x (ok && s.ownPastId req s.tiers.nextReq) (fun s =>
        match s.tiers.reads.find? fun r => r.req == req && r.owner == x.src with
        | none => { s with tiers.lateDiscarded := s.tiers.lateDiscarded + 1 }
        | some r =>
          if kind = 3 then s.sharedLost r .tierFailed
          else match s.sharedWaiter r with
            | none => { s with tiers.reads := s.tiers.reads.erase r, tiers.lateDiscarded := s.tiers.lateDiscarded + 1 }
            | some (f, i) =>
              let key := (s.coll (field b 4 4)).any fun c =>
                c.gens.any fun g => g.1 == field b 8 2 && (s.trk (ownerOf c.id) g.2.1).any fun k => kcv k.key == g.2.2
              if !key then s.sharedLost r .keyUnavailable
              else if opens then ({ s with tiers.reads := s.tiers.reads.erase r } : State).readArrived f i
              else (match (readsOf f)[i]? with | some y => s.logReadOf f y .dataDamaged | none => s).sharedLost r .dataDamaged))

/-! ### UNREACHABLE (R403, Table 16-8) -/

/-- A sub-query did not reach a node: its shard is not served there (R217). -/
def State.subqueryUnreached (id dst : Nat) (s : State) : State :=
  match s.comp.served.findSome? fun x => (x.listFor id dst).map fun d => (x, d) with
  | some (x, d, hedge) => s.shardGone x d.no hedge
  | none => s

/-- A hedged read did not reach the replica: the original read alone is awaited (R235). -/
def State.hedgeUnreached (id dst : Nat) (s : State) : State :=
  let mine (r : Read) : Bool := r.hedge.any fun h => h.node == dst && h.ids.contains id
  match s.host.flights.find? fun f => (readsOf f).any mine with
  | none => s
  | some f =>
    let i := (readsOf f).findIdx mine
    match (readsOf f)[i]? with
    | none => s
    | some r =>
      let h := r.hedge.getD { node := dst, ids := [] }
      let s := s.putReads f ((readsOf f).set i { r with hedge := some { h with failed := true } })
      match r.lost with
      | some st => s.again f (fun f s => s.readLost f i st)
      | none => s

/-- A replica message did not arrive: the replica is behind, and what it misses is sent again (R438). -/
def State.replicaUnreached (dst : Nat) (body : Bytes) (s : State) : State :=
  let coll := field body 4 4
  let kind := field body 0 1
  match s.coll coll with
  | none => s
  | some c =>
    let back := if kind = 1 then field body 8 8 - 1 else 0
    let g (r : Replica) : Replica := if r.node = dst ∧ r.state ≠ 2 then { r with state := 0, sent := min r.sent back } else r
    if kind = 4 then s
    else if kind = 3 then s.post dst 0x21 5 (ownerOf coll) false body
    else
      let c := { c with replicas := c.replicas.map g }
      (c.replicas.filter (·.node == dst)).foldl (fun s r => s.pumpReplica c r) (s.setColl c)

/-- A table message did not arrive (R330): a creation or drop in progress, or the table itself, ends without the member. -/
def State.tableUnreached (dst : Nat) (body : Bytes) (s : State) : State :=
  match s.tables.tables.find (field body 4 4) with
  | none => s
  | some t =>
    let kind := field body 0 1
    if kind = 1 then s.endCreate t (some { status := .compositionLost, offset := noOffset })
    else if kind = 7 then (s.updTable t.id fun t => { t with dropLeft := t.dropLeft.filter (· != dst) }).settleDrop t.id
    else if kind = 2 ∨ kind = 8 ∨ t.broken then s
    else s.breakTable t.id

/-- What the source of a message does once it learns that the message was not delivered (Table 16-8). -/
def State.notDelivered (dst type : Nat) (body : Bytes) (s : State) : State :=
  if type = 0x10 then s.subqueryUnreached (field body 0 8) dst
  else if type = 0x14 ∧ field body 0 1 = 1 then s.hedgeUnreached (field body 8 8) dst
  else if type = 0x20 then { s with comp.unreached := dst :: s.comp.unreached.filter (· != dst) }
  else if type = 0x21 then s.replicaUnreached dst body
  else if type = 0x30 then s.tableUnreached dst body
  else if type = 0x31 then s.post dst 0x31 5 (ownerOf (field body 0 4)) false body
  else if type = 0x40 ∧ field body 0 1 = 1 then
    match s.tiers.reads.find? fun r => r.req == field body 0x20 8 with
    | some r => s.sharedLost r .tierFailed
    | none => s
  else if type = 0x50 ∧ field body 9 1 = 1 then s.subqueryUnreached (field body 32 8) dst
  else s

/-- UNREACHABLE (R403): counted, and the message it names is taken as not delivered. A log record is resent by its own timer, and what rests on a
timer of its own needs nothing here (Table 16-8). -/
def execUnreachable (s : State) : Host.Outcome State Fault Refusal :=
  .next (match s.takeMessage 3 [] with
    | none => s
    | some (x, s) =>
      let b := x.body
      if !s.serving then s
      else s.wellFormed x (b.length == 16 && decide (1 ≤ field b 6 1) && decide (field b 6 1 ≤ 4) && zeroField b 8 8) (fun s =>
        let s := { s with fabric.unreachRx := min (s.fabric.unreachRx + 1) 0xFFFFFFFF }
        match s.fabric.sent.find? fun m => m.1 == field b 0 4 && m.2.1 == field b 4 2 && m.2.2.1 == field b 7 1 with
        | none => s
        | some m => ({ s with fabric.sent := s.fabric.sent.erase m } : State).notDelivered m.2.1 m.2.2.1 m.2.2.2))

end Sys2Proof.Machine
end

