-- ==== Sys2Proof/Machine/FlashMedia.lean ====
section
/-!
DEFINITION. Flash events and media management: reads, programs, erases, the journal, checkpoints, garbage collection, wear, failures,
MEDIA_STATUS (R365–R390).
-/
namespace Sys2Proof.Machine

/-- The latency of a read joins those of its channel's last second (R235). -/
def State.noteLatency (quad : Nat) (r : Read) (s : State) : State :=
  let c := quadChannel quad
  let recent := (s.flash.latencies.getD c []).filter fun x => s.clock < x.1 + 1000000000
  { s with flash.latencies := s.flash.latencies.put c ((s.clock, s.clock - r.since) :: recent) }

/-- How read `i` of a command ends by the step that ended it (Table 15-7); what damages data is logged (R71). -/
def State.endRead (f : Flight) (i : Nat) (r : Read) (step : ReadStep) (log : Bool) (s : State) : State :=
  match step with
  | .hard | .hardWeak | .retry | .soft | .reconstruct => s.readArrived f i
  | .damaged | .badTag => (if log then s.logReadOf f r .dataDamaged else s).readLost f i .dataDamaged
  | .failed => s.readLost f i .tierFailed

/-- A read can have ended by a step of Table 15-7: a back-pointer that names something else is an uncorrectable codeword (R370), a failed die or channel gives
its units by reconstruction alone (R382), and a unit whose map page is lost is damaged (R370). -/
def State.stepHolds (quad : Nat) (unit : Option Nat) (step : ReadStep) (mismatch : Bool) (s : State) : Bool :=
  let decoded := step == .hard || step == .hardWeak || step == .retry || step == .soft
  let dead := (s.die (quadDie quad)).state != 0 || s.flash.channelsFailed.contains (quadChannel quad)
  if unit.any s.flash.lostUnits.contains then step == .damaged else !(decoded && (mismatch || dead))

/-- FLASH_READ_COMPLETE (R71, R225, R226, R370, R374, R382): read `read` of a command completes from quad-block `quad` by a step of Table 15-7;
`mismatch` says that a back-pointer did not name what was asked. Of a refine read started early only the read count of the block remains until it is
confirmed; reads that a command has left behind are numbered after those it has outstanding, and are discarded unopened. -/
def execFlashReadComplete (m : Mbx) (tag : Word) (read quad : Nat) (step : ReadStep) (mismatch : Bool) (s : State) :
    Host.Outcome State Fault Refusal :=
  let l := (s.flight m.key tag).elim [] readsOf
  let t := s.updQuad quad fun b => { b with reads := b.reads + 1 }
  let unit (r : Read) : Option Nat := (s.coll r.collection).bind fun c => s.unitOf c r.seg r.area r.sector
  let touched (r : Read) (s : State) : State := match unit r with | some u => s.touchPage (mapPage u) | none => s
  .next (match l[read]?, s.flight m.key tag, s.leftRead m.key tag (read - l.length) with
    | some r, some f, _ =>
      if r.tier != .flash || (r.lost.isSome && r.lost != some .tierLate) || !s.stepHolds quad (unit r) step mismatch then s
      else if r.lost.isSome then t
      else
        let r := { r with came := some (quad, step, mismatch) }
        let t := ((touched r t).noteLatency quad r).putReads f (l.set read r)
        match f.work with
        | .search _ => t.again f fun f s => s.endRead f read r step false
        | _ => (t.readEffects quad step mismatch).again f fun f s => s.endRead f read r step true
    | none, _, some x =>
      if x.read.tier != .flash then s
      else
        let t := match step with
          | .damaged => t.leftFails x .dataDamaged quad
          | .failed => t.leftFails x .tierFailed quad
          | _ => t
        t.dropLeft x
    | _, _, _ => s)

/-- Bytes a completed stripe, or a mirrored pair, programs: data, and with parity or mirror. -/
def stripeBytes (st : WriteStream) (n : Nat) : Nat := if streamSlc st then 2 * n * unitBytes else 16 * unitBytes

/-- Operations whose records a program of `n` bytes of the log makes durable, the earliest first; and what is left of the bytes. -/
def markDurable : Nat → List Operation → List Operation × Nat
  | n, [] => ([], n)
  | n, o :: t =>
    if o.durable || !o.buffered then let r := markDurable n t; (o :: r.1, r.2)
    else if o.record.length ≤ n then let r := markDurable (n - o.record.length) t; ({ o with durable := true } :: r.1, r.2)
    else (o :: t, 0)

/-- The same for the records held for sources (R435). -/
def markHeld : Nat → List HeldRecord → List HeldRecord
  | _, [] => []
  | n, r :: t =>
    if r.durable then r :: markHeld n t
    else if r.record.length ≤ n then { r with durable := true } :: markHeld (n - r.record.length) t
    else r :: t

/-- `n` bytes of the log buffer have been programmed to the log band (R386): which records these are, nothing says: collection by collection, in CSN order,
then those of sources (DESIGN CHOICE, log entry 160). -/
def State.programLog (n : Nat) (s : State) : State :=
  let r := s.index.collections.vals.foldl (fun (a : State × Nat) c =>
    let m := markDurable a.2 c.ops
    (a.1.updColl c.id fun c => { c with ops := m.1 }, m.2)) (s, n)
  { r.1 with comp.records := markHeld r.2 r.1.comp.records }

/-- A unit as the map will hold it, at a place of a stripe: moved by GC it stays in its object's list where it was, with its content; new it is the next of
its object (R361, R363). -/
def State.newUnit (st : WriteStream) (band page place : Nat) (object : Nat × Nat) (unit : Nat) (s : State) : Mapped :=
  let old := s.flash.map.find unit
  let entry := mapEntry (streamSlc st) place page s.flash.wseq
  match old with
  | some x =>
    if st == .gc then { x with entry := entry, band := band }
    else { entry := entry, band := band, object := object, content := s.flash.wseq
           index := if x.object == object then x.index else (s.unitsOf object.1 object.2).length }
  | none => { entry := entry, band := band, object := if st == .gc then (0, 0) else object, index := (s.unitsOf object.1 object.2).length, content := s.flash.wseq }

/-- One unit of a stripe: its pages are programmed, in a mirrored band twice, and it is journaled and mapped (R360, R362, R371). -/
def State.placeUnit (st : WriteStream) (band page : Nat) (b : Band) (object : Nat × Nat) (x : Word × Nat) (s : State) : State :=
  let u := x.1.toNat
  let m := s.newUnit st band page x.2 object u
  let w := s.flash.wseq
  let s := s.programUnit x.2 page (s.unitWords u w m false)
  let s := match if streamSlc st then (b.members.findIdx? (· == x.2)).bind fun i => b.members[i + 1]? else none with
    | some q => s.programUnit q page (s.unitWords u w m true)
    | none => s
  let s := s.mapUnit u (some m)
  { s with flash.wseq := w + 1 }

/-- The parity unit of a stripe (R362). -/
def State.placeParity (st : WriteStream) (page : Nat) (b : Band) (units : List (List Bytes)) (s : State) : State :=
  if streamSlc st then s else s.programUnit (b.members.getD (page % 16) 0) page (parityWords units)

/-- A stream may write: at 0.5 % free bands GC, relocation, JOURNAL and LOG alone (R376). -/
def State.mayProgram (st : WriteStream) (s : State) : Bool :=
  st == .gc || streamSlc st || decide (s.allBands < s.freeBands * 200)

/-- FLASH_PROGRAM_COMPLETE (R124, R367, R371, R376): the units of the next stripe of a stream's band have been programmed and verified and the
stripe is complete, so each is journaled and mapped in its place; `collection` and `segment` name the object they belong to. -/
def execFlashProgramComplete (stream : Fin 5) (hub : Fin 2) (units : List Word) (collection segment : Nat) (s : State) :
    Host.Outcome State Fault Refusal :=
  let st := streamOf stream.val
  let most := if streamSlc st then 8 else 15
  .next (if units.isEmpty || decide (most < units.length) || s.flash.failed || !s.pins.flashPg || s.power.season == .winter ||
      s.power.season == .heldInReset || !s.mapRoom (units.map (·.toNat)) || !s.mayProgram st then s
    else match s.needBand st hub.val with
      | none => s
      | some (n, b, s) =>
        let places := dataMembers b b.next
        let gc := st == .gc
        let words := (units.zip places).mapIdx fun i x =>
          s.unitWords x.1.toNat (s.flash.wseq + i) (s.newUnit st n b.next x.2 (collection, segment) x.1.toNat) false
        let s := (units.zip places).foldl (fun s x => s.placeUnit st n b.next b (collection, segment) x) (s.placeParity st b.next b words)
        let s := { s with
          flash.bands := s.flash.bands.upd n fun b => { b with next := b.next + 1 }
          flash.hostWritten := s.flash.hostWritten + (if gc then 0 else units.length * unitBytes)
          flash.nandWritten := s.flash.nandWritten + stripeBytes st units.length }
        let s := if b.next + 1 < s.bandPages b then s else s.closeBand n
        let s := if st == .log then s.programLog (units.length * unitBytes) else s
        if collection == 0 || gc then s else s.charge (ownerOf collection) 0x40 (units.length * unitBytes))

/-- PROGRAM_FAIL (R372, R381): a program, or with `verify` its check, fails on a member of a stream's open band: the band closes and
its incomplete stripes are abandoned; the quad-block is retired at a program fail, or at the second verify fail within 24 hours. -/
def execProgramFail (stream : Fin 5) (hub : Fin 2) (member : Fin 16) (verify : Bool) (s : State) : Host.Outcome State Fault Refusal :=
  .next (match s.openBand (streamOf stream.val) hub.val with
    | none => s
    | some (n, b) =>
      let q := b.members.getD member.val 0
      let day := 86400000000000
      let s := (s.closeBand n).media (if verify then 3 else 1) q
      if verify then
        let seen := s.clock :: (s.quad q).verifyFails.filter fun t => s.clock < t + day
        let s := s.updQuad q fun b => { b with verifyFails := seen }
        if 2 ≤ seen.length then s.retireQuad q else s
      else s.retireQuad q)

/-- The band that holds a quad-block. -/
def State.bandOf (q : Nat) (s : State) : Option Nat := (s.flash.bands.find? fun e => e.2.members.contains q).map Prod.fst

/-- ERASE_FAIL (R372): the quad-block is retired; no data is affected. -/
def execEraseFail (quad : Nat) (s : State) : Host.Outcome State Fault Refusal :=
  .next (if s.quadMapped quad = 0 && !(s.quad quad).grownBad then (s.media 2 quad).retireQuad quad else s)

/-- A quad-block holds nothing that a read or the durable map still needs (R373). -/
def State.mayErase (q : Nat) (s : State) : Bool :=
  s.quadMapped q == 0 && !(s.quad q).grownBad &&
    !(s.flash.journal.any fun r => match r.before with | some x => entryQuad x.entry == q | none => false) &&
    !(s.host.flights.any fun f => (readsOf f).any fun r => r.tier == .flash && decide (r.since ≤ (s.quad q).emptied)) &&
    !(s.index.squashed.any fun x => x.read.tier == .flash && x.read.lost.isNone && decide (x.read.since ≤ (s.quad q).emptied))

/-- QUAD_BLOCK_ERASE (R373): a quad-block of a closed band is erased; once every member has been, or is retired, the band is free. -/
def execQuadBlockErase (quad : Nat) (s : State) : Host.Outcome State Fault Refusal :=
  .next (match s.bandOf quad with
    | none => s
    | some n => match s.flash.bands.find n with
      | none => s
      | some b =>
        if b.closed.isSome && s.mayErase quad then
          let s := s.updQuad quad fun x => { x with
            erases := x.erases + 1, reads := 0, programmed := none, weak := false, refreshing := false }
          let s := if b.members.all fun q => (s.quad q).programmed.isNone || ((s.quad q).grownBad && s.quadMapped q == 0) then
              { s with flash.bands := s.flash.bands.del n
                       flash.gcVictim := if s.flash.gcVictim == some n then none else s.flash.gcVictim
                       flash.wearVictim := if s.flash.wearVictim == some n then none else s.flash.wearVictim }
            else s
          if 1000 ≤ s.lifeUsed && !s.flash.wornOut then
            (({ s with flash.wornOut := true } : State).logKind 5 1000).emit (.event 5 1000)
          else s
        else s)

/-- JOURNAL_SECTOR_PROGRAM (R368): at 256 records, 1 ms after the first, or on demand. -/
def execJournalSectorProgram (demand : Bool) (s : State) : Host.Outcome State Fault Refusal :=
  .next (if !s.flash.failed && (demand || 256 ≤ s.flash.journal.length || s.flash.journalSince + 1000000 ≤ s.clock) then s.programJournal
    else s)

/-- A MAP region with a free slot, the lowest region ID first (R365). -/
def State.freeMapSlot (s : State) : Option Nat :=
  (s.tiers.regions.find? fun e => e.2.kind == 1 && !e.2.failed && e.2.revoking.isNone && decide (e.2.live.length < e.2.pages)).map Prod.fst

/-- No page can leave HBM without a checkpoint (R367). -/
def State.mapStuck (s : State) : Bool :=
  s.freeMapSlot.isNone && decide (s.mapCapacity ≤ s.flash.hbmPages.length) &&
    s.flash.hbmPages.all fun p => s.pinnedPage p || s.flash.dirty.contains p

/-- CHECKPOINT_START (R367, R369): 10 minutes after the previous one began, after 4 GiB of journal, or when no page can leave. -/
def execCheckpointStart (s : State) : Host.Outcome State Fault Refusal :=
  .next (if s.flash.ckpt.isNone && !s.flash.failed &&
      (s.flash.ckptBegan + 600000000000 ≤ s.clock || 2 ^ 32 ≤ s.flash.journalBytes || s.mapStuck) then
    let half := 1 - s.flash.ckptHalf
    { s with
      flash.journal := s.flash.journal ++ [{ unit := half, op := 3, entry := 0, before := s.flash.map.find half }]
      flash.ckpt := some { half := half, j := s.flash.journalSeq }
      flash.ckptBegan := s.clock
      flash.journalBytes := 0 }
  else s)

/-- CHECKPOINT_COMPLETE (R369): the root is durable; the pages that have not changed since it began are clean. -/
def execCheckpointComplete (s : State) : Host.Outcome State Fault Refusal :=
  .next (match s.flash.ckpt with
    | none => s
    | some c =>
      let s := s.journalAll
      { s with
        flash.ckpt := none, flash.ckptSeq := s.flash.ckptSeq + 1, flash.ckptHalf := c.half, flash.ckptJ := (c.j, s.flash.ckptJ.1)
        flash.dirty := s.flash.dirty.filter c.changed.contains })

/-- The 4 KiB of a map page: the 512 entries of its units (R364). -/
def State.mapPageBytes (p : Nat) (s : State) : Bytes :=
  (List.range 512).flatMap fun i => leBytes 8 ((s.flash.map.find (512 * p + i)).elim 0 (·.entry))

/-- Write a map page into the next free slot of the MAP regions, where one is free and no slot holds it yet (R347, R365). -/
def State.writeMapPage (p : Nat) (s : State) : State :=
  match if (s.flash.hostPages.find p).isNone then s.freeMapSlot else none with
  | none => s
  | some r =>
    let slot := (s.tiers.regions.find r).elim 0 fun x => ((List.range x.pages).find? fun i => (x.live.find i).isNone).getD 0
    let s := s.writeHostPage r slot (s.mapPageBytes p)
    { s with
      tiers.regions := s.tiers.regions.upd r fun x => { x with live := x.live.put slot { version := s.tiers.version, sector := p } }
      tiers.version := s.tiers.version + 1
      flash.hostPages := s.flash.hostPages.put p r }

/-- A map page covers the refine area of a SEALED segment (R365). -/
def State.coversRefine (p : Nat) (s : State) : Bool :=
  s.flash.map.any fun e => mapPage e.1 == p && match s.index.collections.find e.2.object.1 with
    | some c => decide (16 * e.2.index < areaSectors c.desc 0 (c.rows e.2.object.2).length) &&
        c.segments.any fun y => y.id == e.2.object.2 && y.state == .sealed
    | none => false

/-- The page that leaves HBM next: the least recently used that is not pinned, one that covers a refine area only where there is no other; a dirty one only
where a MAP slot is free (R365). -/
def State.evictee (s : State) : Option Nat :=
  let l := s.flash.hbmPages.reverse.filter fun p => !s.pinnedPage p && (!s.flash.dirty.contains p || s.freeMapSlot.isSome)
  match l.find? fun p => !s.coversRefine p with
  | some p => some p
  | none => l.head?

/-- The lowest page that has a mapped entry and is neither in HBM nor in a MAP region (R367). -/
def State.coldPage (s : State) : Option Nat :=
  ((s.flash.map.map fun e => mapPage e.1).filter fun p => !s.flash.hbmPages.contains p && (s.flash.hostPages.find p).isNone).min?

/-- MAP_PAGE_EVICT (R347, R365, R367): a page leaves HBM, and is written to a MAP page, a clean one where a slot is free and no MAP page holds it yet; where
none can leave, a page that is only in the checkpoint is copied into a MAP region, the lowest first. -/
def execMapPageEvict (s : State) : Host.Outcome State Fault Refusal :=
  .next (match s.evictee with
    | some p => ({ s with flash.hbmPages := s.flash.hbmPages.filter (· != p) } : State).writeMapPage p
    | none => match s.coldPage with
      | some p => s.writeMapPage p
      | none => s)

/-- GC_START (R376): below 2 % free bands, the closed band with the fewest mapped units, ties to the earlier close, is the victim. -/
def execGcStart (s : State) : Host.Outcome State Fault Refusal :=
  let closed := s.flash.bands.filter fun e => e.2.closed.isSome
  let key (e : Nat × Band) : Nat × Nat := (s.bandMapped e.1, e.2.closed.getD 0)
  let best := closed.foldl (fun a e => match a with
    | none => some e
    | some x => if (key e).1 < (key x).1 || ((key e).1 == (key x).1 && (key e).2 < (key x).2) then some e else a) (none : Option (Nat × Band))
  .next (if s.flash.gcVictim.isNone && s.freeBands * 50 < s.allBands && (s.power.season == .summer || s.power.season == .drain) then
    match best with
    | some e => { s with flash.gcVictim := some e.1 }
    | none => s
  else s)

/-- A refresh threshold of Table 15-8 is reached. -/
def State.refreshDue (q : Nat) (s : State) : Bool :=
  let b := s.quad q
  (if b.slc then 40000000 ≤ b.reads else 4000000 ≤ b.reads) || b.weak ||
    (match b.programmed with | some t => t + 365 * 86400000000000 ≤ s.clock | none => false)

/-- QUAD_BLOCK_REFRESH (R380): its mapped units are moved; the quad-block is counted. -/
def execQuadBlockRefresh (quad : Nat) (s : State) : Host.Outcome State Fault Refusal :=
  .next (if (s.quad quad).programmed.isSome && !(s.quad quad).refreshing && s.refreshDue quad then
    let s := s.updQuad quad fun b => { b with refreshing := true }
    { s with flash.refreshed := s.flash.refreshed + 1 }
  else s)

/-- WEAR_LEVEL_MOVE (R379): where the spread of erase counts on a die exceeds 5 % of the rated endurance, the band that holds the
smallest count is moved. -/
def execWearLevelMove (die : Fin 1024) (s : State) : Host.Outcome State Fault Refusal :=
  let blocks := (List.range s.flash.blocks).map fun b => quadKey die.val b
  let es := blocks.map fun q => (s.quad q).erases
  let low := es.foldl min (es.headD 0)
  let high := es.foldl max 0
  .next (if Config.endurance < 20 * (high - low) then
    match blocks.find? (fun q => (s.quad q).erases == low && (s.bandOf q).isSome) with
    | some q => { s with flash.wearVictim := s.bandOf q }
    | none => s
  else s)

/-- FLASH_PATROL (R380): every 7 days sampled wordlines of a programmed quad-block are read; `weak` says that the decode threshold
was met. -/
def execFlashPatrol (quad : Nat) (weak : Bool) (s : State) : Host.Outcome State Fault Refusal :=
  .next (if (s.quad quad).programmed.isSome && (s.quad quad).patrolled + 7 * 86400000000000 ≤ s.clock then
    s.updQuad quad fun b => { b with patrolled := s.clock, weak := b.weak || weak }
  else s)

/-- LOW_SPACE_ENTER (R378): the units mapped outside the ingest log reach USABLE_BYTES minus 1 %. -/
def execLowSpaceEnter (s : State) : Host.Outcome State Fault Refusal :=
  .next (if !s.flash.lowSpace && s.usableBytes * 99 ≤ s.mappedUnits * unitBytes * 100 then
    ({ s with flash.lowSpace := true } : State).media 13 0
  else s)

/-- LOW_SPACE_EXIT (R378): usage falls below USABLE_BYTES minus 2 %. -/
def execLowSpaceExit (s : State) : Host.Outcome State Fault Refusal :=
  .next (if s.flash.lowSpace && s.mappedUnits * unitBytes * 100 < s.usableBytes * 98 then { s with flash.lowSpace := false } else s)

/-- Mapped units of a die. -/
def State.dieMapped (d : Nat) (s : State) : Nat := (s.flash.map.filter fun e => quadDie (entryQuad e.2.entry) == d).length

/-- A die is FAILED: its units are rebuilt from their stripes (R382). -/
def State.failDie (d : Nat) (s : State) : State :=
  if (s.die d).state == 0 then
    ((s.updDie d fun x => { x with state := if s.dieMapped d = 0 then 2 else 1 }).media 7 (quadKey d 0)).logUnit d
  else s

/-- A channel all of whose dies are FAILED, or whose retraining failed (R382). -/
def State.failChannel (c : Nat) (s : State) : State :=
  if s.flash.channelsFailed.contains c then s
  else
    let s := ({ s with flash.channelsFailed := c :: s.flash.channelsFailed } : State).media 8 (quadKey (c * 16) 0)
    (((List.range s.flash.perChannel).map (c * 16 + ·)).foldl (fun s d => s.failDie d) s).logUnit c

/-- DIE_FAILED (R382); with its last die the channel fails too. -/
def execDieFailed (die : Fin 1024) (s : State) : Host.Outcome State Fault Refusal :=
  let d := die.val
  let s := s.failDie d
  let c := d / 16
  .next (if (s.die d).state == 1 || (s.die d).state == 2 then
    if (s.positions.filter fun x => x / 16 == c).all fun x => (s.die x).state == 1 || (s.die x).state == 2 then s.failChannel c else s
  else s)

/-- CHANNEL_FAILED (R382). -/
def execChannelFailed (channel : Fin 64) (s : State) : Host.Outcome State Fault Refusal := .next (s.failChannel channel.val)

/-- DIE_REBUILD_DONE (R382): no mapped unit is left on the die. -/
def execDieRebuildDone (die : Fin 1024) (s : State) : Host.Outcome State Fault Refusal :=
  let d := die.val
  .next (if (s.die d).state == 1 && s.dieMapped d == 0 then (s.updDie d fun x => { x with state := 2 }).media 9 (quadKey d 0) else s)

/-- MSS.STATE (Table 15-11). -/
def State.mediaState (s : State) : Nat :=
  if s.flash.failed then 3 else if s.flash.lowSpace then 2
  else if s.positions.any fun d => (s.die d).state == 1 then 1 else 0

/-- The media summary (Table 15-11). -/
def State.mediaSummary (s : State) : Bytes :=
  let f := s.flash
  let states := s.positions.map fun d => (s.die d).state
  leBytes 2 states.length ++ leBytes 2 (states.filter fun x => x == 1 || x == 2).length ++ leBytes 1 f.perChannel ++
    leBytes 1 f.channelsFailed.length ++ leBytes 1 s.mediaState ++
    leBytes 1 (flag (decide (s.freeBands * 100 < s.allBands)) + 2 * flag f.formatted + 4 * flag s.power.lastFlushOk) ++
    leBytes 8 s.rawBytes ++ leBytes 8 s.usableBytes ++ leBytes 8 (s.mappedUnits * unitBytes) ++ leBytes 8 f.ckptSeq ++
    leBytes 8 f.hostWritten ++ leBytes 8 f.nandWritten ++ leBytes 4 s.lifeUsed ++ leBytes 4 s.freeBands ++
    leBytes 4 (f.quads.filter fun e => e.2.factoryBad).length ++ leBytes 4 (f.quads.filter fun e => e.2.grownBad).length ++
    leBytes 4 f.uncleanSprings ++ leBytes 4 f.hbmPages.length ++ leBytes 4 f.hostPages.length ++ leBytes 4 f.dirty.length ++
    leBytes 8 f.reconstructed ++ leBytes 8 f.refreshed ++ zeros 24

/-- One die entry (Table 15-12); `p99` stands for the trailing p99 of a channel that has read nothing in the last second, which the spec leaves open. -/
def State.dieEntry (d p99 : Nat) (s : State) : Bytes :=
  let x := s.die d
  let p99 := ((s.p99 (d / 16)).map (· / 1000)).getD p99
  let (mean, most) := s.dieErases d
  let st := if s.positions.contains d || x.state == 4 then x.state else 3
  leBytes 1 (d / 16) ++ leBytes 1 (d % 16) ++ leBytes 1 st ++ leBytes 1 x.rate ++ leBytes 4 mean ++ leBytes 4 most ++
    leBytes 4 (s.flash.quads.filter fun e => quadDie e.1 == d && (e.2.factoryBad || e.2.grownBad)).length ++
    leBytes 4 (x.retries.filter fun t => s.clock < t + 86400000000000).length ++ leBytes 4 p99 ++ zeros 8

/-- One media event entry (Table 15-13). -/
def mediaEntry (e : MediaEvent) : Bytes :=
  leBytes 8 e.time ++ leBytes 1 e.kind ++ leBytes 1 e.channel ++ leBytes 1 e.die ++ zeros 1 ++ leBytes 4 e.block

/-- Answer with a head and whole entries, DONE_TRUNCATED where they do not all fit; `head` gives the head for the number that do. -/
def State.answerEntries (f : Flight) (head : Nat → Bytes) (entries : List Bytes) (s : State) : State :=
  let room := match f.path with
    | .port _ => 2 ^ 24
    | _ => s.rspPlain f.mbx
  let fit := fitEntries (room - (head 0).length) entries
  s.answer f (if fit.2 then .done else .doneTruncated) (head fit.1.length ++ fit.1.flatten)

/-- MEDIA_STATUS (R390). -/
def execMediaStatus (m : Mbx) (tag : Word) (s : State) : Host.Outcome State Fault Refusal :=
  .next (s.start 0x7001 m tag fun f s => do
    let b := f.plain
    opening f 8 8
    fields [(0, decide (field b 0 1 ≤ 2)), (1, zeroField b 1 7)]
    match field b 0 1 with
    | 0 => .ok (s.answerEntries f (fun _ => []) [s.mediaSummary])
    | 1 =>
      let free := s.free
      let s' := { s with free := s.free + 64 }
      .ok (s'.answerEntries f (fun n => leBytes 4 n ++ zeros 12)
        ((List.range 1024).map fun d => s.dieEntry d (Config.free (free + d / 16))))
    | _ => .ok (s.answerEntries f (fun n => leBytes 4 n ++ zeros 12) (s.flash.events.map mediaEntry)))

end Sys2Proof.Machine
end

