-- ==== Sys2Proof/Machine/Spdm.lean ====
section
/-!
DEFINITION. The SPDM 1.3 responder of the I3C sideband (transport 0) and of the management ports (transports 1 and 2), and
the JTAG access rule (R77–R80). The message codes are those of the SPDM standard the spec names (PRESUMED, log entry 12).
-/
namespace Sys2Proof.Machine

/-- An SPDM request on a transport is answered: over I3C in every season but Winter, over a management port while it is
connected (R442, R454). -/
def State.spdmReachable (tr : Nat) (s : State) : Bool :=
  if tr = 0 then s.power.season != .winter && s.power.season != .heldInReset
  else s.serving && (s.host.ports.getD (tr - 1) {}).connected

/-- Run a request where the transport answers. -/
def State.overSpdm (tr : Nat) (g : State → State) (s : State) : State := if s.spdmReachable tr then g s else s

/-- The phase a transport's connection has reached. -/
def State.spdmPhase (tr : Nat) (s : State) : SpdmPhase := s.keys.spdm.getD tr .start

/-- Move a transport's connection to a phase. -/
def State.setPhase (tr : Nat) (p : SpdmPhase) (s : State) : State := { s with keys.spdm := s.keys.spdm.set tr p }

/-- A response longer than this is handed out in chunks (PRESUMED). -/
def chunkSize : Nat := 1024

/-- Send an SPDM response: version 1.3, code, two parameters and a body. A large one is announced by ERROR LargeResponse and
read by CHUNK_GET. -/
def State.spdmSend (tr : Nat) (code p1 p2 : Byte) (body : Bytes) (s : State) : State :=
  let msg : Bytes := [0x13, code, p1, p2] ++ body
  if msg.length ≤ chunkSize then s.emit (.spdm tr msg)
  else ({ s with keys.chunksOut := s.keys.chunksOut.put tr (msg, 0) } : State).emit (.spdm tr [0x13, 0x7F, 0x0F, 0, 1])

/-- Send SPDM ERROR with a code. -/
def State.spdmError (tr : Nat) (e : Byte) (s : State) : State := s.emit (.spdm tr [0x13, 0x7F, e, 0])

/-- ERROR InvalidRequest -/
def errInvalid : Byte := 0x01
/-- ERROR Busy -/
def errBusy : Byte := 0x03
/-- ERROR UnexpectedRequest -/
def errUnexpected : Byte := 0x04
/-- ERROR DecryptError -/
def errDecrypt : Byte := 0x06
/-- ERROR UnsupportedRequest -/
def errUnsupported : Byte := 0x07

/-- Answer only once algorithms have been negotiated on this transport; else ERROR UnexpectedRequest. -/
def State.negotiated (tr : Nat) (g : State → State) (s : State) : State :=
  if s.spdmPhase tr == .negotiated then g s else s.spdmError tr errUnexpected

/-- SPDM_GET_VERSION (R77): 1.3 only; it restarts the connection. -/
def execSpdmGetVersion (tr : Fin 3) (s : State) : Host.Outcome State Fault Refusal :=
  .next (s.overSpdm tr fun s => ((s.setPhase tr .versioned).emit (.spdm tr [0x10, 0x04, 0, 0, 0, 1, 0x00, 0x13])))

/-- The capability flags of Table 3-4: CERT, CHAL, MEAS with signature, ENCRYPT, MAC, MUT_AUTH, KEY_EX, HBEAT, KEY_UPD, CHUNK,
SET_CERT. -/
def spdmCapabilities : Nat := 0x2 + 0x4 + 0x10 + 0x40 + 0x80 + 0x100 + 0x200 + 0x2000 + 0x4000 + 0x20000 + 0x80000

/-- SPDM_GET_CAPABILITIES (Table 3-4). -/
def execSpdmGetCapabilities (tr : Fin 3) (_flags : Word) (s : State) : Host.Outcome State Fault Refusal :=
  .next (s.overSpdm tr fun s =>
    if s.spdmPhase tr == .start then s.spdmError tr errUnexpected
    else (s.setPhase tr .capable).spdmSend tr 0x61 0 0 (zeros 4 ++ leBytes 4 spdmCapabilities))

/-- SPDM_NEGOTIATE_ALGORITHMS (Table 3-4): the request offers the one algorithm set the module has, or is refused. -/
def execSpdmNegotiateAlgorithms (tr : Fin 3) (supported : Bool) (s : State) : Host.Outcome State Fault Refusal :=
  .next (s.overSpdm tr fun s =>
    if s.spdmPhase tr == .start || s.spdmPhase tr == .versioned then s.spdmError tr errUnexpected
    else if supported then (s.setPhase tr .negotiated).spdmSend tr 0x63 0 0 [0x80, 0x02, 0x10, 0x02, 0x01]
    else s.spdmError tr errInvalid)

/-- The chain of a certificate slot: slot 0 the DIK chain, slot 1 the management trust anchor (Table 3-4). -/
def State.slotChain (slot : Nat) (s : State) : Option Bytes :=
  if slot = 0 then some Config.spdmChain else if slot = 1 then s.keys.anchor else none

/-- SPDM_GET_DIGESTS (R77): the digests of the slots that hold a chain. -/
def execSpdmGetDigests (tr : Fin 3) (s : State) : Host.Outcome State Fault Refusal :=
  .next (s.overSpdm tr fun s => s.negotiated tr fun s =>
    let d1 := match s.keys.anchor with | some a => Config.sha384 a | none => []
    s.spdmSend tr 0x01 0 (if s.keys.anchor.isSome then 3 else 1) (Config.sha384 Config.spdmChain ++ d1))

/-- SPDM_GET_CERTIFICATE (R77): a portion of the chain of slot 0 or 1. -/
def execSpdmGetCertificate (tr : Fin 3) (slot : Byte) (off len : Nat) (s : State) : Host.Outcome State Fault Refusal :=
  .next (s.overSpdm tr fun s => s.negotiated tr fun s =>
    match s.slotChain slot.toNat with
    | some c =>
      let part := slice c off len
      s.spdmSend tr 0x02 slot 0 (leBytes 2 part.length ++ leBytes 2 (c.length - off - part.length) ++ part)
    | none => s.spdmError tr errInvalid)

/-- Count one draw of the responder's nonces and key shares. -/
def State.spdmDraw (s : State) : Nat × State := (s.keys.spdmDraws, { s with keys.spdmDraws := s.keys.spdmDraws + 1 })

/-- The measurement blocks of Table 3-5 (R78). -/
def State.measurement (s : State) : Nat → Bytes
  | 3 => match s.models.placement with | some p => Config.sha384 p.image | none => zeros 48
  | 4 => Config.lifecycleBlock s.keys.imported
  | 5 => leBytes 1 s.power.straps.profileSel.val ++ leBytes 1 (profileCode s.power.profile)
  | i => Config.measuredCode i

/-- Blocks 1–5 concatenated in index order in the form GET_MEASUREMENTS returns them (R78). -/
def State.measurementRecord (s : State) : Bytes :=
  [1, 2, 3, 4, 5].flatMap fun i => Config.measurementForm i (s.measurement i)

/-- MEAS_DIGEST (R78). -/
def State.measDigest (s : State) : Bytes := Config.sha384 s.measurementRecord

/-- SPDM_CHALLENGE (R77): an AK signature over the nonces and digests. -/
def execSpdmChallenge (tr : Fin 3) (slot : Byte) (nonce : Bytes) (s : State) : Host.Outcome State Fault Refusal :=
  .next (s.overSpdm tr fun s => s.negotiated tr fun s =>
    match s.slotChain slot.toNat with
    | some c =>
      let (n, s) := s.spdmDraw
      let body := Config.sha384 c ++ Config.spdmBytes n 0 ++ s.measDigest
      s.spdmSend tr 0x03 slot 1 (body ++ Config.akSign n (nonce ++ body))
    | none => s.spdmError tr errInvalid)

/-- SPDM_GET_MEASUREMENTS (R78): index 0 asks the count, 0xFF every block, 1–5 one; measurements without a signature are not
supported (Table 3-4). -/
def execSpdmGetMeasurements (tr : Fin 3) (index : Byte) (signed : Bool) (nonce : Bytes) (s : State) :
    Host.Outcome State Fault Refusal :=
  .next (s.overSpdm tr fun s => s.negotiated tr fun s =>
    let i := index.toNat
    if !signed then s.spdmError tr errUnsupported
    else if 5 < i ∧ i ≠ 0xFF then s.spdmError tr errInvalid
    else
      let (n, s) := s.spdmDraw
      let rec_ := if i = 0 then [] else if i = 0xFF then s.measurementRecord else Config.measurementForm i (s.measurement i)
      let body := leBytes 1 (if i = 0 then 0 else if i = 0xFF then 5 else 1) ++ leBytes 3 rec_.length ++ rec_ ++ Config.spdmBytes n 0
      s.spdmSend tr 0x60 (if i = 0 then 5 else 0) 0 (body ++ Config.akSign n (nonce ++ body)))

/-- SPDM_KEY_EXCHANGE (R79): while a management session is open a second is answered Busy. -/
def execSpdmKeyExchange (tr : Fin 3) (slot : Byte) (reqId : Half) (s : State) : Host.Outcome State Fault Refusal :=
  .next (s.overSpdm tr fun s => s.negotiated tr fun s =>
    if s.mgmtOpen then s.spdmError tr errBusy
    else if slot != 0 then s.spdmError tr errInvalid
    else
      let (n, s) := s.spdmDraw
      let id : Word := BitVec.ofNat 16 (n + 1) ++ reqId
      let s := { s with keys.mgmt := .handshake id tr }
      let body := leBytes 2 (n + 1) ++ [1, 0] ++ Config.spdmBytes n 0 ++ Config.spdmBytes n 1
      s.spdmSend tr 0x64 0 0 (body ++ Config.akSign n body))

/-- Close the management session (R79). -/
def State.closeMgmt (s : State) : State := { s with keys.mgmt := .closed, keys.mgmtKeys := ([], []) }

/-- SPDM_FINISH (R79): the requester's chain must end in the anchor of slot 1, and its proof must hold; K_m of each direction is that direction's
application data key. -/
def execSpdmFinish (tr : Fin 3) (anchored verified : Bool) (s : State) : Host.Outcome State Fault Refusal :=
  .next (s.overSpdm tr fun s =>
    match s.keys.mgmt with
    | .handshake id t =>
      if t ≠ tr.val then s.spdmError tr errUnexpected
      else if anchored && verified && s.keys.anchor.isSome then
        let s := { s with keys.mgmt := .open id tr, keys.mgmtHigh := 0, keys.mgmtSeen := [], keys.mgmtCounter := 1,
                          keys.mgmtUpdates := (0, 0), keys.lastHeartbeat := s.clock
                          keys.mgmtKeys := (Config.spdmKey s.keys.spdmDraws false, Config.spdmKey s.keys.spdmDraws true) }
        s.spdmSend tr 0x65 0 0 []
      else s.closeMgmt.spdmError tr errDecrypt
    | _ => s.spdmError tr errUnexpected)

/-- Inside the open management session of this transport. -/
def State.inMgmt (tr : Nat) (g : State → State) (s : State) : State :=
  match s.keys.mgmt with
  | .open _ t => if t = tr then g s else s.spdmError tr errUnexpected
  | _ => s.spdmError tr errUnexpected

/-- SPDM_HEARTBEAT (R77). -/
def execSpdmHeartbeat (tr : Fin 3) (s : State) : Host.Outcome State Fault Refusal :=
  .next (s.overSpdm tr fun s => s.inMgmt tr fun s =>
    ({ s with keys.lastHeartbeat := s.clock } : State).spdmSend tr 0x68 0 0 [])

/-- SPDM_KEY_UPDATE (R77): 1 updates the requester's key, 2 both keys, 3 verifies the new key. -/
def execSpdmKeyUpdate (tr : Fin 3) (op : Byte) (s : State) : Host.Outcome State Fault Refusal :=
  .next (s.overSpdm tr fun s => s.inMgmt tr fun s =>
    let (a, b) := s.keys.mgmtUpdates
    let (k, own) := s.keys.mgmtKeys
    if op == 1 then
      ({ s with keys.mgmtUpdates := (a + 1, b), keys.mgmtKeys := (Config.spdmUpdate k, own) } : State).spdmSend tr 0x69 op 0 []
    else if op == 2 then
      ({ s with keys.mgmtUpdates := (a + 1, b + 1), keys.mgmtKeys := (Config.spdmUpdate k, Config.spdmUpdate own) } : State).spdmSend tr 0x69 op 0 []
    else if op == 3 then s.spdmSend tr 0x69 op 0 []
    else s.spdmError tr errInvalid)

/-- SPDM_END_SESSION (R79). -/
def execSpdmEndSession (tr : Fin 3) (s : State) : Host.Outcome State Fault Refusal :=
  .next (s.overSpdm tr fun s => s.inMgmt tr fun s => (s.spdmSend tr 0x6C 0 0 []).closeMgmt)

/-- SPDM_SET_CERTIFICATE (R79): slot 1, over I3C only while the slot is empty, otherwise only inside a management session. -/
def execSpdmSetCertificate (tr : Fin 3) (slot : Byte) (inSession : Bool) (chain : Bytes) (s : State) :
    Host.Outcome State Fault Refusal :=
  .next (s.overSpdm tr fun s => s.negotiated tr fun s =>
    let mine := match s.keys.mgmt with | .open _ t => inSession && t == tr.val | _ => false
    if slot != 1 then s.spdmError tr errInvalid
    else if mine || (tr.val == 0 && s.keys.anchor.isNone) then
      ({ s with keys.anchor := some chain } : State).spdmSend tr 0x6E slot 0 []
    else s.spdmError tr errUnexpected)

/-- SPDM_CHUNK_SEND (R77): chunks arrive in order from 0; a large message is complete with its last chunk. -/
def execSpdmChunkSend (tr : Fin 3) (seq : Nat) (last : Bool) (chunk : Bytes) (s : State) : Host.Outcome State Fault Refusal :=
  .next (s.overSpdm tr fun s => s.negotiated tr fun s =>
    let (b, n) := if seq = 0 then ([], 0) else s.keys.chunksIn.getD tr ([], 0)
    if seq ≠ n then ({ s with keys.chunksIn := s.keys.chunksIn.del tr } : State).spdmError tr errInvalid
    else
      let s : State := { s with keys.chunksIn :=
        if last then s.keys.chunksIn.del tr else s.keys.chunksIn.put tr (b ++ chunk, n + 1) }
      s.spdmSend tr 0x05 0 1 (leBytes 2 seq))

/-- SPDM_CHUNK_GET (R77): the next chunk of a large response. -/
def execSpdmChunkGet (tr : Fin 3) (seq : Nat) (s : State) : Host.Outcome State Fault Refusal :=
  .next (s.overSpdm tr fun s => s.negotiated tr fun s =>
    match s.keys.chunksOut.find tr with
    | some (b, n) =>
      if seq ≠ n then s.spdmError tr errInvalid
      else
        let part := slice b (n * (chunkSize - 16)) (chunkSize - 16)
        let last := b.length ≤ (n + 1) * (chunkSize - 16)
        let s : State := { s with keys.chunksOut :=
          if last then s.keys.chunksOut.del tr else s.keys.chunksOut.put tr (b, n + 1) }
        s.emit (.spdm tr ([0x13, 0x06, if last then 1 else 0, 1] ++ leBytes 2 seq ++ leBytes 4 part.length ++ part))
    | none => s.spdmError tr errUnexpected)

/-- SPDM_UNSUPPORTED_REQUEST (R77). -/
def execSpdmUnsupportedRequest (tr : Fin 3) (code : Byte) (s : State) : Host.Outcome State Fault Refusal :=
  .next (s.overSpdm tr fun s => s.emit (.spdm tr [0x13, 0x7F, errUnsupported, code]))

/-- The number of a JTAG instruction as kept. -/
def jtagNumber : JtagInstr → Nat
  | .bypass => 0 | .idcode => 1 | .samplePreload => 2 | .extest => 3 | .ieee1149_6 => 4 | .other => 5

/-- The instruction the port acts on in production lifecycle: once a key has been imported since the reset, only BYPASS,
IDCODE and SAMPLE/PRELOAD; before that EXTEST and the IEEE 1149.6 instructions too; anything else is BYPASS (R80). -/
def jtagAccepted (imported : Bool) : JtagInstr → JtagInstr
  | .bypass => .bypass
  | .idcode => .idcode
  | .samplePreload => .samplePreload
  | .extest => if imported then .bypass else .extest
  | .ieee1149_6 => if imported then .bypass else .ieee1149_6
  | .other => .bypass

/-- JTAG_INSTRUCTION (R80): the register selected between TDI and TDO follows. -/
def execJtagInstruction (ir : JtagInstr) (s : State) : Host.Outcome State Fault Refusal :=
  let i := jtagNumber (jtagAccepted s.keys.imported ir)
  .next (({ s with keys.jtag := i } : State).emit (.jtag i))

end Sys2Proof.Machine
end

