-- ==== Sys2Proof/Machine/Identity.lean ====
section
/-!
DEFINITION. IDENTIFY, GET_STATUS, NOP, GET_CERTIFICATES, the streams' opening and closing, and the binding of posted ingest windows
(R55, R57, R61, R65, R76).
-/
namespace Sys2Proof.Machine

/-- A profile's envelope, watts (Table 18-6). -/
def envelopeOf : Profile → Nat
  | .january => 1400 | .april => 2000 | .july => 2500 | .october => 2500

/-- The envelope the governor holds, mW: that of the profile in force, lowered for the conversion stage by its cap (R459, R463). -/
def State.envelopeMw (s : State) : Nat := envelopeOf s.power.profile * 10 * s.governor.envelopeCap

/-- CALLER_CLASS of a mailbox (Table 2-19, R423). -/
def State.callerClass (m : Nat) (s : State) : Nat :=
  if m < 4096 then match s.tenants.config.find m with | some c => c.cls | none => 0xFE else 0xFF

/-- The IDENTIFY payload (Table 2-19). -/
def State.identity (m : Nat) (s : State) : Bytes :=
  leBytes 2 0x5304 ++ leBytes 1 2 ++ leBytes 1 1 ++ leBytes 2 s.nodeId ++ leBytes 1 (seasonCode s.power.season) ++
    leBytes 1 (profileCode s.power.profile) ++ leBytes 8 Config.serial.toNat ++ leBytes 4 Config.flaumBuild.toNat ++
    leBytes 2 s.activeTiles ++ leBytes 2 s.sparesLeft ++ leBytes 2 1280 ++ leBytes 1 64 ++ leBytes 1 (s.callerClass m) ++
    leBytes 4 s.placementGen

/-- Tenant mailboxes that are halted. -/
def State.haltedCount (s : State) : Nat :=
  (s.host.mailboxes.filter fun e => decide (e.1 < 4096) && e.2.state == .halted).length

/-- The GET_STATUS payload (Table 2-19): POWER_W is the envelope the governor holds (R459, R463), INFLIGHT counts the command itself. -/
def State.status (m : Nat) (s : State) : Bytes :=
  leBytes 1 (seasonCode s.power.season) ++ leBytes 1 (profileCode s.power.profile) ++ leBytes 1 (admitBits s.power.season s.placed) ++ zeros 1 ++
    leBytes 2 (s.envelopeMw / 1000) ++ zeros 2 ++ leBytes 8 s.fabTime ++ leBytes 4 (s.inFlight m) ++
    leBytes 4 (s.mbx m).pvCount.toNat ++ leBytes 2 (if m < 4096 then 0 else s.haltedCount) ++ zeros 6

/-- IDENTIFY (R55): the payload is not read. -/
def execIdentify (m : Mbx) (tag : Word) (s : State) : Host.Outcome State Fault Refusal :=
  .next (s.start 0x0001 m tag fun f s => .ok (s.answer f .done (s.identity f.mbx)))

/-- GET_STATUS (R55): the payload is not read. -/
def execGetStatus (m : Mbx) (tag : Word) (s : State) : Host.Outcome State Fault Refusal :=
  .next (s.start 0x0002 m tag fun f s => .ok (s.answer f .done (s.status f.mbx)))

/-- NOP (R55): the same bytes come back, up to 4,096; all of them also where they exceed 2^RSP_MAX_LOG2, since R55 allows no other status (DESIGN CHOICE,
log entry 142). -/
def execNop (m : Mbx) (tag : Word) (s : State) : Host.Outcome State Fault Refusal :=
  .next (s.start 0x0003 m tag fun f s => do
    lengthBounds f 0 4096
    .ok (s.answer f .done f.plain))

/-- GET_CERTIFICATES (R76). -/
def execGetCertificates (m : Mbx) (tag : Word) (s : State) : Host.Outcome State Fault Refusal :=
  .next (s.start 0x1001 m tag fun f s => do
    opening f 4 4
    let w := field f.plain 0 4
    fields [(0, decide (w ≤ 2))]
    .ok (s.answer f .done ((Config.certificate w).take 8192)))

/-! ### Streams -/

/-- The stream a command in flight writes to, or will write to (R58). -/
def writesTo (f : Flight) : Option Nat :=
  match f.work with
  | .streaming st _ _ => some st
  | .generate r => r.stream
  | .reads _ h => h.stream
  | .batch => batchStream f
  | .search _ | .fabric _ => if hdrStream f.hdr then some (field f.plain 0x14 2) else none
  | _ => none

/-- Streams a tenant holds. -/
def State.streamsHeld (t : Nat) (s : State) : Nat := (s.host.streams.filter fun e => e.2.tenant == t).length

/-- STREAM_OPEN (R57): the lowest free stream. -/
def execStreamOpen (m : Mbx) (tag : Word) (s : State) : Host.Outcome State Fault Refusal :=
  .next (s.start 0x0030 m tag fun f s => do
    opening f 32 32
    let b := f.plain
    fields [(0x00, field b 0 8 % 4096 == 0), (0x08, 6 ≤ field b 8 1 && field b 8 1 ≤ 24), (0x09, zeroField b 9 1),
      (0x0A, decide (field b 0xA 2 < 2048)), (0x0C, field b 0xC 2 != 0), (0x10, zeroField b 0x10 16)]
    need (decide (s.streamsHeld f.tenant < 16)) (noResources 16)
    match (List.range 1024).find? fun n => (s.host.streams.find n).isNone with
    | none => .error (noResources 1024)
    | some n =>
      let x : Stream := {
        tenant := f.tenant, base := BitVec.ofNat 64 (field b 0 8), slotsLog2 := field b 8 1, vector := field b 0xA 2
        irqCount := field b 0xC 2, irqUs := field b 0xE 2 }
      let s := { s with host.streams := s.host.streams.put n x }
      .ok (s.answer f .done (leBytes 2 n ++ zeros 2)))

/-- STREAM_CLOSE (R61): WRONG_STATE while a command is writing to the stream. -/
def execStreamClose (m : Mbx) (tag : Word) (s : State) : Host.Outcome State Fault Refusal :=
  .next (s.start 0x0031 m tag fun f s => do
    opening f 4 4
    fields [(2, zeroField f.plain 2 2)]
    let n := field f.plain 0 2
    match s.host.streams.find n with
    | none => .error (bad 0x20)
    | some x => do
      need (x.tenant == f.tenant) (bad 0x20)
      need (!(s.host.flights.any fun g => writesTo g == some n)) (wrongStateAt 0x20)
      .ok (({ s with host.streams := s.host.streams.del n } : State).answer f .done []))

/-! ### Windows -/

/-- PIW_BIND (R65). -/
def execPiwBind (m : Mbx) (tag : Word) (s : State) : Host.Outcome State Fault Refusal :=
  .next (s.start 0x0050 m tag fun f s => do
    opening f 4 4
    let v := field f.plain 0 4
    fields [(0, decide (v < 2 ^ 18))]
    let w := bits v 0 5
    need (s.win w).bound.isNone (wrongStateAt 0x20)
    .ok ((s.updWin w fun x => { x with bound := some (bits v 6 17) }).answer f .done []))

/-- PIW_UNBIND (R65): a flush, after which PIW_FLUSH_COMPLETE clears the binding and answers. -/
def execPiwUnbind (m : Mbx) (tag : Word) (s : State) : Host.Outcome State Fault Refusal :=
  .next (s.start 0x0051 m tag fun f s => do
    opening f 4 4
    let v := field f.plain 0 4
    fields [(0, decide (v < 64))]
    need (s.win v).bound.isSome (wrongStateAt 0x20)
    .ok ((requestFlush v s).setWork f (.flushWait v)))

end Sys2Proof.Machine
end

