-- ==== Sys2Proof/Machine/Resets.lean ====
section
/-!
DEFINITION. The power-loss flush, what a reset leaves, and Spring after a reset (R96, R97, R134, R135, R196, R257, R284, R355, R358, R359,
R387, R388, R399, R449–R455, R464, R470, R474).
-/
namespace Sys2Proof.Machine

/-- Record an event in the always-on retention memory (R465, R470). -/
def State.retain (kind : Nat) (s : State) : State := { s with power.retention := s.power.retention ++ [kind] }

/-! ### What survives a reset -/

/-- A version's DEL_CSN as its sealed segment and the sealed tombstone segments give it: a mark whose record is not sealed is lost (R126, R134). -/
def Collection.durableMark (c : Collection) (v : Version) : Version :=
  let lost (d : Nat) : Bool := c.segments.any fun x => x.tombstone && x.state != .sealed && x.records.contains (v.seg, v.pos, d)
  { v with del := match v.del with | some d => if lost d then none else some d | none => none, staged := false }

/-- A record as the log holds it: a text record has neither tokens nor a vector of its own (R109). -/
def bareItem (r : ItemRecord) : ItemRecord := if r.text.isEmpty then r else { r with vector := none, tokens := [] }

/-- An operation as it comes back from the log. -/
def bareOp (o : Operation) : Operation :=
  { o with
    applied := false, encoded := false, buffered := o.durable
    body := match o.body with | .insert l up => .insert (l.map bareItem) up | b => b }

/-- A collection as the directory, the sealed segments and the log give it after a reset (R134): it waits for the keys of its live generations, unless it is
key-lost. A segment never returns to an earlier state (R122). What lists share a row is kept with it (R151; DEDUCED, log entry 155); where the rows lay in
HBM is of no more use. DUP_IDS, TRUNC_CHUNKS and DELETE_MISSES begin at 0 again (DESIGN CHOICE, log entry 156). -/
def Collection.afterReset (c : Collection) (gens : List Nat) : Collection :=
  let segs := (c.segments.filter segDurable).map fun x => { x with waiters := [] }
  let rows := (c.versions.filter c.inSealed).map c.durableMark
  let recs := (segs.filter (·.tombstone)).flatMap fun x => x.records.map (·.2.2)
  let top := (rows.map (·.ins) ++ recs).foldl max c.sealedCsn
  { c with
    versions := rows
    segments := segs ++ [{ id := c.nextSegment, state := .opened }]
    nextSegment := c.nextSegment + 1
    ops := (c.ops.filter fun o => o.durable || !o.confirmed.isEmpty).map bareOp
    predicates := [], assigned := top, committed := top, compaction := none, sealRequested := false, tombsRequested := false
    availability := if c.availability == .keyLost then .keyLost else .keyPending gens
    map := { c.map with poisoned := [], evaluate := false }
    oldMaps := [], extents := if c.availability == .keyLost then [] else c.current.map fun e => { e with closed := true }, indices := [], commits := [], dupIds := 0, truncChunks := 0, deleteMisses := 0, appendsWait := false
    replicas := c.replicas.map fun r => { r with state := 0, sent := 0 } }

/-- Drops that a reset cuts are carried on: their flash objects go (R132). -/
def State.carryDrops (s : State) : State :=
  (s.index.collections.vals.filter (·.dropping.isSome)).foldl (fun s c =>
    { s.unmapObject c.id 0 with
      tiers.objects := s.tiers.objects.map fun (o : SharedObject) => if o.collection == c.id then { o with superseded := true } else o }) s

/-- The module as a reset leaves it, held in reset: what lies in flash, in the always-on domain and outside the module stays, every other register
takes its reset value (R96, R134, R284, R399, R423, R426, R432, R446). -/
def State.afterReset (s : State) : State :=
  let r := State.reset
  let s := s.carryDrops
  let colls : Tab Collection := (s.index.collections.filter fun e => e.2.dropping.isNone).map fun e =>
    (e.1, e.2.afterReset ((s.liveGensOf e.2).map (·.1)))
  let held : Power := {
    season := .heldInReset, profile := s.power.profile, rates := s.power.rates, straps := s.power.straps, flushMarked := s.power.flushMarked
    lastFlushOk := s.power.lastFlushOk, overvoltage := s.power.overvoltage, trip := s.power.trip, tripRetained := s.power.tripRetained
    retention := s.power.retention, i3cDynamic := s.power.i3cDynamic, mctpEid := s.power.mctpEid, pcieUp := false, flashDriven := false
    flushed := s.power.flushed }
  { r with
    pending := s.pending, clock := s.clock, fabTime := s.fabTime, free := s.free, out := s.out, pins := s.pins, power := held
    keys.anchor := s.keys.anchor, keys.htkDraws := s.keys.htkDraws + 1, keys.spdmDraws := s.keys.spdmDraws
    tenants.config := s.tenants.config, tenants.keptEvents := s.tenants.keptEvents, tenants.resetAt := s.fabTime
    index.collections := colls, index.nbus := s.index.nbus.each fun n => { retired := n.retired }, index.scrubBase := s.clock
    models.placement := s.models.placement
    models.gens := (s.models.gens.filter fun g => !g.retired).map fun g => { g with damaged := [] }
    tiles.failed := s.tiles.failed, tiles.map := s.settleTiles.tiles.map, tiles.state := s.settleTiles.tiles.state
    tiers.objects := s.tiers.objects, tiers.given := s.tiers.given
    flash := { s.flash with hbmPages := [], hostPages := [], dirty := [], ckpt := none, gcVictim := none, wearVictim := none, reconstructed := 0 }
    fabric.route := s.fabric.route
    comp.partition := s.comp.partition, comp.peers := s.comp.peers, comp.newPeers := s.comp.newPeers, comp.sources := s.comp.sources
    comp.records := s.comp.records, comp.fences := s.comp.fences, comp.electrical := s.comp.electrical }

/-- What was in the log buffer and was not programmed in time: nothing says which of it reached flash (free); the journal records that wait are lost. -/
def State.unflushed (s : State) : State :=
  let (n, s) := s.draw
  let kept (i : Nat) : Bool := Config.free (n + i) % 2 == 1
  let mark (c : Collection) : Collection := { c with ops := c.ops.map fun o => { o with durable := o.durable || (o.buffered && kept (c.id + o.csn)) } }
  ({ s with
    index.collections := s.index.collections.each mark
    comp.records := (s.comp.records.filter fun r => r.durable || kept (r.source + r.collection + r.csn)).map fun r => { r with durable := true } } : State).undoJournal

/-- The log buffer and the journal are in flash (R389, Table 15-10). -/
def State.allDurable (s : State) : State :=
  let mark (c : Collection) : Collection := { c with ops := c.ops.map fun o => { o with durable := o.durable || o.buffered } }
  ({ s with
    index.collections := s.index.collections.each mark
    comp.records := s.comp.records.map fun r => { r with durable := true } } : State).journalAll

/-! ### The flush (R387, R451, R452) -/

/-- The fabric stops at once: every port goes DOWN, and queued and transit packets are lost (Table 16-18). -/
def State.stopFabric (s : State) : State :=
  let s := (List.range 32).foldl (fun s p => s.linkDown p) s
  { s with
    fabric.ports := s.fabric.ports.map fun x => { x with queues := [] }
    fabric.inbox := [], fabric.reassembly := [], fabric.held := [] }

/-- Begin the power-loss flush in Spring, Summer or Autumn drain; a drain or a Winter entry is abandoned (R451, Table 18-11). -/
def State.beginFlush (s : State) : State :=
  if s.operating then
    { s with
      power.season := .powerLoss, power.flush := some s.clock, power.flushed := false, power.flushMarked := false
      power.drain := .none, power.entering := none, power.waking := none }.stopFabric
  else s

/-- A failure of power or clocks (R451, R465): in operation the flush runs; once Winter entry has made the log durable, the reset takes effect with no
flush; in Winter it is recorded, and HBM content is lost. -/
def State.powerFails (kind : Nat) (s : State) : State :=
  if s.power.season == .winter then { s with power.hbmLost := true }.retain kind
  else match s.power.entering with
    | some t => if t + 1000000 ≤ s.clock && s.operating then s.allDurable.afterReset else s.beginFlush
    | none => s.beginFlush

/-- HOLDUP_WARN_N has been low for a time: whether two samples, 2 µs apart, have seen it (R471); between 2 and 4 µs it depends on the phase (free). -/
def State.holdupSeen (lowNs : Nat) (s : State) : Bool × State :=
  if 4000 ≤ lowNs then (true, s)
  else if lowNs < 2000 then (false, s)
  else let (n, s) := s.draw; (n % 2 == 1, s)

/-- HOLDUP_WARN_ASSERT (R450, R451, R471). -/
def execHoldupWarnAssert (lowNs : Nat) (s : State) : Host.Outcome State Fault Refusal :=
  let r := s.holdupSeen lowNs
  .next (if r.1 then ({ r.2 with pins.holdupN := false } : State).powerFails 1 else r.2)

/-- INPUT_UNDERVOLTAGE (R449): below 355 V for 20 µs. -/
def execInputUndervoltage (volts : Fin 355) (s : State) : Host.Outcome State Fault Refusal :=
  .next (({ s with pins.input := volts } : State).powerFails 2)

/-- INPUT_OVERVOLTAGE (R449): above 440 V for 50 µs; recorded in module state, and after the flush the module is held in reset. -/
def execInputOvervoltage (volts : Nat) (s : State) : Host.Outcome State Fault Refusal :=
  .next (if volts ≤ 440 then s
    else
      let s := { s with pins.input := volts, power.overvoltage := true }
      if s.power.season == .winter then { s.afterReset with power.flushMarked := s.power.flushMarked } else s.powerFails 3)

/-- THERMAL_TRIP (R464, R486): the trip is latched, in the latch while THERM_SB is powered and in retention memory, the flush runs, and the module is held
in reset. -/
def execThermalTrip (part : Fin 27) (s : State) : Host.Outcome State Fault Refusal :=
  let s := { s with power.trip := s.pins.thermSb, power.tripRetained := true }.retain (256 + part)
  .next (if s.power.season == .winter then s.afterReset else s.powerFails 4)

/-- POWER_LOSS_FLUSH (R387, Table 15-10): the flush set and the marker are programmed, unless the flash is not driven or energy ran out (`programmed`), and
then the keys are erased (R97). -/
def execPowerLossFlush (programmed : Bool) (s : State) : Host.Outcome State Fault Refusal :=
  .next (if s.power.season == .powerLoss && s.power.flush.isSome && !s.power.flushed then
    let ok := programmed && s.power.flashDriven
    let t := if ok then s.allDurable else s.unflushed
    { t with
      power.flushed := true, power.flushMarked := ok, power.lastFlushOk := ok
      tiles.failed := if ok then t.tiles.unrecorded ++ t.tiles.failed else t.tiles.failed, tiles.unrecorded := []
      keys.trks := [], keys.sessions := [], keys.retained := [], keys.mgmt := .closed, keys.mgmtKeys := ([], []), keys.zeroising := [] }
  else s)

/-- FLUSH_END (R452): after its last step the module holds itself in reset. -/
def execFlushEnd (s : State) : Host.Outcome State Fault Refusal :=
  .next (if s.power.season == .powerLoss && s.power.flushed then s.afterReset else s)

/-! ### Into Spring (R452, R453, R470, R474) -/

/-- The conditions of R452 and R474, but for RESET_N. -/
def State.conditionsGood (s : State) : Bool :=
  360 ≤ s.pins.input && s.pins.input ≤ 420 && s.pins.holdupN && !s.power.trip && !s.power.tripRetained && !s.power.overvoltage &&
    s.pins.sysClk == 3 && s.pins.aoUp

/-- The profile PROFILE_SEL names (R458). -/
def strapProfile (p : Fin 4) : Profile := [Profile.january, .april, .july, .october].getD p .january

/-- The tile clock ceiling of a profile, in 50 MHz steps (Table 1-6). -/
def clockCeiling : Profile → Nat
  | .january => 20 | .april => 26 | .july => 32 | .october => 32

/-- Spring begins: the straps are latched, and the profile is the one they name; under TEST_MODE the module stays held in reset (R455, R458, R470). -/
def State.beginSpring (s : State) : State :=
  let st := s.pins.straps
  if st.testMode then { s with power.straps := st }.retain 5
  else
    let p := strapProfile st.profileSel
    let s := { s with
      power.season := .spring, power.straps := st, power.profile := p, power.rates := p, power.pcieUp := s.pins.perstN && s.pins.pcieClk
      power.flashDriven := s.pins.flashPg, power.warm := false, power.flushed := false, governor.clocks := List.replicate 4 (clockCeiling p) }
    if s.comp.electrical.contains s.nodeId && s.fabric.route.isSome then
      { s with fabric.ports := s.fabric.ports.map fun x => { x with idledBy := [s.nodeId] } }
    else s

/-- RESET_RELEASE (R452, R474): the pins have been so for 100 ms, and where every condition holds, the held module leaves reset; one held by TEST_MODE
waits for a later latch (R470). -/
def execResetRelease (volts : Nat) (holdupN : Bool) (sysClk : BitVec 2) (straps : Straps) (s : State) : Host.Outcome State Fault Refusal :=
  .next (if s.power.season == .heldInReset && s.pins.resetN && !s.power.straps.testMode then
    let s := { s with pins.input := volts, pins.holdupN := holdupN, pins.sysClk := sysClk, pins.straps := straps }
    if s.conditionsGood then s.beginSpring else s
  else s)

/-- RESET_N has been low for a time: latched from 1 µs, ignored below 0.2 µs, and between them nothing says (free) (R453, R471). -/
def State.resetSeen (lowNs : Nat) (s : State) : Bool × State :=
  if 1000 ≤ lowNs then (true, s)
  else if lowNs < 200 then (false, s)
  else let (n, s) := s.draw; (n % 2 == 1, s)

/-- RESET_N_ASSERT (R453, R464): a recorded overvoltage is cleared, and a trip where every sensor reads below 90 °C (`cool`); in operation the flush runs
first, and in Winter or held in reset the reset takes effect at once. -/
def execResetNAssert (lowNs : Nat) (cool : Bool) (s : State) : Host.Outcome State Fault Refusal :=
  let r := s.resetSeen lowNs
  .next (if !r.1 then r.2
    else
      let t := r.2
      let s := { t with
        pins.resetN := false, power.resetRequest := true, power.overvoltage := false
        power.trip := t.power.trip && !cool, power.tripRetained := t.power.tripRetained && !cool }
      if s.operating then s.beginFlush
      else if s.power.season == .powerLoss then s
      else s.afterReset)

/-- RESET_N_DEASSERT (R453, R470, R474): the straps are latched and Spring begins, where the other conditions hold. -/
def execResetNDeassert (straps : Straps) (s : State) : Host.Outcome State Fault Refusal :=
  let s := { s with pins.resetN := true, pins.straps := straps }
  .next (if s.power.season == .heldInReset && s.conditionsGood then s.beginSpring else s)

/-- COLD_POWER_UP (R474, Table 19-6): the input reaches 360 V from off, so power was lost before, in operation without a flush; only flash and, where
THERM_SB stayed powered, the trip latch have kept anything. -/
def execColdPowerUp (volts : Nat) (s : State) : Host.Outcome State Fault Refusal :=
  .next (if volts < 360 then s
    else
      let cut := s.operating || (s.power.season == .powerLoss && !s.power.flushed)
      let s := if cut then { s.unflushed with power.flushMarked := false, power.lastFlushOk := false } else s
      { s.afterReset with
        fabTime := 0, tenants.resetAt := 0, pins.input := volts, pins.aoUp := true, power.tripRetained := false, power.retention := []
        power.straps := {}, power.flushed := false, power.i3cDynamic := none, power.mctpEid := 0 })

/-! ### Spring after a reset (R355, R358, R359, R388, R455) -/

/-- Media recovery: the map as flash holds it; open bands are closed; without a marker the event is counted (R388). -/
def State.recoverMedia (s : State) : State :=
  let s := if s.power.flushMarked then s.journalAll else { s.undoJournal with flash.uncleanSprings := min (s.flash.uncleanSprings + 1) 0xFFFFFFFF }
  let close (b : Band) : Band := { b with closed := match b.closed with | some t => some t | none => some s.clock }
  { s with flash.bands := s.flash.bands.each close, power.flushMarked := true }

/-- Map pages that both complete checkpoint halves reject: their mapped units are unreadable, and each page is a MAP_DAMAGED event (R370). -/
def State.mapDamaged (pages : List Nat) (s : State) : State :=
  pages.foldl (fun s p => ({ s with
    flash.lostUnits := ((s.flash.map.map Prod.fst).filter fun u => mapPage u == p && !s.flash.lostUnits.contains u) ++ s.flash.lostUnits } : State).media 11 0) s

/-- A parameter page meets Table 15-1 (R357). -/
def geometryAccepted (p : ParameterPage) : Bool :=
  5 ≤ p.revision.1 && p.crcHolds && !p.rates.isEmpty && p.bitsPerCell == 3 && p.slcMode && p.planes == 4 && p.dataBytes == 16384 &&
    1888 ≤ p.spareBytes && p.pagesPerBlock % 3 == 0 && p.pagesPerBlock ≤ 3072 && p.blocksPerPlane ≤ 8192 && 7 ≤ p.retryLevels &&
    p.operations.toList.all id

/-- Two parameter pages agree, apart from their serial fields (R357). -/
def pagesAgree (p q : ParameterPage) : Bool := { p with serial := 0 } == { q with serial := 0 }

/-- The dies that are accepted: their page meets Table 15-1 and agrees with the pages of every other die that answers, and training passes at a rate, on a
channel where training passes (R357, R358). -/
def acceptedDies (found : List (Fin 1024 × FoundDie)) (untrained : List (Fin 64)) : List (Nat × FoundDie) :=
  (found.filter fun e => geometryAccepted e.2.page && (found.all fun x => pagesAgree e.2.page x.2.page) && e.2.trained.isSome &&
    !untrained.any fun c => c.val == e.1.val / 16).map fun e => (e.1.val, e.2)

/-- A die is accepted: it works at the highest rate that passed its training; where the module-state record lists no die there, it is UNUSED
(R358, R359). -/
def State.dieFound (listed : List Nat) (e : Nat × FoundDie) (s : State) : State :=
  s.updDie e.1 fun x => { x with rate := (e.2.trained.map (·.val)).getD 0, state := if listed.contains e.1 then x.state else 4 }

/-- Format (R359): the population is the dies that are accepted, and the factory-bad blocks are read from their marks. -/
def State.format (dies : List (Nat × FoundDie)) (s : State) : State :=
  let most := dies.foldl (fun n e => max n (e.1 % 16 + 1)) 1
  let s := { s with flash.perChannel := most, flash.dies := [], flash.formatted := true, flash.hasState := true }
  let s := (List.range 1024).foldl (fun s d => if dies.any (·.1 == d) then s else s.updDie d fun x => { x with state := 3 }) s
  let s := match dies with
    | e :: _ => { s with flash.pages := e.2.page.pagesPerBlock, flash.blocks := e.2.page.blocksPerPlane, flash.spare := e.2.page.spareBytes }
    | [] => s
  dies.foldl (fun s e => e.2.bad.foldl (fun s b => s.updQuad (quadKey e.1 b) fun x => { x with factoryBad := true })
    (s.updDie e.1 fun x => { x with rate := (e.2.trained.map (·.val)).getD 0 })) s

/-- The dies that Spring finds (R358, R359): with no module-state record the flash is formatted; with one, a die that it lists and that is ABSENT now is
failed, and one that it does not list is UNUSED. -/
def State.bringUpDies (dies : List (Nat × FoundDie)) (s : State) : State :=
  if s.flash.hasState then
    let listed := s.positions
    let s := (listed.filter fun d => !dies.any (·.1 == d)).foldl (fun s d => s.failDie d) { s with flash.formatted := false }
    dies.foldl (fun s e => s.dieFound listed e) s
  else s.format dies

/-- The channels that hold usable dies. -/
def State.usableChannels (s : State) : Nat := ((s.activeDies.map (· / 16)).eraseDups).length

/-- Spring ends, and Summer begins (R455). -/
def State.beginSummer (s : State) : State := ({ s with power.season := .summer } : State).logKind 10 2

/-- SPRING_BRING_UP (R455): once FLASH_PG is high (R472), the media is recovered, the dies are found and trained, the map is loaded, the tiles tested;
images and the collection directory are there again, and Summer begins. With usable dies on fewer than 16 channels the media is FAILED (R358). Map pages that
both checkpoint halves reject are damaged (R370). -/
def execSpringBringUp (found : MediaFound) (failedTiles : List (Fin 4352)) (s : State) : Host.Outcome State Fault Refusal :=
  .next (if s.power.season == .spring && !s.power.warm && s.pins.flashPg then
    let s := (s.recoverMedia.bringUpDies (acceptedDies found.dies found.untrained)).mapDamaged found.rejected
    let s := if s.usableChannels < 16 then { s with flash.failed := true }.logUnit 0xFFFF else { s with flash.failed := false }
    let s := s.selfTest failedTiles
    let leased (o : SharedObject) : Bool := s.tiers.given.any fun l => l.collection == o.collection && l.gen == o.gen && l.segment == o.segment
    let s := { s with tiers.objects := (s.tiers.objects.filter leased).map fun (o : SharedObject) => { o with superseded := true } }
    let ahead (l : Lease) : Lease := { l with since := s.clock }
    ({ s with tiers.given := s.tiers.given.map ahead } : State).beginSummer
  else s)

end Sys2Proof.Machine
end

