-- ==== Sys2Proof/Machine/Seasons.lean ====
section
/-!
DEFINITION. Profiles and seasons: SET_PROFILE and its switch, SET_SEASON, Autumn drain, Winter entry and the wake
(R135, R196, R257, R337, R389, R431, R454–R459).
-/
namespace Sys2Proof.Machine

/-! ### Profiles (R459) -/

/-- SP.PROFILE. -/
def profileOf (n : Nat) : Profile := [Profile.january, .april, .july, .october].getD n .january

/-- The DONE payload of SET_PROFILE: PREVIOUS and SWITCH_US. -/
def profileAnswer (previous : Profile) (us : Nat) : Bytes := leBytes 1 (profileCode previous) ++ zeros 3 ++ leBytes 4 us

/-- Operations acknowledged and not yet committed, by collection and CSN. -/
def State.acknowledged (s : State) : List (Nat × Nat) :=
  s.index.collections.vals.flatMap fun c =>
    if c.isReplica then [] else (c.ops.filter fun o => o.acked && decide (c.committed < o.csn)).map fun o => (c.id, o.csn)

/-- An operation has committed, or its collection is gone. -/
def State.hasCommitted (s : State) (w : Nat × Nat) : Bool :=
  match s.coll w.1 with
  | none => true
  | some c => c.dropping.isSome || decide (w.2 ≤ c.committed)

/-- SET_PROFILE (R459, Table 18-10): rates and shares follow the new profile at once; the envelope switches at PROFILE_SWITCH. -/
def execSetProfile (m : Mbx) (tag : Word) (s : State) : Host.Outcome State Fault Refusal :=
  .next (s.start 0x0010 m tag fun f s => do
    opening f 8 8
    let p := field f.plain 0 1
    fields [(0, decide (p ≤ 3)), (1, zeroField f.plain 1 7)]
    need s.power.change.isNone wrongState
    let old := s.power.profile
    let new := profileOf p
    if new == old then .ok (s.answer f .done (profileAnswer old 0))
    else
      let waits := if envelopeOf new < envelopeOf old then s.acknowledged else []
      let change : ProfileChange := { target := new, mbx := f.mbx, tag := f.tag, since := s.clock, waits := waits }
      .ok (({ s with power.rates := new, power.change := some change } : State).setWork f .profileWait))

/-- A tick boundary: a whole millisecond of fabric time (R460). -/
def State.atTick (s : State) : Bool := s.fabTime % 1000000 == 0

/-- PROFILE_SWITCH (R459 step 3): at a tick boundary, once the operations waited for have committed. -/
def execProfileSwitch (s : State) : Host.Outcome State Fault Refusal :=
  .next (match s.power.change with
    | none => s
    | some c =>
      if s.serving && s.atTick && c.waits.all s.hasCommitted then
        let old := s.power.profile
        let s := { s with
          power.profile := c.target, power.change := none
          governor.clocks := s.governor.clocks.map fun k => min k (clockCeiling c.target) }
        match s.flight c.mbx c.tag with
        | some f => s.answer f .done (profileAnswer old ((s.clock - c.since) / 1000))
        | none => s
      else s)

/-! ### Autumn drain (R135, R337, R431, R456) -/

/-- A collection whose segments the drain seals. -/
def Collection.sealable (c : Collection) : Bool := c.availability == .ready && c.dropping.isNone && !c.isReplica

/-- The open segment holds rows, or a seal of rows has not ended. -/
def Collection.unsealed (c : Collection) : Bool :=
  (c.segments.any fun x => x.state == .sealing) || (c.openSegment.any fun x => !(c.rows x.id).isEmpty) ||
    c.openTombs.any fun x => !x.records.isEmpty

/-- Ask for the seal of a collection's open segment, and of its open tombstone segment (R135). -/
def State.sealForDrain (s : State) (id : Nat) : State :=
  match s.coll id with
  | none => s
  | some c =>
    if c.sealable then
      let rows := c.openSegment.any fun x => !(c.rows x.id).isEmpty
      (s.setColl { c.askTombs with sealRequested := c.sealRequested || rows }).sealAtBoundary id
    else s

/-- Leave a composition for the drain; one that no member's JOIN can make ACTIVE any more ends (R431). -/
def State.leaveForDrain (s : State) (id : Nat) : State :=
  match s.comp.compositions.find id with
  | none => s
  | some k =>
    if k.active then (if k.leaving.isSome then s else s.beginLeave id none).settleLeave id
    else if k.waiting.isEmpty then s.endMembership id
    else s

/-- The current step of every table closes (R337). -/
def State.closeSteps (s : State) : State :=
  { s with tables.tables := s.tables.tables.each fun t =>
    if t.broken || t.creating.isSome || t.dropping.isSome then t else { t with closing := true } }

/-- What the drain sets going, and goes on with: seals, and LEAVE from every composition. -/
def State.pursueDrain (s : State) : State :=
  let s := s.index.collections.keys.foldl State.sealForDrain s
  s.comp.compositions.keys.foldl State.leaveForDrain s

/-- The season becomes Autumn drain. -/
def State.beginDrain (d : Drain) (s : State) : State :=
  ((({ s with power.season := .drain, power.drain := d } : State).logKind 10 3).closeSteps).pursueDrain

/-- SET_SEASON (R456, Table 18-4). -/
def execSetSeason (m : Mbx) (tag : Word) (s : State) : Host.Outcome State Fault Refusal :=
  .next (s.start 0x0011 m tag fun f s => do
    opening f 8 8
    let target := field f.plain 0 1
    fields [(0, target == 0 || target == 2 || target == 3), (1, zeroField f.plain 1 7)]
    let winter := Drain.winter f.mbx f.tag
    match s.power.season, s.power.drain with
    | .summer, _ =>
      if target = 0 then .ok ((s.setWork f .winterWait).beginDrain winter)
      else if target = 2 then .ok (s.answer f .done [])
      else .ok ((s.beginDrain .stay).answer f .done [])
    | .drain, .winter _ _ => .error wrongState
    | .drain, _ =>
      if target = 0 then .ok (({ s with power.drain := winter } : State).setWork f .winterWait)
      else if target = 2 then .ok ((({ s with power.season := .summer, power.drain := .none } : State).logKind 10 2).answer f .done [])
      else .ok (s.answer f .done [])
    | _, _ => .error wrongState)

/-- Every admitted command has written its response, but for the SET_SEASON that waits for Winter (R456). -/
def State.quiet (s : State) : Bool :=
  (s.host.flights.all fun f => f.work == .winterWait) && s.host.done.isEmpty && s.host.held.isEmpty

/-- Every obligation that precedes Winter is met (R135, R196, R257, R337, R389, R431, R456). -/
def State.drained (s : State) : Bool :=
  s.quiet && s.acknowledged.all s.hasCommitted &&
    (s.index.collections.vals.all fun c => c.compaction.isNone && !(c.sealable && c.unsealed)) &&
    s.comp.compositions.isEmpty && (s.tables.tables.vals.all fun t => t.broken || !t.closing) && s.keys.zeroising.isEmpty &&
    s.tiles.crews.isEmpty

/-- Every mailbox, window and stream closes; the bindings of the windows are kept (Table 18-5). -/
def State.closeHost (s : State) : State :=
  { s with
    host := {
      windows := (s.host.windows.filter fun e => e.2.bound.isSome).map fun e => (e.1, { bound := e.2.bound })
      ports := s.host.ports.map fun _ => {} } }

/-- DRAIN_COMPLETE (R456, R457): what the drain still has to do goes on; once nothing is left and Winter is pending, SET_SEASON answers DONE, its response
is written, and Winter entry begins. -/
def execDrainComplete (s : State) : Host.Outcome State Fault Refusal :=
  .next (if s.power.season == .drain && s.power.entering.isNone then
    let s := s.pursueDrain
    match s.power.drain with
    | .winter m tag =>
      if s.drained then
        let s := match s.flight m tag with | some f => (s.answer f .done []).writeOne m | none => s
        ({ s with power.entering := some s.clock } : State).closeHost
      else s
    | _ => s
  else s)

/-! ### Winter and the wake (R454, R457) -/

/-- WINTER_ENTRY (R457, Table 18-5): 5 ms after the drain completed, the log is durable, the ports are down, the TRKs are wrapped, HBM refreshes itself and
the dies are unpowered. -/
def execWinterEntry (s : State) : Host.Outcome State Fault Refusal :=
  .next (match s.power.entering with
    | none => s
    | some t =>
      if s.power.season == .drain && t + 5000000 ≤ s.clock then
        let s := ((s.logKind 10 0).allDurable.stopFabric).closeHost
        { s with
          power.season := .winter, power.drain := .none, power.entering := none, power.pcieUp := false, power.flashDriven := false
          keys.retained := s.keys.trks, keys.trks := [], keys.sessions := [], keys.mgmt := .closed, keys.mgmtKeys := ([], []), keys.spdm := [.start, .start, .start]
          keys.chunksIn := [], keys.chunksOut := []
          index.nbus := s.index.nbus.each fun n => { n with jobs := [] }
          tables.prefetch := [], tables.nexts := [], tables.ahead := [], tables.requests := []
          models.contexts := []
          tiers.held := [], tiers.reads := []
          flash.gcVictim := none, flash.wearVictim := none
          tiles.tested := false }
      else s)

/-- A vendor-defined MCTP response of the always-on domain: type 0x7F, the vendor ID, the command code, and what the command returns (R454). -/
def vendorMessage (code : Nat) (body : Bytes) : Bytes := [0x7F, 0x00, 0x00, 0xF9, 0x4E] ++ leBytes 1 code ++ body

/-- The wake begins: the fast domain comes up under the strap profile, the TRKs are unwrapped, and PCIe becomes configuration-ready (Table 18-5). -/
def State.beginWake (s : State) : State :=
  let p := strapProfile s.power.straps.profileSel
  ({ s with
    power.season := .spring, power.warm := true, power.waking := some s.clock, power.profile := p, comp.completions := []
    power.pcieUp := s.pins.perstN && s.pins.pcieClk, power.flashDriven := s.pins.flashPg
    governor.clocks := List.replicate 4 (clockCeiling p), governor.nbuRates := []
    keys.trks := s.keys.retained, keys.retained := []
    fabric.time := .acquiring, fabric.closeSince := none, fabric.grandmaster := false
    fabric.ports := s.fabric.ports.map fun x => { x with gates := resetGates, gateWait := none } } : State).logKind 10 1

/-- WAKE (R454, R457, R470): in Winter the wake begins; after a hold-up warning in Winter the start is cold (R465). Anywhere else it is refused. -/
def execWake (s : State) : Host.Outcome State Fault Refusal :=
  .next (if !s.pins.aoUp then s
    else if s.power.season == .winter then
      let s := s.emit (.mctp (vendorMessage 2 [0]))
      if s.power.hbmLost then s.afterReset.beginSpring else s.beginWake
    else s.emit (.mctp (vendorMessage 2 [1])))

/-- WAKE_COMPLETE (R455, R457, Table 18-5): tiles tested, HBM scrubbed, flash retrained; the set profile is in force again, and Summer begins. -/
def execWakeComplete (s : State) : Host.Outcome State Fault Refusal :=
  .next (match s.power.waking with
    | none => s
    | some t =>
      if s.power.season == .spring && s.power.warm && s.pins.flashPg && t + 200000000 ≤ s.clock then
        let (failed, s) := s.wakeTest
        (({ s with
          power.waking := none, power.warm := false, power.profile := s.power.rates
          governor.clocks := s.governor.clocks.map fun k => min k (clockCeiling s.power.rates)
          index.scrubBase := s.clock, tiles.tested := true } : State).selfTest failed).beginSummer
      else s)

end Sys2Proof.Machine
end

