-- ==== Sys2Proof/Machine/Governor.lean ====
section
/-!
DEFINITION. The power governor: the tick, the clocks and RATE_PCT it sets, thermal caps, and the hardware limiters (R194, R222, R417, R460–R463).
Power is in milliwatts, clocks in 50 MHz steps.
-/
namespace Sys2Proof.Machine

/-- Conversion loss (Table 18-6), W. -/
def conversionLoss : Profile → Nat
  | .january => 50 | .april => 72 | .july => 90 | .october => 90

/-- Flash channel controllers and PHYs (Table 18-6), W. -/
def flashLine : Profile → Nat
  | .january => 40 | .april => 45 | .july => 55 | .october => 60

/-- Fabric link crypto and forwarding (Table 18-6), W. -/
def cryptoLine : Profile → Nat
  | .january => 16 | .april => 24 | .july => 32 | .october => 24

/-- NBU scan at the sustained point (Table 18-6), W. -/
def scanLine : Profile → Nat
  | .january => 200 | .april => 240 | .july => 320 | .october => 160

/-- Scan floor and tile floor, percent of the pool (Table 18-8). -/
def governorFloors : Profile → Nat × Nat
  | .january => (60, 20) | .april => (30, 30) | .july => (30, 30) | .october => (15, 50)

/-- Weights of scans and tiles (Table 18-8). -/
def governorWeights : Profile → Nat × Nat
  | .january => (3, 1) | .april => (1, 1) | .july => (1, 1) | .october => (1, 3)

/-- The split of the pool between scan demand and tile demand (R460): gs and gt. -/
def divide (p : Profile) (pool ds dt : Nat) : Nat × Nat :=
  if ds + dt ≤ pool then (ds, dt)
  else
    let f := governorFloors p
    let w := governorWeights p
    let fs := min ds (pool * f.1 / 100)
    let ft := min dt (pool * f.2 / 100)
    let rest := pool - fs - ft
    let gs := fs + rest * (w.1 * (ds - fs)) / (w.1 * (ds - fs) + w.2 * (dt - ft))
    (gs, ft + rest - (gs - fs))

/-- The core voltage at a step, in thirds of a millivolt (Table 18-7, interpolated linearly). -/
def stepVolts (k : Nat) : Nat :=
  if k ≤ 20 then 1500 + 25 * (k - 8) else if k ≤ 26 then 1800 + 75 * (k - 20) else 2250 + 50 * (k - 26)

/-- The predicted draw of a die at step `k`, from what it drew at step `last`, fits its share (R460). -/
def stepFits (drawn share last k : Nat) : Bool :=
  decide (drawn * (k * (stepVolts k * stepVolts k)) ≤ share * (last * (stepVolts last * stepVolts last)))

/-- The highest step of Table 18-7, at most `top`, whose predicted draw fits; the lowest step where none does. -/
def bestStep (drawn share last : Nat) : Nat → Nat
  | 0 => 8
  | k + 1 => if k + 1 ≤ 8 then 8 else if stepFits drawn share last (k + 1) then k + 1 else bestStep drawn share last k

/-- The fixed lines of a tick (R460, Table 18-6), mW; SerDes draws 8.5 W for each port that is not DOWN (R417). -/
def State.fixedMw (s : State) : Nat :=
  let p := s.power.profile
  (100 + 60 + conversionLoss p + flashLine p + 41 + 380) * 1000 + 8500 * (s.fabric.ports.filter fun x => x.state != .down).length

/-- The governed pool of a tick (R460), mW. -/
def State.poolMw (crypto : Nat) (s : State) : Nat :=
  s.envelopeMw - s.fixedMw - min crypto (cryptoLine s.power.profile * 1000) - s.governor.overshoot

/-- A cap goes down a step while its part is above the throttle point and still warming, and up a step once it is 3 °C below (R463). -/
def stepCap (hot cool : Bool) (step top cap : Nat) : Nat := if hot then cap - step else if cool then min top (cap + step) else cap

/-- The thermal caps after the sensors' reading (R463, Table 18-9). -/
def adjustCaps (r : TickReading) (g : Governor) : Governor :=
  let hot (i : Nat) : Bool := r.hot.any fun p => p.val == i
  let cool (i : Nat) : Bool := r.recovered.any fun p => p.val == i
  { g with
    dieCaps := g.dieCaps.mapIdx fun i c => stepCap (hot i) (cool i) 1 32 c
    stackCaps := g.stackCaps.mapIdx fun i c => stepCap (hot (4 + i)) (cool (4 + i)) 10 100 c
    hubCaps := g.hubCaps.mapIdx fun i c => stepCap (hot (24 + i)) (cool (24 + i)) 10 100 c
    envelopeCap := stepCap (hot 26) (cool 26) 5 100 g.envelopeCap }

/-- Queued scan jobs of an NBU. -/
def State.queuedJobs (s : State) (n : Nat) : Nat := ((s.index.nbus.find n).elim 0 fun x => (x.jobs.filter fun j => j.result.isNone).length)

/-- The scan grant shared over NBUs in proportion to their queued jobs, each at most its stack's thermal cap, 375 mW being 75 GB/s at 5 pJ a byte; what a
cap cuts off goes to the others (R194, R460). An NBU is its number, its jobs and its cap. -/
def shareRates : Nat → Nat → List (Nat × Nat × Nat) → Tab Nat
  | 0, _, l => l.map fun x => (x.1, x.2.2)
  | k + 1, gs, l =>
    let total := (l.map (·.2.1)).sum
    let capped (x : Nat × Nat × Nat) : Bool := decide (x.2.2 * total * 375 ≤ gs * x.2.1 * 100)
    if l.any capped then
      ((l.filter capped).map fun x => (x.1, x.2.2)) ++
        shareRates k (gs - ((l.filter capped).map fun x => x.2.2 * 375).sum / 100) (l.filter fun x => !capped x)
    else l.map fun x => (x.1, gs * x.2.1 * 100 / (total * 375))

/-- RATE_PCT of every NBU for the next tick: the cap alone where nothing is queued. -/
def State.setRates (gs : Nat) (s : State) : State :=
  let cap (n : Nat) : Nat := s.governor.stackCaps.getD (n / 64) 100
  let busy := (s.index.nbus.keys.filter fun n => s.queuedJobs n != 0).map fun n => (n, s.queuedJobs n, cap n)
  let shares := shareRates busy.length gs busy
  { s with governor.nbuRates := ((List.range 1280).map fun n => (n, shares.getD n (cap n))).filter fun e => e.2 != 100 }

/-- The clock of every tile die for the next tick: its share of the tile grant follows its demand (R460). -/
def State.setClocks (gt : Nat) (r : TickReading) (s : State) : State :=
  let total := r.demand.sum
  let clock (i last : Nat) : Nat :=
    let share := if total = 0 then gt else gt * r.demand.getD i 0 / total
    bestStep (r.drawn.getD i 0) share last (min (clockCeiling s.power.profile) (s.governor.dieCaps.getD i 32))
  { s with governor.clocks := s.governor.clocks.mapIdx clock }

/-- The energy of the tick is attributed to the tenants by unit share: how much to each, nothing says (free; MTR.ENERGY_MJ). -/
def State.attributeEnergy (s : State) : State :=
  (s.tenants.meters.keys.filter (· != moduleKey)).foldl (fun s t => let (n, s) := s.draw; s.charge t 0x90 (n % 2500)) s

/-- What NBUs have delivered of their share over the last 10 ms, percent (R236): below 40 % one is treated as FAILED, from 40 to 75 % it is slow, unless its
stack is thermally capped. -/
def State.judgeNbus (l : List (Fin 1280 × Nat)) (s : State) : State :=
  let s := { s with index.nbus := s.index.nbus.each fun x => { x with slow := false } }
  l.foldl (fun s x =>
    let n := x.1.val
    if (s.nbu n).state != 0 || 75 < x.2 then s
    else if x.2 < 40 then (s.updNbu n fun y => { y with state := 1 }).logUnit n
    else if s.governor.stackCaps.getD (n / 64) 100 < 100 then s
    else s.updNbu n fun y => { y with slow := true }) s

/-- GOVERNOR_TICK (R236, R460, R463): at a tick boundary, once for each tick, the pool is divided, and clocks and rates hold for the next tick. -/
def execGovernorTick (reading : TickReading) (s : State) : Host.Outcome State Fault Refusal :=
  .next (if s.operating && s.atTick && s.fabTime != s.governor.lastTick then
    let p := s.power.profile
    let s := s.judgeNbus reading.delivered
    let s := { s with
      governor := { adjustCaps reading s.governor with
        lastTick := s.fabTime, overshoot := reading.draw - (s.envelopeMw - 50000) }
      index.specBytes := 0, index.specReads := 0 }
    let g := divide p (s.poolMw reading.crypto) (min reading.scan (scanLine p * 1000)) reading.demand.sum
    ((s.setRates g.1).setClocks g.2 reading).attributeEnergy
  else s)

/-- LIMITER_EVENT (R462): the clock of a die, or RATE_PCT of a stack's NBUs, is halved until the next tick; the event is counted and logged. -/
def execLimiterEvent (stack : Bool) (unit : Fin 20) (s : State) : Host.Outcome State Fault Refusal :=
  .next (if !s.operating || (!stack && 4 ≤ unit.val) then s
    else
      let s := { s with governor.limiterEvents := s.governor.limiterEvents + 1 }.logUnit unit.val
      if stack then
        let mine := (List.range 64).map (64 * unit.val + ·)
        { s with governor.nbuRates := mine.foldl (fun t n => t.put n (t.getD n 100 / 2)) s.governor.nbuRates }
      else { s with governor.clocks := s.governor.clocks.modify unit.val (· / 2) })

end Sys2Proof.Machine
end

