-- ==== Sys2Proof/Machine/KeyCommands.lean ====
section
/-!
DEFINITION. KEY_IMPORT, SESSION_OPEN, SESSION_CLOSE, KEY_ROTATE, KEY_ZEROISE: keys and sessions (R73, R75, R80–R95, R134, R488). The crypto
engine's verdict on a wrapped payload is an operand: the plaintext, where decapsulation and open hold.
-/
namespace Sys2Proof.Machine

/-- A running zeroisation affects a tenant (R94). -/
def State.zeroisingTenant (t : Nat) (s : State) : Bool :=
  s.keys.zeroising.any fun z => z.scope == 2 || z.tenant == t

/-- A zeroisation that runs: BUSY_RETRY with ERR.HINT 1,000 (R94). -/
def State.notZeroising (t : Nat) (s : State) : Except Detail Unit := need (!s.zeroisingTenant t) (busyRetry 1000)

/-- The time one KEY_IMPORT or SESSION_OPEN takes of the public-key engines at 6,000 a second, ns. -/
def pkCost : Nat := 166667

/-- A command joins the public-key queue, or is answered BUSY_RETRY with the expected time until the work falls below 1 ms (R488). -/
def State.joinPk (s : State) : Except Detail State :=
  let left := s.keys.pkDone - s.clock
  if left ≤ 1000000 then .ok { s with keys.pkDone := max s.keys.pkDone s.clock + pkCost }
  else .error (busyRetry ((left - 1000000 + 999) / 1000))

/-- What KEY_IMPORT and SESSION_OPEN share up to the open (R82, R488): exact length, CSN, hint, the limits of step 14. -/
def State.wrapped (len : Nat) (f : Flight) (limits : State → Except Detail Unit) (s : State) : Except Detail State := do
  opening f len len
  need (field f.plain 0 8 == Config.importHint.toNat) (keyUnavailable 0x20)
  s.notZeroising f.tenant
  limits s
  s.joinPk

/-- A command that has joined the public-key queue goes on: an error answers it, and its work stays in the queue (R488). -/
def State.orAnswer (f : Flight) (r : Except Detail State) (s : State) : State :=
  match r with
  | .ok t => t
  | .error d => s.answerDetail f d

/-- The payload of an H command is sealed under this key (R83, R85). -/
def State.underKey (f : Flight) (key : Bytes) (s : State) : State :=
  { s with host.done := s.host.done.map fun d =>
    if d.mbx == f.mbx && d.hdr.tag == f.hdr.tag && d.admitted then { d with response := { d.response with key := key } } else d }

/-- A key matches a generation of a collection's directory entry (R134). -/
def genMatches (k : Trk) (g : Nat × Word × Bytes) : Bool := g.2.1 == k.keyId && g.2.2 == kcv k.key

/-- A KEY_ID that the directory records, for a live generation, under another KCV (R134). -/
def State.contradicts (k : Trk) (s : State) : Bool :=
  s.index.collections.vals.any fun c =>
    ownerOf c.id == k.tenant && (s.liveGensOf c).any fun g => g.2.1 == k.keyId && g.2.2 != kcv k.key

/-- A key supplies the collections of its tenant that wait for it (R134). -/
def State.supply (k : Trk) (s : State) : State :=
  { s with index.collections := s.index.collections.each fun c =>
      match c.availability with
      | .keyPending gens =>
        if ownerOf c.id == k.tenant then
          { c with availability := .keyPending (gens.filter fun g => !c.gens.any fun x => x.1 == g && genMatches k x) }
        else c
      | _ => c }

/-- KEY_IMPORT once its payload is open, in `p` (R82, R83, R134): its DONE payload is sealed under an export of the HPKE context. -/
def State.importKey (f : Flight) (p : Bytes) (s : State) : Except Detail State := do
  need (p.length == 64) (notAuthorised 0x6E9)
  fields [(0, field p 0 4 != 0), (4, field p 4 1 == 1), (5, zeroField p 5 3), (0x28, zeroField p 0x28 24)]
  let k : Trk := { tenant := f.tenant, keyId := BitVec.ofNat 32 (field p 0 4), key := slice p 8 32 }
  let answer (s : State) : State :=
    (s.answer f .done (leBytes 4 (field p 0 4) ++ zeros 4 ++ kcv k.key)).underKey f
      (Config.hpkeExport (wrappedSecret "import" f) (ascii "TRB-SN4 import rsp") 32)
  match s.trk f.tenant k.keyId with
  | some old => do
    need (old.key == k.key) (wrongStateAt 0x20)
    .ok (answer s)
  | none => do
    need (!s.contradicts k) (wrongStateAt 0x20)
    .ok (answer (({ s with keys.trks := s.keys.trks ++ [k], keys.imported := true } : State).supply k))

/-- KEY_IMPORT (R80–R84, R134, R488): `opened` is what the HPKE open answers. -/
def execKeyImport (m : Mbx) (tag : Word) (opened : Option Bytes) (s : State) : Host.Outcome State Fault Refusal :=
  .next (s.start 0x1002 m tag fun f s => do
    let s ← s.wrapped 1753 f (fun s => do
      need (decide ((s.keys.trks.filter (·.tenant == f.tenant)).length < 64)) (noResources 64)
      need (decide (s.keys.trks.length < 16384)) (noResources 16384))
    .ok (s.orAnswer f (match opened with
      | none => .error (notAuthorised 0x6E9)
      | some p => s.importKey f p)))

/-- A session whose key is held: one that counts against the limits of R75. -/
def sessionHeld (x : Session) : Bool := !x.ks.isEmpty

/-- SESSION_OPEN once its payload is open, in `p` (R82, R85): K_s comes from the exporter secret and the TRK, and seals the DONE payload. Where every
32-bit session ID has been given since the reset, no more is: NO_RESOURCES (DESIGN CHOICE, log entry 162). -/
def State.openSession (f : Flight) (p : Bytes) (s : State) : Except Detail State := do
  need (p.length == 48) (notAuthorised 0x6D9)
  fields [(4, zeroField p 4 12)]
  match s.trk f.tenant (BitVec.ofNat 32 (field p 0 4)) with
  | none => .error (keyUnavailable 0x20)
  | some k => do
    let id := s.keys.nextSession
    need (decide (id < 2 ^ 32)) (noResources 0xFFFFFFFF)
    let e := Config.hpkeExport (wrappedSecret "session" f) (ascii "TRB-SN4 session") 48
    let ks := Config.hkdfExpand (Config.hkdfExtract e k.key) (ascii "TRB-SN4 ks") 32
    let md := s.measDigest
    let digest := Config.sha384 (ascii "TRB-SN4 attest" ++ leBytes 4 id ++ slice p 0 4 ++ slice p 0x10 32 ++ md ++
      Config.sha384 (slice f.plain 8 1665))
    let (n, s) := s.draw
    let s := { s with
      keys.sessions := s.keys.sessions.put id { tenant := f.tenant, keyId := k.keyId, ks := ks }, keys.nextSession := id + 1 }
    .ok ((s.answer f .done (leBytes 4 id ++ zeros 4 ++ md ++ Config.akSign n digest)).underKey f ks)

/-- SESSION_OPEN (R75, R82, R85, R488): `opened` is what the HPKE open answers. -/
def execSessionOpen (m : Mbx) (tag : Word) (opened : Option Bytes) (s : State) : Host.Outcome State Fault Refusal :=
  .next (s.start 0x1003 m tag fun f s => do
    let s ← s.wrapped 1737 f (fun s => do
      let held := s.keys.sessions.vals.filter sessionHeld
      need (decide ((held.filter (·.tenant == f.tenant)).length < 16)) (noResources 16)
      need (decide (held.length < 16384)) (noResources 16384))
    .ok (s.orAnswer f (match opened with
      | none => .error (notAuthorised 0x6D9)
      | some p => s.openSession f p)))

/-- SESSION_CLOSE (R90): from its admission the session takes no further command (State.sessionClosing), and the answer follows the responses of those admitted before. -/
def execSessionClose (m : Mbx) (tag : Word) (s : State) : Host.Outcome State Fault Refusal :=
  .next (s.start 0x1004 m tag fun f s => do
    need f.plain.isEmpty (bad 0x0C)
    csnZero f
    .ok ((s.setWork f .closeWait).settle))

/-- KEY_ROTATE (R91, R92, R94, R95). -/
def execKeyRotate (m : Mbx) (tag : Word) (s : State) : Host.Outcome State Fault Refusal :=
  .next (s.start 0x1005 m tag fun f s => do
    opening f 16 16
    let b := f.plain
    fields [(8, zeroField b 8 8)]
    let c ← s.usableColl 0x20 (field b 0 4) f
    match s.trk f.tenant (BitVec.ofNat 32 (field b 4 4)) with
    | none => .error (keyUnavailable 0x24)
    | some k => do
      s.notZeroising f.tenant
      let live := s.liveGensOf c
      need (decide (c.gen < 65535)) (noResources 65535)
      need (decide (live.length < 4)) (noResources 4)
      let c := { c with gens := live ++ [(c.gen + 1, k.keyId, kcv k.key)], gen := c.gen + 1 }
      .ok ((s.setColl c).answer f .done (leBytes 2 c.gen ++ leBytes 2 c.gens.length ++ zeros 4)))

/-! ### Zeroisation -/

/-- The collections a zeroisation makes key-lost: a live generation uses an affected TRK that the module holds (R94, R95). -/
def State.zeroiseColls (scope tenant : Nat) (keyId : Word) (s : State) : List Nat :=
  let hit (c : Collection) (k : Trk) : Bool :=
    k.tenant == ownerOf c.id && (scope == 2 || (k.tenant == tenant && (scope == 1 || k.keyId == keyId))) && (s.liveGensOf c).any (genMatches k)
  (s.index.collections.vals.filter fun c => c.availability != .keyLost && s.keys.trks.any (hit c)).map (·.id)

/-- The collection a command in flight works on: the one its snapshot is bound to, or the one its plaintext names first (R94); a SEARCH_BATCH works
through its items, and SELECT_TOPK and MERGE_PARTIAL name none. -/
def commandColl (f : Flight) : Option Nat :=
  match f.coll with
  | some c => some c
  | none =>
    let op := f.opcode.toNat
    if op / 0x1000 == 2 || op == 0x3001 || op == 0x3002 || op == 0x1005 || op == 0x6040 then some (field f.plain 0 4) else none

/-- A command uses an affected key (R94): by its session, or by what it reads or writes; an item of a batch by its collection. -/
def State.usesKey (z : Zeroise) (f : Flight) (s : State) : Bool :=
  (f.mbx < 4096 && hdrSealed f.hdr && (s.keys.sessions.find f.hdr.session.toNat).any fun x => zeroiseHits z x.tenant x.keyId) ||
    (f.mbx < 2 ^ 40 && f.mbx != 4096 && (commandColl f).any z.collections.contains) ||
    (2 ^ 40 ≤ f.mbx && (f.coll.any z.collections.contains || (s.servedBy f.mbx).any fun x => z.collections.contains x.collection))

/-- Begin a zeroisation (R94, steps 1 and 2): admission stops for the affected sessions, the affected collections become key-lost and lose what has not
committed (R111), and the commands that use an affected key end. -/
def State.beginZeroise (z : Zeroise) (s : State) : State :=
  let s := { s with keys.zeroising := s.keys.zeroising ++ [z] }
  let s := z.collections.foldl (fun s id => s.updColl id fun c => { c.discardUncommitted with availability := .keyLost }) s
  s.host.flights.foldl (fun s f =>
    if f.mbx == z.mbx && f.tag == z.tag then s
    else match s.flight f.mbx f.tag with
      | some f => if s.usesKey z f && (f.work != .fillWait) then s.endCommand f .keyUnavailable else s
      | none => s) s

/-- KEY_ZEROISE (R93, R94). -/
def execKeyZeroise (m : Mbx) (tag : Word) (s : State) : Host.Outcome State Fault Refusal :=
  .next (s.start 0x1006 m tag fun f s => do
    opening f 16 16
    let b := f.plain
    let scope := field b 0 1
    fields [(0, decide (scope ≤ 2)), (1, decide (field b 1 1 < 2)), (2, zeroField b 2 2), (8, zeroField b 8 8)]
    need (scope != 2 || decide (4096 ≤ f.mbx)) (notAuthorised 0x20)
    let keyId : Word := BitVec.ofNat 32 (field b 4 4)
    need (scope != 0 || (s.trk f.tenant keyId).isSome) (bad 0x24)
    let hit := s.zeroiseColls scope f.tenant keyId
    need (scope != 0 || bit (field b 1 1) 0 || hit.isEmpty) (wrongStateAt 0x24)
    let s := s.setWork f .fillWait
    .ok (s.beginZeroise { mbx := f.mbx, tag := f.tag, scope := scope, tenant := f.tenant, keyId := keyId, collections := hit }))

/-- What a zeroised collection still holds: its directory entry. Its rows, extents, commit indices, operations, predicate tombstones and centroid map
are gone (R94, R95). -/
def Collection.zeroised (c : Collection) : Collection :=
  { c.stopCompaction with
    versions := [], ops := [], predicates := [], extents := [], indices := [], oldMaps := [], availability := .keyLost
    map := { version := c.map.version, record := c.map.record }
    segments := c.stopCompaction.segments.map fun x => { x with records := [], waiters := [] } }

/-- The fill of a zeroisation is done and its keys are erased (R94, steps 3 and 4): the state, and the counts KEYS, SESSIONS, COLLECTIONS. -/
def State.endZeroise (z : Zeroise) (s : State) : State × Bytes :=
  let caller := match s.flight z.mbx z.tag with | some f => if z.mbx < 4096 then f.hdr.session.toNat else 0 | none => 0
  let keys := s.keys.trks.filter fun k => zeroiseHits z k.tenant k.keyId
  let sessions := s.keys.sessions.filter fun e => zeroiseHits z e.2.tenant e.2.keyId && sessionHeld e.2
  let s := (s.index.collections.vals.filter fun c => z.collections.contains c.id).foldl (fun s c => s.countFill c) s
  let s := { s with
    keys.zeroising := s.keys.zeroising.erase z
    keys.trks := s.keys.trks.filter fun k => !zeroiseHits z k.tenant k.keyId
    keys.sessions := s.keys.sessions.map fun e =>
      if zeroiseHits z e.2.tenant e.2.keyId then (e.1, { e.2 with exhausted := true, ks := if e.1 == caller then e.2.ks else [] }) else e
    index.collections := s.index.collections.each fun c => if z.collections.contains c.id then c.zeroised else c
    index.poisoned := s.index.poisoned.filter fun p => !z.collections.contains p.collection }
  let s := if z.scope == 2 then
      { s with models := { s.models.freeKv fun _ _ => true with gens := [], loads := [], contexts := [] }, tables.tables := [], tables.prefetch := []
               tables.nexts := [], tables.ahead := [], tables.requests := [] }
    else s
  (s, leBytes 4 keys.length ++ leBytes 4 sessions.length ++ leBytes 4 z.collections.length ++ zeros 4)

/-- No scan job is left on a collection that a zeroisation fills: jobs are done or squashed before their extents are written (R197). -/
def State.fillReady (z : Zeroise) (s : State) : Bool := !s.index.nbus.vals.any fun x => x.jobs.any fun j => z.collections.contains j.collection

/-- ZEROISE_FILL_DONE (R94, R197, R425): KEY_ZEROISE answers with its counts, TENANT_DISABLE with nothing. -/
def execZeroiseFillDone (m : Mbx) (tag : Word) (s : State) : Host.Outcome State Fault Refusal :=
  .next (match s.keys.zeroising.find? fun z => z.mbx == m.key && z.tag == tag && s.fillReady z with
    | none => s
    | some z =>
      let (s, counts) := s.endZeroise z
      match s.flight z.mbx z.tag with
      | some f => s.answer f .done (if z.forDisable then [] else counts)
      | none => s)

end Sys2Proof.Machine
end

