-- ==== Sys2Proof/Machine/Mgmt.lean ====
section
/-!
DEFINITION. The management network: ports, their one TCP connection each, records and keepalives (R442, R443, R470, R478).
-/
namespace Sys2Proof.Machine

/-- A management port. -/
def State.port (p : Nat) (s : State) : MgmtPort := s.host.ports.getD p {}

/-- Change a management port. -/
def State.updPort (p : Nat) (g : MgmtPort → MgmtPort) (s : State) : State := { s with host.ports := s.host.ports.modify p g }

/-- A port is enabled by its strap and its dies are powered (R470, Table 18-5). -/
def State.portUp (p : Nat) (s : State) : Bool := s.power.straps.mgmtEn.getLsbD p && s.serving

/-- Close a port's connection (R442). -/
def State.closePort (p : Nat) (s : State) : State := s.updPort p fun x => { x with connected := false }

/-- A record whose LENGTH disagrees breaks the framing: the connection closes, the event is counted under INCOMPLETE_PACKET
and logged, and the mailbox does not halt (R442). -/
def State.breakFraming (p : Nat) (s : State) : State :=
  ((s.closePort p).mbxViolation 4096 .incompletePacket).logViolation moduleKey .incompletePacket

/-- MGMT_CONNECTION_OPEN (R442): one connection at a time; responses waiting for a connection go to it. -/
def execMgmtConnectionOpen (p : Fin 2) (s : State) : Host.Outcome State Fault Refusal :=
  .next (if s.portUp p && !(s.port p).connected then
    s.updPort p fun x => { x with link := true, connected := true, lastRx := s.clock, lastTx := s.clock }
  else s)

/-- MGMT_CONNECTION_CLOSE (R443). -/
def execMgmtConnectionClose (p : Fin 2) (s : State) : Host.Outcome State Fault Refusal :=
  .next (s.closePort p)

/-- MGMT_PORT_LINK_LOSS (R443): logged; nothing else changes while one transport remains. -/
def execMgmtPortLinkLoss (p : Fin 2) (s : State) : Host.Outcome State Fault Refusal :=
  .next (if (s.port p).link then (s.updPort p fun x => { x with link := false, connected := false }).logUnit p else s)

/-- MGMT_RECORD_PACKET (R442): a KIND 1 record delivers one management mailbox packet, padded as on the ring; the checks of
Table 2-13 follow. -/
def execMgmtRecordPacket (p : Fin 2) (length : Nat) (packet : Packet) (s : State) : Host.Outcome State Fault Refusal :=
  let h := parseHeader packet.header
  .next (if s.portUp p && (s.port p).connected then
    let s := s.updPort p fun x => { x with lastRx := s.clock }
    if h.length.toNat > 16777216 || length ≠ 64 * packetSlots h.length.toNat then s.breakFraming p
    else if headerCrc packet.header != h.crc then s.refuse 4096 (.port p) { h with opcode := 0 } (violation 0x14 .hdrCrc)
    else match s.submit 4096 (.port p) h packet s.clock with
      | .wait s => s
      | .taken s => s
  else s)

/-- MGMT_RECORD_SPDM (R442): a KIND 2 record delivers one SPDM message; its request is a row of its own. -/
def execMgmtRecordSpdm (p : Fin 2) (length : Nat) (msg : Bytes) (s : State) : Host.Outcome State Fault Refusal :=
  .next (if s.portUp p && (s.port p).connected then
    if length ≠ msg.length then s.breakFraming p else s.updPort p fun x => { x with lastRx := s.clock }
  else s)

/-- MGMT_KEEPALIVE (R442): a KIND 3 record is received, or one is sent after 1 s without a record. -/
def execMgmtKeepalive (p : Fin 2) (received : Bool) (s : State) : Host.Outcome State Fault Refusal :=
  .next (if s.portUp p && (s.port p).connected then
    if received then s.updPort p fun x => { x with lastRx := s.clock }
    else if (s.port p).lastTx + 1000000000 ≤ s.clock then
      (s.updPort p fun x => { x with lastTx := s.clock }).emit (.keepalive p)
    else s
  else s)

/-- MGMT_CONNECTION_TIMEOUT (R442): 5 s without a record. -/
def execMgmtConnectionTimeout (p : Fin 2) (s : State) : Host.Outcome State Fault Refusal :=
  .next (if (s.port p).connected && decide ((s.port p).lastRx + 5000000000 ≤ s.clock) then s.closePort p else s)

/-- MGMT_RESPONSE_DISCARD (R443): a response for a port has had no open connection for 60 s. -/
def execMgmtResponseDiscard (p : Fin 2) (s : State) : Host.Outcome State Fault Refusal :=
  .next (match s.host.done.find? (fun d => d.path == .port p && (s.portFor p).isNone && decide (d.since + 60000000000 ≤ s.clock)) with
    | some d => s.discardResponse d
    | none => s)

end Sys2Proof.Machine
end

