-- ==== Sys2Proof/Machine/Pins.lean ====
section
/-!
DEFINITION. The PCIe reset, clock losses, FLASH_PG, the standby supply, and the always-on domain's answers on the I3C sideband
(R454, R470, R472, R473, R475, R480, R486).
-/
namespace Sys2Proof.Machine

/-! ### The PCIe reset (R475) -/

/-- The response of a command that came by a ring or a window can no longer be written. -/
def lostPath : Path → Bool
  | .port _ => false
  | _ => true

/-- The block of a mailbox after the reset: every register at its reset value, RESETTING while a command of it is in flight (R30, R40). -/
def State.resetBlock (s : State) (m : Nat) : Mailbox := { state := if s.inFlight m = 0 then .disabled else .resetting }

/-- A window after the reset: its flushed values, and its configuration at reset values, still bound. -/
def endpointWindow (w : Window) : Window :=
  { winFlushed w with enable := false, headroom := 4, timeout := 10, flushDone := false, pv := false, lastPv := none, pvCount := 0 }

/-- A command whose remaining records had nowhere to go once its stream was freed ends with its status. -/
def State.endStreaming (s : State) (f : Flight) : State :=
  match f.work with
  | .streaming _ st p => s.answer f st (p.getD [])
  | _ => s

/-- The reset of the PCIe endpoint (R475). -/
def State.endpointReset (s : State) : State :=
  let flight (f : Flight) : Flight := { f with discard := f.discard || lostPath f.path }
  let decided (d : Done) : Done := { d with discard := d.discard || lostPath d.path }
  let s := { s with
    host.mailboxes := s.host.mailboxes.keys.map fun m => (m, s.resetBlock m)
    host.held := [], host.streams := [], host.msix := [], host.pba := [], host.glbErr := 0, host.glbPv := 0, host.lastRead := 0
    host.windows := s.host.windows.each endpointWindow
    host.flights := s.host.flights.map flight, host.done := s.host.done.map decided
    power.pcieUp := false }
  s.host.flights.foldl State.endStreaming s

/-- An event that resets the endpoint, in every season but Winter. -/
def State.pcieReset (s : State) : State := if s.power.season == .winter then s else s.endpointReset

/-- PERST_N_ASSERT (R475). -/
def execPerstNAssert (s : State) : Host.Outcome State Fault Refusal :=
  .next ({ s with pins.perstN := false } : State).pcieReset

/-- PERST_N_DEASSERT (R475): with the reference clock present, the endpoint becomes configuration-ready. -/
def execPerstNDeassert (s : State) : Host.Outcome State Fault Refusal :=
  .next { s with pins.perstN := true, pins.pcieClk := true, power.pcieUp := s.power.pcieUp || s.operating }

/-- PCIE_REFCLK_LOSS (R473, R475): as PERST_N, and logged. -/
def execPcieRefclkLoss (s : State) : Host.Outcome State Fault Refusal :=
  .next (if s.pins.pcieClk then
    let s := ({ s with pins.pcieClk := false } : State).pcieReset
    if s.operating then s.logUnit 2 else s
  else s)

/-! ### Other clocks and supplies -/

/-- SYS_REFCLK_LOSS (R473): logged, and the flush runs on the internal oscillator; both clocks must be back before the module leaves reset. -/
def execSysRefclkLoss (hub : Fin 2) (s : State) : Host.Outcome State Fault Refusal :=
  let s := { s with pins.sysClk := s.pins.sysClk &&& ~~~(1#2 <<< hub.val) }
  .next (if s.operating then (s.logUnit hub.val).powerFails 5 else s)

/-- FLASH_PG_LOW (R472): the flash signals are not driven; 10 µs of it in Summer or Autumn drain is a hold-up warning. -/
def execFlashPgLow (lowUs : Nat) (s : State) : Host.Outcome State Fault Refusal :=
  let s := { s with pins.flashPg := false, power.flashDriven := false }
  .next (if 10 ≤ lowUs && (s.power.season == .summer || s.power.season == .drain) then s.powerFails 6 else s)

/-- FLASH_PG_HIGH (R472): the flash signals are driven again, where the channels are powered. -/
def execFlashPgHigh (s : State) : Host.Outcome State Fault Refusal :=
  .next { s with pins.flashPg := true, power.flashDriven := s.power.flashDriven || s.operating }

/-- THERM_SB_LOSS (R486): the latch clears; the trip stays recorded in retention memory only. -/
def execThermSbLoss (s : State) : Host.Outcome State Fault Refusal :=
  .next { s with pins.thermSb := false, power.trip := false }

/-- THERM_TRIP_N is asserted: the trip is latched and THERM_SB powers the output (R464, R486). -/
def State.thermTripAsserted (s : State) : Bool := s.power.trip && s.pins.thermSb

/-- WP_N is driven low: FLASH_PG is low, or the flush marker has been verified and the module has not left reset since (R479). -/
def State.writeProtected (s : State) : Bool := !s.pins.flashPg || (s.power.flushed && s.power.lastFlushOk)

/-! ### The I3C sideband (R454, R480) -/

/-- The always-on domain sends an MCTP message, once it runs (Table 19-6). -/
def State.sideband (msg : Bytes) (s : State) : State := if s.pins.aoUp then s.emit (.mctp msg) else s

/-- The FLAGS of STATUS (R454). -/
def State.statusFlags (s : State) : Nat :=
  flag (s.power.trip || s.power.tripRetained) + 2 * flag s.power.overvoltage + 4 * flag s.power.lastFlushOk

/-- I3C_STATUS (R454): SEASON, PROFILE_SEL as latched, FLAGS; in every season. -/
def execI3cStatus (s : State) : Host.Outcome State Fault Refusal :=
  .next (s.sideband (vendorMessage 1
    (leBytes 1 (seasonCode s.power.season) ++ leBytes 1 s.power.straps.profileSel.val ++ leBytes 1 s.statusFlags ++ zeros 5)))

/-- The always-on domain's answer to an MCTP control request, from its instance byte, its command and what follows: completion code and data, and the
endpoint ID it sets (the codes are those of the MCTP base specification, PRESUMED, log entry 12). -/
def State.controlAnswer (cmd : Nat) (data : Bytes) (s : State) : Bytes × Byte :=
  let eid := s.power.mctpEid
  if cmd = 1 then
    let e := data.getD 1 0
    if data.length = 2 && e != 0 && e != 0xFF then ([0x00, 0x00, e, 0x00], e) else ([0x02], eid)
  else if cmd = 2 then ([0x00, eid, 0x00, 0x00], eid)
  else if cmd = 4 then ([0x00, 0x01, 0xF1, 0xF3, 0xF1, 0x00], eid)
  else if cmd = 5 then ([0x00, 0x02, 0x05, 0x7F], eid)
  else if cmd = 6 then
    if data.headD 1 = 0 then ([0x00, 0xFF, 0x01, 0x00, 0x00, 0xF9, 0x4E, 0x00, 0x01], eid) else ([0x02], eid)
  else ([0x05], eid)

/-- MCTP_CONTROL_MESSAGE (R454): a control request, type 0x00, is answered with the request bit cleared. -/
def execMctpControlMessage (msg : Bytes) (s : State) : Host.Outcome State Fault Refusal :=
  .next (match msg with
    | t :: i :: c :: data =>
      if t == 0 && i.getLsbD 7 && s.pins.aoUp then
        let a := s.controlAnswer c.toNat data
        ({ s with power.mctpEid := a.2 } : State).emit (.mctp ([0x00, i &&& 0x7F, c] ++ a.1))
      else s
    | _ => s)

/-- I3C_DYNAMIC_ADDRESS_ASSIGN (R480): from now on the target answers at this address, and not at its static one. -/
def execI3cDynamicAddressAssign (addr : BitVec 7) (s : State) : Host.Outcome State Fault Refusal :=
  .next (if s.pins.aoUp then { s with power.i3cDynamic := some addr.toNat } else s)

end Sys2Proof.Machine
end

