-- ==== Sys2Proof/Machine/TenantCommands.lean ====
section
/-!
DEFINITION. Tenants, meters, the event log, diagnostics (R423–R425, R444–R448).
-/
namespace Sys2Proof.Machine

/-- Read a TENANT_CONFIGURE plaintext (Table 17-2). -/
def readTenant (b : Bytes) : TenantConfig where
  cls := field b 2 1
  rate := field b 4 4
  burst := field b 8 4
  inflight := field b 0xC 2
  hbmQuota := field b 0x10 4
  flashQuota := field b 0x14 4

/-- Control tenants but one. -/
def State.otherControls (t : Nat) (s : State) : Nat := (s.tenants.config.filter fun e => e.1 != t && e.2.cls == 2).length

/-- The bucket under a new configuration (R424): full when RATE becomes nonzero, capped at a new BURST, none without a RATE. -/
def State.rebucket (t : Nat) (c : TenantConfig) (s : State) : State :=
  let old := s.tenantConfig t
  let b :=
    if c.rate == 0 || old.rate == 0 then s.tenants.bucket.del t
    else s.tenants.bucket.put t (min (s.bucketNow t) (bucketDepth c * 1000000000), s.clock)
  { s with tenants.bucket := b }

/-- TENANT_CONFIGURE (R423, R424): it also enables a disabled tenant again (R425). -/
def execTenantConfigure (m : Mbx) (tag : Word) (s : State) : Host.Outcome State Fault Refusal :=
  .next (s.start 0x0020 m tag fun f s => do
    opening f 24 24
    let b := f.plain
    let c := readTenant b
    let t := field b 0 2
    fields [(0x00, decide (t < 4096)), (0x02, decide (c.cls ≤ 2)), (0x03, field b 3 1 == 0),
      (0x08, if c.rate == 0 then c.burst == 0 else decide (c.rate ≤ c.burst * 1000)), (0x0C, 1 ≤ c.inflight && c.inflight ≤ 4096),
      (0x0E, zeroField b 0xE 2), (0x10, decide (c.hbmQuota ≤ 1280)), (0x14, decide (c.flashQuota ≤ 262144))]
    need (c.cls != 2 || decide (s.otherControls t < 64)) (noResources 64)
    let s := s.rebucket t c
    let s := { s with tenants.config := s.tenants.config.put t c, tenants.disabled := s.tenants.disabled.filter (· != t) }
    .ok (s.answer f .done []))

/-- TENANT_DISABLE (R425). -/
def execTenantDisable (m : Mbx) (tag : Word) (s : State) : Host.Outcome State Fault Refusal :=
  .next (s.start 0x0021 m tag fun f s => do
    opening f 8 8
    let b := f.plain
    let t := field b 0 2
    fields [(0, decide (t < 4096)), (2, decide (field b 2 2 < 2)), (4, zeroField b 4 4)]
    let s := { s with tenants.disabled := if s.tenants.disabled.contains t then s.tenants.disabled else t :: s.tenants.disabled }
    if bit (field b 2 2) 0 then
      .ok ((s.setWork f .fillWait).beginZeroise
        { mbx := f.mbx, tag := f.tag, scope := 1, tenant := t, keyId := 0, collections := s.zeroiseColls 1 t 0, forDisable := true })
    else .ok ((s.setWork f (.disableWait t)).settle))

/-! ### Meters -/

/-- The meter block of a tenant, or of the module (Table 17-7): the counters, and the gauges of what is held now. -/
def meterBytes (x : Meters) (hbm flash : Nat) : Bytes :=
  ((List.range 19).flatMap fun i =>
    leBytes 8 (if i = 16 then hbm else if i = 17 then flash else x.ctr.getD (8 * i) 0)) ++
  ((List.range 10).flatMap fun i => leBytes 4 (x.ctr.getD (0x98 + 4 * i) 0)) ++ zeros 64

/-- The speculation account (Table 8-3). -/
def spaBytes (x : Meters) : Bytes := (List.range 10).flatMap fun i => leBytes 8 (x.spa.getD (8 * i) 0)

/-- Tenants that hold anything: those whose gauges the module's totals sum. -/
def State.holders (s : State) : List Nat :=
  ((s.index.collections.vals.map fun c => ownerOf c.id) ++ (s.tables.tables.vals.map fun x => ownerOf x.id) ++
    (s.models.gens.map fun g => ownerOf g.handle) ++ (s.models.loads.map (·.tenant))).eraseDups

/-- A meter record (R445): its head, the meter block and the speculation account. -/
def State.meterRecord (t : Nat) (s : State) : Bytes :=
  let x := s.tenants.meters.getD t {}
  let sum (g : Nat → Nat) : Nat := if t = moduleKey then (s.holders.map g).foldl (· + ·) 0 else g t
  leBytes 2 t ++ leBytes 1 (s.callerClass t) ++ zeros 1 ++ leBytes 8 (max x.since s.tenants.resetAt) ++ zeros 4 ++
    meterBytes x (sum fun t => s.hbmCharged t) (sum fun t => s.flashMapped t) ++ spaBytes x

/-- METER_READ (R445). -/
def execMeterRead (m : Mbx) (tag : Word) (s : State) : Host.Outcome State Fault Refusal :=
  .next (s.start 0x7020 m tag fun f s => do
    need f.plain.isEmpty (bad 0x0C)
    csnZero f
    .ok (s.answer f .done (s.meterRecord f.tenant)))

/-- Clear every counter of a record (R445). -/
def State.clearMeters (t : Nat) (s : State) : State := { s with tenants.meters := s.tenants.meters.put t { since := s.fabTime } }

/-- METER_READ_ALL (R445): whole records; those returned are cleared where asked. -/
def execMeterReadAll (m : Mbx) (tag : Word) (s : State) : Host.Outcome State Fault Refusal :=
  .next (s.start 0x7021 m tag fun f s => do
    opening f 8 8
    let b := f.plain
    let first := field b 0 2
    let n := field b 2 2
    let flags := field b 4 2
    fields [(0, decide (first < 4096)), (2, 1 ≤ n && n ≤ 4096 && first + n ≤ 4096), (4, decide (flags < 4)), (6, zeroField b 6 2)]
    let all := (List.range n).map (first + ·) ++ (if bit flags 0 then [moduleKey] else [])
    let fit := all.take (s.rspPlain f.mbx / 352)
    let body := fit.flatMap fun t => s.meterRecord t
    let s := if bit flags 1 then fit.foldl (fun s t => s.clearMeters t) s else s
    .ok (s.answer f (if fit.length = all.length then .done else .doneTruncated) body))

/-! ### The event log -/

/-- The bytes of a log entry (Table 17-8). -/
def logEntryBytes (e : LogEntry) : Bytes :=
  leBytes 8 e.seq ++ leBytes 8 e.time ++ leBytes 1 e.kind ++ leBytes 1 e.status ++ leBytes 1 e.reason ++ zeros 1 ++ leBytes 2 e.tenant ++
    leBytes 2 e.opcode ++ leBytes 4 e.tag.toNat ++ leBytes 4 e.detail

/-- LOG_READ (R447): entries that do not fit the response are cut off whole. -/
def execLogRead (m : Mbx) (tag : Word) (s : State) : Host.Outcome State Fault Refusal :=
  .next (s.start 0x7030 m tag fun f s => do
    opening f 16 16
    let b := f.plain
    let from_ := max (field b 0 8) 1
    let max_ := field b 8 2
    fields [(8, 1 ≤ max_ && max_ ≤ 4096), (10, zeroField b 10 6)]
    let w := s.tenants.logNext
    let o := match s.tenants.log with | e :: _ => e.seq | [] => w
    let st := min (max from_ o) w
    let want := min max_ (w - st)
    let n := min want ((s.rspPlain f.mbx - 24) / 32)
    let es := (s.tenants.log.filter fun e => st ≤ e.seq).take n
    .ok (s.answer f (if n = want then .done else .doneTruncated)
      (leBytes 8 st ++ leBytes 8 (st + n) ++ leBytes 4 (min (o - from_) 0xFFFFFFFF) ++ leBytes 4 n ++ es.flatMap logEntryBytes)))

/-- LOG_INTERVAL_END (R446): a whole second of fabric time has passed since the interval began. -/
def execLogIntervalEnd (s : State) : Host.Outcome State Fault Refusal :=
  .next (if s.tenants.logInterval / 1000000000 < s.fabTime / 1000000000 then s.endLogInterval else s)

/-! ### Diagnostics -/

/-- A test of a kind is running (R448). -/
def State.diagRunning (test : Nat) (s : State) : Bool :=
  s.host.flights.any fun f => match f.work with | .diagWait t _ => t == test | _ => false

/-- DIAG_RUN (R448): the test begins; while it runs the same row ends it, with what the units found. -/
def execDiagRun (m : Mbx) (tag : Word) (pass fail durationUs : Word) (s : State) : Host.Outcome State Fault Refusal :=
  .next (match s.flight m.key tag with
    | none => s
    | some f => match f.work with
      | .diagWait _ _ => s.answer f .done (leBytes 4 pass.toNat ++ leBytes 4 fail.toNat ++ leBytes 4 durationUs.toNat ++ zeros 20)
      | _ => s.start 0x7031 m tag fun f s => do
        opening f 8 8
        let b := f.plain
        let test := field b 0 1
        let target := field b 2 2
        fields [(0, 1 ≤ test && test ≤ 4), (1, field b 1 1 == 0), (2, (test != 3 || decide (target ≤ 19)) && (test != 4 || decide (target ≤ 63))),
          (4, zeroField b 4 4)]
        need (!s.diagRunning test) (busyRetry 1000)
        .ok (s.setWork f (.diagWait test target)))

end Sys2Proof.Machine
end

