-- ==== Sys2Proof/Machine/Dispatch.lean ====
section
/-!
DEFINITION. What each command does: one arm per constructor, each one direct call of its meaning.
-/
namespace Sys2Proof.Machine

/-- The effect of one command on everything but the queue. -/
def exec (i : Instr) (s : State) : Host.Outcome State Fault Refusal :=
  match i with
  | .bar0AccessViolation write off width => Sys2Proof.Machine.execBar0AccessViolation write off width s
  | .registerWrite off wide value => Sys2Proof.Machine.execRegisterWrite off wide value s
  | .doorbellWrite m w => Sys2Proof.Machine.execDoorbellWrite m w s
  | .mbxEnable m fields => Sys2Proof.Machine.execMbxEnable m fields s
  | .mbxDisable m fields => Sys2Proof.Machine.execMbxDisable m fields s
  | .mbxCtrlReset m => Sys2Proof.Machine.execMbxCtrlReset m s
  | .mbxResetComplete m => Sys2Proof.Machine.execMbxResetComplete m s
  | .irqRearm m => Sys2Proof.Machine.execIrqRearm m s
  | .rspConsWrite m value => Sys2Proof.Machine.execRspConsWrite m value s
  | .streamConsWrite st value => Sys2Proof.Machine.execStreamConsWrite st value s
  | .piwOverrunClear w => Sys2Proof.Machine.execPiwOverrunClear w s
  | .piwCtrlFlush w => Sys2Proof.Machine.execPiwCtrlFlush w s
  | .piwFlushComplete w => Sys2Proof.Machine.execPiwFlushComplete w s
  | .piwDataWrite w off bytes => Sys2Proof.Machine.execPiwDataWrite w off bytes s
  | .piwSlotWrite w slot => Sys2Proof.Machine.execPiwSlotWrite w slot s
  | .piwPacketTimeout w => Sys2Proof.Machine.execPiwPacketTimeout w s
  | .piwPacketAdmit w opens plain => Sys2Proof.Machine.execPiwPacketAdmit w opens plain s
  | .mailboxTurn packets => Sys2Proof.Machine.execMailboxTurn packets s
  | .incompletePacket m => Sys2Proof.Machine.execIncompletePacket m s
  | .admissionResume m => Sys2Proof.Machine.execAdmissionResume m s
  | .responseWrite m count => Sys2Proof.Machine.execResponseWrite m count s
  | .irqModTimer m => Sys2Proof.Machine.execIrqModTimer m s
  | .streamRecordWrite st => Sys2Proof.Machine.execStreamRecordWrite st s
  | .streamWaitTimeout st => Sys2Proof.Machine.execStreamWaitTimeout st s
  | .streamAbortRecord st => Sys2Proof.Machine.execStreamAbortRecord st s
  | .identify m tag => Sys2Proof.Machine.execIdentify m tag s
  | .getStatus m tag => Sys2Proof.Machine.execGetStatus m tag s
  | .nop m tag => Sys2Proof.Machine.execNop m tag s
  | .setProfile m tag => Sys2Proof.Machine.execSetProfile m tag s
  | .profileSwitch => Sys2Proof.Machine.execProfileSwitch s
  | .setSeason m tag => Sys2Proof.Machine.execSetSeason m tag s
  | .tenantConfigure m tag => Sys2Proof.Machine.execTenantConfigure m tag s
  | .tenantDisable m tag => Sys2Proof.Machine.execTenantDisable m tag s
  | .streamOpen m tag => Sys2Proof.Machine.execStreamOpen m tag s
  | .streamClose m tag => Sys2Proof.Machine.execStreamClose m tag s
  | .stopCommand m tag => Sys2Proof.Machine.execStopCommand m tag s
  | .piwBind m tag => Sys2Proof.Machine.execPiwBind m tag s
  | .piwUnbind m tag => Sys2Proof.Machine.execPiwUnbind m tag s
  | .getCertificates m tag => Sys2Proof.Machine.execGetCertificates m tag s
  | .keyImport m tag opened => Sys2Proof.Machine.execKeyImport m tag opened s
  | .sessionOpen m tag opened => Sys2Proof.Machine.execSessionOpen m tag opened s
  | .sessionClose m tag => Sys2Proof.Machine.execSessionClose m tag s
  | .keyRotate m tag => Sys2Proof.Machine.execKeyRotate m tag s
  | .keyZeroise m tag => Sys2Proof.Machine.execKeyZeroise m tag s
  | .zeroiseFillDone m tag => Sys2Proof.Machine.execZeroiseFillDone m tag s
  | .collectionCreate m tag => Sys2Proof.Machine.execCollectionCreate m tag s
  | .collectionDrop m tag => Sys2Proof.Machine.execCollectionDrop m tag s
  | .collectionDropComplete collection => Sys2Proof.Machine.execCollectionDropComplete collection s
  | .collectionDescribe m tag => Sys2Proof.Machine.execCollectionDescribe m tag s
  | .insertVectors m tag => Sys2Proof.Machine.execInsertVectors m tag s
  | .insertText m tag => Sys2Proof.Machine.execInsertText m tag s
  | .upsertVectors m tag => Sys2Proof.Machine.execUpsertVectors m tag s
  | .upsertText m tag => Sys2Proof.Machine.execUpsertText m tag s
  | .deleteItems m tag => Sys2Proof.Machine.execDeleteItems m tag s
  | .deleteByFilter m tag => Sys2Proof.Machine.execDeleteByFilter m tag s
  | .operationAck collection csn programmed => Sys2Proof.Machine.execOperationAck collection csn programmed s
  | .operationApply collection done => Sys2Proof.Machine.execOperationApply collection done s
  | .commitPublish collection => Sys2Proof.Machine.execCommitPublish collection s
  | .encoderBatchClose => Sys2Proof.Machine.execEncoderBatchClose s
  | .commitWait m tag => Sys2Proof.Machine.execCommitWait m tag s
  | .commitWaitComplete m tag => Sys2Proof.Machine.execCommitWaitComplete m tag s
  | .segmentSeal m tag => Sys2Proof.Machine.execSegmentSeal m tag s
  | .segmentSealTrigger collection tombstones => Sys2Proof.Machine.execSegmentSealTrigger collection tombstones s
  | .segmentSealed collection seg failed => Sys2Proof.Machine.execSegmentSealed collection seg failed s
  | .segmentRetire collection seg => Sys2Proof.Machine.execSegmentRetire collection seg s
  | .tombstoneMaterialised collection csn => Sys2Proof.Machine.execTombstoneMaterialised collection csn s
  | .compact m tag => Sys2Proof.Machine.execCompact m tag s
  | .autoCompactionStart collection => Sys2Proof.Machine.execAutoCompactionStart collection s
  | .compactionListSwitch collection lost => Sys2Proof.Machine.execCompactionListSwitch collection lost s
  | .getItems m tag => Sys2Proof.Machine.execGetItems m tag s
  | .rebalancePublish collection => Sys2Proof.Machine.execRebalancePublish collection s
  | .legacyRedistributeDone collection slot => Sys2Proof.Machine.execLegacyRedistributeDone collection slot s
  | .mapRunRepair collection run recordHolds => Sys2Proof.Machine.execMapRunRepair collection run recordHolds s
  | .collectionRebuild collection => Sys2Proof.Machine.execCollectionRebuild collection s
  | .collectionRebuildDone collection => Sys2Proof.Machine.execCollectionRebuildDone collection s
  | .search m tag => Sys2Proof.Machine.execSearch m tag s
  | .searchRerank m tag => Sys2Proof.Machine.execSearchRerank m tag s
  | .searchBatch m tag => Sys2Proof.Machine.execSearchBatch m tag s
  | .refinePrefetch m tag => Sys2Proof.Machine.execRefinePrefetch m tag s
  | .speculationSquash m tag => Sys2Proof.Machine.execSpeculationSquash m tag s
  | .commandDeadlineExpire m tag => Sys2Proof.Machine.execCommandDeadlineExpire m tag s
  | .subqueryHedge m tag shard replicas => Sys2Proof.Machine.execSubqueryHedge m tag shard replicas s
  | .refineReadHedge m tag place => Sys2Proof.Machine.execRefineReadHedge m tag place s
  | .selectTopk m tag => Sys2Proof.Machine.execSelectTopk m tag s
  | .mergePartial m tag => Sys2Proof.Machine.execMergePartial m tag s
  | .gateCompaction m tag => Sys2Proof.Machine.execGateCompaction m tag s
  | .scanJob nbu => Sys2Proof.Machine.execScanJob nbu s
  | .scanJobComplete nbu => Sys2Proof.Machine.execScanJobComplete nbu s
  | .thresholdUpdate nbu m tag => Sys2Proof.Machine.execThresholdUpdate nbu m tag s
  | .nbuMarkWrite collection csn id ins => Sys2Proof.Machine.execNbuMarkWrite collection csn id ins s
  | .granuleUncorrectable nbu addr hit reader => Sys2Proof.Machine.execGranuleUncorrectable nbu addr hit reader s
  | .extentRebuildDone collection list extent ok => Sys2Proof.Machine.execExtentRebuildDone collection list extent ok s
  | .runRetire nbu run => Sys2Proof.Machine.execRunRetire nbu run s
  | .patrolScrub nbu corrected complete => Sys2Proof.Machine.execPatrolScrub nbu corrected complete s
  | .nbuFailed nbu => Sys2Proof.Machine.execNbuFailed nbu s
  | .pseudoChannelOffline nbu => Sys2Proof.Machine.execPseudoChannelOffline nbu s
  | .nbuDiagRead m tag => Sys2Proof.Machine.execNbuDiagRead m tag s
  | .modelLoad m tag => Sys2Proof.Machine.execModelLoad m tag s
  | .modelLoadCommitDone load => Sys2Proof.Machine.execModelLoadCommitDone load s
  | .loadIdleTimeout load => Sys2Proof.Machine.execLoadIdleTimeout load s
  | .modelRetire m tag => Sys2Proof.Machine.execModelRetire m tag s
  | .placementLoad m tag => Sys2Proof.Machine.execPlacementLoad m tag s
  | .placementInForce => Sys2Proof.Machine.execPlacementInForce s
  | .encode m tag => Sys2Proof.Machine.execEncode m tag s
  | .scorePairs m tag => Sys2Proof.Machine.execScorePairs m tag s
  | .generate m tag => Sys2Proof.Machine.execGenerate m tag s
  | .generateTokenStep m tag => Sys2Proof.Machine.execGenerateTokenStep m tag s
  | .vocabLoad m tag => Sys2Proof.Machine.execVocabLoad m tag s
  | .vocabRetire m tag => Sys2Proof.Machine.execVocabRetire m tag s
  | .tokenize m tag => Sys2Proof.Machine.execTokenize m tag s
  | .tokenizeContextExpire ctx => Sys2Proof.Machine.execTokenizeContextExpire ctx s
  | .detokenize m tag => Sys2Proof.Machine.execDetokenize m tag s
  | .grammarLoad m tag => Sys2Proof.Machine.execGrammarLoad m tag s
  | .grammarRetire m tag => Sys2Proof.Machine.execGrammarRetire m tag s
  | .tableCreate m tag => Sys2Proof.Machine.execTableCreate m tag s
  | .tableDrop m tag => Sys2Proof.Machine.execTableDrop m tag s
  | .tableLookup m tag => Sys2Proof.Machine.execTableLookup m tag s
  | .tableUpdate m tag => Sys2Proof.Machine.execTableUpdate m tag s
  | .tableRebalance m tag => Sys2Proof.Machine.execTableRebalance m tag s
  | .tableStepClose table => Sys2Proof.Machine.execTableStepClose table s
  | .tableBlockMigrate table => Sys2Proof.Machine.execTableBlockMigrate table s
  | .tablePrefetch m table => Sys2Proof.Machine.execTablePrefetch m table s
  | .tablePrefetchExpire m table => Sys2Proof.Machine.execTablePrefetchExpire m table s
  | .fabricStatus m tag => Sys2Proof.Machine.execFabricStatus m tag s
  | .routeLoad m tag => Sys2Proof.Machine.execRouteLoad m tag s
  | .routeActivate => Sys2Proof.Machine.execRouteActivate s
  | .gateListLoad m tag => Sys2Proof.Machine.execGateListLoad m tag s
  | .gateListActivate port => Sys2Proof.Machine.execGateListActivate port s
  | .partitionSet m tag answer => Sys2Proof.Machine.execPartitionSet m tag answer s
  | .fenceSet m tag => Sys2Proof.Machine.execFenceSet m tag s
  | .compositionJoin m tag outside => Sys2Proof.Machine.execCompositionJoin m tag outside s
  | .compositionJoinTimeout m tag => Sys2Proof.Machine.execCompositionJoinTimeout m tag s
  | .compositionLeave m tag => Sys2Proof.Machine.execCompositionLeave m tag s
  | .replicaSet m tag answer => Sys2Proof.Machine.execReplicaSet m tag answer s
  | .mediaStatus m tag => Sys2Proof.Machine.execMediaStatus m tag s
  | .hostRegionGrant m tag => Sys2Proof.Machine.execHostRegionGrant m tag s
  | .hostRegionRevoke m tag => Sys2Proof.Machine.execHostRegionRevoke m tag s
  | .hostRegionFailed region timeout => Sys2Proof.Machine.execHostRegionFailed region timeout s
  | .hostCacheFill region collection seg sector => Sys2Proof.Machine.execHostCacheFill region collection seg sector s
  | .meterRead m tag => Sys2Proof.Machine.execMeterRead m tag s
  | .meterReadAll m tag => Sys2Proof.Machine.execMeterReadAll m tag s
  | .logRead m tag => Sys2Proof.Machine.execLogRead m tag s
  | .diagRun m tag pass fail durationUs => Sys2Proof.Machine.execDiagRun m tag pass fail durationUs s
  | .logIntervalEnd => Sys2Proof.Machine.execLogIntervalEnd s
  | .lowerTierLate m tag read => Sys2Proof.Machine.execLowerTierLate m tag read s
  | .hostTierReadComplete m tag read outcome => Sys2Proof.Machine.execHostTierReadComplete m tag read outcome s
  | .flashReadComplete m tag read quad step mismatch => Sys2Proof.Machine.execFlashReadComplete m tag read quad step mismatch s
  | .flashProgramComplete stream hub units collection segment => Sys2Proof.Machine.execFlashProgramComplete stream hub units collection segment s
  | .programFail stream hub member verify => Sys2Proof.Machine.execProgramFail stream hub member verify s
  | .eraseFail quad => Sys2Proof.Machine.execEraseFail quad s
  | .quadBlockErase quad => Sys2Proof.Machine.execQuadBlockErase quad s
  | .journalSectorProgram demand => Sys2Proof.Machine.execJournalSectorProgram demand s
  | .checkpointStart => Sys2Proof.Machine.execCheckpointStart s
  | .checkpointComplete => Sys2Proof.Machine.execCheckpointComplete s
  | .mapPageEvict => Sys2Proof.Machine.execMapPageEvict s
  | .gcStart => Sys2Proof.Machine.execGcStart s
  | .quadBlockRefresh quad => Sys2Proof.Machine.execQuadBlockRefresh quad s
  | .wearLevelMove die => Sys2Proof.Machine.execWearLevelMove die s
  | .flashPatrol quad weak => Sys2Proof.Machine.execFlashPatrol quad weak s
  | .lowSpaceEnter => Sys2Proof.Machine.execLowSpaceEnter s
  | .lowSpaceExit => Sys2Proof.Machine.execLowSpaceExit s
  | .dieFailed die => Sys2Proof.Machine.execDieFailed die s
  | .channelFailed channel => Sys2Proof.Machine.execChannelFailed channel s
  | .dieRebuildDone die => Sys2Proof.Machine.execDieRebuildDone die s
  | .sharedPublish collection seg => Sys2Proof.Machine.execSharedPublish collection seg s
  | .leaseRenew owner => Sys2Proof.Machine.execLeaseRenew owner s
  | .leaseExpire holder => Sys2Proof.Machine.execLeaseExpire holder s
  | .tileFailed tile loss => Sys2Proof.Machine.execTileFailed tile loss s
  | .tileRetire tile => Sys2Proof.Machine.execTileRetire tile s
  | .spareSubstituted tile => Sys2Proof.Machine.execSpareSubstituted tile s
  | .crewForm cls => Sys2Proof.Machine.execCrewForm cls s
  | .crewQueueTimeout cls => Sys2Proof.Machine.execCrewQueueTimeout cls s
  | .workSteal m tag tile => Sys2Proof.Machine.execWorkSteal m tag tile s
  | .slowMember m tag pace => Sys2Proof.Machine.execSlowMember m tag pace s
  | .suspectTile tile => Sys2Proof.Machine.execSuspectTile tile s
  | .flitRetryExhausted bridge carried => Sys2Proof.Machine.execFlitRetryExhausted bridge carried s
  | .bridgeReroute bridge => Sys2Proof.Machine.execBridgeReroute bridge s
  | .governorTick reading => Sys2Proof.Machine.execGovernorTick reading s
  | .limiterEvent stack unit => Sys2Proof.Machine.execLimiterEvent stack unit s
  | .thermalTrip part => Sys2Proof.Machine.execThermalTrip part s
  | .holdupWarnAssert lowNs => Sys2Proof.Machine.execHoldupWarnAssert lowNs s
  | .inputUndervoltage volts => Sys2Proof.Machine.execInputUndervoltage volts s
  | .inputOvervoltage volts => Sys2Proof.Machine.execInputOvervoltage volts s
  | .powerLossFlush programmed => Sys2Proof.Machine.execPowerLossFlush programmed s
  | .flushEnd => Sys2Proof.Machine.execFlushEnd s
  | .resetRelease volts holdupN sysClk straps => Sys2Proof.Machine.execResetRelease volts holdupN sysClk straps s
  | .resetNAssert lowNs cool => Sys2Proof.Machine.execResetNAssert lowNs cool s
  | .resetNDeassert straps => Sys2Proof.Machine.execResetNDeassert straps s
  | .springBringUp found failedTiles => Sys2Proof.Machine.execSpringBringUp found failedTiles s
  | .drainComplete => Sys2Proof.Machine.execDrainComplete s
  | .winterEntry => Sys2Proof.Machine.execWinterEntry s
  | .wake => Sys2Proof.Machine.execWake s
  | .wakeComplete => Sys2Proof.Machine.execWakeComplete s
  | .i3cStatus => Sys2Proof.Machine.execI3cStatus s
  | .mctpControlMessage msg => Sys2Proof.Machine.execMctpControlMessage msg s
  | .spdmGetVersion tr => Sys2Proof.Machine.execSpdmGetVersion tr s
  | .spdmGetCapabilities tr flags => Sys2Proof.Machine.execSpdmGetCapabilities tr flags s
  | .spdmNegotiateAlgorithms tr supported => Sys2Proof.Machine.execSpdmNegotiateAlgorithms tr supported s
  | .spdmGetDigests tr => Sys2Proof.Machine.execSpdmGetDigests tr s
  | .spdmGetCertificate tr slot off len => Sys2Proof.Machine.execSpdmGetCertificate tr slot off len s
  | .spdmChallenge tr slot nonce => Sys2Proof.Machine.execSpdmChallenge tr slot nonce s
  | .spdmGetMeasurements tr index signed nonce => Sys2Proof.Machine.execSpdmGetMeasurements tr index signed nonce s
  | .spdmKeyExchange tr slot reqId => Sys2Proof.Machine.execSpdmKeyExchange tr slot reqId s
  | .spdmFinish tr anchored verified => Sys2Proof.Machine.execSpdmFinish tr anchored verified s
  | .spdmHeartbeat tr => Sys2Proof.Machine.execSpdmHeartbeat tr s
  | .spdmKeyUpdate tr op => Sys2Proof.Machine.execSpdmKeyUpdate tr op s
  | .spdmEndSession tr => Sys2Proof.Machine.execSpdmEndSession tr s
  | .spdmSetCertificate tr slot inSession chain => Sys2Proof.Machine.execSpdmSetCertificate tr slot inSession chain s
  | .spdmChunkSend tr seq last chunk => Sys2Proof.Machine.execSpdmChunkSend tr seq last chunk s
  | .spdmChunkGet tr seq => Sys2Proof.Machine.execSpdmChunkGet tr seq s
  | .spdmUnsupportedRequest tr code => Sys2Proof.Machine.execSpdmUnsupportedRequest tr code s
  | .jtagInstruction ir => Sys2Proof.Machine.execJtagInstruction ir s
  | .perstNAssert => Sys2Proof.Machine.execPerstNAssert s
  | .perstNDeassert => Sys2Proof.Machine.execPerstNDeassert s
  | .flashPgLow lowUs => Sys2Proof.Machine.execFlashPgLow lowUs s
  | .flashPgHigh => Sys2Proof.Machine.execFlashPgHigh s
  | .sysRefclkLoss hub => Sys2Proof.Machine.execSysRefclkLoss hub s
  | .fabRefclkLoss hub => Sys2Proof.Machine.execFabRefclkLoss hub s
  | .pcieRefclkLoss => Sys2Proof.Machine.execPcieRefclkLoss s
  | .mgmtRecordPacket p length packet => Sys2Proof.Machine.execMgmtRecordPacket p length packet s
  | .mgmtRecordSpdm p length msg => Sys2Proof.Machine.execMgmtRecordSpdm p length msg s
  | .mgmtKeepalive p received => Sys2Proof.Machine.execMgmtKeepalive p received s
  | .mgmtConnectionTimeout p => Sys2Proof.Machine.execMgmtConnectionTimeout p s
  | .mgmtResponseDiscard p => Sys2Proof.Machine.execMgmtResponseDiscard p s
  | .portTraining port lanes => Sys2Proof.Machine.execPortTraining port lanes s
  | .portRetrainTimer port => Sys2Proof.Machine.execPortRetrainTimer port s
  | .heldRetryTimer port => Sys2Proof.Machine.execHeldRetryTimer port s
  | .hello => Sys2Proof.Machine.execHello s
  | .identity verified => Sys2Proof.Machine.execIdentity verified s
  | .kex => Sys2Proof.Machine.execKex s
  | .kexConfirm verified => Sys2Proof.Machine.execKexConfirm verified s
  | .linkRekey port => Sys2Proof.Machine.execLinkRekey port s
  | .linkFrameReceive port header packet check => Sys2Proof.Machine.execLinkFrameReceive port header packet check s
  | .retryReq port header check => Sys2Proof.Machine.execRetryReq port header check s
  | .linkAckTimeout port => Sys2Proof.Machine.execLinkAckTimeout port s
  | .portMarginal port => Sys2Proof.Machine.execPortMarginal port s
  | .packetForward port => Sys2Proof.Machine.execPacketForward port s
  | .packetAged port cls => Sys2Proof.Machine.execPacketAged port cls s
  | .egressTurn port => Sys2Proof.Machine.execEgressTurn port s
  | .reassemblyTimeout src cls => Sys2Proof.Machine.execReassemblyTimeout src cls s
  | .messageReceive port => Sys2Proof.Machine.execMessageReceive port s
  | .protocolViolationHold port => Sys2Proof.Machine.execProtocolViolationHold port s
  | .unreachable => Sys2Proof.Machine.execUnreachable s
  | .time reading => Sys2Proof.Machine.execTime reading s
  | .timeFirstLock => Sys2Proof.Machine.execTimeFirstLock s
  | .timeHoldover => Sys2Proof.Machine.execTimeHoldover s
  | .subquery => Sys2Proof.Machine.execSubquery s
  | .admitNotice => Sys2Proof.Machine.execAdmitNotice s
  | .partialList => Sys2Proof.Machine.execPartialList s
  | .cancel => Sys2Proof.Machine.execCancel s
  | .hedgeRead outcome => Sys2Proof.Machine.execHedgeRead outcome s
  | .hedgeData => Sys2Proof.Machine.execHedgeData s
  | .hedgeBindTimeout id shard => Sys2Proof.Machine.execHedgeBindTimeout id shard s
  | .logRecord => Sys2Proof.Machine.execLogRecord s
  | .logConfirm => Sys2Proof.Machine.execLogConfirm s
  | .logRecordResend collection csn peer => Sys2Proof.Machine.execLogRecordResend collection csn peer s
  | .logRelease => Sys2Proof.Machine.execLogRelease s
  | .logFetch => Sys2Proof.Machine.execLogFetch s
  | .fetchData => Sys2Proof.Machine.execFetchData s
  | .replicaOp opened => Sys2Proof.Machine.execReplicaOp opened s
  | .replicaPromote composition shard replicas peers => Sys2Proof.Machine.execReplicaPromote composition shard replicas peers s
  | .tableOp => Sys2Proof.Machine.execTableOp s
  | .tableBlock => Sys2Proof.Machine.execTableBlock s
  | .sharedRead => Sys2Proof.Machine.execSharedRead s
  | .sharedData opens => Sys2Proof.Machine.execSharedData opens s
  | .lease => Sys2Proof.Machine.execLease s
  | .collDown => Sys2Proof.Machine.execCollDown s
  | .collUp => Sys2Proof.Machine.execCollUp s
  | .heartbeatTick composition => Sys2Proof.Machine.execHeartbeatTick composition s
  | .memberLost composition node => Sys2Proof.Machine.execMemberLost composition node s
  | .probeTimeout composition node => Sys2Proof.Machine.execProbeTimeout composition node s
  | .coordinatorTakeover composition => Sys2Proof.Machine.execCoordinatorTakeover composition s
  | .selfFence composition => Sys2Proof.Machine.execSelfFence composition s
  | .composition => Sys2Proof.Machine.execComposition s
  | .suspectMember composition node replica => Sys2Proof.Machine.execSuspectMember composition node replica s
  | .streamIrqTimer st => Sys2Proof.Machine.execStreamIrqTimer st s
  | .suspectTileExpire tile => Sys2Proof.Machine.execSuspectTileExpire tile s
  | .tableDropTimeout table => Sys2Proof.Machine.execTableDropTimeout table s
  | .replicaFallsBehind collection node => Sys2Proof.Machine.execReplicaFallsBehind collection node s
  | .forwardingRecordRelease collection slot epoch => Sys2Proof.Machine.execForwardingRecordRelease collection slot epoch s
  | .modelWeightRunRepaired model gen run tagHolds => Sys2Proof.Machine.execModelWeightRunRepaired model gen run tagHolds s
  | .portLaneLoss port => Sys2Proof.Machine.execPortLaneLoss port s
  | .discoveryMessageRetry port => Sys2Proof.Machine.execDiscoveryMessageRetry port s
  | .fabRefclkRestore hub => Sys2Proof.Machine.execFabRefclkRestore hub s
  | .mgmtPortLinkLoss p => Sys2Proof.Machine.execMgmtPortLinkLoss p s
  | .mgmtConnectionOpen p => Sys2Proof.Machine.execMgmtConnectionOpen p s
  | .mgmtConnectionClose p => Sys2Proof.Machine.execMgmtConnectionClose p s
  | .thermSbLoss => Sys2Proof.Machine.execThermSbLoss s
  | .i3cDynamicAddressAssign addr => Sys2Proof.Machine.execI3cDynamicAddressAssign addr s
  | .coldPowerUp volts => Sys2Proof.Machine.execColdPowerUp volts s

end Sys2Proof.Machine
end

