-- ==== Sys2Proof/Machine/Step.lean ====
section
/-!
DEFINITION. One step of the block: the command at the front of the queue, or the passing of time where none waits.
-/
namespace Sys2Proof.Machine

/-- An idle block: one nanosecond passes on its clock and on FABRIC_TIME (DESIGN CHOICE, log entry 20). -/
def State.tick (s : State) : State := { s with clock := s.clock + 1, fabTime := s.fabTime + 1 }

/-- Take the command at the front of the queue and run it with the queue's rest; with nothing waiting, time passes. -/
def step (s : State) : Host.Outcome State Fault Refusal :=
  match s.pending with
  | [] => .next s.tick
  | c :: rest => exec c { s with pending := rest }

/-- The state with the command that a word spells at the front of its queue; unchanged where it spells none. -/
def State.withFetchWord (s : State) (nbits w : Nat) : State :=
  match decodeTableWord nbits w with
  | some c => { s with pending := c :: s.pending }
  | none => s

end Sys2Proof.Machine
end

