-- ==== Sys2Proof/Safety.lean ====
section
/-!
DEFINITION. What counts as a sound state of the block, and the words that statements about it use.
-/
namespace Sys2Proof.Machine

/-- The part of the state that no command touches unless it is a power, season, profile, governor or pin event: the queue, the model's clock, power, the
governor and the pins. -/
def State.still (s : State) : List Instr × Nat × Power × Governor × Pins := (s.pending, s.clock, s.power, s.governor, s.pins)

/-- The rows that act on power, seasons, profiles, the governor or the pins (chapters 18 and 19, and the two clocks of R415 and R473). -/
def powerRow : Instr → Bool
  | .setProfile .. | .profileSwitch | .setSeason .. | .governorTick .. | .limiterEvent .. | .thermalTrip .. | .holdupWarnAssert ..
  | .inputUndervoltage .. | .inputOvervoltage .. | .powerLossFlush .. | .flushEnd | .resetRelease .. | .resetNAssert .. | .resetNDeassert ..
  | .springBringUp .. | .drainComplete | .winterEntry | .wake | .wakeComplete | .mctpControlMessage .. | .perstNAssert | .perstNDeassert
  | .flashPgLow .. | .flashPgHigh | .sysRefclkLoss .. | .fabRefclkLoss .. | .fabRefclkRestore .. | .pcieRefclkLoss | .thermSbLoss
  | .i3cDynamicAddressAssign .. | .timeFirstLock | .coldPowerUp .. => true
  | _ => false

/-- The governor stays within its tables: four die clocks, none above the ceiling that Table 1-6 gives the profile in force (R460), and thermal caps and
rates within their ranges (R194, Table 18-9). -/
def Governor.within (p : Profile) (g : Governor) : Prop :=
  g.clocks.length = 4 ∧ (∀ k ∈ g.clocks, k ≤ clockCeiling p) ∧ (∀ k ∈ g.dieCaps, k ≤ 32) ∧ (∀ k ∈ g.stackCaps, k ≤ 100) ∧
    (∀ k ∈ g.hubCaps, k ≤ 100) ∧ g.envelopeCap ≤ 100 ∧ ∀ e ∈ g.nbuRates, e.2 ≤ 100

/-- What runs agrees with the season: a drain only in Autumn drain, Winter entry only while a drain with target Winter runs, a wake only in the Spring it
began, and a flush exactly in Autumn power loss (R451, R456, R457). -/
def Power.coherent (p : Power) : Prop :=
  (p.drain ≠ .none → p.season = .drain) ∧ (p.entering.isSome → ∃ m tag, p.drain = .winter m tag) ∧
    (p.waking.isSome → p.season = .spring ∧ p.warm = true) ∧ (p.flush.isSome ↔ p.season = .powerLoss)

/-- A lawful state: the governor within its tables under the profile in force, and power coherent. -/
def State.lawful (s : State) : Prop := s.governor.within s.power.profile ∧ s.power.coherent

/-- The moves between seasons that R451–R457 and R465 name, COLD_POWER_UP apart. -/
def seasonMoves : List (Season × Season) :=
  [(.spring, .summer), (.summer, .drain), (.drain, .summer), (.drain, .winter), (.winter, .spring), (.heldInReset, .spring), (.spring, .powerLoss),
   (.summer, .powerLoss), (.drain, .powerLoss), (.powerLoss, .heldInReset), (.drain, .heldInReset), (.winter, .heldInReset)]

/-- It is a catalogue command's turn: `f` is in flight by this mailbox and tag, under this opcode; its own row has not run; no earlier command of its
mailbox and path waits for its own row; and the module serves commands. -/
abbrev State.turn (s : State) (op : Nat) (m : Mbx) (tag : Word) (f : Flight) : Prop :=
  s.flight m.key tag = some f ∧ f.opcode.toNat = op ∧ f.work = .admitted ∧ s.isNext f = true ∧ s.serving = true

/-- The plaintext's length is within bounds, and HDR.CSN is 0 (R44, R48). -/
abbrev Flight.opens (f : Flight) (lo hi : Nat) : Prop := lo ≤ f.plain.length ∧ f.plain.length ≤ hi ∧ f.hdr.csn = 0

/-- There is room for an operation of `n` items, `stored` of which it stores (R25, R118, R123, R174, R424): in the collection, the tenant's flash, the
acknowledged operations not yet committed, the open segment while 4 segments are SEALING, and the ingest rate. -/
abbrev State.opRoom (s : State) (c : Collection) (f : Flight) (text : Bool) (n stored : Nat) : Prop :=
  (stored = 0 ∨ c.versions.length + c.toApply + stored ≤ c.desc.maxItems) ∧
    (stored = 0 ∨ (s.tenantConfig f.tenant).flashQuota = 0 ∨ s.flashMapped f.tenant < (s.tenantConfig f.tenant).flashQuota * 2 ^ 30) ∧
    c.appendsWait = false ∧ (c.uncommitted.filter (·.acked)).length < 65536 ∧
    ((c.uncommitted.filter (·.acked)).map opItems).foldl (· + ·) 0 < 4194304 ∧
    (c.sealingCount < 4 ∨ ∀ x, c.openSegment = some x → (c.rows x.id).length < 2 * c.desc.sealItems ∧
      (c.rows x.id).length + (((c.ops.filter (!·.applied)).map opStored).sum + stored) ≤ 2 * c.desc.sealItems) ∧
    s.index.ingestDone - s.clock + s.ingestCost text n ≤ 4000000

/-- A command has its crew at once, and the state is then `t`: it holds one already, or nothing waits and its class's pool forms one (R247, R248). -/
abbrev State.crewAtOnce (s : State) (i leadPages : Nat) (f : Flight) (t : State) (tiles : Nat := 0) : Prop :=
  ((s.crewFor f.mbx f.tag).isSome = true ∧ t = s) ∨ ((s.crewFor f.mbx f.tag) = none ∧ s.pool (crewOf s.placeImage i) ≠ [] ∧
    s.tiles.queue.filter (·.cls == i) = [] ∧ s.formCrew i leadPages f.mbx f.tag tiles = some t)

end Sys2Proof.Machine
end

