-- ==== Sys2Proof/Certificates/Slice0/Obligations.lean ====
section
/-!
DEFINITION. The statements about the block, for the provers. Each holds of every state and every operand its hypotheses admit.
-/
open Sys2Proof Sys2Proof.Machine

/-- A step takes the command at the front of the queue and runs it with the rest; an idle step lets one nanosecond pass (the model's choice, log
entry 20). -/
def Obligations.StepRunsTheFrontCommand : Prop :=
  (∀ (c : Instr) (rest : List Instr) (s : State), step { s with pending := c :: rest } = exec c { s with pending := rest }) ∧
    ∀ s : State, s.pending = [] → step s = .next { s with clock := s.clock + 1, fabTime := s.fabTime + 1 }

/-- Whatever a host or the world sends, the block goes on: exec, and so a step, always answers a next state. -/
def Obligations.EveryCommandCompletes : Prop :=
  (∀ (c : Instr) (s : State), ∃ t, exec c s = .next t) ∧ ∀ s : State, ∃ t, step s = .next t

/-- No command touches the commands that wait, nor the model's clock. -/
def Obligations.CommandsKeepTheQueueAndTheClock : Prop :=
  ∀ (c : Instr) (s t : State), exec c s = .next t → t.pending = s.pending ∧ t.clock = s.clock

/-- No command but those of chapters 18 and 19 changes power, the governor or the pins. -/
def Obligations.OnlyPowerRowsTouchPower : Prop :=
  ∀ (c : Instr) (s t : State), powerRow c = false → exec c s = .next t → t.power = s.power ∧ t.governor = s.governor ∧ t.pins = s.pins

/-- The state after reset is lawful. -/
def Obligations.ResetIsLawful : Prop := State.reset.lawful

/-- From a lawful state every step leads to a lawful one. -/
def Obligations.StepsKeepTheStateLawful : Prop := ∀ s t : State, s.lawful → step s = .next t → t.lawful

/-- The season makes a move of the table, or none. -/
def Obligations.SeasonsMoveByTheTable : Prop :=
  ∀ (c : Instr) (s t : State), s.lawful → exec c s = .next t →
    t.power.season = s.power.season ∨ (s.power.season, t.power.season) ∈ seasonMoves ∨
      ((∃ v, c = .coldPowerUp v) ∧ t.power.season = .heldInReset)

/-- A GLB_ERR bit that goes from 0 to 1 raises MSI-X vector 0; one that is 1 already changes nothing. -/
def Obligations.GlobalErrorsRaiseVectorZero : Prop :=
  ∀ (b : Nat) (s : State), b < 64 →
    (s.host.glbErr.getLsbD b = true → s.globalError b = s) ∧
      (s.host.glbErr.getLsbD b = false →
        (∀ i, (s.globalError b).host.glbErr.getLsbD i = (s.host.glbErr.getLsbD i || decide (i = b))) ∧
        ((s.host.msix.getD 0 {}).control.getLsbD 0 = false →
          s.globalError b = { s with host.glbErr := (s.globalError b).host.glbErr, out := s.out ++ [.msix 0] }) ∧
        ((s.host.msix.getD 0 {}).control.getLsbD 0 = true → (s.globalError b).host.pba.contains 0 = true ∧ (s.globalError b).out = s.out))

/-- An access that breaks R27 is counted, sets GLB_ERR.BAR_PV, is logged, and reads 0. -/
def Obligations.BadBarAccesses : Prop :=
  (∀ (write : Bool) (off width : Nat) (s : State), s.pcieReachable = true → barLegal off width = false →
    exec (.bar0AccessViolation write off width) s =
      .next (let t := (({ s with host.glbPv := satSucc s.host.glbPv } : State).globalError 0).log { seq := 0, time := 0, kind := 2, tenant := 0xFFFF }
             if write then t else { t with host.lastRead := 0 })) ∧
    ∀ off width : Nat, (width ≠ 4 ∧ width ≠ 8) ∨ off % width ≠ 0 → barLegal off width = false

/-- What a write to a BAR0 register does. -/
def Obligations.RegisterWrites : Prop :=
  ∀ (s : State) (v : Quad), s.pcieReachable = true →
    exec (.registerWrite 0x10 true v) s = .next { s with host.glbErr := s.host.glbErr &&& ~~~v } ∧
    ∀ t : Fin 4096,
      ((s.mbx t).state = .disabled →
        exec (.registerWrite (0x10000 + 64 * t) true v) s =
            .next (s.setMbx t { s.mbx t with cmdBase := v &&& 0xFFFFFFFFFFFFF000#64, basesWritten := (true, (s.mbx t).basesWritten.2) }) ∧
          exec (.registerWrite (0x10000 + 64 * t + 4) false v) s =
            .next (s.setMbx t { s.mbx t with
              cmdBase := ((v.setWidth 32 : Word) ++ (s.mbx t).cmdBase.setWidth 32 : Quad) &&& 0xFFFFFFFFFFFFF000#64
              basesWritten := (true, (s.mbx t).basesWritten.2) })) ∧
      ((s.mbx t).state ≠ .disabled →
        exec (.registerWrite (0x10000 + 64 * t) true v) s = .next (s.registerViolation t .cfgInvalid)) ∧
      exec (.registerWrite (0x10000 + 64 * t + 0x24) false v) s = .next (s.setMbx t { s.mbx t with irqMod := v.setWidth 32 }) ∧
      exec (.registerWrite (0x10000 + 64 * t + 0x18) false v) s = .next s ∧
      exec (.registerWrite (0x10000 + 64 * t + 0x1C) false v) s = .next s

/-- When a doorbell write is taken, and what becomes of any other. -/
def Obligations.Doorbells : Prop :=
  ∀ (m : Ring) (v : Quad) (s : State), s.pcieReachable = true →
    let b := s.mbx m.key
    let ok := b.state = .active ∧ v.toNat < 2 ^ 32 ∧ (v.setWidth 32 - b.cmdCons).toNat ≤ 2 ^ bits b.cfg.toNat 0 4 ∧
      (v.setWidth 32 - b.doorbell).toNat ≤ 2 ^ bits b.cfg.toNat 0 4
    (ok → exec (.doorbellWrite m (.single v)) s = .next (s.setMbx m.key { b with doorbell := v.setWidth 32 })) ∧
    (¬ok → exec (.doorbellWrite m (.single v)) s = .next ((s.registerViolation m.key .doorbellRange).globalError 1)) ∧
    exec (.doorbellWrite m .other) s = .next ((s.registerViolation m.key .doorbellSize).globalError 1)

/-- How a mailbox is enabled, disabled and reset. -/
def Obligations.MailboxConfiguration : Prop :=
  ∀ (m : Ring) (fields : BitVec 31) (s : State), s.pcieReachable = true →
    let b := s.mbx m.key
    let zero (b : Mailbox) : Mailbox := { b with cmdCons := 0, rspProd := 0, rspCons := 0, doorbell := 0 }
    (b.state = .disabled → cfgValid (1#1 ++ fields) = true → b.basesWritten = (true, true) →
      exec (.mbxEnable m fields) s = .next (s.setMbx m.key (zero { b with cfg := 1#1 ++ fields, state := .active, unreported := 0 }))) ∧
    (b.state = .disabled → cfgValid (1#1 ++ fields) = false ∨ b.basesWritten ≠ (true, true) →
      exec (.mbxEnable m fields) s = .next (s.registerViolation m.key .cfgInvalid)) ∧
    (b.state ≠ .disabled → b.cfg.getLsbD 31 = true →
      exec (.mbxDisable m fields) s = .next ((s.setMbx m.key { b with cfg := b.cfg &&& 0x7FFFFFFF#32 }).startReset m.key)) ∧
    (b.state = .active ∨ b.state = .halted → exec (.mbxCtrlReset m) s = .next (s.startReset m.key)) ∧
    ((s.startReset m.key).mbx m.key = { b with state := .resetting, partialPacket := none, rspWait := false, limitWait := false }) ∧
    (b.state = .resetting → s.inFlight m.key = 0 → s.host.done.any (·.mbx == m.key) = false →
      exec (.mbxResetComplete m) s =
        .next (s.setMbx m.key (zero { b with state := if b.cfg.getLsbD 31 then .active else .disabled, reserved := 0 })))

/-- RSP_CONS, STREAM_CONS, IRQ_REARM and the moderation timer. -/
def Obligations.ConsumerIndices : Prop :=
  ∀ s : State, s.pcieReachable = true →
    (∀ (m : Ring) (v : Word),
      ((v - (s.mbx m.key).rspCons).toNat ≤ ((s.mbx m.key).rspProd - (s.mbx m.key).rspCons).toNat →
        exec (.rspConsWrite m v) s = .next (s.setMbx m.key { s.mbx m.key with rspCons := v })) ∧
      (¬(v - (s.mbx m.key).rspCons).toNat ≤ ((s.mbx m.key).rspProd - (s.mbx m.key).rspCons).toNat →
        exec (.rspConsWrite m v) s = .next (s.registerViolation m.key .rspConsRange))) ∧
    (∀ (st : Fin 1024) (v : Quad) (x : Stream), s.host.streams.find st = some x →
      ((v.setWidth 32 - x.cons).toNat ≤ (x.prod - x.cons).toNat →
        exec (.streamConsWrite st v) s = .next { s with host.streams := s.host.streams.put st { x with cons := v.setWidth 32 } }) ∧
      (¬(v.setWidth 32 - x.cons).toNat ≤ (x.prod - x.cons).toNat →
        exec (.streamConsWrite st v) s = .next (((s.countGlobalPv).globalError 4).logViolation 0xFFFF .streamConsRange))) ∧
    (∀ m : Ring, (s.mbx m.key).unreported ≠ 0 →
      exec (.irqRearm m) s = .next ((s.setMbx m.key { s.mbx m.key with unreported := 0 }).vector (bits (s.mbx m.key).cfg.toNat 20 30)) ∧
      (bits (s.mbx m.key).irqMod.toNat 16 31 ≠ 0 → (s.mbx m.key).oldest + bits (s.mbx m.key).irqMod.toNat 16 31 * 1000 ≤ s.clock →
        exec (.irqModTimer m) s = .next ((s.setMbx m.key { s.mbx m.key with unreported := 0 }).vector (bits (s.mbx m.key).cfg.toNat 20 30))))

/-- The buffer of a posted ingest window keeps its canonical form and behaves as a memory. -/
def Obligations.WindowMemory : Prop :=
  (∀ (m : Memory) (size a : Nat) (b : Bytes), Memory.wf m = true → Memory.wf (memStore size m a b) = true) ∧
    (∀ (m : Memory) (a : Nat) (v : Byte), Memory.wf m = true → memRead (memWrite m a v) a = v ∧ ∀ x, x ≠ a → memRead (memWrite m a v) x = memRead m x) ∧
    ∀ m n : Memory, Memory.wf m = true → Memory.wf n = true → (∀ a, memRead m a = memRead n a) → m = n

/-- Writes, slots, flushes and timeouts of a posted ingest window. -/
def Obligations.IngestWindows : Prop :=
  ∀ (w : Fin 64) (s : State), s.pcieReachable = true →
    let x := s.win w
    (exec (.piwOverrunClear w) s = .next (s.setWin w { x with overrun := false })) ∧
    (exec (.piwCtrlFlush w) s = .next ((s.setWin w { x with flushRequested := true }).flushStep w)) ∧
    (∀ u : State, let y := u.win w
      let quiet := y.queued = [] ∧ (∀ f ∈ u.host.flights, f.path ≠ .window w) ∧ (∀ d ∈ u.host.done, d.path ≠ .window w) ∧
        ∀ f ∈ u.host.held.vals, f.path ≠ .window w
      (y.flushRequested = false ∨ y.current.isSome = true → u.flushStep w = u) ∧
      (y.flushRequested = true → y.current = none → quiet →
        u.flushStep w = u.setWin w { y with
          next := 0, accepted := 0, overrun := false, flushPending := false, flushRequested := false, framingLost := false, current := none
          queued := [], flushDone := true }) ∧
      (y.flushRequested = true → y.current = none → ¬quiet → u.flushStep w = u.setWin w { y with flushPending := true })) ∧
    (∀ (u : State) (r : Reason), let y := u.win w
      u.winSilent w r = ((u.setWin w { y with pv := true, lastPv := some r, pvCount := satSucc y.pvCount }).globalError 3).log
        { seq := 0, time := 0, kind := 2, reason := reasonCode r, tenant := y.bound.getD 0xFFFF }) ∧
    (∀ (off : Fin 1048576) (b : Bytes), 1 ≤ b.length → off + b.length ≤ 1048576 →
      let d := (off + 1048576 - x.next) % 1048576
      let dead := x.enable = false ∨ x.bound = none ∨ x.framingLost = true ∨ x.flushPending = true
      (dead → exec (.piwDataWrite w off b) s = .next (s.winSilent w .piwWrite)) ∧
      (¬dead → x.overrun = true → exec (.piwDataWrite w off b) s = .next s) ∧
      (¬dead → x.overrun = false → x.current = none → winFull x = true →
        exec (.piwDataWrite w off b) s = .next ((s.setWin w { x with overrun := true }).globalError 3)) ∧
      (¬dead → x.overrun = false → x.current.isSome = true ∨ winFull x = false →
        (winFree x < d + b.length ∨ (d < 8 ∧ ¬(d = 0 ∧ b.length = 8)) →
          exec (.piwDataWrite w off b) s = .next (s.winSilent w .piwWrite)) ∧
        (d + b.length ≤ winFree x → 8 ≤ d →
          exec (.piwDataWrite w off b) s =
            .next (s.setWin w { x with current := some (x.current.getD { since := s.clock }), buffer := memStore 1048576 x.buffer off b })))) ∧
    (∀ slot : BitVec 64, x.next < 1048576 → x.enable = true → x.bound.isSome = true → x.framingLost = false → x.flushPending = false →
      x.overrun = false → x.current.isSome = true ∨ winFull x = false → 8 ≤ winFree x →
      let y := { x with current := none, buffer := memStore 1048576 x.buffer x.next (leBytes 8 slot.toNat) }
      let pkt := slot.toNat % 2 ^ 32
      let raw := memLoad 1048576 y.buffer (x.next + 8) 32
      let h := parseHeader raw
      let sized := 64 ∣ pkt ∧ 64 ≤ pkt ∧ pkt ≤ 262144
      let z := { y with next := (x.next + pkt) % 1048576, accepted := (x.accepted + 1) % 65536 }
      let agrees := slot.toNat / 2 ^ 48 = 0 ∧ slot.toNat / 2 ^ 32 % 65536 = x.accepted % 65536 ∧ pkt = 64 * ((40 + h.length.toNat + 63) / 64)
      (¬sized → exec (.piwSlotWrite w slot) s = .next (((s.setWin w { y with framingLost := true }).winSilent w .piwSlot).flushStep w)) ∧
      (sized → headerCrc raw ≠ h.crc →
        exec (.piwSlotWrite w slot) s = .next (((s.setWin w z).answerSlot w { h with opcode := 0 } 0x14 .hdrCrc).flushStep w)) ∧
      (sized → headerCrc raw = h.crc → ¬agrees →
        exec (.piwSlotWrite w slot) s = .next (((s.setWin w z).answerSlot w h 0xFFFFFFFF .piwSlot).flushStep w)) ∧
      (sized → headerCrc raw = h.crc → agrees →
        exec (.piwSlotWrite w slot) s =
          .next ((s.setWin w { z with queued := x.queued ++ [{ offset := x.next, bytes := pkt, arrival := s.clock }] }).flushStep w))) ∧
    (∀ p : OpenPacket, x.current = some p → p.since + x.timeout * 100000 ≤ s.clock →
      exec (.piwPacketTimeout w) s =
        .next (((s.setWin w { x with current := none, framingLost := true }).winSilent w .piwTimeout).flushStep w))

/-- A command that passes every step of Table 2-13 is admitted, or held until its response has room. -/
def Obligations.Admission : Prop :=
  (∀ (m : Nat) (path : Path) (h : Header) (p : Packet) (arrival : Nat) (s : State) (r : OpRow), m ≤ 4096 →
    path = .ring ∨ (∃ w, path = .window w ∧ m < 4096 ∧ windowOpcode h.opcode = true) →
    (hdrFence h = true → s.fenceBlocked m path = false) → s.host.held.find m = none → s.inFlight m < s.inflightLimit m → s.rspRoom m 1 = true →
    (m < 4096 → s.bucketAllows m h = true) → s.sessionStopped m h = false →
    h.version = 1 → h.status = 0 → h.tenant.toNat < 4096 → (m < 4096 → h.tenant.toNat = m) → h.flags.toNat < 8 →
    (hdrSealed h = false → h.session = 0) → s.tagInFlight m h.tag = false → opRow h.opcode = some r → hdrSealed h = (r.mark == .sealed) →
    (if m < 4096 then r.onTenant else r.onMgmt) = true → (m < 4096 → s.tenants.disabled.contains m = false ∨ r.cls = .identity) →
    stepEight h.opcode s.power.season s.placed = true →
    let v := s.updMbx m fun b => { b with limitWait := false, rspWait := false }
    let charged (u : State) : State := if m < 4096 then u.bucketTake m h else u
    let f (plain : Bytes) : Flight := { mbx := m, hdr := h, path := path, plain := plain, arrival := arrival, reserved := 0 }
    (hdrSealed h = false → s.submit m path h p arrival = .taken ((charged v).reserveAndAdmit (f (p.payload.take h.length.toNat)))) ∧
    (∀ x : SessionView, hdrSealed h = true → v.sessionOf m h = some x → x.closing = false → x.exhausted = false → 24 ≤ h.length.toNat →
      seqFresh x (field p.payload 0 8) = true → p.opens = true → p.plain.length = h.length.toNat - 24 →
      s.submit m path h p arrival = .taken ((charged (v.seqConsume m h (field p.payload 0 8))).reserveAndAdmit (f p.plain)))) ∧
  ∀ (f : Flight) (u : State), f.mbx ≤ 4096 → (∀ k, f.path ≠ .port k) →
    let k := rspSlots (u.responseBound f)
    let b := u.mbx f.mbx
    (u.rspRoom f.mbx k = true →
      u.reserveAndAdmit f = ((({ u with
          host.mailboxes := u.host.mailboxes.put f.mbx { b with reserved := b.reserved + k, rspWait := false }
          host.held := u.host.held.del f.mbx, host.flights := u.host.flights ++ [{ f with reserved := k }] } : State).charge
            (if f.mbx < 4096 then f.mbx else 0xFFFF) 0x00 1).charge (if f.mbx < 4096 then f.mbx else 0xFFFF) 0x08 f.hdr.length.toNat)) ∧
    (u.rspRoom f.mbx k = false →
      u.reserveAndAdmit f = { u with
        host.held := u.host.held.put f.mbx f, host.mailboxes := u.host.mailboxes.put f.mbx { b with rspWait := true } })

/-- A failed header CRC: PROTOCOL_VIOLATION with reason HDR_CRC under the received tag and opcode 0, and the mailbox is HALTED (R47). -/
def Obligations.HeaderCrcHalts : Prop :=
  ∀ (m : Nat) (p : Packet) (ps : List Packet) (s : State), m ≤ 4096 → s.serving = true → s.pcieReachable = true → s.nextTurn = some m →
    s.pendingRing m = true → headerCrc p.header ≠ (parseHeader p.header).crc →
    ∃ t d, exec (.mailboxTurn (p :: ps)) s = .next t ∧ t.host.done = s.host.done ++ [d] ∧ d.mbx = m ∧ d.admitted = false ∧
      d.hdr = { parseHeader p.header with opcode := 0 } ∧ d.response.status = .protocolViolation ∧ d.response.sealed = false ∧
      d.response.payload = detailBytes { status := .protocolViolation, offset := 0x14, reason := some .hdrCrc } ∧
      (t.mbx m).state = .halted ∧ (t.mbx m).lastPv = some .hdrCrc ∧ (t.mbx m).cmdCons = (s.mbx m).cmdCons

/-- Taking, admitting, resuming and timing out packets of rings and windows. -/
def Obligations.RingTurns : Prop :=
  (∀ (m : Nat) (p : Packet) (ps : List Packet) (s u : State), s.serving = true → s.pcieReachable = true → s.nextTurn = some m → s.pendingRing m = true →
    let h := parseHeader p.header
    let k := packetSlots h.length.toNat
    let v : State := { s with host.mgmtNext := decide (m < 4096), host.lastTurn := if m < 4096 then m else s.host.lastTurn }
    headerCrc p.header = h.crc → h.length.toNat ≤ min 16777216 (2 ^ cmdMaxLog2 (s.mbx m) - 32) →
    k ≤ ((s.mbx m).doorbell - (s.mbx m).cmdCons).toNat →
    let offer := v.submit m .ring h p ((s.mbx m).partialPacket.elim s.clock (·.2))
    (offer = .taken u →
      let t := u.setMbx m { u.mbx m with cmdCons := (u.mbx m).cmdCons + BitVec.ofNat 32 k, partialPacket := none }
      exec (.mailboxTurn (p :: ps)) s = .next (if 262144 ≤ 64 * k then t else t.takeTurn m (ps.take 7) (262144 - 64 * k))) ∧
    (offer = .wait u → exec (.mailboxTurn (p :: ps)) s = .next u)) ∧
  (∀ (m n : Nat) (s : State), s.takeTurn m [] n = s) ∧
  (∀ (w : Fin 64) (o : Bool) (b : Bytes) (s u : State) (q : QueuedPacket) (rest : List QueuedPacket) (t : Nat),
    let x := s.win w
    x.queued = q :: rest → x.bound = some t → s.serving = true → (s.mbx t).state = .active → s.tenants.disabled.contains t = false →
    s.host.held.find t = none →
    let raw := memLoad 1048576 x.buffer (q.offset + 8) 32
    let h := parseHeader raw
    (o = true → s.packetHeld t h.opcode b = true → exec (.piwPacketAdmit w o b) s = .next s) ∧
    (o = false ∨ s.packetHeld t h.opcode b = false →
      s.submit t (.window w) h { header := raw, payload := memLoad 1048576 x.buffer (q.offset + 40) h.length.toNat, opens := o, plain := b } q.arrival =
        .taken u →
      exec (.piwPacketAdmit w o b) s = .next (if u.windowHeld w.val then u else u.setWin w { u.win w with queued := (u.win w).queued.drop 1 }))) ∧
  (∀ (m : Mbx) (s u : State), m.key ≤ 4096 →
    (s.host.held.find m.key = none ∧ u = s) ∨
      (∃ f, s.host.held.find m.key = some f ∧ (s.mbx m.key).state = .active ∧ s.sessionStopped m.key f.hdr = false ∧
        stepEight f.opcode s.power.season s.placed = true ∧
        (hdrSealed f.hdr = false ∨ ∃ x, s.sessionOf m.key f.hdr = some x ∧ x.closing = false ∧ x.exhausted = false) ∧
        ((f.path = .ring ∧ u = s.reserveAndAdmit f) ∨ ∃ w, f.path = .window w ∧ u = (s.reserveAndAdmit f).freeSlot w)) →
    let y := u.mbx m.key
    let v := u.setMbx m.key { y with
      limitWait := y.limitWait && decide (u.inflightLimit m.key ≤ u.inFlight m.key)
      rspWait := y.rspWait && ((u.host.held.find m.key).isSome || !u.rspRoom m.key 1) }
    let clear (f : Flight) : Bool := match f.work with
      | .csnWait c q => f.mbx == m.key && (v.coll c).elim true fun c => q ≤ c.committed || c.availability != .ready || c.dropping.isSome
      | _ => false
    exec (.admissionResume m) s =
      .next { v with host.flights := v.host.flights.map fun f => if clear f then { f with work := .admitted } else f }) ∧
  (∀ (m : Ring) (h : Header) (t : Nat) (s : State), (s.mbx m.key).partialPacket = some (h, t) → (s.mbx m.key).state = .active → s.serving = true →
    t + 10000000 ≤ s.clock → ((s.mbx m.key).doorbell - (s.mbx m.key).cmdCons).toNat < packetSlots h.length.toNat →
    exec (.incompletePacket m) s = .next (s.halt m.key h { status := .protocolViolation, offset := noOffset, reason := some .incompletePacket })) ∧
  (∀ (w : Fin 64) (slot : Quad) (s : State), s.pcieReachable = true →
    exec (.piwSlotWrite w slot) s = .next (windowWrite w (s.win w).next (leBytes 8 slot.toNat) s)) ∧
  (∀ (w : Fin 64) (s : State), let v := s.flushStep w
    ((v.win w).flushRequested = true → exec (.piwFlushComplete w) s = .next v) ∧
    ((v.win w).flushRequested = false → (∀ f ∈ v.host.flights, f.work ≠ .flushWait w) → exec (.piwFlushComplete w) s = .next v) ∧
    ∀ f : Flight, (v.win w).flushRequested = false → v.host.flights.find? (·.work == .flushWait w) = some f →
      exec (.piwFlushComplete w) s = .next ((v.setWin w { v.win w with bound := none, enable := false }).answer f .done []))

/-- What answering a command does to the state. -/
def Obligations.AnswersWaitInLine : Prop :=
  ∀ (f : Flight) (st : Status) (p : Bytes) (csn : Nat) (s : State), f.mbx < 2 ^ 20 →
    ∃ d : Done, (s.answer f st p csn).host.done = s.host.done ++ [d] ∧ d.mbx = f.mbx ∧ d.hdr = f.hdr ∧ d.path = f.path ∧ d.admitted = true ∧
      d.discard = f.discard ∧ d.response.status = st ∧ d.response.payload = p ∧ d.response.csn = csn ∧
      d.response.sealed = (!statusIsDetail st && opSeals f.hdr.opcode) ∧
      (s.answer f st p csn).host.flights =
        s.host.flights.filter (fun g => !((g.mbx == f.mbx && g.tag == f.tag) || itemOf f g.mbx g.tag)) ∧
      (s.answer f st p csn).host.mailboxes = s.host.mailboxes ∧ (s.answer f st p csn).host.windows = s.host.windows ∧
      (s.answer f st p csn).host.streams = s.host.streams ∧ (s.answer f st p csn).keys = s.keys ∧
      (s.answer f st p csn).index.collections = s.index.collections ∧ (s.answer f st p csn).tables = s.tables ∧
      (s.answer f st p csn).tiers = s.tiers ∧ (s.answer f st p csn).flash = s.flash ∧ (s.answer f st p csn).fabric = s.fabric ∧
      (s.answer f st p csn).comp = s.comp ∧ (s.answer f st p csn).power = s.power ∧ (s.answer f st p csn).pins = s.pins ∧
      (s.answer f st p csn).out = s.out

/-- RESPONSE_WRITE writes decided responses in order, then the shadows, then raises the vector when it is due. -/
def Obligations.ResponsesReachTheRing : Prop :=
  (∀ (m : Ring) (n : Nat) (s : State),
    (s.serving = false → exec (.responseWrite m n) s = .next s) ∧
    (s.serving = true →
      let t := s.writeMany m.key (min n 4096)
      let b := t.mbx m.key
      (b.rspProd = (s.mbx m.key).rspProd → exec (.responseWrite m n) s = .next t) ∧
      (b.rspProd ≠ (s.mbx m.key).rspProd → exec (.responseWrite m n) s =
        .next (((t.emit (.rspShadow m.key (b.rspBase + BitVec.ofNat 64 (64 * 2 ^ bits b.cfg.toNat 5 9)) b.rspProd)).emit
          (.cmdShadow m.key (b.cmdBase + BitVec.ofNat 64 (64 * 2 ^ bits b.cfg.toNat 0 4)) b.cmdCons)).reportByCount m.key)))) ∧
  (∀ (m n : Nat) (s : State), s.writeMany m 0 = s ∧ s.writeMany m (n + 1) = (s.writeOne m).writeMany m n) ∧
  (∀ (m : Nat) (s : State), let b := s.mbx m; let c := bits b.irqMod.toNat 0 15
    (c = 0 ∨ b.unreported < c → s.reportByCount m = s) ∧
    (c ≠ 0 → c ≤ b.unreported → s.reportByCount m = (s.setMbx m { b with unreported := 0 }).vector (bits b.cfg.toNat 20 30))) ∧
  (∀ (m : Nat) (s : State), s.host.done.find? (s.leaves m) = none → s.writeOne m = s) ∧
  (∀ (m : Nat) (d : Done) (s : State), s.host.done.find? (s.leaves m) = some d →
    let (r, q, u) := s.outgoing d
    let b := u.mbx m
    (d.discard = true →
      s.writeOne m = ((if statusIsLogged d.response.status then (s.dropDone d).charge (if m < 4096 then m else 0xFFFF) 0xA0 1 else s.dropDone d).log
        { seq := 0, time := 0, kind := 1, status := statusCode d.response.status, tenant := if m < 4096 then m else 0xFFFF
          opcode := d.hdr.opcode.toNat, tag := d.hdr.tag, detail := 1 }).settle) ∧
    (d.discard = false → (∀ p, d.path ≠ .port p) → s.fitsRing d = false → s.writeOne m = s) ∧
    (d.discard = false → (∀ p, d.path ≠ .port p) → s.fitsRing d = true →
      s.writeOne m = (((u.dropDone d).setMbx m { b with
        rspProd := b.rspProd + BitVec.ofNat 32 (packetSlots (responseLength r)), reserved := b.reserved - d.reserved
        unreported := b.unreported + 1, oldest := if b.unreported = 0 then u.clock else b.oldest }).emit
          (.response m (rspAddress b b.rspProd) b.rspProd d.hdr.opcode d.hdr.tenant d.hdr.tag d.hdr.session q r)).afterWritten d) ∧
    ∀ p o, d.discard = false → d.path = .port p → s.portFor p = some o →
      s.writeOne m = (({ u.dropDone d with host.ports := u.host.ports.modify o fun x => { x with lastTx := u.clock } } : State).emit
        (.mgmtRecord o d.hdr.opcode d.hdr.tag d.hdr.session q r)).afterWritten d) ∧
  (∀ (d : Done) (s : State),
    let said (v : State) (r : Response) : Response :=
      { r with logged := r.logged || (statusIsLogged r.status && v.mayLog (if d.mbx < 4096 then d.mbx else 0xFFFF)) }
    (d.response.sealed = false → s.outgoing d = (said s d.response, none, s.account d.mbx d.hdr (said s d.response) d.reason)) ∧
    (∀ n u, d.response.sealed = true → s.sealSeq d.mbx d.hdr = some (n, u) →
      let r := said u { d.response with key := [] }
      s.outgoing d = (r, some (n, sealedPayload (u.sealKey d.mbx d.hdr d.response.key) n (headerBytes (responseHeader d.hdr r)) r.payload),
        u.account d.mbx d.hdr r d.reason)) ∧
    (d.response.sealed = true → s.sealSeq d.mbx d.hdr = none →
      let r := said s { d.response with
        status := .keyUnavailable, payload := detailBytes { status := .keyUnavailable, offset := 0xFFFFFFFF }, sealed := false }
      s.outgoing d = (r, none, s.account d.mbx d.hdr r d.reason))) ∧
  ∀ (d : Done) (s : State), (∀ f ∈ s.host.flights, (∀ m t, f.work ≠ .stopWait m t) ∧ f.work ≠ .closeWait ∧ ∀ t, f.work ≠ .disableWait t) →
    s.afterWritten d =
      if d.hdr.opcode = 0x1004 ∧ d.response.status = .done then { s with keys.sessions := s.keys.sessions.del d.hdr.session.toNat }
      else if d.hdr.opcode = 0x1006 then
        { s with keys.sessions := s.keys.sessions.upd d.hdr.session.toNat fun x => if x.exhausted then { x with ks := [] } else x }
      else s

/-- Writing records to a stream, its wait for room, and its interrupt timer. -/
def Obligations.StreamRecords : Prop :=
  (∀ (st : Fin 1024) (x : Stream) (s : State), s.host.streams.find st = some x →
    (∀ (r : PendingRecord) (rest : List PendingRecord), x.waiting = r :: rest → (x.prod - x.cons).toNat + recordSlots r ≤ 2 ^ x.slotsLog2 →
      s.serving = true → s.pcieReachable = true →
      let sq := s.sealSeq r.mbx (recordHeader r)
      (∀ n u, r.aborted = false → sq = some (n, u) →
        let v := u.writeRecord st x r rest (some n)
        (r.last = false → exec (.streamRecordWrite st) s = .next v) ∧
        (r.last = true → v.flight r.mbx r.tag = none → exec (.streamRecordWrite st) s = .next v) ∧
        ∀ f a status p, r.last = true → v.flight r.mbx r.tag = some f → f.work = .streaming a status p →
          exec (.streamRecordWrite st) s = .next (v.answer f status (p.getD (leBytes 4 (nextRecordSeq x r + 1))) 0 true)) ∧
      (∀ f, r.aborted = false → sq = none → s.flight r.mbx r.tag = some f →
        exec (.streamRecordWrite st) s = .next ((s.abortStreams f).answerDetail f { status := .keyUnavailable, offset := 0xFFFFFFFF })) ∧
      (∀ n u, r.aborted = true → sq = some (n, u) → exec (.streamAbortRecord st) s = .next (u.writeRecord st x r rest (some n))) ∧
      (r.aborted = true → sq = none → exec (.streamAbortRecord st) s = .next (s.writeRecord st x r rest none))) ∧
    (∀ (r q : PendingRecord) (rest : List PendingRecord) (f : Flight), x.waiting = r :: rest →
      ¬(x.prod - x.cons).toNat + recordSlots r ≤ 2 ^ x.slotsLog2 →
      (r :: rest).find? (fun y => !y.aborted && y.since + 1000000000 ≤ s.clock) = some q → s.flight q.mbx q.tag = some f → f.deadline = none →
      exec (.streamWaitTimeout st) s = .next ((s.abortStreams f).answer f .deadlineExceeded (endPayload (s.extBytesOf f) f))) ∧
    (x.irqUs ≠ 0 → x.unreported ≠ 0 → x.oldest + x.irqUs * 1000 ≤ s.clock →
      exec (.streamIrqTimer st) s = .next (({ s with host.streams := s.host.streams.upd st fun x => { x with unreported := 0 } } : State).vector x.vector))) ∧
  ∀ (st : Nat) (x : Stream) (r : PendingRecord) (rest : List PendingRecord) (q : Option Nat) (u : State),
    let k := BitVec.ofNat 32 (recordSlots r)
    let n := nextRecordSeq x r
    let others := x.seqs.filter fun e => !(e.1 == r.mbx && e.2.1 == r.tag)
    let y : Stream := { x with
      prod := x.prod + k, unreported := x.unreported + 1, oldest := if x.unreported = 0 then u.clock else x.oldest
      waiting := rest.map fun z => if z.mbx == r.mbx && z.tag == r.tag then { z with since := u.clock } else z
      seqs := if r.last || r.aborted then others else (r.mbx, r.tag, n + 1) :: others }
    let size := 32 + r.payload.length + (if q.isSome then 24 else 0)
    let flags := (if r.last then 1 else 0) + (if r.aborted then 2 else 0) + (if q.isSome then 4 else 0)
    let v := ({ u with host.streams := u.host.streams.put st y } : State).charge (if r.mbx < 4096 then r.mbx else 0xFFFF) 0x10 size
    let out := q.map fun n => (n, sealedPayload (v.sealKey r.mbx (recordHeader r) []) n (recordHead st x r q) r.payload)
    let w := (v.emit (.record st (x.base + BitVec.ofNat 64 (64 * (x.prod.toNat % 2 ^ x.slotsLog2))) x.prod flags r.tag n r.tenant r.opcode r.csn out
      r.payload)).emit (.streamShadow st (x.base + BitVec.ofNat 64 (64 * 2 ^ x.slotsLog2)) (x.prod + k))
    (x.unreported + 1 < x.irqCount → u.writeRecord st x r rest q = w) ∧
    (x.irqCount ≤ x.unreported + 1 → u.writeRecord st x r rest q = (w.updStream st fun z => { z with unreported := 0 }).vector x.vector)

/-- What the identity, stream, window and stop commands do at their turn. -/
def Obligations.IdentityCommands : Prop :=
  ∀ (m : Mbx) (tag : Word) (f : Flight) (s : State),
    (s.turn 0x0001 m tag f → exec (.identify m tag) s = .next (s.answer f .done (
      leBytes 2 0x5304 ++ leBytes 1 0x02 ++ leBytes 1 0x01 ++ leBytes 2 s.nodeId ++ leBytes 1 (seasonCode s.power.season) ++
      leBytes 1 (profileCode s.power.profile) ++ leBytes 8 Config.serial.toNat ++ leBytes 4 Config.flaumBuild.toNat ++ leBytes 2 s.activeTiles ++
      leBytes 2 s.sparesLeft ++ leBytes 2 1280 ++ leBytes 1 64 ++
      leBytes 1 (if f.mbx < 4096 then (s.tenants.config.find f.mbx).elim 0xFE (·.cls) else 0xFF) ++ leBytes 4 s.placementGen))) ∧
    (s.turn 0x0002 m tag f → exec (.getStatus m tag) s = .next (s.answer f .done (
      leBytes 1 (seasonCode s.power.season) ++ leBytes 1 (profileCode s.power.profile) ++ leBytes 1 (admitBits s.power.season s.placed) ++ zeros 1 ++
      leBytes 2 (s.envelopeMw / 1000) ++ zeros 2 ++ leBytes 8 s.fabTime ++ leBytes 4 (s.inFlight f.mbx) ++ leBytes 4 (s.mbx f.mbx).pvCount.toNat ++
      leBytes 2 (if f.mbx < 4096 then 0 else (s.host.mailboxes.filter fun e => decide (e.1 < 4096) && e.2.state == .halted).length) ++ zeros 6))) ∧
    (s.turn 0x0003 m tag f → f.plain.length ≤ 4096 → exec (.nop m tag) s = .next (s.answer f .done f.plain)) ∧
    (s.turn 0x1001 m tag f → f.opens 4 4 → field f.plain 0 4 ≤ 2 →
      exec (.getCertificates m tag) s = .next (s.answer f .done ((Config.certificate (field f.plain 0 4)).take 8192))) ∧
    (∀ n, s.turn 0x0030 m tag f → f.opens 32 32 → field f.plain 0 8 % 4096 = 0 → 6 ≤ field f.plain 8 1 → field f.plain 8 1 ≤ 24 →
      zeroField f.plain 9 1 = true → field f.plain 0xA 2 < 2048 → field f.plain 0xC 2 ≠ 0 → zeroField f.plain 0x10 16 = true →
      s.streamsHeld f.tenant < 16 → (List.range 1024).find? (fun n => (s.host.streams.find n).isNone) = some n →
      exec (.streamOpen m tag) s =
        .next (({ s with host.streams := (s.host.streams.put n
          { tenant := f.tenant, base := BitVec.ofNat 64 (field f.plain 0 8), slotsLog2 := field f.plain 8 1, vector := field f.plain 0xA 2
            irqCount := field f.plain 0xC 2, irqUs := field f.plain 0xE 2 }) } : State).answer f .done (leBytes 2 n ++ zeros 2))) ∧
    (∀ x, s.turn 0x0031 m tag f → f.opens 4 4 → zeroField f.plain 2 2 = true → s.host.streams.find (field f.plain 0 2) = some x → x.tenant = f.tenant →
      (s.host.flights.any fun g => writesTo g == some (field f.plain 0 2)) = false →
      exec (.streamClose m tag) s = .next (({ s with host.streams := s.host.streams.del (field f.plain 0 2) } : State).answer f .done [])) ∧
    (s.turn 0x0050 m tag f → f.opens 4 4 → field f.plain 0 4 < 2 ^ 18 → (s.win (bits (field f.plain 0 4) 0 5)).bound = none →
      exec (.piwBind m tag) s = .next ((s.updWin (bits (field f.plain 0 4) 0 5) fun x =>
        { x with bound := some (bits (field f.plain 0 4) 6 17) }).answer f .done [])) ∧
    (s.turn 0x0051 m tag f → f.opens 4 4 → field f.plain 0 4 < 64 → (s.win (field f.plain 0 4)).bound.isSome = true →
      exec (.piwUnbind m tag) s = .next ((requestFlush (field f.plain 0 4) s).setWork f (.flushWait (field f.plain 0 4)))) ∧
    (s.turn 0x0040 m tag f → f.opens 8 8 → zeroField f.plain 4 4 = true →
      let t : Word := BitVec.ofNat 32 (field f.plain 0 4)
      let k := if f.mbx < 4096 then f.mbx else f.tenant
      let u := s.setWork f (.stopWait k t)
      s.tagInFlight k t = true → t ≠ f.tag →
      (u.flight k t = none → exec (.stopCommand m tag) s = .next u) ∧
      ∀ g, u.flight k t = some g → exec (.stopCommand m tag) s = .next (if unstoppable g.work then u else u.endCommand g .stopped)) ∧
    (∀ t, s.flight m.key tag = some f → s.mergeOf m.key tag = none → f.deadline = some t → t ≤ s.clock →
      exec (.commandDeadlineExpire m tag) s = .next (s.endCommand f .deadlineExceeded))

/-- KEY_IMPORT, SESSION_OPEN, SESSION_CLOSE, KEY_ZEROISE and ZEROISE_FILL_DONE. -/
def Obligations.KeyCommands : Prop :=
  ∀ (m : Mbx) (tag : Word) (f : Flight) (s : State),
    (s.turn 0x1002 m tag f → f.opens 1753 1753 → field f.plain 0 8 = Config.importHint.toNat → s.zeroisingTenant f.tenant = false →
      (s.keys.trks.filter (·.tenant == f.tenant)).length < 64 → s.keys.trks.length < 16384 → s.keys.pkDone - s.clock ≤ 1000000 →
      let u : State := { s with keys.pkDone := max s.keys.pkDone s.clock + pkCost }
      (∀ p k, p.length = 64 → field p 0 4 ≠ 0 → field p 4 1 = 1 → zeroField p 5 3 = true → zeroField p 0x28 24 = true →
        k = ({ tenant := f.tenant, keyId := BitVec.ofNat 32 (field p 0 4), key := slice p 8 32 } : Trk) →
        let key := Config.hpkeExport (wrappedSecret "import" f) (ascii "TRB-SN4 import rsp") 32
        (s.trk f.tenant k.keyId = none → s.contradicts k = false → exec (.keyImport m tag (some p)) s =
          .next (((({ u with keys.trks := s.keys.trks ++ [k], keys.imported := true } : State).supply k).answer f .done
            (leBytes 4 (field p 0 4) ++ zeros 4 ++ kcv k.key)).underKey f key)) ∧
        (∀ old, s.trk f.tenant k.keyId = some old → old.key = k.key → exec (.keyImport m tag (some p)) s =
          .next ((u.answer f .done (leBytes 4 (field p 0 4) ++ zeros 4 ++ kcv k.key)).underKey f key))) ∧
      exec (.keyImport m tag none) s = .next (u.answerDetail f (notAuthorised 0x6E9))) ∧
    (s.turn 0x1003 m tag f → f.opens 1737 1737 → field f.plain 0 8 = Config.importHint.toNat → s.zeroisingTenant f.tenant = false →
      ((s.keys.sessions.vals.filter sessionHeld).filter (·.tenant == f.tenant)).length < 16 → (s.keys.sessions.vals.filter sessionHeld).length < 16384 →
      s.keys.pkDone - s.clock ≤ 1000000 → s.keys.nextSession < 2 ^ 32 →
      let u : State := { s with keys.pkDone := max s.keys.pkDone s.clock + pkCost }
      let id := s.keys.nextSession
      (∀ p, p.length = 48 → zeroField p 4 12 = true →
        (∀ k, s.trk f.tenant (BitVec.ofNat 32 (field p 0 4)) = some k →
          let ks := Config.hkdfExpand (Config.hkdfExtract (Config.hpkeExport (wrappedSecret "session" f) (ascii "TRB-SN4 session") 48) k.key)
            (ascii "TRB-SN4 ks") 32
          exec (.sessionOpen m tag (some p)) s =
            .next ((({ u with
                free := s.free + 1, keys.nextSession := id + 1
                keys.sessions := s.keys.sessions.put id { tenant := f.tenant, keyId := k.keyId, ks := ks } } : State).answer f .done
              (leBytes 4 id ++ zeros 4 ++ s.measDigest ++
                Config.akSign (Config.free s.free) (Config.sha384 (ascii "TRB-SN4 attest" ++ leBytes 4 id ++ slice p 0 4 ++ slice p 0x10 32 ++
                  s.measDigest ++ Config.sha384 (slice f.plain 8 1665))))).underKey f ks)) ∧
        (s.trk f.tenant (BitVec.ofNat 32 (field p 0 4)) = none → exec (.sessionOpen m tag (some p)) s =
          .next (u.answerDetail f (keyUnavailable 0x20)))) ∧
      exec (.sessionOpen m tag none) s = .next (u.answerDetail f (notAuthorised 0x6D9))) ∧
    (s.turn 0x1004 m tag f → f.plain = [] → f.hdr.csn = 0 → exec (.sessionClose m tag) s = .next ((s.setWork f .closeWait).settle)) ∧
    (∀ scope id, s.turn 0x1006 m tag f → f.opens 16 16 → scope = field f.plain 0 1 → scope ≤ 2 → id = BitVec.ofNat 32 (field f.plain 4 4) →
      field f.plain 1 1 < 2 → zeroField f.plain 2 2 = true → zeroField f.plain 8 8 = true → (scope = 2 → 4096 ≤ f.mbx) →
      (scope = 0 → (s.trk f.tenant id).isSome = true ∧ (bit (field f.plain 1 1) 0 = true ∨ s.zeroiseColls 0 f.tenant id = [])) →
      exec (.keyZeroise m tag) s = .next ((s.setWork f .fillWait).beginZeroise
        { mbx := f.mbx, tag := f.tag, scope := scope, tenant := f.tenant, keyId := id, collections := s.zeroiseColls scope f.tenant id })) ∧
    (∀ z, s.keys.zeroising.find? (fun z => z.mbx == m.key && z.tag == tag && s.fillReady z) = some z →
      let t := (s.endZeroise z).1
      let caller := match s.flight z.mbx z.tag with | some g => if z.mbx < 4096 then g.hdr.session.toNat else 0 | none => 0
      t.keys.trks = s.keys.trks.filter (fun k => !zeroiseHits z k.tenant k.keyId) ∧
      t.keys.sessions = s.keys.sessions.map (fun e =>
        if zeroiseHits z e.2.tenant e.2.keyId then (e.1, { e.2 with exhausted := true, ks := if e.1 == caller then e.2.ks else [] }) else e) ∧
      t.index.collections = s.index.collections.each (fun c => if z.collections.contains c.id then c.zeroised else c) ∧
      (s.endZeroise z).2 = leBytes 4 (s.keys.trks.filter fun k => zeroiseHits z k.tenant k.keyId).length ++
        leBytes 4 (s.keys.sessions.filter fun e => zeroiseHits z e.2.tenant e.2.keyId && sessionHeld e.2).length ++
        leBytes 4 z.collections.length ++ zeros 4 ∧
      (∀ g, t.flight z.mbx z.tag = some g →
        exec (.zeroiseFillDone m tag) s = .next (t.answer g .done (if z.forDisable then [] else (s.endZeroise z).2))) ∧
      (t.flight z.mbx z.tag = none → exec (.zeroiseFillDone m tag) s = .next t))

/-- R91: KEY_ROTATE on a usable collection `c` with a held TRK `k`, and its two limits. -/
def Obligations.KeyRotation : Prop :=
  ∀ (m : Mbx) (tag : Word) (f : Flight) (s : State) (c : Collection) (k : Trk), s.turn 0x1005 m tag f → f.opens 16 16 → zeroField f.plain 8 8 = true →
    s.usableColl 0x20 (field f.plain 0 4) f = .ok c → s.trk f.tenant (BitVec.ofNat 32 (field f.plain 4 4)) = some k → s.zeroisingTenant f.tenant = false →
    (c.gen < 65535 → (s.liveGensOf c).length < 4 →
      let d : Collection := { c with gens := s.liveGensOf c ++ [(c.gen + 1, k.keyId, kcv k.key)], gen := c.gen + 1 }
      exec (.keyRotate m tag) s = .next ((s.setColl d).answer f .done (leBytes 2 (c.gen + 1) ++ leBytes 2 ((s.liveGensOf c).length + 1) ++ zeros 4))) ∧
    (c.gen = 65535 → exec (.keyRotate m tag) s = .next (s.answerDetail f (noResources 65535))) ∧
    (c.gen < 65535 → (s.liveGensOf c).length = 4 → exec (.keyRotate m tag) s = .next (s.answerDetail f (noResources 4)))

/-- R61: STREAM_CLOSE with [15:0] STREAM and [31:16] zero. -/
def Obligations.StreamClosing : Prop :=
  ∀ (m : Mbx) (tag : Word) (f : Flight) (s : State) (x : Stream), s.turn 0x0031 m tag f → f.opens 4 4 → bits (field f.plain 0 4) 16 31 = 0 →
    s.host.streams.find (bits (field f.plain 0 4) 0 15) = some x → x.tenant = f.tenant →
    ((∃ g ∈ s.host.flights, writesTo g = some (bits (field f.plain 0 4) 0 15)) →
      exec (.streamClose m tag) s = .next (s.answerDetail f (wrongStateAt 0x20))) ∧
    ((¬∃ g ∈ s.host.flights, writesTo g = some (bits (field f.plain 0 4) 0 15)) →
      exec (.streamClose m tag) s = .next (({ s with host.streams := s.host.streams.del (bits (field f.plain 0 4) 0 15) } : State).answer f .done []) ∧
      (({ s with host.streams := s.host.streams.del (bits (field f.plain 0 4) 0 15) } : State).host.streams.find (bits (field f.plain 0 4) 0 15)) = none)

/-- TENANT_CONFIGURE, TENANT_DISABLE, METER_READ, METER_READ_ALL, LOG_READ, LOG_INTERVAL_END, DIAG_RUN and NBU_DIAG_READ. What a diagnostic read finds of
waits, and a pattern's duration and bits, are free values (log entries 151 and 150). -/
def Obligations.TenantCommands : Prop :=
  ∀ (m : Mbx) (tag : Word) (f : Flight) (s : State),
    (∀ c t, s.turn 0x0020 m tag f → f.opens 24 24 → c = readTenant f.plain → t = field f.plain 0 2 → t < 4096 → c.cls ≤ 2 → field f.plain 3 1 = 0 →
      (if c.rate = 0 then c.burst = 0 else c.rate ≤ c.burst * 1000) → 1 ≤ c.inflight → c.inflight ≤ 4096 → zeroField f.plain 0xE 2 = true →
      c.hbmQuota ≤ 1280 → c.flashQuota ≤ 262144 →
      ((c.cls = 2 → s.otherControls t < 64) → exec (.tenantConfigure m tag) s =
        .next (({ s.rebucket t c with
            tenants.config := (s.rebucket t c).tenants.config.put t c
            tenants.disabled := (s.rebucket t c).tenants.disabled.filter (· != t) } : State).answer f .done [])) ∧
      (c.cls = 2 → 64 ≤ s.otherControls t → exec (.tenantConfigure m tag) s = .next (s.answerDetail f (noResources 64)))) ∧
    (∀ t, s.turn 0x0021 m tag f → f.opens 8 8 → t = field f.plain 0 2 → t < 4096 → field f.plain 2 2 < 2 → zeroField f.plain 4 4 = true →
      let u : State := { s with tenants.disabled := if s.tenants.disabled.contains t then s.tenants.disabled else t :: s.tenants.disabled }
      (field f.plain 2 2 = 0 → exec (.tenantDisable m tag) s = .next ((u.setWork f (.disableWait t)).settle)) ∧
      (field f.plain 2 2 = 1 → exec (.tenantDisable m tag) s = .next ((u.setWork f .fillWait).beginZeroise
        { mbx := f.mbx, tag := f.tag, scope := 1, tenant := t, keyId := 0, collections := s.zeroiseColls 1 t 0, forDisable := true }))) ∧
    (s.turn 0x7020 m tag f → f.plain = [] → f.hdr.csn = 0 → exec (.meterRead m tag) s = .next (s.answer f .done (s.meterRecord f.tenant))) ∧
    (s.turn 0x7021 m tag f → f.opens 8 8 → 1 ≤ field f.plain 2 2 → field f.plain 0 2 + field f.plain 2 2 ≤ 4096 → field f.plain 4 2 < 4 →
      zeroField f.plain 6 2 = true →
      let all := (List.range (field f.plain 2 2)).map (field f.plain 0 2 + ·) ++ (if bit (field f.plain 4 2) 0 then [moduleKey] else [])
      let fit := all.take (s.rspPlain f.mbx / 352)
      exec (.meterReadAll m tag) s =
        .next ((if bit (field f.plain 4 2) 1 then fit.foldl (fun s t => s.clearMeters t) s else s).answer f
          (if fit.length = all.length then .done else .doneTruncated) (fit.flatMap fun t => s.meterRecord t))) ∧
    (∀ o, s.turn 0x7030 m tag f → f.opens 16 16 → 1 ≤ field f.plain 8 2 → field f.plain 8 2 ≤ 4096 → zeroField f.plain 10 6 = true →
      o = ((s.tenants.log.head?.map (·.seq)).getD s.tenants.logNext) →
      let start := min (max (max (field f.plain 0 8) 1) o) s.tenants.logNext
      let want := min (field f.plain 8 2) (s.tenants.logNext - start)
      let n := min want ((s.rspPlain f.mbx - 24) / 32)
      exec (.logRead m tag) s = .next (s.answer f (if n = want then .done else .doneTruncated)
        (leBytes 8 start ++ leBytes 8 (start + n) ++ leBytes 4 (min (o - max (field f.plain 0 8) 1) 0xFFFFFFFF) ++ leBytes 4 n ++
          ((s.tenants.log.filter fun e => start ≤ e.seq).take n).flatMap logEntryBytes))) ∧
    (s.tenants.logInterval / 1000000000 < s.fabTime / 1000000000 → exec .logIntervalEnd s = .next s.endLogInterval) ∧
    (∀ pass fail us test target, s.turn 0x7031 m tag f → f.opens 8 8 → test = field f.plain 0 1 → target = field f.plain 2 2 → 1 ≤ test → test ≤ 4 →
      (test = 3 → target ≤ 19) → (test = 4 → target ≤ 63) → field f.plain 1 1 = 0 → zeroField f.plain 4 4 = true →
      (s.diagRunning test = false → exec (.diagRun m tag pass fail us) s = .next (s.setWork f (.diagWait test target))) ∧
      (s.diagRunning test = true → exec (.diagRun m tag pass fail us) s = .next (s.answerDetail f (busyRetry 1000)))) ∧
    (∀ pass fail us a b, s.flight m.key tag = some f → f.work = .diagWait a b → exec (.diagRun m tag pass fail us) s =
      .next (s.answer f .done (leBytes 4 pass.toNat ++ leBytes 4 fail.toNat ++ leBytes 4 us.toNat ++ zeros 20))) ∧
    (∀ n, s.turn 0x7032 m tag f → f.opens 8 8 → n = field f.plain 0 2 → zeroField f.plain 5 3 = true →
      let list := if n = 0xFFFF then List.range 1280 else [n]
      let u := s.foundIn list
      let status := fitEntries (u.rspPlain f.mbx) (list.map fun k => u.nbuStatus k)
      let counters := fitEntries (u.rspPlain f.mbx) [(List.range 8).flatMap fun i => leBytes 8 (counterOf (list.map fun k => u.nbu k) (8 * i))]
      let log := fitEntries (s.rspPlain f.mbx) ((leBytes 4 (s.nbu n).log.length ++ zeros 12) ::
        (s.nbu n).log.map fun e => leBytes 8 e.time ++ leBytes 4 e.addr ++ leBytes 1 e.kind ++ leBytes 1 e.bytes ++ zeros 2)
      (n ≤ 1279 ∨ n = 0xFFFF → field f.plain 3 1 = 0 → field f.plain 4 1 = 0 →
        (field f.plain 2 1 = 0 → exec (.nbuDiagRead m tag) s = .next (u.answer f (if status.2 then .done else .doneTruncated) status.1.flatten)) ∧
        (field f.plain 2 1 = 1 → exec (.nbuDiagRead m tag) s = .next (u.answer f (if counters.2 then .done else .doneTruncated) counters.1.flatten))) ∧
      (n ≤ 1279 → field f.plain 2 1 = 2 → field f.plain 3 1 = 0 → field f.plain 4 1 = 0 →
        exec (.nbuDiagRead m tag) s = .next (s.answer f (if log.2 then .done else .doneTruncated) log.1.flatten)) ∧
      (n ≤ 1279 → field f.plain 2 1 = 3 → field f.plain 3 1 ≤ 3 → field f.plain 4 1 ≤ 7 →
        let us := 10 + Config.free s.free % 21
        let found := patternFinds (field f.plain 4 1) (Config.free (s.free + 1))
        ((s.nbu n).state = 2 → exec (.nbuDiagRead m tag) s = .next (s.answerDetail f (wrongStateAt 0x20))) ∧
        ((s.nbu n).state ≠ 2 → s.clock < (s.nbu n).patternUntil → exec (.nbuDiagRead m tag) s = .next (s.answerDetail f (busyRetry 50))) ∧
        ((s.nbu n).state ≠ 2 → (s.nbu n).patternUntil ≤ s.clock → exec (.nbuDiagRead m tag) s =
          .next ((({ s with free := s.free + 2 } : State).updNbu n (Nbu.patterned s.clock s.fabTime us found)).answer f .done
            (leBytes 4 found.1 ++ leBytes 4 found.2.1 ++ leBytes 4 found.2.2.1 ++ leBytes 4 us ++ zeros 16)))))

/-- INSERT_*, UPSERT_*, DELETE_ITEMS and DELETE_BY_FILTER. -/
def Obligations.Operations : Prop :=
  ∀ (m : Mbx) (tag : Word) (f : Flight) (s : State) (c : Collection), s.usableColl 0x20 (field f.plain 0 4) f = .ok c → c.isReplica = false →
    let n := field f.plain 4 4
    let body := f.plain.drop 16
    (f.opens 16 16777216 → 1 ≤ n → n ≤ 65536 → zeroField f.plain 8 8 = true →
      (c.desc.model = 0 → body.length = n * vectorRecordBytes c.desc → ∀ recs, readVectorRecords c.desc n 0x30 [] body = .ok recs → s.opRoom c f false n n →
        (s.turn 0x2010 m tag f → exec (.insertVectors m tag) s = .next (s.admitOp c f (.insert recs false) true n)) ∧
        (s.turn 0x2012 m tag f → exec (.upsertVectors m tag) s = .next (s.admitOp c f (.insert recs true) true n))) ∧
      (c.desc.model ≠ 0 → wholeText c.desc n body = (body.length, n) → ∀ recs, readTextRecords c.desc n 0x30 [] body = .ok recs → s.opRoom c f true n n →
        (s.turn 0x2011 m tag f → exec (.insertText m tag) s = .next (s.admitOp c f (.insert recs false) false n)) ∧
        (s.turn 0x2013 m tag f → exec (.upsertText m tag) s = .next (s.admitOp c f (.insert recs true) false n))) ∧
      (f.plain.length = 16 + 8 * n → s.opRoom c f false n 0 → s.turn 0x2014 m tag f →
        exec (.deleteItems m tag) s =
          .next (s.admitOp c f (.delete ((List.range n).map fun i => field f.plain (16 + 8 * i) 8)) true n))) ∧
    (∀ k, k = field f.plain 4 1 → f.opens 40 784 → 1 ≤ k → k ≤ 32 → zeroField f.plain 5 11 = true → f.plain.length = 16 + 24 * k →
      checkFilter c.desc.fields 0x30 k body = .ok () → c.tombCount < 16 → s.opRoom c f false 1 0 → s.turn 0x2015 m tag f →
      exec (.deleteByFilter m tag) s = .next (s.admitOp c f (.deleteByFilter body) true 1)) ∧
    (∀ (b : OpBody) (e : Bool) (k : Nat), s.coll c.id = some c → ∃ d, (s.admitOp c f b e k).coll c.id = some d ∧ d.assigned = c.assigned + 1 ∧
      d.committed = c.committed ∧ d.versions = c.versions ∧ d.segments = c.segments ∧ d.ops.map (·.csn) = c.ops.map (·.csn) ++ [c.assigned + 1])

/-- OPERATION_ACK, OPERATION_APPLY and COMMIT_PUBLISH. That operations are applied in CSN order is the model's reading (log entry 49). -/
def Obligations.OperationLife : Prop :=
  ∀ (col : Word) (s : State) (c : Collection), s.coll col.toNat = some c →
    (∀ csn o (programmed : Bool), c.op csn = some o →
      let roomed : Operation := { o with buffered := o.buffered || s.logRoom o.record.length }
      let o1 : Operation := { roomed with durable := o.durable || (programmed && roomed.buffered) }
      let noted := s.updColl col.toNat fun c => c.updOp csn fun _ => o1
      (o.acked = true ∨ s.ackable o1 = false → exec (.operationAck col csn programmed) s = .next noted) ∧
      (o.acked = false → s.ackable o1 = true → s.serving = true →
        (c.replicas = [] ∨ (s.selfFenced = false ∧ (s.comp.compositions.find c.composition).any (·.fenced) = false)) →
        let t := noted.acknowledge col.toNat csn o1
        let acked := noted.updColl col.toNat fun c => c.updOp csn fun _ => { o1 with acked := true, ackTime := s.clock }
        (∀ items up, o.body = .insert items up → o.encoded = true → t = acked.charge (ownerOf col.toNat) 0x58 items.length) ∧
          (∀ items up, o.body = .insert items up → o.encoded = false → t = { acked.charge (ownerOf col.toNat) 0x58 items.length with
            index.batch := s.index.batch ++ (List.range items.length).map fun i => (col.toNat, csn, i)
            index.batchSince := if s.index.batch.isEmpty then s.clock else s.index.batchSince }) ∧
          ((∀ items up, o.body ≠ .insert items up) → t = acked) ∧
          (∀ f, t.flight o.mbx o.tag = some f → f.work = .ackWait col.toNat csn →
            exec (.operationAck col csn programmed) s = .next (t.answer f .done (leBytes 4 (ackCount o.body) ++ zeros 4) csn)) ∧
          ((∀ f, t.flight o.mbx o.tag = some f → f.work ≠ .ackWait col.toNat csn) → exec (.operationAck col csn programmed) s = .next t))) ∧
    (∀ csn o (tier : Bool), c.op csn = some o → c.applicable o = true → s.serving = true →
      (tier = false → c.looksUp o = true → s.clock < o.ackTime + 4000000 → exec (.operationApply col ⟨csn, tier⟩) s = .next s) ∧
      ((tier = true ∨ c.looksUp o = false ∨ o.ackTime + 4000000 ≤ s.clock) → (opStored o = 0 ∨ c.capped (opStored o) = false) →
        let r := c.apply s.clock o
        let rows := s.placeRows true (fun _ => none) { r.1 with deleteMisses := c.deleteMisses + r.2.2.2, appendsWait := false }
        (rows = none → exec (.operationApply col ⟨csn, tier⟩) s = .next (s.updColl col.toNat fun c => { c with appendsWait := true })) ∧
        (∀ d, rows = some d →
          let stored := (s.setColl d).countWrites c d
          let marked := if r.2.1 = 0 then stored else stored.charge (ownerOf col.toNat) 0x60 r.2.1
          exec (.operationApply col ⟨csn, tier⟩) s = .next (if r.2.2.1 = 0 then marked else marked.charge (ownerOf col.toNat) 0xA8 r.2.2.1)))) ∧
    (∀ p, p = c.prefixEnd c.ops.length →
      c.committed ≤ p ∧ (∀ n, c.committed < n → n ≤ p → ∃ o, c.op n = some o ∧ o.applied = true) ∧
      (p = c.committed → exec (.commitPublish col) s = .next s) ∧
      (c.committed < p → c.availability = .ready → s.serving = true →
        let d := ({ c with committed := p } : Collection).noteCommit s.clock
        d.committed = p ∧ d.ops = c.ops ∧
        exec (.commitPublish col) s = .next ((d.replicas.foldl (fun s r => s.pumpReplica d r) (s.setColl d)).sealAtBoundary col.toNat)))

/-- COLLECTION_CREATE, _DROP, _DROP_COMPLETE, _DESCRIBE, COMMIT_WAIT, COMMIT_WAIT_COMPLETE, GET_ITEMS, ADMISSION_RESUME, COLLECTION_REBUILD, _DONE. -/
def Obligations.CollectionCommands : Prop :=
  ∀ (m : Mbx) (tag : Word) (f : Flight) (s : State),
    (∀ d k pins cls n, s.turn 0x2001 m tag f → f.opens 0xC0 16777216 → fields (createFields f.tenant f.plain) = .ok () → d = readDescriptor f.plain →
      qimageFault d (f.plain.drop 0xC0) = none → s.coll (field f.plain 0 4) = none → s.trk f.tenant d.keyId = some k → s.createModel d f = .ok pins →
      s.classFor f.tenant (field f.plain 0 4 % 2 ^ 20) = some cls → (d.model = 0 ∨ (s.crewOfKind 1).isSome) → s.index.collections.length < 65536 →
      n = createReserve d (readQHeader (f.plain.drop 0xC0)) → n ≤ s.regionFree (placeClassOf s.placeImage cls).region → s.quotaHbm f.tenant n = .ok () →
      exec (.collectionCreate m tag) s = .next ((s.setColl { id := field f.plain 0 4, desc := d, qimage := f.plain.drop 0xC0, gens := [(1, d.keyId, kcv k.key)]
                                                             modelGen := pins.1, vocabGen := pins.2, cls := cls, reserved := n
                                                             segments := [{ id := 1, state := .opened }] }).answer f .done (leBytes 8 n ++ zeros 8))) ∧
    (∀ c id, s.turn 0x2002 m tag f → f.opens 8 8 → zeroField f.plain 4 4 = true → id = field f.plain 0 4 → s.namedColl 0x20 id f = .ok c →
      exec (.collectionDrop m tag) s = .next (((s.stopWaiters id).updColl id fun c =>
        { (c.stopCompaction).discardUncommitted with dropping := some (m.key, tag) }).setWork f (.dropWait id))) ∧
    (∀ (col : Word) c (r : Nat × Word), s.coll col.toNat = some c → c.dropping = some r →
      (s.boundTo col.toNat ≠ [] → exec (.collectionDropComplete col) s = .next s) ∧
      (s.boundTo col.toNat = [] →
        let u := (({ s with
            index.collections := s.index.collections.del col.toNat, index.batch := s.index.batch.filter (·.1 != col.toNat)
            tiers.objects := s.tiers.objects.map fun (o : SharedObject) => if o.collection == col.toNat then { o with superseded := true } else o
            } : State).countFill c).unmapObject col.toNat 0
        u.index.collections = s.index.collections.del col.toNat ∧
        (∀ g, u.flight r.1 r.2 = some g → exec (.collectionDropComplete col) s = .next (u.answer g .done [])) ∧
        (u.flight r.1 r.2 = none → exec (.collectionDropComplete col) s = .next u))) ∧
    (∀ c, s.turn 0x2003 m tag f → f.opens 8 8 → zeroField f.plain 4 4 = true → s.namedColl 0x20 (field f.plain 0 4) f = .ok c →
      exec (.collectionDescribe m tag) s = .next (s.answer f .done (c.desc.raw ++ stateBlock c ((s.liveGensOf c).map (·.1))))) ∧
    (∀ c csn, s.turn 0x2020 m tag f → f.opens 32 32 → field f.plain 4 4 < 2 → 1 ≤ field f.plain 0x10 4 → field f.plain 0x10 4 ≤ 10000000 →
      zeroField f.plain 0x14 12 = true → s.usableColl 0x20 (field f.plain 0 4) f = .ok c → field f.plain 8 8 ≤ c.assigned →
      csn = (if field f.plain 8 8 = 0 then c.assigned else field f.plain 8 8) →
      (commitReached c csn (bit (field f.plain 4 4) 0) = true → exec (.commitWait m tag) s = .next (s.answer f .done (commitPayload c))) ∧
      (commitReached c csn (bit (field f.plain 4 4) 0) = false → exec (.commitWait m tag) s =
        .next (s.setWork f (.commitWait (field f.plain 0 4) csn (bit (field f.plain 4 4) 0) (f.arrival + field f.plain 0x10 4 * 1000))))) ∧
    (∀ id csn sl t c, s.flight m.key tag = some f → f.work = .commitWait id csn sl t → s.coll id = some c →
      (commitReached c csn sl = true → exec (.commitWaitComplete m tag) s = .next (s.answer f .done (commitPayload c))) ∧
      (commitReached c csn sl = false → t ≤ s.clock → exec (.commitWaitComplete m tag) s = .next (s.answer f .deadlineExceeded (commitPayload c))) ∧
      (commitReached c csn sl = false → s.clock < t → exec (.commitWaitComplete m tag) s = .next s)) ∧
    (∀ c n str, s.turn 0x2040 m tag f → 24 ≤ f.plain.length → f.plain.length ≤ 32784 → n = field f.plain 4 2 → 1 ≤ n → n ≤ 4096 → field f.plain 6 2 < 4 →
      zeroField f.plain 0xA 6 = true → f.plain.length = 16 + 8 * n →
      (if hdrStream f.hdr then (s.ownStream 0x28 (field f.plain 8 2) f).map some else .ok none) = .ok str → s.usableColl 0x20 (field f.plain 0 4) f = .ok c →
      let vec := bit (field f.plain 6 2) 0
      let tok := bit (field f.plain 6 2) 1
      ((!vec || c.desc.storeFull) && (!tok || c.desc.storeTokens)) = true → f.bound = none → f.hdr.csn.toNat ≤ c.assigned →
      (f.hdr.csn.toNat = 0 ∨ c.floor ≤ f.hdr.csn.toNat → f.hdr.csn.toNat ≤ c.committed →
        let q := if f.hdr.csn.toNat = 0 then c.committed else f.hdr.csn.toNat
        let u := s.updFlight f.mbx f.tag fun g => { g with bound := some q, coll := some c.id, mapBound := c.map.version, boundAt := s.clock }
        let found := (List.range n).map fun i => (field f.plain (16 + 8 * i) 8, versionsOf c q (field f.plain (16 + 8 * i) 8))
        let entries := found.flatMap fun x => if x.2.isEmpty then [missingEntry c.desc x.1] else x.2.map (itemEntry c.desc vec tok)
        let fit := fitEntries (u.rspPlain f.mbx) entries
        let reads := (if vec then u.recordReads c 1 (found.flatMap Prod.snd) else []) ++ (if tok then u.recordReads c 2 (found.flatMap Prod.snd) else [])
        (u.rowsBlocked c (found.flatMap Prod.snd) = some true → exec (.getItems m tag) s = .next (u.answer f .dataDamaged [])) ∧
        (u.rowsBlocked c (found.flatMap Prod.snd) = some false → exec (.getItems m tag) s = .next (u.setWork f .rebuildWait)) ∧
        (u.rowsBlocked c (found.flatMap Prod.snd) = none →
          (∀ x, str = some x → exec (.getItems m tag) s =
            .next (u.afterReads f reads { status := .done, parts := packEntries (recordMax x - 24) entries, stream := some (field f.plain 8 2) })) ∧
          (str = none → exec (.getItems m tag) s =
            .next (u.afterReads f reads { status := if fit.2 then .done else .doneTruncated, parts := fit.1 })))) ∧
      (c.floor ≤ f.hdr.csn.toNat → c.committed < f.hdr.csn.toNat → exec (.getItems m tag) s = .next (s.setWork f (.csnWait c.id f.hdr.csn.toNat)))) ∧
    (∃ t, exec (.admissionResume m) s = .next t ∧ ∀ g ∈ t.host.flights, g.mbx = m.key → ∀ c q, g.work = .csnWait c q →
      ∃ x, t.coll c = some x ∧ x.committed < q ∧ x.availability = .ready ∧ x.dropping = none) ∧
    (∀ id c, s.coll id = some c → c.availability = .keyPending [] → c.dropping = none → s.power.season = .summer →
      exec (.collectionRebuild id) s = .next (s.setColl { c with availability := .rebuilding s.clock })) ∧
    (∀ id c since, s.coll id = some c → c.availability = .rebuilding since → c.dropping = none →
      let recs := (c.segments.filter (·.tombstone)).flatMap (·.records)
      let marked := c.versions.map fun v => (recs.filter fun r => r.1 == v.seg && r.2.1 == v.pos).foldl (fun v r => markVersion r.2.2 v) v
      let ops := c.ops.map fun o => s.encodeAll c { o with acked := true, applied := false }
      let top := (c.ops.map (·.csn)).foldl max c.committed
      let replayed := s.replayLog c
      replayed = { ops.foldl (fun c o => c.replay s.clock o) { c with versions := marked, ops := ops } with
        committed := top, assigned := top, floor := top, availability := .ready } ∧
      (s.placeAgain replayed = none → exec (.collectionRebuildDone id) s = .next s) ∧
      (∀ d, s.placeAgain replayed = some d → exec (.collectionRebuildDone id) s = .next ((s.setColl d).countWrites { replayed with versions := [] } d) ∧
        d.availability = .ready ∧ d.assigned = top ∧ d.floor = top ∧ d.committed = top))

/-- SEGMENT_SEAL, _TRIGGER, SEGMENT_SEALED, SEGMENT_RETIRE, TOMBSTONE_MATERIALISED, COMPACT, AUTO_COMPACTION_START, COMPACTION_LIST_SWITCH. Which segments a
compaction may take, and that an automatic one takes those over COMPACT_PCT and no others, are the model's choices (log entries 147 and 148). -/
def Obligations.Segments : Prop :=
  (∀ (m : Mbx) (tag : Word) (f : Flight) (s : State) (c : Collection) (x : Segment) (id : Nat), s.turn 0x2030 m tag f → f.opens 8 8 →
    zeroField f.plain 4 4 = true → id = field f.plain 0 4 → s.usableColl 0x20 id f = .ok c → c.openSegment = some x →
    (c.rows x.id = [] → exec (.segmentSeal m tag) s =
      .next (((s.updColl id Collection.askTombs).sealAtBoundary id).answer f .done (sealPayload 0 0 c.committed))) ∧
    (c.rows x.id ≠ [] → c.sealingCount < 4 → exec (.segmentSeal m tag) s =
      .next (((s.updColl id fun c => { c.askTombs with sealRequested := true }).setWork f (.sealWait id 0)).sealAtBoundary id)) ∧
    (c.rows x.id ≠ [] → 4 ≤ c.sealingCount → exec (.segmentSeal m tag) s = .next (s.answerDetail f (busyRetry 20000)))) ∧
  (∀ (m : Mbx) (tag : Word) (f : Flight) (s : State) (c : Collection) (id : Nat), s.turn 0x2031 m tag f → f.opens 16 16 →
    (field f.plain 4 4 = 1 ∨ field f.plain 4 4 = 2) → zeroField f.plain 8 8 = true → id = field f.plain 0 4 → s.usableColl 0x20 id f = .ok c →
    c.compaction = none →
    let inputs := ((eligible c (purgePoint c)).filter fun x => field f.plain 4 4 == 1 || x.gen != c.gen).map (·.id)
    largestList c inputs ≤ s.regionFree (placeClassOf s.placeImage c.cls).region → (inputs = [] ∨ c.durableRoom = true) →
    exec (.compact m tag) s = .next (((s.beginCompaction c inputs (some (m.key, tag))).setWork f (.compactWait id)).finishCompaction id)) ∧
  (∀ (col : Word) (s : State) (c : Collection), s.coll col.toNat = some c → s.serving = true →
    (c.availability = .ready → c.dropping = none →
      let asked := if s.logFull || c.openTombs.any (sealDue c s.clock) then c.askTombs else c
      let due := c.openSegment.any fun x => sealDue c s.clock x || (s.logFull && !(c.rows x.id).isEmpty)
      exec (.segmentSealTrigger col true) s = .next ((s.setColl asked).sealAtBoundary col.toNat) ∧
      exec (.segmentSealTrigger col false) s = .next ((s.setColl { c with sealRequested := c.sealRequested || due }).sealAtBoundary col.toNat)) ∧
    (∀ seg x, c.segment seg = some x → x.state = .sealing →
      (c.availability = .ready → s.flash.lowSpace = false → s.flash.failed = false → (x.tombstone = true ∨ c.durableRoom = true) →
        let d := { c.updSegment seg (fun x => { x with state := .sealed }) with
          map.evaluate := true, versions := c.versions.map fun (v : Version) => if v.seg == seg then { v with staged := false } else v }
        let e := d.dropPredicates.release
        let t := ((s.setColl e).answerSealers col.toNat x (d.rows seg).length (d.highest x)).sealAtBoundary col.toNat
        exec (.segmentSealed col seg false) s = .next (if e.ops.length < c.ops.length then t.sendRelease col.toNat e.sealedCsn else t)) ∧
      exec (.segmentSealed col seg true) s = .next (s.failSealers col.toNat seg)) ∧
    (∀ seg x, c.segment seg = some x → x.state = .merging → (∀ k, c.compaction = some k → k.inputs.contains seg = false) → s.segmentFree c seg = true →
      let d := { c with
        segments := c.segments.filter fun y => y.id != seg, extents := c.extents.filter fun e => e.seg != seg
        indices := c.indices.filter fun x => x.seg != seg }
      let t := (s.setColl d.retireTombs.release).unmapObject col.toNat seg
      t.index = (s.setColl d.retireTombs.release).index ∧
      exec (.segmentRetire col seg) s = .next { t with
        tiers.objects := t.tiers.objects.map fun (o : SharedObject) =>
          if o.collection == col.toNat && o.segment == seg then { o with superseded := true } else o }) ∧
    (∀ csn t, c.predicates.find? (·.csn == csn) = some t → csn ≤ c.committed →
      (t.marked = true → exec (.tombstoneMaterialised col csn) s = .next (s.setColl c.dropPredicates.release)) ∧
      (t.marked = false → s.workBlocked c (fun _ => true) = true → exec (.tombstoneMaterialised col csn) s = .next s) ∧
      (t.marked = false → s.workBlocked c (fun _ => true) = false →
        let r := c.materialise s.clock t
        let wide := (readPreds t.predicates).any fun p => (c.desc.fields[p.field]?).any (·.area)
        let u := ((s.countWrites c r.1).countPass c (16 + (if wide then c.desc.extBytes else 0))).setColl r.1.dropPredicates.release
        exec (.tombstoneMaterialised col csn) s = .next (if r.2 = 0 then u else u.charge (ownerOf col.toNat) 0x60 r.2))) ∧
    (let p := purgePoint c
     let inputs := ((eligible c p).filter (overPct c p)).map (·.id)
     c.desc.compactPct ≠ 0 → c.compaction = none → c.availability = .ready → c.dropping = none → inputs ≠ [] → c.durableRoom = true →
      s.power.season = .summer → largestList c inputs ≤ s.regionFree (placeClassOf s.placeImage c.cls).region →
      exec (.autoCompactionStart col) s = .next (s.beginCompaction c inputs none)) ∧
    (∀ k l rest, c.compaction = some k → k.lists = l :: rest →
      ((s.boundBelow col.toNat k.purge = true ∨ s.workBlocked c (ownedBy l) = true) → exec (.compactionListSwitch col none) s = .next s) ∧
      (s.boundBelow col.toNat k.purge = false → s.workBlocked c (ownedBy l) = false →
        (∀ d, s.switchList c k l rest = some d →
          exec (.compactionListSwitch col none) s = .next (((s.setColl d).countWrites c d).finishCompaction col.toNat)) ∧
        (s.switchList c k l rest = none → exec (.compactionListSwitch col none) s = .next s))) ∧
    (∀ k l, c.compaction = some k → exec (.compactionListSwitch col (some l)) s = .next (s.failCompaction c k l)) ∧
    (∀ k, c.compaction = some k → k.lists = [] → exec (.compactionListSwitch col none) s = .next (s.finishCompaction col.toNat)))

/-- NBU_MARK_WRITE, GRANULE_UNCORRECTABLE, EXTENT_REBUILD_DONE, RUN_RETIRE, PATROL_SCRUB, NBU_FAILED and PSEUDO_CHANNEL_OFFLINE. -/
def Obligations.NearBankUnits : Prop :=
  ∀ (n : Fin 1280) (s : State),
    (∀ (col : Word) (c : Collection) (csn id ins : Nat), s.coll col.toNat = some c → c.availability = .ready → c.dropping = none → s.serving = true →
      let r := c.mark s.clock csn fun v => v.id == id && v.ins == ins && (c.opMarks csn v || c.tombMarks csn v)
      let t := ((s.setColl r.1).countWrites c r.1).charge (ownerOf col.toNat) 0x60 1
      ((∀ v ∈ c.versions, v.id = id → v.ins = ins → c.opMarks csn v = false ∧ c.tombMarks csn v = false) →
        exec (.nbuMarkWrite col csn id ins) s = .next s) ∧
      ((∃ v ∈ c.versions, v.id = id ∧ v.ins = ins ∧ v.del = none ∧ (c.opMarks csn v = true ∨ c.tombMarks csn v = true)) →
        exec (.nbuMarkWrite col csn id ins) s = .next t ∧ t.host = s.host) ∧
      (∀ o v, c.op csn = some o → c.applicable o = true → visible c (csn - 1) v = true →
        ((∃ ids, o.body = .delete ids ∧ v.id ∈ ids) ∨ (∃ l, o.body = .insert l true ∧ ∃ x ∈ l, x.id = v.id)) → c.opMarks csn v = true) ∧
      (∀ x v, c.predicates.find? (·.csn == csn) = some x → x.marked = false → csn ≤ c.committed → v.del = none → v.ins < csn →
        passes c.desc.fields (readPreds x.predicates) v.packed v.ext = true → c.tombMarks csn v = true)) ∧
    (∀ (addr : BitVec 30) (hit : GranuleHit), (s.nbu n.val).state ≠ 2 → s.serving = true → s.hitHolds n.val addr.toNat hit = true →
      let u := (s.updNbu n.val fun x => nbuCount 0x38 1 ({ x with
        ue := min (x.ue + 1) 0xFFFFFFFF, broken := addr.toNat / 2048 :: x.broken.filter (· != addr.toNat / 2048) }.logEcc s.fabTime addr.toNat 2 0)).poisonHit
          n.val hit
      exec (.granuleUncorrectable n addr hit none) s = .next u ∧
      (∀ c l e, hit = .row c l e → ∃ p ∈ u.index.poisoned, p.collection = c ∧ p.extent = e) ∧
      (∀ m tag, let jobs := match hit with | .row c _ e => (u.nbu n.val).jobsOver m.key tag c e | _ => []
        (jobs ≠ [] → jobs.all (·.speculative) = true → exec (.granuleUncorrectable n addr hit (some (m, tag))) s =
          .next (u.updNbu n.val fun x => { x with jobs := x.jobs.map fun j => if jobs.contains j then { j with damaged := true } else j })) ∧
        (jobs = [] ∨ jobs.all (·.speculative) = false →
          (∀ f, u.flight m.key tag = some f → exec (.granuleUncorrectable n addr hit (some (m, tag))) s =
            .next ((u.abortStreams f).answer f .dataDamaged (endPayload (u.extBytesOf f) f))) ∧
          (u.flight m.key tag = none → exec (.granuleUncorrectable n addr hit (some (m, tag))) s = .next u)))) ∧
    (∀ c l e, let hit := fun p : PoisonedExtent => p.collection == c && p.list == l && p.extent == e
      (s.index.poisoned.any hit = false → ∀ ok, exec (.extentRebuildDone c l e ok) s = .next s) ∧
      (s.index.poisoned.any hit = true →
        exec (.extentRebuildDone c l e false) s = .next (({ s with
          index.poisoned := s.index.poisoned.map fun p => if hit p then { p with dead := true } else p } : State).resumeRebuild).resumeSearches ∧
        (∀ t, s.move c e = some t → exec (.extentRebuildDone c l e true) s =
          .next (({ t with index.poisoned := t.index.poisoned.filter fun p => !hit p } : State).resumeRebuild).resumeSearches) ∧
        (s.move c e = none → exec (.extentRebuildDone c l e true) s = .next s))) ∧
    (∀ run : Fin 524288,
      (run.val < 0x7FFE0 → (s.nbu n.val).retired.contains run.val = false → ((s.nbu n.val).broken.contains run.val = true ∨
          8 ≤ ((s.nbu n.val).corrected.filter fun c => c.1 == run.val && s.clock < c.2 + 3600000000000).length) →
        let t := s.updNbu n.val fun x => { x with retired := run.val :: x.retired }.logEcc s.fabTime (run.val * 2048) 3 0
        let moved := (s.extentsIn n.val run.val).foldl (fun a e => a.bind fun s => s.move e.1 e.2) (some t)
        (∀ u, moved = some u → exec (.runRetire n run) s = .next u) ∧ (moved = none → exec (.runRetire n run) s = .next s)) ∧
      ((s.nbu n.val).retired.contains run.val = true ∨ 0x7FFE0 ≤ run.val → exec (.runRetire n run) s = .next s)) ∧
    (∀ corrected, (s.nbu n.val).state ≠ 2 → s.serving = true →
      let u := corrected.foldl (fun (s : State) (g : BitVec 30 × Fin 3) => s.updNbu n.val fun x =>
        nbuCount 0x30 1 ({ x with corrected := (g.1.toNat / 2048, s.clock) :: x.corrected.filter fun c => s.clock < c.2 + 3600000000000 }.logEcc
          s.fabTime g.1.toNat 1 g.2.val)) s
      exec (.patrolScrub n corrected false) s = .next u ∧
      exec (.patrolScrub n corrected true) s = .next (u.updNbu n.val fun x =>
        let x := { x with scrubbed := u.clock }
        if x.state == 0 then nbuCount 0x00 (2 ^ 30) x else x)) ∧
    ((s.nbu n.val).state = 0 → exec (.nbuFailed n) s = .next ((s.updNbu n.val fun x => { x with state := 1 }).logUnit n.val)) ∧
    ((s.nbu n.val).state ≠ 2 →
      let t := s.takeOffline n.val
      let sent := t.sendJobs ((s.nbu n.val).jobs.map fun j => (t.jobHome n.val j, j))
      exec (.pseudoChannelOffline n) s = .next (sent.1.holdJobs sent.2) ∧
      (t.nbu n.val).state = 2 ∧ (t.nbu n.val).jobs = [] ∧ (∀ p ∈ s.index.poisoned, p ∈ t.index.poisoned) ∧
      ∀ x ∈ s.heldExtents, x.2.nbu = n.val → ∃ p ∈ t.index.poisoned, p.collection = x.1.id ∧ p.extent = x.2.id)

/-- REBALANCE_PUBLISH, LEGACY_REDISTRIBUTE_DONE, FORWARDING_RECORD_RELEASE and MAP_RUN_REPAIR. Which target takes an edge's place is a free value; in what
form a redistribution or a rebuilt slot goes to a replica is the model's choice (log entry 153). -/
def Obligations.MapUpkeep : Prop :=
  ∀ (col : Word) (s : State) (c : Collection), s.coll col.toNat = some c → c.availability = .ready → s.serving = true →
    (c.map.evaluate = true → c.atBoundary = true → c.isReplica = false → c.dropping = none →
      (c.rebalances = [] → exec (.rebalancePublish col) s = .next (s.setColl { c with map.evaluate := false })) ∧
      (c.rebalances ≠ [] →
        let d := s.publishMap { c with map.evaluate := false } fun c' => c.rebalances.foldl (fun c r => c.rebalance r.1 r.2.1 r.2.2) c'
        exec (.rebalancePublish col) s = .next (s.tellMap d c.rebalances) ∧ d.map.version = c.map.version + 1)) ∧
    (∀ slot e, c.current.find? (fun e => e.list == slot && e.legacy.isSome) = some e → c.dropping = none → c.isReplica = false →
      (s.workBlocked c (ownedBy slot) = true ∨ c.atBoundary = false → exec (.legacyRedistributeDone col slot) s = .next s) ∧
      (s.workBlocked c (ownedBy slot) = false → c.atBoundary = true →
        (∀ d, s.redistribute (s.keepMap c) slot (e.legacy.getD slot) = some d →
          let d' : Collection := { d with map.version := d.map.version + 1, map.record := d.gen }
          exec (.legacyRedistributeDone col slot) s = .next ((s.tellMap d' [(slot, e.legacy.getD slot, slot)]).countWrites c d')) ∧
        (s.redistribute (s.keepMap c) slot (e.legacy.getD slot) = none → exec (.legacyRedistributeDone col slot) s = .next s))) ∧
    (∀ slot epoch r, c.map.forwards.find? (fun r => r.slot == slot && r.epoch == epoch) = some r →
      let next := r.targets.getD (Config.free s.free % r.targets.length) slot
      exec (.forwardingRecordRelease col slot epoch) s = .next (({ s with free := s.free + 1 } : State).setColl
        { c with map.slots := c.redirected slot epoch next, map.forwards := c.map.forwards.erase r })) ∧
    (∀ slot part, let hit := fun p : Nat × Nat × Bool => p.1 == slot && p.2.1 == part
      (c.map.poisoned.find? hit = some (slot, part, true) → c.atBoundary = true → ∀ holds,
        let d := s.publishMap c fun c => { c.rebuildSlot slot part with map.poisoned := (c.rebuildSlot slot part).map.poisoned.filter fun p => !hit p }
        exec (.mapRunRepair col ⟨slot, part⟩ holds) s = .next (s.tellMap d [(slot, slot, slot)])) ∧
      (c.map.poisoned.find? hit = some (slot, part, false) →
        exec (.mapRunRepair col ⟨slot, part⟩ true) s = .next (s.setColl { c with map.poisoned := c.map.poisoned.filter fun p => !hit p }).resumeRebuild ∧
        exec (.mapRunRepair col ⟨slot, part⟩ false) s =
          .next ((s.setColl { c with map.poisoned := c.map.poisoned.map fun p => if hit p then (slot, part, true) else p }).logIntegrity
            (ownerOf col.toNat) 1 slot).resumeRebuild))

/-- SEARCH, SEARCH_RERANK, SEARCH_BATCH, SELECT_TOPK and MERGE_PARTIAL. -/
def Obligations.Searches : Prop :=
  ∀ (m : Mbx) (tag : Word) (f : Flight) (s : State),
    (∀ (rr : Bool) str c g u, s.turn (if rr then 0x3002 else 0x3001) m tag f → 64 ≤ f.plain.length → f.mbx < 2 ^ 20 → f.bound = none →
      s.unfenced (if bit (field f.plain 6 2) 0 then field f.plain 0x1C 4 else 0) = .ok () →
      checkQuery rr (hdrStream f.hdr) 0x20 0x0C f.hdr.csn.toNat f.plain = .ok () → s.streamField 0x34 (field f.plain 0x14 2) f = .ok str →
      s.usableColl 0x20 (field f.plain 0 4) f = .ok c → f.hdr.csn.toNat ≤ c.assigned → checkQueryOn c 0x20 f.plain = .ok () →
      s.bindReranker c f = .ok (g, u) →
      let d := queryDeadline f.arrival f.plain
      let v := (u.updFlight f.mbx f.tag fun x => { x with deadline := d })
      v.searchesInFlight + 1 ≤ 8192 →
      (∀ w t, bit (field f.plain 6 2) 0 = false → f.hdr.csn.toNat = 0 ∨ c.floor ≤ f.hdr.csn.toNat → f.hdr.csn.toNat ≤ c.committed →
        let q := if f.hdr.csn.toNat = 0 then c.committed else f.hdr.csn.toNat
        let v2 := v.updFlight f.mbx f.tag fun g => { g with bound := some q, coll := some c.id, mapBound := c.map.version, boundAt := v.clock }
        v2.flight f.mbx f.tag = some w → v2.searchBound c q g w = .ok t →
        (rr = false → exec (.search m tag) s = .next t) ∧ (rr = true → exec (.searchRerank m tag) s = .next t)) ∧
      (bit (field f.plain 6 2) 0 = false → c.floor ≤ f.hdr.csn.toNat → c.committed < f.hdr.csn.toNat →
        (rr = false → exec (.search m tag) s = .next (v.setWork f (.csnWait c.id f.hdr.csn.toNat))) ∧
        (rr = true → exec (.searchRerank m tag) s = .next (v.setWork f (.csnWait c.id f.hdr.csn.toNat)))) ∧
      (∀ t, bit (field f.plain 6 2) 0 = true → v.fabricSearch { f with deadline := d } c = .ok t →
        (rr = false → exec (.search m tag) s = .next t) ∧ (rr = true → exec (.searchRerank m tag) s = .next t))) ∧
    (∀ (rr : Bool) q t, s.turn (if rr then 0x3002 else 0x3001) m tag f → f.mbx < 2 ^ 20 → f.bound = some q → s.searchAgain f q = .ok t →
      (rr = false → exec (.search m tag) s = .next t) ∧ (rr = true → exec (.searchRerank m tag) s = .next t)) ∧
    (∀ c q rr w t, let u := s.bindPinned c w
      (field w.plain 0xE 1 = 2 → ∀ g, u.generation .model c.desc.model c.modelGen = some g → g.damaged = []) →
      (∀ g, u.generation .model rr.1 rr.2 = some g → g.damaged = []) → (w.mbx < 2 ^ 20 ∨ 2 ^ 40 ≤ w.mbx) →
      u.crewAtOnce (placeClassOf u.placeImage c.cls).searchCrew (selectionPages (qdDepth w.plain) (decide (256 < qdDepth w.plain)) (!qdCalm w.plain)) w t →
      let img := (u.generation .model c.desc.model c.modelGen).elim [] (·.image)
      let x := prepareQuery c img ((u.generation .vocab c.desc.vocab c.vocabGen).elim [] (·.image)) w.plain
      (field w.plain 0xE 1 ≠ 2 → s.searchBound c q rr w = .ok (t.startScans c q rr w x)) ∧
      (field w.plain 0xE 1 = 2 → ∀ t', t.reserveOnce w (readModelHeader img) (modelSequence (readModelHeader img) x.kept).1.length = .ok t' →
        s.searchBound c q rr w = .ok (t'.startScans c q rr w x))) ∧
    (∀ items str n, s.turn 0x3003 m tag f → 16 ≤ f.plain.length → f.plain.length ≤ 8603664 → n = field f.plain 0 2 → 1 ≤ n → n ≤ 256 →
      (hdrStream f.hdr = true ∨ field f.plain 2 2 = 0) → zeroField f.plain 4 12 = true → s.host.flights.any (isItemOf f) = false →
      readItems n 0x30 (f.plain.drop 16) = .ok items → (f.hdr.csn = 0 ∨ (items.all fun x => field x.2 0 4 == field f.plain 0x18 4) = true) →
      s.streamField 0x22 (field f.plain 2 2) f = .ok str → checkItemFields f items = .ok () → s.checkItems f items = .ok () → s.searchesInFlight + n ≤ 8192 →
      let run := fun (q : Option Nat) (s : State) =>
        let v := s.updFlight f.mbx f.tag fun g => { g with results := List.replicate n none }
        ({ v with host.flights := v.host.flights ++ items.mapIdx fun i x => v.itemFlight f i x.2 q } : State).runBatch f
      (∀ t, f.hdr.csn = 0 → run none s = .ok t → exec (.searchBatch m tag) s = .next t) ∧
      (∀ c, f.hdr.csn ≠ 0 → s.coll (field f.plain 0x18 4) = some c → f.bound = none → f.hdr.csn.toNat ≤ c.assigned → c.floor ≤ f.hdr.csn.toNat →
        (∀ t, f.hdr.csn.toNat ≤ c.committed →
          run (some f.hdr.csn.toNat) (s.updFlight f.mbx f.tag fun g => { g with
            bound := some f.hdr.csn.toNat, coll := some c.id, mapBound := c.map.version, boundAt := s.clock }) = .ok t →
          exec (.searchBatch m tag) s = .next t) ∧
        (c.committed < f.hdr.csn.toNat → exec (.searchBatch m tag) s = .next (s.setWork f (.csnWait c.id f.hdr.csn.toNat))))) ∧
    (∀ t, s.turn 0x3003 m tag f → s.host.flights.any (isItemOf f) = true → s.runBatch f = .ok t → exec (.searchBatch m tag) s = .next t) ∧
    (∀ t, let items := s.host.flights.filter (isItemOf f)
      let cls := (items.head?.bind fun g => s.coll (field g.plain 0 4)).elim 0 (·.cls)
      let pages := items.foldl (fun n g => max n (selectionPages (qdDepth g.plain) (decide (256 < qdDepth g.plain)) (!qdCalm g.plain))) 0
      s.crewAtOnce (placeClassOf s.placeImage cls).searchCrew pages f t →
      s.runBatch f = .ok (items.foldl (fun s g => match s.flight g.mbx g.tag with
        | some g => match s.runItem g with
          | .ok t => t
          | .error d => s.answerDetail g d
        | none => s) (t.setWork f .batch))) ∧
    (∀ n k str t, s.turn 0x3010 m tag f → f.opens 16 16000016 → fields (selectFields f 4 1000000) = .ok () → n = field f.plain 4 4 →
      f.plain.length = 16 + 16 * n → checkInputs n 0x30 (f.plain.drop 16) = .ok () → s.streamField 0x28 (field f.plain 8 2) f = .ok str → k = field f.plain 0 2 →
      s.crewAtOnce ((s.crewOfKind 3).getD 0) (selectionPages k (decide (256 < k)) false) f t (if k ≤ 256 then 1 else 4) →
      let rows := ((records 16 n (f.plain.drop 16)).map fun r => (field r 0 8, BitVec.ofNat 32 (field r 8 4))).filter fun r => !f32IsNan r.2
      exec (.selectTopk m tag) s = .next (t.answerSelection f str k (bit (field f.plain 2 2) 0) (n - rows.length) n
        (rows.map fun r => { id := r.1, key := scoreKey (if bit (field f.plain 2 2) 1 then r.2 ^^^ 0x80000000#32 else r.2), node := s.nodeId }))) ∧
    (∀ r k str t, s.turn 0x3011 m tag f → f.opens 16 16777216 → fields (selectFields f 2 4096) = .ok () →
      readLists (field f.plain 4 4) 0x30 0 (f.plain.drop 16) = .ok r → s.streamField 0x28 (field f.plain 8 2) f = .ok str → k = field f.plain 0 2 →
      s.crewAtOnce ((s.crewOfKind 3).getD 0) (selectionPages k (decide (256 < k)) false) f t (if k ≤ 256 then 1 else 4) →
      exec (.mergePartial m tag) s = .next (t.answerSelection f str k (bit (field f.plain 2 2) 0) r.2.1 r.2.2 r.1))

/-- SCAN_JOB, SCAN_JOB_COMPLETE, GATE_COMPACTION, THRESHOLD_UPDATE, REFINE_PREFETCH, SPECULATION_SQUASH and ENCODER_BATCH_CLOSE. The ceiling of 5 %
in REFINE_PREFETCH's cap, and which extents of a slow unit tiles scan, are the model's choice. -/
def Obligations.Scans : Prop :=
  ∀ (n : Fin 1280) (m : Mbx) (tag : Word) (f : Flight) (r : SearchRun) (s : State),
    ((s.nbu n.val).state = 2 ∨ s.serving = false → exec (.scanJob n) s = .next s) ∧
    ((s.nbu n.val).state ≠ 2 → s.serving = true →
      let u := s.takeHeld n.val 288
      (u.nextJob (u.nbu n.val) = none → exec (.scanJob n) s = .next u) ∧
      ∀ j c, u.nextJob (u.nbu n.val) = some j → u.flight j.mbx j.tag = some f → u.coll j.collection = some c → f.work = .search r →
        (u.jobBlocked j = some true → j.speculative = true → exec (.scanJob n) s =
          .next (u.updNbu n.val fun x => x.rotate j ({ j with damaged := true }.advance j.found 0 0))) ∧
        (u.jobBlocked j = some true → j.speculative = false → exec (.scanJob n) s =
          .next ((u.squashReads f r.prefetch r.fetched.length).answer f .dataDamaged (endPayload c.desc.extBytes f))) ∧
        (u.jobBlocked j ≠ some true →
          let rows := (j.extents.getD j.scanned (0, [])).2
          let row := c.desc.sketchBits / 8 + 16 + (if readsExtended c r.csn r.plain then c.desc.extBytes else 0)
          let v := (u.tilesScan n.val).2.updNbu n.val fun x =>
            let x := x.rotate j (j.advance (scanRows c r j.t rows j.found) rows.length row)
            if x.state == 0 && !(u.tilesScan n.val).1 then nbuCount 0x08 rows.length (nbuCount 0x00 (rows.length * row) x) else x
          exec (.scanJob n) s = .next (if j.speculative then { v with index.specBytes := v.index.specBytes + rows.length * row } else v))) ∧
    ((s.nbu n.val).jobs.find? (fun j => j.result.isSome && !j.speculative) = none → exec (.scanJobComplete n) s = .next s) ∧
    (∀ j l, (s.nbu n.val).jobs.find? (fun j => j.result.isSome && !j.speculative) = some j → j.result = some l → s.flight j.mbx j.tag = some f →
      f.work = .search r →
      let k := min r.stage.room (if qdDepth r.plain ≤ 1024 then l.length else 256)
      (k = 0 → l ≠ [] → exec (.scanJobComplete n) s = .next s) ∧
      (k < l.length → k ≠ 0 → exec (.scanJobComplete n) s = .next ((s.updNbu n.val fun x =>
          nbuCount 0x10 (l.take k).length (x.setJob j { j with result := some (l.drop k) })).setWork f
        (.search { r with stage := r.stage.offer (l.take k) }))) ∧
      (l.length ≤ k → exec (.scanJobComplete n) s = .next ((s.updNbu n.val fun x =>
          nbuCount 0x10 l.length { x with jobs := x.jobs.filter (· != j) }).searchProgress f { r with
        stage := r.stage.offer l, delivered := r.delivered + 1, items := r.items + j.examined
        bytes := r.bytes.put n.val (r.bytes.getD n.val 0 + j.bytes) }))) ∧
    (s.flight m.key tag = some f → f.work = .search r →
      (r.stage.full ≠ [] → exec (.gateCompaction m tag) s = .next (s.setWork f (.search { r with stage := (r.stage.compact).swap }))) ∧
      (r.stage.full = [] → exec (.gateCompaction m tag) s = .next s) ∧
      exec (.thresholdUpdate n m tag) s = .next (s.updNbu n.val fun x => { x with jobs := x.jobs.map fun j =>
        if j.mbx == f.mbx && j.tag == f.tag && !j.speculative && j.result.isNone then { j with t := max j.t r.stage.t } else j }) ∧
      (∀ c, s.coll r.collection = some c →
        let due : Prop := qdRefine r.plain ≠ 0 ∧ r.probing = none ∧ r.stage.list.length = qdDepth r.plain ∧ 3 * r.jobs ≤ 4 * r.delivered ∧
          s.mayPrefetch r.plain = true ∧ s.serving = true;
        (¬ due → exec (.refinePrefetch m tag) s = .next s) ∧
        (due →
          let vs := ((r.stage.list.take ((qdDepth r.plain + 1) / 2)).filterMap c.versionAt).filter fun v => !r.staged.contains v.key
          let new := capReads ((5 * readShare s.power.rates + 99) / 100 - s.index.specReads)
            ((s.recordReads c (if qdFull r.plain then 1 else 0) vs).filter fun x =>
              !(r.prefetch.any (sameSector x) || r.fetched.any fun y => sameSector x y.1))
          exec (.refinePrefetch m tag) s = .next (({ s with
              index.specReads := s.index.specReads + (new.filter fun x => x.tier == .flash).length
              comp.readsIssued := s.comp.readsIssued ++ (new.filter (·.area < 2)).map fun _ => (s.clock, false) } : State).setWork f
            (.search { r with prefetch := r.prefetch ++ new, staged := r.staged ++ (vs.filter (·.staged)).map (·.key) })))) ∧
      (r.probing = none → exec (.speculationSquash m tag) s = .next s) ∧
      (∀ probe, r.probing = some probe → exec (.speculationSquash m tag) s = .next (s.endTraversal f r probe))) ∧
    (∀ probe t (j : ScanJob), j.mbx = f.mbx → j.tag = f.tag → j.speculative = true →
      (j.list ∈ probe → confirmJob f probe t j = { j with speculative := false, t := max j.t t }) ∧
      (j.list ∉ probe → confirmJob f probe t j = j)) ∧
    (∀ x ∈ (s.squashJobs f.tenant f.mbx f.tag (·.speculative)).index.nbus.vals, ∀ j ∈ x.jobs, j.mbx = f.mbx → j.tag = f.tag → j.speculative = false) ∧
    (let b := s.index.batch
      let due : Prop := b ≠ [] ∧ s.serving = true ∧
        (∀ x ∈ b.take 64, ∀ c g, s.coll x.1 = some c → s.generation .model c.desc.model c.modelGen = some g → g.damaged = []) ∧
        s.batchFits (b.take 64) = true ∧ (64 ≤ b.length ∨ s.index.batchSince + 1000000 ≤ s.clock);
      (due → exec .encoderBatchClose s = .next ((b.take 64).foldl State.encodeOne { s with index.batch := b.drop 64, index.batchSince := s.clock })) ∧
      (¬ due → exec .encoderBatchClose s = .next s))

/-- CREW_FORM, CREW_QUEUE_TIMEOUT, WORK_STEAL, SLOW_MEMBER, SUSPECT_TILE(_EXPIRE), TILE_FAILED, TILE_RETIRE, SPARE_SUBSTITUTED, FLIT_*, BRIDGE_REROUTE. -/
def Obligations.Tiles : Prop :=
  ∀ (cls : Fin 64) (tile : Fin 4096) (b : Fin 28) (m : Mbx) (tag : Word) (s : State),
    (s.tiles.queue.find? (·.cls == cls.val) = none → exec (.crewForm cls) s = .next s ∧ exec (.crewQueueTimeout cls) s = .next s) ∧
    (∀ w, s.tiles.queue.find? (·.cls == cls.val) = some w →
      (s.formCrew cls.val w.leadPages w.mbx w.tag w.tiles = none → exec (.crewForm cls) s = .next s) ∧
      (∀ t, s.formCrew cls.val w.leadPages w.mbx w.tag w.tiles = some t →
        exec (.crewForm cls) s = .next ((({ t with tiles.queue := t.tiles.queue.erase w } : State).noteWait w).updFlight w.mbx w.tag fun f =>
          { f with work := .admitted })) ∧
      (s.clock < w.since + 200000 → exec (.crewQueueTimeout cls) s = .next s) ∧
      (∀ f, w.since + 200000 ≤ s.clock → s.flight w.mbx w.tag = some f →
        exec (.crewQueueTimeout cls) s = .next ((s.noteWait w).answerDetail f (busyRetry (s.meanWaitUs cls.val))))) ∧
    (∀ c, s.crewFor m.key tag = some c →
      (∀ v, tile.val ∈ c.members → c.queued tile.val = 0 → tile.val ∉ c.slow → s.tileActive tile.val = true → c.victim tile.val = some v →
        (exec (.workSteal m tag tile) s = .next (s.updCrew m.key tag fun k =>
          { k with queues := (k.queues.put v (k.queued v - (c.queued v + 1) / 2)).put tile.val ((c.queued v + 1) / 2) })) ∧
        (c.queued v - (c.queued v + 1) / 2) + (c.queued v + 1) / 2 = c.queued v) ∧
      (tile.val ∉ c.members ∨ c.queued tile.val ≠ 0 ∨ tile.val ∈ c.slow ∨ s.tileActive tile.val = false ∨ c.victim tile.val = none →
        exec (.workSteal m tag tile) s = .next s) ∧
      (∀ rates, let lags := c.lags (fun t => ((rates.find? fun r => r.1.val == t).map (·.2)).getD 0) tile.val;
        (tile.val ∈ c.members → tile.val ∉ c.slow → lags = true →
          exec (.slowMember m tag ⟨tile, rates⟩) s = .next (let u := s.updCrew m.key tag fun c => { c with slow := tile.val :: c.slow }
            { u with tiles.slowNamed := (tile.val, s.clock) :: s.tiles.slowNamed.filter fun x => s.clock < x.2 + 1000000000 })) ∧
        (tile.val ∉ c.members ∨ tile.val ∈ c.slow ∨ lags = false → exec (.slowMember m tag ⟨tile, rates⟩) s = .next s))) ∧
    (let named := (s.tiles.slowNamed.filter fun x => x.1 == tile.val && s.clock < x.2 + 1000000000).length;
      (16 ≤ named → s.tiles.suspect.find tile.val = none →
        exec (.suspectTile tile) s =
          .next (({ s with tiles.suspect := s.tiles.suspect.put tile.val (s.clock + 600000000000) } : State).logKind 8 tile.val)) ∧
      (named < 16 → exec (.suspectTile tile) s = .next s)) ∧
    (∀ t, s.tiles.suspect.find tile.val = some t →
      (t ≤ s.clock → exec (.suspectTileExpire tile) s = .next { s with tiles.suspect := s.tiles.suspect.del tile.val }) ∧
      (s.clock < t → exec (.suspectTileExpire tile) s = .next s)) ∧
    (∀ cause lost,
      (s.tiles.state.find tile.val = none ∨ s.tiles.state.find tile.val = some .retiring →
        (s.faultHolds cause = true → exec (.tileFailed tile ⟨cause, lost⟩) s =
          .next (((s.logUnit tile.val).loseMember tile.val (lost.map fun x => (x.1.key, x.2))).substitute tile.val)) ∧
        (s.faultHolds cause = false → exec (.tileFailed tile ⟨cause, lost⟩) s = .next s)) ∧
      ((∃ q t, s.tiles.state.find tile.val = some (.substituting q t)) ∨ s.tiles.state.find tile.val = some .gone →
        exec (.tileFailed tile ⟨cause, lost⟩) s = .next s)) ∧
    (let u : State := { s with tiles.corrected := (tile.val, s.clock) :: s.tiles.corrected.filter fun x => s.clock < x.2 + 3600000000000 }
      let n := (u.tiles.corrected.filter (·.1 == tile.val)).length;
      (s.tiles.state.find tile.val = none →
        (n < 16 → exec (.tileRetire tile) s = .next u) ∧
        (16 ≤ n → s.crewsOn tile.val ≠ [] →
          exec (.tileRetire tile) s = .next (let v := u.logUnit tile.val; { v with tiles.state := v.tiles.state.put tile.val .retiring })) ∧
        (16 ≤ n → s.crewsOn tile.val = [] → exec (.tileRetire tile) s = .next ((u.logUnit tile.val).substitute tile.val))) ∧
      (s.tiles.state.find tile.val = some .retiring →
        (s.crewsOn tile.val = [] → exec (.tileRetire tile) s = .next (u.substitute tile.val) ∧
          exec (.spareSubstituted tile) s = .next (s.substitute tile.val)) ∧
        (s.crewsOn tile.val ≠ [] → exec (.tileRetire tile) s = .next u ∧ exec (.spareSubstituted tile) s = .next s))) ∧
    (∀ q t, s.tiles.state.find tile.val = some (.substituting q t) →
      (t + 45000 ≤ s.clock → exec (.spareSubstituted tile) s =
        .next { s with tiles.map := s.tiles.map.put tile.val q, tiles.state := s.tiles.state.del tile.val
                       tiles.corrected := s.tiles.corrected.filter (·.1 != tile.val) }) ∧
      (s.clock < t + 45000 → exec (.spareSubstituted tile) s = .next s)) ∧
    (∀ carried : List (Mbx × Word),
      let u := carried.foldl (fun s x => match s.flight x.1.key x.2 with
        | some f => s.dataLost f
        | none => s) s
      (b.val ∉ u.tiles.bridgesDown → exec (.flitRetryExhausted b carried) s = .next (({ u with
        tiles.bridgesDown := b.val :: u.tiles.bridgesDown, tiles.rerouting := b.val :: u.tiles.rerouting } : State).logUnit b.val)) ∧
      (b.val ∈ u.tiles.bridgesDown → exec (.flitRetryExhausted b carried) s = .next u)) ∧
    exec (.bridgeReroute b) s = .next { s with tiles.rerouting := s.tiles.rerouting.filter (· != b.val) }

/-- HOST_REGION_GRANT, _REVOKE, _FAILED, HOST_CACHE_FILL, HOST_TIER_READ_COMPLETE and LOWER_TIER_LATE. That the cache is filled newest first within a
collection (mayCache) is the model's reading, log entry 167. -/
def Obligations.LowerTiers : Prop :=
  ∀ (m : Mbx) (tag : Word) (f : Flight) (s : State),
    (∀ id base pages us, s.turn 0x7010 m tag f → f.opens 32 32 → id = field f.plain 0 4 → base = field f.plain 8 8 → pages = field f.plain 0x10 4 →
      us = field f.plain 0x14 4 → id ≠ 0 → s.tiers.regions.find id = none → (field f.plain 4 1 = 1 ∨ field f.plain 4 1 = 2) → zeroField f.plain 5 3 = true →
      base % 4096 = 0 → base + extentSize pages ≤ 2 ^ 64 → (∀ x ∈ s.tiers.regions.vals, extentsOverlap base (extentSize pages) x.base (extentSize x.pages) = false) →
      256 ≤ pages → pages ≤ 16777216 → (us = 0 ∨ (20 ≤ us ∧ us ≤ 10000)) → zeroField f.plain 0x18 8 = true → s.tiers.regions.length < 64 →
      s.grantedPages + pages ≤ 67108864 → 8 * pages ≤ s.workingFree →
      exec (.hostRegionGrant m tag) s = .next (({ s with tiers.regions := (s.tiers.regions.put id
        { kind := field f.plain 4 1, base := base, pages := pages, boundUs := if us = 0 then 200 else us }) } : State).answer f .done
          (leBytes 4 id ++ zeros 4 ++ leBytes 8 (4096 * pages)))) ∧
    (∀ x id, s.turn 0x7011 m tag f → f.opens 8 8 → id = field f.plain 0 4 → s.tiers.regions.find id = some x → x.revoking = none → zeroField f.plain 4 4 = true →
      exec (.hostRegionRevoke m tag) s = .next ((({ s with
        tiers.regions := s.tiers.regions.upd id fun x => { x with revoking := some (m.key, tag, x.live.length) } } : State).setWork f (.revokeWait id)).settleRevoke id)) ∧
    (∀ id x pages, s.tiers.regions.find id = some x → x.revoking = some (m.key, tag, pages) → s.flight m.key tag = some f →
      (s.regionQuiet id = true → s.settleRevoke id = (({ s with
        tiers.regions := s.tiers.regions.del id, flash.hostPages := s.flash.hostPages.keep fun _ g => g != id } : State).answer f .done (leBytes 4 pages ++ zeros 4))) ∧
      (s.regionQuiet id = false → s.settleRevoke id = s)) ∧
    (∀ (id col : Word) seg sector x c, s.tiers.regions.find id.toNat = some x → s.coll col.toNat = some c →
      let may : Prop := x.kind = 2 ∧ x.failed = false ∧ x.revoking = none ∧ (placeClassOf s.placeImage c.cls).hostCache = true ∧
        s.mayCache c seg sector = true ∧ s.flash.lowSpace = false ∧ (s.power.season = .summer ∨ s.power.season = .drain);
      (∀ i, may → s.cacheSlot id.toNat seg x = some i →
        let u := s.writeHostPage id.toNat i (Config.sectorPlain c.id (((c.segment seg).map (·.gen)).getD 0) seg sector)
        exec (.hostCacheFill id col seg sector) s = .next { u with
          tiers.regions := u.tiers.regions.upd id.toNat fun x => { x with
            live := x.live.put i { version := u.tiers.version, collection := c.id, seg := seg, sector := sector } }
          tiers.version := u.tiers.version + 1 }) ∧
      (¬ may ∨ s.cacheSlot id.toNat seg x = none → exec (.hostCacheFill id col seg sector) s = .next s)) ∧
    (∀ (id : Word) (timeout : Bool) x, s.tiers.regions.find id.toNat = some x →
      let n := (x.failures.filter fun t => s.clock < t + 1000000000).length;
      (x.failed = false → timeout = true ∨ 3 ≤ n → exec (.hostRegionFailed id timeout) s = .next (s.failRegion id.toNat)) ∧
      (x.failed = true ∨ (timeout = false ∧ n < 3) → exec (.hostRegionFailed id timeout) s = .next s)) ∧
    (∀ (i : Nat) r g, s.flight m.key tag = some f → (readsOf f)[i]? = some r → r.tier = .host g →
      (∀ o, r.lost.isSome = true → exec (.hostTierReadComplete m tag i o) s = .next s) ∧
      (r.lost = none →
        (r.mapPage = none → exec (.hostTierReadComplete m tag i .data) s = .next (((s.readArrived f i).regionOutcome g .data).tierSettled r.tier)) ∧
        (∀ p, r.mapPage = some p → exec (.hostTierReadComplete m tag i .data) s = .next (((s.mapPageArrived f i r p).regionOutcome g .data).tierSettled r.tier)) ∧
        exec (.hostTierReadComplete m tag i .badTag) s =
          .next (((((s.mapPageLost r).logReadOf f r .dataDamaged).readLost f i .dataDamaged).regionOutcome g .badTag).tierSettled r.tier) ∧
        (∀ o, o = .failed ∨ o = .timeout → exec (.hostTierReadComplete m tag i o) s =
          .next ((((s.mapPageLost r).readLost f i .tierFailed).regionOutcome g o).tierSettled r.tier)))) ∧
    (∀ (i : Nat) g x o, let l := (s.flight m.key tag).elim [] readsOf;
      l[i]? = none → s.leftRead m.key tag (i - l.length) = some x → x.read.tier = .host g →
      let u := if (o == .failed || o == .timeout) && x.read.lost.isNone then s.leftFails x .tierFailed g else s
      exec (.hostTierReadComplete m tag i o) s = .next (((u.dropLeft x).regionOutcome g o).tierSettled x.read.tier)) ∧
    (∀ (i : Nat) r, s.flight m.key tag = some f → (readsOf f)[i]? = some r →
      (r.since + s.readBound r ≤ s.clock → r.lost = none → r.came = none → exec (.lowerTierLate m tag i) s =
        .next (((({ s with tiers.lateDiscarded := s.tiers.lateDiscarded + 1 } : State).mapPageLost r).readLate f i).tierSettled r.tier)) ∧
      (s.clock < r.since + s.readBound r ∨ r.lost.isSome = true ∨ r.came.isSome = true → exec (.lowerTierLate m tag i) s = .next s) ∧
      (r.tier = .flash → s.readBound r = 3000000) ∧ ((∃ o, r.tier = .shared o) → s.readBound r = 5000000) ∧
      (∀ g x, r.tier = .host g → s.tiers.regions.find g = some x → s.readBound r = x.boundUs * 1000))

/-- SHARED_PUBLISH, LEASE_RENEW, LEASE_EXPIRE, SHARED_READ, LEASE and SHARED_DATA. -/
def Obligations.SharedTier : Prop :=
  ∀ (s : State),
    (∀ (col : Word) seg c x, s.coll col.toNat = some c → c.segment seg = some x →
      let k := placeClassOf s.placeImage c.cls
      let size := ((c.rows seg).map (recordBytes c.desc)).foldl (· + ·) 0
      let may : Prop := k.publish = true ∧ segDurable x = true ∧ x.tombstone = false ∧ s.flash.lowSpace = false ∧ s.serving = true ∧
        (s.tiers.objects.any fun o => o.collection == c.id && o.gen == x.gen && o.segment == seg) = false;
      (may → s.sharedBytes k.shared + size ≤ (regionOf s.placeImage k.shared).gib * 2 ^ 30 → exec (.sharedPublish col seg) s =
        .next { s with tiers.objects := s.tiers.objects ++ [{ region := k.shared, collection := c.id, gen := x.gen, segment := seg }] }) ∧
      (may → (regionOf s.placeImage k.shared).gib * 2 ^ 30 < s.sharedBytes k.shared + size → exec (.sharedPublish col seg) s = .next (s.charge (ownerOf c.id) 0xBC 1)) ∧
      (¬ may → exec (.sharedPublish col seg) s = .next s)) ∧
    (∀ (owner : Half), let mine := s.tiers.held.filter (·.node == owner.toNat);
      ((∃ l ∈ mine, l.since + 1000000000 ≤ s.clock) → s.selfFenced = false →
        exec (.leaseRenew owner) s = .next (({ s with tiers.nextReq := s.tiers.nextReq + 1 } : State).post owner.toNat 0x40 2 0 true
          (sharedMessage 4 0 0 0 0 mine.length 0 0 (s.nodeId + 65536 * s.tiers.nextReq)
            (mine.flatMap fun l => leBytes 4 l.collection ++ leBytes 2 l.gen ++ zeros 2 ++ leBytes 8 l.segment)))) ∧
      ((∀ l ∈ mine, s.clock < l.since + 1000000000) ∨ s.selfFenced = true → exec (.leaseRenew owner) s = .next s)) ∧
    (∀ holder : Half, exec (.leaseExpire holder) s = .next (({ s with tiers.given := s.tiers.given.filter fun l =>
      !(l.node == holder.toNat && decide (l.since + 10000000000 ≤ s.clock)) } : State).reclaimObjects)) ∧
    (∀ x u, s.takeMessage 0x40 [1] = some (x, u) →
      let ok : Prop := x.body.length = 40 ∧ field x.body 1 1 = 0 ∧ zeroField x.body 0xA 2 = true
      let coll := field x.body 4 4
      let gen := field x.body 8 2
      let seg := field x.body 0x10 8
      let here := u.tiers.objects.any fun o => o.collection == coll && o.gen == gen && o.segment == seg
      let leased := u.tiers.given.any fun l => l.node == x.src && l.collection == coll && l.gen == gen && l.segment == seg
      let why := if u.refuseReason x.src != 0 then u.refuseReason x.src else if !here then 1 else if !leased then 2 else 0;
      (ok → why = 0 → exec .sharedRead s = .next (u.post x.src 0x40 5 0 true (sharedMessage 2 0 (field x.body 2 2) coll gen (field x.body 0xC 4) seg
        (field x.body 0x18 8) (field x.body 0x20 8) ((List.range (field x.body 0xC 4)).flatMap fun i => u.storedSector coll gen seg (field x.body 0x18 8 + i))))) ∧
      (ok → why ≠ 0 → exec .sharedRead s = .next (u.post x.src 0x40 5 0 true
        (sharedMessage 3 why (field x.body 2 2) coll gen (field x.body 0xC 4) seg (field x.body 0x18 8) (field x.body 0x20 8) []))) ∧
      (¬ ok → exec .sharedRead s = .next (u.partnerViolation x.port x.src))) ∧
    (∀ x u, s.takeMessage 0x40 [4, 5] = some (x, u) →
      let ok : Prop := 40 ≤ x.body.length ∧ x.body.length = 40 + 16 * field x.body 0xC 4
      let es := leaseEntries (x.body.drop 40)
      let has (e : Nat × Nat × Nat × Nat) : Bool := u.refuseReason x.src == 0 &&
        u.tiers.objects.any fun o => o.collection == e.1 && o.gen == e.2.1 && o.segment == e.2.2.2
      let fresh := (es.filter has).map fun e => ({ node := x.src, collection := e.1, gen := e.2.1, segment := e.2.2.2, since := u.clock } : Lease);
      (ok → field x.body 0 1 = 4 → exec .lease s = .next (({ u with tiers.given := (u.tiers.given.filter fun l => !fresh.any fun g =>
          g.node == l.node && g.collection == l.collection && g.gen == l.gen && g.segment == l.segment) ++ fresh } : State).post x.src 0x40 2 0 true
        (sharedMessage 5 0 (field x.body 2 2) 0 0 es.length 0 0 (field x.body 0x20 8)
          (es.flatMap fun e => leBytes 4 e.1 ++ leBytes 2 e.2.1 ++ leBytes 1 (flag (!has e)) ++ zeros 1 ++ leBytes 8 e.2.2.2)))) ∧
      (ok → field x.body 0 1 ≠ 4 → exec .lease s = .next { u with tiers.held := (u.tiers.held.filterMap fun l =>
        (es.find? (fun e => e.1 == l.collection && e.2.1 == l.gen && e.2.2.2 == l.segment && l.node == x.src)).elim (some l)
          fun e => if e.2.2.1 = 0 then some { l with since := u.clock } else none) }) ∧
      (¬ ok → exec .lease s = .next (u.partnerViolation x.port x.src))) ∧
    (∀ x u opens, s.takeMessage 0x40 [2, 3] = some (x, u) →
      let ok : Prop := 40 ≤ x.body.length ∧ zeroField x.body 0xA 2 = true ∧
        (if field x.body 0 1 = 2 then field x.body 1 1 = 0 ∧ x.body.length = 40 + 4112 * field x.body 0xC 4
          else 1 ≤ field x.body 1 1 ∧ field x.body 1 1 ≤ 4 ∧ x.body.length = 40) ∧
        u.ownPastId (field x.body 0x20 8) u.tiers.nextReq = true;
      (u.serving = false → exec (.sharedData opens) s = .next u) ∧
      (u.serving = true → ¬ ok → exec (.sharedData opens) s = .next (u.partnerViolation x.port x.src)) ∧
      (u.serving = true → ok →
        (u.tiers.reads.find? (fun r => r.req == field x.body 0x20 8 && r.owner == x.src) = none →
          exec (.sharedData opens) s = .next { u with tiers.lateDiscarded := u.tiers.lateDiscarded + 1 }) ∧
        (∀ r, u.tiers.reads.find? (fun r => r.req == field x.body 0x20 8 && r.owner == x.src) = some r →
          let key := (u.coll (field x.body 4 4)).any fun c =>
            c.gens.any fun g => g.1 == field x.body 8 2 && (u.trk (ownerOf c.id) g.2.1).any fun k => kcv k.key == g.2.2;
          (field x.body 0 1 = 3 → exec (.sharedData opens) s = .next (u.sharedLost r .tierFailed)) ∧
          (field x.body 0 1 = 2 → u.sharedWaiter r = none → exec (.sharedData opens) s =
            .next { u with tiers.reads := u.tiers.reads.erase r, tiers.lateDiscarded := u.tiers.lateDiscarded + 1 }) ∧
          (∀ f i, field x.body 0 1 = 2 → u.sharedWaiter r = some (f, i) →
            (key = false → exec (.sharedData opens) s = .next (u.sharedLost r .keyUnavailable)) ∧
            (key = true → opens = true → exec (.sharedData opens) s = .next (({ u with tiers.reads := u.tiers.reads.erase r } : State).readArrived f i)) ∧
            (∀ y, key = true → opens = false → (readsOf f)[i]? = some y →
              exec (.sharedData opens) s = .next ((u.logReadOf f y .dataDamaged).sharedLost r .dataDamaged))))))

/-- SUBQUERY, ADMIT_NOTICE, PARTIAL_LIST, CANCEL, SUBQUERY_HEDGE, HEDGE_BIND_TIMEOUT, REFINE_READ_HEDGE, HEDGE_READ, HEDGE_DATA and UNREACHABLE. How SQ.IDs
are told apart, and that a child with a subtree is hedged only once it does not serve, is the model's choice (log entry 159); the status of a version that
a replica does not hold, and the p99 of a channel without a recent read, are free. -/
def Obligations.MergeMessages : Prop :=
  ∀ (m : Mbx) (tag : Word) (s u : State) (x : Inbound),
    (s.takeMessage 0x10 [] = some (x, u) →
      let plain := x.body.drop 48
      let flags := field x.body 0xB 1
      let shard := field x.body 0xC 4
      let id := field x.body 0 8
      (u.comp.compositions.find (field plain 0x1C 4) = none → exec .subquery s = .next (u.partnerViolation x.port x.src)) ∧
      ∀ k, u.comp.compositions.find (field plain 0x1C 4) = some k →
        let primary := !bit flags 0 && k.shardOf u.nodeId == shard
        let key := if primary then field plain 0 4 else field plain 0 4 + 2 ^ 32 * (shard + 1)
        (u.coll key = none → exec .subquery s = .next (u.partnerViolation x.port x.src)) ∧
        ∀ c, u.coll key = some c →
          let ok : Prop := 112 ≤ x.body.length ∧ field x.body 8 2 < 4096 ∧ field x.body 0xA 1 ≤ 2 ∧ flags < 4 ∧ zeroField x.body 0x1C 4 = true ∧
            zeroField x.body 0x28 8 = true ∧ (bit flags 1 = true ∨ (field x.body 0x10 8 = 0 ∧ field x.body 0x18 4 = 0)) ∧ subqueryFaultless plain = true ∧
            k.active = true ∧ shard < k.members.length ∧ id % 65536 ∈ k.members ∧ ownerOf key = field x.body 8 2 ∧
            (u.comp.served.any fun y => y.id == id && y.shard == shard) = false ∧ checkQueryOn c 0x20 plain = .ok ()
          (¬ ok → exec .subquery s = .next (u.partnerViolation x.port x.src)) ∧
          (ok → u.power.season ≠ .summer → exec .subquery s = .next u) ∧
          (ok → u.power.season = .summer →
            let order := treeOrder (id % 65536) k.live
            let i := order.idxOf u.nodeId
            exec .subquery s = .next (u.beginServed
              { id := id, shard := shard, from_ := x.src, collection := key, tenant := field x.body 8 2, cls := field x.body 0xA 1
                deadline := field x.body 0x20 8, hedge := bit flags 0
                told := if bit flags 1 then some (field x.body 0x10 8, field x.body 0x18 4) else none, plain := plain
                run := { composition := k.id, position := i, k := qdK plain, entryBytes := entryBytesOf c.desc.extBytes plain
                         reranked := qdRerank plain, shards := if primary then childShards k order u.clock 4 i else [] } } k .ring))) ∧
    (s.takeMessage 0x11 [] = some (x, u) →
      let id := field x.body 0 8
      let ok : Prop := x.body.length = 24 ∧ u.ownPastId id u.comp.nextSubq = true;
      (ok → exec .admitNotice s = .next { u with comp.served := u.comp.served.map fun y =>
        if y.root.isSome && (y.id == id || y.run.shards.any fun d => d.id == id) then
          { y with run := { y.run with notices := y.run.notices.put (field x.body 20 4) (field x.body 8 8, field x.body 16 4) } }
        else y }) ∧
      (¬ ok → exec .admitNotice s = .next (u.partnerViolation x.port x.src))) ∧
    (s.takeMessage 0x12 [] = some (x, u) →
      let id := field x.body 0 8
      let b := x.body.drop 8
      let hit := u.comp.served.findSome? fun y => (y.listFor id x.src).map fun d => (y, d);
      (hit = none → u.knownSubq id = true → exec .partialList s = .next u) ∧
      (hit = none → u.knownSubq id = false → exec .partialList s = .next (u.partnerViolation x.port x.src)) ∧
      (∀ y d byHedge, hit = some (y, d, byHedge) →
        (listFaultless y.run x.src b = false → exec .partialList s = .next ((u.partnerViolation x.port x.src).shardGone y d.no byHedge)) ∧
        (listFaultless y.run x.src b = true → d.covers.length = 1 → field b 0xC 2 ≠ 0 →
          exec .partialList s = .next ((if byHedge then u.chargeSpec y.tenant 0x40 1 else u).shardGone y d.no byHedge)) ∧
        (listFaultless y.run x.src b = true → (d.covers.length ≠ 1 ∨ field b 0xC 2 = 0) →
          exec .partialList s = .next (u.mergeList y d byHedge b)))) ∧
    (s.takeMessage 0x13 [] = some (x, u) →
      let id := field x.body 0 8
      let shard := field x.body 8 4
      let ok : Prop := x.body.length = 16 ∧ zeroField x.body 12 4 = true
      let v := u.takeAnswered fun y => y.id == id && y.shard == shard && y.from_ == x.src;
      (¬ ok → exec .cancel s = .next (u.partnerViolation x.port x.src)) ∧
      (ok → v.comp.served.find? (fun y => y.id == id && y.shard == shard && y.from_ == x.src && y.root.isNone) = none → exec .cancel s = .next v) ∧
      (∀ y, ok → v.comp.served.find? (fun y => y.id == id && y.shard == shard && y.from_ == x.src && y.root.isNone) = some y →
        let w := v.cancelShards y;
        (w.flight (servedKey y.id y.shard) 0 = none →
          exec .cancel s = .next ((w.noteAnswered y.id y.shard y.from_ y.tenant [] []).dropServed y)) ∧
        (∀ f, w.flight (servedKey y.id y.shard) 0 = some f →
          exec .cancel s = .next (((w.squashServed y f).noteAnswered y.id y.shard y.from_ y.tenant [] []).dropServed y)))) ∧
    (∀ (shard : Nat) (replicas : List Half) y d k, s.mergeOf m.key tag = some y →
      y.run.shards.find? (fun d => d.no == shard && !d.merged && !d.missing) = some d → s.comp.compositions.find y.run.composition = some k →
      let point := d.sent + max (s.p95 y.run.composition d.node * 5 / 4) 150000
      let late := y.deadline != 0 && decide (y.deadline < 300000 + (s.fabTime + point - s.clock))
      let old := s.comp.dispatched.filter fun e => s.clock < e.1 + 10000000
      let hedged := (old.filter (·.2)).length
      let due : Prop := d.gone = true ∨ (point ≤ s.clock ∧ late = false ∧ d.covers.length ≤ 1)
      let capped : Prop := 5 * (old.length - hedged) < 100 * (hedged + 1);
      (d.hedge.isSome = true → exec (.subqueryHedge m tag shard replicas) s = .next (if d.gone && d.hedgeGone then s.shardMissing y shard else s)) ∧
      (d.hedge = none → ¬ due → exec (.subqueryHedge m tag shard replicas) s = .next s) ∧
      (d.hedge = none → due → s.hedgeReplica k d replicas = none →
        exec (.subqueryHedge m tag shard replicas) s = .next (if d.gone then s.shardMissing y shard else s)) ∧
      (∀ r, d.hedge = none → due → s.hedgeReplica k d replicas = some r →
        (capped → exec (.subqueryHedge m tag shard replicas) s =
          .next (if d.gone then (s.chargeSpec y.tenant 0x38 1).shardMissing y shard else s.chargeSpec y.tenant 0x38 1)) ∧
        (¬ capped →
          let n := y.run.notices.find shard
          let p := s.freshSubq
          let q := p.2.sendFree r 0x10 (p.2.fabClass y.tenant) y.tenant
            (subqueryHead { y with id := p.1 } shard (1 + 2 * flag n.isSome) (n.getD (0, 0)).1 (n.getD (0, 0)).2 ++ y.plain)
          let v := q.1.updShard y shard fun e => { e with hedge := some r, hedgeId := p.1 }
          exec (.subqueryHedge m tag shard replicas) s =
            .next (if q.2 then ({ v with comp.dispatched := old ++ [(v.clock, true)] } : State).chargeSpec y.tenant 0x28 1 else v.shardGone y shard true)))) ∧
    (∀ id shard y t f, s.comp.served.find? (fun y => y.id == id && y.shard == shard) = some y → y.waitSince = some t → s.flight (servedKey id shard) 0 = some f →
      (t + 1000000 ≤ s.clock → f.bound = none → exec (.hedgeBindTimeout id shard) s = .next (s.declineHedge y)) ∧
      (s.clock < t + 1000000 ∨ f.bound.isSome = true → exec (.hedgeBindTimeout id shard) s = .next s)) ∧
    (∀ (i : Nat) (ch : Fin 64) f r c p, s.flight m.key tag = some f → (readsOf f)[i]? = some r → s.coll r.collection = some c → c.replicas.find? (·.state == 1) = some p →
      let v : State := { s with free := s.free + 1 }
      let p99 := (v.p99 ch.val).getD (Config.free s.free)
      let old := v.comp.readsIssued.filter fun e => v.clock < e.1 + 10000000
      let hedged := (old.filter (·.2)).length
      let due : Prop := r.tier = .flash ∧ r.area < 2 ∧ r.hedge = none ∧ r.lost = none ∧ r.since + max (2 * p99) 100000 ≤ v.clock
      let capped : Prop := 32 ≤ f.hedges ∨ 2 * (old.length - hedged) < 100 * (hedged + 1);
      (¬ due → exec (.refineReadHedge m tag ⟨i, ch⟩) s = .next v) ∧
      (due → capped → exec (.refineReadHedge m tag ⟨i, ch⟩) s = .next (v.chargeSpec f.tenant 0x38 1)) ∧
      (due → ¬ capped → exec (.refineReadHedge m tag ⟨i, ch⟩) s =
        .next (v.sendReadHedge f i r p.node ((v.comp.compositions.find c.composition).elim 0 fun k => k.shardOf v.nodeId) old))) ∧
    (∀ o, s.takeMessage 0x14 [1, 4] = some (x, u) →
      let b := x.body
      let key := field b 4 4 + 2 ^ 32 * (field b 0x20 4 + 1)
      let answer (kind st : Nat) (data : Bytes) (s : State) : State := (s.sendFree x.src 0x14 x.cls x.tenant
        (hedgeMessage kind st (field b 2 1) (field b 4 4) (field b 8 8) (field b 0x10 8) (field b 0x18 8) (field b 0x20 4) (field b 0x28 8) data)).1;
      (hedgeFaultless b = false → exec (.hedgeRead o) s = .next (u.partnerViolation x.port x.src)) ∧
      (hedgeFaultless b = true → field b 0 1 = 4 → exec (.hedgeRead o) s = .next (u.cancelHedgeRead x)) ∧
      (hedgeFaultless b = true → field b 0 1 ≠ 4 → u.coll key = none → exec (.hedgeRead o) s = .next (u.partnerViolation x.port x.src)) ∧
      (∀ c, hedgeFaultless b = true → field b 0 1 ≠ 4 → u.coll key = some c →
        let found := c.versions.find? fun v => v.id == field b 0x10 8 && v.ins == field b 0x18 8
        let lost : Prop := c.availability = .keyLost ∨ u.zeroisingColl key = true;
        (lost → exec (.hedgeRead o) s = .next (answer 3 0x27 [] u)) ∧
        (¬ lost → found = none → ∃ st ∈ [0x22, 0x23, 0x24, 0x26, 0x27], exec (.hedgeRead o) s = .next (answer 3 st [] { u with free := u.free + 1 })) ∧
        (∀ v, ¬ lost → found = some v → o = .data ∨ v.staged = true →
          let data := if field b 2 1 == 0 then v.refine else v.vector
          let cost := (if v.staged then [] else [(0x38, 1)]) ++ sendCost (48 + data.length)
          exec (.hedgeRead o) s = .next (answer 2 0 data ((u.chargeAll x.tenant cost).noteAnswered (field b 8 8) (field b 0x20 4) x.src x.tenant cost []))) ∧
        (∀ v, ¬ lost → found = some v → o ≠ .data → v.staged = false → exec (.hedgeRead o) s = .next (answer 3 (hedgeStatus o) [] u)))) ∧
    (s.takeMessage 0x14 [2, 3] = some (x, u) →
      let id := field x.body 8 8
      let mine (r : Read) : Bool := r.hedge.any fun h => h.node == x.src && h.ids.contains id
      let ok : Prop := hedgeFaultless x.body = true ∧ u.ownPastId id u.comp.nextRead = true;
      (¬ ok → exec .hedgeData s = .next (u.partnerViolation x.port x.src)) ∧
      (ok → u.host.flights.find? (fun f => (readsOf f).any mine) = none → exec .hedgeData s = .next u) ∧
      (∀ f r, ok → u.host.flights.find? (fun f => (readsOf f).any mine) = some f → (readsOf f)[(readsOf f).findIdx mine]? = some r →
        let i := (readsOf f).findIdx mine
        let h := r.hedge.getD { node := 0, ids := [] }
        let v := u.putReads f ((readsOf f).set i { r with hedge := some { h with ids := h.ids.filter (· != id) } })
        let w := (u.log { seq := 0, time := 0, kind := 4, status := field x.body 1 1, tenant := f.tenant, opcode := f.opcode.toNat, tag := f.tag, detail := x.src }).putReads f
          ((readsOf f).set i { r with hedge := some { h with failed := true } });
        (field x.body 0 1 = 2 → exec .hedgeData s = .next (if (h.ids.filter (· != id)).isEmpty && !h.failed then v.again f (fun f s => s.hedgeWon f i) else v)) ∧
        (field x.body 0 1 ≠ 2 → r.lost = none → exec .hedgeData s = .next w) ∧
        (∀ st, field x.body 0 1 ≠ 2 → r.lost = some st → exec .hedgeData s = .next (w.again f (fun f s => s.readLost f i st))))) ∧
    (s.takeMessage 3 [] = some (x, u) →
      let ok : Prop := x.body.length = 16 ∧ 1 ≤ field x.body 6 1 ∧ field x.body 6 1 ≤ 4 ∧ zeroField x.body 8 8 = true
      let v : State := { u with fabric.unreachRx := min (u.fabric.unreachRx + 1) 0xFFFFFFFF };
      (u.serving = false → exec .unreachable s = .next u) ∧
      (u.serving = true → ¬ ok → exec .unreachable s = .next (u.partnerViolation x.port x.src)) ∧
      (u.serving = true → ok → v.fabric.sent.find? (fun m => m.1 == field x.body 0 4 && m.2.1 == field x.body 4 2 && m.2.2.1 == field x.body 7 1) = none →
        exec .unreachable s = .next v) ∧
      (∀ k, u.serving = true → ok → v.fabric.sent.find? (fun m => m.1 == field x.body 0 4 && m.2.1 == field x.body 4 2 && m.2.2.1 == field x.body 7 1) = some k →
        exec .unreachable s = .next (({ v with fabric.sent := v.fabric.sent.erase k } : State).notDelivered k.2.1 k.2.2.1 k.2.2.2)))

/-- The phases of image loads, retirement, placement, and MODEL_WEIGHT_RUN_REPAIRED. That a load in progress keeps its place among the generations is the
model's choice (log entry 137). -/
def Obligations.Images : Prop :=
  ∀ (m : Mbx) (tag : Word) (f : Flight) (s : State) (k : ImageKind),
    (∀ t, State.imageLoad k f s = .ok t →
      (k = .model → s.turn 0x4001 m tag f → exec (.modelLoad m tag) s = .next t) ∧ (k = .vocab → s.turn 0x4020 m tag f → exec (.vocabLoad m tag) s = .next t) ∧
      (k = .grammar → s.turn 0x4030 m tag f → exec (.grammarLoad m tag) s = .next t)) ∧
    (∀ d, State.imageLoad k f s = .error d →
      (k = .model → s.turn 0x4001 m tag f → exec (.modelLoad m tag) s = .next (s.answerDetail f d)) ∧
      (k = .vocab → s.turn 0x4020 m tag f → exec (.vocabLoad m tag) s = .next (s.answerDetail f d)) ∧
      (k = .grammar → s.turn 0x4030 m tag f → exec (.grammarLoad m tag) s = .next (s.answerDetail f d))) ∧
    (f.opens 32 16777216 → 1 ≤ field f.plain 0 4 % 2 ^ 20 → zeroField f.plain 5 3 = true → zeroField f.plain 0x1C 4 = true → ownerOf (field f.plain 0 4) = f.tenant →
      (field f.plain 4 1 = 0 → field f.plain 8 8 = 0 → field f.plain 0x18 4 = 0 → f.plain.length - 32 = beginBytes k →
        let total := field f.plain 0x10 8
        firstFault (beginChecks k (f.plain.drop 32) total) = none → (∀ l ∈ s.models.loads, l.kind = k → l.handle ≠ field f.plain 0 4) →
        (s.models.loads.filter (·.tenant == f.tenant)).length < 4 → s.models.loads.length < 16 → s.genLimits k (field f.plain 0 4) = .ok () →
        (k = .model → s.modelBytes + total ≤ s.modelRegion ∧ s.quotaHbm f.tenant total = .ok ()) →
        State.imageLoad k f s = .ok (({ s with
          models.loads := s.models.loads ++ [{ id := s.models.nextLoad, kind := k, handle := field f.plain 0 4, tenant := f.tenant, total := total
                                               writes := [(0, f.plain.drop 32)], last := s.clock }]
          models.nextLoad := s.models.nextLoad % 0xFFFFFFFF + 1 } : State).answer f .done (leBytes 4 s.models.nextLoad ++ zeros 4))) ∧
      (∀ l, field f.plain 0x10 8 = 0 → s.load k f = .ok l →
        (field f.plain 4 1 = 1 → field f.plain 8 8 % 4096 = 0 → field f.plain 8 8 + (f.plain.length - 32) ≤ l.total →
          State.imageLoad k f s = .ok ((s.updLoad l.id fun l => { l with writes := (field f.plain 8 8, f.plain.drop 32) :: l.writes, last := s.clock }).answer f .done [])) ∧
        (f.plain.length = 32 → field f.plain 8 8 = 0 →
          (field f.plain 4 1 = 2 → s.imageFault l = none →
            State.imageLoad k f s = .ok ((s.updLoad l.id fun l => { l with committing := some (f.mbx, f.tag), last := s.clock }).setWork f (.loadWait l.id))) ∧
          (∀ o, field f.plain 4 1 = 2 → s.imageFault l = some o → State.imageLoad k f s = .ok ((s.dropLoad l.id).answerDetail f
            { status := .badField, offset := o % 2 ^ 32, space := 1, offsetHi := o / 2 ^ 32 })) ∧
          (field f.plain 4 1 = 3 → State.imageLoad k f s = .ok ((s.dropLoad l.id).answer f .done []))))) ∧
    (∀ (id : Word) l (r : Nat × Word), s.models.loads.find? (·.id == id.toNat) = some l → l.committing = some r →
      (s.serving = false → exec (.modelLoadCommitDone id) s = .next s) ∧
      (s.serving = true → s.flash.failed = true ∨ s.flash.lowSpace = true →
        let u := s.updLoad l.id fun l => { l with committing := none, last := s.clock };
        (s.flight r.1 r.2 = none → exec (.modelLoadCommitDone id) s = .next u) ∧
        (∀ g, s.flight r.1 r.2 = some g → exec (.modelLoadCommitDone id) s = .next (u.answer g .tierFailed []))) ∧
      (s.serving = true → s.flash.failed = false → s.flash.lowSpace = false →
        ∃ t g, t.models.gens.getLast? = some g ∧ g.kind = l.kind ∧ g.handle = l.handle ∧ g.current = true ∧ g.image = (loadImage l).getD [] ∧
          (∀ x ∈ t.models.gens.dropLast, x.kind = l.kind → x.handle = l.handle → x.current = false ∧ x.gen < g.gen) ∧ (∀ x ∈ t.models.loads, x.id ≠ l.id) ∧
          (s.flight r.1 r.2 = none → exec (.modelLoadCommitDone id) s = .next t) ∧
          (∀ h, s.flight r.1 r.2 = some h → exec (.modelLoadCommitDone id) s = .next (t.answer h .done (leBytes 2 g.gen ++
            leBytes 2 (t.handleGens l.kind l.handle).length ++ leBytes 8 (if l.kind == .model then (readModelHeader g.image).weightBytes else g.image.length)))))) ∧
    (∀ (id : Word) l, s.models.loads.find? (·.id == id.toNat) = some l →
      (l.committing = none → l.last + 60000000000 ≤ s.clock → exec (.loadIdleTimeout id) s = .next (s.dropLoad l.id)) ∧
      (s.clock < l.last + 60000000000 ∨ l.committing.isSome = true → exec (.loadIdleTimeout id) s = .next s)) ∧
    (∀ t, State.imageRetire k f s = .ok t →
      (k = .model → s.turn 0x4002 m tag f → exec (.modelRetire m tag) s = .next t) ∧ (k = .vocab → s.turn 0x4021 m tag f → exec (.vocabRetire m tag) s = .next t) ∧
      (k = .grammar → s.turn 0x4031 m tag f → exec (.grammarRetire m tag) s = .next t)) ∧
    (f.opens 8 8 → zeroField f.plain 6 2 = true → ownerOf (field f.plain 0 4) = f.tenant →
      let live := s.handleGens k (field f.plain 0 4)
      let gs := if field f.plain 4 2 = 0 then live else live.filter (·.gen == field f.plain 4 2);
      gs ≠ [] →
      ((gs.any fun g => s.pinned g) = true → State.imageRetire k f s = .error (wrongStateAt 0x24)) ∧
      ((gs.any fun g => s.pinned g) = false →
        let u : State := { s with models.gens := s.models.gens.map fun (g : Generation) => if gs.contains g then { g with retired := true, current := false } else g }
        let size (s : State) : Nat := (s.models.gens.map (·.image.length)).foldl (· + ·) 0
        State.imageRetire k f s = .ok (u.reapGens.answer f .done (leBytes 2 gs.length ++ zeros 2 ++ leBytes 8 (size u - size u.reapGens))))) ∧
    (s.turn 0x4003 m tag f → f.opens 96 8388608 →
      (∀ o, placementFault f.plain s.nodeId s.placementGen = some o → exec (.placementLoad m tag) s = .next (s.answerDetail f (bad (0x20 + o)))) ∧
      (placementFault f.plain s.nodeId s.placementGen = none →
        (s.models.placing = none → s.mayReplace f.plain = true → exec (.placementLoad m tag) s = .next (({ s with
          models.placing := some { placement := { gen := field f.plain 8 4, image := f.plain }, mbx := m.key, tag := tag } } : State).setWork f .placeWait)) ∧
        (s.models.placing ≠ none ∨ s.mayReplace f.plain = false → exec (.placementLoad m tag) s = .next (s.answerDetail f wrongState)))) ∧
    (∀ p, s.models.placing = some p →
      (s.serving = false → exec .placementInForce s = .next s) ∧
      (s.serving = true →
        let u : State := { s with models.placing := none, models.placement := some p.placement }
        let v : State := { s with models.placing := none };
        (s.mayReplace p.placement.image = true → s.flight p.mbx p.tag = none → exec .placementInForce s = .next u) ∧
        (s.mayReplace p.placement.image = false → s.flight p.mbx p.tag = none → exec .placementInForce s = .next v) ∧
        (∀ f, s.mayReplace p.placement.image = true → s.flight p.mbx p.tag = some f →
          exec .placementInForce s = .next (u.answer f .done (leBytes 4 p.placement.gen ++ zeros 4))) ∧
        (∀ f, s.mayReplace p.placement.image = false → s.flight p.mbx p.tag = some f → exec .placementInForce s = .next (v.answerDetail f wrongState)))) ∧
    (∀ (h : Word) (g : Half) run (holds : Bool),
      let mend (l : List (Nat × Bool)) := if holds then l.filter (·.1 != run) else l.map fun d => if d.1 == run then (run, true) else d
      exec (.modelWeightRunRepaired h g run holds) s = .next ((s.updGen .model h.toNat g.toNat fun x => { x with damaged := mend x.damaged }).resumeRebuild)) ∧
    (∀ f ∈ s.resumeRebuild.host.flights, f.work ≠ .rebuildWait)

/-- ENCODE, SCORE_PAIRS, TOKENIZE, TOKENIZE_CONTEXT_EXPIRE and DETOKENIZE. -/
def Obligations.ModelPasses : Prop :=
  ∀ (m : Mbx) (tag : Word) (f : Flight) (s : State),
    (∀ n ins str g u v w t p, s.turn 0x4010 m tag f → f.opens 16 16777216 → n = field f.plain 8 2 → 1 ≤ n → n ≤ 256 → field f.plain 0xA 1 < 2 → field f.plain 0xB 1 < 2 →
      zeroField f.plain 0xE 2 = true → readInputs n 0x30 (f.plain.drop 16) = .ok ins → s.streamField 0x2C (field f.plain 0xC 2) f = .ok str →
      s.bindGen .model 0x20 (field f.plain 0 4) f = .ok (g, u) → u.bindGen .vocab 0x24 (field f.plain 4 4) f = .ok (v, w) →
      (readModelHeader g.image).kind = 0 → vocabMatches g.image v.image = true → g.damaged = [] →
      let ids := field f.plain 0xB 1 == 1
      let toks := ins.map fun x => inputTokens v.image ids x.2
      let seqs := toks.map fun x => modelSequence (readModelHeader g.image) x.1
      let ns := seqs.map (·.1.length)
      let outs := seqs.map fun x => encodeSequence g.image x.1;
      (ids = true → ∀ x ∈ ins, x.2.length % 4 = 0) → w.crewAtOnce (readModelHeader g.image).crewClass 0 f t →
      t.reserveKv f (readModelHeader g.image) ns = .ok p →
      let p := (p.runPages f ns).stage f (passItems g.image ns)
      exec (.encode m tag) s = .next (((if ids then p else p.chargeText f.tenant toks).chargeTiles f.tenant).giveEntries f str .done
        (fun k => leBytes 4 k ++ leBytes 4 (outs.map (·.2)).sum ++ leBytes 4 (seqs.filter (·.2)).length ++ zeros 4)
        (outs.map fun x => vectorBytes (field f.plain 0xA 1) x.1))) ∧
    (∀ n mx ps str g u v w t p, s.turn 0x4011 m tag f → f.opens 16 16777216 → n = field f.plain 8 2 → 1 ≤ n → n ≤ 1024 → mx = field f.plain 0xA 2 → 64 ≤ mx →
      field f.plain 0xC 1 < 2 → zeroField f.plain 0xD 1 = true → readPairs n 0x30 (f.plain.drop 16) = .ok ps → s.streamField 0x2E (field f.plain 0xE 2) f = .ok str →
      s.bindGen .model 0x20 (field f.plain 0 4) f = .ok (g, u) → u.bindGen .vocab 0x24 (field f.plain 4 4) f = .ok (v, w) →
      (readModelHeader g.image).kind = 1 → vocabMatches g.image v.image = true → mx ≤ (readModelHeader g.image).maxSeq → g.damaged = [] →
      let ids := field f.plain 0xC 1 == 1
      let toks := ps.map fun x => (inputTokens v.image ids x.1.2, inputTokens v.image ids x.2.2)
      let ns := toks.map fun x => (pairSequence (readModelHeader g.image) mx x.1.1 x.2.1).1.length
      let outs := toks.map fun x => scorePair g.image mx x.1.1 x.2.1;
      (ids = true → ∀ x ∈ ps, x.1.2.length % 4 = 0 ∧ x.2.2.length % 4 = 0) → w.crewAtOnce (readModelHeader g.image).crewClass 0 f t →
      t.reserveKv f (readModelHeader g.image) ns = .ok p →
      let p := (p.runPages f ns).stage f (passItems g.image ns)
      exec (.scorePairs m tag) s = .next (((if ids then p else p.chargeText f.tenant (toks.flatMap fun x => [x.1, x.2])).chargeTiles f.tenant).giveEntries f str .done
        (fun k => leBytes 4 k ++ leBytes 4 ((outs.map (·.2)).sum + (outs.filter fun x => f32IsNan x.1).length) ++ zeros 8)
        (outs.map fun x => leBytes 4 x.1.toNat))) ∧
    (∀ g b k, ((∃ d ∈ g.damaged, d.2 = true) → s.withWeights g f b k = .ok (s.answer f .dataDamaged b)) ∧
      (g.damaged ≠ [] → (∀ d ∈ g.damaged, d.2 = false) → s.withWeights g f b k = .ok (s.setWork f .rebuildWait))) ∧
    (∀ n c v u t, s.turn 0x4022 m tag f → f.opens 16 4000016 → n = field f.plain 8 4 → n ≤ 4000000 → (n ≠ 0 ∨ field f.plain 6 2 ≠ 0) → field f.plain 4 2 < 4 →
      zeroField f.plain 0xC 4 = true → f.plain.length = 16 + (n + 7) / 8 * 8 → zeroField f.plain (16 + n) ((8 - n % 8) % 8) = true →
      s.tokenizeSource f = .ok (c, v, u) →
      let more := bit (field f.plain 4 2) 0;
      (more = true → c = none → u.models.contexts.length < 256 ∧ (u.models.contexts.filter (·.tenant == f.tenant)).length < 16) → u.crewAtOnce u.textCrew 0 f t →
      let text := c.elim [] (·.carry) ++ slice f.plain 16 n
      let started := c.elim (bit (field f.plain 4 2) 1) (·.started)
      let spans := textSpans v.image (if more then (utf8Decode text).chars else (utf8Whole text).1)
      let out := if more then spans.dropLast else spans
      let held := if more then utf8Bytes (spans.getLastD []) ++ (utf8Decode text).tail else []
      let replaced := if more then (utf8Decode text).replaced else (utf8Whole text).2
      let ids := spansTokens v.image (!started) out
      let id := c.elim t.freeContext (·.id)
      let rest := t.models.contexts.filter fun x => c.isNone || x.id != id
      let ctx : TokenContext := { id := id, tenant := f.tenant, vocab := v.handle, gen := v.gen, carry := held, started := started || !out.isEmpty, last := t.clock }
      let p : State := { t with models.contexts := if more then rest ++ [ctx] else rest
                                models.nextContext := if more && c.isNone then id % 65535 + 1 else t.models.nextContext }
      exec (.tokenize m tag) s = .next ((((p.stage f spans.length).chargeText f.tenant [(ids, replaced)]).chargeTiles f.tenant).giveEntries f none .done
        (fun k => leBytes 2 (if more then id else 0) ++ zeros 2 ++ leBytes 4 k ++ leBytes 4 held.length ++ leBytes 4 replaced) (ids.map (leBytes 4)))) ∧
    (∀ (c : TokenContext) (id : Half), s.models.contexts.find? (·.id == id.toNat) = some c →
      let busy := s.host.flights.any fun g => g.opcode == 0x4022#16 && g.work != .admitted && field g.plain 6 2 == c.id;
      (c.last + 10000000000 ≤ s.clock → busy = false → exec (.tokenizeContextExpire id) s =
        .next ({ s with models.contexts := s.models.contexts.filter (·.id != c.id) } : State).reapGens) ∧
      (s.clock < c.last + 10000000000 ∨ busy = true → exec (.tokenizeContextExpire id) s = .next s)) ∧
    (∀ n v u t, s.turn 0x4023 m tag f → f.opens 16 16000016 → n = field f.plain 8 4 → 1 ≤ n → n ≤ 4000000 → field f.plain 4 2 < 2 → zeroField f.plain 6 2 = true →
      zeroField f.plain 0xC 4 = true → f.plain.length = 16 + 4 * n → s.bindGen .vocab 0x20 (field f.plain 0 4) f = .ok (v, u) →
      let ids := tokenIds (f.plain.drop 16);
      (∀ i, ids.findIdx? (fun i => decide (vocabPieces v.image ≤ i)) = some i → exec (.detokenize m tag) s = .next (s.answerDetail f (bad (0x30 + 4 * i)))) ∧
      (ids.findIdx? (fun i => decide (vocabPieces v.image ≤ i)) = none → u.crewAtOnce u.textCrew 0 f t →
        let d := utf8Whole (ids.flatMap (tokenBytes v.image))
        let text := if bit (field f.plain 4 2) 0 && vocabFlag v.image 1 && d.1.head? == some 0x20 then d.1.drop 1 else d.1
        let fit := fitChars ((t.rspPlain f.mbx - 16) / 8 * 8) text
        let p := (t.stage f ((n + 65535) / 65536)).chargeTiles f.tenant
        exec (.detokenize m tag) s = .next ((if d.2 = 0 then p else p.charge f.tenant 0xAC d.2).answer f (if fit.length = text.length then .done else .doneTruncated)
          (leBytes 4 (utf8Bytes fit).length ++ leBytes 4 d.2 ++ zeros 8 ++ padTo 8 (utf8Bytes fit)))))

/-- GENERATE and GENERATE_TOKEN_STEP. -/
def Obligations.Generation : Prop :=
  ∀ (m : Mbx) (tag : Word) (f : Flight) (s : State),
    (∀ p n stops str g u v w gr x t q, s.turn 0x4012 m tag f → f.opens 48 16777216 → fields (genFields f) = .ok () → p = field f.plain 0x14 4 → n = field f.plain 0x1E 1 →
      f.plain.length = 48 + (p + 7) / 8 * 8 + 72 * n → zeroField f.plain (48 + p) ((8 - p % 8) % 8) = true →
      readStops n (0x20 + (48 + (p + 7) / 8 * 8)) (f.plain.drop (48 + (p + 7) / 8 * 8)) = .ok stops → s.streamField 0x2C (field f.plain 0xC 2) f = .ok str →
      s.bindGen .model 0x20 (field f.plain 0 4) f = .ok (g, u) → u.bindGen .vocab 0x24 (field f.plain 4 4) f = .ok (v, w) →
      w.bindGrammar (readModelHeader g.image).eos f = .ok (gr, x) → (readModelHeader g.image).kind = 2 → vocabMatches g.image v.image = true → g.damaged = [] →
      let ids := field f.plain 0xE 1 == 1
      let toks := inputTokens v.image ids (slice f.plain 48 p)
      let us := field f.plain 0x28 4;
      toks.1.length + field f.plain 0x10 4 ≤ (readModelHeader g.image).maxSeq →
      (x.updFlight f.mbx f.tag fun y => { y with deadline := if us = 0 then none else some (f.arrival + us * 1000) }).crewAtOnce (readModelHeader g.image).crewClass 0 f t →
      t.reserveKv f (readModelHeader g.image) [toks.1.length + field f.plain 0x10 4] = .ok q →
      let q2 := (if ids then q else q.chargeText f.tenant [toks]).chargeTiles f.tenant
      let run : GenRun := {
        model := (g.handle, g.gen), vocab := (v.handle, v.gen), grammar := gr.elim (0, 0) fun x => (x.handle, x.gen), prompt := toks.1
        conf := gr.elim (0, []) fun x => (field x.image 0x10 2, []), stops := stops, stream := str.map (·.1), sprint := q2.isSprint f.tenant }
      exec (.generate m tag) s = .next ((q2.stage f (passItems g.image [(genSequence (readModelHeader g.image) run).length])).setWork f (.generate run))) ∧
    (∀ r g v, s.flight m.key tag = some f → f.work = .generate r → s.generation .model r.model.1 r.model.2 = some g →
      s.generation .vocab r.vocab.1 r.vocab.2 = some v →
      let held : Prop := s.serving = false ∨ ∃ n, r.stream = some n ∧ s.streamLacks n = true;
      (held → exec (.generateTokenStep m tag) s = .next s) ∧
      (¬ held → (∃ d ∈ g.damaged, d.2 = true) → exec (.generateTokenStep m tag) s = .next ((s.abortStreams f).answer f .dataDamaged (genHead r 0))) ∧
      (¬ held → g.damaged ≠ [] → (∀ d ∈ g.damaged, d.2 = false) → exec (.generateTokenStep m tag) s = .next s) ∧
      (¬ held → g.damaged = [] → s.throughPages f (genSequence (readModelHeader g.image) r).length = none →
        exec (.generateTokenStep m tag) s = .next ((s.abortStreams f).answer f .dataDamaged (genHead r 0))) ∧
      (∀ u, ¬ held → g.damaged = [] → s.throughPages f (genSequence (readModelHeader g.image) r).length = some u →
        exec (.generateTokenStep m tag) s = .next (u.genStep f r g v
          (if r.grammar.2 = 0 then none else (u.generation .grammar r.grammar.1 r.grammar.2).map (·.image))))) ∧
    (∀ r g v gr,
      let p := nextLogits g.image (genSequence (readModelHeader g.image) r)
      let all := permitted gr v.image (readModelHeader g.image).eos r.conf p.1
      let ok := all.filter fun x => !f32IsNan x.2
      let r2 : GenRun := { r with nans := r.nans + (all.length - ok.length), nanRows := p.2 }
      let u := s.chargeTiles f.tenant
      let seeded := field f.plain 0xF 1 == 1
      let c := candidates (if seeded then field f.plain 0x1C 2 else 1) ok
      let tok := if seeded then
          (samplePick (field f.plain 0x20 8) r.out.length (BitVec.ofNat 32 (field f.plain 0x18 4)) c).getD ((c.getD (Config.free u.free % c.length) (0, f32Zero)).1)
        else (c.headD (0, f32Zero)).1
      let w := ({ u with free := u.free + 1 } : State).stage f (passItems g.image [1]);
      (all = [] → s.genStep f r g v gr = u.genStop f r2 .grammarDeadEnd) ∧ (all ≠ [] → ok = [] → s.genStep f r g v gr = u.genStop f r2 .stopped) ∧
      (ok ≠ [] → tok = (readModelHeader g.image).eos → s.genStep f r g v gr = w.genStop f r2 .done) ∧
      (ok ≠ [] → tok ≠ (readModelHeader g.image).eos → s.genStep f r g v gr = w.genToken f { r2 with
        out := r.out ++ [tok], conf := gr.elim r.conf fun b => grammarStep b v.image r.conf tok } v.image) ∧
      (seeded = false → ∀ x, (candidates 1 ok).head? = some x → tok = x.1)) ∧
    (∀ r vocab, let u := s.charge f.tenant 0x78 1
      let d := genChars vocab r.out
      let text := markedBytes d.1
      let avail := if r.sprint then text.length else text.length - stopHold r.stops text;
      (∀ n cut, stopAt r.stops [] 0 (d.1.map unmark) = some (n, cut) → s.genToken f r vocab = u.genEnd f r .stopped (d.1.take n) (some cut)) ∧
      (stopAt r.stops [] 0 (d.1.map unmark) = none →
        (field f.plain 0x10 4 ≤ r.out.length → s.genToken f r vocab = u.genStop f r .done) ∧
        (r.out.length < field f.plain 0x10 4 → s.power.season = .drain → s.genToken f r vocab = u.genStop f r .stopped) ∧
        (r.out.length < field f.plain 0x10 4 → s.power.season ≠ .drain →
          (r.stream = none → s.genToken f r vocab = u.setWork f (.generate { r with released := avail, covered := r.out.length })) ∧
          (∀ n, r.stream = some n → avail ≤ r.released → s.genToken f r vocab = u.setWork f (.generate r)) ∧
          (∀ n, r.stream = some n → r.released < avail → s.genToken f r vocab =
            (u.textOut f n (textRecord r (4 * flag (replacedIn r.released avail 0 d.1)) 0 ((text.take avail).drop r.released)) false).setWork f
              (.generate { r with released := avail, covered := r.out.length }))))) ∧
    (∀ r st chars cut,
      let text := cut.elim (markedBytes chars) (markedBytes chars).take
      let room := s.rspPlain f.mbx - 16;
      (r.stream = none → text.length ≤ room → s.genEnd f r st chars cut = s.answer f st (genHead r text.length ++ text)) ∧
      (r.stream = none → room < text.length → let fit := utf8Bytes (fitChars room (utf8Decode text).chars)
        s.genEnd f r st chars cut = s.answer f .doneTruncated (genHead r fit.length ++ fit)) ∧
      (∀ n, r.stream = some n → s.host.streams.find n = none → s.genEnd f r st chars cut = s.answer f st (genHead r 0)) ∧
      (∀ n x, r.stream = some n → s.host.streams.find n = some x → s.streamLacks n = true →
        s.genEnd f r st chars cut = (s.abortStreams f).answer f st (genHead r 0)) ∧
      (∀ n x, r.stream = some n → s.host.streams.find n = some x → s.streamLacks n = false →
        s.genEnd f r st chars cut = (s.textOut f n (textRecord r (flag cut.isSome + 2 + 4 * flag (replacedIn r.released text.length 0 chars))
          (r.released - text.length) (text.drop r.released)) true).setWork f (.streaming n st (some (genHead r 0)))))

/-- TABLE_CREATE, TABLE_DROP, TABLE_LOOKUP, TABLE_UPDATE, TABLE_REBALANCE, TABLE_PREFETCH, TABLE_PREFETCH_EXPIRE and TABLE_DROP_TIMEOUT. -/
def Obligations.Tables : Prop :=
  ∀ (m : Mbx) (tag : Word) (f : Flight) (s : State) (t : Table),
    (s.turn 0x5001 m tag f → f.opens 64 64 → s.unfenced (field f.plain 4 4) = .ok () → fields (tableFields f.plain) = .ok () → ownerOf (field f.plain 0 4) = f.tenant →
      s.tables.tables.find (field f.plain 0 4) = none →
      let id := field f.plain 0 4
      let d := readTableDesc f.plain;
      (∀ u, d.composition = 0 → s.reserveTable id d [] = .ok u → exec (.tableCreate m tag) s = .next (u.answer f .done [])) ∧
      (∀ k u, d.composition ≠ 0 → s.comp.compositions.find d.composition = some k → k.active = true → s.reserveTable id d k.members = .ok u →
        let others := k.members.filter (· != u.nodeId)
        let r := u.newReq
        let x := others.foldl (fun (a : State × Bool) n =>
          let y := a.1.send n 0x30 (a.1.fabClass f.tenant) f.tenant false (tableMessage 1 0 a.1.nodeId id 0 r.1 0 (tableDescBytes id d))
          (y.1, a.2 && y.2 && !k.lost.contains n)) ((r.2.updTable id fun t => { t with creating := some (f.mbx, f.tag, others) }).setWork f .eventWait, true);
        x.1.tables.tables.find id = some t →
        (x.2 = false → exec (.tableCreate m tag) s = .next (x.1.endCreate t (some { status := .compositionLost, offset := noOffset }))) ∧
        (x.2 = true → others = [] → exec (.tableCreate m tag) s = .next (x.1.endCreate t none)) ∧
        (x.2 = true → others ≠ [] → exec (.tableCreate m tag) s = .next x.1))) ∧
    (∀ a b l g, t.creating = some (a, b, l) →
      ((s.updTable t.id fun t => { t with creating := none }).flight a b = some g → s.endCreate t none = (s.updTable t.id fun t => { t with creating := none }).answer g .done []) ∧
      ((s.freeCreated t).flight a b = some g → s.endCreate t (some { status := .compositionLost, offset := noOffset }) = (s.freeCreated t).answer g .compositionLost []) ∧
      (∀ n, (s.freeCreated t).flight a b = some g → s.endCreate t (some (noResources n)) = (s.freeCreated t).answerDetail g (noResources n))) ∧
    (∀ id d l u, s.reserveTable id d l = .ok u → ∃ x, u.tables.tables.find id = some x ∧ x.desc = d ∧ x.members = l ∧ x.step = 1 ∧ x.rows = [] ∧ x.rrows = [] ∧ x.mapVersion = 1 ∧
      x.reserved = tableReserve d l.length (l.idxOf s.nodeId) ∧ x.reserved ≤ s.tableFree ∧ s.tables.tables.length < 256) ∧
    (∀ d, tableReserve d 0 0 = 2 ^ d.rowsLog2 * rowSize d + (if d.store = 2 then 2 ^ d.rLog2 * rowSize d else 0)) ∧
    (∀ self step part row, t.ready self step part row = true ↔ t.step = step ∧ (part = 2 ∨ (t.home self (blockOf row) = self ∧ blockOf row ∉ t.incoming))) ∧
    (∀ n us str v w, s.turn 0x5010 m tag f → s.unfencedTable f = .ok () → f.opens 32 16777216 → n = field f.plain 0xC 4 → 1 ≤ field f.plain 4 8 → field f.plain 4 8 < 2 ^ 48 → 1 ≤ n →
      n ≤ 65536 → field f.plain 0x10 4 ≤ 65536 → field f.plain 0x14 1 ≤ 2 → zeroField f.plain 0x15 1 = true → us = field f.plain 0x18 4 → (us = 0 ∨ (100 ≤ us ∧ us ≤ 10000000)) →
      zeroField f.plain 0x1C 4 = true → f.plain.length = 32 + 8 * (n + field f.plain 0x10 4) → s.namedTable f = .ok t → (field f.plain 0x14 1 = 2 → t.desc.store ≠ 2) →
      s.streamField 0x36 (field f.plain 0x16 2) f = .ok str → keyFault t.desc 0x40 8 (lookupKeys f.plain 32 (n + field f.plain 0x10 4)) = .ok () → t.broken = false →
      v = (s.updFlight f.mbx f.tag fun g => { g with deadline := if us = 0 then none else some (f.arrival + us * 1000) }) →
      (field f.plain 4 8 = t.step + 1 → exec (.tableLookup m tag) s = .next ((v.updTable t.id fun t => { t with closing := true }).setWork f .stepWait)) ∧
      (field f.plain 4 8 ≠ t.step + 1 → (field f.plain 4 8 ≠ t.step ∨ t.endSent = true) → exec (.tableLookup m tag) s = .next (s.answerDetail f (wrongStateAt 0x24))) ∧
      (field f.plain 4 8 = t.step → t.endSent = false → v.crewAtOnce ((v.crewOfKind 4).getD 0) 0 f w →
        let keys := lookupKeys f.plain 32 n
        let rows := keys.zipIdx.flatMap fun (k, i) => (keyParts t.desc).map fun p => (i, p, keyRow t.desc p k)
        let x := (w.newReq.2.setWork f (.lookup { table := t.id, step := t.step, req := w.newReq.1, left := rows })).askRows t f.tenant w.newReq.1 t.step keys rows;
        (x.2 = true → exec (.tableLookup m tag) s = .next (x.1.pumpLookup f)) ∧ (x.2 = false → exec (.tableLookup m tag) s = .next (x.1.breakTable t.id)))) ∧
    (∀ n fmt w, s.turn 0x5011 m tag f → s.unfencedTable f = .ok () → f.opens 32 16777216 → n = field f.plain 0x10 4 → fmt = field f.plain 0x14 1 → 1 ≤ field f.plain 4 8 →
      field f.plain 4 8 < 2 ^ 48 → 1 ≤ n → n ≤ 65536 → fmt ≤ 1 → zeroField f.plain 0x15 11 = true → s.namedTable f = .ok t → f.plain.length = 32 + n * updateEntryBytes t.desc fmt →
      updateFault t.desc fmt 0x40 (records (updateEntryBytes t.desc fmt) n (f.plain.drop 32)) = .ok () → t.broken = false →
      (field f.plain 4 8 = t.step + 1 → exec (.tableUpdate m tag) s = .next ((s.updTable t.id fun t => { t with closing := true }).setWork f .stepWait)) ∧
      (field f.plain 4 8 ≠ t.step + 1 → (field f.plain 4 8 ≠ t.step ∨ t.endSent = true) → exec (.tableUpdate m tag) s = .next (s.answerDetail f (wrongStateAt 0x24))) ∧
      (field f.plain 4 8 = t.step → t.endSent = false → field f.plain 0xC 4 ∈ t.seqs → exec (.tableUpdate m tag) s = .next (s.answerDetail f (bad 0x2C))) ∧
      (field f.plain 4 8 = t.step → t.endSent = false → field f.plain 0xC 4 ∉ t.seqs → (t.buffer.filter (·.step == t.step)).length < 4194304 →
        s.crewAtOnce ((s.crewOfKind 4).getD 0) 0 f w →
        let us := (records (updateEntryBytes t.desc fmt) n (f.plain.drop 32)).zipIdx.map fun (e, i) => (readUpdate t.desc fmt t.step w.nodeId (field f.plain 0xC 4) i e, e)
        let mine := (us.map (·.1)).filter (t.reaches w.nodeId w.nodeId)
        let r := (w.updTable t.id fun t => { t with buffer := t.buffer ++ mine, seqs := field f.plain 0xC 4 :: t.seqs }).newReq
        let x := r.2.sendUpdates t f.tenant (field f.plain 0xC 4) fmt r.1 us;
        (x.2 = true → exec (.tableUpdate m tag) s = .next ((x.1.chargeTiles f.tenant).answer f .done (leBytes 4 n ++ zeros 4))) ∧
        (x.2 = false → exec (.tableUpdate m tag) s = .next (x.1.breakTable t.id)))) ∧
    (∀ u v, s.turn 0x5020 m tag f → s.unfencedTable f = .ok () → f.opens 16 16 → field f.plain 4 4 < 4 → zeroField f.plain 8 8 = true → s.namedTable f = .ok t → t.broken = false →
      u = (s.updTable t.id fun x => { x.roll s.clock with forced := x.forced || (!x.members.isEmpty && bit (field f.plain 4 4) 0 && !bit (field f.plain 4 4) 1) }) →
      u.table t.id = some v →
      let ms := if v.members.isEmpty then [u.nodeId] else v.members
      let loads := if v.members.isEmpty && v.closed.isSome then v.ownLoads u.nodeId else v.lastLoads
      let shards := leBytes 4 v.moved ++ leBytes 4 ms.length ++ ms.flatMap fun n => leBytes 2 n ++ zeros 2 ++ leBytes 4 (min 0xFFFFFFFF (memberLoad loads n))
      let k := skewOf ms loads;
      (k.2 = 0 → exec (.tableRebalance m tag) s = .next (u.draw.2.answer f .done (leBytes 4 v.mapVersion ++ leBytes 4 (BitVec.ofNat 32 u.draw.1).toNat ++ shards))) ∧
      (k.2 ≠ 0 → exec (.tableRebalance m tag) s =
        .next (u.answer f .done (leBytes 4 v.mapVersion ++ leBytes 4 (fpDiv32 (.fin false k.1 0) (.fin false k.2 0)).toNat ++ shards)))) ∧
    ((s.turn 0x5002 m tag f → s.unfencedTable f = .ok () → f.opens 8 8 → zeroField f.plain 4 4 = true → s.namedTable f = .ok t →
      exec (.tableDrop m tag) s = .next (((s.updTable t.id fun t => { t with dropping := some (f.mbx, f.tag) }).setWork f .eventWait).settleDrop t.id)) ∧
     (s.flight m.key tag = some f → f.opcode.toNat = 0x5002 → f.work = .eventWait → exec (.tableDrop m tag) s = .next (s.settleDrop (field f.plain 0 4))) ∧
     (s.table t.id = some t →
      (t.remoteDrop = none → t.dropping = none → s.settleDrop t.id = s) ∧
      (∀ n q, t.remoteDrop = some (n, q) → (s.host.flights.any (usesTable t.id) = true → s.settleDrop t.id = s) ∧
        (s.host.flights.any (usesTable t.id) = false → s.settleDrop t.id = (s.freeTable t.id).tablePost n t.id (tableMessage 8 0 n t.id 0 q 0 []))) ∧
      (t.remoteDrop = none → t.dropping ≠ none → t.dropSent ≠ none → (t.dropLeft = [] → s.settleDrop t.id = s.endDrop t) ∧ (t.dropLeft ≠ [] → s.settleDrop t.id = s)) ∧
      (t.remoteDrop = none → t.dropping ≠ none → t.dropSent = none →
        (((s.beforeDrop t).any (usesTable t.id) || t.closing) = true → s.settleDrop t.id = s) ∧
        (((s.beforeDrop t).any (usesTable t.id) || t.closing) = false →
          let lost := (s.comp.compositions.find t.desc.composition).elim [] (·.lost)
          let r := s.newReq
          let x := ((t.others s.nodeId).filter fun n => !lost.contains n).foldl (fun (a : State × List Nat) n =>
            let y := a.1.send n 0x30 (a.1.fabClass (ownerOf t.id)) (ownerOf t.id) false (tableMessage 7 0 a.1.nodeId t.id 0 r.1 0 [])
            (y.1, if y.2 then a.2 ++ [n] else a.2)) (r.2, []);
          (x.2 = [] → s.settleDrop t.id = x.1.endDrop t) ∧
          (x.2 ≠ [] → s.settleDrop t.id = x.1.updTable t.id fun t => { t with rows := [], rrows := [], buffer := [], blocks := [], dropLeft := x.2, dropSent := some s.clock })))) ∧
     (∀ a b g, t.dropping = some (a, b) → (s.freeTable t.id).flight a b = some g → s.endDrop t = (s.freeTable t.id).answer g .done [])) ∧
    (s.table t.id = some t → ∀ x, t.dropSent = some x → t.id < 2 ^ 32 →
      (x + 100000000 ≤ s.clock → exec (.tableDropTimeout (BitVec.ofNat 32 t.id)) s = .next (s.endDrop t)) ∧
      (s.clock < x + 100000000 → exec (.tableDropTimeout (BitVec.ofNat 32 t.id)) s = .next s)) ∧
    (∀ (id : Word), ∃ u, exec (.tablePrefetchExpire m id) s = .next u ∧
      (∀ x, x ∈ u.tables.prefetch ↔ x ∈ s.tables.prefetch ∧ (x.mbx = m.key → x.table = id.toNat → s.clock < x.since + 10000000)) ∧ u.tables.tables = s.tables.tables) ∧
    (∀ (id : Word) x, s.tables.nexts.find? (fun x => x.mbx == m.key && x.table == id.toNat) = some x → s.table id.toNat = some t →
      let u : State := { s with tables.nexts := s.tables.nexts.erase x }
      let rows := x.keys.zipIdx.flatMap fun (k, i) => (keyParts t.desc).map fun p => (i, p, keyRow t.desc p k)
      let here := rows.filter fun y => t.ready u.nodeId t.step y.2.1 y.2.2
      let v := ({ u with tables.prefetch := u.tables.prefetch ++ here.map fun (y : Nat × Nat × Nat) =>
        ({ mbx := x.mbx, table := t.id, part := y.2.1, row := y.2.2, lastStep := (t.row y.2.1 y.2.2).lastStep, since := u.clock } : Prefetched) } : State).chargeTiles (ownerOf t.id)
      let there := rows.filter fun y => y.2.1 != 2 && t.home v.nodeId (blockOf y.2.2) != v.nodeId
      let r := v.newReq;
      ((t.broken = true ∨ s.serving = false) → exec (.tablePrefetch m id) s = .next u) ∧
      (t.broken = false → s.serving = true → there = [] → exec (.tablePrefetch m id) s = .next v) ∧
      (t.broken = false → s.serving = true → there ≠ [] → exec (.tablePrefetch m id) s =
        .next (({ r.2 with tables.ahead := r.2.tables.ahead ++ [({ req := r.1, mbx := x.mbx, table := t.id, rows := there } : AheadRead)] } : State).askRows
          t (ownerOf t.id) r.1 t.step x.keys there).1) ∧ v.tables.tables = s.tables.tables)

/-- TABLE_STEP_CLOSE, TABLE_BLOCK_MIGRATE, TABLE_OP and TABLE_BLOCK. -/
def Obligations.TableSteps : Prop :=
  ∀ (id : Word) (s : State) (t : Table),
    (s.serving = true → ∀ u, u = (s.updTable id.toNat fun t => t.roll s.clock) → u.table id.toNat = some t →
      ((t.closing = false ∨ t.endSent = true ∨ t.broken = true ∨ u.stepBusy t = true) →
        exec (.tableStepClose id) s = .next ((u.endClose id.toNat).settleDrop id.toNat) ∧ exec (.tableBlockMigrate id) s = .next u) ∧
      (t.closing = true → t.endSent = false → t.broken = false → u.stepBusy t = false →
        (t.judges u.nodeId = false → exec (.tableStepClose id) s = .next (((u.sendEnd t).endClose id.toNat).settleDrop id.toNat) ∧ exec (.tableBlockMigrate id) s = .next u) ∧
        (t.judges u.nodeId = true → t.othersEnded u.nodeId = false →
          exec (.tableStepClose id) s = .next ((u.endClose id.toNat).settleDrop id.toNat) ∧ exec (.tableBlockMigrate id) s = .next u) ∧
        (t.judges u.nodeId = true → t.othersEnded u.nodeId = true →
          ((t.verdict u.nodeId).1 = [] →
            exec (.tableStepClose id) s = .next (((u.sendEnd t).endClose id.toNat).settleDrop id.toNat) ∧ exec (.tableBlockMigrate id) s = .next u) ∧
          ((t.verdict u.nodeId).1 ≠ [] →
            exec (.tableStepClose id) s = .next ((u.endClose id.toNat).settleDrop id.toNat) ∧
            exec (.tableBlockMigrate id) s = .next (((u.sendEnd t).endClose id.toNat).settleDrop id.toNat))))) ∧
    (s.table id.toNat = some t → (t.endSent = false ∨ t.othersEnded s.nodeId = false ∨ t.broken = true) → s.endClose id.toNat = s) ∧
    (s.table id.toNat = some t → t.endSent = true → t.othersEnded s.nodeId = true → t.broken = false →
      let moves := (t.moves.filter (·.1 == t.step)).map (·.2)
      let incoming := (moves.filter fun x => x.2 == s.nodeId && t.home s.nodeId x.1 != s.nodeId).map (·.1)
      let leaving := moves.filter fun x => x.2 != s.nodeId && t.home s.nodeId x.1 == s.nodeId
      let v : Table := { t.applyStep.1 with
        step := t.step + 1, closing := false, endSent := false, seqs := [], ends := t.ends.filter fun e => t.step < e.2
        moves := t.moves.filter fun x => t.step < x.1, blocks := moves.foldl (fun b x => b.put x.1 x.2) t.blocks
        mapVersion := t.mapVersion + flag (!moves.isEmpty), moved := if moves.isEmpty then t.moved else moves.length
        incoming := t.incoming ++ incoming.filter fun b => !t.arrived.contains b, arrived := t.arrived.filter fun b => !incoming.contains b }
      let u := leaving.foldl (fun s x => s.sendBlock v x.1 x.2) (({ s with tables.tables := s.tables.tables.put id.toNat v } : State).charge (ownerOf id.toNat) 0xB0 t.applyStep.2)
      let resume (f : Flight) : Flight := if usesTable id.toNat f && f.work == Work.stepWait then { f with work := .admitted } else f
      s.endClose id.toNat = ({ u with host.flights := u.host.flights.map resume } : State).pumpTable id.toNat) ∧
    (∀ u ∈ t.buffer, u.step ≠ t.step → u ∈ t.applyStep.1.buffer) ∧ (∀ u ∈ t.applyStep.1.buffer, u.step ≠ t.step) ∧
    (∀ d step (r : Row) us, (d.update = 0 → (applyRow d step r us).1.lastStep = step ∧ (applyRow d step r us).1.poisoned = false) ∧
      (d.update = 1 → r.poisoned = true → applyRow d step r us = (r, 0)) ∧
      (∀ u, d.update = 0 → (applyRow d step r [u]).1.elems = (storeValues d false u.delta).2.1) ∧
      (d.update = 0 → ∀ u v, u.issuer < v.issuer → (applyRow d step r [v, u]).1 = (applyRow d step r [v]).1 ∧ (applyRow d step r [u, v]).1 = (applyRow d step r [v]).1)) ∧
    (∀ x u, s.takeMessage 0x30 [] = some (x, u) → u.serving = true →
      (tableHeadOk x.body = false → exec .tableOp s = .next (u.partnerViolation x.port x.src)) ∧
      (tableHeadOk x.body = true →
        (field x.body 0 1 = 1 → exec .tableOp s = .next (u.tableCreateHere x)) ∧
        (2 ≤ field x.body 0 1 → (∀ y, u.tables.tables.find (field x.body 4 4) = some y → x.src ∉ y.members) → exec .tableOp s = .next (u.partnerViolation x.port x.src)) ∧
        (u.tables.tables.find (field x.body 4 4) = some t → x.src ∈ t.members →
          (field x.body 0 1 = 2 → exec .tableOp s = .next (u.tableCreateAck x t)) ∧ (field x.body 0 1 = 3 → exec .tableOp s = .next (u.tableUpdateHere x t)) ∧
          (field x.body 0 1 = 4 → exec .tableOp s = .next (u.tableLookupHere x t)) ∧ (field x.body 0 1 = 5 → exec .tableOp s = .next (u.tableRowsHere x t)) ∧
          (field x.body 0 1 = 6 → exec .tableOp s = .next (u.tableEndHere x t)) ∧
          (field x.body 0 1 = 7 → exec .tableOp s = .next ((u.updTable t.id fun t => { t with remoteDrop := some (x.src, field x.body 0x10 8) }).settleDrop t.id)) ∧
          (field x.body 0 1 = 8 → exec .tableOp s = .next ((u.updTable t.id fun t => { t with dropLeft := t.dropLeft.filter (· != x.src) }).settleDrop t.id))))) ∧
    (∀ (x : Inbound) k, let d := readTableDesc (x.body.drop 32)
      let n := field x.body 4 4
      let ack (st : Status) (v : State) : State := v.tablePost x.src n (tableMessage 2 (statusCode st) (field x.body 2 2) n 0 (field x.body 0x10 8) 0 []);
      s.comp.compositions.find d.composition = some k → fields (tableFields (x.body.drop 32)) = .ok () → field (x.body.drop 32) 0 4 = n → k.active = true → x.src ∈ k.members →
      ((s.tables.tables.find n ≠ none ∨ s.power.season ≠ .summer) → s.tableCreateHere x = ack .wrongState s) ∧
      (s.tables.tables.find n = none → s.power.season = .summer →
        (∀ v, s.reserveTable n d k.members = .ok v → s.tableCreateHere x = ack .done v) ∧
        (∀ e, s.reserveTable n d k.members = .error e → s.tableCreateHere x = ack e.status s))) ∧
    (∀ (x : Inbound) a b l, t.creating = some (a, b, l) →
      (field x.body 1 1 ≠ 0 → s.tableCreateAck x t = s.draw.2.endCreate t (some (noResources (s.draw.1 % 2 ^ 32)))) ∧
      (field x.body 1 1 = 0 → let v := s.updTable t.id fun t => { t with creating := some (a, b, l.filter (· != x.src)) };
        (l.filter (· != x.src) = [] → s.tableCreateAck x t = v.endCreate t none) ∧ (l.filter (· != x.src) ≠ [] → s.tableCreateAck x t = v))) ∧
    (∀ (x : Inbound), let fmt := field x.body 0x24 1
      let n := field x.body 0x18 4
      let size := 8 + updateEntryBytes t.desc fmt
      let es := records size n (x.body.drop 40)
      let fine : Prop := 40 ≤ x.body.length ∧ fmt ≤ 1 ∧ zeroField x.body 0x25 3 = true ∧ x.body.length = 40 + n * size ∧
        ∀ e ∈ es, zeroField e 4 4 = true ∧ updateEntryFault t.desc fmt 0 (e.drop 8) = .ok ();
      (¬ fine → s.tableUpdateHere x t = s.partnerViolation x.port x.src) ∧
      (fine → (t.broken = true ∨ field x.body 8 8 < t.step) → s.tableUpdateHere x t = s) ∧
      (fine → t.broken = false → t.step ≤ field x.body 8 8 → s.tableUpdateHere x t = s.updTable t.id fun t => { t with
        buffer := t.buffer ++ es.map fun e => readUpdate t.desc fmt (field x.body 8 8) (field x.body 2 2) (field x.body 0x20 4) (field e 0 4) (e.drop 8) })) ∧
    (∀ (x : Inbound), let es := records 16 (field x.body 0x18 4) (x.body.drop 32)
      let r : TableRequest := { table := t.id, from_ := x.src, req := field x.body 0x10 8, step := field x.body 8 8, tenant := x.tenant
                                entries := es.map fun e => (field e 0 4, field e 4 1, keyRow t.desc (field e 4 1) (field e 8 8)) };
      x.body.length = 32 + 16 * field x.body 0x18 4 → (∀ e ∈ es, zeroField e 5 3 = true ∧ field e 4 1 ≤ 1 ∧ keyOk t.desc (field e 8 8) = true) →
      s.tableLookupHere x t = ({ s with tables.requests := s.tables.requests ++ [r] } : State).pumpRequest r) ∧
    (∀ (x : Inbound), let n := field x.body 0x18 4
      let k := field x.body 0x24 4
      let loads := (records 8 n (x.body.drop 40)).map fun e => (x.src, field e 0 4, field e 4 4)
      let ms := records 8 k (x.body.drop (40 + 8 * n));
      40 ≤ x.body.length → x.body.length = 40 + 8 * (n + k) → (k ≠ 0 → t.coordinator s.nodeId = x.src) → (∀ e ∈ ms, zeroField e 6 2 = true ∧ field e 4 2 ∈ t.members) →
      s.tableEndHere x t = ((s.updTable t.id fun t => { t with
        ends := if t.ends.contains (x.src, field x.body 8 8) then t.ends else t.ends ++ [(x.src, field x.body 8 8)]
        loads := if loads.isEmpty then t.loads else (t.loads.filter (·.1 != x.src)) ++ loads
        moves := t.moves ++ ms.map fun e => (field x.body 8 8, field e 0 4, field e 4 2) }).endClose t.id).settleDrop t.id) ∧
    (∀ x u, s.takeMessage 0x31 [] = some (x, u) → u.serving = true →
      (u.tables.tables.find (field x.body 0 4) = none → exec .tableBlock s = .next (u.partnerViolation x.port x.src)) ∧
      (u.tables.tables.find (field x.body 0 4) = some t →
        let n := min 4096 (2 ^ t.desc.rowsLog2)
        let block := field x.body 4 4
        let now : Prop := field x.body 8 4 = t.mapVersion ∧ block ∈ t.incoming
        let fine : Prop := x.src ∈ t.members ∧ zeroField x.body 12 4 = true ∧ x.body.length = 16 + n * rowSize t.desc ∧ (now ∨ field x.body 8 4 = t.mapVersion + 1)
        let put (g : List Nat → List Nat) : State := u.updTable t.id fun y => { y with
          rows := ((records (rowSize t.desc) n (x.body.drop 16)).zipIdx.filterMap fun (r, i) =>
            if r.all (· == 0) then none else some (4096 * block + i, readRow t.desc r)).foldl (fun m r => m.put r.1 r.2) y.rows
          incoming := y.incoming.filter (· != block), arrived := g y.arrived };
        (¬ fine → exec .tableBlock s = .next (u.partnerViolation x.port x.src)) ∧
        (fine → now → exec .tableBlock s = .next ((put fun l => l).pumpTable t.id)) ∧
        (fine → ¬ now → exec .tableBlock s = .next ((put (block :: ·)).pumpTable t.id))))

/-- FABRIC_STATUS, ROUTE_LOAD, ROUTE_ACTIVATE, GATE_LIST_LOAD, GATE_LIST_ACTIVATE, TIME, TIME_FIRST_LOCK and TIME_HOLDOVER. -/
def Obligations.FabricImages : Prop :=
  ∀ (m : Mbx) (tag : Word) (f : Flight) (s : State),
    (s.turn 0x6001 m tag f → f.opens 8 8 → zeroField f.plain 1 7 = true →
      (field f.plain 0 1 = 0 → exec (.fabricStatus m tag) s = .next (s.answer f .done s.fabricSummary)) ∧
      (field f.plain 0 1 = 1 → 4096 ≤ f.mbx → exec (.fabricStatus m tag) s = .next (s.answer f .done (s.fabric.ports.zipIdx.flatMap fun (x, i) => portEntry s.clock i x))) ∧
      (field f.plain 0 1 = 1 → f.mbx < 4096 → exec (.fabricStatus m tag) s = .next (s.answerDetail f (notAuthorised 0x20))) ∧
      (2 ≤ field f.plain 0 1 → exec (.fabricStatus m tag) s = .next (s.answerDetail f (bad 0x20)))) ∧
    (s.turn 0x6010 m tag f → f.opens 262912 262912 → fields (routeFields f.plain (routeGen s.routeImage) s.fabTime) = .ok () →
      (∀ n, routeFault f.plain = some n → exec (.routeLoad m tag) s = .next (s.answerDetail f (bad (0x20 + 0x300 + 4 * n)))) ∧
      (routeFault f.plain = none →
        (s.fabric.routeWait ≠ none → exec (.routeLoad m tag) s = .next (s.answerDetail f wrongState)) ∧
        (s.fabric.routeWait = none → (s.fabric.route = none ∨ field f.plain 0xC 2 = s.nodeId ∨ (s.comp.compositions = [] ∧ s.comp.partition = 0 ∧ s.comp.sources = [])) →
          exec (.routeLoad m tag) s = .next (({ s with fabric.routeWait := some { image := f.plain, mbx := f.mbx, tag := f.tag } } : State).setWork f .eventWait)) ∧
        (s.fabric.routeWait = none → s.fabric.route ≠ none → field f.plain 0xC 2 ≠ s.nodeId → (s.comp.compositions ≠ [] ∨ s.comp.partition ≠ 0 ∨ s.comp.sources ≠ []) →
          exec (.routeLoad m tag) s = .next (s.answerDetail f (wrongStateAt 0x2C))))) ∧
    (s.fabric.routeWait = none → exec .routeActivate s = .next s) ∧
    (∀ w, s.fabric.routeWait = some w →
      (s.fabTime < field w.image 0x18 8 → exec .routeActivate s = .next s) ∧
      (field w.image 0x18 8 ≤ s.fabTime →
        let u := (List.range 32).foldl (fun (s : State) p => s.rejudge p) ({ s with fabric.route := some w.image, fabric.routeWait := none } : State);
        (∀ g, u.flight w.mbx w.tag = some g → exec .routeActivate s = .next (u.answer g .done (leBytes 4 (routeGen w.image) ++ zeros 4))) ∧
        (u.flight w.mbx w.tag = none → exec .routeActivate s = .next u))) ∧
    (s.turn 0x6011 m tag f → f.opens 0x40 576 → field f.plain 0 4 = 0x474D4954 → field f.plain 4 2 = 1 → 1 ≤ field f.plain 6 1 → field f.plain 6 1 ≤ 64 →
      f.plain.length = 0x40 + 8 * field f.plain 6 1 → fields (gateFields f.plain) = .ok () →
      let old := s.fabric.ports.zipIdx.filterMap fun (x, i) => if bit (field f.plain 8 4) i then x.gateWait else none
      let w : GateWait := { list := readGates f.plain, at_ := gateBoundary (readGates f.plain) (max (field f.plain 0x10 8) s.fabTime), mbx := f.mbx, tag := f.tag }
      let u := ((List.range 32).foldl (fun s p => if bit (field f.plain 8 4) p then s.updVievo p fun x => { x with gateWait := some w } else s) s).setWork f .eventWait
      exec (.gateListLoad m tag) s = .next (old.eraseDups.foldl (fun s e => s.gateSettled e.mbx e.tag (s.fabric.ports.any fun x => x.gates == e.list)) u)) ∧
    (∀ (p : Fin 32), (s.vievo p).gateWait = none → exec (.gateListActivate p) s = .next s) ∧
    (∀ (p : Fin 32) w, (s.vievo p).gateWait = some w →
      (s.fabTime < w.at_ → exec (.gateListActivate p) s = .next s) ∧
      (w.at_ ≤ s.fabTime → exec (.gateListActivate p) s =
        .next ((s.updVievo p fun x => { x with gates := w.list, gateWait := none }).gateSettled w.mbx w.tag))) ∧
    (∀ (g : GateList) t, t ≤ gateBoundary g t ∧ gateBoundary g t < t + max (gateCycle g) 1 ∧ ∃ k : Nat, (g.base + k * max (gateCycle g) 1 = gateBoundary g t ∨ g.base = gateBoundary g t + k * max (gateCycle g) 1)) ∧
    (∀ (r : TimeReading), s.takeMessage 0x02 [] = none → exec (.time r) s = .next s) ∧
    (∀ x u (r : TimeReading), s.takeMessage 0x02 [] = some (x, u) →
      (r.parent = false → exec (.time r) s = .next { u with fabric.grandmaster := r.self && bit (field u.routeImage 6 2) 0 }) ∧
      (r.parent = true → ∃ t, exec (.time r) s = .next t ∧ t.fabric.offsetNs = r.offset ∧ t.fabric.stepsRemoved = r.steps.toNat ∧ t.fabric.gmId = r.gm.toNat ∧
        t.fabric.grandmaster = (r.self && bit (field u.routeImage 6 2) 0) ∧ t.fabTime = u.fabTime ∧ t.fabric.ports = u.fabric.ports ∧
        (¬(-100 ≤ r.offset ∧ r.offset ≤ 100) → t.fabric.closeSince = none) ∧
        ((-100 ≤ r.offset ∧ r.offset ≤ 100) → t.fabric.closeSince = some (u.fabric.closeSince.getD u.clock)) ∧
        (u.fabric.time = .locked → t.fabric.time = .locked) ∧
        (u.fabric.time ≠ .locked → (∀ c, u.fabric.lockedOnce = true → t.fabric.closeSince = some c → c + 1000000000 ≤ u.clock → t.fabric.time = .locked) ∧
          ((u.fabric.lockedOnce = false ∨ ∀ c, t.fabric.closeSince = some c → u.clock < c + 1000000000) → t.fabric.time = .acquiring)))) ∧
    (∀ t, s.fabric.closeSince = some t → t + 1000000000 ≤ s.clock → s.fabric.lockedOnce = false →
      ∃ u, exec .timeFirstLock s = .next u ∧ u.fabric.time = .locked ∧ u.fabric.lockedOnce = true ∧ u.fabTime = ((s.fabTime : Int) - s.fabric.offsetNs).toNat ∧
        exec .timeFirstLock u = .next u) ∧
    ((s.fabric.lockedOnce = true ∨ ∀ t, s.fabric.closeSince = some t → s.clock < t + 1000000000) → exec .timeFirstLock s = .next s) ∧
    (∃ u, exec .timeHoldover s = .next u ∧ u.fabTime = s.fabTime ∧ u.fabric.closeSince = none ∧
      ((s.fabric.time = .locked ∨ s.fabric.time = .holdover) → u.fabric.time = .holdover) ∧ ((s.fabric.time = .acquiring ∨ s.fabric.time = .free) → u.fabric.time = .free))

/-- PARTITION_SET, FENCE_SET, COMPOSITION_JOIN, COMPOSITION_JOIN_TIMEOUT, COMPOSITION_LEAVE and REPLICA_SET. -/
def Obligations.Memberships : Prop :=
  ∀ (m : Mbx) (tag : Word) (f : Flight) (s : State),
    (∀ (a : PeerAnswer) part n p0 p1, s.turn 0x6020 m tag f → f.opens 8 8 → part = field f.plain 0 2 → n = field f.plain 2 1 → p0 = field f.plain 4 2 → p1 = field f.plain 6 2 →
      part ≤ 4095 → n ≤ 2 → (part = 0 → n = 0) → zeroField f.plain 3 1 = true → (n = 0 → p0 = 0) → (n ≠ 0 → p0 ≠ s.nodeId ∧ a ≠ .outside false) →
      (n < 2 → p1 = 0) → (n = 2 → p1 ≠ s.nodeId ∧ p1 ≠ p0 ∧ a ≠ .outside true) →
      (part ≠ s.comp.partition → s.comp.compositions ≠ [] → exec (.partitionSet m tag a) s = .next (s.answerDetail f (wrongStateAt 0x20))) ∧
      ((part = s.comp.partition ∨ s.comp.compositions = []) →
        (n ≠ 0 → a = .full → exec (.partitionSet m tag a) s = .next (s.answerDetail f (noResources 2))) ∧
        ((n = 0 ∨ a ≠ .full) →
          let u : State := { s with comp.partition := part, comp.newPeers := some ([p0, p1].take n) }
          let fresh := ([p0, p1].take n).filter fun p => !s.comp.peers.contains p
          exec (.partitionSet m tag a) s = .next ((u.unreleased.foldl (fun (u : State) o => u.shipRecord fresh o.1 o.2) u).settlePeers.answer f .done [])))) ∧
    (∀ ps, s.comp.newPeers = some ps →
      ((∀ o ∈ s.unreleased, ∀ p ∈ ps, p ∈ o.2.confirmed) → s.settlePeers = { s with comp.peers := ps, comp.newPeers := none }) ∧
      (∀ o ∈ s.unreleased, ∀ p ∈ ps, p ∉ o.2.confirmed → s.settlePeers = s)) ∧
    (∀ op n, s.turn 0x6021 m tag f → f.opens 12 12 → op = field f.plain 0 1 → n = field f.plain 4 2 → field f.plain 1 1 < 2 → zeroField f.plain 2 2 = true → zeroField f.plain 6 6 = true →
      ((op = 0 ∨ op = 2 ∨ 5 ≤ op) → exec (.fenceSet m tag) s = .next (s.answerDetail f (bad 0x20))) ∧
      (op = 4 → exec (.fenceSet m tag) s =
        .next (({ s with comp.records := s.comp.records.filter (·.source != n) } : State).answer f .done (leBytes 4 s.comp.fences.length ++ zeros 4))) ∧
      (op = 3 → let u : State := { s with
          comp.fences := s.comp.fences.filter (· != n), comp.electrical := s.comp.electrical.filter (· != n), comp.told := s.comp.told.filter (· != n)
          fabric.ports := s.fabric.ports.map (unidle n) }
        let v := (u.tellFence n 2).logKind 7 n
        exec (.fenceSet m tag) s = .next (v.answer f .done (leBytes 4 v.comp.fences.length ++ zeros 4))) ∧
      (op = 1 → let elec := bit (field f.plain 1 1) 0
        let v := (s.tellFence n (flag elec)).logKind 7 n
        let u : State := { v with
          comp.fences := if v.comp.fences.contains n then v.comp.fences else n :: v.comp.fences
          comp.electrical := if elec && !v.comp.electrical.contains n then n :: v.comp.electrical else v.comp.electrical }
        let w := if n == u.nodeId then u else u.treatLost n
        let z := if elec then w.idlePorts n else w
        n ∈ u.comp.fences ∧ exec (.fenceSet m tag) s = .next (z.answer f .done (leBytes 4 z.comp.fences.length ++ zeros 4)))) ∧
    (∀ (out : Option Half), s.turn 0x6030 m tag f → s.selfFenced = true → exec (.compositionJoin m tag out) s = .next (s.answerDetail f fencedDetail)) ∧
    (∀ (out : Option Half) id n, s.turn 0x6030 m tag f → s.selfFenced = false → f.opens 24 16777216 → id = field f.plain 0 4 → n = field f.plain 8 4 → id ≠ 0 → 1 ≤ n → n ≤ 65536 →
      zeroField f.plain 12 4 = true → f.plain.length = 16 + (2 * n + 7) / 8 * 8 → s.fabric.route ≠ none → s.comp.partition ≠ 0 →
      let ns := (records 2 n (f.plain.drop 16)).map leNat;
      (∀ o, joinFault s.nodeId ns (out.map (·.toNat)) = some o → exec (.compositionJoin m tag out) s = .next (s.answerDetail f (bad o))) ∧
      (joinFault s.nodeId ns (out.map (·.toNat)) = none → zeroField f.plain (16 + 2 * n) (f.plain.length - 16 - 2 * n) = true →
        (∀ k, s.comp.compositions.find id = some k → field f.plain 4 4 ≤ k.version → exec (.compositionJoin m tag out) s = .next (s.answerDetail f (wrongStateAt 0x24))) ∧
        (s.comp.compositions.find id = none → 256 ≤ s.comp.compositions.length → exec (.compositionJoin m tag out) s = .next (s.answerDetail f (noResources 256))) ∧
        ((∀ k, s.comp.compositions.find id = some k → k.version < field f.plain 4 4) → (s.comp.compositions.find id ≠ none ∨ s.comp.compositions.length < 256) →
          let old := s.comp.compositions.find id
          let early := s.comp.earlyJoins.filter fun j => j.1 == id && j.2.1 == field f.plain 4 4 && j.2.2.2 == Config.sha384 f.plain
          let k : Composition := { id := id, version := field f.plain 4 4, members := ns, digest := Config.sha384 f.plain, joined := s.nodeId :: early.map (·.2.2.1)
                                   coordinator := ns.headD 0, coordHeard := s.clock, waiting := (old.elim [] (·.waiting)) ++ [(f.mbx, f.tag, s.clock)] }
          let v := if old.isSome then s.endMembership id else s
          let u := ({ v with comp.compositions := v.comp.compositions.put id k
                             comp.earlyJoins := v.comp.earlyJoins.filter fun j => !(j.1 == id && decide (j.2.1 ≤ field f.plain 4 4)) } : State).setWork f .eventWait;
          (k.coordinator = u.nodeId → exec (.compositionJoin m tag out) s = .next (u.tryActivate id)) ∧
          (k.coordinator ≠ u.nodeId → exec (.compositionJoin m tag out) s = .next (u.compPost k.coordinator 1 k 0 0 (Config.sha384 f.plain)))))) ∧
    ((∀ k ∈ s.comp.compositions.vals, ∀ w ∈ k.waiting, s.clock < w.2.2 + 60000000000) → exec (.compositionJoinTimeout m tag) s = .next s) ∧
    (∀ k t, s.comp.compositions.vals.find? (fun k => k.waiting.any fun w => w.1 == m.key && w.2.1 == tag && decide (w.2.2 + 60000000000 ≤ s.clock)) = some k →
      s.flight m.key tag = some f → t = (s.updComp k.id fun k => { k with
        waiting := k.waiting.filter fun w => !(w.1 == m.key && w.2.1 == tag && decide (w.2.2 + 60000000000 ≤ s.clock)) }) →
      exec (.compositionJoinTimeout m tag) s = .next (t.answer f .deadlineExceeded [])) ∧
    (s.flight m.key tag = none → exec (.compositionJoinTimeout m tag) s = .next s) ∧
    (s.turn 0x6031 m tag f → f.opens 8 8 → zeroField f.plain 4 4 = true →
      (s.comp.compositions.find (field f.plain 0 4) = none → exec (.compositionLeave m tag) s = .next (s.answerDetail f (bad 0x20))) ∧
      (∀ k, s.comp.compositions.find (field f.plain 0 4) = some k →
        ((k.active = false ∨ k.leaving ≠ none) → exec (.compositionLeave m tag) s = .next (s.answerDetail f (wrongStateAt 0x20))) ∧
        (k.active = true → k.leaving = none → exec (.compositionLeave m tag) s =
          .next (((s.beginLeave k.id (some (f.mbx, f.tag))).setWork f .eventWait).settleLeave k.id)))) ∧
    (s.flight m.key tag = some f → f.opcode.toNat = 0x6031 → f.work = .eventWait → exec (.compositionLeave m tag) s = .next (s.settleLeave (field f.plain 0 4))) ∧
    (∀ id k, s.comp.compositions.find id = some k →
      let busy := (s.comp.served.any fun x => x.run.composition == id && x.root.isNone) ||
        s.tables.tables.vals.any fun t => t.desc.composition == id && !t.broken && t.closing;
      ((k.leaving = none ∨ k.leaveSent = true ∨ busy = true) → s.settleLeave id = s) ∧
      (k.leaving ≠ none → k.leaveSent = false → busy = false →
        (k.coordinator ≠ s.nodeId → s.settleLeave id = (s.updComp id fun k => { k with leaveSent := true }).compPost k.coordinator 6 k 0 0 []) ∧
        (k.coordinator = s.nodeId →
          let lost := sortBy (s.nodeId :: k.lost) fun a b => decide (a ≤ b)
          let u : Composition := { k with version := k.version + 1, lost := lost }
          s.settleLeave id = (s.compAll 3 u 0 lost.length (padTo 8 (lost.flatMap (leBytes 2)))).left u))) ∧
    (∀ (a : ReplicaAnswer), s.turn 0x6040 m tag f → (s.selfFenced = true ∨ s.unfenced (field f.plain 4 4) = .error fencedDetail) →
      exec (.replicaSet m tag a) s = .next (s.answerDetail f fencedDetail)) ∧
    (∀ (a : ReplicaAnswer) n c k, s.turn 0x6040 m tag f → s.selfFenced = false → s.unfenced (field f.plain 4 4) = .ok () → f.opens 16 16 → n = field f.plain 8 1 → n ≤ 2 →
      zeroField f.plain 9 3 = true → (n ≠ 0 ∨ zeroField f.plain 12 2 = true) → (n = 2 ∨ zeroField f.plain 14 2 = true) → s.usableColl 0x20 (field f.plain 0 4) f = .ok c →
      s.comp.compositions.find (field f.plain 4 4) = some k →
      let ns := (List.range n).map fun i => field f.plain (12 + 2 * i) 2
      let old := c.replicas.filter fun r => ns.contains r.node
      let fresh := ns.filter fun x => !old.any (·.node == x);
      (k.active = false → exec (.replicaSet m tag a) s = .next (s.answerDetail f (wrongStateAt 0x24))) ∧
      (k.active = true → (∀ i, i < n → ns.getD i 0 ∈ k.live ∧ ns.getD i 0 ≠ s.nodeId ∧ ns.getD i 0 ∉ ns.take i) →
        (fresh ≠ [] → ∀ b, a = .lacksKey b → exec (.replicaSet m tag a) s = .next (s.answerDetail f (keyUnavailable (0x2C + 2 * flag b)))) ∧
        (fresh ≠ [] → ∀ l, a = .noRoom l → exec (.replicaSet m tag a) s = .next (s.answerDetail f (noResources l.toNat))) ∧
        ((fresh = [] ∨ a = .accepted) →
          let of (x : Nat) : Replica := (old.find? (·.node == x)).getD { node := x, state := 0, c := 0 }
          let d : Collection := { c with composition := k.id, replicas := ns.map of }
          let u := (d.replicas.filter fun r => fresh.contains r.node).foldl (fun s r => (s.copyTo d r.node).1.pumpReplica d { r with sent := d.sealedCsn }) (s.setColl d)
          exec (.replicaSet m tag a) s = .next (u.answer f .done (d.replicas.flatMap replicaEntry)))))

/-- HEARTBEAT_TICK, MEMBER_LOST, PROBE_TIMEOUT, COORDINATOR_TAKEOVER, SELF_FENCE, COMPOSITION, COLL_DOWN, COLL_UP and SUSPECT_MEMBER. -/
def Obligations.MemberEvents : Prop :=
  ∀ (id : Word) (node : Half) (r : Option Half) (s : State) (k : Composition),
    (s.comp.compositions.find id.toNat = none → exec (.heartbeatTick id) s = .next s ∧ exec (.memberLost id node) s = .next s ∧ exec (.probeTimeout id node) s = .next s ∧
      exec (.coordinatorTakeover id) s = .next s ∧ exec (.selfFence id) s = .next s ∧ exec (.suspectMember id node r) s = .next s) ∧
    (s.comp.compositions.find id.toNat = some k →
      ((k.active = false ∨ s.serving = false) → exec (.heartbeatTick id) s = .next s) ∧
      (k.active = true → s.serving = true → k.coordinator ≠ s.nodeId →
        exec (.heartbeatTick id) s = .next (s.post (k.parent k.coordinator s.nodeId) 0x50 0 0 true
          (collectiveHead k.coordinator 2 3 ((k.order k.coordinator).idxOf s.nodeId) k.id k.version (k.report s.nodeId s.clock).1 ++
            leBytes 4 (k.report s.nodeId s.clock).2.length ++ zeros 4 ++ padTo 8 ((k.report s.nodeId s.clock).2.flatMap (leBytes 2))))) ∧
      (k.active = true → s.serving = true → k.coordinator = s.nodeId →
        let kids := k.kids s.nodeId s.nodeId
        let v := if k.majority s.nodeId s.clock then kids.foldl (fun (u : State) n => u.post n 0x50 0 0 true (collectiveHead s.nodeId 1 3 0 k.id k.version 0)) s else s
        let quiet := (kids.filter fun n => !k.recent s.clock 10 n).flatMap fun n => (k.under s.nodeId n).filter (· != n)
        exec (.heartbeatTick id) s = .next ((quiet.filter fun n => !k.recent s.clock 10 n && (k.probes.find n).isNone).foldl (fun (u : State) n =>
          (u.updComp k.id fun k => { k with probes := k.probes.put n u.clock }).compPost n 4 k 0 0 []) v)) ∧
      (k.active = true → k.coordinator = s.nodeId → node.toNat ≠ s.nodeId → node.toNat ∈ k.live → node.toNat ∈ (k.report s.nodeId s.clock).2 →
        exec (.memberLost id node) s = .next (s.declareLost k.id node.toNat)) ∧
      ((k.active = false ∨ k.coordinator ≠ s.nodeId ∨ node.toNat ∉ (k.report s.nodeId s.clock).2 ∨ node.toNat = s.nodeId ∨ node.toNat ∉ k.live) →
        exec (.memberLost id node) s = .next s) ∧
      ((k.probes.find node.toNat = none ∨ k.coordinator ≠ s.nodeId) → exec (.probeTimeout id node) s = .next s) ∧
      (∀ t, k.probes.find node.toNat = some t → k.coordinator = s.nodeId →
        (t + 5000000 ≤ s.clock → exec (.probeTimeout id node) s = .next (s.declareLost k.id node.toNat)) ∧
        (s.clock < t + 5000000 → exec (.probeTimeout id node) s = .next s)) ∧
      (k.active = true → k.coordSilent s.nodeId s.clock = true → s.nodeId ∉ k.lost →
        let others := k.live.filter fun n => n != s.nodeId && n != k.coordinator;
        (k.majority s.nodeId s.clock = true → (∃ n ∈ others, n < s.nodeId ∧ k.recent s.clock 20 n = true) → exec (.coordinatorTakeover id) s = .next s) ∧
        (k.majority s.nodeId s.clock = true → (∀ n ∈ others, n < s.nodeId → k.recent s.clock 20 n = false) → exec (.coordinatorTakeover id) s =
          .next (((s.updComp k.id fun x => { x with coordinator := s.nodeId, coordHeard := s.clock, probes := [] }).compAll 7 k (k.hears s.nodeId s.clock) 0 []).declareLost
            k.id k.coordinator)) ∧
        (k.majority s.nodeId s.clock = false → exec (.coordinatorTakeover id) s = .next ((others.filter fun n => !k.recent s.clock 20 n).foldl (fun (u : State) n =>
          (u.updComp k.id fun x => { x with probes := x.probes.put n u.clock }).compPost n 4 k 0 0 []) s))) ∧
      ((k.active = false ∨ k.coordSilent s.nodeId s.clock = false ∨ s.nodeId ∈ k.lost) → exec (.coordinatorTakeover id) s = .next s) ∧
      (let alone := if k.coordinator == s.nodeId then !k.majority s.nodeId s.clock else k.coordSilent s.nodeId s.clock
        let tell (flags : Nat) (u : State) : State := if k.coordinator == u.nodeId then u else u.compPost k.coordinator 8 k 0 0 (leBytes 2 u.nodeId ++ leBytes 1 flags ++ zeros 5);
        ((k.active = false ∨ alone = k.fenced) → exec (.selfFence id) s = .next s) ∧
        (k.active = true → alone = true → k.fenced = false → exec (.selfFence id) s =
          .next (tell 0 ((s.updComp k.id fun k => { k with fenced := true }).logKind 7 s.nodeId))) ∧
        (k.active = true → alone = false → k.fenced = true → exec (.selfFence id) s =
          .next (tell 2 ((s.updComp k.id fun k => { k with fenced := false }).logKind 7 s.nodeId)))) ∧
      (node.toNat ∉ k.members → exec (.suspectMember id node r) s = .next s) ∧
      (node.toNat ∈ k.members → let limit := max ((4095 + k.members.length) / k.members.length) 32;
        (node.toNat ∉ k.suspect → k.lastCount node.toNat < limit → exec (.suspectMember id node r) s = .next s) ∧
        (node.toNat ∉ k.suspect → limit ≤ k.lastCount node.toNat → exec (.suspectMember id node r) s =
          .next (((s.updComp k.id fun k => { k with
            suspect := node.toNat :: k.suspect, servers := r.elim k.servers fun r => k.servers.put (k.shardOf node.toNat) r.toNat }).logKind 8 node.toNat).emit (.event 8 node.toNat))) ∧
        (node.toNat ∈ k.suspect → limit ≤ 2 * k.lastCount node.toNat → exec (.suspectMember id node r) s = .next s) ∧
        (node.toNat ∈ k.suspect → 2 * k.lastCount node.toNat < limit → exec (.suspectMember id node r) s =
          .next (((s.updComp k.id fun x => { x with
            suspect := x.suspect.filter (· != node.toNat), servers := if x.lost.contains node.toNat then x.servers else x.servers.del (x.shardOf node.toNat) }).logKind 8
              node.toNat).emit (.event 8 node.toNat))))) ∧
    (∀ n, s.comp.compositions.find id.toNat = some k → n ∉ k.lost →
      let u : Composition := { k.without n s.clock with version := k.version + 1 }
      s.declareLost id.toNat n = ((({ s with comp.compositions := s.comp.compositions.put id.toNat u } : State).logKind 6 n).compAll 3 u 0 u.lost.length
        (padTo 8 (u.lost.flatMap (leBytes 2)))).memberGone id.toNat n ∧ n ∈ u.lost) ∧
    (∀ n now, (k.without n now).coordinator ∉ (k.without n now).lost ∨ (k.without n now).live = []) ∧
    ((s.takeMessage 0x60 [] = none → exec .composition s = .next s) ∧ (s.takeCollective [1, 3] = none → exec .collDown s = .next s) ∧
      (s.takeCollective [2] = none → exec .collUp s = .next s)) ∧
    (∀ x u, s.takeMessage 0x60 [] = some (x, u) →
      let kind := field x.body 0 1
      let n := field x.body 4 4
      let ver := field x.body 8 4
      let body := x.body.drop 24
      let fine := compFaultless x.body && field x.body 0xC 2 == x.src
      let keep (v : State) : State := { v with comp.earlyJoins := (v.comp.earlyJoins.filter fun j => !(j.1 == n && j.2.2.1 == x.src)) ++ [(n, ver, x.src, body)] };
      (u.serving = false → exec .composition s = .next u) ∧
      (u.serving = true → fine = false → exec .composition s = .next (u.partnerViolation x.port x.src)) ∧
      (u.serving = true → fine = true →
        (kind = 8 → exec .composition s = .next (u.fenceHere body)) ∧
        (kind = 1 → u.comp.compositions.find n = none → exec .composition s = .next (keep u)) ∧
        (kind ≠ 8 → kind ≠ 1 → (∀ y, u.comp.compositions.find n = some y → x.src ∉ y.members) → exec .composition s = .next (u.partnerViolation x.port x.src)) ∧
        (u.comp.compositions.find n = some k → let v := u.hearMember n x.src;
          (kind = 1 → k.version < ver → exec .composition s = .next (keep v)) ∧
          (kind = 1 → (ver < k.version ∨ (ver = k.version ∧ (body ≠ k.digest ∨ x.src ∉ k.members))) → exec .composition s = .next v) ∧
          (kind = 1 → ver = k.version → body = k.digest → x.src ∈ k.members →
            (k.active = true → exec .composition s = .next (v.compPost x.src 2 k 0 0 k.digest)) ∧
            (k.active = false → exec .composition s = .next ((v.updComp n fun k => { k with joined := x.src :: k.joined.filter (· != x.src) }).tryActivate n))) ∧
          (x.src ∈ k.members →
            (kind = 2 → k.active = false → x.src = k.coordinator → ver = k.version → body = k.digest → exec .composition s = .next (v.activate k)) ∧
            (kind = 2 → (k.active = true ∨ x.src ≠ k.coordinator ∨ ver ≠ k.version ∨ body ≠ k.digest) → exec .composition s = .next v) ∧
            (kind = 3 → exec .composition s = .next (v.lostHere k ver ((records 2 (field x.body 0x10 4) body).map leNat))) ∧
            (kind = 4 → exec .composition s = .next (v.compPost x.src 5 k 0 0 [])) ∧ (kind = 5 → exec .composition s = .next v) ∧
            (kind = 6 → exec .composition s = .next (if k.coordinator = v.nodeId then v.declareLeft k x.src else v)) ∧
            (kind = 7 → exec .composition s = .next
              (if k.members.length < 2 * field x.body 0xE 2 ∧ (x.src < k.coordinator ∨ k.coordSilent v.nodeId v.clock = true ∨ k.coordinator ∈ k.lost) then
                v.updComp n fun k => { k with coordinator := x.src, coordHeard := v.clock, silent := [], childHeard := [] }
              else v)))))) ∧
    (∀ x u, s.takeCollective [1, 3] = some (x, u) →
      let kind := field x.body 8 1
      let op := field x.body 9 1
      let root := field x.body 0 2
      let fine : Prop := 24 ≤ x.body.length ∧ x.src ∈ k.members ∧ field x.body 0x14 4 = 0 ∧ ((kind = 3 ∧ op = 2 ∧ x.body.length = 24) ∨
        (kind ≠ 3 ∧ op = 1 ∧ 32 ≤ x.body.length ∧ field x.body 24 1 = 0x10 ∧ zeroField x.body 25 3 = true ∧ x.body.length = 32 + field x.body 0x1C 4) ∨
        (kind ≠ 3 ∧ op = 3 ∧ x.body.length = 24))
      let forward (w : State) : State := (k.kids root w.nodeId).foldl (fun (z : State) c => z.post c 0x50 x.cls x.tenant (op == 3)
        (collectiveHead (field x.body 0 8) kind op ((k.order root).idxOf z.nodeId) k.id k.version 0)) w;
      (u.serving = false → exec .collDown s = .next u) ∧
      (u.serving = true → u.comp.compositions.find (field x.body 0xC 4) = none → exec .collDown s = .next (u.partnerViolation x.port x.src)) ∧
      (u.serving = true → u.comp.compositions.find (field x.body 0xC 4) = some k →
        (¬ fine → exec .collDown s = .next (u.partnerViolation x.port x.src)) ∧
        (fine → op = 1 → exec .collDown s = .next (u.admitSubquery x (x.body.drop 32))) ∧
        (fine → op = 2 → exec .collDown s = .next (forward (u.updComp k.id fun k => { k with barriers := k.barriers.del (field x.body 0 8) }))) ∧
        (fine → op = 3 → k.active = true → (root ≤ k.coordinator ∨ k.coordSilent u.nodeId u.clock = true) → root ∉ k.lost →
          exec .collDown s = .next (forward (u.updComp k.id fun k => { k with coordinator := root, coordHeard := u.clock, heard := k.heard.put x.src u.clock }))) ∧
        (fine → op = 3 → (k.active = false ∨ (k.coordinator < root ∧ k.coordSilent u.nodeId u.clock = false) ∨ root ∈ k.lost) → exec .collDown s = .next u))) ∧
    (∀ x u, s.takeCollective [2] = some (x, u) →
      let op := field x.body 9 1
      let fine : Prop := 32 ≤ x.body.length ∧ x.src ∈ k.members ∧ ((op = 3 ∧ zeroField x.body 28 4 = true ∧ x.body.length = 32 + (2 * field x.body 24 4 + 7) / 8 * 8) ∨
        (op = 2 ∧ zeroField x.body 26 6 = true ∧ x.body.length = 32));
      (u.serving = false → exec .collUp s = .next u) ∧
      (u.serving = true → u.comp.compositions.find (field x.body 0xC 4) = none → exec .collUp s = .next (u.partnerViolation x.port x.src)) ∧
      (u.serving = true → u.comp.compositions.find (field x.body 0xC 4) = some k →
        (¬ fine → exec .collUp s = .next (u.partnerViolation x.port x.src)) ∧
        (fine → x.src ∈ k.lost → exec .collUp s = .next u) ∧
        (fine → x.src ∉ k.lost → op = 3 → exec .collUp s = .next (u.updComp k.id fun k => { k with
          heard := k.heard.put x.src u.clock, childHeard := k.childHeard.put x.src (field x.body 0x14 4)
          silent := k.silent.put x.src ((records 2 (field x.body 24 4) (x.body.drop 32)).map leNat), probes := k.probes.del x.src })) ∧
        (fine → x.src ∉ k.lost → op = 2 →
          let n := field x.body 0 8
          let old := k.barriers.getD n ([], u.nodeId)
          let y : Composition := { k with barriers := k.barriers.put n (x.src :: old.1.filter (· != x.src), field x.body 24 2) }
          exec .collUp s = .next (({ u with comp.compositions := u.comp.compositions.put y.id y } : State).settleBarrier y n x.cls x.tenant))))

/-- LOG_RECORD, LOG_CONFIRM, LOG_RECORD_RESEND, LOG_RELEASE, LOG_FETCH, FETCH_DATA, REPLICA_OP, REPLICA_PROMOTE and REPLICA_FALLS_BEHIND. -/
def Obligations.PeerMessages : Prop :=
  ∀ (s : State),
    let turnedAway (i : Instr) (m : Option (Inbound × State)) (ok : Inbound → State → Bool) : Prop :=
      (m = none → exec i s = .next s) ∧
      (∀ x u, m = some (x, u) → u.serving = false → exec i s = .next u) ∧
      (∀ x u, m = some (x, u) → u.serving = true → ok x u = false → exec i s = .next (u.partnerViolation x.port x.src))
    turnedAway .logRecord (s.takeMessage 0x20 [1]) (fun x _ => logFaultless x.body && field x.body 0x10 2 == x.src) ∧
    turnedAway .logConfirm (s.takeMessage 0x20 [2]) (fun x u => logFaultless x.body && field x.body 0x10 2 == u.nodeId) ∧
    turnedAway .logRelease (s.takeMessage 0x20 [3]) (fun x _ => logFaultless x.body && field x.body 0x10 2 == x.src) ∧
    turnedAway .logFetch (s.takeMessage 0x20 [4]) (fun x _ => logFaultless x.body) ∧
    turnedAway .fetchData (s.takeMessage 0x20 [5, 6]) (fun x _ => logFaultless x.body) ∧
    (∀ o, turnedAway (.replicaOp o) (s.takeMessage 0x21 []) (fun x _ => replicaFaultless x.body)) ∧
    (∀ x u, s.takeMessage 0x20 [1] = some (x, u) → u.serving = true → logFaultless x.body = true → field x.body 0x10 2 = x.src →
      let known : State := { u with comp.sources := if u.comp.sources.contains x.src then u.comp.sources else u.comp.sources ++ [x.src] }
      let confirm (v : State) : State := v.post x.src 0x20 4 x.tenant false (logMessage 2 (field x.body 4 4) (field x.body 8 8) x.src [])
      (x.src ∉ u.comp.sources → 2 ≤ u.comp.sources.length → exec .logRecord s = .next u) ∧
      (x.src ∈ u.comp.sources ∨ u.comp.sources.length < 2 →
        (u.heldRecord x.src (field x.body 4 4) (field x.body 8 8) = true → exec .logRecord s = .next (confirm known)) ∧
        (u.heldRecord x.src (field x.body 4 4) (field x.body 8 8) = false →
          (2 ^ 34 < u.heldBytes x.src + x.body.length ∨ u.logRoom (x.body.length - 24) = false → exec .logRecord s = .next u) ∧
          (u.heldBytes x.src + x.body.length ≤ 2 ^ 34 → u.logRoom (x.body.length - 24) = true →
            exec .logRecord s = .next (confirm { known with
              comp.records := u.comp.records ++ [{ source := x.src, collection := field x.body 4 4, csn := field x.body 8 8, record := x.body.drop 24 }] }))))) ∧
    (∀ x u, s.takeMessage 0x20 [2] = some (x, u) → u.serving = true → logFaultless x.body = true → field x.body 0x10 2 = u.nodeId →
      let reached : State := { u with comp.unreached := u.comp.unreached.filter (· != x.src) }
      (x.src ∈ reached.logPeers → exec .logConfirm s = .next ((reached.updColl (field x.body 4 4) fun c => c.updOp (field x.body 8 8) fun o =>
        if o.confirmed.contains x.src then o else { o with confirmed := x.src :: o.confirmed }).settlePeers)) ∧
      (x.src ∉ reached.logPeers → exec .logConfirm s = .next reached)) ∧
    (∀ (id : Word) csn (p : Half),
      ((s.coll id.toNat).bind (fun c => c.op csn) = none → exec (.logRecordResend id csn p) s = .next s) ∧
      (∀ c o, s.coll id.toNat = some c → c.op csn = some o →
        (p.toNat ∈ s.logPeers → p.toNat ∉ o.confirmed → s.serving = true → o.sentAt + 100000 ≤ s.clock → exec (.logRecordResend id csn p) s =
          .next ((s.updColl id.toNat fun c => c.updOp csn fun o => { o with sentAt := s.clock }).shipRecord [p.toNat] id.toNat o)) ∧
        (p.toNat ∉ s.logPeers ∨ p.toNat ∈ o.confirmed ∨ s.serving = false ∨ s.clock < o.sentAt + 100000 →
          exec (.logRecordResend id csn p) s = .next s))) ∧
    (∀ x u, s.takeMessage 0x20 [3] = some (x, u) → u.serving = true → logFaultless x.body = true → field x.body 0x10 2 = x.src →
      ∃ l, exec .logRelease s = .next { u with comp.records := l } ∧
        ∀ r, r ∈ l ↔ r ∈ u.comp.records ∧ ¬(r.source = x.src ∧ r.collection = field x.body 4 4 ∧ r.csn ≤ field x.body 8 8)) ∧
    (∀ x u, s.takeMessage 0x20 [4] = some (x, u) → u.serving = true → logFaultless x.body = true →
      let hits := sortBy (u.comp.records.filter fun r => r.source == field x.body 0x10 2 && r.collection == field x.body 4 4 && decide (field x.body 8 8 < r.csn))
        fun r q => decide (r.csn ≤ q.csn)
      exec .logFetch s = .next ((hits.foldl (fun (v : State) r => v.post x.src 0x20 4 (ownerOf (field x.body 4 4)) false
        (logMessage 5 (field x.body 4 4) r.csn (field x.body 0x10 2) r.record)) u).post x.src 0x20 4 (ownerOf (field x.body 4 4)) false
          (logMessage 6 (field x.body 4 4) 0 (field x.body 0x10 2) []))) ∧
    (∀ x u, s.takeMessage 0x20 [5, 6] = some (x, u) → u.serving = true → logFaultless x.body = true →
      let asked := u.comp.fetching.find? fun e => e.1 % 2 ^ 32 == field x.body 4 4 && e.2.peers.contains x.src && e.2.source == field x.body 0x10 2;
      (asked = none → exec .fetchData s = .next u) ∧
      (∀ key y, asked = some (key, y) →
        (field x.body 0 1 = 5 → exec .fetchData s = .next { u with comp.fetching := u.comp.fetching.put key { y with
          got := y.got ++ [{ source := y.source, collection := field x.body 4 4, csn := field x.body 8 8, record := x.body.drop 24 }], by_ := y.by_ ++ [x.src] } }) ∧
        (field x.body 0 1 ≠ 5 →
          let z : ShardFetch := { y with ended := x.src :: y.ended.filter (· != x.src) }
          ((∃ p ∈ y.peers, p ≠ x.src ∧ p ∉ y.ended) → exec .fetchData s = .next { u with comp.fetching := u.comp.fetching.put key z }) ∧
          ((∀ p ∈ y.peers, p = x.src ∨ p ∈ y.ended) →
            exec .fetchData s = .next (({ u with comp.fetching := u.comp.fetching.del key } : State).applyFetched key z (u.openRecords key z) y.got.length))))) ∧
    (∀ (x : ShardFetch) csn, (∃ p ∈ x.peers, ∀ e ∈ x.got.zip x.by_, e.1.csn = csn → e.2 ≠ p) → x.both csn = none) ∧
    (∀ (key : Nat) (x : ShardFetch) opened n c, s.coll key = some c →
      ((x.both (c.committed + 1) = none ∨ opened.find? (·.1 == c.committed + 1) = none) → s.applyFetched key x opened (n + 1) = s) ∧
      (∀ r e body d, x.both (c.committed + 1) = some r → opened.find? (·.1 == c.committed + 1) = some e → recordOp c.desc e.2 = some body →
        s.placeRows true (fun _ => none) { c.replay s.clock (s.encodeAll c { csn := c.committed + 1, body := body, mbx := 0, tag := 0, encoded := true, acked := true }) with
          committed := c.committed + 1, assigned := c.committed + 1 } = some d →
        s.applyFetched key x opened (n + 1) = ((s.setColl d).countWrites c d).applyFetched key x opened n)) ∧
    (∀ (id : Word) (no : Half) (rs : List (Half × Nat)) ps,
      (s.comp.compositions.find id.toNat = none ∨ rs = [] → exec (.replicaPromote id no rs ps) s = .next s) ∧
      (∀ k best, s.comp.compositions.find id.toNat = some k → bestReplica rs = some best →
        let node := k.members.getD no.toNat 0
        let named : State := s.updComp k.id fun k => { k with servers := k.servers.put no.toNat best };
        (k.active = false ∨ node ∉ k.lost ∨ best ∈ k.lost ∨ k.servers.find no.toNat ≠ none → exec (.replicaPromote id no rs ps) s = .next s) ∧
        (k.active = true → node ∈ k.lost → best ∉ k.lost → k.servers.find no.toNat = none →
          (best ≠ s.nodeId → exec (.replicaPromote id no rs ps) s = .next named) ∧
          (best = s.nodeId →
            exec (.replicaPromote id no rs none) s = .next named ∧
            ∀ p q, exec (.replicaPromote id no rs (some (p, q))) s = .next
              ((named.index.collections.vals.filter fun c => c.isReplica && c.composition == k.id && c.id / 2 ^ 32 == no.toNat + 1).foldl (fun (v : State) c =>
                (({ v with comp.fetching := v.comp.fetching.put c.id { source := node, peers := [p.toNat, q.toNat] } } : State).post
                  p.toNat 0x20 4 (ownerOf c.id) false (logMessage 4 (c.id % 2 ^ 32) c.committed node [])).post
                  q.toNat 0x20 4 (ownerOf c.id) false (logMessage 4 (c.id % 2 ^ 32) c.committed node [])) named))))) ∧
    (∀ (rs : List (Half × Nat)), (bestReplica rs = none ↔ rs = []) ∧
      ∀ best, bestReplica rs = some best → ∃ r ∈ rs, r.1.toNat = best ∧ ∀ q ∈ rs, q.2 < r.2 ∨ q.2 = r.2 ∧ r.1.toNat ≤ q.1.toNat) ∧
    (∀ (a b : Half) m n, bestReplica [(a, m), (b, n)] = some (if decide (n < m) || (n == m && decide (a.toNat ≤ b.toNat)) then a.toNat else b.toNat)) ∧
    (∀ x u o, s.takeMessage 0x21 [] = some (x, u) → u.serving = true → replicaFaultless x.body = true →
      let coll := field x.body 4 4
      let csn := field x.body 8 8
      let body := x.body.drop 32;
      (field x.body 0 1 = 4 → exec (.replicaOp o) s = .next (u.updColl coll fun c => c.noteAck u.clock x.src csn)) ∧
      (field x.body 0 1 ≠ 4 → u.replicaOf x.src coll = none → exec (.replicaOp o) s = .next (u.partnerViolation x.port x.src)) ∧
      (∀ c, u.replicaOf x.src coll = some c →
        (field x.body 0 1 = 1 →
          (csn ≤ c.committed → exec (.replicaOp o) s = .next ((u.setColl c).ackReplica x coll c)) ∧
          (c.committed < csn →
            (c.replicaApply u.clock csn body = none → exec (.replicaOp o) s = .next (u.partnerViolation x.port x.src)) ∧
            (∀ new, c.replicaApply u.clock csn body = some new →
              (u.placeRows true (fun _ => none) { new with committed := csn, assigned := csn } = none → exec (.replicaOp o) s = .next (u.setColl c)) ∧
              (∀ d, u.placeRows true (fun _ => none) { new with committed := csn, assigned := csn } = some d →
                exec (.replicaOp o) s = .next (((u.setColl d).countWrites c d).ackReplica x coll d))))) ∧
        (field x.body 0 1 = 3 →
          (rebalanceFaultless c body = false → exec (.replicaOp o) s = .next (u.partnerViolation x.port x.src)) ∧
          (rebalanceFaultless c body = true → exec (.replicaOp o) s = .next (u.setColl (u.takeRebalance c body)))) ∧
        (field x.body 0 1 = 2 ∨ field x.body 0 1 = 5 →
          exec (.replicaOp none) s = .next ((u.setColl c).logIntegrity (ownerOf coll) 3 x.src) ∧
          ∀ rows recs map,
            (u.takeRows c (field x.body 0x10 8) c.gen rows recs map = none → exec (.replicaOp (some (rows, recs, map))) s = .next (u.setColl c)) ∧
            (∀ new, u.takeRows c (field x.body 0x10 8) c.gen rows recs map = some new →
              (field x.body 0 1 = 2 → exec (.replicaOp (some (rows, recs, map))) s = .next ((u.setColl new).countWrites c new)) ∧
              (field x.body 0 1 = 5 →
                let whole := { new with committed := max new.committed csn, assigned := max new.committed csn }
                exec (.replicaOp (some (rows, recs, map))) s = .next (((u.setColl whole).countWrites c whole).ackReplica x coll whole)))))) ∧
    (∀ (id : Word) (n : Half),
      (s.coll id.toNat = none → exec (.replicaFallsBehind id n) s = .next s) ∧
      (∀ c, s.coll id.toNat = some c →
        let g (r : Replica) : Replica := if r.node = n.toNat ∧ r.state = 1 ∧ r.c < c.committedAt (s.clock - 100000000) then { r with state := 0 } else r
        exec (.replicaFallsBehind id n) s = .next (s.setColl { c with replicas := c.replicas.map g })))

/-- FLASH_READ_COMPLETE, FLASH_PROGRAM_COMPLETE, PROGRAM_FAIL, ERASE_FAIL, QUAD_BLOCK_ERASE, JOURNAL_SECTOR_PROGRAM, CHECKPOINT_START, CHECKPOINT_COMPLETE and MAP_PAGE_EVICT. -/
def Obligations.FlashWork : Prop :=
  ∀ (m : Mbx) (tag : Word) (s : State) (q : Nat),
    (∀ (i : Nat) (step : ReadStep) (mismatch : Bool),
      let counted := s.updQuad q fun b => { b with reads := b.reads + 1 }
      let unit (r : Read) : Option Nat := (s.coll r.collection).bind fun c => s.unitOf c r.seg r.area r.sector
      let looked (r : Read) (v : State) : State := match unit r with | some u => v.touchPage (mapPage u) | none => v;
      (∀ f r, s.flight m.key tag = some f → (readsOf f)[i]? = some r →
        (r.tier ≠ .flash ∨ (r.lost ≠ none ∧ r.lost ≠ some .tierLate) ∨ s.stepHolds q (unit r) step mismatch = false → exec (.flashReadComplete m tag i q step mismatch) s = .next s) ∧
        (r.tier = .flash → s.stepHolds q (unit r) step mismatch = true →
          (r.lost = some .tierLate → exec (.flashReadComplete m tag i q step mismatch) s = .next counted) ∧
          (r.lost = none →
            let came : Read := { r with came := some (q, step, mismatch) }
            let v := ((looked r counted).noteLatency q came).putReads f ((readsOf f).set i came);
            (∀ x, f.work = .search x → exec (.flashReadComplete m tag i q step mismatch) s = .next (v.again f fun g w => w.endRead g i came step false)) ∧
            (∀ l k, f.work = .reads l k → exec (.flashReadComplete m tag i q step mismatch) s =
              .next ((v.readEffects q step mismatch).again f fun g w => w.endRead g i came step true))))) ∧
      (let l := (s.flight m.key tag).elim [] readsOf
       l[i]? = none →
        (s.leftRead m.key tag (i - l.length) = none → exec (.flashReadComplete m tag i q step mismatch) s = .next s) ∧
        (∀ x, s.leftRead m.key tag (i - l.length) = some x →
          (x.read.tier ≠ .flash → exec (.flashReadComplete m tag i q step mismatch) s = .next s) ∧
          (x.read.tier = .flash →
            (step = .damaged → exec (.flashReadComplete m tag i q step mismatch) s = .next ((counted.leftFails x .dataDamaged q).dropLeft x)) ∧
            (step = .failed → exec (.flashReadComplete m tag i q step mismatch) s = .next ((counted.leftFails x .tierFailed q).dropLeft x)) ∧
            (step ≠ .damaged → step ≠ .failed → exec (.flashReadComplete m tag i q step mismatch) s = .next (counted.dropLeft x)))))) ∧
    (∀ (f : Flight) i r log,
      (∀ step ∈ [ReadStep.hard, .hardWeak, .retry, .soft, .reconstruct], s.endRead f i r step log = s.readArrived f i) ∧
      (∀ step ∈ [ReadStep.damaged, .badTag], s.endRead f i r step true = (s.logReadOf f r .dataDamaged).readLost f i .dataDamaged ∧
        s.endRead f i r step false = s.readLost f i .dataDamaged) ∧
      s.endRead f i r .failed log = s.readLost f i .tierFailed) ∧
    (∀ step mismatch,
      let marked := if step = .hard ∨ step = .badTag then s else s.updQuad q fun b => { b with weak := true }
      let noted := if mismatch then marked.media 10 q else marked;
      (step ∈ [ReadStep.hard, .hardWeak, .badTag] → s.readEffects q step mismatch = noted) ∧
      (step ∈ [ReadStep.retry, .soft] → s.readEffects q step mismatch =
        noted.updDie (quadDie q) fun d => { d with retries := noted.clock :: d.retries.filter fun t => noted.clock < t + 86400000000000 }) ∧
      (step = .reconstruct → s.readEffects q step mismatch = ({ noted with flash.reconstructed := noted.flash.reconstructed + 1 } : State).media 4 q) ∧
      (step ∈ [ReadStep.damaged, .failed] → s.readEffects q step mismatch = noted.media 5 q)) ∧
    (∀ (unit : Option Nat) step mismatch,
      ((∃ u ∈ s.flash.lostUnits, unit = some u) → (s.stepHolds q unit step mismatch = true ↔ step = .damaged)) ∧
      ((∀ u ∈ s.flash.lostUnits, unit ≠ some u) → (s.stepHolds q unit step mismatch = true ↔
        ¬(step ∈ [ReadStep.hard, .hardWeak, .retry, .soft] ∧ (mismatch = true ∨ (s.die (quadDie q)).state ≠ 0 ∨ quadChannel q ∈ s.flash.channelsFailed))))) ∧
    (∀ (i : Fin 5) (h : Fin 2) us c g,
      let st := streamOf i.val
      let idle := us = [] ∨ (if streamSlc st then 8 else 15) < us.length ∨ s.flash.failed = true ∨ s.pins.flashPg = false ∨ s.power.season = .winter ∨ s.power.season = .heldInReset ∨
        s.mapRoom (us.map (·.toNat)) = false ∨ s.mayProgram st = false;
      (idle ∨ s.needBand st h.val = none → exec (.flashProgramComplete i h us c g) s = .next s) ∧
      (∀ n b u, ¬idle → s.needBand st h.val = some (n, b, u) →
        let words := (us.zip (dataMembers b b.next)).mapIdx fun k x => u.unitWords x.1.toNat (u.flash.wseq + k) (u.newUnit st n b.next x.2 (c, g) x.1.toNat) false
        let v := (us.zip (dataMembers b b.next)).foldl (fun (w : State) x => w.placeUnit st n b.next b (c, g) x) (u.placeParity st b.next b words)
        let w : State := { v with flash.bands := v.flash.bands.upd n fun b => { b with next := b.next + 1 }
                                  flash.hostWritten := v.flash.hostWritten + (if st = .gc then 0 else us.length * unitBytes)
                                  flash.nandWritten := v.flash.nandWritten + stripeBytes st us.length }
        let y := if b.next + 1 < w.bandPages b then w else w.closeBand n
        let z := if st = .log then y.programLog (us.length * unitBytes) else y
        exec (.flashProgramComplete i h us c g) s = .next (if c = 0 ∨ st = .gc then z else z.charge (ownerOf c) 0x40 (us.length * unitBytes)))) ∧
    (∀ st band page b object (x : Word × Nat), (s.placeUnit st band page b object x).flash.map.find x.1.toNat = some (s.newUnit st band page x.2 object x.1.toNat) ∧
      (s.placeUnit st band page b object x).flash.wseq = s.flash.wseq + 1) ∧
    (∀ st band page place object u, (s.newUnit st band page place object u).entry = mapEntry (streamSlc st) place page s.flash.wseq ∧ (s.newUnit st band page place object u).band = band) ∧
    (∀ page words, (s.programUnit q page words).out = s.out ++ (List.range 4).map fun plane =>
      .flashPage q plane page (pageBytes s.flash.spare (((words.drop (4 * plane)).take 4).map fun w => codeword (w.take 4112) (w.drop 4112)))) ∧
    (∀ unit x, (s.mapUnit unit (some x)).flash.map.find unit = some x ∧ mapPage unit ∈ (s.mapUnit unit (some x)).flash.dirty ∧
      ∀ y, y ≠ unit → (s.mapUnit unit (some x)).flash.map.find y = s.flash.map.find y) ∧
    (∀ (st : Fin 5) (h : Fin 2) (k : Fin 16),
      (s.openBand (streamOf st.val) h.val = none → ∀ v, exec (.programFail st h k v) s = .next s) ∧
      (∀ n b, s.openBand (streamOf st.val) h.val = some (n, b) →
        let x := b.members.getD k.val 0
        exec (.programFail st h k false) s = .next (((s.closeBand n).media 1 x).retireQuad x) ∧
        (let seen := s.clock :: (s.quad x).verifyFails.filter fun t => s.clock < t + 86400000000000
         let u := ((s.closeBand n).media 3 x).updQuad x fun b => { b with verifyFails := seen };
         (2 ≤ seen.length → exec (.programFail st h k true) s = .next (u.retireQuad x)) ∧ (seen.length < 2 → exec (.programFail st h k true) s = .next u)) ∧
        ((s.quad x).verifyFails = [] → ∃ u, exec (.programFail st h k true) s = .next u ∧ (u.quad x).grownBad = (s.quad x).grownBad ∧ (u.quad x).verifyFails = [s.clock]))) ∧
    ((s.quadMapped q = 0 → (s.quad q).grownBad = false → exec (.eraseFail q) s = .next ((s.media 2 q).retireQuad q)) ∧
     ((s.quadMapped q ≠ 0 ∨ (s.quad q).grownBad = true) → exec (.eraseFail q) s = .next s)) ∧
    ((s.bandOf q = none ∨ s.mayErase q = false → exec (.quadBlockErase q) s = .next s) ∧
     (∀ n b, s.bandOf q = some n → s.flash.bands.find n = some b → b.closed = none → exec (.quadBlockErase q) s = .next s) ∧
     (∀ n b t, s.bandOf q = some n → s.flash.bands.find n = some b → b.closed = some t → s.mayErase q = true →
      let v := s.updQuad q fun x => { x with erases := x.erases + 1, reads := 0, programmed := none, weak := false, refreshing := false }
      let w : State := if (∀ y ∈ b.members, (v.quad y).programmed = none ∨ ((v.quad y).grownBad = true ∧ v.quadMapped y = 0)) then
          { v with flash.bands := v.flash.bands.del n
                   flash.gcVictim := if v.flash.gcVictim = some n then none else v.flash.gcVictim
                   flash.wearVictim := if v.flash.wearVictim = some n then none else v.flash.wearVictim } else v
      exec (.quadBlockErase q) s = .next (if 1000 ≤ w.lifeUsed ∧ w.flash.wornOut = false then (({ w with flash.wornOut := true } : State).logKind 5 1000).emit (.event 5 1000) else w) ∧
      ∃ u, exec (.quadBlockErase q) s = .next u ∧ (u.quad q).erases = (s.quad q).erases + 1 ∧ (u.quad q).reads = 0 ∧ (u.quad q).programmed = none ∧ u.flash.map = s.flash.map) ∧
     (s.mayErase q = true ↔ s.quadMapped q = 0 ∧ (s.quad q).grownBad = false ∧ (∀ r ∈ s.flash.journal, ∀ x, r.before = some x → entryQuad x.entry ≠ q) ∧
        (∀ f ∈ s.host.flights, ∀ r ∈ readsOf f, r.tier = .flash → (s.quad q).emptied < r.since) ∧
        (∀ x ∈ s.index.squashed, x.read.tier = .flash → x.read.lost = none → (s.quad q).emptied < x.read.since))) ∧
    ((s.flash.failed = false → (256 ≤ s.flash.journal.length ∨ s.flash.journalSince + 1000000 ≤ s.clock) → exec (.journalSectorProgram false) s = .next s.programJournal) ∧
     (s.flash.failed = false → exec (.journalSectorProgram true) s = .next s.programJournal) ∧
     (s.flash.journal.length < 256 → s.clock < s.flash.journalSince + 1000000 → exec (.journalSectorProgram false) s = .next s) ∧
     (s.flash.failed = true → ∀ d, exec (.journalSectorProgram d) s = .next s) ∧
     (s.flash.journal = [] → s.programJournal = s) ∧
     (s.flash.journal ≠ [] → s.programJournal.out = s.out ++ [.journalSector s.flash.journalSeq (journalSealed s.flash.journalSeq s.flash.journal)] ∧
        s.programJournal.flash.journal = s.flash.journal.drop 256 ∧ s.programJournal.flash.journalSeq = s.flash.journalSeq + 1)) ∧
    ((s.flash.ckpt = none → s.flash.failed = false → s.flash.ckptBegan + 600000000000 ≤ s.clock ∨ 2 ^ 32 ≤ s.flash.journalBytes ∨ s.mapStuck = true →
        ∃ u, exec .checkpointStart s = .next u ∧ u.flash.ckpt = some { half := 1 - s.flash.ckptHalf, j := s.flash.journalSeq } ∧ u.flash.ckptBegan = s.clock ∧
          u.flash.journalBytes = 0 ∧ u.flash.map = s.flash.map) ∧
     (s.flash.ckpt ≠ none ∨ s.flash.failed = true ∨ (s.clock < s.flash.ckptBegan + 600000000000 ∧ s.flash.journalBytes < 2 ^ 32 ∧ s.mapStuck = false) → exec .checkpointStart s = .next s) ∧
     (s.flash.ckpt = none → exec .checkpointComplete s = .next s) ∧
     (∀ c, s.flash.ckpt = some c → ∃ u, exec .checkpointComplete s = .next u ∧ u.flash.ckpt = none ∧ u.flash.ckptHalf = c.half ∧ u.flash.ckptJ.1 = c.j ∧
        u.flash.journal = [] ∧ ∀ p, p ∈ u.flash.dirty ↔ p ∈ s.flash.dirty ∧ p ∈ c.changed)) ∧
    ((∀ p, s.evictee = some p → exec .mapPageEvict s = .next (({ s with flash.hbmPages := s.flash.hbmPages.filter (· != p) } : State).writeMapPage p)) ∧
     (∀ p, s.evictee = none → s.coldPage = some p → exec .mapPageEvict s = .next (s.writeMapPage p)) ∧
     (s.evictee = none → s.coldPage = none → exec .mapPageEvict s = .next s) ∧
     (let may (p : Nat) : Prop := s.pinnedPage p = false ∧ (p ∉ s.flash.dirty ∨ s.freeMapSlot ≠ none)
      (s.evictee = none ↔ ∀ p ∈ s.flash.hbmPages, ¬may p) ∧
      ∀ p, s.evictee = some p → p ∈ s.flash.hbmPages ∧ may p ∧ (s.coversRefine p = true → ∀ x ∈ s.flash.hbmPages, may x → s.coversRefine x = true)) ∧
     ∃ u, exec .mapPageEvict s = .next u ∧ u.flash.map = s.flash.map ∧ (∀ p ∈ u.flash.hbmPages, p ∈ s.flash.hbmPages) ∧
      (∀ p ∈ s.flash.hbmPages, s.pinnedPage p = true → p ∈ u.flash.hbmPages) ∧
      (s.freeMapSlot = none → ∀ p ∈ s.flash.hbmPages, p ∈ s.flash.dirty → p ∈ u.flash.hbmPages))

/-- GC_START, QUAD_BLOCK_REFRESH, WEAR_LEVEL_MOVE, FLASH_PATROL, LOW_SPACE_ENTER, LOW_SPACE_EXIT, DIE_FAILED, CHANNEL_FAILED, DIE_REBUILD_DONE and MEDIA_STATUS. -/
def Obligations.FlashCare : Prop :=
  ∀ (m : Mbx) (tag : Word) (f : Flight) (s : State) (q : Nat),
    (s.flash.gcVictim = none → s.freeBands * 50 < s.allBands → s.power.season = .summer ∨ s.power.season = .drain → (∃ e ∈ s.flash.bands, e.2.closed ≠ none) →
      ∃ n b t, (n, b) ∈ s.flash.bands ∧ b.closed = some t ∧
        (∀ e ∈ s.flash.bands, ∀ u, e.2.closed = some u → s.bandMapped n < s.bandMapped e.1 ∨ s.bandMapped n = s.bandMapped e.1 ∧ t ≤ u) ∧
        exec .gcStart s = .next { s with flash.gcVictim := some n }) ∧
    (s.flash.gcVictim ≠ none ∨ s.allBands ≤ s.freeBands * 50 ∨ (s.power.season ≠ .summer ∧ s.power.season ≠ .drain) ∨ (∀ e ∈ s.flash.bands, e.2.closed = none) →
      exec .gcStart s = .next s) ∧
    ((s.quad q).programmed ≠ none → (s.quad q).refreshing = false → s.refreshDue q = true → ∃ u, exec (.quadBlockRefresh q) s = .next u ∧ (u.quad q).refreshing = true ∧
      u.flash.refreshed = s.flash.refreshed + 1 ∧ exec (.quadBlockRefresh q) u = .next u) ∧
    (s.refreshDue q = false ∨ (s.quad q).programmed = none ∨ (s.quad q).refreshing = true → exec (.quadBlockRefresh q) s = .next s) ∧
    (s.refreshDue q = true ↔ (if (s.quad q).slc then 40000000 ≤ (s.quad q).reads else 4000000 ≤ (s.quad q).reads) ∨ (s.quad q).weak = true ∨
      ∃ t, (s.quad q).programmed = some t ∧ t + 365 * 86400000000000 ≤ s.clock) ∧
    (∀ (d : Fin 1024), let es := (List.range s.flash.blocks).map fun b => (s.quad (quadKey d.val b)).erases
      (20 * (es.foldl max 0 - es.foldl min (es.headD 0)) ≤ Config.endurance → exec (.wearLevelMove d) s = .next s) ∧
      (let least (q : Nat) : Prop := ∃ b < s.flash.blocks, q = quadKey d.val b ∧ (s.quad q).erases = es.foldl min (es.headD 0) ∧ s.bandOf q ≠ none
       Config.endurance < 20 * (es.foldl max 0 - es.foldl min (es.headD 0)) →
        ((∀ q, ¬least q) → exec (.wearLevelMove d) s = .next s) ∧
        ((∃ q, least q) → ∃ q n, least q ∧ s.bandOf q = some n ∧ exec (.wearLevelMove d) s = .next { s with flash.wearVictim := some n }))) ∧
    (∀ w, ((s.quad q).programmed ≠ none → (s.quad q).patrolled + 7 * 86400000000000 ≤ s.clock →
        exec (.flashPatrol q w) s = .next (s.updQuad q fun b => { b with patrolled := s.clock, weak := b.weak || w })) ∧
      ((s.quad q).programmed = none ∨ s.clock < (s.quad q).patrolled + 7 * 86400000000000 → exec (.flashPatrol q w) s = .next s)) ∧
    ((s.flash.lowSpace = false → s.usableBytes * 99 ≤ s.mappedUnits * unitBytes * 100 → exec .lowSpaceEnter s = .next (({ s with flash.lowSpace := true } : State).media 13 0)) ∧
     (s.flash.lowSpace = true ∨ s.mappedUnits * unitBytes * 100 < s.usableBytes * 99 → exec .lowSpaceEnter s = .next s) ∧
     (s.flash.lowSpace = true → s.mappedUnits * unitBytes * 100 < s.usableBytes * 98 → exec .lowSpaceExit s = .next { s with flash.lowSpace := false }) ∧
     (s.flash.lowSpace = false ∨ s.usableBytes * 98 ≤ s.mappedUnits * unitBytes * 100 → exec .lowSpaceExit s = .next s)) ∧
    (∀ d : Fin 1024, (s.die d.val).state = 0 → ∃ u, exec (.dieFailed d) s = .next u ∧ (u.die d.val).state = (if s.dieMapped d.val = 0 then 2 else 1) ∧ u.flash.map = s.flash.map) ∧
    (∀ d, ((s.die d).state = 0 → s.failDie d = ((s.updDie d fun x => { x with state := if s.dieMapped d = 0 then 2 else 1 }).media 7 (quadKey d 0)).logUnit d) ∧
      ((s.die d).state ≠ 0 → s.failDie d = s)) ∧
    (∀ d : Fin 1024, let out (x : Nat) : Prop := ((s.failDie d.val).die x).state = 1 ∨ ((s.failDie d.val).die x).state = 2
      (out d.val → (∀ x ∈ (s.failDie d.val).positions, x / 16 = d.val / 16 → out x) → exec (.dieFailed d) s = .next ((s.failDie d.val).failChannel (d.val / 16))) ∧
      (out d.val → (∃ x ∈ (s.failDie d.val).positions, x / 16 = d.val / 16 ∧ ¬out x) → exec (.dieFailed d) s = .next (s.failDie d.val)) ∧
      ((s.die d.val).state ≤ 2 → out d.val)) ∧
    (∀ d : Fin 1024, ((s.die d.val).state = 3 ∨ (s.die d.val).state = 4) → exec (.dieFailed d) s = .next s) ∧
    (∀ c : Fin 64, (c.val ∈ s.flash.channelsFailed → exec (.channelFailed c) s = .next s) ∧
      (c.val ∉ s.flash.channelsFailed → ∃ u, exec (.channelFailed c) s = .next u ∧ c.val ∈ u.flash.channelsFailed ∧ u.flash.map = s.flash.map ∧
        ∀ i < s.flash.perChannel, (u.die (c.val * 16 + i)).state ≠ 0)) ∧
    (∀ d : Fin 1024, ((s.die d.val).state = 1 → s.dieMapped d.val = 0 → exec (.dieRebuildDone d) s =
        .next ((s.updDie d.val fun x => { x with state := 2 }).media 9 (quadKey d.val 0))) ∧
      ((s.die d.val).state ≠ 1 ∨ s.dieMapped d.val ≠ 0 → exec (.dieRebuildDone d) s = .next s)) ∧
    (s.turn 0x7001 m tag f → f.opens 8 8 → field f.plain 0 1 ≤ 2 → zeroField f.plain 1 7 = false → exec (.mediaStatus m tag) s = .next (s.answerDetail f (bad 0x21))) ∧
    (s.turn 0x7001 m tag f → f.opens 8 8 → 3 ≤ field f.plain 0 1 → exec (.mediaStatus m tag) s = .next (s.answerDetail f (bad 0x20))) ∧
    (s.turn 0x7001 m tag f → f.opens 8 8 → zeroField f.plain 1 7 = true →
      (field f.plain 0 1 = 0 → exec (.mediaStatus m tag) s = .next (s.answerEntries f (fun _ => []) [s.mediaSummary])) ∧
      (field f.plain 0 1 = 1 → exec (.mediaStatus m tag) s = .next (({ s with free := s.free + 64 } : State).answerEntries f (fun n => leBytes 4 n ++ zeros 12)
        ((List.range 1024).map fun d => s.dieEntry d (Config.free (s.free + d / 16))))) ∧
      (field f.plain 0 1 = 2 → exec (.mediaStatus m tag) s = .next (s.answerEntries f (fun n => leBytes 4 n ++ zeros 12) (s.flash.events.map mediaEntry))))

/-- SET_PROFILE, PROFILE_SWITCH, SET_SEASON, DRAIN_COMPLETE, WINTER_ENTRY, WAKE, WAKE_COMPLETE, SPRING_BRING_UP, FLUSH_END and RESET_RELEASE. -/
def Obligations.SeasonCommands : Prop :=
  ∀ (m : Mbx) (tag : Word) (f : Flight) (s : State),
    (s.turn 0x0010 m tag f → f.opens 8 8 →
      (3 < field f.plain 0 1 → exec (.setProfile m tag) s = .next (s.answerDetail f (bad 0x20))) ∧
      (field f.plain 0 1 ≤ 3 → zeroField f.plain 1 7 = false → exec (.setProfile m tag) s = .next (s.answerDetail f (bad 0x21))) ∧
      (field f.plain 0 1 ≤ 3 → zeroField f.plain 1 7 = true →
        (s.power.change ≠ none → exec (.setProfile m tag) s = .next (s.answerDetail f wrongState)) ∧
        (s.power.change = none → profileOf (field f.plain 0 1) = s.power.profile → exec (.setProfile m tag) s = .next (s.answer f .done (profileAnswer s.power.profile 0))) ∧
        (s.power.change = none → profileOf (field f.plain 0 1) ≠ s.power.profile → let p := profileOf (field f.plain 0 1)
          let c : ProfileChange := { target := p, mbx := f.mbx, tag := f.tag, since := s.clock, waits := if envelopeOf p < envelopeOf s.power.profile then s.acknowledged else [] }
          exec (.setProfile m tag) s = .next (({ s with power.rates := p, power.change := some c } : State).setWork f .profileWait)))) ∧
    ((s.power.change = none → exec .profileSwitch s = .next s) ∧
     (∀ c, s.power.change = some c →
      (s.serving = false ∨ s.fabTime % 1000000 ≠ 0 ∨ (∃ w ∈ c.waits, s.hasCommitted w = false) → exec .profileSwitch s = .next s) ∧
      (s.serving = true → s.fabTime % 1000000 = 0 → (∀ w ∈ c.waits, s.hasCommitted w = true) →
        let u : State := { s with power.profile := c.target, power.change := none, governor.clocks := s.governor.clocks.map fun k => min k (clockCeiling c.target) };
        (s.flight c.mbx c.tag = none → exec .profileSwitch s = .next u) ∧
        (∀ g, s.flight c.mbx c.tag = some g → exec .profileSwitch s = .next (u.answer g .done (profileAnswer s.power.profile ((s.clock - c.since) / 1000))))))) ∧
    (s.turn 0x0011 m tag f → f.opens 8 8 →
      ((field f.plain 0 1 = 1 ∨ 4 ≤ field f.plain 0 1) → exec (.setSeason m tag) s = .next (s.answerDetail f (bad 0x20))) ∧
      ((field f.plain 0 1 = 0 ∨ field f.plain 0 1 = 2 ∨ field f.plain 0 1 = 3) → zeroField f.plain 1 7 = false → exec (.setSeason m tag) s = .next (s.answerDetail f (bad 0x21))) ∧
      (zeroField f.plain 1 7 = true →
        (s.power.season = .summer → (field f.plain 0 1 = 0 → exec (.setSeason m tag) s = .next ((s.setWork f .winterWait).beginDrain (.winter f.mbx f.tag))) ∧
          (field f.plain 0 1 = 2 → exec (.setSeason m tag) s = .next (s.answer f .done [])) ∧
          (field f.plain 0 1 = 3 → exec (.setSeason m tag) s = .next ((s.beginDrain .stay).answer f .done []))) ∧
        (s.power.season = .drain →
          (∀ a b, s.power.drain = .winter a b → (field f.plain 0 1 = 0 ∨ field f.plain 0 1 = 2 ∨ field f.plain 0 1 = 3) → exec (.setSeason m tag) s = .next (s.answerDetail f wrongState)) ∧
          ((∀ a b, s.power.drain ≠ .winter a b) →
            (field f.plain 0 1 = 0 → exec (.setSeason m tag) s = .next (({ s with power.drain := .winter f.mbx f.tag } : State).setWork f .winterWait)) ∧
            (field f.plain 0 1 = 2 → exec (.setSeason m tag) s =
              .next ((({ s with power.season := .summer, power.drain := .none } : State).logKind 10 2).answer f .done [])) ∧
            (field f.plain 0 1 = 3 → exec (.setSeason m tag) s = .next (s.answer f .done [])))) ∧
        (s.power.season ≠ .summer → s.power.season ≠ .drain → (field f.plain 0 1 = 0 ∨ field f.plain 0 1 = 2 ∨ field f.plain 0 1 = 3) →
          exec (.setSeason m tag) s = .next (s.answerDetail f wrongState)))) ∧
    ((s.power.season ≠ .drain ∨ s.power.entering ≠ none → exec .drainComplete s = .next s) ∧
     (s.power.season = .drain → s.power.entering = none →
      ((∀ a b, s.pursueDrain.power.drain ≠ .winter a b) → exec .drainComplete s = .next s.pursueDrain) ∧
      (∀ a b, s.pursueDrain.power.drain = .winter a b →
        (s.pursueDrain.drained = false → exec .drainComplete s = .next s.pursueDrain) ∧
        (s.pursueDrain.drained = true → s.pursueDrain.flight a b = none → exec .drainComplete s = .next (({ s.pursueDrain with power.entering := some s.pursueDrain.clock } : State).closeHost)) ∧
        (∀ g, s.pursueDrain.drained = true → s.pursueDrain.flight a b = some g →
          let v := (s.pursueDrain.answer g .done []).writeOne a
          exec .drainComplete s = .next (({ v with power.entering := some v.clock } : State).closeHost))))) ∧
    (s.closeHost.host.mailboxes = [] ∧ s.closeHost.host.flights = [] ∧ s.closeHost.host.streams = [] ∧ ∀ e ∈ s.closeHost.host.windows, e.2.bound ≠ none) ∧
    (s.power.entering = none ∨ s.power.season ≠ .drain → exec .winterEntry s = .next s) ∧
    (∀ t, s.power.entering = some t → s.power.season = .drain →
      (s.clock < t + 5000000 → exec .winterEntry s = .next s) ∧
      (t + 5000000 ≤ s.clock → ∃ u v, exec .winterEntry s = .next u ∧ u.power.season = .winter ∧ u.power.drain = .none ∧ u.power.entering = none ∧ u.power.pcieUp = false ∧
        u.keys.trks = [] ∧ u.keys.sessions = [] ∧ u.keys.retained = v ∧ v = (((s.logKind 10 0).allDurable.stopFabric).closeHost).keys.trks)) ∧
    ((s.pins.aoUp = false → exec .wake s = .next s) ∧
     (s.pins.aoUp = true → s.power.season ≠ .winter → exec .wake s = .next (s.emit (.mctp (vendorMessage 2 [1])))) ∧
     (s.pins.aoUp = true → s.power.season = .winter → s.power.hbmLost = true → exec .wake s = .next (s.emit (.mctp (vendorMessage 2 [0]))).afterReset.beginSpring) ∧
     (s.pins.aoUp = true → s.power.season = .winter → s.power.hbmLost = false → exec .wake s = .next (s.emit (.mctp (vendorMessage 2 [0]))).beginWake) ∧
     (s.pins.aoUp = true → s.power.season = .winter → s.power.hbmLost = false → ∃ u, exec .wake s = .next u ∧ u.power.season = .spring ∧ u.power.warm = true ∧
      u.power.waking = some s.clock ∧ u.power.profile = strapProfile s.power.straps.profileSel ∧ u.keys.trks = s.keys.retained ∧ u.keys.retained = [] ∧
      u.index = s.index ∧ u.tables = s.tables ∧ u.tiers = s.tiers ∧ u.flash = s.flash)) ∧
    ((s.power.waking = none ∨ s.power.season ≠ .spring ∨ s.power.warm = false ∨ s.pins.flashPg = false → exec .wakeComplete s = .next s) ∧
     (∀ t, s.power.waking = some t → s.power.season = .spring → s.power.warm = true →
      (s.clock < t + 200000000 → exec .wakeComplete s = .next s) ∧
      (t + 200000000 ≤ s.clock → s.pins.flashPg = true →
        exec .wakeComplete s = .next (({ s.wakeTest.2 with
          power.waking := none, power.warm := false, power.profile := s.power.rates, governor.clocks := s.governor.clocks.map fun k => min k (clockCeiling s.power.rates)
          index.scrubBase := s.clock, tiles.tested := true } : State).selfTest s.wakeTest.1).beginSummer ∧
        ∃ u, exec .wakeComplete s = .next u ∧ u.power.season = .summer ∧ u.power.profile = s.power.rates ∧
        u.power.waking = none ∧ u.power.warm = false ∧ u.index.collections = s.index.collections ∧ u.tables = s.tables))) ∧
    (∀ a b, (s.power.season ≠ .spring ∨ s.power.warm = true ∨ s.pins.flashPg = false) → exec (.springBringUp a b) s = .next s) ∧
    (∀ found untrained rejected bad, s.power.season = .spring → s.power.warm = false → s.pins.flashPg = true →
      let v := (s.recoverMedia.bringUpDies (acceptedDies found untrained)).mapDamaged rejected
      let w : State := (if v.usableChannels < 16 then { v with flash.failed := true }.logUnit 0xFFFF else { v with flash.failed := false }).selfTest bad
      let leased (o : SharedObject) : Bool := w.tiers.given.any fun l => l.collection == o.collection && l.gen == o.gen && l.segment == o.segment
      exec (.springBringUp ⟨found, untrained, rejected⟩ bad) s = .next ({ w with
        tiers.objects := (w.tiers.objects.filter leased).map fun (o : SharedObject) => { o with superseded := true }
        tiers.given := w.tiers.given.map fun (l : Lease) => { l with since := w.clock } } : State).beginSummer ∧
      ∃ u, exec (.springBringUp ⟨found, untrained, rejected⟩ bad) s = .next u ∧ u.power.season = .summer ∧
      u.power.flushMarked = true ∧ (s.power.flushMarked = false → u.flash.uncleanSprings = min (s.flash.uncleanSprings + 1) 0xFFFFFFFF) ∧
      (s.power.flushMarked = true → u.flash.uncleanSprings = s.flash.uncleanSprings) ∧ (16 ≤ v.usableChannels → u.flash.failed = false) ∧ (v.usableChannels < 16 → u.flash.failed = true)) ∧
    (∀ (found : List (Fin 1024 × FoundDie)) untrained e, e ∈ found → ((e.1.val, e.2) ∈ acceptedDies found untrained ↔
      geometryAccepted e.2.page = true ∧ (∀ x ∈ found, pagesAgree e.2.page x.2.page = true) ∧ e.2.trained ≠ none ∧ ∀ c ∈ untrained, c.val ≠ e.1.val / 16)) ∧
    ((s.power.season = .powerLoss → s.power.flushed = true → exec .flushEnd s = .next s.afterReset) ∧
     (s.power.season ≠ .powerLoss ∨ s.power.flushed = false → exec .flushEnd s = .next s)) ∧
    (∀ v h c st, s.power.season ≠ .heldInReset ∨ s.pins.resetN = false ∨ s.power.straps.testMode = true → exec (.resetRelease v h c st) s = .next s) ∧
    (∀ v h c st, s.power.season = .heldInReset → s.pins.resetN = true → s.power.straps.testMode = false →
      let u : State := { s with pins.input := v, pins.holdupN := h, pins.sysClk := c, pins.straps := st }
      ((360 ≤ v ∧ v ≤ 420 ∧ h = true ∧ s.power.trip = false ∧ s.power.tripRetained = false ∧ s.power.overvoltage = false ∧ c = 3 ∧ s.pins.aoUp = true) →
        exec (.resetRelease v h c st) s = .next u.beginSpring) ∧
      ((v < 360 ∨ 420 < v ∨ h = false ∨ s.power.trip = true ∨ s.power.tripRetained = true ∨ s.power.overvoltage = true ∨ c ≠ 3 ∨ s.pins.aoUp = false) →
        exec (.resetRelease v h c st) s = .next u)) ∧
    ((s.pins.straps.testMode = true → s.beginSpring.power.season = s.power.season ∧ s.beginSpring.power.straps = s.pins.straps) ∧
     (s.pins.straps.testMode = false → s.beginSpring.power.season = .spring ∧ s.beginSpring.power.straps = s.pins.straps ∧
        s.beginSpring.power.profile = strapProfile s.pins.straps.profileSel ∧ s.beginSpring.power.rates = strapProfile s.pins.straps.profileSel))

/-- HOLDUP_WARN_ASSERT, INPUT_UNDERVOLTAGE, INPUT_OVERVOLTAGE, THERMAL_TRIP, POWER_LOSS_FLUSH, RESET_N_ASSERT, RESET_N_DEASSERT and COLD_POWER_UP. Which
volts and times lie between the limits is free where the rules leave it open (HOLDUP_WARN_N 2 to 4 µs, RESET_N 0.2 to 1 µs). -/
def Obligations.PowerFailures : Prop :=
  ∀ (s : State),
    (∀ n, (4000 ≤ n → exec (.holdupWarnAssert n) s = .next (({ s with pins.holdupN := false } : State).powerFails 1)) ∧
      (n < 2000 → exec (.holdupWarnAssert n) s = .next s) ∧
      (2000 ≤ n → n < 4000 → exec (.holdupWarnAssert n) s = .next s.draw.2 ∨
        exec (.holdupWarnAssert n) s = .next (({ s.draw.2 with pins.holdupN := false } : State).powerFails 1))) ∧
    (∀ v, exec (.inputUndervoltage v) s = .next (({ s with pins.input := v.val } : State).powerFails 2)) ∧
    (∀ v, (v ≤ 440 → exec (.inputOvervoltage v) s = .next s) ∧
      (440 < v → let u : State := { s with pins.input := v, power.overvoltage := true }
        (s.power.season = .winter → exec (.inputOvervoltage v) s = .next { u.afterReset with power.flushMarked := s.power.flushMarked }) ∧
        (s.power.season ≠ .winter → exec (.inputOvervoltage v) s = .next (u.powerFails 3)))) ∧
    (∀ p, let u : State := ({ s with power.trip := s.pins.thermSb, power.tripRetained := true } : State).retain (256 + p.val)
      (s.power.season = .winter → exec (.thermalTrip p) s = .next u.afterReset) ∧ (s.power.season ≠ .winter → exec (.thermalTrip p) s = .next (u.powerFails 4))) ∧
    (∀ k, (s.operating = true → (∀ t, s.power.entering = some t → s.clock < t + 1000000) → let u := s.powerFails k
        u.power.season = .powerLoss ∧ u.power.flush = some s.clock ∧ u.power.flushed = false ∧ u.power.flushMarked = false ∧ u.power.drain = .none ∧
        u.power.entering = none ∧ u.power.waking = none ∧ (∀ x ∈ u.fabric.ports, x.queues = []) ∧ u.fabric.inbox = [] ∧ u.fabric.reassembly = [] ∧
        u.fabric.held = [] ∧ u.index = s.index ∧ u.keys = s.keys ∧ u.host = s.host ∧ u.flash = s.flash) ∧
      (s.operating = true → ∀ t, s.power.entering = some t → t + 1000000 ≤ s.clock → s.powerFails k = s.allDurable.afterReset) ∧
      (s.power.season = .winter → s.powerFails k = { s with power.hbmLost := true, power.retention := s.power.retention ++ [k] }) ∧
      (s.power.season = .powerLoss ∨ s.power.season = .heldInReset → s.powerFails k = s)) ∧
    (∀ b, ((s.power.season ≠ .powerLoss ∨ s.power.flush = none ∨ s.power.flushed = true) → exec (.powerLossFlush b) s = .next s) ∧
      (∀ t, s.power.season = .powerLoss → s.power.flush = some t → s.power.flushed = false →
        let ok := b && s.power.flashDriven
        let v := if ok then s.allDurable else s.unflushed
        exec (.powerLossFlush b) s = .next { v with
          power.flushed := true, power.flushMarked := ok, power.lastFlushOk := ok
          tiles.failed := if ok then v.tiles.unrecorded ++ v.tiles.failed else v.tiles.failed, tiles.unrecorded := []
          keys.trks := [], keys.sessions := [], keys.retained := [], keys.mgmt := .closed, keys.mgmtKeys := ([], []), keys.zeroising := [] } ∧
        ∃ u, exec (.powerLossFlush b) s = .next u ∧ u.power.flushed = true ∧ u.power.flushMarked = (b && s.power.flashDriven) ∧
          u.power.lastFlushOk = (b && s.power.flashDriven) ∧ u.keys.trks = [] ∧ u.keys.sessions = [] ∧ u.keys.retained = [] ∧ u.keys.mgmt = .closed ∧
          u.keys.anchor = s.keys.anchor ∧
          ((b && s.power.flashDriven) = true → u.flash.journal = [] ∧ ∀ e ∈ u.index.collections, ∀ o ∈ e.2.ops, o.buffered = true → o.durable = true))) ∧
    (∀ n cool, (n < 200 → exec (.resetNAssert n cool) s = .next s) ∧
      (200 ≤ n → n < 1000 → exec (.resetNAssert n cool) s = .next s.draw.2 ∨ exec (.resetNAssert n cool) s = exec (.resetNAssert 1000 cool) s.draw.2) ∧
      (1000 ≤ n → let u : State := { s with
          pins.resetN := false, power.resetRequest := true, power.overvoltage := false
          power.trip := s.power.trip && !cool, power.tripRetained := s.power.tripRetained && !cool }
        (s.operating = true → exec (.resetNAssert n cool) s = .next u.beginFlush) ∧
        (s.power.season = .powerLoss → exec (.resetNAssert n cool) s = .next u) ∧
        (s.power.season = .winter ∨ s.power.season = .heldInReset → exec (.resetNAssert n cool) s = .next u.afterReset))) ∧
    (∀ st, let u : State := { s with pins.resetN := true, pins.straps := st }
      (s.power.season = .heldInReset → u.conditionsGood = true → exec (.resetNDeassert st) s = .next u.beginSpring) ∧
      ((s.power.season ≠ .heldInReset ∨ u.conditionsGood = false) → exec (.resetNDeassert st) s = .next u)) ∧
    (s.pins.straps.testMode = true → s.power.season = .heldInReset → s.beginSpring.power.season = .heldInReset) ∧
    (s.pins.straps.testMode = false → let u := s.beginSpring
      u.power.season = .spring ∧ u.power.straps = s.pins.straps ∧ u.power.profile = strapProfile s.pins.straps.profileSel ∧ u.power.rates = u.power.profile ∧
      u.power.warm = false ∧ u.governor.clocks = List.replicate 4 (clockCeiling u.power.profile)) ∧
    (∀ v, (v < 360 → exec (.coldPowerUp v) s = .next s) ∧
      (360 ≤ v →
        let v1 : State := if s.operating = true ∨ (s.power.season = .powerLoss ∧ s.power.flushed = false) then { s.unflushed with power.flushMarked := false, power.lastFlushOk := false } else s
        exec (.coldPowerUp v) s = .next { v1.afterReset with
          fabTime := 0, tenants.resetAt := 0, pins.input := v, pins.aoUp := true, power.tripRetained := false, power.retention := []
          power.straps := {}, power.flushed := false, power.i3cDynamic := none, power.mctpEid := 0 } ∧
        ∃ u, exec (.coldPowerUp v) s = .next u ∧ u.power.season = .heldInReset ∧ u.pins.input = v ∧ u.pins.aoUp = true ∧ u.fabTime = 0 ∧
        u.power.trip = s.power.trip ∧ u.power.tripRetained = false ∧ u.power.retention = [] ∧ u.power.i3cDynamic = none ∧ u.power.mctpEid = 0 ∧
        u.power.straps = {} ∧ (s.operating = true → u.power.flushMarked = false ∧ u.power.lastFlushOk = false) ∧
        u.keys.trks = [] ∧ u.keys.anchor = s.keys.anchor ∧ u.fabric.route = s.fabric.route ∧ u.models.placement = s.models.placement))

/-- GOVERNOR_TICK and LIMITER_EVENT. -/
def Obligations.Governing : Prop :=
  (∀ (r : TickReading) (s : State),
    ((s.operating = false ∨ s.fabTime % 1000000 ≠ 0 ∨ s.fabTime = s.governor.lastTick) → exec (.governorTick r) s = .next s) ∧
    (s.operating = true → s.fabTime % 1000000 = 0 → s.fabTime ≠ s.governor.lastTick → ∃ u pool,
      exec (.governorTick r) s = .next u ∧ u.governor.lastTick = s.fabTime ∧ u.governor.overshoot = r.draw - (s.envelopeMw - 50000) ∧
      u.governor.limiterEvents = s.governor.limiterEvents ∧ u.index.collections = s.index.collections ∧ u.host = s.host ∧ u.power = s.power ∧
      u.governor.envelopeCap = stepCap (r.hot.any (·.val == 26)) (r.recovered.any (·.val == 26)) 5 100 s.governor.envelopeCap ∧
      (∀ i c, s.governor.dieCaps[i]? = some c → u.governor.dieCaps[i]? = some (stepCap (r.hot.any (·.val == i)) (r.recovered.any (·.val == i)) 1 32 c)) ∧
      (∀ i c, s.governor.stackCaps[i]? = some c →
        u.governor.stackCaps[i]? = some (stepCap (r.hot.any (·.val == 4 + i)) (r.recovered.any (·.val == 4 + i)) 10 100 c)) ∧
      (∀ i c, s.governor.hubCaps[i]? = some c →
        u.governor.hubCaps[i]? = some (stepCap (r.hot.any (·.val == 24 + i)) (r.recovered.any (·.val == 24 + i)) 10 100 c)) ∧
      let ds := min r.scan (scanLine s.power.profile * 1000)
      let dt := r.demand.sum
      let g := divide s.power.profile pool ds dt
      pool = envelopeOf s.power.profile * 10 * u.governor.envelopeCap - s.fixedMw - min r.crypto (cryptoLine s.power.profile * 1000) - u.governor.overshoot ∧
      (let j := s.judgeNbus r.delivered
       let busy := (j.index.nbus.keys.filter fun n => j.queuedJobs n != 0).map fun n => (n, j.queuedJobs n, u.governor.stackCaps.getD (n / 64) 100)
       u.index.nbus = j.index.nbus ∧
       ∀ n, n < 1280 → u.governor.nbuRates.getD n 100 = (shareRates busy.length g.1 busy).getD n (u.governor.stackCaps.getD (n / 64) 100)) ∧
      (∀ i k, s.governor.clocks[i]? = some k → u.governor.clocks[i]? = some (bestStep (r.drawn.getD i 0) (if dt = 0 then g.2 else g.2 * r.demand.getD i 0 / dt) k
        (min (clockCeiling s.power.profile) (u.governor.dieCaps.getD i 32)))))) ∧
  (∀ (l : List (Nat × Nat × Nat)) (k gs : Nat),
    let total := (l.map (·.2.1)).sum
    let capped (x : Nat × Nat × Nat) : Bool := decide (x.2.2 * total * 375 ≤ gs * x.2.1 * 100);
    ((∀ x ∈ l, capped x = false) → shareRates (k + 1) gs l = l.map fun x => (x.1, gs * x.2.1 * 100 / (total * 375))) ∧
    ((∃ x ∈ l, capped x = true) → shareRates (k + 1) gs l = ((l.filter capped).map fun x => (x.1, x.2.2)) ++
      shareRates k (gs - ((l.filter capped).map fun x => x.2.2 * 375).sum / 100) (l.filter fun x => !capped x)) ∧
    ∀ e ∈ shareRates k gs l, ∃ x ∈ l, x.1 = e.1 ∧ e.2 ≤ x.2.2) ∧
  (∀ (s : State) (l : List (Fin 1280 × Nat)) n d,
    let u := s.judgeNbus l
    (s.judgeNbus [] = { s with index.nbus := s.index.nbus.each fun x => { x with slow := false } }) ∧
    ((u.nbu n.val).state ≠ 0 ∨ 75 < d → s.judgeNbus (l ++ [(n, d)]) = u) ∧
    ((u.nbu n.val).state = 0 → d < 40 → s.judgeNbus (l ++ [(n, d)]) = (u.updNbu n.val fun y => { y with state := 1 }).logUnit n.val) ∧
    ((u.nbu n.val).state = 0 → 40 ≤ d → d ≤ 75 →
      (u.governor.stackCaps.getD (n.val / 64) 100 < 100 → s.judgeNbus (l ++ [(n, d)]) = u) ∧
      (100 ≤ u.governor.stackCaps.getD (n.val / 64) 100 → s.judgeNbus (l ++ [(n, d)]) = u.updNbu n.val fun y => { y with slow := true }))) ∧
  (∀ drawn share last top, 8 ≤ top → let k := bestStep drawn share last top
    8 ≤ k ∧ k ≤ top ∧ (stepFits drawn share last k = true ∨ k = 8) ∧ ∀ j, k < j → j ≤ top → stepFits drawn share last j = false) ∧
  (∀ p pool ds dt, let g := divide p pool ds dt
    let f := governorFloors p
    (ds + dt ≤ pool → g = (ds, dt)) ∧
    (pool < ds + dt → min ds (pool * f.1 / 100) ≤ g.1 ∧ g.1 + g.2 = pool)) ∧
  ∀ (stack : Bool) (unit : Fin 20) (s : State),
    ((s.operating = false ∨ (stack = false ∧ 4 ≤ unit.val)) → exec (.limiterEvent stack unit) s = .next s) ∧
    (s.operating = true → ∃ u, u = ({ s with governor := { s.governor with limiterEvents := s.governor.limiterEvents + 1 } } : State).logUnit unit.val ∧
      (stack = false → unit.val < 4 →
        exec (.limiterEvent stack unit) s = .next { u with governor.clocks := s.governor.clocks.modify unit.val (· / 2) }) ∧
      (stack = true → ∃ t, exec (.limiterEvent stack unit) s = .next { u with governor.nbuRates := t } ∧
        ∀ n, t.getD n 100 = if n / 64 = unit.val then s.governor.nbuRates.getD n 100 / 2 else s.governor.nbuRates.getD n 100))

/-- PERST_N_ASSERT, PERST_N_DEASSERT, PCIE_REFCLK_LOSS, SYS_REFCLK_LOSS, FAB_REFCLK_LOSS, FAB_REFCLK_RESTORE, FLASH_PG_LOW, FLASH_PG_HIGH, THERM_SB_LOSS, I3C_STATUS,
I3C_DYNAMIC_ADDRESS_ASSIGN and MCTP_CONTROL_MESSAGE. The completion codes and command numbers of MCTP control messages are PRESUMED (log entry 12). -/
def Obligations.PinEvents : Prop :=
  ∀ (s : State),
    exec .perstNAssert s = .next ({ s with pins.perstN := false } : State).pcieReset ∧
    (s.power.season = .winter → s.pcieReset = s) ∧
    (s.power.season ≠ .winter →
      let base : State := { s with
        host.mailboxes := s.host.mailboxes.keys.map fun m => (m, s.resetBlock m)
        host.held := [], host.streams := [], host.msix := [], host.pba := [], host.glbErr := 0, host.glbPv := 0, host.lastRead := 0
        host.windows := s.host.windows.each endpointWindow
        host.flights := s.host.flights.map fun f => { f with discard := f.discard || lostPath f.path }
        host.done := s.host.done.map fun d => { d with discard := d.discard || lostPath d.path }
        power.pcieUp := false }
      s.pcieReset = base.host.flights.foldl State.endStreaming base) ∧
    (∀ f, (∀ a b c, f.work = .streaming a b c → s.endStreaming f = s.answer f b (c.getD [])) ∧ ((∀ a b c, f.work ≠ .streaming a b c) → s.endStreaming f = s)) ∧
    (∀ m, s.resetBlock m = ({ state := if s.inFlight m = 0 then .disabled else .resetting } : Mailbox)) ∧
    (s.power.season ≠ .winter → let u := s.pcieReset
      u.power.pcieUp = false ∧
      ((∀ f ∈ s.host.flights, ∀ a b c, f.work ≠ .streaming a b c) →
        u.host.streams = [] ∧ u.index = s.index ∧ u.keys = s.keys ∧ u.host.msix = [] ∧ u.host.pba = [] ∧ u.host.glbErr = 0 ∧ u.host.glbPv = 0 ∧ u.host.mailboxes = s.host.mailboxes.keys.map (fun m => (m, s.resetBlock m)) ∧
        (∀ f ∈ u.host.flights, lostPath f.path = true → f.discard = true) ∧ (∀ d ∈ u.host.done, lostPath d.path = true → d.discard = true) ∧
        ∀ e ∈ u.host.windows, e.2.enable = false)) ∧
    exec .perstNDeassert s = .next { s with pins.perstN := true, pins.pcieClk := true, power.pcieUp := s.power.pcieUp || s.operating } ∧
    (s.pins.pcieClk = false → exec .pcieRefclkLoss s = .next s) ∧
    (s.pins.pcieClk = true → let u := ({ s with pins.pcieClk := false } : State).pcieReset
      (u.operating = true → exec .pcieRefclkLoss s = .next (u.logUnit 2)) ∧ (u.operating = false → exec .pcieRefclkLoss s = .next u)) ∧
    (∀ hub : Fin 2, let u : State := { s with pins.sysClk := s.pins.sysClk &&& ~~~(1#2 <<< hub.val) }
      (s.operating = true → exec (.sysRefclkLoss hub) s = .next ((u.logUnit hub.val).powerFails 5)) ∧
      (s.operating = false → exec (.sysRefclkLoss hub) s = .next u)) ∧
    (∀ hub : Fin 2, (s.pins.fabClk.getLsbD hub = false → exec (.fabRefclkLoss hub) s = .next s) ∧
      (s.pins.fabClk.getLsbD hub = true → exec (.fabRefclkLoss hub) s = .next (((List.range 16).foldl (fun (v : State) i =>
        if (v.vievo (16 * hub + i)).state = .down then v else v.linkDown (16 * hub + i)) { s with pins.fabClk := s.pins.fabClk &&& ~~~(1#2 <<< hub.val) }).logUnit hub)) ∧
      (s.pins.fabClk.getLsbD hub = true → ∃ u, exec (.fabRefclkLoss hub) s = .next u ∧ u.pins.fabClk = s.pins.fabClk &&& ~~~(1#2 <<< hub.val) ∧
        (s.fabric.ports.length = 32 → ∀ p, p < 32 → (p / 16 = hub.val → (u.vievo p).state = .down) ∧ (p / 16 ≠ hub.val → u.vievo p = s.vievo p))) ∧
      exec (.fabRefclkRestore hub) s = .next { s with pins.fabClk := s.pins.fabClk ||| (1#2 <<< hub.val) }) ∧
    (∀ us, let u : State := { s with pins.flashPg := false, power.flashDriven := false }
      (10 ≤ us → s.power.season = .summer ∨ s.power.season = .drain → exec (.flashPgLow us) s = .next (u.powerFails 6)) ∧
      (us < 10 ∨ (s.power.season ≠ .summer ∧ s.power.season ≠ .drain) → exec (.flashPgLow us) s = .next u)) ∧
    exec .flashPgHigh s = .next { s with pins.flashPg := true, power.flashDriven := s.power.flashDriven || s.operating } ∧
    exec .thermSbLoss s = .next { s with pins.thermSb := false, power.trip := false } ∧
    (s.pins.aoUp = false → exec .i3cStatus s = .next s ∧ (∀ a, exec (.i3cDynamicAddressAssign a) s = .next s) ∧ ∀ b, exec (.mctpControlMessage b) s = .next s) ∧
    (s.pins.aoUp = true → exec .i3cStatus s = .next (s.emit (.mctp (vendorMessage 1
        (leBytes 1 (seasonCode s.power.season) ++ leBytes 1 s.power.straps.profileSel.val ++ leBytes 1 s.statusFlags ++ zeros 5)))) ∧
      (∀ a, exec (.i3cDynamicAddressAssign a) s = .next { s with power.i3cDynamic := some a.toNat }) ∧
      ∀ (i c : Byte) (data : Bytes),
        (i.getLsbD 7 = true → exec (.mctpControlMessage (0 :: i :: c :: data)) s =
          .next (({ s with power.mctpEid := (s.controlAnswer c.toNat data).2 } : State).emit (.mctp ([0x00, i &&& 0x7F, c] ++ (s.controlAnswer c.toNat data).1)))) ∧
        (∀ t : Byte, i.getLsbD 7 = false ∨ t ≠ 0 → exec (.mctpControlMessage (t :: i :: c :: data)) s = .next s) ∧
        (∀ b, b.length < 3 → exec (.mctpControlMessage b) s = .next s) ∧
        ((data.length ≠ 2 ∨ data.getD 1 0 = 0 ∨ data.getD 1 0 = 0xFF) → s.controlAnswer 1 data = ([0x02], s.power.mctpEid)) ∧
        s.controlAnswer 4 data = ([0x00, 0x01, 0xF1, 0xF3, 0xF1, 0x00], s.power.mctpEid) ∧ s.controlAnswer 5 data = ([0x00, 0x02, 0x05, 0x7F], s.power.mctpEid) ∧
        s.controlAnswer 6 data = (if data.headD 1 = 0 then ([0x00, 0xFF, 0x01, 0x00, 0x00, 0xF9, 0x4E, 0x00, 0x01], s.power.mctpEid) else ([0x02], s.power.mctpEid)) ∧
        (∀ n, n ∉ [1, 2, 4, 5, 6] → s.controlAnswer n data = ([0x05], s.power.mctpEid)) ∧
        ∀ e : Byte, e ≠ 0 → e ≠ 0xFF → ∀ o, s.controlAnswer 1 [o, e] = ([0x00, 0x00, e, 0x00], e) ∧ s.controlAnswer 2 [] = ([0x00, s.power.mctpEid, 0x00, 0x00], s.power.mctpEid))

/-- PORT_TRAINING, PORT_RETRAIN_TIMER, HELD_RETRY_TIMER, PORT_LANE_LOSS, PORT_MARGINAL, HELLO, IDENTITY, KEX, KEX_CONFIRM, LINK_REKEY and
DISCOVERY_MESSAGE_RETRY. -/
def Obligations.LinkBringUp : Prop :=
  ∀ (p : Fin 32) (s : State), s.fabric.ports.length = 32 → let x := s.vievo p
    (∀ l, (x.state = .down ∨ x.state = .training) → s.mayTrain p = true →
      (lanesUsed l = 0 → exec (.portTraining p l) s = .next (s.linkDown p)) ∧
      (lanesUsed l ≠ 0 → exec (.portTraining p l) s = .next ((s.updVievo p fun x => { x with lanes := lanesUsed l }).beginDiscovery p)) ∧
      (lanesUsed l ≠ 0 → ∃ u, exec (.portTraining p l) s = .next u ∧ (u.vievo p).state = .discoveryOnly ∧ (u.vievo p).lanes = lanesUsed l ∧
        (u.vievo p).partner = none ∧ (u.vievo p).hello = false ∧ (u.vievo p).identity = [] ∧ (u.vievo p).sentAt = s.clock ∧
        (∀ q : Fin 32, q ≠ p → u.vievo q = s.vievo q) ∧ u.index = s.index ∧ u.host = s.host ∧
        .link p 1 (discoveryMessage 1 0 (s.helloBody p)) ∈ u.out ∧ ∀ k ∈ [0, 1, 2], .link p 1 (discoveryMessage 2 k (Config.certificate k)) ∈ u.out)) ∧
    (∀ l, ((x.state ≠ .down ∧ x.state ≠ .training) ∨ s.mayTrain p = false) → exec (.portTraining p l) s = .next s) ∧
    (∀ l : BitVec 8, lanesUsed l = (if l = 0xFF then 0xFF else if l &&& 0x0F = 0x0F then 0x0F else if l &&& 0xF0 = 0xF0 then 0xF0 else 0)) ∧
    (s.mayTrain p = true → s.serving = true ∧ s.pins.fabClk.getLsbD (p / 16) = true ∧ x.idledBy = [] ∧ x.since + 10000000 ≤ s.clock) ∧
    ((s.linkDown p).vievo p = { x with
      state := .down, heldReason := 0, since := s.clock, lanes := 0, marginal := false, partner := none, partnerSerial := 0, partnerBuild := 0, hello := false
      identity := [], said := [], heard := [], kex := false, kexIn := [], kexOut := none, transcript := [], txKey := [], rxKey := [], replay := [], awaiting := false, replays := 0
      arrived := [], owed := [0, 0, 0, 0, 0, 0, 0, 0], credits := [2048, 4096, 4096, 4096, 4096, 4096, 4096, 0] }) ∧
    (s.beginDiscovery p = (s.updVievo p fun x => { x with
      state := .discoveryOnly, heldReason := 0, since := s.clock, partner := none, partnerSerial := 0, partnerBuild := 0
      hello := false, identity := [], heard := [], kex := false, kexIn := [], kexOut := none }).sendIdentity p) ∧
    (let l := [(1, 0, s.helloBody p), (2, 0, Config.certificate 0), (2, 1, Config.certificate 1), (2, 2, Config.certificate 2)]
     let v := l.foldl (fun (v : State) m => v.sendLink p m.1 m.2.1 m.2.2) s
     s.sendIdentity p = v.updVievo p fun x => { x with sentAt := v.clock, said := l.flatMap fun m => discoveryMessage m.1 m.2.1 m.2.2 }) ∧
    ((∀ n, x.kexOut = some n → s.sendKex p = (s.sendLink p 3 0 (kexBody n)).updVievo p fun x => { x with sentAt := (s.sendLink p 3 0 (kexBody n)).clock, kexOut := some n }) ∧
     (x.kexOut = none → let d := s.draw
      s.sendKex p = (d.2.sendLink p 3 0 (kexBody d.1)).updVievo p fun x => { x with sentAt := (d.2.sendLink p 3 0 (kexBody d.1)).clock, kexOut := some d.1 })) ∧
    (∀ n, x.kexOut = some n → s.sendConfirm p = s.sendLink p 4 0 (Config.hmac (Config.hkdfExpand (x.linkSecret n) (ascii "TRB-SN4 link confirm" ++ leBytes 8 Config.serial.toNat) 48) (x.newTranscript n))) ∧
    (∀ n, (x.state = .keying → x.newTranscript n = Config.sha384 (lowFirst x x.said x.heard)) ∧
      (x.state ≠ .keying → x.newTranscript n = Config.sha384 (x.transcript ++ lowFirst x (discoveryMessage 3 0 (kexBody n)) x.kexIn)) ∧
      x.linkSecret n = Config.hkdfExtract (ascii "TRB-SN4 link") (lowFirst x (hybridSecret (slice x.kexIn 8 1665)) (ownSecret n) ++ x.newTranscript n)) ∧
    (∀ own other, (Config.serial.toNat < x.partnerSerial → lowFirst x own other = own ++ other) ∧ (x.partnerSerial ≤ Config.serial.toNat → lowFirst x own other = other ++ own)) ∧
    (∀ k part body, .link p 1 (discoveryMessage k part body) ∈ (s.sendLink p k part body).out ∧ (s.sendLink p k part body).index = s.index ∧ (s.sendLink p k part body).host = s.host ∧
      ∀ q : Fin 32, q ≠ p → (s.sendLink p k part body).vievo q = s.vievo q) ∧
    (x.state = .down → s.mayTrain p = true → ∃ u, exec (.portRetrainTimer p) s = .next u ∧ u.vievo p = { x with state := .training }) ∧
    (x.state ≠ .down ∨ s.mayTrain p = false → exec (.portRetrainTimer p) s = .next s) ∧
    (x.state = .held → s.serving = true → x.since + 10000000000 ≤ s.clock → exec (.heldRetryTimer p) s = .next (s.beginDiscovery p)) ∧
    (x.state ≠ .held ∨ s.serving = false ∨ s.clock < x.since + 10000000000 → exec (.heldRetryTimer p) s = .next s) ∧
    (x.state = .down → exec (.portLaneLoss p) s = .next s ∧ exec (.portMarginal p) s = .next s) ∧
    (x.state ≠ .down → exec (.portLaneLoss p) s = .next (s.linkDown p) ∧ (x.marginal = true → exec (.portMarginal p) s = .next s) ∧
      (x.marginal = false → exec (.portMarginal p) s = .next ((s.updVievo p fun x => { x with marginal := true }).logUnit p))) ∧
    (s.takeMessage 1 [1] = none → exec .hello s = .next s) ∧ (s.takeMessage 1 [2] = none → ∀ v, exec (.identity v) s = .next s) ∧
    (s.takeMessage 1 [3] = none → exec .kex s = .next s) ∧ (s.takeMessage 1 [4] = none → ∀ v, exec (.kexConfirm v) s = .next s) ∧
    (∀ y t, s.takeMessage 1 [1] = some (y, t) → let b := y.body.drop 8
      let ok := discoveryFaultless y.body && field y.body 1 1 == 0 && b.length == 32 && decide (field b 10 1 < 4) && zeroField b 16 16
      (ok = false → exec .hello s = .next (t.partnerViolation y.port y.src)) ∧
      (ok = true → ((t.vievo y.port).state ≠ .discoveryOnly → exec .hello s = .next t) ∧
        ((t.vievo y.port).state = .discoveryOnly → exec .hello s = .next (t.updVievo y.port fun z => { z with
          hello := true, heard := if z.hello then z.heard else z.heard ++ y.body, partnerSerial := field b 0 8, partner := if bit (field b 10 1) 0 then some (field b 8 2) else none, partnerBuild := field b 12 4 })))) ∧
    (∀ y t v, s.takeMessage 1 [2] = some (y, t) → let part := field y.body 1 1
      let ok := discoveryFaultless y.body && decide (part ≤ 2) && (part != 2 || y.body.length == 1792)
      (ok = false → exec (.identity v) s = .next (t.partnerViolation y.port y.src)) ∧
      (ok = true → ((t.vievo y.port).state ≠ .discoveryOnly → exec (.identity v) s = .next t) ∧
        ((t.vievo y.port).state = .discoveryOnly → ∀ w, w = t.updVievo y.port (fun z =>
            if z.identity.contains part then z else { z with identity := z.identity ++ [part], heard := z.heard ++ y.body }) →
          ((w.vievo y.port).identity.length < 3 ∨ (w.vievo y.port).hello = false → exec (.identity v) s = .next w) ∧
          (3 ≤ (w.vievo y.port).identity.length → (w.vievo y.port).hello = true → (v = false → exec (.identity v) s = .next (w.holdPort y.port 4)) ∧
            (v = true → (∀ r, w.routeHolds y.port = some r → exec (.identity v) s = .next (w.holdPort y.port r)) ∧
              (w.routeHolds y.port = none →
                exec (.identity v) s = .next ((w.updVievo y.port fun z => { z with state := .keying, since := w.clock }).sendKex y.port))))))) ∧
    (∀ y t, s.takeMessage 1 [3] = some (y, t) →
      let ok := discoveryFaultless y.body && field y.body 1 1 == 0 && y.body.length == 1680 && zeroField y.body 1673 7
      (ok = false → exec .kex s = .next (t.partnerViolation y.port y.src)) ∧
      (ok = true → (portKeys (t.vievo y.port) = false ∨ (t.vievo y.port).kex = true → exec .kex s = .next t) ∧
        (portKeys (t.vievo y.port) = true → (t.vievo y.port).kex = false → ∀ w, w = (if (t.vievo y.port).kexOut.isSome then t else t.sendKex y.port) →
          exec .kex s = .next ((w.updVievo y.port fun z => { z with kex := true, kexIn := y.body, sentAt := w.clock }).sendConfirm y.port)))) ∧
    (∀ y t v, s.takeMessage 1 [4] = some (y, t) → let ok := discoveryFaultless y.body && field y.body 1 1 == 0 && y.body.length == 56
      (ok = false → exec (.kexConfirm v) s = .next (t.partnerViolation y.port y.src)) ∧
      (ok = true → (portKeys (t.vievo y.port) = false ∨ (t.vievo y.port).kex = false → exec (.kexConfirm v) s = .next t) ∧
        (portKeys (t.vievo y.port) = true → (t.vievo y.port).kex = true →
          exec (.kexConfirm v) s = .next (if v then t.installKeys y.port else t.holdPort y.port 4)))) ∧
    (s.electricallyFenced p = false → let z := (s.installKeys p).vievo p
      z.state = (if x.lanes = 0xFF then .up else .degraded) ∧ z.txSeq = 0 ∧ z.rxSeq = 0 ∧ z.acked = 0 ∧ z.replay = [] ∧ z.keyGen = x.keyGen + 1 ∧ z.keyedAt = s.clock ∧
      ∀ n, x.kexOut = some n → z.transcript = x.newTranscript n ∧ z.kexOut = none ∧
        z.txKey = Config.hkdfExpand (x.linkSecret n) (ascii "TRB-SN4 link tx" ++ leBytes 8 Config.serial.toNat) 36 ∧
        z.rxKey = Config.hkdfExpand (x.linkSecret n) (ascii "TRB-SN4 link tx" ++ leBytes 8 x.partnerSerial) 36) ∧
    (s.electricallyFenced p = true → ∀ n, x.partner = some n → let z := (s.installKeys p).vievo p
      z.state = .down ∧ z.idledBy = [n]) ∧
    (∀ r, ((s.holdPort p r).vievo p) = { x with state := .held, heldReason := r, since := s.clock, kex := false, kexIn := [], kexOut := none }) ∧
    ((x.state = .up ∨ x.state = .degraded) → x.kexOut = none → (2 ^ 40 ≤ x.txSeq ∨ x.keyedAt + 86400000000000 ≤ s.clock) → exec (.linkRekey p) s = .next (s.sendKex p)) ∧
    (((x.state ≠ .up ∧ x.state ≠ .degraded) ∨ x.kexOut ≠ none ∨ (x.txSeq < 2 ^ 40 ∧ s.clock < x.keyedAt + 86400000000000)) → exec (.linkRekey p) s = .next s) ∧
    (let keys := if (s.sendKex p |>.vievo p).kex then (s.sendKex p).sendConfirm p else s.sendKex p
     (s.serving = false ∨ s.clock < x.sentAt + 100000000 ∨ x.state = .down ∨ x.state = .training ∨ x.state = .held ∨ ((x.state = .up ∨ x.state = .degraded) ∧ x.kexOut = none) →
        exec (.discoveryMessageRetry p) s = .next s) ∧
     (s.serving = true → x.sentAt + 100000000 ≤ s.clock → (x.state = .discoveryOnly → exec (.discoveryMessageRetry p) s = .next (s.sendIdentity p)) ∧
      (x.state = .keying ∨ ((x.state = .up ∨ x.state = .degraded) ∧ x.kexOut ≠ none) → exec (.discoveryMessageRetry p) s = .next keys)))

/-- LINK_FRAME_RECEIVE, RETRY_REQ and LINK_ACK_TIMEOUT. -/
def Obligations.LinkFrames : Prop :=
  ∀ (p : Fin 32) (h packet : Bytes) (check : FrameCheck) (s : State), s.fabric.ports.length = 32 → let x := s.vievo p
    let kind := field h 6 1
    let t := s.countFec p check
    let y := t.vievo p
    let z := (s.acceptFrame p h).vievo p
    let fits := frameIntact check = true ∧ field h 0 6 = x.rxSeq + 1
    ((s.serving = false ∨ x.idledBy ≠ [] ∨ kind = 2) → exec (.linkFrameReceive p h packet check) s = .next s) ∧
    (s.serving = true → x.idledBy = [] → kind ≠ 2 →
      (linkUp x = true → kind ≠ 3 →
        (¬ fits → exec (.linkFrameReceive p h packet check) s = .next (t.dropFrame p)) ∧
        (fits → kind = 1 → exec (.linkFrameReceive p h packet check) s = .next ((t.acceptFrame p h).updVievo p fun x => { x with arrived := x.arrived ++ [packet] })) ∧
        (fits → kind ≠ 1 → exec (.linkFrameReceive p h packet check) s = .next (t.acceptFrame p h))) ∧
      (linkUp x = true → kind = 3 → exec (.linkFrameReceive p h packet check) s = .next t) ∧
      (x.state = .discoveryOnly ∨ x.state = .keying ∨ x.state = .held →
        (kind = 3 → frameIntact check = true →
          exec (.linkFrameReceive p h packet check) s = .next (t.updVievo p fun x => { x with arrived := x.arrived ++ [packet] })) ∧
        (kind ≠ 3 ∨ frameIntact check = false → exec (.linkFrameReceive p h packet check) s = .next t)) ∧
      (x.state = .down ∨ x.state = .training → exec (.linkFrameReceive p h packet check) s = .next s)) ∧
    ((s.serving = false ∨ linkUp x = false ∨ x.idledBy ≠ [] ∨ kind ≠ 2) → exec (.retryReq p h check) s = .next s) ∧
    (s.serving = true → linkUp x = true → x.idledBy = [] → kind = 2 →
      (¬ fits → exec (.retryReq p h check) s = .next (t.dropFrame p)) ∧
      (fits → exec (.retryReq p h check) s = .next ((t.acceptFrame p h).replayFrom p (field h 8 6)))) ∧
    (y = { x with correctedCw := y.correctedCw, uncorrectableCw := y.uncorrectableCw } ∧
      (check = .uncorrectable → y.uncorrectableCw = min (x.uncorrectableCw + 1) 0xFFFFFFFF) ∧ (check = .corrected → s.clock ∈ y.correctedCw) ∧
      (check ≠ .corrected → check ≠ .uncorrectable → t = s)) ∧
    (z.rxSeq = x.rxSeq + 1 ∧ z.awaiting = false ∧ z.acked = max x.acked (field h 8 6) ∧ z.txSeq = x.txSeq ∧ z.arrived = x.arrived ∧ z.queues = x.queues ∧
      (∀ e ∈ z.replay, field h 8 6 < e.1 ∧ e ∈ x.replay) ∧ (∀ e ∈ x.replay, field h 8 6 < e.1 → e ∈ z.replay) ∧
      (x.credits.length = 8 → ∀ c, c < 8 → z.credits.getD c 0 = x.credits.getD c 0 + (if c = field h 14 2 % 8 then field h 14 2 / 8 else 0)) ∧
      (field h 8 6 ≤ x.acked → z.replays = x.replays ∧ z.ackSince = x.ackSince) ∧ (x.acked < field h 8 6 → z.replays = 0 ∧ z.ackSince = s.clock)) ∧
    (x.awaiting = true → s.dropFrame p = s) ∧
    (x.awaiting = false → let q := x.txSeq + 1
      let b := sealedFrame x.txKey q (linkHeader q 2 0 x.rxSeq x.creditBack.2) []
      (s.dropFrame p).vievo p = { x with
        awaiting := true, txSeq := q, ackSent := x.rxSeq, owed := x.owed.set x.creditBack.1 (x.owed.getD x.creditBack.1 0 - x.creditBack.2 / 8)
        replay := x.replay.put q { kind := 2, bytes := b }, ackSince := if x.replay.isEmpty then s.clock else x.ackSince } ∧
      (s.dropFrame p).out = s.out ++ [.frame p q 2 false b]) ∧
    (∀ ack, let l := x.replay.keys.filter fun q => ack < q
      (s.replayFrom p ack).out = s.out ++ (l.map fun q => let f := (x.replay.find q).getD { kind := 0, bytes := [] }; .frame p q f.kind true f.bytes) ∧
      (s.replayFrom p ack).vievo p =
        { x with retries := min (x.retries + l.length) 0xFFFFFFFF, replays := if l.isEmpty then x.replays else x.replays + 1 }) ∧
    ((linkUp x = true → x.replay ≠ [] → (8 ≤ x.replays ∨ x.ackSince + 1000000 ≤ s.clock) → exec (.linkAckTimeout p) s = .next (s.linkDown p)) ∧
      ((linkUp x = false ∨ x.replay = [] ∨ (x.replays < 8 ∧ s.clock < x.ackSince + 1000000)) → exec (.linkAckTimeout p) s = .next s))

/-- MESSAGE_RECEIVE, REASSEMBLY_TIMEOUT, PROTOCOL_VIOLATION_HOLD, PACKET_FORWARD, PACKET_AGED and EGRESS_TURN. -/
def Obligations.Packets : Prop :=
  ∀ (p : Fin 32) (s : State), s.fabric.ports.length = 32 →
    ((s.vievo p).arrived = [] ↔ s.takePacket p = none) ∧
    (∀ b rest, (s.vievo p).arrived = b :: rest → s.takePacket p = some (b, s.updVievo p fun x => { x with
      arrived := rest, owed := if linkUp x then x.owed.modify (field b 2 1) (· + creditUnits b.length) else x.owed })) ∧
    (s.takePacket p = none ∨ s.serving = false → exec (.messageReceive p) s = .next s ∧ exec (.packetForward p) s = .next s) ∧
    (∀ b t, s.takePacket p = some (b, t) → s.serving = true → let x := readPacket b
      (packetCrcHolds b = false → exec (.packetForward p) s = .next s ∧ ∃ u, exec (.messageReceive p) s = .next u ∧ u.fabric.lost = min (s.fabric.lost + 1) 0xFFFFFFFF ∧
        u.fabric.inbox = s.fabric.inbox ∧ u.assembly x.src x.cls = none ∧ ∃ v : State, u = v.logKind 9 p) ∧
      (packetCrcHolds b = true → packetFaultless b = false → exec (.packetForward p) s = .next s ∧ exec (.messageReceive p) s = .next (t.partnerViolation p x.src)) ∧
      (packetCrcHolds b = true → packetFaultless b = true → s.forMe x = true → exec (.packetForward p) s = .next s ∧
        (t.fenceDrops x = true → exec (.messageReceive p) s = .next t) ∧
        (t.fenceDrops x = false → t.pkeyAccepts x = false → exec (.messageReceive p) s = .next t.countDrop) ∧
        (t.fenceDrops x = false → t.pkeyAccepts x = true → exec (.messageReceive p) s = .next (t.assemble p x))) ∧
      (packetCrcHolds b = true → packetFaultless b = true → s.forMe x = false → exec (.messageReceive p) s = .next s ∧
        (t.fenceDrops x = true → exec (.packetForward p) s = .next t) ∧
        (t.fenceDrops x = false → t.pkeyTransit x = false → exec (.packetForward p) s = .next t.countDrop) ∧
        (t.fenceDrops x = false → t.pkeyTransit x = true →
          (x.hops ≤ 1 → exec (.packetForward p) s = .next (t.countDrop.unreachable x 2)) ∧
          (1 < x.hops → t.flowPort x.src x.dst x.cls = none → exec (.packetForward p) s = .next (t.countDrop.unreachable x 1)) ∧
          (1 < x.hops → ∀ q, t.flowPort x.src x.dst x.cls = some q →
            exec (.packetForward p) s = .next ((t.enqueue q { x with hops := x.hops - 1 }).emit (.forward q x.src x.dst x.cls (x.hops - 1))))))) ∧
    (∀ x : FabPacket, s.assembly x.src x.cls = none → x.first = true → s.fabric.reassembly.length < 65536 → s.assemblyBytes + x.msgLen ≤ 268435456 →
      (x.last = true → x.payload.length = x.msgLen → (s.assemble p x).fabric.inbox =
          s.fabric.inbox ++ [{ type := x.type, cls := x.cls, src := x.src, tenant := x.tenant, port := p, body := x.payload }] ∧
        (s.assemble p x).fabric.reassembly = s.fabric.reassembly ∧ (s.assemble p x).fabric.lost = s.fabric.lost) ∧
      (x.last = true → x.payload.length < x.msgLen → s.assemble p x = s.countLost) ∧ (x.msgLen < x.payload.length → s.assemble p x = s.countLost) ∧
      (x.last = false → x.payload.length ≤ x.msgLen → ∃ r, (s.assemble p x).fabric.reassembly = s.fabric.reassembly ++ [r] ∧ r.got = x.payload ∧ r.last = s.clock ∧
        r.msgId = x.msgId)) ∧
    (∀ x : FabPacket, s.assembly x.src x.cls = none → x.first = true → (65536 ≤ s.fabric.reassembly.length ∨ 268435456 < s.assemblyBytes + x.msgLen) →
      s.assemble p x = s.unreachable x 4) ∧
    (∀ x : FabPacket, x.first = true → ∀ r, s.assembly x.src x.cls = some r → s.assemble p x = (s.dropAssembly x.src x.cls).countLost.assemble p x) ∧
    (∀ x : FabPacket, x.first = false → (s.assembly x.src x.cls = none → s.assemble p x = s) ∧
      (∀ r, s.assembly x.src x.cls = some r → r.msgId = x.msgId → r.type = x.type → (r.got.length ≠ x.offset ∨ r.msgLen ≠ x.msgLen) →
        s.assemble p x = (s.dropAssembly x.src x.cls).countLost) ∧
      (∀ r, s.assembly x.src x.cls = some r → (r.msgId ≠ x.msgId ∨ r.type ≠ x.type) → s.assemble p x = s) ∧
      (∀ r, s.assembly x.src x.cls = some r → r.msgId = x.msgId → r.type = x.type → r.got.length = x.offset → r.msgLen = x.msgLen →
        (x.last = true → r.got.length + x.payload.length = r.msgLen → (s.assemble p x).fabric.inbox =
          s.fabric.inbox ++ [{ type := r.type, cls := r.cls, src := r.src, tenant := r.tenant, port := p, body := r.got ++ x.payload }]) ∧
        (r.msgLen < r.got.length + x.payload.length ∨ (x.last = true ∧ r.got.length + x.payload.length < r.msgLen) →
          s.assemble p x = (s.dropAssembly x.src x.cls).countLost) ∧
        (x.last = false → r.got.length + x.payload.length ≤ r.msgLen → (s.assemble p x).fabric.reassembly =
          (s.dropAssembly x.src x.cls).fabric.reassembly ++ [{ r with got := r.got ++ x.payload, last := s.clock }]))) ∧
    (∀ (q : Nat) (x : FabPacket),
      ((s.fabric.held.any (sameFlow x) || s.flowElsewhere q x) = true → s.enqueue q x = { s with fabric.held := s.fabric.held ++ [x] }) ∧
      ((s.fabric.held.any (sameFlow x) || s.flowElsewhere q x) = false →
        s.enqueue q x = s.updVievo q fun y => { y with queues := y.queues.put x.cls (y.queues.getD x.cls [] ++ [{ packet := x, since := s.clock }]) })) ∧
    (∀ (x : FabPacket) (r : Nat), let body := leBytes 4 x.msgId ++ leBytes 2 x.dst ++ leBytes 1 r ++ leBytes 1 x.type ++ zeros 8
      let recent := s.fabric.unreachSent.filter fun e => s.clock < e.2 + 1000000000;
      (x.src = s.nodeId → s.unreachable x r =
        { s with fabric.inbox := s.fabric.inbox ++ [{ type := 3, cls := 0, src := s.nodeId, tenant := 0, port := 0, body := body }] }) ∧
      (x.src ≠ s.nodeId → (1000 ≤ (recent.filter (·.1 == x.src)).length → s.unreachable x r = s) ∧
        ((recent.filter (·.1 == x.src)).length < 1000 →
          s.unreachable x r = ({ s with fabric.unreachSent := (x.src, s.clock) :: recent } : State).post x.src 3 0 0 true body))) ∧
    (∀ (src : Half) (c : Fin 7), (s.assembly src.toNat c = none → exec (.reassemblyTimeout src c) s = .next s) ∧
      (∀ r, s.assembly src.toNat c = some r → (s.clock < r.last + 1000000 → exec (.reassemblyTimeout src c) s = .next s) ∧
        (r.last + 1000000 ≤ s.clock → ∃ u, exec (.reassemblyTimeout src c) s = .next u ∧ u.assembly src.toNat c = none ∧
          u.fabric.lost = min (s.fabric.lost + 1) 0xFFFFFFFF))) ∧
    (let x := s.vievo p; let recent := x.violations.filter fun t => s.clock < t + 1000000000
      (10000 ≤ recent.length → x.state ≠ .down → x.state ≠ .held → ∃ u, exec (.protocolViolationHold p) s = .next u ∧
        u.vievo p = { x with state := .held, heldReason := 5, since := s.clock, kex := false, kexIn := [], kexOut := none, violations := [] }) ∧
      ((recent.length < 10000 ∨ x.state = .down ∨ x.state = .held) → exec (.protocolViolationHold p) s = .next s)) ∧
    (∀ c : Fin 7, ((s.vievo p).queues.getD c [] = [] → exec (.packetAged p c) s = .next s) ∧
      (∀ q rest, (s.vievo p).queues.getD c [] = q :: rest → (s.clock < q.since + 2000000 → exec (.packetAged p c) s = .next s) ∧
        (q.since + 2000000 ≤ s.clock → exec (.packetAged p c) s =
          .next (((s.updVievo p fun x => { x with queues := x.queues.put c rest }).countDrop.unreachable q.packet 3).releaseHeld)))) ∧
    ((s.serving = false ∨ portOpen (s.vievo p) = false) → exec (.egressTurn p) s = .next s) ∧
    (s.serving = true → portOpen (s.vievo p) = true → let x := s.vievo p
      ∃ y k0 k i, exec (.egressTurn p) s = .next (((s.updVievo p fun _ => y).emitFrames p x.txSeq).releaseHeld) ∧
        (i ≤ 1 ∧ (i = 1 ↔ k0 = 0 ∧ k = 0 ∧ (x.ackSent < x.rxSeq || x.owed.any (0 < ·)) = true)) ∧
        y.txSeq = x.txSeq + k0 + k + i ∧ y.rxSeq = x.rxSeq ∧ y.arrived = x.arrived ∧ y.gates = x.gates ∧
        (x.turn ≠ 0 → y.queues.getD 0 [] = (x.queues.getD 0 []).drop k0 ∧ y.queues.getD x.turn [] = (x.queues.getD x.turn []).drop k) ∧
        (x.turn = 0 → y.queues.getD 0 [] = (x.queues.getD 0 []).drop (k0 + k)) ∧
        (∀ c, c ≠ 0 → c ≠ x.turn → y.queues.getD c [] = x.queues.getD c [] ∧ y.deficits.getD c 0 = x.deficits.getD c 0) ∧
        (x.turn ≠ 0 → openLeft x.turn s.fabTime x.gates = 0 → k = 0) ∧
        (openLeft x.turn s.fabTime x.gates ≠ 0 → y.deficits.getD x.turn 0 ≤ 2 * quantumOf x.gates x.turn) ∧
        (∀ q, q ≤ x.txSeq → y.replay.find q = x.replay.find q) ∧ (∀ q, x.txSeq < q → q ≤ y.txSeq → ∃ b, y.replay.find q = some ⟨1 - i, b⟩) ∧
        (x.turn < 6 → y.turn = x.turn + 1) ∧ (x.turn = 6 → y.turn ≤ 1)) ∧
    (∀ n, s.emitFrames p n = (List.range ((s.vievo p).txSeq - n)).foldl (fun t i =>
      let f := ((s.vievo p).replay.find (n + 1 + i)).getD { kind := 0, bytes := [] }; t.emit (.frame p (n + 1 + i) f.kind false f.bytes)) s)

/-- SPDM_GET_VERSION to SPDM_UNSUPPORTED_REQUEST and JTAG_INSTRUCTION. The message and error codes are those of the SPDM standard (PRESUMED, log entry 12). -/
def Obligations.Spdm : Prop :=
  ∀ (tr : Fin 3) (s : State),
    (s.spdmReachable tr = false → (exec (.spdmGetVersion tr) s = .next s ∧ (∀ w, exec (.spdmGetCapabilities tr w) s = .next s) ∧
      (∀ b, exec (.spdmNegotiateAlgorithms tr b) s = .next s) ∧ exec (.spdmGetDigests tr) s = .next s ∧ (∀ a b c, exec (.spdmGetCertificate tr a b c) s = .next s) ∧
      (∀ a b, exec (.spdmChallenge tr a b) s = .next s) ∧ (∀ a b c, exec (.spdmGetMeasurements tr a b c) s = .next s) ∧
      (∀ a b, exec (.spdmKeyExchange tr a b) s = .next s) ∧ (∀ a b, exec (.spdmFinish tr a b) s = .next s) ∧ exec (.spdmHeartbeat tr) s = .next s ∧
      (∀ a, exec (.spdmKeyUpdate tr a) s = .next s) ∧ exec (.spdmEndSession tr) s = .next s ∧ (∀ a b c, exec (.spdmSetCertificate tr a b c) s = .next s) ∧
      (∀ a b c, exec (.spdmChunkSend tr a b c) s = .next s) ∧ (∀ a, exec (.spdmChunkGet tr a) s = .next s) ∧ ∀ a, exec (.spdmUnsupportedRequest tr a) s = .next s)) ∧
    (s.spdmReachable tr = true →
      exec (.spdmGetVersion tr) s = .next ((s.setPhase tr .versioned).emit (.spdm tr [0x10, 0x04, 0, 0, 0, 1, 0x00, 0x13])) ∧
      (∀ w, (s.spdmPhase tr = .start → exec (.spdmGetCapabilities tr w) s = .next (s.spdmError tr errUnexpected)) ∧
        (s.spdmPhase tr ≠ .start → exec (.spdmGetCapabilities tr w) s = .next ((s.setPhase tr .capable).spdmSend tr 0x61 0 0 (zeros 4 ++ leBytes 4 spdmCapabilities)))) ∧
      (s.spdmPhase tr = .start ∨ s.spdmPhase tr = .versioned → ∀ b, exec (.spdmNegotiateAlgorithms tr b) s = .next (s.spdmError tr errUnexpected)) ∧
      (s.spdmPhase tr = .capable ∨ s.spdmPhase tr = .negotiated →
        exec (.spdmNegotiateAlgorithms tr true) s = .next ((s.setPhase tr .negotiated).spdmSend tr 0x63 0 0 [0x80, 0x02, 0x10, 0x02, 0x01]) ∧
        exec (.spdmNegotiateAlgorithms tr false) s = .next (s.spdmError tr errInvalid)) ∧
      (∀ c, exec (.spdmUnsupportedRequest tr c) s = .next (s.emit (.spdm tr [0x13, 0x7F, errUnsupported, c]))) ∧
      (s.spdmPhase tr ≠ .negotiated → let e : Host.Outcome State Fault Refusal := .next (s.spdmError tr errUnexpected)
        exec (.spdmGetDigests tr) s = e ∧ (∀ a b c, exec (.spdmGetCertificate tr a b c) s = e) ∧ (∀ a b, exec (.spdmChallenge tr a b) s = e) ∧
        (∀ a b c, exec (.spdmGetMeasurements tr a b c) s = e) ∧ (∀ a b, exec (.spdmKeyExchange tr a b) s = e) ∧ (∀ a b c, exec (.spdmSetCertificate tr a b c) s = e) ∧
        (∀ a b c, exec (.spdmChunkSend tr a b c) s = e) ∧ ∀ a, exec (.spdmChunkGet tr a) s = e) ∧
      (s.spdmPhase tr = .negotiated →
        (∃ (body : Bytes) (m : Byte), exec (.spdmGetDigests tr) s = .next (s.spdmSend tr 0x01 0 m body) ∧
          (s.keys.anchor = none → m = 1 ∧ body = Config.sha384 Config.spdmChain) ∧
          (∀ a, s.keys.anchor = some a → m = 3 ∧ body = Config.sha384 Config.spdmChain ++ Config.sha384 a)) ∧
        (∀ slot off len, (∀ c, s.slotChain slot.toNat = some c → let part := slice c off len
            exec (.spdmGetCertificate tr slot off len) s = .next (s.spdmSend tr 0x02 slot 0 (leBytes 2 part.length ++ leBytes 2 (c.length - off - part.length) ++ part))) ∧
          (s.slotChain slot.toNat = none → exec (.spdmGetCertificate tr slot off len) s = .next (s.spdmError tr errInvalid) ∧
            ∀ n, exec (.spdmChallenge tr slot n) s = .next (s.spdmError tr errInvalid)) ∧
          (∀ c n, s.slotChain slot.toNat = some c → let u : State := { s with keys.spdmDraws := s.keys.spdmDraws + 1 }
            let body := Config.sha384 c ++ Config.spdmBytes s.keys.spdmDraws 0 ++ u.measDigest
            exec (.spdmChallenge tr slot n) s = .next (u.spdmSend tr 0x03 slot 1 (body ++ Config.akSign s.keys.spdmDraws (n ++ body))))) ∧
        (∀ i n, exec (.spdmGetMeasurements tr i false n) s = .next (s.spdmError tr errUnsupported)) ∧
        (∀ (i : Byte) n, 5 < i.toNat → i.toNat ≠ 0xFF → exec (.spdmGetMeasurements tr i true n) s = .next (s.spdmError tr errInvalid)) ∧
        (∀ (i : Byte) n, i.toNat ≤ 5 ∨ i.toNat = 0xFF → let u : State := { s with keys.spdmDraws := s.keys.spdmDraws + 1 }
          let blocks := if i.toNat = 0 then [] else if i.toNat = 0xFF then u.measurementRecord else Config.measurementForm i.toNat (u.measurement i.toNat)
          let body := leBytes 1 (if i.toNat = 0 then 0 else if i.toNat = 0xFF then 5 else 1) ++ leBytes 3 blocks.length ++ blocks ++ Config.spdmBytes s.keys.spdmDraws 0
          exec (.spdmGetMeasurements tr i true n) s = .next (u.spdmSend tr 0x60 (if i.toNat = 0 then 5 else 0) 0
            (body ++ Config.akSign s.keys.spdmDraws (n ++ body)))) ∧
        (∀ slot req, (s.mgmtOpen = true → exec (.spdmKeyExchange tr slot req) s = .next (s.spdmError tr errBusy)) ∧
          (s.mgmtOpen = false → slot ≠ 0 → exec (.spdmKeyExchange tr slot req) s = .next (s.spdmError tr errInvalid)) ∧
          (s.mgmtOpen = false → slot = 0 → let n := s.keys.spdmDraws
            let body := leBytes 2 (n + 1) ++ [1, 0] ++ Config.spdmBytes n 0 ++ Config.spdmBytes n 1
            exec (.spdmKeyExchange tr slot req) s = .next (({ s with keys.spdmDraws := n + 1, keys.mgmt := .handshake (BitVec.ofNat 16 (n + 1) ++ req) tr } : State).spdmSend tr 0x64 0 0
              (body ++ Config.akSign n body)))) ∧
        (∀ slot ins chain, let mine := ∃ id, s.keys.mgmt = .open id tr ∧ ins = true
          (slot ≠ 1 → exec (.spdmSetCertificate tr slot ins chain) s = .next (s.spdmError tr errInvalid)) ∧
          (slot = 1 → (mine ∨ (tr.val = 0 ∧ s.keys.anchor = none)) →
            exec (.spdmSetCertificate tr slot ins chain) s = .next (({ s with keys.anchor := some chain } : State).spdmSend tr 0x6E slot 0 [])) ∧
          (slot = 1 → ¬ mine → (tr.val ≠ 0 ∨ s.keys.anchor ≠ none) → exec (.spdmSetCertificate tr slot ins chain) s = .next (s.spdmError tr errUnexpected))) ∧
        (∀ last chunk, exec (.spdmChunkSend tr 0 last chunk) s =
          .next (({ s with keys.chunksIn := if last then s.keys.chunksIn.del tr else s.keys.chunksIn.put tr (chunk, 1) } : State).spdmSend tr 0x05 0 1 (leBytes 2 0))) ∧
        (∀ seq last chunk, seq ≠ 0 → let i := s.keys.chunksIn.getD tr ([], 0); seq = i.2 → exec (.spdmChunkSend tr seq last chunk) s =
          .next (({ s with keys.chunksIn := if last then s.keys.chunksIn.del tr else s.keys.chunksIn.put tr (i.1 ++ chunk, i.2 + 1) } : State).spdmSend tr 0x05 0 1 (leBytes 2 seq))) ∧
        (∀ seq last chunk, seq ≠ 0 → seq ≠ (s.keys.chunksIn.getD tr ([], 0)).2 →
          exec (.spdmChunkSend tr seq last chunk) s = .next (({ s with keys.chunksIn := s.keys.chunksIn.del tr } : State).spdmError tr errInvalid)) ∧
        (s.keys.chunksOut.find tr = none → ∀ n, exec (.spdmChunkGet tr n) s = .next (s.spdmError tr errUnexpected)) ∧
        (∀ b n, s.keys.chunksOut.find tr = some (b, n) → (∀ m, m ≠ n → exec (.spdmChunkGet tr m) s = .next (s.spdmError tr errInvalid)) ∧
          let part := slice b (n * 1008) 1008
          (b.length ≤ (n + 1) * 1008 → exec (.spdmChunkGet tr n) s = .next (({ s with keys.chunksOut := s.keys.chunksOut.del tr } : State).emit (.spdm tr ([0x13, 0x06, 1, 1] ++ leBytes 2 n ++ leBytes 4 part.length ++ part)))) ∧
            ((n + 1) * 1008 < b.length →
              exec (.spdmChunkGet tr n) s = .next (({ s with keys.chunksOut := s.keys.chunksOut.put tr (b, n + 1) } : State).emit (.spdm tr ([0x13, 0x06, 0, 1] ++ leBytes 2 n ++ leBytes 4 part.length ++ part)))))) ∧
      (∀ a v id, s.keys.mgmt = .handshake id tr →
        (a = true → v = true → s.keys.anchor ≠ none → exec (.spdmFinish tr a v) s = .next (({ s with
          keys.mgmt := .open id tr, keys.mgmtHigh := 0, keys.mgmtSeen := [], keys.mgmtCounter := 1, keys.mgmtUpdates := (0, 0), keys.lastHeartbeat := s.clock
          keys.mgmtKeys := (Config.spdmKey s.keys.spdmDraws false, Config.spdmKey s.keys.spdmDraws true) } : State).spdmSend tr 0x65 0 0 [])) ∧
        (a = false ∨ v = false ∨ s.keys.anchor = none → exec (.spdmFinish tr a v) s = .next (s.closeMgmt.spdmError tr errDecrypt))) ∧
      ((∀ id, s.keys.mgmt ≠ .handshake id tr) → ∀ a v, exec (.spdmFinish tr a v) s = .next (s.spdmError tr errUnexpected)) ∧
      ((∀ id, s.keys.mgmt ≠ .open id tr) → exec (.spdmHeartbeat tr) s = .next (s.spdmError tr errUnexpected) ∧
        exec (.spdmEndSession tr) s = .next (s.spdmError tr errUnexpected) ∧ ∀ o, exec (.spdmKeyUpdate tr o) s = .next (s.spdmError tr errUnexpected)) ∧
      (∀ id, s.keys.mgmt = .open id tr →
        exec (.spdmHeartbeat tr) s = .next (({ s with keys.lastHeartbeat := s.clock } : State).spdmSend tr 0x68 0 0 []) ∧
        exec (.spdmEndSession tr) s = .next (s.spdmSend tr 0x6C 0 0 []).closeMgmt ∧
        exec (.spdmKeyUpdate tr 1) s = .next (({ s with
          keys.mgmtUpdates := (s.keys.mgmtUpdates.1 + 1, s.keys.mgmtUpdates.2), keys.mgmtKeys := (Config.spdmUpdate s.keys.mgmtKeys.1, s.keys.mgmtKeys.2) } : State).spdmSend tr 0x69 1 0 []) ∧
        exec (.spdmKeyUpdate tr 2) s = .next (({ s with
          keys.mgmtUpdates := (s.keys.mgmtUpdates.1 + 1, s.keys.mgmtUpdates.2 + 1), keys.mgmtKeys := (Config.spdmUpdate s.keys.mgmtKeys.1, Config.spdmUpdate s.keys.mgmtKeys.2) } : State).spdmSend tr 0x69 2 0 []) ∧
        exec (.spdmKeyUpdate tr 3) s = .next (s.spdmSend tr 0x69 3 0 []) ∧
        ∀ o, o ≠ 1 → o ≠ 2 → o ≠ 3 → exec (.spdmKeyUpdate tr o) s = .next (s.spdmError tr errInvalid))) ∧
    (s.spdmReachable 0 = true ↔ s.power.season ≠ .winter ∧ s.power.season ≠ .heldInReset) ∧
    (tr ≠ 0 → (s.spdmReachable tr = true ↔ s.serving = true ∧ (s.host.ports.getD (tr - 1) {}).connected = true)) ∧
    (∀ code p1 p2 body, let msg : Bytes := [0x13, code, p1, p2] ++ body;
      (msg.length ≤ 1024 → s.spdmSend tr code p1 p2 body = s.emit (.spdm tr msg)) ∧
      (1024 < msg.length → s.spdmSend tr code p1 p2 body = ({ s with keys.chunksOut := s.keys.chunksOut.put tr (msg, 0) } : State).emit (.spdm tr [0x13, 0x7F, 0x0F, 0, 1]))) ∧
    s.measDigest = Config.sha384 ([1, 2, 3, 4, 5].flatMap fun i => Config.measurementForm i (s.measurement i)) ∧
    (∀ e, s.spdmError tr e = s.emit (.spdm tr [0x13, 0x7F, e, 0])) ∧
    (s.closeMgmt = { s with keys.mgmt := .closed, keys.mgmtKeys := ([], []) }) ∧
    s.slotChain 0 = some Config.spdmChain ∧ s.slotChain 1 = s.keys.anchor ∧ (∀ n, 2 ≤ n → s.slotChain n = none) ∧
    (∀ ir, exec (.jtagInstruction ir) s =
      .next (({ s with keys.jtag := jtagNumber (jtagAccepted s.keys.imported ir) } : State).emit (.jtag (jtagNumber (jtagAccepted s.keys.imported ir))))) ∧
    (∀ ir, ir ≠ .bypass → ir ≠ .idcode → ir ≠ .samplePreload → jtagAccepted true ir = .bypass) ∧
    jtagAccepted false .extest = .extest ∧ jtagAccepted false .ieee1149_6 = .ieee1149_6 ∧
    (∀ b, jtagAccepted b .idcode = .idcode ∧ jtagAccepted b .samplePreload = .samplePreload ∧ jtagAccepted b .bypass = .bypass ∧ jtagAccepted b .other = .bypass)

/-- MGMT_CONNECTION_OPEN, MGMT_CONNECTION_CLOSE, MGMT_PORT_LINK_LOSS, MGMT_RECORD_PACKET, MGMT_RECORD_SPDM, MGMT_KEEPALIVE, MGMT_CONNECTION_TIMEOUT and
MGMT_RESPONSE_DISCARD. -/
def Obligations.ManagementPorts : Prop :=
  ∀ (p : Fin 2) (s : State), s.host.ports.length = 2 → let x := s.port p
    (s.portUp p = (s.power.straps.mgmtEn.getLsbD p && s.serving)) ∧
    (s.portUp p = true → x.connected = false → ∃ u, exec (.mgmtConnectionOpen p) s = .next u ∧ u.port p = { link := true, connected := true, lastRx := s.clock, lastTx := s.clock } ∧
      (∀ q : Fin 2, q ≠ p → u.port q = s.port q) ∧ u.out = s.out) ∧
    ((s.portUp p = false ∨ x.connected = true) → exec (.mgmtConnectionOpen p) s = .next s) ∧
    (∃ u, exec (.mgmtConnectionClose p) s = .next u ∧ u.port p = { x with connected := false } ∧ (∀ q : Fin 2, q ≠ p → u.port q = s.port q) ∧
      u.host.mailboxes = s.host.mailboxes ∧ u.host.flights = s.host.flights ∧ u.host.done = s.host.done) ∧
    (x.link = false → exec (.mgmtPortLinkLoss p) s = .next s) ∧
    (x.link = true → ∃ u : State, exec (.mgmtPortLinkLoss p) s = .next (u.logUnit p) ∧ u.port p = { x with link := false, connected := false } ∧
      (∀ q : Fin 2, q ≠ p → u.port q = s.port q) ∧ u.keys = s.keys ∧ u.index = s.index ∧ u.host.mailboxes = s.host.mailboxes) ∧
    (x.connected = true → x.lastRx + 5000000000 ≤ s.clock → exec (.mgmtConnectionTimeout p) s = exec (.mgmtConnectionClose p) s) ∧
    ((x.connected = false ∨ s.clock < x.lastRx + 5000000000) → exec (.mgmtConnectionTimeout p) s = .next s) ∧
    ((s.portUp p = false ∨ x.connected = false) → (∀ n k, exec (.mgmtRecordPacket p n k) s = .next s) ∧ (∀ n b, exec (.mgmtRecordSpdm p n b) s = .next s) ∧
      ∀ b, exec (.mgmtKeepalive p b) s = .next s) ∧
    (s.portUp p = true → x.connected = true → ∀ r, r = s.updPort p (fun x => { x with lastRx := s.clock }) →
      (∀ n b, (n ≠ b.length → exec (.mgmtRecordSpdm p n b) s = .next (s.breakFraming p)) ∧ (n = b.length → exec (.mgmtRecordSpdm p n b) s = .next r)) ∧
      exec (.mgmtKeepalive p true) s = .next r ∧
      (x.lastTx + 1000000000 ≤ s.clock → exec (.mgmtKeepalive p false) s = .next ((s.updPort p fun x => { x with lastTx := s.clock }).emit (.keepalive p))) ∧
      (s.clock < x.lastTx + 1000000000 → exec (.mgmtKeepalive p false) s = .next s) ∧
      (∀ n k, let h := parseHeader k.header
        ((16777216 < h.length.toNat ∨ n ≠ 64 * packetSlots h.length.toNat) → exec (.mgmtRecordPacket p n k) s = .next (r.breakFraming p)) ∧
        (h.length.toNat ≤ 16777216 → n = 64 * packetSlots h.length.toNat →
          (headerCrc k.header ≠ h.crc → exec (.mgmtRecordPacket p n k) s = .next (r.refuse 4096 (.port p) { h with opcode := 0 } (violation 0x14 .hdrCrc))) ∧
          (headerCrc k.header = h.crc → (∀ u, r.submit 4096 (.port p) h k s.clock = .taken u → exec (.mgmtRecordPacket p n k) s = .next u) ∧
            (∀ u, r.submit 4096 (.port p) h k s.clock = .wait u → exec (.mgmtRecordPacket p n k) s = .next u))))) ∧
    (∀ u, u = s.breakFraming p → u = ((s.closePort p).mbxViolation 4096 .incompletePacket).logViolation moduleKey .incompletePacket ∧ (u.port p).connected = false ∧ (u.mbx 4096).state = (s.mbx 4096).state ∧ (u.mbx 4096).pv = true ∧ (u.mbx 4096).lastPv = some .incompletePacket ∧
      (u.mbx 4096).pvCount = satSucc (s.mbx 4096).pvCount) ∧
    (s.portFor p = if x.connected then some p.val else if (s.port (1 - p.val)).connected then some (1 - p.val) else none) ∧
    (∀ d, (s.host.done.find? fun d => d.path == .port p && (s.portFor p).isNone && decide (d.since + 60000000000 ≤ s.clock)) = d →
      (d = none → exec (.mgmtResponseDiscard p) s = .next s) ∧ ∀ e, d = some e → exec (.mgmtResponseDiscard p) s = .next (s.discardResponse e)) ∧
    (∀ e v, v = (if statusIsLogged e.response.status then (s.dropDone e).charge (who e.mbx) 0xA0 1 else s.dropDone e) → s.discardResponse e =
      (v.log { seq := 0, time := 0, kind := 1, status := statusCode e.response.status, tenant := who e.mbx, opcode := e.hdr.opcode.toNat, tag := e.hdr.tag, detail := 1 }).settle)

/-- What the module holds right after reset. -/
def Obligations.ResetValues : Prop :=
  let s := State.reset
  s.power.season = .spring ∧ s.power.profile = strapProfile s.power.straps.profileSel ∧ s.power.rates = s.power.profile ∧
    (∀ m : Fin 4097, (s.mbx m).state = .disabled ∧ (s.mbx m).cfg = 0 ∧ (s.mbx m).pvCount = 0 ∧ s.inFlight m = 0) ∧
    s.host.glbErr = 0 ∧ s.host.streams = [] ∧ (∀ w : Fin 64, (s.win w).bound = none ∧ (s.win w).enable = false) ∧
    s.keys.trks = [] ∧ s.keys.sessions = [] ∧ s.mgmtOpen = false ∧ s.keys.imported = false ∧ s.index.collections = [] ∧ s.tables.tables = [] ∧
    s.comp.compositions = [] ∧ s.fabric.route = none ∧ s.models.placement = none ∧ s.fabric.ports.length = 32 ∧
    (∀ x ∈ s.fabric.ports, x.state = .down ∧ x.gates = resetGates ∧ x.replay = [] ∧ x.idledBy = []) ∧ s.fabric.time = .acquiring ∧ s.host.flights = [] ∧ s.host.done = []

/-- What a reset leaves. FLUSH_END is the reset that follows a flush. -/
def Obligations.WhatAResetLeaves : Prop :=
  ∀ s : State, (s.power.season = .powerLoss → s.power.flushed = true → exec .flushEnd s = .next s.afterReset) ∧
    let u := s.afterReset
    u.power.season = .heldInReset ∧ u.keys.trks = [] ∧ u.keys.sessions = [] ∧ u.mgmtOpen = false ∧ u.keys.imported = false ∧ u.keys.htkDraws = s.keys.htkDraws + 1 ∧
      u.keys.anchor = s.keys.anchor ∧ u.models.placement = s.models.placement ∧ (∀ g ∈ u.models.gens, ∃ h ∈ s.models.gens, g = { h with damaged := [] } ∧ h.retired = false) ∧
      u.host.mailboxes = [] ∧ u.host.windows = [] ∧ u.host.streams = [] ∧ u.host.flights = [] ∧ u.host.done = [] ∧ u.tables.tables = [] ∧ u.comp.compositions = [] ∧
      u.fabric.route = s.fabric.route ∧ u.comp.partition = s.comp.partition ∧ u.comp.peers = s.comp.peers ∧ u.comp.records = s.comp.records ∧ u.comp.fences = s.comp.fences ∧
      u.fabric.inbox = [] ∧ u.fabric.reassembly = [] ∧ (∀ x ∈ u.fabric.ports, x.state = .down) ∧ u.tenants.config = s.tenants.config ∧ u.tiles.failed = s.tiles.failed ∧ u.flash.map = s.carryDrops.flash.map ∧
      ((∀ c ∈ s.index.collections.vals, c.dropping = none) → u.flash.map = s.flash.map) ∧
      (∀ l, l = s.index.collections.vals.filter (·.dropping.isSome) → s.carryDrops = l.foldl (fun (s : State) c => { s.unmapObject c.id 0 with
        tiers.objects := s.tiers.objects.map fun (o : SharedObject) => if o.collection == c.id then { o with superseded := true } else o }) s) ∧
      (∀ e ∈ u.index.collections, ∃ c, (e.1, c) ∈ s.index.collections ∧ c.dropping = none ∧ e.2 = c.afterReset ((s.liveGensOf c).map (·.1))) ∧
      ∀ id c, s.coll id = some c → c.dropping = none → ∃ d, u.coll id = some d ∧ d.desc = c.desc ∧ d.gens = c.gens ∧ d.map = { c.map with poisoned := [], evaluate := false } ∧ d.predicates = [] ∧
        d.assigned = d.committed ∧ (∀ v ∈ d.versions, ∃ w ∈ c.versions, w.id = v.id ∧ w.seg = v.seg ∧ c.inSealed w = true) ∧
        (∀ w ∈ c.versions, c.inSealed w = true → ∃ v ∈ d.versions, v.id = w.id ∧ v.ins = w.ins ∧ v.ins ≤ d.committed) ∧
        (∀ o ∈ d.ops, ∃ p ∈ c.ops, p.csn = o.csn ∧ (p.durable = true ∨ p.confirmed ≠ [])) ∧
        (c.availability ≠ .keyLost → d.availability = .keyPending ((s.liveGensOf c).map (·.1))) ∧ (c.availability = .keyLost → d.availability = .keyLost)
end

