-- ==== Sys2Proof/Laws/Start.lean ====
section
/-!
SUPPORT. How a catalogue command's own row begins: what the shared opening does.
-/
namespace Sys2Proof.Machine

/-- At its turn a command does what its body gives. -/
theorem start_ok {s t : State} {op : Nat} {m : Mbx} {tag : Word} {f : Flight} {body : Flight → State → Except Detail State}
    (h : s.turn op m tag f) (e : body f s = .ok t) : s.start op m tag body = t := by
  obtain ⟨h1, h2, h3, h4, h5⟩ := h
  simp [State.start, h1, h2, h3, h4, h5, e]

/-- At its turn a command whose body refuses is answered with the detail. -/
theorem start_error {s : State} {op : Nat} {m : Mbx} {tag : Word} {f : Flight} {body : Flight → State → Except Detail State} {d : Detail}
    (h : s.turn op m tag f) (e : body f s = .error d) : s.start op m tag body = s.answerDetail f d := by
  obtain ⟨h1, h2, h3, h4, h5⟩ := h
  simp [State.start, h1, h2, h3, h4, h5, e]

/-- Without a command of that opcode in flight nothing happens. -/
theorem start_none {s : State} {op : Nat} {m : Mbx} {tag : Word} {body : Flight → State → Except Detail State} (h : s.flight m.key tag = none) :
    s.start op m tag body = s := by
  simp [State.start, h]

@[simp] theorem ok_bind {α β : Type} (a : α) (g : α → Except Detail β) : (Except.ok a >>= g) = g a := rfl

@[simp] theorem error_bind {α β : Type} (d : Detail) (g : α → Except Detail β) : ((Except.error d : Except Detail α) >>= g) = .error d := rfl

theorem need_ok {b : Bool} {d : Detail} (h : b = true) : need b d = .ok () := by simp [need, h]

theorem need_error {b : Bool} {d : Detail} (h : b = false) : need b d = .error d := by simp [need, h]

theorem lengthBounds_ok {f : Flight} {lo hi : Nat} (h1 : lo ≤ f.plain.length) (h2 : f.plain.length ≤ hi) : lengthBounds f lo hi = .ok () := by
  simp [lengthBounds, Nat.not_lt.mpr h1, Nat.not_lt.mpr h2]

theorem opening_ok {f : Flight} {lo hi : Nat} (h : f.opens lo hi) : opening f lo hi = .ok () := by
  obtain ⟨h1, h2, h3⟩ := h
  simp [opening, lengthBounds_ok h1 h2, csnZero, h3, need]

theorem fields_nil : fields [] = .ok () := rfl

theorem fields_cons {o : Nat} {l : List (Nat × Bool)} : fields ((o, true) :: l) = fields l := by simp [fields]

end Sys2Proof.Machine
end

