-- ==== Sys2Proof/Laws/Operations.lean ====
section
/-!
SUPPORT. What the shared checks of operations and snapshots do, and what placing rows keeps.
-/
namespace Sys2Proof.Machine

/-- An operation within its limits goes on (R25, R118, R123, R424). -/
theorem opLimits_ok {c : Collection} {f : Flight} {text : Bool} {n stored : Nat} {k : State → Except Detail State} {s : State}
    (h : s.opRoom c f text n stored) : s.opLimits c f text n stored k = k s := by
  obtain ⟨h1, h2, h0, h3, h4, h5, h6⟩ := h
  have e1 : (stored == 0 || decide (c.versions.length + c.toApply + stored ≤ c.desc.maxItems)) = true := by simpa using h1
  have e2 : (stored == 0 || (s.tenantConfig f.tenant).flashQuota == 0 ||
      decide (s.flashMapped f.tenant < (s.tenantConfig f.tenant).flashQuota * 2 ^ 30)) = true := by simpa [or_assoc] using h2
  have e4 : c.capped (((c.ops.filter (!·.applied)).map opStored).sum + stored) = false := by
    unfold Collection.capped
    rcases h5 with h5 | h5
    · simp [Nat.not_le.mpr h5]
    · cases e : c.openSegment with
      | none => simp
      | some x =>
        obtain ⟨a, b⟩ := h5 x e
        simp only [Option.any_some, Nat.not_le.mpr a, Nat.not_lt.mpr b, decide_false, Bool.or_self, Bool.and_false]
  have e5 : s.opBusy c text n stored = none := by
    simp only [State.opBusy, h0, Nat.not_le.mpr h3, Nat.not_le.mpr h4, Nat.not_lt.mpr h6, e4, decide_false, Bool.or_self, Bool.false_eq_true, if_false]
  simp only [State.opLimits, e1, e2, e5, need, ok_bind, if_true]

/-- Vectors that are acknowledged are charged (R444). -/
theorem acknowledge_encoded {id csn : Nat} {o : Operation} {items : List ItemRecord} {up : Bool} (s : State) (h : o.body = .insert items up)
    (e : o.encoded = true) : s.acknowledge id csn o =
      (s.updColl id fun c => c.updOp csn fun _ => { o with acked := true, ackTime := s.clock }).charge (ownerOf id) 0x58 items.length := by
  simp only [State.acknowledge, h, e, if_true]

/-- Texts that are acknowledged are charged, and join the encoder batch (R107, R444). -/
theorem acknowledge_text {id csn : Nat} {o : Operation} {items : List ItemRecord} {up : Bool} (s : State) (h : o.body = .insert items up)
    (e : o.encoded = false) : s.acknowledge id csn o =
      { (s.updColl id fun c => c.updOp csn fun _ => { o with acked := true, ackTime := s.clock }).charge (ownerOf id) 0x58 items.length with
        index.batch := s.index.batch ++ (List.range items.length).map fun i => (id, csn, i)
        index.batchSince := if s.index.batch.isEmpty then s.clock else s.index.batchSince } := by
  simp only [State.acknowledge, h, e, Bool.false_eq_true, if_false]
  rfl

/-- A delete that is acknowledged changes nothing else. -/
theorem acknowledge_other {id csn : Nat} {o : Operation} (s : State) (h : ∀ items up, o.body ≠ .insert items up) :
    s.acknowledge id csn o = s.updColl id fun c => c.updOp csn fun _ => { o with acked := true, ackTime := s.clock } := by
  unfold State.acknowledge
  split
  · next items up q => exact absurd q (h items up)
  · rfl

/-- The head of an insert or upsert within its bounds (R105). -/
theorem insertHead_ok {f : Flight} (h : f.opens 16 16777216) (h1 : 1 ≤ field f.plain 4 4) (h2 : field f.plain 4 4 ≤ 65536)
    (h3 : zeroField f.plain 8 8 = true) : insertHead f = .ok (field f.plain 0 4, field f.plain 4 4) := by
  obtain ⟨a, b, c⟩ := h
  simp [insertHead, lengthBounds_ok a b, csnZero, need, c, fields, h1, h2, h3] <;> rfl

/-- A command that has its crew at once goes on (R247). -/
theorem withCrew_ok {s t : State} {i p tiles : Nat} {f : Flight} {k : State → Except Detail State} (h : s.crewAtOnce i p f t tiles) :
    s.withCrew i p f k tiles = k t := by
  unfold State.withCrew
  rcases h with ⟨h1, rfl⟩ | ⟨h1, h2, h3, h4⟩
  · rw [if_pos h1]
  · have e : (s.pool (crewOf s.placeImage i)).isEmpty = false := by simpa using h2
    simp only [h1, Option.isSome_none, Bool.false_eq_true, if_false, e, h3, List.length_nil, if_true, h4]

/-- Weights without damage are read (R298). -/
theorem withWeights_ok {g : Generation} {f : Flight} {b : Bytes} {k : State → Except Detail State} {s : State} (h : g.damaged = []) :
    s.withWeights g f b k = k s := by simp [State.withWeights, h]

/-- A binding that is not held yet goes to the current generation (R282). -/
theorem bindGen_ok {k : ImageKind} {off h : Nat} {f : Flight} {s : State} {g : Generation} (hn : f.binds = []) (hg : s.handle k off h f = .ok g) :
    s.bindGen k off h f = .ok (g, s.updFlight f.mbx f.tag fun x => { x with binds := (imageCode k, h, g.gen) :: x.binds }) := by
  simp [State.bindGen, hn, hg] <;> rfl

/-- The CSN a read binds once its collection has committed it (R44). -/
theorem bindSnapshot_at {c : Collection} {f : Flight} {s : State} (k : Nat → State → Except Detail State) (h1 : f.bound = none)
    (h2 : f.hdr.csn.toNat ≤ c.assigned) (h3 : f.hdr.csn.toNat = 0 ∨ c.floor ≤ f.hdr.csn.toNat) (h4 : f.hdr.csn.toNat ≤ c.committed) :
    s.bindSnapshot c f k = k (if f.hdr.csn.toNat = 0 then c.committed else f.hdr.csn.toNat)
      (s.updFlight f.mbx f.tag fun g => { g with
        bound := some (if f.hdr.csn.toNat = 0 then c.committed else f.hdr.csn.toNat), coll := some c.id, mapBound := c.map.version, boundAt := s.clock }) := by
  unfold State.bindSnapshot
  have e1 : ¬(f.hdr.csn.toNat ≠ 0 ∧ f.hdr.csn.toNat < c.floor) := by omega
  simp only [h1, Option.isSome_none, Bool.false_eq_true, if_false, if_neg (Nat.not_lt.mpr h2), if_neg e1, if_neg (Nat.not_lt.mpr h4)]

/-- A read of a CSN that is assigned and not committed waits (R44). -/
theorem bindSnapshot_wait {c : Collection} {f : Flight} {s : State} (k : Nat → State → Except Detail State) (h1 : f.bound = none)
    (h2 : f.hdr.csn.toNat ≤ c.assigned) (h3 : c.floor ≤ f.hdr.csn.toNat) (h4 : c.committed < f.hdr.csn.toNat) :
    s.bindSnapshot c f k = .ok (s.setWork f (.csnWait c.id f.hdr.csn.toNat)) := by
  unfold State.bindSnapshot
  have e1 : ¬(f.hdr.csn.toNat ≠ 0 ∧ f.hdr.csn.toNat < c.floor) := by omega
  simp only [h1, Option.isSome_none, Bool.false_eq_true, if_false, if_neg (Nat.not_lt.mpr h2), if_neg e1, if_pos h4]

/-! ### Rows and their places -/

/-- Two collections differ at most in their extents, commit indices and next numbers, and in where their rows lie. -/
def Collection.samePlaced (c d : Collection) : Prop :=
  d = { c with versions := d.versions, extents := d.extents, indices := d.indices, nextExtent := d.nextExtent }

theorem openExtent_same {c d : Collection} {l seg i first : Nat} {legacy : Option Nat} {s : State} (h : s.openExtent c l seg i first legacy = some d) :
    c.samePlaced d := by
  unfold State.openExtent at h
  dsimp only at h
  split at h
  · cases h
  · obtain ⟨p, _, rfl⟩ := Option.map_eq_some_iff.mp h
    rfl

theorem fillRow_same {c : Collection} {v : Version} {e : Extent} {s : State} {r : Collection × Nat} (h : s.fillRow c v e = some r) :
    c.samePlaced r.1 := by
  unfold State.fillRow at h
  dsimp only at h
  split at h
  · cases h
  · cases h; rfl

theorem samePlaced_trans {a b c : Collection} (h : a.samePlaced b) (k : b.samePlaced c) : a.samePlaced c := by
  unfold Collection.samePlaced at *
  rw [k, h]

theorem placeRow_same {i : Bool} {l : Option Nat} {c : Collection} {v : Version} {s : State} {r : Collection × Nat} (h : s.placeRow i l c v = some r) :
    c.samePlaced r.1 := by
  unfold State.placeRow at h
  split at h
  · split at h
    · exact fillRow_same h
    · obtain ⟨d, h1, h2⟩ := Option.bind_eq_some_iff.mp h
      obtain ⟨e, _, h3⟩ := Option.bind_eq_some_iff.mp h2
      exact samePlaced_trans (openExtent_same h1) (fillRow_same h3)
  · dsimp only at h
    obtain ⟨d, h1, h2⟩ := Option.bind_eq_some_iff.mp h
    obtain ⟨e, _, h3⟩ := Option.bind_eq_some_iff.mp h2
    refine samePlaced_trans (b := if i = true then _ else c) ?_ (samePlaced_trans (openExtent_same h1) (fillRow_same h3))
    split <;> rfl

/-- Placing rows changes where they lie, and nothing else of the collection. -/
theorem placeRows_same {i : Bool} {l : Version → Option Nat} {c d : Collection} {s : State} (h : s.placeRows i l c = some d) : c.samePlaced d := by
  unfold State.placeRows at h
  obtain ⟨x, h1, rfl⟩ := Option.map_eq_some_iff.mp h
  suffices ∀ (vs : List Version) (a : Collection × List Version), c.samePlaced a.1 →
      vs.foldl (fun a v => a.bind fun (x : Collection × List Version) =>
        if v.extent != 0 then some (x.1, v :: x.2)
        else (s.placeRow i (l v) x.1 v).map fun r => (r.1, { v with extent := r.2 } :: x.2)) (some a) = some x → c.samePlaced x.1 by
    exact samePlaced_trans (this c.versions (c, []) (show c.samePlaced c from rfl) h1) rfl
  intro vs
  induction vs with
  | nil => intro a ha h; cases h; exact ha
  | cons v vs ih =>
    intro a ha h
    rw [List.foldl_cons] at h
    simp only [Option.bind_some] at h
    split at h
    · exact ih (a.1, v :: a.2) ha h
    · cases hp : s.placeRow i (l v) a.1 v with
      | none =>
        rw [hp] at h
        exfalso
        clear ih
        simp only [Option.map_none] at h
        clear hp
        induction vs with
        | nil => cases h
        | cons w vs ih => exact ih h
      | some r =>
        rw [hp] at h
        exact ih (r.1, { v with extent := r.2 } :: a.2) (samePlaced_trans ha (placeRow_same hp)) h

/-! ### What changing the map keeps -/

@[simp] theorem reclaimSlots_index (r : Nat) (s : State) : (s.reclaimSlots r).index = s.index := by
  unfold State.reclaimSlots; split <;> rfl

@[simp] theorem dropHostPage_index (p : Nat) (s : State) : (s.dropHostPage p).index = s.index := by
  unfold State.dropHostPage
  split
  · rfl
  · simp only [reclaimSlots_index]

@[simp] theorem mapUnit_index (u : Nat) (x : Option Mapped) (s : State) : (s.mapUnit u x).index = s.index := by
  unfold State.mapUnit
  simp only [dropHostPage_index]
  split <;> rfl

theorem unmapObject_index (id seg : Nat) (s : State) : (s.unmapObject id seg).index = s.index := by
  unfold State.unmapObject
  generalize (List.filter _ s.flash.map).map Prod.fst = l
  induction l generalizing s with
  | nil => rfl
  | cons a l ih => rw [List.foldl_cons, ih, mapUnit_index]

/-- Unmapping a collection's units keeps the collections. -/
theorem unmapObject_collections (id seg : Nat) (s : State) : (s.unmapObject id seg).index.collections = s.index.collections := by
  rw [unmapObject_index]

end Sys2Proof.Machine
end

