-- ==== Sys2Proof/Laws/Fabric.lean ====
section
/-!
SUPPORT. What sending on the fabric leaves alone: everything but the fabric, the meters and what has been driven out.
-/
namespace Sys2Proof.Machine

/-- The parts of the state that sending a message does not touch. -/
def State.aside (s : State) : HostIf × Keys × Index × Models × Tiles × Tables × Tiers × Flash × Comp :=
  (s.host, s.keys, s.index, s.models, s.tiles, s.tables, s.tiers, s.flash, s.comp)

theorem charge_aside (t o n : Nat) (s : State) : (s.charge t o n).aside = s.aside := rfl

theorem chargeAll_aside (t : Nat) (l : Tab Nat) (s : State) : (s.chargeAll t l).aside = s.aside := by
  unfold State.chargeAll
  induction l generalizing s with
  | nil => rfl
  | cons c l ih => exact (ih _).trans (charge_aside _ _ _ s)

theorem enqueue_aside (n : Nat) (p : FabPacket) (s : State) : (s.enqueue n p).aside = s.aside := by
  unfold State.enqueue; split <;> rfl

theorem enqueue_all_aside (n : Nat) (l : List FabPacket) (s : State) : (l.foldl (fun s p => s.enqueue n p) s).aside = s.aside := by
  induction l generalizing s with
  | nil => rfl
  | cons p l ih => exact (ih _).trans (enqueue_aside n p s)

theorem post_aside (d t c n : Nat) (b : Bool) (y : Bytes) (s : State) : (s.post d t c n b y).aside = s.aside := by
  unfold State.post State.send
  dsimp only
  split
  · rfl
  · split
    · rfl
    · split
      · rfl
      · rw [chargeAll_aside, enqueue_all_aside]; rfl

theorem post_all_aside {α : Type} (g : State → α → State) (hg : ∀ s x, (g s x).aside = s.aside) (l : List α) (s : State) :
    (l.foldl g s).aside = s.aside := by
  induction l generalizing s with
  | nil => rfl
  | cons x l ih => exact (ih _).trans (hg s x)

theorem shipRecord_aside (l : List Nat) (id : Nat) (o : Operation) (s : State) : (s.shipRecord l id o).aside = s.aside := by
  unfold State.shipRecord
  split
  · exact post_all_aside _ (fun s p => post_aside ..) l s
  · rfl

theorem sendRelease_aside (id csn : Nat) (s : State) : (s.sendRelease id csn).aside = s.aside := by
  unfold State.sendRelease
  generalize s.logPeers = l
  exact post_all_aside _ (fun s p => post_aside ..) l s

/-- Equal parts: their index. -/
theorem aside_index {s t : State} (h : t.aside = s.aside) : t.index = s.index := congrArg (fun x => x.2.2.1) h

/-- Equal parts: their host interface. -/
theorem aside_host {s t : State} (h : t.aside = s.aside) : t.host = s.host := congrArg (fun x => x.1) h

/-- Equal parts: their compositions and peers. -/
theorem aside_comp {s t : State} (h : t.aside = s.aside) : t.comp = s.comp := congrArg (fun x => x.2.2.2.2.2.2.2.2) h

end Sys2Proof.Machine
end

