-- ==== Sys2Proof/Laws/Memory.lean ====
section
/-!
SUPPORT. Every memory operation keeps the canonical form of a window's buffer.
-/
namespace Sys2Proof.Machine

theorem wfFrom_mono {lo lo' : Nat} (h : lo ≤ lo') : ∀ m, Memory.wfFrom lo' m = true → Memory.wfFrom lo m = true
  | [], _ => rfl
  | (a, v) :: t, g => by
    simp only [Memory.wfFrom, Bool.and_eq_true, decide_eq_true_eq] at g ⊢
    exact ⟨⟨by omega, g.1.2⟩, g.2⟩

theorem memWrite_wfFrom : ∀ (m : Memory) (lo a : Nat) (v : Byte), Memory.wfFrom lo m = true → lo ≤ a → Memory.wfFrom lo (memWrite m a v) = true
  | [], lo, a, v, _, h => by
    unfold memWrite
    split <;> simp_all [Memory.wfFrom]
  | (b, w) :: t, lo, a, v, g, h => by
    simp only [Memory.wfFrom, Bool.and_eq_true, decide_eq_true_eq] at g
    unfold memWrite
    split
    · split
      · simp only [Memory.wfFrom, Bool.and_eq_true, decide_eq_true_eq]; exact g
      · simp only [Memory.wfFrom, Bool.and_eq_true, decide_eq_true_eq]; exact ⟨⟨h, by assumption⟩, ⟨by omega, g.1.2⟩, g.2⟩
    · split
      · split
        · exact wfFrom_mono (by omega) t g.2
        · simp only [Memory.wfFrom, Bool.and_eq_true, decide_eq_true_eq]
          subst_vars
          exact ⟨⟨g.1.1, by assumption⟩, g.2⟩
      · simp only [Memory.wfFrom, Bool.and_eq_true, decide_eq_true_eq]
        exact ⟨g.1, memWrite_wfFrom t (b + 1) a v g.2 (by omega)⟩

/-- Writing a byte keeps the canonical form. -/
theorem memWrite_wf (m : Memory) (a : Nat) (v : Byte) (h : Memory.wf m = true) : Memory.wf (memWrite m a v) = true :=
  memWrite_wfFrom m 0 a v h (Nat.zero_le a)

/-- Storing bytes keeps the canonical form. -/
theorem memStore_wf (size : Nat) : ∀ (b : Bytes) (m : Memory) (a : Nat), Memory.wf m = true → Memory.wf (memStore size m a b) = true
  | [], _, _, h => h
  | v :: t, m, a, h => memStore_wf size t (memWrite m (a % size) v) (a + 1) (memWrite_wf m (a % size) v h)

/-- Every window's buffer at reset is an empty memory. -/
theorem reset_memory_wf (w : Nat) : Memory.wf (State.reset.host.windows.getD w {}).buffer = true := rfl

end Sys2Proof.Machine
end

