-- ==== Sys2Proof/Laws/StillHost.lean ====
section
/-!
SUPPORT. The queue, the clock, the power state, the governor and the pins stay as they are: the host interface, crews and flash operations.
-/
namespace Sys2Proof.Machine

theorem still_fold (s : State) : (s.pending, s.clock, s.power, s.governor, s.pins) = s.still := Eq.mpr rfl rfl

theorem still_foldl {α : Type} (l : List α) (g : State → α → State) (h : ∀ s a, (g s a).still = s.still) (s : State) : (l.foldl g s).still = s.still := by
  induction l generalizing s with
  | nil => rfl
  | cons a l ih => exact (ih _).trans (h s a)

theorem still_foldl1 {α β : Type} (l : List α) (g : State × β → α → State × β) (h : ∀ p a, (g p a).1.still = p.1.still) (p : State × β) : (l.foldl g p).1.still = p.1.still := by
  induction l generalizing p with
  | nil => rfl
  | cons a l ih => exact (ih _).trans (h p a)

theorem still_foldr {α : Type} (l : List α) (g : α → State → State) (h : ∀ a s, (g a s).still = s.still) (s : State) : (l.foldr g s).still = s.still := by
  induction l generalizing s with
  | nil => rfl
  | cons a l ih => exact (h a _).trans (ih s)

theorem still_mk {pending clock fabTime free out host keys tenants index models tiles tables tiers flash fabric comp power governor pins} : (State.mk pending clock fabTime free out host keys tenants index models tiles tables tiers flash fabric comp power governor pins).still = (pending, clock, power, governor, pins) := Eq.mpr rfl rfl

theorem bind_ok {α β : Type} {x : Except Detail α} {g : α → Except Detail β} {t : β} : (x >>= g) = .ok t ↔ ∃ a, x = .ok a ∧ g a = .ok t := by
  cases x <;> simp [bind, Except.bind]

theorem map_ok {α β : Type} {x : Except Detail α} {g : α → β} {t : β} : Except.map g x = .ok t ↔ ∃ a, x = .ok a ∧ g a = t := by
  cases x <;> simp [Except.map]

theorem none_ok {α : Type} {b : α} : ((none : Option α) = some b) = False := by simp

theorem ok_ok {α : Type} {a b : α} : (Except.ok a : Except Detail α) = .ok b ↔ a = b := by simp

theorem pure_ok {α : Type} {a b : α} : (pure a : Except Detail α) = .ok b ↔ a = b := by simp [pure, Except.pure]

theorem err_ok {α : Type} {d : Detail} {b : α} : ((Except.error d : Except Detail α) = .ok b) = False := by simp

def Submit.st : Submit → State | .wait s => s | .taken s => s

def Fetch.st : Fetch → State | .stop s => s | .took _ s => s

theorem st_wait (s : State) : (Submit.wait s).st = s := rfl

theorem st_taken (s : State) : (Submit.taken s).st = s := rfl

theorem st_stop (s : State) : (Fetch.stop s).st = s := rfl

theorem st_took (n : Nat) (s : State) : (Fetch.took n s).st = s := rfl
/-! ### Ops -/

theorem State.emit_still : ∀ a0 s, (@State.emit a0 s).still = s.still := by
  intro a0 s
  unfold State.emit
  repeat' (first | (simp only [↓still_mk, ↓still_fold]; done))

theorem State.charge_still : ∀ a0 a1 a2 s, (@State.charge a0 a1 a2 s).still = s.still := by
  intro a0 a1 a2 s
  unfold State.charge
  repeat' (first | (simp only [↓still_mk, ↓still_fold]; done))

theorem State.logAppend_still : ∀ a0 s, (@State.logAppend a0 s).still = s.still := by
  intro a0 s
  unfold State.logAppend
  repeat' (first | (simp only [↓still_mk, ↓still_fold]; done))

theorem State.log_still : ∀ a0 s, (@State.log a0 s).still = s.still := by
  intro a0 s
  unfold State.log
  repeat' (first | (simp only [↓still_mk, ↓still_fold, ↓apply_ite State.still, ite_self, ↓State.charge_still, ↓State.logAppend_still]; done))

theorem State.logKind_still : ∀ a0 a1 s, (@State.logKind a0 a1 s).still = s.still := by
  intro a0 a1 s
  unfold State.logKind
  repeat' (first | (simp only [↓State.log_still]; done))

theorem State.chargeSpec_still : ∀ a0 a1 a2 s, (@State.chargeSpec a0 a1 a2 s).still = s.still := by
  intro a0 a1 a2 s
  unfold State.chargeSpec
  repeat' (first | (simp only [↓still_mk, ↓still_fold]; done))

theorem State.moveToSpec_still : ∀ a0 a1 s, (@State.moveToSpec a0 a1 s).still = s.still := by
  intro a0 a1 s
  unfold State.moveToSpec
  repeat' (first | with_reducible rfl | (simp only [↓still_mk, ↓still_fold, ↓apply_ite State.still, ite_self, ↓State.chargeSpec_still]; done)
                    | simp only [] | with_reducible refine (still_foldl _ _ (fun _ _ => ?_) _).trans ?_)

theorem State.draw_still : ∀ s, (@State.draw s).2.still = s.still := by
  intro s
  unfold State.draw
  repeat' (first | (simp only [↓still_mk, ↓still_fold]; done))
theorem State.draw_still_eq : ∀ s t x, @State.draw s = (x, t) → t.still = s.still := by
  intro s t x h
  have := State.draw_still s
  rwa [h] at this

theorem State.updFlight_still : ∀ a0 a1 a2 s, (@State.updFlight a0 a1 a2 s).still = s.still := by
  intro a0 a1 a2 s
  unfold State.updFlight
  repeat' (first | (simp only [↓still_mk, ↓still_fold]; done))

theorem State.setWork_still : ∀ a0 a1 s, (@State.setWork a0 a1 s).still = s.still := by
  intro a0 a1 s
  unfold State.setWork
  repeat' (first | (simp only [↓State.updFlight_still]; done))

theorem State.setMbx_still : ∀ a0 a1 s, (@State.setMbx a0 a1 s).still = s.still := by
  intro a0 a1 s
  unfold State.setMbx
  repeat' (first | (simp only [↓still_mk, ↓still_fold]; done))

theorem State.updMbx_still : ∀ a0 a1 s, (@State.updMbx a0 a1 s).still = s.still := by
  intro a0 a1 s
  unfold State.updMbx
  repeat' (first | (simp only [↓State.setMbx_still]; done))

theorem State.vector_still : ∀ a0 s, (@State.vector a0 s).still = s.still := by
  intro a0 s
  unfold State.vector
  repeat' (first | (simp only [↓still_mk, ↓still_fold, ↓apply_ite State.still, ite_self, ↓State.emit_still]; done))

theorem State.globalError_still : ∀ a0 s, (@State.globalError a0 s).still = s.still := by
  intro a0 s
  unfold State.globalError
  repeat' (first | (simp only [↓still_mk, ↓still_fold, ↓apply_ite State.still, ite_self, ↓State.vector_still]; done))

theorem State.setWin_still : ∀ a0 a1 s, (@State.setWin a0 a1 s).still = s.still := by
  intro a0 a1 s
  unfold State.setWin
  repeat' (first | (simp only [↓still_mk, ↓still_fold]; done))

theorem State.updWin_still : ∀ a0 a1 s, (@State.updWin a0 a1 s).still = s.still := by
  intro a0 a1 s
  unfold State.updWin
  repeat' (first | (simp only [↓State.setWin_still]; done))

theorem State.winViolation_still : ∀ a0 a1 s, (@State.winViolation a0 a1 s).still = s.still := by
  intro a0 a1 s
  unfold State.winViolation
  repeat' (first | (simp only [↓State.updWin_still, ↓State.globalError_still]; done))

theorem State.mbxViolation_still : ∀ a0 a1 s, (@State.mbxViolation a0 a1 s).still = s.still := by
  intro a0 a1 s
  unfold State.mbxViolation
  repeat' (first | (simp only [↓State.updMbx_still]; done))

theorem State.logViolation_still : ∀ a0 a1 s, (@State.logViolation a0 a1 s).still = s.still := by
  intro a0 a1 s
  unfold State.logViolation
  repeat' (first | (simp only [↓State.log_still]; done))

theorem State.countGlobalPv_still : ∀ s, (@State.countGlobalPv s).still = s.still := by
  intro s
  unfold State.countGlobalPv
  repeat' (first | (simp only [↓still_mk, ↓still_fold]; done))

theorem State.registerViolation_still : ∀ a0 a1 s, (@State.registerViolation a0 a1 s).still = s.still := by
  intro a0 a1 s
  unfold State.registerViolation
  repeat' (first | (simp only [↓State.mbxViolation_still, ↓State.countGlobalPv_still, ↓State.logViolation_still]; done))

theorem State.logUnit_still : ∀ a0 s, (@State.logUnit a0 s).still = s.still := by
  intro a0 s
  unfold State.logUnit
  repeat' (first | (simp only [↓State.log_still]; done))

theorem State.winSilent_still : ∀ a0 a1 s, (@State.winSilent a0 a1 s).still = s.still := by
  intro a0 a1 s
  unfold State.winSilent
  repeat' (first | (simp only [↓State.winViolation_still, ↓State.logViolation_still]; done))

theorem State.account_still : ∀ a0 a1 a2 a3 s, (@State.account a0 a1 a2 a3 s).still = s.still := by
  intro a0 a1 a2 a3 s
  unfold State.account
  repeat' (first | (simp only [↓apply_ite State.still, ite_self, ↓State.log_still, ↓State.charge_still]; done)
                    | simp only [↓apply_ite State.still, ite_self, ↓State.log_still, ↓State.charge_still] | split)

/-! ### FabricOps -/

theorem State.updVievo_still : ∀ a0 a1 s, (@State.updVievo a0 a1 s).still = s.still := by
  intro a0 a1 s
  unfold State.updVievo
  repeat' (first | (simp only [↓still_mk, ↓still_fold]; done))

theorem State.enqueue_still : ∀ a0 a1 s, (@State.enqueue a0 a1 s).still = s.still := by
  intro a0 a1 s
  unfold State.enqueue
  repeat' (first | (simp only [↓still_mk, ↓still_fold, ↓apply_ite State.still, ite_self, ↓State.updVievo_still]; done))

theorem State.chargeAll_still : ∀ a0 a1 s, (@State.chargeAll a0 a1 s).still = s.still := by
  intro a0 a1 s
  unfold State.chargeAll
  repeat' (first | with_reducible rfl | (simp only [↓State.charge_still]; done) | with_reducible refine (still_foldl _ _ (fun _ _ => ?_) _).trans ?_)

theorem State.send_still : ∀ a0 a1 a2 a3 a4 a5 s, (@State.send a0 a1 a2 a3 a4 a5 s).1.still = s.still := by
  intro a0 a1 a2 a3 a4 a5 s
  unfold State.send
  repeat' (first | with_reducible rfl
                    | (simp only [↓still_mk, ↓still_fold, ↓apply_ite State.still, ↓apply_ite Prod.fst, ↓State.chargeAll_still, ↓State.emit_still, ↓State.enqueue_still]; done)
                    | simp only [↓still_mk, ↓still_fold, ↓apply_ite State.still, ↓apply_ite Prod.fst, ↓State.chargeAll_still]
                    | with_reducible refine (still_foldl _ _ (fun _ _ => ?_) _).trans ?_ | split)
theorem State.send_still_eq : ∀ a0 a1 a2 a3 a4 a5 s t x, @State.send a0 a1 a2 a3 a4 a5 s = (t, x) → t.still = s.still := by
  intro a0 a1 a2 a3 a4 a5 s t x h
  have := State.send_still a0 a1 a2 a3 a4 a5 s
  rwa [h] at this

theorem State.post_still : ∀ a0 a1 a2 a3 a4 a5 s, (@State.post a0 a1 a2 a3 a4 a5 s).still = s.still := by
  intro a0 a1 a2 a3 a4 a5 s
  unfold State.post
  repeat' (first | (simp only [↓State.send_still]; done))

theorem State.takeMessage_still : ∀ a0 a1 s, ∀ t, @State.takeMessage a0 a1 s = some t → t.2.still = s.still := by
  intro a0 a1 s t h
  unfold State.takeMessage at h
  repeat' (first | (simp only [↓still_mk, ↓still_fold]; done) | (rw [none_ok] at h; exact h.elim) | (rw [Option.some.injEq] at h; subst h)
                    | (dsimp only at h) | (split at h))

theorem State.partnerViolation_still : ∀ a0 a1 s, (@State.partnerViolation a0 a1 s).still = s.still := by
  intro a0 a1 s
  unfold State.partnerViolation
  repeat' (first | (simp only [↓still_mk, ↓still_fold, ↓State.logKind_still, ↓State.updVievo_still]; done))

theorem State.wellFormed_still : ∀ a0 a1 a2 s, (∀ x0, (a2 x0).still = x0.still) → (@State.wellFormed a0 a1 a2 s).still = s.still := by
  intro a0 a1 a2 s h0
  unfold State.wellFormed
  repeat' (first | with_reducible rfl | simp only [↓apply_ite State.still, ↓State.partnerViolation_still] | with_reducible exact h0 .. | split)

theorem State.sendFree_still : ∀ a0 a1 a2 a3 a4 s, (@State.sendFree a0 a1 a2 a3 a4 s).1.still = s.still := by
  intro a0 a1 a2 a3 a4 s
  unfold State.sendFree
  repeat' (first | (simp only [↓still_mk, ↓still_fold, ↓State.send_still]; done))
theorem State.sendFree_still_eq : ∀ a0 a1 a2 a3 a4 s t x, @State.sendFree a0 a1 a2 a3 a4 s = (t, x) → t.still = s.still := by
  intro a0 a1 a2 a3 a4 s t x h
  have := State.sendFree_still a0 a1 a2 a3 a4 s
  rwa [h] at this

theorem State.emitFrames_still : ∀ a0 a1 s, (@State.emitFrames a0 a1 s).still = s.still := by
  intro a0 a1 s
  unfold State.emitFrames
  repeat' (first | with_reducible rfl | (simp only [↓State.emit_still]; done) | simp only []
                    | with_reducible refine (still_foldl _ _ (fun _ _ => ?_) _).trans ?_)

theorem State.sendFrame_still : ∀ a0 a1 a2 a3 s, (@State.sendFrame a0 a1 a2 a3 s).still = s.still := by
  intro a0 a1 a2 a3 s
  unfold State.sendFrame
  repeat' (first | (simp only [↓State.updVievo_still, ↓State.emitFrames_still]; done))

/-! ### Answer -/

theorem State.squashBytes_still : ∀ a0 a1 s, (@State.squashBytes a0 a1 s).still = s.still := by
  intro a0 a1 s
  unfold State.squashBytes
  repeat' (first | with_reducible rfl | (simp only [↓still_mk, ↓still_fold, ↓apply_ite State.still, ite_self, ↓State.chargeSpec_still]; done)
                    | simp only [↓apply_ite State.still, ite_self, ↓State.chargeSpec_still]
                    | with_reducible refine (still_foldl _ _ (fun _ _ => ?_) _).trans ?_)

theorem State.squashJobs_still : ∀ a0 a1 a2 a3 s, (@State.squashJobs a0 a1 a2 a3 s).still = s.still := by
  intro a0 a1 a2 a3 s
  unfold State.squashJobs
  repeat' (first | (simp only [↓still_mk, ↓still_fold, ↓apply_ite State.still, ite_self, ↓State.chargeSpec_still]; done))

theorem State.reapGens_still : ∀ s, (@State.reapGens s).still = s.still := by
  intro s
  unfold State.reapGens
  repeat' (first | (simp only [↓still_mk, ↓still_fold]; done))

theorem State.endFlight_still : ∀ a0 s, (@State.endFlight a0 s).still = s.still := by
  intro a0 s
  unfold State.endFlight
  repeat' (first | with_reducible rfl | (simp only [↓still_mk, ↓still_fold, ↓State.reapGens_still, ↓State.squashJobs_still]; done)
                    | simp only [↓still_mk, ↓still_fold, ↓State.reapGens_still] | with_reducible refine (still_foldl _ _ (fun _ _ => ?_) _).trans ?_)

theorem State.dropServed_still : ∀ a0 s, (@State.dropServed a0 s).still = s.still := by
  intro a0 s
  unfold State.dropServed
  repeat' (first | (simp only [↓still_mk, ↓still_fold]; done))

theorem State.noteAnswered_still : ∀ a0 a1 a2 a3 a4 a5 s, (@State.noteAnswered a0 a1 a2 a3 a4 a5 s).still = s.still := by
  intro a0 a1 a2 a3 a4 a5 s
  unfold State.noteAnswered
  repeat' (first | (simp only [↓still_mk, ↓still_fold]; done))

theorem State.putDone_still : ∀ a0 a1 a2 a3 a4 a5 a6 a7 a8 a9 a10 s, (@State.putDone a0 a1 a2 a3 a4 a5 a6 a7 a8 a9 a10 s).still = s.still := by
  intro a0 a1 a2 a3 a4 a5 a6 a7 a8 a9 a10 s
  unfold State.putDone
  repeat' (first | (simp only [↓still_mk, ↓still_fold]; done))

theorem State.answerNow_still : ∀ a0 a1 a2 s, (@State.answerNow a0 a1 a2 s).still = s.still := by
  intro a0 a1 a2 s
  unfold State.answerNow
  repeat' (first | (simp only [↓State.endFlight_still, ↓State.putDone_still]; done))

theorem State.updStream_still : ∀ a0 a1 s, (@State.updStream a0 a1 s).still = s.still := by
  intro a0 a1 s
  unfold State.updStream
  repeat' (first | (simp only [↓still_mk, ↓still_fold]; done))

theorem State.streamOut_still : ∀ a0 a1 a2 a3 s a5 a6, (@State.streamOut a0 a1 a2 a3 s a5 a6).still = s.still := by
  intro a0 a1 a2 a3 s a5 a6
  unfold State.streamOut
  repeat' (first
                    | (simp only [↓apply_ite State.still, ite_self, ↓State.setWork_still, ↓State.updFlight_still, ↓State.updStream_still, ↓State.answerNow_still]; done))

theorem State.answerBatch_still : ∀ a0 a1 a2 s, (@State.answerBatch a0 a1 a2 s).still = s.still := by
  intro a0 a1 a2 s
  unfold State.answerBatch
  repeat' (first | (simp only [↓State.answerNow_still, ↓State.streamOut_still]; done) | simp only [] | split)

theorem State.itemDone_still : ∀ a0 a1 a2 a3 s, (@State.itemDone a0 a1 a2 a3 s).still = s.still := by
  intro a0 a1 a2 a3 s
  unfold State.itemDone
  repeat' (first | with_reducible rfl
                    | (simp only [↓still_mk, ↓still_fold, ↓apply_ite State.still, ite_self, ↓State.answerBatch_still, ↓State.updFlight_still]; done)
                    | simp only [] | split)

theorem State.answerFabric_still : ∀ a0 a1 s, (@State.answerFabric a0 a1 s).still = s.still := by
  intro a0 a1 s
  unfold State.answerFabric
  repeat' (first
                    | (simp only [↓apply_ite State.still, ite_self, ↓State.endFlight_still, ↓State.itemDone_still, ↓State.answerNow_still, ↓State.streamOut_still]; done))

theorem State.sendList_still : ∀ a0 s, (@State.sendList a0 s).still = s.still := by
  intro a0 s
  unfold State.sendList
  repeat' (first | (simp only [↓apply_ite State.still, ite_self, ↓State.post_still, ↓State.noteAnswered_still, ↓State.sendFree_still]; done))

theorem State.settleMerge_still : ∀ a0 a1 s, (@State.settleMerge a0 a1 s).still = s.still := by
  intro a0 a1 s
  unfold State.settleMerge
  repeat' (first | with_reducible rfl
                    | (simp only [↓apply_ite State.still, ↓State.sendList_still, ↓State.answerFabric_still, ↓State.dropServed_still]; done)
                    | simp only [↓apply_ite State.still] | split)

theorem State.updServed_still : ∀ a0 a1 a2 s, (@State.updServed a0 a1 a2 s).still = s.still := by
  intro a0 a1 a2 s
  unfold State.updServed
  repeat' (first | (simp only [↓still_mk, ↓still_fold]; done))

theorem State.ownDone_still : ∀ a0 a1 a2 s, (@State.ownDone a0 a1 a2 s).still = s.still := by
  intro a0 a1 a2 s
  unfold State.ownDone
  repeat' (first | with_reducible rfl | (simp only [↓State.updServed_still, ↓State.settleMerge_still]; done) | simp only [] | split)

theorem State.finish_still : ∀ a0 a1 a2 a3 a4 a5 a6 a7 a8 a9 a10 s, (@State.finish a0 a1 a2 a3 a4 a5 a6 a7 a8 a9 a10 s).still = s.still := by
  intro a0 a1 a2 a3 a4 a5 a6 a7 a8 a9 a10 s
  unfold State.finish
  repeat' (first | (simp only [↓apply_ite State.still, ite_self, ↓State.ownDone_still, ↓State.itemDone_still, ↓State.putDone_still]; done))

theorem State.answerDetail_still : ∀ a0 a1 s, (@State.answerDetail a0 a1 s).still = s.still := by
  intro a0 a1 s
  unfold State.answerDetail
  repeat' (first | (simp only [↓State.finish_still, ↓State.endFlight_still]; done))

theorem State.reject_still : ∀ a0 a1 a2 a3 s, (@State.reject a0 a1 a2 a3 s).still = s.still := by
  intro a0 a1 a2 a3 s
  unfold State.reject
  repeat' (first | (simp only [↓State.finish_still]; done))

theorem State.markLogged_still : ∀ a0 s, (@State.markLogged a0 s).still = s.still := by
  intro a0 s
  unfold State.markLogged
  repeat' (first | (simp only [↓still_mk, ↓still_fold]; done))

theorem State.answer_still : ∀ a0 a1 a2 a3 a4 s, (@State.answer a0 a1 a2 a3 a4 s).still = s.still := by
  intro a0 a1 a2 a3 a4 s
  unfold State.answer
  repeat' (first | (simp only [↓State.finish_still, ↓State.endFlight_still]; done))

theorem State.abortStreams_still : ∀ a0 s, (@State.abortStreams a0 s).still = s.still := by
  intro a0 s
  unfold State.abortStreams
  repeat' (first | with_reducible rfl | (simp only [↓State.updStream_still]; done) | simp only [] | split)

theorem State.start_still : ∀ a0 a1 a2 a3 s, (∀ x0 x1 t, a3 x0 x1 = .ok t → t.still = x1.still) → (@State.start a0 a1 a2 a3 s).still = s.still := by
  intro a0 a1 a2 a3 s h0
  unfold State.start
  repeat' (first | with_reducible rfl | (simp only [↓apply_ite State.still, ↓State.answerDetail_still]; done) | simp only [↓apply_ite State.still]
                    | with_reducible refine (h0 _ _ _ ‹_›).trans ?_ | split)

theorem State.dataLost_still : ∀ a0 s, (@State.dataLost a0 s).still = s.still := by
  intro a0 s
  unfold State.dataLost
  repeat' (first | (simp only [↓State.abortStreams_still, ↓State.answer_still]; done))

/-! ### Bar -/

theorem State.overPcie_still : ∀ a0 s, (∀ x0, (a0 x0).still = x0.still) → (@State.overPcie a0 s).still = s.still := by
  intro a0 s h0
  unfold State.overPcie
  repeat' (first | with_reducible rfl | simp only [↓apply_ite State.still] | with_reducible exact h0 .. | split)

theorem writeRspCons_still : ∀ a0 a1 s, (@writeRspCons a0 a1 s).still = s.still := by
  intro a0 a1 s
  unfold writeRspCons
  repeat' (first | (simp only [↓apply_ite State.still, ite_self, ↓State.registerViolation_still, ↓State.setMbx_still]; done))

theorem execRspConsWrite_still : ∀ a0 a1 s, ∀ t, @execRspConsWrite a0 a1 s = .next t → t.still = s.still := by
  intro a0 a1 s t h
  simp only [execRspConsWrite, Host.Outcome.next.injEq] at h
  subst h
  repeat' (first | with_reducible rfl | (simp only [↓writeRspCons_still]; done) | intro _
                    | with_reducible refine (State.overPcie_still _ _ ?_ ).trans ?_)

theorem State.flushStep_still : ∀ a0 s, (@State.flushStep a0 s).still = s.still := by
  intro a0 s
  unfold State.flushStep
  repeat' (first | (simp only [↓apply_ite State.still, ite_self, ↓State.setWin_still]; done))

theorem barViolation_still : ∀ a0 s, (@barViolation a0 s).still = s.still := by
  intro a0 s
  unfold barViolation
  repeat' (first
                    | (simp only [↓still_mk, ↓still_fold, ↓apply_ite State.still, ite_self, ↓State.countGlobalPv_still, ↓State.globalError_still, ↓State.log_still]; done))

theorem execBar0AccessViolation_still : ∀ a0 a1 a2 s, ∀ t, @execBar0AccessViolation a0 a1 a2 s = .next t → t.still = s.still := by
  intro a0 a1 a2 s t h
  simp only [execBar0AccessViolation, Host.Outcome.next.injEq] at h
  subst h
  repeat' (first | with_reducible rfl | (simp only [↓apply_ite State.still, ite_self, ↓barViolation_still]; done) | intro _
                    | with_reducible refine (State.overPcie_still _ _ ?_ ).trans ?_)

theorem State.startReset_still : ∀ a0 s, (@State.startReset a0 s).still = s.still := by
  intro a0 s
  unfold State.startReset
  repeat' (first | (simp only [↓still_mk, ↓still_fold, ↓State.updMbx_still]; done))

theorem writeCfg_still : ∀ a0 a1 s, (@writeCfg a0 a1 s).still = s.still := by
  intro a0 a1 s
  unfold writeCfg
  repeat' (first | (simp only [↓apply_ite State.still, ite_self, ↓State.startReset_still, ↓State.setMbx_still, ↓State.registerViolation_still]; done))

theorem State.reportResponses_still : ∀ a0 s, (@State.reportResponses a0 s).still = s.still := by
  intro a0 s
  unfold State.reportResponses
  repeat' (first | (simp only [↓apply_ite State.still, ite_self, ↓State.setMbx_still, ↓State.vector_still]; done))

theorem writeCtrl_still : ∀ a0 a1 s, (@writeCtrl a0 a1 s).still = s.still := by
  intro a0 a1 s
  unfold writeCtrl
  repeat' (first | (simp only [↓apply_ite State.still, ite_self, ↓State.startReset_still, ↓State.reportResponses_still]; done))

theorem writeDoorbell_still : ∀ a0 a1 s, (@writeDoorbell a0 a1 s).still = s.still := by
  intro a0 a1 s
  unfold writeDoorbell
  repeat' (first | (simp only [↓apply_ite State.still, ite_self, ↓State.setMbx_still, ↓State.registerViolation_still, ↓State.globalError_still]; done)
                    | simp only [] | split)

theorem writeBase_still : ∀ a0 a1 a2 s, (@writeBase a0 a1 a2 s).still = s.still := by
  intro a0 a1 a2 s
  unfold writeBase
  repeat' (first | (simp only [↓apply_ite State.still, ite_self, ↓State.registerViolation_still, ↓State.updMbx_still]; done))

theorem writePiwCfg_still : ∀ a0 a1 s, (@writePiwCfg a0 a1 s).still = s.still := by
  intro a0 a1 s
  unfold writePiwCfg
  repeat' (first
                    | (simp only [↓apply_ite State.still, ite_self, ↓State.setWin_still, ↓State.updWin_still, ↓State.countGlobalPv_still, ↓State.globalError_still, ↓State.logViolation_still]; done))

theorem clearOverrun_still : ∀ a0 s, (@clearOverrun a0 s).still = s.still := by
  intro a0 s
  unfold clearOverrun
  repeat' (first | (simp only [↓State.updWin_still]; done))

theorem writePiwStatus_still : ∀ a0 a1 s, (@writePiwStatus a0 a1 s).still = s.still := by
  intro a0 a1 s
  unfold writePiwStatus
  repeat' (first | (simp only [↓apply_ite State.still, ite_self, ↓State.updWin_still, ↓clearOverrun_still]; done))

theorem requestFlush_still : ∀ a0 s, (@requestFlush a0 s).still = s.still := by
  intro a0 s
  unfold requestFlush
  repeat' (first | (simp only [↓State.updWin_still, ↓State.flushStep_still]; done))

theorem writeStreamCons_still : ∀ a0 a1 s, (@writeStreamCons a0 a1 s).still = s.still := by
  intro a0 a1 s
  unfold writeStreamCons
  repeat' (first
                    | (simp only [↓still_mk, ↓still_fold, ↓apply_ite State.still, ite_self, ↓State.countGlobalPv_still, ↓State.globalError_still, ↓State.logViolation_still]; done)
                    | simp only [] | split)

theorem writeReg8_still : ∀ a0 a1 s, (@writeReg8 a0 a1 s).still = s.still := by
  intro a0 a1 s
  unfold writeReg8
  repeat' (first | with_reducible rfl
                    | (simp only [↓still_mk, ↓still_fold, ↓apply_ite State.still, ite_self, ↓writeStreamCons_still, ↓requestFlush_still, ↓writePiwStatus_still, ↓writePiwCfg_still, ↓writeDoorbell_still, ↓writeBase_still]; done)
                    | simp only [] | split)

theorem writeReg4_still : ∀ a0 a1 a2 s, (@writeReg4 a0 a1 a2 s).still = s.still := by
  intro a0 a1 a2 s
  unfold writeReg4
  repeat' (first | with_reducible rfl
                    | (simp only [↓still_mk, ↓still_fold, ↓apply_ite State.still, ite_self, ↓writeReg8_still, ↓State.emit_still, ↓writeDoorbell_still, ↓writeCtrl_still, ↓writeRspCons_still, ↓State.updMbx_still, ↓writeCfg_still]; done)
                    | simp only [] | split)

theorem barWrite_still : ∀ a0 a1 a2 s, (@barWrite a0 a1 a2 s).still = s.still := by
  intro a0 a1 a2 s
  unfold barWrite
  repeat' (first | with_reducible rfl | (simp only [↓apply_ite State.still, ↓writeReg8_still, ↓writeReg4_still, ↓barViolation_still]; done)
                    | simp only [↓apply_ite State.still, ↓writeReg8_still, ↓writeReg4_still, ↓barViolation_still] | split)

theorem execRegisterWrite_still : ∀ a0 a1 a2 s, ∀ t, @execRegisterWrite a0 a1 a2 s = .next t → t.still = s.still := by
  intro a0 a1 a2 s t h
  simp only [execRegisterWrite, Host.Outcome.next.injEq] at h
  subst h
  repeat' (first | (simp only [↓barWrite_still]; done))

theorem execDoorbellWrite_still : ∀ a0 a1 s, ∀ t, @execDoorbellWrite a0 a1 s = .next t → t.still = s.still := by
  intro a0 a1 s t h
  simp only [execDoorbellWrite, Host.Outcome.next.injEq] at h
  subst h
  repeat' (first | with_reducible rfl | (simp only [↓writeDoorbell_still]; done) | intro _
                    | with_reducible refine (State.overPcie_still _ _ ?_ ).trans ?_)

theorem execMbxEnable_still : ∀ a0 a1 s, ∀ t, @execMbxEnable a0 a1 s = .next t → t.still = s.still := by
  intro a0 a1 s t h
  simp only [execMbxEnable, Host.Outcome.next.injEq] at h
  subst h
  repeat' (first | with_reducible rfl | (simp only [↓writeCfg_still]; done) | intro _ | with_reducible refine (State.overPcie_still _ _ ?_ ).trans ?_)

theorem execMbxDisable_still : ∀ a0 a1 s, ∀ t, @execMbxDisable a0 a1 s = .next t → t.still = s.still := by
  intro a0 a1 s t h
  simp only [execMbxDisable, Host.Outcome.next.injEq] at h
  subst h
  repeat' (first | with_reducible rfl | (simp only [↓writeCfg_still]; done) | intro _ | with_reducible refine (State.overPcie_still _ _ ?_ ).trans ?_)

theorem execMbxCtrlReset_still : ∀ a0 s, ∀ t, @execMbxCtrlReset a0 s = .next t → t.still = s.still := by
  intro a0 s t h
  simp only [execMbxCtrlReset, Host.Outcome.next.injEq] at h
  subst h
  repeat' (first | with_reducible rfl | (simp only [↓writeCtrl_still]; done) | intro _
                    | with_reducible refine (State.overPcie_still _ _ ?_ ).trans ?_)

theorem execMbxResetComplete_still : ∀ a0 s, ∀ t, @execMbxResetComplete a0 s = .next t → t.still = s.still := by
  intro a0 s t h
  simp only [execMbxResetComplete, Host.Outcome.next.injEq] at h
  subst h
  repeat' (first | (simp only [↓apply_ite State.still, ite_self, ↓State.setMbx_still]; done))

theorem execIrqRearm_still : ∀ a0 s, ∀ t, @execIrqRearm a0 s = .next t → t.still = s.still := by
  intro a0 s t h
  simp only [execIrqRearm, Host.Outcome.next.injEq] at h
  subst h
  repeat' (first | with_reducible rfl | (simp only [↓writeCtrl_still]; done) | intro _
                    | with_reducible refine (State.overPcie_still _ _ ?_ ).trans ?_)

theorem execStreamConsWrite_still : ∀ a0 a1 s, ∀ t, @execStreamConsWrite a0 a1 s = .next t → t.still = s.still := by
  intro a0 a1 s t h
  simp only [execStreamConsWrite, Host.Outcome.next.injEq] at h
  subst h
  repeat' (first | with_reducible rfl | (simp only [↓writeStreamCons_still]; done) | intro _
                    | with_reducible refine (State.overPcie_still _ _ ?_ ).trans ?_)

theorem execPiwOverrunClear_still : ∀ a0 s, ∀ t, @execPiwOverrunClear a0 s = .next t → t.still = s.still := by
  intro a0 s t h
  simp only [execPiwOverrunClear, Host.Outcome.next.injEq] at h
  subst h
  repeat' (first | with_reducible rfl | (simp only [↓clearOverrun_still]; done) | intro _
                    | with_reducible refine (State.overPcie_still _ _ ?_ ).trans ?_)

theorem execPiwCtrlFlush_still : ∀ a0 s, ∀ t, @execPiwCtrlFlush a0 s = .next t → t.still = s.still := by
  intro a0 s t h
  simp only [execPiwCtrlFlush, Host.Outcome.next.injEq] at h
  subst h
  repeat' (first | with_reducible rfl | (simp only [↓requestFlush_still]; done) | intro _
                    | with_reducible refine (State.overPcie_still _ _ ?_ ).trans ?_)

/-! ### Admission -/

theorem State.refuse_still : ∀ a0 a1 a2 a3 s, (@State.refuse a0 a1 a2 a3 s).still = s.still := by
  intro a0 a1 a2 a3 s
  unfold State.refuse
  repeat' (first | with_reducible rfl | (simp only [↓State.reject_still, ↓State.mbxViolation_still, ↓State.winViolation_still]; done)
                    | simp only [↓State.reject_still] | split)

theorem State.takeIn_still : ∀ a0 s, (@State.takeIn a0 s).still = s.still := by
  intro a0 s
  unfold State.takeIn
  repeat' (first | (simp only [↓still_mk, ↓still_fold, ↓State.charge_still]; done))

theorem State.reserveAndAdmit_still : ∀ a0 s, (@State.reserveAndAdmit a0 s).still = s.still := by
  intro a0 s
  unfold State.reserveAndAdmit
  repeat' (first | (simp only [↓still_mk, ↓still_fold, ↓apply_ite State.still, ite_self, ↓State.takeIn_still, ↓State.updMbx_still]; done))

theorem State.freeSlot_still : ∀ a0 s, (@State.freeSlot a0 s).still = s.still := by
  intro a0 s
  unfold State.freeSlot
  repeat' (first | (simp only [↓apply_ite State.still, ite_self, ↓State.updWin_still]; done))

theorem State.resumeHeld_still : ∀ a0 s, (@State.resumeHeld a0 s).still = s.still := by
  intro a0 s
  unfold State.resumeHeld
  repeat' (first | with_reducible rfl
                    | (simp only [↓still_mk, ↓still_fold, ↓apply_ite State.still, ite_self, ↓State.freeSlot_still, ↓State.reserveAndAdmit_still, ↓State.refuse_still, ↓State.updMbx_still]; done)
                    | simp only [↓apply_ite State.still, ↓State.freeSlot_still] | split)

theorem State.halt_still : ∀ a0 a1 a2 s, (@State.halt a0 a1 a2 s).still = s.still := by
  intro a0 a1 a2 s
  unfold State.halt
  repeat' (first | (simp only [↓State.updMbx_still, ↓State.globalError_still, ↓State.refuse_still]; done))

theorem State.awaitEnd_still : ∀ a0 a1 s, (@State.awaitEnd a0 a1 s).still = s.still := by
  intro a0 a1 s
  unfold State.awaitEnd
  repeat' (first | (simp only [↓State.updMbx_still]; done))

theorem State.seqConsume_still : ∀ a0 a1 a2 s, (@State.seqConsume a0 a1 a2 s).still = s.still := by
  intro a0 a1 a2 s
  unfold State.seqConsume
  repeat' (first | (simp only [↓still_mk, ↓still_fold, ↓apply_ite State.still, ite_self]; done))

theorem State.bucketTake_still : ∀ a0 a1 s, (@State.bucketTake a0 a1 s).still = s.still := by
  intro a0 a1 s
  unfold State.bucketTake
  repeat' (first | (simp only [↓still_mk, ↓still_fold, ↓apply_ite State.still, ite_self]; done))

theorem State.submit_still : ∀ a0 a1 a2 a3 a4 s, (@State.submit a0 a1 a2 a3 a4 s).st.still = s.still := by
  intro a0 a1 a2 a3 a4 s
  have ite_of : ∀ {α : Type} {c : Prop} {_ : Decidable c} {a b x : α}, a = x → b = x → (if c then a else b) = x := by
    intro α c _ a b x ha hb; split
    · exact ha
    · exact hb
  unfold State.submit
  simp only [↓apply_ite State.still, ↓st_wait, ↓apply_ite Submit.st, ↓State.updMbx_still]
  iterate 6 (refine ite_of ?_ ?_; exact rfl)
  split
  · rw [st_taken, State.refuse_still]; simp only [↓apply_ite State.still, ↓State.updMbx_still, ite_self]
  · simp only [↓apply_ite State.still, ↓apply_ite Submit.st]
    refine ite_of ?_ ?_
    · split
      · rw [st_taken, State.refuse_still]; simp only [↓apply_ite State.still, ↓State.updMbx_still, ite_self]
      · rw [st_taken, State.reserveAndAdmit_still]
        simp only [↓apply_ite State.still, ↓State.updMbx_still, ↓State.bucketTake_still, ↓State.seqConsume_still, ite_self]
    · rw [st_taken, State.reserveAndAdmit_still]
      simp only [↓apply_ite State.still, ↓State.updMbx_still, ↓State.bucketTake_still, ite_self]
theorem State.submit_still_w : ∀ a0 a1 a2 a3 a4 s t, @State.submit a0 a1 a2 a3 a4 s = .wait t → t.still = s.still := by
  intro a0 a1 a2 a3 a4 s t h
  have := State.submit_still a0 a1 a2 a3 a4 s
  rwa [h] at this
theorem State.submit_still_t : ∀ a0 a1 a2 a3 a4 s t, @State.submit a0 a1 a2 a3 a4 s = .taken t → t.still = s.still := by
  intro a0 a1 a2 a3 a4 s t h
  have := State.submit_still a0 a1 a2 a3 a4 s
  rwa [h] at this

theorem State.fetchOne_still : ∀ a0 a1 s, (@State.fetchOne a0 a1 s).st.still = s.still := by
  intro a0 a1 s
  unfold State.fetchOne
  repeat' (first | with_reducible rfl
                    | simp only [↓apply_ite State.still, ite_self, ↓st_stop, ↓st_took, ↓apply_ite Fetch.st, ↓State.refuse_still, ↓State.updMbx_still, ↓State.awaitEnd_still, ↓State.halt_still]
                    | (refine (State.submit_still_w _ _ _ _ _ _  _ ‹_›).trans ?_) | (refine (State.submit_still_t _ _ _ _ _ _  _ ‹_›).trans ?_)
                    | split)
theorem State.fetchOne_still_w : ∀ a0 a1 s t, @State.fetchOne a0 a1 s = .stop t → t.still = s.still := by
  intro a0 a1 s t h
  have := State.fetchOne_still a0 a1 s
  rwa [h] at this

theorem State.takeTurn_still : ∀ a0 a1 a2 s, (@State.takeTurn a0 a1 a2 s).still = s.still := by
  intro a0 a1
  induction a1 with
  | nil => intro a2 s; rfl
  | cons p ps ih =>
    intro a2 s
    unfold State.takeTurn
    have e := State.fetchOne_still a0 p s
    split
    · rename_i hq; rw [hq] at e; exact e
    · rename_i hq; rw [hq] at e
      split
      · exact e
      · exact (ih ..).trans e

theorem execMailboxTurn_still : ∀ a0 s, ∀ t, @execMailboxTurn a0 s = .next t → t.still = s.still := by
  intro a0 s t h
  simp only [execMailboxTurn, Host.Outcome.next.injEq] at h
  subst h
  repeat' (first | with_reducible rfl | (simp only [↓still_mk, ↓still_fold, ↓apply_ite State.still, ↓State.takeTurn_still]; done)
                    | simp only [↓apply_ite State.still] | split)

theorem execIncompletePacket_still : ∀ a0 s, ∀ t, @execIncompletePacket a0 s = .next t → t.still = s.still := by
  intro a0 s t h
  simp only [execIncompletePacket, Host.Outcome.next.injEq] at h
  subst h
  repeat' (first | with_reducible rfl | (simp only [↓apply_ite State.still, ite_self, ↓State.halt_still]; done) | split)

/-! ### Mailbox -/

theorem State.dropDone_still : ∀ a0 s, (@State.dropDone a0 s).still = s.still := by
  intro a0 s
  unfold State.dropDone
  repeat' (first | (simp only [↓still_mk, ↓still_fold]; done))

theorem State.settleOne_still : ∀ s a1, (@State.settleOne s a1).still = s.still := by
  intro s a1
  unfold State.settleOne
  repeat' (first | with_reducible rfl | (simp only [↓apply_ite State.still, ite_self, ↓State.answer_still]; done) | split)

theorem State.settle_still : ∀ s, (@State.settle s).still = s.still := by
  intro s
  unfold State.settle
  repeat' (first | with_reducible rfl | (simp only [↓State.settleOne_still]; done)
                    | with_reducible refine (still_foldl _ _ (fun _ _ => ?_) _).trans ?_)

theorem State.discardResponse_still : ∀ a0 s, (@State.discardResponse a0 s).still = s.still := by
  intro a0 s
  unfold State.discardResponse
  repeat' (first
                    | (simp only [↓apply_ite State.still, ite_self, ↓State.log_still, ↓State.settle_still, ↓State.charge_still, ↓State.dropDone_still]; done))

theorem State.sealSeq_still : ∀ a0 a1 s, ∀ t, @State.sealSeq a0 a1 s = some t → t.2.still = s.still := by
  intro a0 a1 s t h
  unfold State.sealSeq at h
  repeat' (first | with_reducible rfl | (simp only [↓still_mk, ↓still_fold]; done) | (rw [none_ok] at h; exact h.elim)
                    | (rw [Option.some.injEq] at h; subst h) | (dsimp only at h) | (split at h))

theorem State.sealResponse_still : ∀ a0 s, (@State.sealResponse a0 s).2.2.still = s.still := by
  intro a0 s
  unfold State.sealResponse
  repeat' (first | with_reducible rfl | simp only [↓apply_ite State.still, ↓apply_ite Prod.snd]
                    | with_reducible refine (State.sealSeq_still _ _ _ _ ‹_›).trans ?_ | split)

theorem State.outgoing_still : ∀ a0 s, (@State.outgoing a0 s).2.2.still = s.still := by
  intro a0 s
  unfold State.outgoing
  repeat' (first | (simp only [↓State.account_still, ↓State.sealResponse_still]; done))

theorem State.afterWritten_still : ∀ a0 s, (@State.afterWritten a0 s).still = s.still := by
  intro a0 s
  unfold State.afterWritten
  repeat' (first | (simp only [↓still_mk, ↓still_fold, ↓apply_ite State.still, ite_self, ↓State.settle_still]; done))

theorem State.writePort_still : ∀ a0 a1 s, (@State.writePort a0 a1 s).still = s.still := by
  intro a0 a1 s
  unfold State.writePort
  repeat' (first
                    | (simp only [↓still_mk, ↓still_fold, ↓State.emit_still, ↓State.afterWritten_still, ↓State.dropDone_still, ↓State.outgoing_still]; done))

theorem State.writeRing_still : ∀ a0 s, (@State.writeRing a0 s).still = s.still := by
  intro a0 s
  unfold State.writeRing
  repeat' (first
                    | (simp only [↓State.emit_still, ↓State.afterWritten_still, ↓State.setMbx_still, ↓State.dropDone_still, ↓State.outgoing_still]; done))

theorem State.writeOne_still : ∀ a0 s, (@State.writeOne a0 s).still = s.still := by
  intro a0 s
  unfold State.writeOne
  repeat' (first | with_reducible rfl
                    | (simp only [↓apply_ite State.still, ite_self, ↓State.writeRing_still, ↓State.writePort_still, ↓State.discardResponse_still]; done)
                    | simp only [↓apply_ite State.still, ↓State.discardResponse_still] | split)

theorem State.writeMany_still : ∀ a0 a1 s, (@State.writeMany a0 a1 s).still = s.still := by
  intro a0 a1
  induction a1 with
  | zero => intro s; rfl
  | succ n ih => intro s; exact (ih _).trans (State.writeOne_still a0 s)

theorem State.reportByCount_still : ∀ a0 s, (@State.reportByCount a0 s).still = s.still := by
  intro a0 s
  unfold State.reportByCount
  repeat' (first | (simp only [↓apply_ite State.still, ite_self, ↓State.reportResponses_still]; done))

theorem execResponseWrite_still : ∀ a0 a1 s, ∀ t, @execResponseWrite a0 a1 s = .next t → t.still = s.still := by
  intro a0 a1 s t h
  simp only [execResponseWrite, Host.Outcome.next.injEq] at h
  subst h
  repeat' (first | (simp only [↓apply_ite State.still, ite_self, ↓State.emit_still, ↓State.reportByCount_still, ↓State.writeMany_still]; done))

theorem execIrqModTimer_still : ∀ a0 s, ∀ t, @execIrqModTimer a0 s = .next t → t.still = s.still := by
  intro a0 s t h
  simp only [execIrqModTimer, Host.Outcome.next.injEq] at h
  subst h
  repeat' (first | (simp only [↓apply_ite State.still, ite_self, ↓State.reportResponses_still]; done))

theorem State.recordKeyless_still : ∀ a0 a1 s, (@State.recordKeyless a0 a1 s).still = s.still := by
  intro a0 a1 s
  unfold State.recordKeyless
  repeat' (first | (simp only [↓State.updStream_still, ↓State.abortStreams_still, ↓State.answerDetail_still]; done) | split)

theorem State.writeRecord_still : ∀ a0 a1 a2 a3 a4 s, (@State.writeRecord a0 a1 a2 a3 a4 s).still = s.still := by
  intro a0 a1 a2 a3 a4 s
  unfold State.writeRecord
  repeat' (first
                    | (simp only [↓still_mk, ↓still_fold, ↓apply_ite State.still, ite_self, ↓State.updStream_still, ↓State.vector_still, ↓State.emit_still, ↓State.charge_still]; done))

theorem execStreamRecordWrite_still : ∀ a0 s, ∀ t, @execStreamRecordWrite a0 s = .next t → t.still = s.still := by
  intro a0 s t h
  simp only [execStreamRecordWrite, Host.Outcome.next.injEq] at h
  subst h
  repeat' (first | with_reducible rfl
                    | (simp only [↓apply_ite State.still, ↓State.answer_still, ↓State.writeRecord_still, ↓State.recordKeyless_still]; done)
                    | simp only [↓apply_ite State.still, ↓State.answer_still, ↓State.writeRecord_still]
                    | with_reducible refine (State.sealSeq_still _ _ _ _ ‹_›).trans ?_ | split)

theorem execStreamWaitTimeout_still : ∀ a0 s, ∀ t, @execStreamWaitTimeout a0 s = .next t → t.still = s.still := by
  intro a0 s t h
  simp only [execStreamWaitTimeout, Host.Outcome.next.injEq] at h
  subst h
  repeat' (first | with_reducible rfl | (simp only [↓apply_ite State.still, ite_self, ↓State.abortStreams_still, ↓State.answer_still]; done) | split)

theorem execStreamAbortRecord_still : ∀ a0 s, ∀ t, @execStreamAbortRecord a0 s = .next t → t.still = s.still := by
  intro a0 s t h
  simp only [execStreamAbortRecord, Host.Outcome.next.injEq] at h
  subst h
  repeat' (first | with_reducible rfl | (simp only [↓apply_ite State.still, ↓State.writeRecord_still]; done)
                    | simp only [↓apply_ite State.still, ↓State.writeRecord_still] | with_reducible refine (State.sealSeq_still _ _ _ _ ‹_›).trans ?_
                    | split)

theorem execStreamIrqTimer_still : ∀ a0 s, ∀ t, @execStreamIrqTimer a0 s = .next t → t.still = s.still := by
  intro a0 s t h
  simp only [execStreamIrqTimer, Host.Outcome.next.injEq] at h
  subst h
  repeat' (first | with_reducible rfl | (simp only [↓apply_ite State.still, ite_self, ↓State.updStream_still, ↓State.vector_still]; done) | split)

/-! ### Crews -/

theorem State.formCrewOf_still : ∀ a0 a1 a2 a3 a4 s, ∀ t, @State.formCrewOf a0 a1 a2 a3 a4 s = some t → t.still = s.still := by
  intro a0 a1 a2 a3 a4 s t h
  unfold State.formCrewOf at h
  repeat' (first | (simp only [↓still_mk, ↓still_fold]; done) | (rw [none_ok] at h; exact h.elim) | (rw [Option.some.injEq] at h; subst h)
                    | (dsimp only at h) | (split at h))

theorem State.formCrew_still : ∀ a0 a1 a2 a3 s a5, ∀ t, @State.formCrew a0 a1 a2 a3 s a5 = some t → t.still = s.still := by
  intro a0 a1 a2 a3 s a5 t h
  unfold State.formCrew at h
  repeat' (first | with_reducible rfl | with_reducible refine (State.formCrewOf_still _ _ _ _ _ _ _ h).trans ?_)

theorem State.withCrew_still : ∀ a0 a1 a2 a3 s a5, (∀ x0 t, a3 x0 = .ok t → t.still = x0.still) → ∀ t, @State.withCrew a0 a1 a2 a3 s a5 = .ok t → t.still = s.still := by
  intro a0 a1 a2 a3 s a5 h0 t h
  unfold State.withCrew at h
  repeat' (first | with_reducible rfl
                    | (simp only [↓still_mk, ↓still_fold, ↓State.setWork_still, ↓State.logUnit_still, ↓State.answerDetail_still, ↓State.markLogged_still]; done)
                    | (rw [err_ok] at h; exact h.elim) | (rw [ok_ok] at h; subst h) | (dsimp only at h) | (split at h)
                    | with_reducible refine (State.formCrew_still _ _ _ _ _ _ _ ‹_›).trans ?_ | with_reducible refine (h0 _ _ ‹_›).trans ?_
                    | (rename_i hq; rw [none_ok] at hq; exact hq.elim) | (rename_i hq; split at hq))

theorem State.updCrew_still : ∀ a0 a1 a2 s, (@State.updCrew a0 a1 a2 s).still = s.still := by
  intro a0 a1 a2 s
  unfold State.updCrew
  repeat' (first | (simp only [↓still_mk, ↓still_fold]; done))

theorem State.stage_still : ∀ a0 a1 s, (@State.stage a0 a1 s).still = s.still := by
  intro a0 a1 s
  unfold State.stage
  repeat' (first | (simp only [↓State.updCrew_still]; done))

theorem State.tileGone_still : ∀ a0 s, (@State.tileGone a0 s).still = s.still := by
  intro a0 s
  unfold State.tileGone
  repeat' (first
                    | (simp only [↓still_mk, ↓still_fold, ↓apply_ite State.still, ite_self, ↓State.logKind_still, ↓State.emit_still, ↓State.logUnit_still]; done))

theorem State.substitute_still : ∀ a0 s, (@State.substitute a0 s).still = s.still := by
  intro a0 s
  unfold State.substitute
  repeat' (first | with_reducible rfl | (simp only [↓still_mk, ↓still_fold, ↓apply_ite State.still, ↓State.tileGone_still]; done)
                    | simp only [↓still_mk, ↓still_fold, ↓apply_ite State.still] | split)

theorem execTileRetire_still : ∀ a0 s, ∀ t, @execTileRetire a0 s = .next t → t.still = s.still := by
  intro a0 s t h
  simp only [execTileRetire, Host.Outcome.next.injEq] at h
  subst h
  repeat' (first | (simp only [↓still_mk, ↓still_fold, ↓apply_ite State.still, ite_self, ↓State.logUnit_still, ↓State.substitute_still]; done)
                    | split)

theorem execSuspectTileExpire_still : ∀ a0 s, ∀ t, @execSuspectTileExpire a0 s = .next t → t.still = s.still := by
  intro a0 s t h
  simp only [execSuspectTileExpire, Host.Outcome.next.injEq] at h
  subst h
  repeat' (first | with_reducible rfl | (simp only [↓still_mk, ↓still_fold, ↓apply_ite State.still, ite_self]; done) | split)

theorem State.chargeTiles_still : ∀ a0 s, (@State.chargeTiles a0 s).still = s.still := by
  intro a0 s
  unfold State.chargeTiles
  repeat' (first | (simp only [↓State.charge_still, ↓State.draw_still]; done))

theorem State.settleTiles_still : ∀ s, (@State.settleTiles s).still = s.still := by
  intro s
  unfold State.settleTiles
  repeat' (first | (simp only [↓still_mk, ↓still_fold]; done))

theorem State.loseMember_still : ∀ a0 a1 s, (@State.loseMember a0 a1 s).still = s.still := by
  intro a0 a1 s
  unfold State.loseMember
  repeat' (first | with_reducible rfl | (simp only [↓apply_ite State.still, ↓State.dataLost_still, ↓State.updCrew_still]; done)
                    | simp only [↓apply_ite State.still, ↓State.updCrew_still] | with_reducible refine (still_foldl _ _ (fun _ _ => ?_) _).trans ?_
                    | split)

theorem execTileFailed_still : ∀ a0 a1 s, ∀ t, @execTileFailed a0 a1 s = .next t → t.still = s.still := by
  intro a0 a1 s t h
  simp only [execTileFailed, Host.Outcome.next.injEq] at h
  subst h
  repeat' (first | with_reducible rfl
                    | (simp only [↓apply_ite State.still, ite_self, ↓State.logUnit_still, ↓State.loseMember_still, ↓State.substitute_still]; done)
                    | split)

theorem execSpareSubstituted_still : ∀ a0 s, ∀ t, @execSpareSubstituted a0 s = .next t → t.still = s.still := by
  intro a0 s t h
  simp only [execSpareSubstituted, Host.Outcome.next.injEq] at h
  subst h
  repeat' (first | with_reducible rfl | (simp only [↓still_mk, ↓still_fold, ↓apply_ite State.still, ite_self, ↓State.substitute_still]; done) | split)

theorem State.noteWait_still : ∀ a0 s, (@State.noteWait a0 s).still = s.still := by
  intro a0 s
  unfold State.noteWait
  repeat' (first | (simp only [↓still_mk, ↓still_fold]; done))

theorem execCrewForm_still : ∀ a0 s, ∀ t, @execCrewForm a0 s = .next t → t.still = s.still := by
  intro a0 s t h
  simp only [execCrewForm, Host.Outcome.next.injEq] at h
  subst h
  repeat' (first | with_reducible rfl | simp only [↓still_mk, ↓still_fold, ↓State.noteWait_still, ↓State.updFlight_still]
                    | with_reducible refine (State.formCrew_still _ _ _ _ _ _ _ ‹_›).trans ?_ | split)

theorem execCrewQueueTimeout_still : ∀ a0 s, ∀ t, @execCrewQueueTimeout a0 s = .next t → t.still = s.still := by
  intro a0 s t h
  simp only [execCrewQueueTimeout, Host.Outcome.next.injEq] at h
  subst h
  repeat' (first | with_reducible rfl
                    | (simp only [↓still_mk, ↓still_fold, ↓apply_ite State.still, ↓State.noteWait_still, ↓State.answerDetail_still]; done)
                    | simp only [↓apply_ite State.still] | split)

theorem execWorkSteal_still : ∀ a0 a1 a2 s, ∀ t, @execWorkSteal a0 a1 a2 s = .next t → t.still = s.still := by
  intro a0 a1 a2 s t h
  simp only [execWorkSteal, Host.Outcome.next.injEq] at h
  subst h
  repeat' (first | with_reducible rfl | (simp only [↓apply_ite State.still, ↓State.updCrew_still]; done) | simp only [↓apply_ite State.still] | split)

theorem execSlowMember_still : ∀ a0 a1 a2 s, ∀ t, @execSlowMember a0 a1 a2 s = .next t → t.still = s.still := by
  intro a0 a1 a2 s t h
  simp only [execSlowMember, Host.Outcome.next.injEq] at h
  subst h
  repeat' (first | with_reducible rfl | (simp only [↓still_mk, ↓still_fold, ↓apply_ite State.still, ite_self, ↓State.updCrew_still]; done) | split)

theorem execSuspectTile_still : ∀ a0 s, ∀ t, @execSuspectTile a0 s = .next t → t.still = s.still := by
  intro a0 s t h
  simp only [execSuspectTile, Host.Outcome.next.injEq] at h
  subst h
  repeat' (first | (simp only [↓still_mk, ↓still_fold, ↓apply_ite State.still, ite_self, ↓State.logKind_still]; done))

theorem execFlitRetryExhausted_still : ∀ a0 a1 s, ∀ t, @execFlitRetryExhausted a0 a1 s = .next t → t.still = s.still := by
  intro a0 a1 s t h
  simp only [execFlitRetryExhausted, Host.Outcome.next.injEq] at h
  subst h
  repeat' (first | with_reducible rfl
                    | (simp only [↓still_mk, ↓still_fold, ↓apply_ite State.still, ite_self, ↓State.logUnit_still, ↓State.dataLost_still]; done)
                    | simp only [↓still_mk, ↓still_fold, ↓apply_ite State.still, ite_self, ↓State.logUnit_still]
                    | with_reducible refine (still_foldl _ _ (fun _ _ => ?_) _).trans ?_ | split)

theorem execBridgeReroute_still : ∀ a0 s, ∀ t, @execBridgeReroute a0 s = .next t → t.still = s.still := by
  intro a0 s t h
  simp only [execBridgeReroute, Host.Outcome.next.injEq] at h
  subst h
  repeat' (first | (simp only [↓still_mk, ↓still_fold]; done))

theorem State.selfTest_still : ∀ a0 s, (@State.selfTest a0 s).still = s.still := by
  intro a0 s
  unfold State.selfTest
  repeat' (first | with_reducible rfl
                    | (simp only [↓still_mk, ↓still_fold, ↓apply_ite State.still, ↓State.tileGone_still, ↓State.logUnit_still, ↓State.settleTiles_still]; done)
                    | simp only [↓apply_ite State.still] | with_reducible refine (still_foldl _ _ (fun _ _ => ?_) _).trans ?_ | split)

/-! ### FlashOps -/

theorem State.updQuad_still : ∀ a0 a1 s, (@State.updQuad a0 a1 s).still = s.still := by
  intro a0 a1 s
  unfold State.updQuad
  repeat' (first | (simp only [↓still_mk, ↓still_fold]; done))

theorem State.media_still : ∀ a0 a1 s, (@State.media a0 a1 s).still = s.still := by
  intro a0 a1 s
  unfold State.media
  repeat' (first | (simp only [↓still_mk, ↓still_fold]; done))

theorem State.updDie_still : ∀ a0 a1 s, (@State.updDie a0 a1 s).still = s.still := by
  intro a0 a1 s
  unfold State.updDie
  repeat' (first | (simp only [↓still_mk, ↓still_fold]; done))

theorem State.readEffects_still : ∀ a0 a1 a2 s, (@State.readEffects a0 a1 a2 s).still = s.still := by
  intro a0 a1 a2 s
  unfold State.readEffects
  repeat' (first
                    | (simp only [↓still_mk, ↓still_fold, ↓apply_ite State.still, ite_self, ↓State.updDie_still, ↓State.media_still, ↓State.updQuad_still]; done)
                    | simp only [] | split)

theorem State.touchPage_still : ∀ a0 s, (@State.touchPage a0 s).still = s.still := by
  intro a0 s
  unfold State.touchPage
  repeat' (first | with_reducible rfl | (simp only [↓still_mk, ↓still_fold, ↓apply_ite State.still]; done)
                    | simp only [↓still_mk, ↓still_fold, ↓apply_ite State.still] | split)

theorem State.reclaimSlots_still : ∀ a0 s, (@State.reclaimSlots a0 s).still = s.still := by
  intro a0 s
  unfold State.reclaimSlots
  repeat' (first | (simp only [↓still_mk, ↓still_fold, ↓apply_ite State.still, ite_self]; done))

theorem State.dropHostPage_still : ∀ a0 s, (@State.dropHostPage a0 s).still = s.still := by
  intro a0 s
  unfold State.dropHostPage
  repeat' (first | with_reducible rfl | (simp only [↓still_mk, ↓still_fold, ↓State.reclaimSlots_still]; done) | simp only [] | split)

theorem State.mapUnit_still : ∀ a0 a1 s, (@State.mapUnit a0 a1 s).still = s.still := by
  intro a0 a1 s
  unfold State.mapUnit
  repeat' (first | with_reducible rfl | (simp only [↓still_mk, ↓still_fold, ↓State.dropHostPage_still, ↓State.updQuad_still]; done)
                    | simp only [↓still_mk, ↓still_fold, ↓State.dropHostPage_still] | split)

theorem State.unmapObject_still : ∀ a0 a1 s, (@State.unmapObject a0 a1 s).still = s.still := by
  intro a0 a1 s
  unfold State.unmapObject
  repeat' (first | with_reducible rfl | (simp only [↓State.mapUnit_still]; done) | with_reducible refine (still_foldl _ _ (fun _ _ => ?_) _).trans ?_)

theorem State.programJournal_still : ∀ s, (@State.programJournal s).still = s.still := by
  intro s
  unfold State.programJournal
  repeat' (first | (simp only [↓still_mk, ↓still_fold, ↓apply_ite State.still, ite_self, ↓State.emit_still]; done))

theorem State.flushJournal_still : ∀ a0 s, (@State.flushJournal a0 s).still = s.still := by
  intro a0
  induction a0 with
  | zero => intro s; rfl
  | succ n ih => intro s; exact (ih _).trans (State.programJournal_still s)

theorem State.journalAll_still : ∀ s, (@State.journalAll s).still = s.still := by
  intro s
  unfold State.journalAll
  repeat' (first | (simp only [↓State.flushJournal_still]; done))

theorem State.writeHostPage_still : ∀ a0 a1 a2 s, (@State.writeHostPage a0 a1 a2 s).still = s.still := by
  intro a0 a1 a2 s
  unfold State.writeHostPage
  repeat' (first | with_reducible rfl | (simp only [↓State.emit_still]; done) | simp only [] | split)

set_option maxRecDepth 4000 in
theorem State.needBand_still : ∀ a0 a1 s, ∀ t, @State.needBand a0 a1 s = some t → t.2.2.still = s.still := by
  intro a0 a1 s t h
  unfold State.needBand at h
  repeat' (first | with_reducible rfl | (simp only [↓still_mk, ↓still_fold, ↓State.updQuad_still]; done) | (rw [none_ok] at h; exact h.elim)
                    | (rw [Option.some.injEq] at h; subst h) | (dsimp only at h) | (split at h) | simp only [↓still_mk, ↓still_fold]
                    | with_reducible refine (still_foldl _ _ (fun _ _ => ?_) _).trans ?_)

theorem State.programUnit_still : ∀ a0 a1 a2 s, (@State.programUnit a0 a1 a2 s).still = s.still := by
  intro a0 a1 a2 s
  unfold State.programUnit
  repeat' (first | with_reducible rfl | (simp only [↓State.emit_still]; done) | with_reducible refine (still_foldl _ _ (fun _ _ => ?_) _).trans ?_)

theorem State.closeBand_still : ∀ a0 s, (@State.closeBand a0 s).still = s.still := by
  intro a0 s
  unfold State.closeBand
  repeat' (first | (simp only [↓still_mk, ↓still_fold]; done))

theorem State.retireQuad_still : ∀ a0 s, (@State.retireQuad a0 s).still = s.still := by
  intro a0 s
  unfold State.retireQuad
  repeat' (first | (simp only [↓State.updQuad_still, ↓State.media_still]; done))

theorem State.undoJournal_still : ∀ s, (@State.undoJournal s).still = s.still := by
  intro s
  unfold State.undoJournal
  repeat' (first | (simp only [↓still_mk, ↓still_fold]; done))

/-! ### Piw -/

theorem State.answerSlot_still : ∀ a0 a1 a2 a3 s, (@State.answerSlot a0 a1 a2 a3 s).still = s.still := by
  intro a0 a1 a2 a3 s
  unfold State.answerSlot
  repeat' (first | (simp only [↓State.winViolation_still, ↓State.refuse_still]; done) | split)

theorem completePacket_still : ∀ a0 a1 s, (@completePacket a0 a1 s).still = s.still := by
  intro a0 a1 s
  unfold completePacket
  repeat' (first
                    | (simp only [↓apply_ite State.still, ite_self, ↓State.answerSlot_still, ↓State.updWin_still, ↓State.winSilent_still, ↓State.flushStep_still, ↓State.setWin_still]; done))

theorem execPiwFlushComplete_still : ∀ a0 s, ∀ t, @execPiwFlushComplete a0 s = .next t → t.still = s.still := by
  intro a0 s t h
  simp only [execPiwFlushComplete, Host.Outcome.next.injEq] at h
  subst h
  repeat' (first | with_reducible rfl | (simp only [↓apply_ite State.still, ↓State.updWin_still, ↓State.answer_still, ↓State.flushStep_still]; done)
                    | simp only [↓apply_ite State.still, ↓State.flushStep_still] | split)

theorem windowWrite_still : ∀ a0 a1 a2 s, (@windowWrite a0 a1 a2 s).still = s.still := by
  intro a0 a1 a2 s
  unfold windowWrite
  repeat' (first
                    | (simp only [↓apply_ite State.still, ite_self, ↓completePacket_still, ↓State.setWin_still, ↓State.globalError_still, ↓State.winSilent_still]; done))

theorem execPiwDataWrite_still : ∀ a0 a1 a2 s, ∀ t, @execPiwDataWrite a0 a1 a2 s = .next t → t.still = s.still := by
  intro a0 a1 a2 s t h
  simp only [execPiwDataWrite, Host.Outcome.next.injEq] at h
  subst h
  repeat' (first | with_reducible rfl | (simp only [↓windowWrite_still]; done) | intro _
                    | with_reducible refine (State.overPcie_still _ _ ?_ ).trans ?_)

theorem execPiwSlotWrite_still : ∀ a0 a1 s, ∀ t, @execPiwSlotWrite a0 a1 s = .next t → t.still = s.still := by
  intro a0 a1 s t h
  simp only [execPiwSlotWrite, Host.Outcome.next.injEq] at h
  subst h
  repeat' (first | with_reducible rfl | (simp only [↓windowWrite_still]; done) | intro _
                    | with_reducible refine (State.overPcie_still _ _ ?_ ).trans ?_)

theorem execPiwPacketTimeout_still : ∀ a0 s, ∀ t, @execPiwPacketTimeout a0 s = .next t → t.still = s.still := by
  intro a0 s t h
  simp only [execPiwPacketTimeout, Host.Outcome.next.injEq] at h
  subst h
  repeat' (first | with_reducible rfl
                    | (simp only [↓apply_ite State.still, ite_self, ↓State.setWin_still, ↓State.winSilent_still, ↓State.flushStep_still]; done)
                    | split)

/-! ### Spdm -/

theorem State.spdmError_still : ∀ a0 a1 s, (@State.spdmError a0 a1 s).still = s.still := by
  intro a0 a1 s
  unfold State.spdmError
  repeat' (first | (simp only [↓State.emit_still]; done))

theorem State.overSpdm_still : ∀ a0 a1 s, (∀ x0, (a1 x0).still = x0.still) → (@State.overSpdm a0 a1 s).still = s.still := by
  intro a0 a1 s h0
  unfold State.overSpdm
  repeat' (first | with_reducible rfl | simp only [↓apply_ite State.still] | with_reducible exact h0 .. | split)

theorem State.spdmSend_still : ∀ a0 a1 a2 a3 a4 s, (@State.spdmSend a0 a1 a2 a3 a4 s).still = s.still := by
  intro a0 a1 a2 a3 a4 s
  unfold State.spdmSend
  repeat' (first | (simp only [↓still_mk, ↓still_fold, ↓apply_ite State.still, ite_self, ↓State.emit_still]; done))

theorem State.setPhase_still : ∀ a0 a1 s, (@State.setPhase a0 a1 s).still = s.still := by
  intro a0 a1 s
  unfold State.setPhase
  repeat' (first | (simp only [↓still_mk, ↓still_fold]; done))

theorem execSpdmNegotiateAlgorithms_still : ∀ a0 a1 s, ∀ t, @execSpdmNegotiateAlgorithms a0 a1 s = .next t → t.still = s.still := by
  intro a0 a1 s t h
  simp only [execSpdmNegotiateAlgorithms, Host.Outcome.next.injEq] at h
  subst h
  repeat' (first | with_reducible rfl
                    | (simp only [↓apply_ite State.still, ite_self, ↓State.setPhase_still, ↓State.spdmSend_still, ↓State.spdmError_still]; done)
                    | intro _ | with_reducible refine (State.overSpdm_still _ _ _ ?_ ).trans ?_)

theorem State.negotiated_still : ∀ a0 a1 s, (∀ x0, (a1 x0).still = x0.still) → (@State.negotiated a0 a1 s).still = s.still := by
  intro a0 a1 s h0
  unfold State.negotiated
  repeat' (first | with_reducible rfl | simp only [↓apply_ite State.still, ↓State.spdmError_still] | with_reducible exact h0 .. | split)

theorem execSpdmGetDigests_still : ∀ a0 s, ∀ t, @execSpdmGetDigests a0 s = .next t → t.still = s.still := by
  intro a0 s t h
  simp only [execSpdmGetDigests, Host.Outcome.next.injEq] at h
  subst h
  repeat' (first | with_reducible rfl | (simp only [↓State.spdmSend_still]; done) | intro _
                    | with_reducible refine (State.negotiated_still _ _ _ ?_ ).trans ?_
                    | with_reducible refine (State.overSpdm_still _ _ _ ?_ ).trans ?_)

theorem execSpdmUnsupportedRequest_still : ∀ a0 a1 s, ∀ t, @execSpdmUnsupportedRequest a0 a1 s = .next t → t.still = s.still := by
  intro a0 a1 s t h
  simp only [execSpdmUnsupportedRequest, Host.Outcome.next.injEq] at h
  subst h
  repeat' (first | with_reducible rfl | (simp only [↓State.emit_still]; done) | intro _
                    | with_reducible refine (State.overSpdm_still _ _ _ ?_ ).trans ?_)

theorem execSpdmGetVersion_still : ∀ a0 s, ∀ t, @execSpdmGetVersion a0 s = .next t → t.still = s.still := by
  intro a0 s t h
  simp only [execSpdmGetVersion, Host.Outcome.next.injEq] at h
  subst h
  repeat' (first | with_reducible rfl | (simp only [↓State.setPhase_still, ↓State.emit_still]; done) | intro _
                    | with_reducible refine (State.overSpdm_still _ _ _ ?_ ).trans ?_)

theorem execSpdmGetCapabilities_still : ∀ a0 a1 s, ∀ t, @execSpdmGetCapabilities a0 a1 s = .next t → t.still = s.still := by
  intro a0 a1 s t h
  simp only [execSpdmGetCapabilities, Host.Outcome.next.injEq] at h
  subst h
  repeat' (first | with_reducible rfl
                    | (simp only [↓apply_ite State.still, ite_self, ↓State.setPhase_still, ↓State.spdmSend_still, ↓State.spdmError_still]; done)
                    | intro _ | with_reducible refine (State.overSpdm_still _ _ _ ?_ ).trans ?_)

theorem execSpdmGetCertificate_still : ∀ a0 a1 a2 a3 s, ∀ t, @execSpdmGetCertificate a0 a1 a2 a3 s = .next t → t.still = s.still := by
  intro a0 a1 a2 a3 s t h
  simp only [execSpdmGetCertificate, Host.Outcome.next.injEq] at h
  subst h
  repeat' (first | with_reducible rfl | (simp only [↓State.spdmError_still, ↓State.spdmSend_still]; done) | intro _
                    | with_reducible refine (State.negotiated_still _ _ _ ?_ ).trans ?_
                    | with_reducible refine (State.overSpdm_still _ _ _ ?_ ).trans ?_ | split)

theorem State.spdmDraw_still : ∀ s, (@State.spdmDraw s).2.still = s.still := by
  intro s
  unfold State.spdmDraw
  repeat' (first | (simp only [↓still_mk, ↓still_fold]; done))
theorem State.spdmDraw_still_eq : ∀ s t x, @State.spdmDraw s = (x, t) → t.still = s.still := by
  intro s t x h
  have := State.spdmDraw_still s
  rwa [h] at this

theorem execSpdmChallenge_still : ∀ a0 a1 a2 s, ∀ t, @execSpdmChallenge a0 a1 a2 s = .next t → t.still = s.still := by
  intro a0 a1 a2 s t h
  simp only [execSpdmChallenge, Host.Outcome.next.injEq] at h
  subst h
  repeat' (first | with_reducible rfl | (simp only [↓State.spdmError_still, ↓State.spdmSend_still, ↓State.spdmDraw_still]; done) | intro _
                    | with_reducible refine (State.negotiated_still _ _ _ ?_ ).trans ?_
                    | with_reducible refine (State.overSpdm_still _ _ _ ?_ ).trans ?_ | split)

theorem execSpdmGetMeasurements_still : ∀ a0 a1 a2 a3 s, ∀ t, @execSpdmGetMeasurements a0 a1 a2 a3 s = .next t → t.still = s.still := by
  intro a0 a1 a2 a3 s t h
  simp only [execSpdmGetMeasurements, Host.Outcome.next.injEq] at h
  subst h
  repeat' (first | with_reducible rfl
                    | (simp only [↓apply_ite State.still, ite_self, ↓State.spdmSend_still, ↓State.spdmDraw_still, ↓State.spdmError_still]; done)
                    | intro _ | with_reducible refine (State.negotiated_still _ _ _ ?_ ).trans ?_
                    | with_reducible refine (State.overSpdm_still _ _ _ ?_ ).trans ?_)

theorem execSpdmKeyExchange_still : ∀ a0 a1 a2 s, ∀ t, @execSpdmKeyExchange a0 a1 a2 s = .next t → t.still = s.still := by
  intro a0 a1 a2 s t h
  simp only [execSpdmKeyExchange, Host.Outcome.next.injEq] at h
  subst h
  repeat' (first | with_reducible rfl
                    | (simp only [↓still_mk, ↓still_fold, ↓apply_ite State.still, ite_self, ↓State.spdmSend_still, ↓State.spdmDraw_still, ↓State.spdmError_still]; done)
                    | intro _ | with_reducible refine (State.negotiated_still _ _ _ ?_ ).trans ?_
                    | with_reducible refine (State.overSpdm_still _ _ _ ?_ ).trans ?_)

theorem State.closeMgmt_still : ∀ s, (@State.closeMgmt s).still = s.still := by
  intro s
  unfold State.closeMgmt
  repeat' (first | (simp only [↓still_mk, ↓still_fold]; done))

theorem execSpdmFinish_still : ∀ a0 a1 a2 s, ∀ t, @execSpdmFinish a0 a1 a2 s = .next t → t.still = s.still := by
  intro a0 a1 a2 s t h
  simp only [execSpdmFinish, Host.Outcome.next.injEq] at h
  subst h
  repeat' (first | with_reducible rfl
                    | (simp only [↓still_mk, ↓still_fold, ↓apply_ite State.still, ite_self, ↓State.closeMgmt_still, ↓State.spdmSend_still, ↓State.spdmError_still]; done)
                    | intro _ | with_reducible refine (State.overSpdm_still _ _ _ ?_ ).trans ?_ | split)

theorem State.inMgmt_still : ∀ a0 a1 s, (∀ x0, (a1 x0).still = x0.still) → (@State.inMgmt a0 a1 s).still = s.still := by
  intro a0 a1 s h0
  unfold State.inMgmt
  repeat' (first | with_reducible rfl | (simp only [↓apply_ite State.still, ↓State.spdmError_still]; done)
                    | simp only [↓apply_ite State.still, ↓State.spdmError_still] | with_reducible exact h0 .. | split)

theorem execSpdmHeartbeat_still : ∀ a0 s, ∀ t, @execSpdmHeartbeat a0 s = .next t → t.still = s.still := by
  intro a0 s t h
  simp only [execSpdmHeartbeat, Host.Outcome.next.injEq] at h
  subst h
  repeat' (first | with_reducible rfl | (simp only [↓still_mk, ↓still_fold, ↓State.spdmSend_still]; done) | intro _
                    | with_reducible refine (State.inMgmt_still _ _ _ ?_ ).trans ?_ | with_reducible refine (State.overSpdm_still _ _ _ ?_ ).trans ?_)

theorem execSpdmKeyUpdate_still : ∀ a0 a1 s, ∀ t, @execSpdmKeyUpdate a0 a1 s = .next t → t.still = s.still := by
  intro a0 a1 s t h
  simp only [execSpdmKeyUpdate, Host.Outcome.next.injEq] at h
  subst h
  repeat' (first | with_reducible rfl
                    | (simp only [↓still_mk, ↓still_fold, ↓apply_ite State.still, ite_self, ↓State.spdmError_still, ↓State.spdmSend_still]; done)
                    | intro _ | with_reducible refine (State.inMgmt_still _ _ _ ?_ ).trans ?_
                    | with_reducible refine (State.overSpdm_still _ _ _ ?_ ).trans ?_)

theorem execSpdmEndSession_still : ∀ a0 s, ∀ t, @execSpdmEndSession a0 s = .next t → t.still = s.still := by
  intro a0 s t h
  simp only [execSpdmEndSession, Host.Outcome.next.injEq] at h
  subst h
  repeat' (first | with_reducible rfl | (simp only [↓State.spdmSend_still, ↓State.closeMgmt_still]; done) | intro _
                    | with_reducible refine (State.inMgmt_still _ _ _ ?_ ).trans ?_ | with_reducible refine (State.overSpdm_still _ _ _ ?_ ).trans ?_)

theorem execSpdmSetCertificate_still : ∀ a0 a1 a2 a3 s, ∀ t, @execSpdmSetCertificate a0 a1 a2 a3 s = .next t → t.still = s.still := by
  intro a0 a1 a2 a3 s t h
  simp only [execSpdmSetCertificate, Host.Outcome.next.injEq] at h
  subst h
  repeat' (first | with_reducible rfl
                    | (simp only [↓still_mk, ↓still_fold, ↓apply_ite State.still, ite_self, ↓State.spdmSend_still, ↓State.spdmError_still]; done)
                    | intro _ | with_reducible refine (State.negotiated_still _ _ _ ?_ ).trans ?_
                    | with_reducible refine (State.overSpdm_still _ _ _ ?_ ).trans ?_)

theorem execSpdmChunkSend_still : ∀ a0 a1 a2 a3 s, ∀ t, @execSpdmChunkSend a0 a1 a2 a3 s = .next t → t.still = s.still := by
  intro a0 a1 a2 a3 s t h
  simp only [execSpdmChunkSend, Host.Outcome.next.injEq] at h
  subst h
  repeat' (first | with_reducible rfl
                    | (simp only [↓still_mk, ↓still_fold, ↓apply_ite State.still, ↓apply_ite Prod.fst, ↓apply_ite Prod.snd, ite_self, ↓State.spdmSend_still, ↓State.spdmError_still]; done)
                    | intro _ | simp only [↓apply_ite Prod.fst, ↓apply_ite Prod.snd]
                    | with_reducible refine (State.negotiated_still _ _ _ ?_ ).trans ?_
                    | with_reducible refine (State.overSpdm_still _ _ _ ?_ ).trans ?_)

theorem execSpdmChunkGet_still : ∀ a0 a1 s, ∀ t, @execSpdmChunkGet a0 a1 s = .next t → t.still = s.still := by
  intro a0 a1 s t h
  simp only [execSpdmChunkGet, Host.Outcome.next.injEq] at h
  subst h
  repeat' (first | with_reducible rfl
                    | (simp only [↓still_mk, ↓still_fold, ↓apply_ite State.still, ite_self, ↓State.emit_still, ↓State.spdmError_still]; done)
                    | intro _ | with_reducible refine (State.negotiated_still _ _ _ ?_ ).trans ?_
                    | with_reducible refine (State.overSpdm_still _ _ _ ?_ ).trans ?_ | split)

theorem execJtagInstruction_still : ∀ a0 s, ∀ t, @execJtagInstruction a0 s = .next t → t.still = s.still := by
  intro a0 s t h
  simp only [execJtagInstruction, Host.Outcome.next.injEq] at h
  subst h
  repeat' (first | (simp only [↓still_mk, ↓still_fold, ↓State.emit_still]; done))

/-! ### Mgmt -/

theorem State.updPort_still : ∀ a0 a1 s, (@State.updPort a0 a1 s).still = s.still := by
  intro a0 a1 s
  unfold State.updPort
  repeat' (first | (simp only [↓still_mk, ↓still_fold]; done))

theorem State.closePort_still : ∀ a0 s, (@State.closePort a0 s).still = s.still := by
  intro a0 s
  unfold State.closePort
  repeat' (first | (simp only [↓State.updPort_still]; done))

theorem State.breakFraming_still : ∀ a0 s, (@State.breakFraming a0 s).still = s.still := by
  intro a0 s
  unfold State.breakFraming
  repeat' (first | (simp only [↓State.closePort_still, ↓State.mbxViolation_still, ↓State.logViolation_still]; done))

theorem execMgmtRecordPacket_still : ∀ a0 a1 a2 s, ∀ t, @execMgmtRecordPacket a0 a1 a2 s = .next t → t.still = s.still := by
  intro a0 a1 a2 s t h
  simp only [execMgmtRecordPacket, Host.Outcome.next.injEq] at h
  subst h
  repeat' (first | with_reducible rfl
                    | (simp only [↓apply_ite State.still, ↓State.refuse_still, ↓State.breakFraming_still, ↓State.updPort_still]; done)
                    | simp only [↓apply_ite State.still, ↓State.refuse_still, ↓State.breakFraming_still, ↓State.updPort_still]
                    | (refine (State.submit_still_w _ _ _ _ _ _  _ ‹_›).trans ?_) | (refine (State.submit_still_t _ _ _ _ _ _  _ ‹_›).trans ?_)
                    | split)

theorem execMgmtRecordSpdm_still : ∀ a0 a1 a2 s, ∀ t, @execMgmtRecordSpdm a0 a1 a2 s = .next t → t.still = s.still := by
  intro a0 a1 a2 s t h
  simp only [execMgmtRecordSpdm, Host.Outcome.next.injEq] at h
  subst h
  repeat' (first | (simp only [↓apply_ite State.still, ite_self, ↓State.updPort_still, ↓State.breakFraming_still]; done))

theorem execMgmtKeepalive_still : ∀ a0 a1 s, ∀ t, @execMgmtKeepalive a0 a1 s = .next t → t.still = s.still := by
  intro a0 a1 s t h
  simp only [execMgmtKeepalive, Host.Outcome.next.injEq] at h
  subst h
  repeat' (first | (simp only [↓apply_ite State.still, ite_self, ↓State.emit_still, ↓State.updPort_still]; done))

theorem execMgmtConnectionTimeout_still : ∀ a0 s, ∀ t, @execMgmtConnectionTimeout a0 s = .next t → t.still = s.still := by
  intro a0 s t h
  simp only [execMgmtConnectionTimeout, Host.Outcome.next.injEq] at h
  subst h
  repeat' (first | (simp only [↓apply_ite State.still, ite_self, ↓State.closePort_still]; done))

theorem execMgmtResponseDiscard_still : ∀ a0 s, ∀ t, @execMgmtResponseDiscard a0 s = .next t → t.still = s.still := by
  intro a0 s t h
  simp only [execMgmtResponseDiscard, Host.Outcome.next.injEq] at h
  subst h
  repeat' (first | with_reducible rfl | (simp only [↓State.discardResponse_still]; done) | split)

theorem execMgmtPortLinkLoss_still : ∀ a0 s, ∀ t, @execMgmtPortLinkLoss a0 s = .next t → t.still = s.still := by
  intro a0 s t h
  simp only [execMgmtPortLinkLoss, Host.Outcome.next.injEq] at h
  subst h
  repeat' (first | (simp only [↓apply_ite State.still, ite_self, ↓State.updPort_still, ↓State.logUnit_still]; done))

theorem execMgmtConnectionOpen_still : ∀ a0 s, ∀ t, @execMgmtConnectionOpen a0 s = .next t → t.still = s.still := by
  intro a0 s t h
  simp only [execMgmtConnectionOpen, Host.Outcome.next.injEq] at h
  subst h
  repeat' (first | (simp only [↓apply_ite State.still, ite_self, ↓State.updPort_still]; done))

theorem execMgmtConnectionClose_still : ∀ a0 s, ∀ t, @execMgmtConnectionClose a0 s = .next t → t.still = s.still := by
  intro a0 s t h
  simp only [execMgmtConnectionClose, Host.Outcome.next.injEq] at h
  subst h
  repeat' (first | (simp only [↓State.closePort_still]; done))

end Sys2Proof.Machine
end

