-- ==== Sys2Proof/Laws/StillIndex.lean ====
section
/-!
SUPPORT. The queue, the clock, the power state, the governor and the pins stay as they are: collections, ingest, segments and reads.
-/
namespace Sys2Proof.Machine

/-! ### Collections -/

theorem State.updColl_still : ∀ a0 a1 s, (@State.updColl a0 a1 s).still = s.still := by
  intro a0 a1 s
  unfold State.updColl
  repeat' (first | (simp only [↓still_mk, ↓still_fold]; done))

theorem State.setColl_still : ∀ a0 s, (@State.setColl a0 s).still = s.still := by
  intro a0 s
  unfold State.setColl
  repeat' (first | (simp only [↓still_mk, ↓still_fold]; done))

theorem State.bindSnapshot_still : ∀ a0 a1 a2 s, (∀ x0 x1 t, a2 x0 x1 = .ok t → t.still = x1.still) → ∀ t, @State.bindSnapshot a0 a1 a2 s = .ok t → t.still = s.still := by
  intro a0 a1 a2 s h0 t h
  unfold State.bindSnapshot at h
  repeat' (first | with_reducible rfl | (simp only [↓State.updFlight_still, ↓State.setWork_still]; done) | (rw [err_ok] at h; exact h.elim)
                    | (rw [ok_ok] at h; subst h) | (dsimp only at h) | (split at h) | with_reducible refine (h0 _ _ _ ‹_›).trans ?_)

/-! ### Extents -/

theorem State.updNbu_still : ∀ a0 a1 s, (@State.updNbu a0 a1 s).still = s.still := by
  intro a0 a1 s
  unfold State.updNbu
  repeat' (first | (simp only [↓still_mk, ↓still_fold]; done))

theorem State.countFill_still : ∀ a0 s, (@State.countFill a0 s).still = s.still := by
  intro a0 s
  unfold State.countFill
  repeat' (first | (simp only [↓still_mk, ↓still_fold]; done))

theorem State.countWrites_still : ∀ a0 a1 s, (@State.countWrites a0 a1 s).still = s.still := by
  intro a0 a1 s
  unfold State.countWrites
  repeat' (first | (simp only [↓still_mk, ↓still_fold]; done))

theorem State.countPass_still : ∀ a0 a1 s, (@State.countPass a0 a1 s).still = s.still := by
  intro a0 a1 s
  unfold State.countPass
  repeat' (first | (simp only [↓still_mk, ↓still_fold]; done))

/-! ### CollectionCommands -/

theorem State.chargeHeld_still : ∀ a0 a1 s, (@State.chargeHeld a0 a1 s).still = s.still := by
  intro a0 a1 s
  unfold State.chargeHeld
  repeat' (first | (simp only [↓apply_ite State.still, ite_self, ↓State.noteAnswered_still, ↓State.chargeAll_still]; done) | simp only [] | split)

theorem State.readsFail_still : ∀ a0 a1 a2 s, (@State.readsFail a0 a1 a2 s).still = s.still := by
  intro a0 a1 a2 s
  unfold State.readsFail
  repeat' (first | (simp only [↓State.chargeHeld_still, ↓State.answer_still]; done))

theorem State.deliver_still : ∀ a0 a1 s, (@State.deliver a0 a1 s).still = s.still := by
  intro a0 a1 s
  unfold State.deliver
  repeat' (first | (simp only [↓State.answer_still, ↓State.streamOut_still, ↓State.chargeHeld_still]; done) | simp only [] | split)

theorem State.afterReads_still : ∀ a0 a1 a2 s a4, (@State.afterReads a0 a1 a2 s a4).still = s.still := by
  intro a0 a1 a2 s a4
  unfold State.afterReads
  repeat' (first
                    | (simp only [↓still_mk, ↓still_fold, ↓apply_ite State.still, ite_self, ↓State.setWork_still, ↓State.readsFail_still, ↓State.deliver_still]; done))

theorem State.nextReads_still : ∀ a0 a1 s, (@State.nextReads a0 a1 s).still = s.still := by
  intro a0 a1 s
  unfold State.nextReads
  repeat' (first | (simp only [↓apply_ite State.still, ite_self, ↓State.afterReads_still, ↓State.stage_still]; done))

theorem execAdmissionResume_still : ∀ a0 s, ∀ t, @execAdmissionResume a0 s = .next t → t.still = s.still := by
  intro a0 s t h
  simp only [execAdmissionResume, Host.Outcome.next.injEq] at h
  subst h
  repeat' (first | (simp only [↓still_mk, ↓still_fold, ↓apply_ite State.still, ite_self, ↓State.updMbx_still, ↓State.resumeHeld_still]; done))

theorem execCollectionCreate_still : ∀ a0 a1 s, ∀ t, @execCollectionCreate a0 a1 s = .next t → t.still = s.still := by
  intro a0 a1 s t h
  simp only [execCollectionCreate, Host.Outcome.next.injEq] at h
  subst h
  repeat' (first | with_reducible rfl | (simp only [↓State.setColl_still, ↓State.answer_still]; done) | (intro _ _ _ h)
                    | (rw [err_ok] at h; exact h.elim) | (rw [bind_ok] at h; rcases h with ⟨_, _, h⟩) | (rw [ok_ok] at h; subst h) | (split at h)
                    | with_reducible refine (State.start_still _ _ _ _ _ ?_ ).trans ?_)

theorem State.stopWaiters_still : ∀ a0 s, (@State.stopWaiters a0 s).still = s.still := by
  intro a0 s
  unfold State.stopWaiters
  repeat' (first | with_reducible rfl | (simp only [↓apply_ite State.still, ite_self, ↓State.answer_still]; done)
                    | with_reducible refine (still_foldl _ _ (fun _ _ => ?_) _).trans ?_ | split)

theorem execCollectionDrop_still : ∀ a0 a1 s, ∀ t, @execCollectionDrop a0 a1 s = .next t → t.still = s.still := by
  intro a0 a1 s t h
  simp only [execCollectionDrop, Host.Outcome.next.injEq] at h
  subst h
  repeat' (first | with_reducible rfl | (simp only [↓State.setWork_still, ↓State.updColl_still, ↓State.stopWaiters_still]; done) | (intro _ _ _ h)
                    | (rw [bind_ok] at h; rcases h with ⟨_, _, h⟩) | (rw [ok_ok] at h; subst h)
                    | with_reducible refine (State.start_still _ _ _ _ _ ?_ ).trans ?_)

theorem execCollectionDropComplete_still : ∀ a0 s, ∀ t, @execCollectionDropComplete a0 s = .next t → t.still = s.still := by
  intro a0 s t h
  simp only [execCollectionDropComplete, Host.Outcome.next.injEq] at h
  subst h
  repeat' (first | with_reducible rfl
                    | (simp only [↓still_mk, ↓still_fold, ↓apply_ite State.still, ↓State.answer_still, ↓State.countFill_still, ↓State.unmapObject_still]; done)
                    | simp only [↓apply_ite State.still] | split)

theorem execCollectionDescribe_still : ∀ a0 a1 s, ∀ t, @execCollectionDescribe a0 a1 s = .next t → t.still = s.still := by
  intro a0 a1 s t h
  simp only [execCollectionDescribe, Host.Outcome.next.injEq] at h
  subst h
  repeat' (first | with_reducible rfl | (simp only [↓State.answer_still]; done) | (intro _ _ _ h) | (rw [bind_ok] at h; rcases h with ⟨_, _, h⟩)
                    | (rw [ok_ok] at h; subst h) | with_reducible refine (State.start_still _ _ _ _ _ ?_ ).trans ?_)

theorem execCommitWait_still : ∀ a0 a1 s, ∀ t, @execCommitWait a0 a1 s = .next t → t.still = s.still := by
  intro a0 a1 s t h
  simp only [execCommitWait, Host.Outcome.next.injEq] at h
  subst h
  repeat' (first | with_reducible rfl | (simp only [↓State.setWork_still, ↓State.answer_still]; done) | (intro _ _ _ h)
                    | (rw [bind_ok] at h; rcases h with ⟨_, _, h⟩) | (rw [ok_ok] at h; subst h) | (split at h)
                    | with_reducible refine (State.start_still _ _ _ _ _ ?_ ).trans ?_)

theorem execCommitWaitComplete_still : ∀ a0 a1 s, ∀ t, @execCommitWaitComplete a0 a1 s = .next t → t.still = s.still := by
  intro a0 a1 s t h
  simp only [execCommitWaitComplete, Host.Outcome.next.injEq] at h
  subst h
  repeat' (first | with_reducible rfl | (simp only [↓apply_ite State.still, ite_self, ↓State.answer_still]; done) | split)

theorem execGetItems_still : ∀ a0 a1 s, ∀ t, @execGetItems a0 a1 s = .next t → t.still = s.still := by
  intro a0 a1 s t h
  simp only [execGetItems, Host.Outcome.next.injEq] at h
  subst h
  repeat' (first | with_reducible rfl | (simp only [↓State.afterReads_still, ↓State.setWork_still, ↓State.answer_still]; done) | (intro _ _ _ h)
                    | (rw [bind_ok] at h; rcases h with ⟨_, _, h⟩) | (rw [ok_ok] at h; subst h) | (split at h)
                    | with_reducible refine (State.bindSnapshot_still _ _ _ _ ?_ _ h).trans ?_
                    | with_reducible refine (State.start_still _ _ _ _ _ ?_ ).trans ?_)

/-! ### Reads -/

theorem State.cancelHedges_still : ∀ a0 a1 s, (@State.cancelHedges a0 a1 s).still = s.still := by
  intro a0 a1 s
  unfold State.cancelHedges
  repeat' (first | with_reducible rfl | (simp only [↓State.sendFree_still]; done) | with_reducible refine (still_foldl _ _ (fun _ _ => ?_) _).trans ?_
                    | split)

theorem State.logRead_still : ∀ a0 a1 a2 a3 a4 a5 s, (@State.logRead a0 a1 a2 a3 a4 a5 s).still = s.still := by
  intro a0 a1 a2 a3 a4 a5 s
  unfold State.logRead
  repeat' (first | (simp only [↓State.log_still]; done))

theorem State.logReadOf_still : ∀ a0 a1 a2 s, (@State.logReadOf a0 a1 a2 s).still = s.still := by
  intro a0 a1 a2 s
  unfold State.logReadOf
  repeat' (first | (simp only [↓State.logRead_still]; done))

theorem State.leaveReads_still : ∀ a0 a1 a2 s, (@State.leaveReads a0 a1 a2 s).still = s.still := by
  intro a0 a1 a2 s
  unfold State.leaveReads
  repeat' (first | (simp only [↓still_mk, ↓still_fold]; done))

theorem State.putReads_still : ∀ a0 a1 s, (@State.putReads a0 a1 s).still = s.still := by
  intro a0 a1 s
  unfold State.putReads
  repeat' (first | (simp only [↓State.updFlight_still]; done))

theorem State.again_still : ∀ a0 a1 s, (∀ x0 x1, (a1 x0 x1).still = x1.still) → (@State.again a0 a1 s).still = s.still := by
  intro a0 a1 s h0
  unfold State.again
  repeat' (first | with_reducible rfl | with_reducible exact h0 .. | split)

theorem State.readsDone_still : ∀ a0 s, (@State.readsDone a0 s).still = s.still := by
  intro a0 s
  unfold State.readsDone
  repeat' (first | with_reducible rfl | (simp only [↓State.nextReads_still]; done) | split)

theorem State.readArrived_still : ∀ a0 a1 s, (@State.readArrived a0 a1 s).still = s.still := by
  intro a0 a1 s
  unfold State.readArrived
  repeat' (first | with_reducible rfl
                    | (simp only [↓apply_ite State.still, ite_self, ↓State.readsDone_still, ↓State.updFlight_still, ↓State.putReads_still, ↓State.cancelHedges_still]; done)
                    | (intro _ h) | simp only [] | with_reducible refine (State.again_still _ _ _ ?_ ).trans ?_ | split)

theorem State.endByRead_still : ∀ a0 a1 a2 s, (@State.endByRead a0 a1 a2 s).still = s.still := by
  intro a0 a1 a2 s
  unfold State.endByRead
  repeat' (first | with_reducible rfl | (simp only [↓State.cancelHedges_still, ↓State.leaveReads_still, ↓State.readsFail_still]; done) | simp only []
                    | split)

theorem State.readLost_still : ∀ a0 a1 a2 s, (@State.readLost a0 a1 a2 s).still = s.still := by
  intro a0 a1 a2 s
  unfold State.readLost
  repeat' (first | with_reducible rfl
                    | (simp only [↓apply_ite State.still, ↓State.endByRead_still, ↓State.logReadOf_still, ↓State.putReads_still]; done)
                    | simp only [↓apply_ite State.still, ↓State.logReadOf_still, ↓State.putReads_still] | split)

theorem State.leftFails_still : ∀ a0 a1 a2 s, (@State.leftFails a0 a1 a2 s).still = s.still := by
  intro a0 a1 a2 s
  unfold State.leftFails
  repeat' (first | (simp only [↓apply_ite State.still, ite_self, ↓State.logRead_still, ↓State.chargeSpec_still]; done))

theorem State.dropLeft_still : ∀ a0 s, (@State.dropLeft a0 s).still = s.still := by
  intro a0 s
  unfold State.dropLeft
  repeat' (first | (simp only [↓still_mk, ↓still_fold]; done))

theorem State.logIntegrity_still : ∀ a0 a1 a2 s a4, (@State.logIntegrity a0 a1 a2 s a4).still = s.still := by
  intro a0 a1 a2 s a4
  unfold State.logIntegrity
  repeat' (first | (simp only [↓State.log_still]; done))

theorem State.settleRevoke_still : ∀ a0 s, (@State.settleRevoke a0 s).still = s.still := by
  intro a0 s
  unfold State.settleRevoke
  repeat' (first | with_reducible rfl | (simp only [↓still_mk, ↓still_fold, ↓apply_ite State.still, ↓State.answer_still]; done)
                    | simp only [↓apply_ite State.still] | split)

theorem State.failRegion_still : ∀ a0 s, (@State.failRegion a0 s).still = s.still := by
  intro a0 s
  unfold State.failRegion
  repeat' (first | (simp only [↓still_mk, ↓still_fold, ↓State.logUnit_still]; done))

theorem execHostRegionFailed_still : ∀ a0 a1 s, ∀ t, @execHostRegionFailed a0 a1 s = .next t → t.still = s.still := by
  intro a0 a1 s t h
  simp only [execHostRegionFailed, Host.Outcome.next.injEq] at h
  subst h
  repeat' (first | with_reducible rfl | (simp only [↓apply_ite State.still, ite_self, ↓State.failRegion_still]; done) | split)

theorem State.tierSettled_still : ∀ a0 s, (@State.tierSettled a0 s).still = s.still := by
  intro a0 s
  unfold State.tierSettled
  repeat' (first | with_reducible rfl | (simp only [↓State.reclaimSlots_still, ↓State.settleRevoke_still]; done) | split)

theorem State.readLate_still : ∀ a0 a1 s, (@State.readLate a0 a1 s).still = s.still := by
  intro a0 a1 s
  unfold State.readLate
  repeat' (first | with_reducible rfl
                    | (simp only [↓apply_ite State.still, ite_self, ↓State.cancelHedges_still, ↓State.putReads_still, ↓State.endByRead_still, ↓State.logReadOf_still]; done)
                    | simp only [] | split)

theorem State.mapPageLost_still : ∀ a0 s, (@State.mapPageLost a0 s).still = s.still := by
  intro a0 s
  unfold State.mapPageLost
  repeat' (first | with_reducible rfl | (simp only [↓State.dropHostPage_still]; done) | split)

theorem execLowerTierLate_still : ∀ a0 a1 a2 s, ∀ t, @execLowerTierLate a0 a1 a2 s = .next t → t.still = s.still := by
  intro a0 a1 a2 s t h
  simp only [execLowerTierLate, Host.Outcome.next.injEq] at h
  subst h
  repeat' (first | with_reducible rfl
                    | (simp only [↓still_mk, ↓still_fold, ↓apply_ite State.still, ite_self, ↓State.leftFails_still, ↓State.mapPageLost_still, ↓State.readLate_still, ↓State.tierSettled_still]; done)
                    | split)

theorem State.mapPageArrived_still : ∀ a0 a1 a2 a3 s, (@State.mapPageArrived a0 a1 a2 a3 s).still = s.still := by
  intro a0 a1 a2 a3 s
  unfold State.mapPageArrived
  repeat' (first | (simp only [↓State.touchPage_still, ↓State.updFlight_still, ↓State.putReads_still]; done))

theorem State.noteFailure_still : ∀ a0 s, (@State.noteFailure a0 s).still = s.still := by
  intro a0 s
  unfold State.noteFailure
  repeat' (first | (simp only [↓still_mk, ↓still_fold]; done))

theorem State.regionOutcome_still : ∀ a0 a1 s, (@State.regionOutcome a0 a1 s).still = s.still := by
  intro a0 a1 s
  unfold State.regionOutcome
  repeat' (first | (simp only [↓apply_ite State.still, ite_self, ↓State.failRegion_still, ↓State.noteFailure_still]; done))

theorem execHostTierReadComplete_still : ∀ a0 a1 a2 a3 s, ∀ t, @execHostTierReadComplete a0 a1 a2 a3 s = .next t → t.still = s.still := by
  intro a0 a1 a2 a3 s t h
  simp only [execHostTierReadComplete, Host.Outcome.next.injEq] at h
  subst h
  repeat' (first | with_reducible rfl
                    | (simp only [↓apply_ite State.still, ite_self, ↓State.dropLeft_still, ↓State.leftFails_still, ↓State.regionOutcome_still, ↓State.tierSettled_still, ↓State.mapPageLost_still, ↓State.logReadOf_still, ↓State.readLost_still, ↓State.readArrived_still, ↓State.mapPageArrived_still]; done)
                    | simp only [↓apply_ite State.still, ↓State.regionOutcome_still, ↓State.tierSettled_still] | split)

theorem State.hedgeWon_still : ∀ a0 a1 s, (@State.hedgeWon a0 a1 s).still = s.still := by
  intro a0 a1 s
  unfold State.hedgeWon
  repeat' (first | with_reducible rfl
                    | (simp only [↓apply_ite State.still, ite_self, ↓State.readsDone_still, ↓State.updFlight_still, ↓State.putReads_still, ↓State.leaveReads_still, ↓State.chargeAll_still, ↓State.chargeSpec_still]; done)
                    | (intro _ h)
                    | simp only [↓apply_ite State.still, ite_self, ↓State.updFlight_still, ↓State.putReads_still, ↓State.leaveReads_still, ↓State.chargeSpec_still]
                    | with_reducible refine (still_foldl _ _ (fun _ _ => ?_) _).trans ?_
                    | with_reducible refine (State.again_still _ _ _ ?_ ).trans ?_ | split)

/-! ### Replication -/

theorem State.sendSegment_still : ∀ a0 a1 a2 s, (@State.sendSegment a0 a1 a2 s).still = s.still := by
  intro a0 a1 a2 s
  unfold State.sendSegment
  repeat' (first | with_reducible rfl | (simp only [↓State.post_still]; done) | simp only []
                    | with_reducible refine (still_foldl _ _ (fun _ _ => ?_) _).trans ?_)

theorem State.copyTo_still : ∀ a0 a1 s, (@State.copyTo a0 a1 s).1.still = s.still := by
  intro a0 a1 s
  unfold State.copyTo
  repeat' (first | with_reducible rfl | (simp only [↓State.send_still, ↓State.sendSegment_still]; done) | simp only [↓State.send_still]
                    | with_reducible refine (still_foldl _ _ (fun _ _ => ?_) _).trans ?_)
theorem State.copyTo_still_eq : ∀ a0 a1 s t x, @State.copyTo a0 a1 s = (t, x) → t.still = s.still := by
  intro a0 a1 s t x h
  have := State.copyTo_still a0 a1 s
  rwa [h] at this

theorem State.sendOps_still : ∀ a0 a1 a2 s, (@State.sendOps a0 a1 a2 s).1.still = s.still := by
  intro a0 a1 a2 s
  unfold State.sendOps
  repeat' (first | with_reducible rfl | (simp only [↓apply_ite State.still, ↓apply_ite Prod.fst, ite_self, ↓State.send_still]; done)
                    | simp only [↓apply_ite State.still, ↓apply_ite Prod.fst] | with_reducible refine (still_foldl1 _ _ (fun _ _ => ?_) _).trans ?_
                    | split)
theorem State.sendOps_still_eq : ∀ a0 a1 a2 s t x, @State.sendOps a0 a1 a2 s = (t, x) → t.still = s.still := by
  intro a0 a1 a2 s t x h
  have := State.sendOps_still a0 a1 a2 s
  rwa [h] at this

theorem State.pumpReplica_still : ∀ a0 a1 s, (@State.pumpReplica a0 a1 s).still = s.still := by
  intro a0 a1 s
  unfold State.pumpReplica
  repeat' (first
                    | (simp only [↓apply_ite State.still, ↓apply_ite Prod.fst, ↓apply_ite Prod.snd, ite_self, ↓State.updColl_still, ↓State.sendOps_still, ↓State.copyTo_still]; done))

/-! ### Ingest -/

theorem State.opLimits_still : ∀ a0 a1 a2 a3 a4 a5 s, (∀ x0 t, a5 x0 = .ok t → t.still = x0.still) → ∀ t, @State.opLimits a0 a1 a2 a3 a4 a5 s = .ok t → t.still = s.still := by
  intro a0 a1 a2 a3 a4 a5 s h0 t h
  unfold State.opLimits at h
  repeat' (first | with_reducible rfl | (rw [err_ok] at h; exact h.elim) | (rw [bind_ok] at h; rcases h with ⟨_, _, h⟩) | (rw [ok_ok] at h; subst h)
                    | (split at h) | with_reducible refine (h0 _ _ ‹_›).trans ?_)

theorem State.shipRecord_still : ∀ a0 a1 a2 s, (@State.shipRecord a0 a1 a2 s).still = s.still := by
  intro a0 a1 a2 s
  unfold State.shipRecord
  repeat' (first | with_reducible rfl | (simp only [↓State.post_still]; done) | with_reducible refine (still_foldl _ _ (fun _ _ => ?_) _).trans ?_
                    | split)

theorem State.admitOp_still : ∀ a0 a1 a2 a3 a4 s, (@State.admitOp a0 a1 a2 a3 a4 s).still = s.still := by
  intro a0 a1 a2 a3 a4 s
  unfold State.admitOp
  repeat' (first | (simp only [↓still_mk, ↓still_fold, ↓State.shipRecord_still, ↓State.updFlight_still, ↓State.updColl_still]; done))

theorem State.insertVectors_still : ∀ a0 a1 s, ∀ t, @State.insertVectors a0 a1 s = .ok t → t.still = s.still := by
  intro a0 a1 s t h
  unfold State.insertVectors at h
  repeat' (first | with_reducible rfl | (simp only [↓State.admitOp_still]; done) | (intro _ _ h) | (rw [bind_ok] at h; rcases h with ⟨_, _, h⟩)
                    | (rw [ok_ok] at h; subst h) | with_reducible refine (State.opLimits_still _ _ _ _ _ _ _ ?_ _ h).trans ?_)

theorem execInsertVectors_still : ∀ a0 a1 s, ∀ t, @execInsertVectors a0 a1 s = .next t → t.still = s.still := by
  intro a0 a1 s t h
  simp only [execInsertVectors, Host.Outcome.next.injEq] at h
  subst h
  repeat' (first | with_reducible rfl | (intro _ _ _ h) | with_reducible refine (State.insertVectors_still _ _ _ _ h).trans ?_
                    | with_reducible refine (State.start_still _ _ _ _ _ ?_ ).trans ?_)

theorem execPiwPacketAdmit_still : ∀ a0 a1 a2 s, ∀ t, @execPiwPacketAdmit a0 a1 a2 s = .next t → t.still = s.still := by
  intro a0 a1 a2 s t h
  simp only [execPiwPacketAdmit, Host.Outcome.next.injEq] at h
  subst h
  repeat' (first | with_reducible rfl | simp only [↓apply_ite State.still, ↓State.freeSlot_still]
                    | (refine (State.submit_still_w _ _ _ _ _ _  _ ‹_›).trans ?_) | (refine (State.submit_still_t _ _ _ _ _ _  _ ‹_›).trans ?_)
                    | split)

theorem State.bindSealers_still : ∀ a0 a1 s, (@State.bindSealers a0 a1 s).still = s.still := by
  intro a0 a1 s
  unfold State.bindSealers
  repeat' (first | (simp only [↓still_mk, ↓still_fold]; done))

theorem State.sealAtBoundary_still : ∀ a0 s, (@State.sealAtBoundary a0 s).still = s.still := by
  intro a0 s
  unfold State.sealAtBoundary
  repeat' (first | with_reducible rfl | (simp only [↓apply_ite State.still, ite_self, ↓State.bindSealers_still, ↓State.setColl_still]; done)
                    | simp only [↓apply_ite State.still] | split)

theorem State.insertText_still : ∀ a0 a1 s, ∀ t, @State.insertText a0 a1 s = .ok t → t.still = s.still := by
  intro a0 a1 s t h
  unfold State.insertText at h
  repeat' (first | with_reducible rfl | (simp only [↓State.admitOp_still]; done) | (intro _ _ h) | (rw [bind_ok] at h; rcases h with ⟨_, _, h⟩)
                    | (rw [ok_ok] at h; subst h) | with_reducible refine (State.opLimits_still _ _ _ _ _ _ _ ?_ _ h).trans ?_)

theorem execInsertText_still : ∀ a0 a1 s, ∀ t, @execInsertText a0 a1 s = .next t → t.still = s.still := by
  intro a0 a1 s t h
  simp only [execInsertText, Host.Outcome.next.injEq] at h
  subst h
  repeat' (first | with_reducible rfl | (intro _ _ _ h) | with_reducible refine (State.insertText_still _ _ _ _ h).trans ?_
                    | with_reducible refine (State.start_still _ _ _ _ _ ?_ ).trans ?_)

theorem execUpsertVectors_still : ∀ a0 a1 s, ∀ t, @execUpsertVectors a0 a1 s = .next t → t.still = s.still := by
  intro a0 a1 s t h
  simp only [execUpsertVectors, Host.Outcome.next.injEq] at h
  subst h
  repeat' (first | with_reducible rfl | (intro _ _ _ h) | with_reducible refine (State.insertVectors_still _ _ _ _ h).trans ?_
                    | with_reducible refine (State.start_still _ _ _ _ _ ?_ ).trans ?_)

theorem execUpsertText_still : ∀ a0 a1 s, ∀ t, @execUpsertText a0 a1 s = .next t → t.still = s.still := by
  intro a0 a1 s t h
  simp only [execUpsertText, Host.Outcome.next.injEq] at h
  subst h
  repeat' (first | with_reducible rfl | (intro _ _ _ h) | with_reducible refine (State.insertText_still _ _ _ _ h).trans ?_
                    | with_reducible refine (State.start_still _ _ _ _ _ ?_ ).trans ?_)

theorem execDeleteItems_still : ∀ a0 a1 s, ∀ t, @execDeleteItems a0 a1 s = .next t → t.still = s.still := by
  intro a0 a1 s t h
  simp only [execDeleteItems, Host.Outcome.next.injEq] at h
  subst h
  repeat' (first | with_reducible rfl | (simp only [↓State.admitOp_still]; done) | (intro _ _ _ h) | (intro _ _ h)
                    | (rw [bind_ok] at h; rcases h with ⟨_, _, h⟩) | (rw [ok_ok] at h; subst h)
                    | with_reducible refine (State.opLimits_still _ _ _ _ _ _ _ ?_ _ h).trans ?_
                    | with_reducible refine (State.start_still _ _ _ _ _ ?_ ).trans ?_)

theorem execDeleteByFilter_still : ∀ a0 a1 s, ∀ t, @execDeleteByFilter a0 a1 s = .next t → t.still = s.still := by
  intro a0 a1 s t h
  simp only [execDeleteByFilter, Host.Outcome.next.injEq] at h
  subst h
  repeat' (first | with_reducible rfl | (simp only [↓State.admitOp_still]; done) | (intro _ _ _ h) | (intro _ _ h)
                    | (rw [bind_ok] at h; rcases h with ⟨_, _, h⟩) | (rw [ok_ok] at h; subst h)
                    | with_reducible refine (State.opLimits_still _ _ _ _ _ _ _ ?_ _ h).trans ?_
                    | with_reducible refine (State.start_still _ _ _ _ _ ?_ ).trans ?_)

theorem State.acknowledge_still : ∀ a0 a1 a2 s, (@State.acknowledge a0 a1 a2 s).still = s.still := by
  intro a0 a1 a2 s
  unfold State.acknowledge
  repeat' (first | with_reducible rfl
                    | (simp only [↓still_mk, ↓still_fold, ↓apply_ite State.still, ite_self, ↓State.charge_still, ↓State.updColl_still]; done) | split)

theorem execOperationAck_still : ∀ a0 a1 a2 s, ∀ t, @execOperationAck a0 a1 a2 s = .next t → t.still = s.still := by
  intro a0 a1 a2 s t h
  simp only [execOperationAck, Host.Outcome.next.injEq] at h
  subst h
  repeat' (first | with_reducible rfl
                    | (simp only [↓apply_ite State.still, ite_self, ↓State.answer_still, ↓State.acknowledge_still, ↓State.updColl_still]; done)
                    | simp only [↓apply_ite State.still, ite_self, ↓State.answer_still, ↓State.acknowledge_still, ↓State.updColl_still] | split)

theorem execOperationApply_still : ∀ a0 a1 s, ∀ t, @execOperationApply a0 a1 s = .next t → t.still = s.still := by
  intro a0 a1 s t h
  simp only [execOperationApply, Host.Outcome.next.injEq] at h
  subst h
  repeat' (first | with_reducible rfl
                    | (simp only [↓apply_ite State.still, ite_self, ↓State.charge_still, ↓State.setColl_still, ↓State.countWrites_still, ↓State.updColl_still]; done)
                    | simp only [↓apply_ite State.still] | split)

theorem execCommitPublish_still : ∀ a0 s, ∀ t, @execCommitPublish a0 s = .next t → t.still = s.still := by
  intro a0 s t h
  simp only [execCommitPublish, Host.Outcome.next.injEq] at h
  subst h
  repeat' (first | with_reducible rfl
                    | (simp only [↓apply_ite State.still, ↓State.sealAtBoundary_still, ↓State.setColl_still, ↓State.pumpReplica_still]; done)
                    | simp only [↓apply_ite State.still, ↓State.sealAtBoundary_still]
                    | with_reducible refine (still_foldl _ _ (fun _ _ => ?_) _).trans ?_ | split)

/-! ### Segments -/

theorem State.finishCompaction_still : ∀ a0 s, (@State.finishCompaction a0 s).still = s.still := by
  intro a0 s
  unfold State.finishCompaction
  repeat' (first | with_reducible rfl | (simp only [↓apply_ite State.still, ↓State.answer_still, ↓State.setColl_still]; done)
                    | simp only [↓apply_ite State.still] | split)

theorem execSegmentSeal_still : ∀ a0 a1 s, ∀ t, @execSegmentSeal a0 a1 s = .next t → t.still = s.still := by
  intro a0 a1 s t h
  simp only [execSegmentSeal, Host.Outcome.next.injEq] at h
  subst h
  repeat' (first | with_reducible rfl
                    | (simp only [↓State.setWork_still, ↓State.updColl_still, ↓State.sealAtBoundary_still, ↓State.answer_still]; done)
                    | (intro _ _ _ h) | (rw [bind_ok] at h; rcases h with ⟨_, _, h⟩) | (rw [ok_ok] at h; subst h) | (split at h)
                    | with_reducible refine (State.start_still _ _ _ _ _ ?_ ).trans ?_)

theorem execSegmentSealTrigger_still : ∀ a0 a1 s, ∀ t, @execSegmentSealTrigger a0 a1 s = .next t → t.still = s.still := by
  intro a0 a1 s t h
  simp only [execSegmentSealTrigger, Host.Outcome.next.injEq] at h
  subst h
  repeat' (first | with_reducible rfl | (simp only [↓apply_ite State.still, ite_self, ↓State.setColl_still, ↓State.sealAtBoundary_still]; done)
                    | split)

theorem State.failSealers_still : ∀ a0 a1 s, (@State.failSealers a0 a1 s).still = s.still := by
  intro a0 a1 s
  unfold State.failSealers
  repeat' (first | with_reducible rfl | (simp only [↓apply_ite State.still, ite_self, ↓State.answer_still]; done)
                    | with_reducible refine (still_foldl _ _ (fun _ _ => ?_) _).trans ?_)

theorem State.answerSealers_still : ∀ a0 a1 a2 a3 s, (@State.answerSealers a0 a1 a2 a3 s).still = s.still := by
  intro a0 a1 a2 a3 s
  unfold State.answerSealers
  repeat' (first | with_reducible rfl | (simp only [↓apply_ite State.still, ite_self, ↓State.answer_still]; done)
                    | with_reducible refine (still_foldl _ _ (fun _ _ => ?_) _).trans ?_)

theorem State.sendRelease_still : ∀ a0 a1 s, (@State.sendRelease a0 a1 s).still = s.still := by
  intro a0 a1 s
  unfold State.sendRelease
  repeat' (first | with_reducible rfl | (simp only [↓State.post_still]; done) | with_reducible refine (still_foldl _ _ (fun _ _ => ?_) _).trans ?_)

theorem execSegmentSealed_still : ∀ a0 a1 a2 s, ∀ t, @execSegmentSealed a0 a1 a2 s = .next t → t.still = s.still := by
  intro a0 a1 a2 s t h
  simp only [execSegmentSealed, Host.Outcome.next.injEq] at h
  subst h
  repeat' (first | with_reducible rfl
                    | (simp only [↓apply_ite State.still, ite_self, ↓State.sendRelease_still, ↓State.setColl_still, ↓State.answerSealers_still, ↓State.sealAtBoundary_still, ↓State.failSealers_still]; done)
                    | split)

theorem execSegmentRetire_still : ∀ a0 a1 s, ∀ t, @execSegmentRetire a0 a1 s = .next t → t.still = s.still := by
  intro a0 a1 s t h
  simp only [execSegmentRetire, Host.Outcome.next.injEq] at h
  subst h
  repeat' (first | with_reducible rfl
                    | (simp only [↓still_mk, ↓still_fold, ↓apply_ite State.still, ite_self, ↓State.setColl_still, ↓State.unmapObject_still]; done)
                    | split)

theorem execTombstoneMaterialised_still : ∀ a0 a1 s, ∀ t, @execTombstoneMaterialised a0 a1 s = .next t → t.still = s.still := by
  intro a0 a1 s t h
  simp only [execTombstoneMaterialised, Host.Outcome.next.injEq] at h
  subst h
  repeat' (first | with_reducible rfl
                    | (simp only [↓apply_ite State.still, ↓apply_ite Prod.fst, ↓apply_ite Prod.snd, ite_self, ↓State.charge_still, ↓State.setColl_still, ↓State.countWrites_still, ↓State.countPass_still]; done)
                    | simp only [↓apply_ite Prod.fst, ↓apply_ite Prod.snd] | split)

theorem State.beginCompaction_still : ∀ a0 a1 a2 s, (@State.beginCompaction a0 a1 a2 s).still = s.still := by
  intro a0 a1 a2 s
  unfold State.beginCompaction
  repeat' (first | (simp only [↓apply_ite State.still, ite_self, ↓State.charge_still, ↓State.setColl_still, ↓State.countWrites_still]; done))

theorem execCompact_still : ∀ a0 a1 s, ∀ t, @execCompact a0 a1 s = .next t → t.still = s.still := by
  intro a0 a1 s t h
  simp only [execCompact, Host.Outcome.next.injEq] at h
  subst h
  repeat' (first | with_reducible rfl | (simp only [↓State.setWork_still, ↓State.finishCompaction_still, ↓State.beginCompaction_still]; done)
                    | (intro _ _ _ h) | (rw [bind_ok] at h; rcases h with ⟨_, _, h⟩) | (rw [ok_ok] at h; subst h)
                    | with_reducible refine (State.start_still _ _ _ _ _ ?_ ).trans ?_)

theorem execAutoCompactionStart_still : ∀ a0 s, ∀ t, @execAutoCompactionStart a0 s = .next t → t.still = s.still := by
  intro a0 s t h
  simp only [execAutoCompactionStart, Host.Outcome.next.injEq] at h
  subst h
  repeat' (first | with_reducible rfl | (simp only [↓apply_ite State.still, ite_self, ↓State.beginCompaction_still]; done) | split)

theorem State.failCompaction_still : ∀ a0 a1 a2 s, (@State.failCompaction a0 a1 a2 s).still = s.still := by
  intro a0 a1 a2 s
  unfold State.failCompaction
  repeat' (first | (simp only [↓apply_ite State.still, ite_self, ↓State.answer_still, ↓State.logIntegrity_still, ↓State.setColl_still]; done)
                    | simp only [] | split)

theorem execCompactionListSwitch_still : ∀ a0 a1 s, ∀ t, @execCompactionListSwitch a0 a1 s = .next t → t.still = s.still := by
  intro a0 a1 s t h
  simp only [execCompactionListSwitch, Host.Outcome.next.injEq] at h
  subst h
  repeat' (first | with_reducible rfl
                    | (simp only [↓apply_ite State.still, ↓State.setColl_still, ↓State.countWrites_still, ↓State.finishCompaction_still, ↓State.failCompaction_still]; done)
                    | simp only [↓apply_ite State.still] | split)

end Sys2Proof.Machine
end

