-- ==== Sys2Proof/Laws/StillModels.lean ====
section
/-!
SUPPORT. The queue, the clock, the power state, the governor and the pins stay as they are: images, models, searches and feature tables.
-/
namespace Sys2Proof.Machine

/-! ### ImageLoads -/

theorem State.dropLoad_still : ∀ a0 s, (@State.dropLoad a0 s).still = s.still := by
  intro a0 s
  unfold State.dropLoad
  repeat' (first | (simp only [↓still_mk, ↓still_fold]; done))

theorem State.updLoad_still : ∀ a0 a1 s, (@State.updLoad a0 a1 s).still = s.still := by
  intro a0 a1 s
  unfold State.updLoad
  repeat' (first | (simp only [↓still_mk, ↓still_fold]; done))

theorem State.loadCommit_still : ∀ a0 a1 s, ∀ t, @State.loadCommit a0 a1 s = .ok t → t.still = s.still := by
  intro a0 a1 s t h
  unfold State.loadCommit at h
  repeat' (first | (simp only [↓State.updLoad_still, ↓State.setWork_still, ↓State.dropLoad_still, ↓State.answerDetail_still]; done)
                    | (rw [ok_ok] at h; subst h) | (split at h))

theorem State.resumeRebuild_still : ∀ s, (@State.resumeRebuild s).still = s.still := by
  intro s
  unfold State.resumeRebuild
  repeat' (first | (simp only [↓still_mk, ↓still_fold]; done))

theorem State.updGen_still : ∀ a0 a1 a2 a3 s, (@State.updGen a0 a1 a2 a3 s).still = s.still := by
  intro a0 a1 a2 a3 s
  unfold State.updGen
  repeat' (first | (simp only [↓still_mk, ↓still_fold]; done))

theorem State.loadBegin_still : ∀ a0 a1 s, ∀ t, @State.loadBegin a0 a1 s = .ok t → t.still = s.still := by
  intro a0 a1 s t h
  unfold State.loadBegin at h
  repeat' (first | (simp only [↓still_mk, ↓still_fold, ↓State.answer_still]; done) | (rw [err_ok] at h; exact h.elim)
                    | (rw [bind_ok] at h; rcases h with ⟨_, _, h⟩) | (rw [ok_ok] at h; subst h) | (dsimp only at h) | (split at h))

theorem State.imageLoad_still : ∀ a0 a1 s, ∀ t, @State.imageLoad a0 a1 s = .ok t → t.still = s.still := by
  intro a0 a1 s t h
  unfold State.imageLoad at h
  repeat' (first | with_reducible rfl | (simp only [↓State.dropLoad_still, ↓State.updLoad_still, ↓State.answer_still]; done)
                    | (rw [bind_ok] at h; rcases h with ⟨_, _, h⟩) | (rw [ok_ok] at h; subst h) | (dsimp only at h) | (split at h)
                    | with_reducible refine (State.loadCommit_still _ _ _ _ h).trans ?_
                    | with_reducible refine (State.loadBegin_still _ _ _ _ h).trans ?_)

theorem execModelLoad_still : ∀ a0 a1 s, ∀ t, @execModelLoad a0 a1 s = .next t → t.still = s.still := by
  intro a0 a1 s t h
  simp only [execModelLoad, Host.Outcome.next.injEq] at h
  subst h
  repeat' (first | with_reducible rfl | (intro _ _ _ h) | with_reducible refine (State.imageLoad_still _ _ _ _ h).trans ?_
                    | with_reducible refine (State.start_still _ _ _ _ _ ?_ ).trans ?_)

theorem execModelLoadCommitDone_still : ∀ a0 s, ∀ t, @execModelLoadCommitDone a0 s = .next t → t.still = s.still := by
  intro a0 s t h
  simp only [execModelLoadCommitDone, Host.Outcome.next.injEq] at h
  subst h
  repeat' (first | with_reducible rfl
                    | (simp only [↓still_mk, ↓still_fold, ↓apply_ite State.still, ↓State.charge_still, ↓State.dropLoad_still, ↓State.updLoad_still, ↓State.answer_still]; done)
                    | simp only [↓apply_ite State.still] | split)

theorem execLoadIdleTimeout_still : ∀ a0 s, ∀ t, @execLoadIdleTimeout a0 s = .next t → t.still = s.still := by
  intro a0 s t h
  simp only [execLoadIdleTimeout, Host.Outcome.next.injEq] at h
  subst h
  repeat' (first | with_reducible rfl | (simp only [↓apply_ite State.still, ite_self, ↓State.dropLoad_still]; done) | split)

theorem State.imageRetire_still : ∀ a0 a1 s, ∀ t, @State.imageRetire a0 a1 s = .ok t → t.still = s.still := by
  intro a0 a1 s t h
  unfold State.imageRetire at h
  repeat' (first | (simp only [↓still_mk, ↓still_fold, ↓State.answer_still, ↓State.reapGens_still]; done)
                    | (rw [bind_ok] at h; rcases h with ⟨_, _, h⟩) | (rw [ok_ok] at h; subst h))

theorem execModelRetire_still : ∀ a0 a1 s, ∀ t, @execModelRetire a0 a1 s = .next t → t.still = s.still := by
  intro a0 a1 s t h
  simp only [execModelRetire, Host.Outcome.next.injEq] at h
  subst h
  repeat' (first | with_reducible rfl | (intro _ _ _ h) | with_reducible refine (State.imageRetire_still _ _ _ _ h).trans ?_
                    | with_reducible refine (State.start_still _ _ _ _ _ ?_ ).trans ?_)

theorem execPlacementLoad_still : ∀ a0 a1 s, ∀ t, @execPlacementLoad a0 a1 s = .next t → t.still = s.still := by
  intro a0 a1 s t h
  simp only [execPlacementLoad, Host.Outcome.next.injEq] at h
  subst h
  repeat' (first | with_reducible rfl | (simp only [↓still_mk, ↓still_fold, ↓State.setWork_still]; done) | (intro _ _ _ h)
                    | (rw [err_ok] at h; exact h.elim) | (rw [bind_ok] at h; rcases h with ⟨_, _, h⟩) | (rw [ok_ok] at h; subst h) | (split at h)
                    | with_reducible refine (State.start_still _ _ _ _ _ ?_ ).trans ?_)

theorem execPlacementInForce_still : ∀ s, ∀ t, @execPlacementInForce s = .next t → t.still = s.still := by
  intro s t h
  simp only [execPlacementInForce, Host.Outcome.next.injEq] at h
  subst h
  repeat' (first | with_reducible rfl
                    | (simp only [↓still_mk, ↓still_fold, ↓apply_ite State.still, ite_self, ↓State.answerDetail_still, ↓State.answer_still]; done)
                    | simp only [↓apply_ite State.still] | split)

theorem execVocabLoad_still : ∀ a0 a1 s, ∀ t, @execVocabLoad a0 a1 s = .next t → t.still = s.still := by
  intro a0 a1 s t h
  simp only [execVocabLoad, Host.Outcome.next.injEq] at h
  subst h
  repeat' (first | with_reducible rfl | (intro _ _ _ h) | with_reducible refine (State.imageLoad_still _ _ _ _ h).trans ?_
                    | with_reducible refine (State.start_still _ _ _ _ _ ?_ ).trans ?_)

theorem execVocabRetire_still : ∀ a0 a1 s, ∀ t, @execVocabRetire a0 a1 s = .next t → t.still = s.still := by
  intro a0 a1 s t h
  simp only [execVocabRetire, Host.Outcome.next.injEq] at h
  subst h
  repeat' (first | with_reducible rfl | (intro _ _ _ h) | with_reducible refine (State.imageRetire_still _ _ _ _ h).trans ?_
                    | with_reducible refine (State.start_still _ _ _ _ _ ?_ ).trans ?_)

theorem execGrammarLoad_still : ∀ a0 a1 s, ∀ t, @execGrammarLoad a0 a1 s = .next t → t.still = s.still := by
  intro a0 a1 s t h
  simp only [execGrammarLoad, Host.Outcome.next.injEq] at h
  subst h
  repeat' (first | with_reducible rfl | (intro _ _ _ h) | with_reducible refine (State.imageLoad_still _ _ _ _ h).trans ?_
                    | with_reducible refine (State.start_still _ _ _ _ _ ?_ ).trans ?_)

theorem execGrammarRetire_still : ∀ a0 a1 s, ∀ t, @execGrammarRetire a0 a1 s = .next t → t.still = s.still := by
  intro a0 a1 s t h
  simp only [execGrammarRetire, Host.Outcome.next.injEq] at h
  subst h
  repeat' (first | with_reducible rfl | (intro _ _ _ h) | with_reducible refine (State.imageRetire_still _ _ _ _ h).trans ?_
                    | with_reducible refine (State.start_still _ _ _ _ _ ?_ ).trans ?_)

theorem execModelWeightRunRepaired_still : ∀ a0 a1 a2 a3 s, ∀ t, @execModelWeightRunRepaired a0 a1 a2 a3 s = .next t → t.still = s.still := by
  intro a0 a1 a2 a3 s t h
  simp only [execModelWeightRunRepaired, Host.Outcome.next.injEq] at h
  subst h
  repeat' (first | (simp only [↓State.updGen_still, ↓State.resumeRebuild_still]; done))

/-! ### ModelCommands -/

theorem State.chargeText_still : ∀ a0 a1 s, (@State.chargeText a0 a1 s).still = s.still := by
  intro a0 a1 s
  unfold State.chargeText
  repeat' (first | (simp only [↓State.chargeAll_still]; done))

theorem State.updSequence_still : ∀ a0 a1 s, (@State.updSequence a0 a1 s).still = s.still := by
  intro a0 a1 s
  unfold State.updSequence
  repeat' (first | (simp only [↓still_mk, ↓still_fold]; done))

theorem State.writePage_still : ∀ a0 a1 s, (@State.writePage a0 a1 s).still = s.still := by
  intro a0 a1 s
  unfold State.writePage
  repeat' (first | (simp only [↓still_mk, ↓still_fold, ↓State.updSequence_still]; done))

theorem State.writeTokens_still : ∀ a0 a1 s, (@State.writeTokens a0 a1 s).still = s.still := by
  intro a0 a1 s
  unfold State.writeTokens
  repeat' (first | with_reducible rfl | (simp only [↓apply_ite State.still, ite_self, ↓State.writePage_still]; done)
                    | with_reducible refine (still_foldl _ _ (fun _ _ => ?_) _).trans ?_)

theorem State.runPages_still : ∀ a0 a1 s, (@State.runPages a0 a1 s).still = s.still := by
  intro a0 a1 s
  unfold State.runPages
  repeat' (first | with_reducible rfl | (simp only [↓State.writeTokens_still]; done)
                    | with_reducible refine (still_foldl _ _ (fun _ _ => ?_) _).trans ?_)

theorem State.addSequences_still : ∀ a0 a1 s, (@State.addSequences a0 a1 s).2.still = s.still := by
  intro a0 a1
  induction a1 with
  | zero => intro s; rfl
  | succ n ih => intro s; exact (ih _).trans still_mk
theorem State.addSequences_still_eq : ∀ a0 a1 s t x, @State.addSequences a0 a1 s = (x, t) → t.still = s.still := by
  intro a0 a1 s t x h
  have := State.addSequences_still a0 a1 s
  rwa [h] at this

theorem State.reserveKv_still : ∀ a0 a1 a2 s, ∀ t, @State.reserveKv a0 a1 a2 s = .ok t → t.still = s.still := by
  intro a0 a1 a2 s t h
  unfold State.reserveKv at h
  repeat' (first | (simp only [↓still_mk, ↓still_fold, ↓State.addSequences_still]; done) | (rw [bind_ok] at h; rcases h with ⟨_, _, h⟩)
                    | (rw [pure_ok] at h; subst h))

theorem State.withWeights_still : ∀ a0 a1 a2 a3 s, (∀ x0 t, a3 x0 = .ok t → t.still = x0.still) → ∀ t, @State.withWeights a0 a1 a2 a3 s = .ok t → t.still = s.still := by
  intro a0 a1 a2 a3 s h0 t h
  unfold State.withWeights at h
  repeat' (first | with_reducible rfl | (simp only [↓State.setWork_still, ↓State.answer_still]; done) | (rw [ok_ok] at h; subst h) | (split at h)
                    | with_reducible refine (h0 _ _ ‹_›).trans ?_)

theorem State.bindGen_still : ∀ a0 a1 a2 a3 s, ∀ t, @State.bindGen a0 a1 a2 a3 s = .ok t → t.2.still = s.still := by
  intro a0 a1 a2 a3 s t h
  unfold State.bindGen at h
  repeat' (first | with_reducible rfl | (simp only [↓State.updFlight_still]; done) | (rw [err_ok] at h; exact h.elim)
                    | (rw [bind_ok] at h; rcases h with ⟨_, _, h⟩) | (rw [ok_ok] at h; subst h) | (rw [pure_ok] at h; subst h) | (split at h))

theorem State.giveEntries_still : ∀ a0 a1 a2 a3 a4 s, (@State.giveEntries a0 a1 a2 a3 a4 s).still = s.still := by
  intro a0 a1 a2 a3 a4 s
  unfold State.giveEntries
  repeat' (first | (simp only [↓State.answer_still, ↓State.streamOut_still]; done) | simp only [] | split)

theorem State.encodeOne_still : ∀ s a1, (@State.encodeOne s a1).still = s.still := by
  intro s a1
  unfold State.encodeOne
  repeat' (first | with_reducible rfl | (simp only [↓State.setColl_still, ↓State.chargeText_still, ↓State.chargeTiles_still]; done) | simp only []
                    | split)

theorem execEncoderBatchClose_still : ∀ s, ∀ t, @execEncoderBatchClose s = .next t → t.still = s.still := by
  intro s t h
  simp only [execEncoderBatchClose, Host.Outcome.next.injEq] at h
  subst h
  repeat' (first | with_reducible rfl | (simp only [↓still_mk, ↓still_fold, ↓apply_ite State.still, ↓State.encodeOne_still]; done)
                    | simp only [↓apply_ite State.still] | with_reducible refine (still_foldl _ _ (fun _ _ => ?_) _).trans ?_ | split)

theorem execEncode_still : ∀ a0 a1 s, ∀ t, @execEncode a0 a1 s = .next t → t.still = s.still := by
  intro a0 a1 s t h
  simp only [execEncode, Host.Outcome.next.injEq] at h
  subst h
  repeat' (first | with_reducible rfl | (intro _ _ _ h) | (intro _ _ h) | (rw [err_ok] at h; exact h.elim)
                    | (rw [bind_ok] at h; rcases h with ⟨_, _, h⟩) | (rw [pure_ok] at h; subst h) | (split at h)
                    | with_reducible refine (State.withCrew_still _ _ _ _ _ _ ?_ _ h).trans ?_
                    | with_reducible refine (State.withWeights_still _ _ _ _ _ ?_ _ h).trans ?_
                    | simp only [↓State.giveEntries_still, ↓State.chargeText_still, ↓State.chargeTiles_still, ↓State.runPages_still, ↓State.stage_still]
                    | with_reducible refine (State.start_still _ _ _ _ _ ?_ ).trans ?_
                    | with_reducible refine (State.reserveKv_still _ _ _ _ _ ‹_›).trans ?_
                    | with_reducible refine (State.bindGen_still _ _ _ _ _ _ ‹_›).trans ?_)

theorem execScorePairs_still : ∀ a0 a1 s, ∀ t, @execScorePairs a0 a1 s = .next t → t.still = s.still := by
  intro a0 a1 s t h
  simp only [execScorePairs, Host.Outcome.next.injEq] at h
  subst h
  repeat' (first | with_reducible rfl | (intro _ _ _ h) | (intro _ _ h) | (rw [err_ok] at h; exact h.elim)
                    | (rw [bind_ok] at h; rcases h with ⟨_, _, h⟩) | (rw [pure_ok] at h; subst h) | (split at h)
                    | with_reducible refine (State.withCrew_still _ _ _ _ _ _ ?_ _ h).trans ?_
                    | with_reducible refine (State.withWeights_still _ _ _ _ _ ?_ _ h).trans ?_
                    | simp only [↓State.giveEntries_still, ↓State.chargeText_still, ↓State.chargeTiles_still, ↓State.runPages_still, ↓State.stage_still]
                    | with_reducible refine (State.start_still _ _ _ _ _ ?_ ).trans ?_
                    | with_reducible refine (State.reserveKv_still _ _ _ _ _ ‹_›).trans ?_
                    | with_reducible refine (State.bindGen_still _ _ _ _ _ _ ‹_›).trans ?_)

theorem State.cacheTranslation_still : ∀ a0 s, (@State.cacheTranslation a0 s).still = s.still := by
  intro a0 s
  unfold State.cacheTranslation
  repeat' (first | (simp only [↓still_mk, ↓still_fold]; done))

theorem State.readPages_still : ∀ a0 s, ∀ t, @State.readPages a0 s = some t → t.still = s.still := by
  intro a0 s t h
  unfold State.readPages at h
  repeat' (first | with_reducible rfl | (simp only [↓State.cacheTranslation_still]; done) | (rw [none_ok] at h; exact h.elim)
                    | (rw [Option.some.injEq] at h; subst h) | (dsimp only at h) | (split at h)
                    | with_reducible refine (still_foldl _ _ (fun _ _ => ?_) _).trans ?_)

theorem State.throughPages_still : ∀ a0 a1 s, ∀ t, @State.throughPages a0 a1 s = some t → t.still = s.still := by
  intro a0 a1 s t h
  unfold State.throughPages at h
  repeat' (first | with_reducible rfl | (simp only [↓State.writeTokens_still]; done) | with_reducible refine (State.readPages_still _ _ _ h).trans ?_
                    | with_reducible refine (still_foldl _ _ (fun _ _ => ?_) _).trans ?_)

theorem State.tokenizeSource_still : ∀ a0 s, ∀ t, @State.tokenizeSource a0 s = .ok t → t.2.2.still = s.still := by
  intro a0 s t h
  unfold State.tokenizeSource at h
  repeat' (first | with_reducible rfl | (rw [err_ok] at h; exact h.elim) | (rw [bind_ok] at h; rcases h with ⟨_, _, h⟩) | (rw [pure_ok] at h; subst h)
                    | (dsimp only at h) | (split at h) | simp only [] | with_reducible refine (State.bindGen_still _ _ _ _ _ _ ‹_›).trans ?_)

theorem execTokenize_still : ∀ a0 a1 s, ∀ t, @execTokenize a0 a1 s = .next t → t.still = s.still := by
  intro a0 a1 s t h
  simp only [execTokenize, Host.Outcome.next.injEq] at h
  subst h
  repeat' (first | with_reducible rfl
                    | (simp only [↓still_mk, ↓still_fold, ↓State.giveEntries_still, ↓State.stage_still, ↓State.chargeText_still, ↓State.chargeTiles_still]; done)
                    | (intro _ _ _ h) | (intro _ _ h) | (rw [bind_ok] at h; rcases h with ⟨_, _, h⟩) | (rw [ok_ok] at h; subst h) | (split at h)
                    | with_reducible refine (State.withCrew_still _ _ _ _ _ _ ?_ _ h).trans ?_
                    | with_reducible refine (State.start_still _ _ _ _ _ ?_ ).trans ?_
                    | with_reducible refine (State.tokenizeSource_still _ _ _ ‹_›).trans ?_)

theorem execTokenizeContextExpire_still : ∀ a0 s, ∀ t, @execTokenizeContextExpire a0 s = .next t → t.still = s.still := by
  intro a0 s t h
  simp only [execTokenizeContextExpire, Host.Outcome.next.injEq] at h
  subst h
  repeat' (first | with_reducible rfl | (simp only [↓still_mk, ↓still_fold, ↓apply_ite State.still, ite_self, ↓State.reapGens_still]; done) | split)

theorem execDetokenize_still : ∀ a0 a1 s, ∀ t, @execDetokenize a0 a1 s = .next t → t.still = s.still := by
  intro a0 a1 s t h
  simp only [execDetokenize, Host.Outcome.next.injEq] at h
  subst h
  repeat' (first | with_reducible rfl | (simp only [↓State.answer_still, ↓State.charge_still, ↓State.stage_still, ↓State.chargeTiles_still]; done)
                    | (intro _ _ _ h) | (intro _ _ h) | (rw [err_ok] at h; exact h.elim) | (rw [bind_ok] at h; rcases h with ⟨_, _, h⟩)
                    | (rw [ok_ok] at h; subst h) | (split at h) | with_reducible refine (State.withCrew_still _ _ _ _ _ _ ?_ _ h).trans ?_
                    | with_reducible refine (State.start_still _ _ _ _ _ ?_ ).trans ?_
                    | with_reducible refine (State.bindGen_still _ _ _ _ _ _ ‹_›).trans ?_)

/-! ### ListScan -/

theorem State.squashReads_still : ∀ a0 a1 a2 s, (@State.squashReads a0 a1 a2 s).still = s.still := by
  intro a0 a1 a2 s
  unfold State.squashReads
  repeat' (first | with_reducible rfl
                    | (simp only [↓State.leaveReads_still, ↓State.logReadOf_still, ↓State.chargeSpec_still, ↓State.cancelHedges_still]; done)
                    | simp only [↓State.leaveReads_still, ↓State.chargeSpec_still]
                    | with_reducible refine (still_foldl _ _ (fun _ _ => ?_) _).trans ?_ | split)

theorem State.bindPinned_still : ∀ a0 a1 s, (@State.bindPinned a0 a1 s).still = s.still := by
  intro a0 a1 s
  unfold State.bindPinned
  repeat' (first | (simp only [↓State.updFlight_still]; done))

theorem State.searchCrew_still : ∀ a0 a1 a2 s, (∀ x0 t, a2 x0 = .ok t → t.still = x0.still) → ∀ t, @State.searchCrew a0 a1 a2 s = .ok t → t.still = s.still := by
  intro a0 a1 a2 s h0 t h
  unfold State.searchCrew at h
  repeat' (first | with_reducible rfl | (intro _ _ h) | (dsimp only at h) | (split at h)
                    | with_reducible refine (State.withCrew_still _ _ _ _ _ _ ?_ _ h).trans ?_ | with_reducible refine (h0 _ _ ‹_›).trans ?_)

theorem State.sendJobs_still : ∀ a0 s, (@State.sendJobs a0 s).1.still = s.still := by
  intro a0 s
  unfold State.sendJobs
  repeat' (first | with_reducible rfl | (simp only [↓apply_ite State.still, ↓apply_ite Prod.fst, ite_self, ↓State.updNbu_still]; done)
                    | with_reducible refine (still_foldl1 _ _ (fun _ _ => ?_) _).trans ?_)
theorem State.sendJobs_still_eq : ∀ a0 s t x, @State.sendJobs a0 s = (t, x) → t.still = s.still := by
  intro a0 s t x h
  have := State.sendJobs_still a0 s
  rwa [h] at this

theorem State.confirmRead_still : ∀ a0 s, (@State.confirmRead a0 s).still = s.still := by
  intro a0 s
  unfold State.confirmRead
  repeat' (first | with_reducible rfl | (simp only [↓State.readEffects_still]; done) | split)

theorem State.selectionDone_still : ∀ a0 a1 s, (@State.selectionDone a0 a1 s).still = s.still := by
  intro a0 a1 s
  unfold State.selectionDone
  repeat' (first | with_reducible rfl
                    | (simp only [↓apply_ite State.still, ↓apply_ite Prod.fst, ↓apply_ite Prod.snd, ite_self, ↓State.afterReads_still, ↓State.nextReads_still, ↓State.cancelHedges_still, ↓State.leaveReads_still, ↓State.logReadOf_still, ↓State.confirmRead_still, ↓State.draw_still, ↓State.stage_still, ↓State.squashReads_still, ↓State.readsFail_still, ↓State.setWork_still]; done)
                    | simp only [↓apply_ite State.still, ↓apply_ite Prod.fst, ↓apply_ite Prod.snd, ite_self, ↓State.afterReads_still, ↓State.nextReads_still, ↓State.cancelHedges_still, ↓State.leaveReads_still, ↓State.logReadOf_still, ↓State.readsFail_still]
                    | with_reducible refine (still_foldl _ _ (fun _ _ => ?_) _).trans ?_ | split)

theorem State.searchProgress_still : ∀ a0 a1 s, (@State.searchProgress a0 a1 s).still = s.still := by
  intro a0 a1 s
  unfold State.searchProgress
  repeat' (first | (simp only [↓apply_ite State.still, ite_self, ↓State.setWork_still, ↓State.selectionDone_still]; done))

theorem State.startScans_still : ∀ a0 a1 a2 a3 a4 s, (@State.startScans a0 a1 a2 a3 a4 s).still = s.still := by
  intro a0 a1 a2 a3 a4 s
  unfold State.startScans
  repeat' (first
                    | (simp only [↓apply_ite State.still, ite_self, ↓State.chargeSpec_still, ↓State.searchProgress_still, ↓State.sendJobs_still, ↓State.chargeText_still, ↓State.stage_still, ↓State.setWork_still, ↓State.answer_still, ↓State.charge_still]; done)
                    | simp only [↓apply_ite State.still, ite_self, ↓State.chargeSpec_still, ↓State.searchProgress_still, ↓State.sendJobs_still, ↓State.setWork_still]
                    | split)

theorem State.reserveOnce_still : ∀ a0 a1 a2 s, ∀ t, @State.reserveOnce a0 a1 a2 s = .ok t → t.still = s.still := by
  intro a0 a1 a2 s t h
  unfold State.reserveOnce at h
  repeat' (first | with_reducible rfl | (rw [map_ok] at h; rcases h with ⟨_, h, rfl⟩) | (rw [ok_ok] at h; subst h) | (split at h)
                    | with_reducible refine (State.reserveKv_still _ _ _ _ _ h).trans ?_ | simp only [↓State.runPages_still])

theorem State.searchBound_still : ∀ a0 a1 a2 a3 s, ∀ t, @State.searchBound a0 a1 a2 a3 s = .ok t → t.still = s.still := by
  intro a0 a1 a2 a3 s t h
  unfold State.searchBound at h
  repeat' (first | with_reducible rfl | (simp only [↓State.startScans_still, ↓State.bindPinned_still]; done) | (intro _ _ h)
                    | (rw [bind_ok] at h; rcases h with ⟨_, _, h⟩) | (rw [pure_ok] at h; subst h) | (dsimp only at h) | (split at h)
                    | with_reducible refine (State.withWeights_still _ _ _ _ _ ?_ _ h).trans ?_
                    | with_reducible refine (State.searchCrew_still _ _ _ _ ?_ _ h).trans ?_ | simp only [↓State.startScans_still]
                    | with_reducible refine (State.reserveOnce_still _ _ _ _ _ ‹_›).trans ?_ | (rename_i hq; rw [pure_ok] at hq; subst hq))

theorem execRefinePrefetch_still : ∀ a0 a1 s, ∀ t, @execRefinePrefetch a0 a1 s = .next t → t.still = s.still := by
  intro a0 a1 s t h
  simp only [execRefinePrefetch, Host.Outcome.next.injEq] at h
  subst h
  repeat' (first | with_reducible rfl | (simp only [↓still_mk, ↓still_fold, ↓apply_ite State.still, ite_self, ↓State.setWork_still]; done) | split)

theorem State.endTraversal_still : ∀ a0 a1 a2 s, (@State.endTraversal a0 a1 a2 s).still = s.still := by
  intro a0 a1 a2 s
  unfold State.endTraversal
  repeat' (first | with_reducible rfl
                    | (simp only [↓still_mk, ↓still_fold, ↓apply_ite State.still, ite_self, ↓State.searchProgress_still, ↓State.sendJobs_still, ↓State.answer_still, ↓State.draw_still, ↓State.chargeSpec_still, ↓State.squashJobs_still]; done)
                    | simp only [] | split)

theorem execSpeculationSquash_still : ∀ a0 a1 s, ∀ t, @execSpeculationSquash a0 a1 s = .next t → t.still = s.still := by
  intro a0 a1 s t h
  simp only [execSpeculationSquash, Host.Outcome.next.injEq] at h
  subst h
  repeat' (first | with_reducible rfl | (simp only [↓State.endTraversal_still]; done) | split)

theorem execGateCompaction_still : ∀ a0 a1 s, ∀ t, @execGateCompaction a0 a1 s = .next t → t.still = s.still := by
  intro a0 a1 s t h
  simp only [execGateCompaction, Host.Outcome.next.injEq] at h
  subst h
  repeat' (first | with_reducible rfl | (simp only [↓apply_ite State.still, ite_self, ↓State.setWork_still]; done) | split)

theorem State.takeHeld_still : ∀ a0 a1 s, (@State.takeHeld a0 a1 s).still = s.still := by
  intro a0 a1
  induction a1 with
  | zero => intro s; rfl
  | succ n ih =>
    intro s
    unfold State.takeHeld
    split
    · rfl
    · dsimp only
      split
      · rw [ih]; simp only [State.setWork_still, State.updNbu_still]
      · rfl

theorem State.tilesScan_still : ∀ a0 s, (@State.tilesScan a0 s).2.still = s.still := by
  intro a0 s
  unfold State.tilesScan
  repeat' (first | (simp only [↓apply_ite State.still, ↓apply_ite Prod.snd, ite_self, ↓State.draw_still]; done))
theorem State.tilesScan_still_eq : ∀ a0 s t x, @State.tilesScan a0 s = (x, t) → t.still = s.still := by
  intro a0 s t x h
  have := State.tilesScan_still a0 s
  rwa [h] at this

theorem execScanJob_still : ∀ a0 s, ∀ t, @execScanJob a0 s = .next t → t.still = s.still := by
  intro a0 s t h
  simp only [execScanJob, Host.Outcome.next.injEq] at h
  subst h
  repeat' (first | with_reducible rfl
                    | (simp only [↓still_mk, ↓still_fold, ↓apply_ite State.still, ite_self, ↓State.tilesScan_still, ↓State.squashReads_still, ↓State.answer_still, ↓State.updNbu_still, ↓State.takeHeld_still]; done)
                    | simp only [↓apply_ite State.still] | split)

theorem execScanJobComplete_still : ∀ a0 s, ∀ t, @execScanJobComplete a0 s = .next t → t.still = s.still := by
  intro a0 s t h
  simp only [execScanJobComplete, Host.Outcome.next.injEq] at h
  subst h
  repeat' (first | with_reducible rfl
                    | (simp only [↓apply_ite State.still, ite_self, ↓State.setWork_still, ↓State.searchProgress_still, ↓State.updNbu_still]; done)
                    | split)

theorem execThresholdUpdate_still : ∀ a0 a1 a2 s, ∀ t, @execThresholdUpdate a0 a1 a2 s = .next t → t.still = s.still := by
  intro a0 a1 a2 s t h
  simp only [execThresholdUpdate, Host.Outcome.next.injEq] at h
  subst h
  repeat' (first | with_reducible rfl | (simp only [↓State.updNbu_still]; done) | split)

theorem State.resumeSearches_still : ∀ s, (@State.resumeSearches s).still = s.still := by
  intro s
  unfold State.resumeSearches
  repeat' (first | with_reducible rfl | (simp only [↓apply_ite State.still, ite_self, ↓State.selectionDone_still]; done)
                    | with_reducible refine (still_foldl _ _ (fun _ _ => ?_) _).trans ?_ | split)

/-! ### FabricSearch -/

theorem State.cancelShard_still : ∀ a0 a1 a2 s, (@State.cancelShard a0 a1 a2 s).still = s.still := by
  intro a0 a1 a2 s
  unfold State.cancelShard
  repeat' (first | with_reducible rfl | (simp only [↓apply_ite State.still, ite_self, ↓State.sendFree_still]; done)
                    | simp only [↓apply_ite State.still, ite_self, ↓State.sendFree_still] | split)

theorem State.cancelShards_still : ∀ a0 s, (@State.cancelShards a0 s).still = s.still := by
  intro a0 s
  unfold State.cancelShards
  repeat' (first | with_reducible rfl | (simp only [↓apply_ite State.still, ite_self, ↓State.cancelShard_still]; done)
                    | with_reducible refine (still_foldl _ _ (fun _ _ => ?_) _).trans ?_)

theorem State.freshSubq_still : ∀ s, (@State.freshSubq s).2.still = s.still := by
  intro s
  unfold State.freshSubq
  repeat' (first | (simp only [↓still_mk, ↓still_fold]; done))
theorem State.freshSubq_still_eq : ∀ s t x, @State.freshSubq s = (x, t) → t.still = s.still := by
  intro s t x h
  have := State.freshSubq_still s
  rwa [h] at this

theorem State.shardMissing_still : ∀ a0 a1 s, (@State.shardMissing a0 a1 s).still = s.still := by
  intro a0 a1 s
  unfold State.shardMissing
  repeat' (first | (simp only [↓State.updServed_still, ↓State.settleMerge_still]; done))

theorem State.shardGone_still : ∀ a0 a1 a2 s, (@State.shardGone a0 a1 a2 s).still = s.still := by
  intro a0 a1 a2 s
  unfold State.shardGone
  repeat' (first | (simp only [↓apply_ite State.still, ite_self, ↓State.shardMissing_still, ↓State.updServed_still]; done) | simp only [] | split)

theorem State.updShard_still : ∀ a0 a1 a2 s, (@State.updShard a0 a1 a2 s).still = s.still := by
  intro a0 a1 a2 s
  unfold State.updShard
  repeat' (first | (simp only [↓State.updServed_still]; done))

theorem State.sendSubquery_still : ∀ a0 a1 a2 a3 a4 s, (@State.sendSubquery a0 a1 a2 a3 a4 s).1.still = s.still := by
  intro a0 a1 a2 a3 a4 s
  unfold State.sendSubquery
  repeat' (first | (simp only [↓apply_ite State.still, ↓apply_ite Prod.fst, ite_self, ↓State.send_still]; done))
theorem State.sendSubquery_still_eq : ∀ a0 a1 a2 a3 a4 s t x, @State.sendSubquery a0 a1 a2 a3 a4 s = (t, x) → t.still = s.still := by
  intro a0 a1 a2 a3 a4 s t x h
  have := State.sendSubquery_still a0 a1 a2 a3 a4 s
  rwa [h] at this

theorem State.sendChildren_still : ∀ a0 a1 s, (@State.sendChildren a0 a1 s).still = s.still := by
  intro a0 a1 s
  unfold State.sendChildren
  repeat' (first | with_reducible rfl
                    | (simp only [↓still_mk, ↓still_fold, ↓apply_ite State.still, ↓apply_ite Prod.fst, ↓apply_ite Prod.snd, ite_self, ↓State.sendSubquery_still, ↓State.updShard_still, ↓State.freshSubq_still, ↓State.shardGone_still]; done)
                    | simp only [↓apply_ite Prod.fst, ↓apply_ite Prod.snd] | with_reducible refine (still_foldl _ _ (fun _ _ => ?_) _).trans ?_)

theorem State.searchAgain_still : ∀ a0 a1 s, ∀ t, @State.searchAgain a0 a1 s = .ok t → t.still = s.still := by
  intro a0 a1 s t h
  unfold State.searchAgain at h
  repeat' (first | with_reducible rfl | (rw [err_ok] at h; exact h.elim) | (rw [ok_ok] at h; subst h) | (split at h)
                    | with_reducible refine (State.searchBound_still _ _ _ _ _ _ h).trans ?_)

theorem State.declineHedge_still : ∀ a0 s, (@State.declineHedge a0 s).still = s.still := by
  intro a0 s
  unfold State.declineHedge
  repeat' (first | (simp only [↓still_mk, ↓still_fold, ↓State.updServed_still, ↓State.settleMerge_still]; done))

theorem State.bindReranker_still : ∀ a0 a1 s, ∀ t, @State.bindReranker a0 a1 s = .ok t → t.2.still = s.still := by
  intro a0 a1 s t h
  unfold State.bindReranker at h
  repeat' (first | with_reducible rfl | (rw [bind_ok] at h; rcases h with ⟨_, _, h⟩) | (rw [ok_ok] at h; subst h) | (rw [pure_ok] at h; subst h)
                    | (dsimp only at h) | (split at h) | simp only [] | with_reducible refine (State.bindGen_still _ _ _ _ _ _ ‹_›).trans ?_)

theorem State.serveOwn_still : ∀ a0 a1 s, ∀ t, @State.serveOwn a0 a1 s = .ok t → t.still = s.still := by
  intro a0 a1 s t h
  unfold State.serveOwn at h
  repeat' (first | with_reducible rfl
                    | (simp only [↓apply_ite State.still, ite_self, ↓State.post_still, ↓State.updFlight_still, ↓State.updServed_still, ↓State.setWork_still, ↓State.declineHedge_still]; done)
                    | (rw [err_ok] at h; exact h.elim) | (rw [bind_ok] at h; rcases h with ⟨_, _, h⟩) | (rw [ok_ok] at h; subst h) | (dsimp only at h)
                    | (split at h) | with_reducible refine (State.searchBound_still _ _ _ _ _ _ h).trans ?_
                    | with_reducible refine (State.searchAgain_still _ _ _ _ h).trans ?_
                    | simp only [↓apply_ite State.still, ite_self, ↓State.post_still, ↓State.updFlight_still]
                    | with_reducible refine (State.bindReranker_still _ _ _ _ ‹_›).trans ?_)

theorem State.beginServed_still : ∀ a0 a1 a2 s, (@State.beginServed a0 a1 a2 s).still = s.still := by
  intro a0 a1 a2 s
  unfold State.beginServed
  repeat' (first | (simp only [↓still_mk, ↓still_fold, ↓State.answerDetail_still, ↓State.sendChildren_still]; done) | simp only []
                    | with_reducible refine (State.serveOwn_still _ _ _ _ ‹_›).trans ?_ | split)

theorem State.fabricSearch_still : ∀ a0 a1 s, ∀ t, @State.fabricSearch a0 a1 s = .ok t → t.still = s.still := by
  intro a0 a1 s t h
  unfold State.fabricSearch at h
  repeat' (first | (simp only [↓State.beginServed_still, ↓State.charge_still, ↓State.setWork_still, ↓State.freshSubq_still]; done)
                    | (rw [err_ok] at h; exact h.elim) | (rw [ok_ok] at h; subst h) | (dsimp only at h) | (split at h))

theorem State.admitSubquery_still : ∀ a0 a1 s, (@State.admitSubquery a0 a1 s).still = s.still := by
  intro a0 a1 s
  unfold State.admitSubquery
  repeat' (first | with_reducible rfl | (simp only [↓apply_ite State.still, ite_self, ↓State.beginServed_still, ↓State.partnerViolation_still]; done)
                    | intro _ | simp only [] | with_reducible refine (State.wellFormed_still _ _ _ _ ?_ ).trans ?_ | split)

theorem State.mergeList_still : ∀ a0 a1 a2 a3 s, (@State.mergeList a0 a1 a2 a3 s).still = s.still := by
  intro a0 a1 a2 a3 s
  unfold State.mergeList
  repeat' (first
                    | (simp only [↓still_mk, ↓still_fold, ↓apply_ite State.still, ite_self, ↓State.settleMerge_still, ↓State.chargeSpec_still, ↓State.chargeAll_still, ↓State.cancelShard_still, ↓State.updServed_still]; done))

/-! ### SearchCommands -/

theorem State.takeBack_still : ∀ a0 s, (@State.takeBack a0 s).still = s.still := by
  intro a0 s
  unfold State.takeBack
  repeat' (first | (simp only [↓still_mk, ↓still_fold, ↓State.moveToSpec_still, ↓State.squashBytes_still]; done))

theorem State.takeAnswered_still : ∀ a0 s, (@State.takeAnswered a0 s).still = s.still := by
  intro a0 s
  unfold State.takeAnswered
  repeat' (first | with_reducible rfl | (simp only [↓State.takeBack_still]; done) | split)

theorem State.squashServed_still : ∀ a0 a1 s, (@State.squashServed a0 a1 s).still = s.still := by
  intro a0 a1 s
  unfold State.squashServed
  repeat' (first
                    | (simp only [↓State.chargeSpec_still, ↓State.endFlight_still, ↓State.draw_still, ↓State.squashBytes_still, ↓State.squashReads_still]; done))

theorem execCancel_still : ∀ s, ∀ t, @execCancel s = .next t → t.still = s.still := by
  intro s t h
  simp only [execCancel, Host.Outcome.next.injEq] at h
  subst h
  repeat' (first | with_reducible rfl
                    | (simp only [↓State.noteAnswered_still, ↓State.dropServed_still, ↓State.squashServed_still, ↓State.cancelShards_still, ↓State.takeAnswered_still]; done)
                    | intro _ | simp only [↓State.noteAnswered_still, ↓State.dropServed_still, ↓State.squashServed_still, ↓State.cancelShards_still, ↓State.takeAnswered_still]
                    | with_reducible refine (State.wellFormed_still _ _ _ _ ?_ ).trans ?_
                    | with_reducible refine (State.takeMessage_still _ _ _ _ ‹_›).trans ?_ | split)

theorem State.runItem_still : ∀ a0 s, ∀ t, @State.runItem a0 s = .ok t → t.still = s.still := by
  intro a0 s t h
  unfold State.runItem at h
  repeat' (first | with_reducible rfl | (rw [err_ok] at h; exact h.elim) | (split at h)
                    | with_reducible refine (State.searchAgain_still _ _ _ _ h).trans ?_
                    | with_reducible refine (State.fabricSearch_still _ _ _ _ h).trans ?_)

theorem State.cancelHedgeRead_still : ∀ a0 s, (@State.cancelHedgeRead a0 s).still = s.still := by
  intro a0 s
  unfold State.cancelHedgeRead
  simp only [↓still_mk, ↓still_fold, ↓apply_ite State.still, ite_self, ↓State.chargeSpec_still, ↓State.takeAnswered_still]

theorem execHedgeRead_still : ∀ a0 s, ∀ t, @execHedgeRead a0 s = .next t → t.still = s.still := by
  intro a0 s t h
  simp only [execHedgeRead, Host.Outcome.next.injEq] at h
  subst h
  repeat' (first | with_reducible rfl
                    | (simp only [↓still_mk, ↓still_fold, ↓apply_ite State.still, ite_self, ↓State.chargeAll_still, ↓State.noteAnswered_still, ↓State.draw_still, ↓State.partnerViolation_still, ↓State.sendFree_still, ↓State.chargeSpec_still, ↓State.cancelHedgeRead_still]; done)
                    | intro _ | simp only [↓apply_ite State.still, ite_self, ↓State.sendFree_still, ↓State.chargeSpec_still]
                    | with_reducible refine (State.wellFormed_still _ _ _ _ ?_ ).trans ?_
                    | with_reducible refine (State.takeMessage_still _ _ _ _ ‹_›).trans ?_ | split)

theorem State.underSearchLimit_still : ∀ a0 a1 a2 s, (∀ x0 t, a2 x0 = .ok t → t.still = x0.still) → ∀ t, @State.underSearchLimit a0 a1 a2 s = .ok t → t.still = s.still := by
  intro a0 a1 a2 s h0 t h
  unfold State.underSearchLimit at h
  repeat' (first | with_reducible rfl | (simp only [↓State.answerDetail_still, ↓State.draw_still]; done) | (rw [ok_ok] at h; subst h)
                    | (dsimp only at h) | (split at h) | with_reducible refine (h0 _ _ ‹_›).trans ?_)

theorem State.searchBody_still : ∀ a0 a1 s, ∀ t, @State.searchBody a0 a1 s = .ok t → t.still = s.still := by
  intro a0 a1 s t h
  unfold State.searchBody at h
  repeat' (first | with_reducible rfl | (intro _ _ _ h) | (intro _ _ h) | (rw [bind_ok] at h; rcases h with ⟨_, _, h⟩) | (rw [ok_ok] at h; subst h)
                    | (dsimp only at h) | (split at h) | with_reducible refine (State.searchBound_still _ _ _ _ _ _ h).trans ?_
                    | with_reducible refine (State.fabricSearch_still _ _ _ _ h).trans ?_
                    | with_reducible refine (State.searchAgain_still _ _ _ _ h).trans ?_
                    | with_reducible refine (State.runItem_still _ _ _ h).trans ?_ | with_reducible refine (State.serveOwn_still _ _ _ _ h).trans ?_
                    | with_reducible refine (State.bindSnapshot_still _ _ _ _ ?_ _ h).trans ?_
                    | with_reducible refine (State.underSearchLimit_still _ _ _ _ ?_ _ h).trans ?_ | simp only [↓State.updFlight_still]
                    | with_reducible refine (State.bindReranker_still _ _ _ _ ‹_›).trans ?_)

theorem execSearch_still : ∀ a0 a1 s, ∀ t, @execSearch a0 a1 s = .next t → t.still = s.still := by
  intro a0 a1 s t h
  simp only [execSearch, Host.Outcome.next.injEq] at h
  subst h
  repeat' (first | with_reducible rfl | (intro _ _ _ h) | with_reducible refine (State.searchBody_still _ _ _ _ h).trans ?_
                    | with_reducible refine (State.start_still _ _ _ _ _ ?_ ).trans ?_)

theorem execSearchRerank_still : ∀ a0 a1 s, ∀ t, @execSearchRerank a0 a1 s = .next t → t.still = s.still := by
  intro a0 a1 s t h
  simp only [execSearchRerank, Host.Outcome.next.injEq] at h
  subst h
  repeat' (first | with_reducible rfl | (intro _ _ _ h) | with_reducible refine (State.searchBody_still _ _ _ _ h).trans ?_
                    | with_reducible refine (State.start_still _ _ _ _ _ ?_ ).trans ?_)

theorem State.runBatch_still : ∀ a0 s, ∀ t, @State.runBatch a0 s = .ok t → t.still = s.still := by
  intro a0 s t h
  unfold State.runBatch at h
  repeat' (first | with_reducible rfl | (simp only [↓State.answerDetail_still, ↓State.setWork_still]; done) | (intro _ _ h)
                    | (rw [ok_ok] at h; subst h) | (dsimp only at h) | with_reducible refine (State.withCrew_still _ _ _ _ _ _ ?_ _ h).trans ?_
                    | with_reducible refine (still_foldl _ _ (fun _ _ => ?_) _).trans ?_
                    | with_reducible refine (State.runItem_still _ _ _ ‹_›).trans ?_ | split)

theorem execSearchBatch_still : ∀ a0 a1 s, ∀ t, @execSearchBatch a0 a1 s = .next t → t.still = s.still := by
  intro a0 a1 s t h
  simp only [execSearchBatch, Host.Outcome.next.injEq] at h
  subst h
  repeat' (first | with_reducible rfl | (simp only [↓still_mk, ↓still_fold, ↓State.updFlight_still]; done) | (intro _ _ _ h) | (intro _ _ h)
                    | (rw [err_ok] at h; exact h.elim) | (rw [bind_ok] at h; rcases h with ⟨_, _, h⟩) | (split at h)
                    | with_reducible refine (State.runBatch_still _ _ _ h).trans ?_
                    | with_reducible refine (State.bindSnapshot_still _ _ _ _ ?_ _ h).trans ?_
                    | with_reducible refine (State.underSearchLimit_still _ _ _ _ ?_ _ h).trans ?_
                    | with_reducible refine (State.start_still _ _ _ _ _ ?_ ).trans ?_)

theorem execSubqueryHedge_still : ∀ a0 a1 a2 a3 s, ∀ t, @execSubqueryHedge a0 a1 a2 a3 s = .next t → t.still = s.still := by
  intro a0 a1 a2 a3 s t h
  simp only [execSubqueryHedge, Host.Outcome.next.injEq] at h
  subst h
  repeat' (first | with_reducible rfl
                    | (simp only [↓still_mk, ↓still_fold, ↓apply_ite State.still, ite_self, ↓State.shardGone_still, ↓State.updShard_still, ↓State.sendFree_still, ↓State.freshSubq_still, ↓State.chargeSpec_still, ↓State.shardMissing_still]; done)
                    | simp only [↓apply_ite State.still, ite_self, ↓State.shardMissing_still] | split)

theorem State.sendReadHedge_still : ∀ a0 a1 a2 a3 a4 a5 s, (@State.sendReadHedge a0 a1 a2 a3 a4 a5 s).still = s.still := by
  intro a0 a1 a2 a3 a4 a5 s
  unfold State.sendReadHedge
  repeat' (first | with_reducible rfl
                    | (simp only [↓still_mk, ↓still_fold, ↓State.putReads_still, ↓State.updFlight_still, ↓State.sendFree_still, ↓State.chargeSpec_still]; done)
                    | simp only [↓State.putReads_still, ↓State.updFlight_still, ↓State.chargeSpec_still]
                    | with_reducible refine (still_foldl1 _ _ (fun _ _ => ?_) _).trans ?_)

theorem execRefineReadHedge_still : ∀ a0 a1 a2 s, ∀ t, @execRefineReadHedge a0 a1 a2 s = .next t → t.still = s.still := by
  intro a0 a1 a2 s t h
  simp only [execRefineReadHedge, Host.Outcome.next.injEq] at h
  subst h
  repeat' (first | with_reducible rfl
                    | (simp only [↓apply_ite State.still, ite_self, ↓State.sendReadHedge_still, ↓State.chargeSpec_still, ↓State.draw_still]; done) | split)

theorem execSubquery_still : ∀ s, ∀ t, @execSubquery s = .next t → t.still = s.still := by
  intro s t h
  simp only [execSubquery, Host.Outcome.next.injEq] at h
  subst h
  repeat' (first | with_reducible rfl | simp only [↓State.admitSubquery_still] | with_reducible refine (State.takeMessage_still _ _ _ _ ‹_›).trans ?_
                    | split)

theorem execAdmitNotice_still : ∀ s, ∀ t, @execAdmitNotice s = .next t → t.still = s.still := by
  intro s t h
  simp only [execAdmitNotice, Host.Outcome.next.injEq] at h
  subst h
  repeat' (first | with_reducible rfl | (simp only [↓still_mk, ↓still_fold]; done) | intro _
                    | with_reducible refine (State.wellFormed_still _ _ _ _ ?_ ).trans ?_
                    | with_reducible refine (State.takeMessage_still _ _ _ _ ‹_›).trans ?_ | split)

theorem execPartialList_still : ∀ s, ∀ t, @execPartialList s = .next t → t.still = s.still := by
  intro s t h
  simp only [execPartialList, Host.Outcome.next.injEq] at h
  subst h
  repeat' (first | with_reducible rfl
                    | simp only [↓apply_ite State.still, ite_self, ↓State.mergeList_still, ↓State.chargeSpec_still, ↓State.shardGone_still, ↓State.partnerViolation_still]
                    | with_reducible refine (State.takeMessage_still _ _ _ _ ‹_›).trans ?_ | split)

theorem execHedgeData_still : ∀ s, ∀ t, @execHedgeData s = .next t → t.still = s.still := by
  intro s t h
  simp only [execHedgeData, Host.Outcome.next.injEq] at h
  subst h
  repeat' (first | with_reducible rfl
                    | (simp only [↓apply_ite State.still, ↓State.readLost_still, ↓State.log_still, ↓State.hedgeWon_still, ↓State.putReads_still]; done)
                    | (intro _ h) | intro _ | simp only [↓apply_ite State.still, ↓State.putReads_still]
                    | with_reducible refine (State.again_still _ _ _ ?_ ).trans ?_
                    | with_reducible refine (State.wellFormed_still _ _ _ _ ?_ ).trans ?_
                    | with_reducible refine (State.takeMessage_still _ _ _ _ ‹_›).trans ?_ | split)

theorem execHedgeBindTimeout_still : ∀ a0 a1 s, ∀ t, @execHedgeBindTimeout a0 a1 s = .next t → t.still = s.still := by
  intro a0 a1 s t h
  simp only [execHedgeBindTimeout, Host.Outcome.next.injEq] at h
  subst h
  repeat' (first | with_reducible rfl | (simp only [↓apply_ite State.still, ite_self, ↓State.declineHedge_still]; done) | split)

/-! ### Generate -/

theorem State.textOut_still : ∀ a0 a1 a2 a3 s, (@State.textOut a0 a1 a2 a3 s).still = s.still := by
  intro a0 a1 a2 a3 s
  unfold State.textOut
  repeat' (first | (simp only [↓State.updStream_still]; done))

theorem State.genEnd_still : ∀ a0 a1 a2 a3 a4 s, (@State.genEnd a0 a1 a2 a3 a4 s).still = s.still := by
  intro a0 a1 a2 a3 a4 s
  unfold State.genEnd
  repeat' (first
                    | (simp only [↓apply_ite State.still, ite_self, ↓State.textOut_still, ↓State.setWork_still, ↓State.abortStreams_still, ↓State.answer_still]; done)
                    | simp only [] | split)

theorem State.genStop_still : ∀ a0 a1 a2 s, (@State.genStop a0 a1 a2 s).still = s.still := by
  intro a0 a1 a2 s
  unfold State.genStop
  repeat' (first | (simp only [↓State.genEnd_still]; done))

theorem State.bindGrammar_still : ∀ a0 a1 s, ∀ t, @State.bindGrammar a0 a1 s = .ok t → t.2.still = s.still := by
  intro a0 a1 s t h
  unfold State.bindGrammar at h
  repeat' (first | with_reducible rfl | (rw [bind_ok] at h; rcases h with ⟨_, _, h⟩) | (rw [ok_ok] at h; subst h) | (rw [pure_ok] at h; subst h)
                    | (dsimp only at h) | (split at h) | simp only [] | with_reducible refine (State.bindGen_still _ _ _ _ _ _ ‹_›).trans ?_)

theorem execGenerate_still : ∀ a0 a1 s, ∀ t, @execGenerate a0 a1 s = .next t → t.still = s.still := by
  intro a0 a1 s t h
  simp only [execGenerate, Host.Outcome.next.injEq] at h
  subst h
  repeat' (first | with_reducible rfl | (intro _ _ _ h) | (intro _ _ h) | (rw [bind_ok] at h; rcases h with ⟨_, _, h⟩) | (rw [pure_ok] at h; subst h)
                    | (split at h) | with_reducible refine (State.withCrew_still _ _ _ _ _ _ ?_ _ h).trans ?_
                    | with_reducible refine (State.withWeights_still _ _ _ _ _ ?_ _ h).trans ?_
                    | simp only [↓State.stage_still, ↓State.setWork_still, ↓State.chargeText_still, ↓State.chargeTiles_still, ↓State.updFlight_still]
                    | with_reducible refine (State.start_still _ _ _ _ _ ?_ ).trans ?_
                    | with_reducible refine (State.reserveKv_still _ _ _ _ _ ‹_›).trans ?_
                    | with_reducible refine (State.bindGrammar_still _ _ _ _ ‹_›).trans ?_
                    | with_reducible refine (State.bindGen_still _ _ _ _ _ _ ‹_›).trans ?_)

theorem State.genToken_still : ∀ a0 a1 a2 s, (@State.genToken a0 a1 a2 s).still = s.still := by
  intro a0 a1 a2 s
  unfold State.genToken
  repeat' (first | with_reducible rfl
                    | (simp only [↓apply_ite State.still, ite_self, ↓State.textOut_still, ↓State.setWork_still, ↓State.genStop_still, ↓State.genEnd_still, ↓State.charge_still]; done)
                    | simp only [↓apply_ite State.still, ↓State.genStop_still, ↓State.charge_still] | split)

theorem State.genStep_still : ∀ a0 a1 a2 a3 a4 s, (@State.genStep a0 a1 a2 a3 a4 s).still = s.still := by
  intro a0 a1 a2 a3 a4 s
  unfold State.genStep
  repeat' (first
                    | (simp only [↓apply_ite State.still, ite_self, ↓State.genToken_still, ↓State.stage_still, ↓State.draw_still, ↓State.genStop_still, ↓State.chargeTiles_still]; done))

theorem execGenerateTokenStep_still : ∀ a0 a1 s, ∀ t, @execGenerateTokenStep a0 a1 s = .next t → t.still = s.still := by
  intro a0 a1 s t h
  simp only [execGenerateTokenStep, Host.Outcome.next.injEq] at h
  subst h
  repeat' (first | with_reducible rfl
                    | (simp only [↓apply_ite State.still, ↓State.genStep_still, ↓State.abortStreams_still, ↓State.answer_still]; done)
                    | simp only [↓apply_ite State.still, ↓State.genStep_still, ↓State.abortStreams_still, ↓State.answer_still]
                    | with_reducible refine (State.throughPages_still _ _ _ _ ‹_›).trans ?_ | split)

/-! ### SelectCommands -/

theorem State.selectionCrew_still : ∀ a0 a1 a2 s, (∀ x0 t, a2 x0 = .ok t → t.still = x0.still) → ∀ t, @State.selectionCrew a0 a1 a2 s = .ok t → t.still = s.still := by
  intro a0 a1 a2 s h0 t h
  unfold State.selectionCrew at h
  repeat' (first | with_reducible rfl | (intro _ _ h) | (split at h) | with_reducible refine (State.withCrew_still _ _ _ _ _ _ ?_ _ h).trans ?_
                    | with_reducible refine (h0 _ _ ‹_›).trans ?_)

theorem State.answerSelection_still : ∀ a0 a1 a2 a3 a4 a5 a6 s, (@State.answerSelection a0 a1 a2 a3 a4 a5 a6 s).still = s.still := by
  intro a0 a1 a2 a3 a4 a5 a6 s
  unfold State.answerSelection
  repeat' (first | (simp only [↓State.chargeTiles_still, ↓State.giveEntries_still]; done))

theorem execSelectTopk_still : ∀ a0 a1 s, ∀ t, @execSelectTopk a0 a1 s = .next t → t.still = s.still := by
  intro a0 a1 s t h
  simp only [execSelectTopk, Host.Outcome.next.injEq] at h
  subst h
  repeat' (first | with_reducible rfl | (simp only [↓State.answerSelection_still]; done) | (intro _ _ _ h) | (intro _ _ h)
                    | (rw [bind_ok] at h; rcases h with ⟨_, _, h⟩) | (rw [ok_ok] at h; subst h) | (split at h)
                    | with_reducible refine (State.selectionCrew_still _ _ _ _ ?_ _ h).trans ?_
                    | with_reducible refine (State.start_still _ _ _ _ _ ?_ ).trans ?_)

theorem execMergePartial_still : ∀ a0 a1 s, ∀ t, @execMergePartial a0 a1 s = .next t → t.still = s.still := by
  intro a0 a1 s t h
  simp only [execMergePartial, Host.Outcome.next.injEq] at h
  subst h
  repeat' (first | with_reducible rfl | (simp only [↓State.answerSelection_still]; done) | (intro _ _ _ h) | (intro _ _ h)
                    | (rw [bind_ok] at h; rcases h with ⟨_, _, h⟩) | (rw [ok_ok] at h; subst h)
                    | with_reducible refine (State.selectionCrew_still _ _ _ _ ?_ _ h).trans ?_
                    | with_reducible refine (State.start_still _ _ _ _ _ ?_ ).trans ?_)

/-! ### TableOps -/

theorem State.updTable_still : ∀ a0 a1 s, (@State.updTable a0 a1 s).still = s.still := by
  intro a0 a1 s
  unfold State.updTable
  repeat' (first | (simp only [↓still_mk, ↓still_fold]; done))

theorem State.newReq_still : ∀ s, (@State.newReq s).2.still = s.still := by
  intro s
  unfold State.newReq
  repeat' (first | (simp only [↓still_mk, ↓still_fold]; done))
theorem State.newReq_still_eq : ∀ s t x, @State.newReq s = (x, t) → t.still = s.still := by
  intro s t x h
  have := State.newReq_still s
  rwa [h] at this

theorem State.tablePost_still : ∀ a0 a1 a2 s, (@State.tablePost a0 a1 a2 s).still = s.still := by
  intro a0 a1 a2 s
  unfold State.tablePost
  repeat' (first | (simp only [↓State.post_still]; done))

/-! ### TableCommands -/

theorem State.freeTable_still : ∀ a0 s, (@State.freeTable a0 s).still = s.still := by
  intro a0 s
  unfold State.freeTable
  repeat' (first | (simp only [↓still_mk, ↓still_fold]; done))

theorem State.freeCreated_still : ∀ a0 s, (@State.freeCreated a0 s).still = s.still := by
  intro a0 s
  unfold State.freeCreated
  repeat' (first | (simp only [↓State.tablePost_still, ↓State.freeTable_still, ↓State.newReq_still]; done) | simp only [↓State.freeTable_still]
                    | with_reducible refine (still_foldl _ _ (fun _ _ => ?_) _).trans ?_)

theorem State.endCreate_still : ∀ a0 a1 s, (@State.endCreate a0 a1 s).still = s.still := by
  intro a0 a1 s
  unfold State.endCreate
  repeat' (first | with_reducible rfl
                    | (simp only [↓apply_ite State.still, ite_self, ↓State.answerDetail_still, ↓State.answer_still, ↓State.freeCreated_still, ↓State.updTable_still]; done)
                    | simp only [] | split)

theorem State.dropPrefetched_still : ∀ a0 a1 s, (@State.dropPrefetched a0 a1 s).still = s.still := by
  intro a0 a1 s
  unfold State.dropPrefetched
  repeat' (first | (simp only [↓still_mk, ↓still_fold, ↓State.charge_still]; done) | simp only []
                    | with_reducible refine (still_foldl _ _ (fun _ _ => ?_) _).trans ?_)

theorem State.answerLookup_still : ∀ a0 a1 a2 s, (@State.answerLookup a0 a1 a2 s).still = s.still := by
  intro a0 a1 a2 s
  unfold State.answerLookup
  repeat' (first
                    | (simp only [↓still_mk, ↓still_fold, ↓apply_ite State.still, ite_self, ↓State.chargeTiles_still, ↓State.giveEntries_still, ↓State.abortStreams_still, ↓State.answer_still, ↓State.dropPrefetched_still]; done))

theorem State.pumpLookup_still : ∀ s a1, (@State.pumpLookup s a1).still = s.still := by
  intro s a1
  unfold State.pumpLookup
  repeat' (first | with_reducible rfl
                    | (simp only [↓apply_ite State.still, ite_self, ↓State.setWork_still, ↓State.answerLookup_still, ↓State.updTable_still]; done)
                    | simp only [] | split)

theorem State.pumpRequest_still : ∀ s a1, (@State.pumpRequest s a1).still = s.still := by
  intro s a1
  unfold State.pumpRequest
  repeat' (first
                    | (simp only [↓still_mk, ↓still_fold, ↓apply_ite State.still, ite_self, ↓State.updTable_still, ↓State.chargeTiles_still, ↓State.tablePost_still]; done)
                    | simp only [] | split)

theorem State.pumpTable_still : ∀ a0 s, (@State.pumpTable a0 s).still = s.still := by
  intro a0 s
  unfold State.pumpTable
  repeat' (first | with_reducible rfl | (simp only [↓State.pumpRequest_still, ↓State.pumpLookup_still]; done) | simp only []
                    | with_reducible refine (still_foldl _ _ (fun _ _ => ?_) _).trans ?_)

theorem State.breakTable_still : ∀ a0 s, (@State.breakTable a0 s).still = s.still := by
  intro a0 s
  unfold State.breakTable
  repeat' (first
                    | (simp only [↓still_mk, ↓still_fold, ↓State.pumpTable_still, ↓State.abortStreams_still, ↓State.answer_still, ↓State.updTable_still]; done)
                    | simp only [↓State.pumpTable_still] | with_reducible refine (still_foldl _ _ (fun _ _ => ?_) _).trans ?_)

theorem State.endDrop_still : ∀ a0 s, (@State.endDrop a0 s).still = s.still := by
  intro a0 s
  unfold State.endDrop
  repeat' (first | (simp only [↓State.answer_still, ↓State.freeTable_still]; done) | simp only [] | split)

theorem State.settleDrop_still : ∀ a0 s, (@State.settleDrop a0 s).still = s.still := by
  intro a0 s
  unfold State.settleDrop
  repeat' (first | with_reducible rfl
                    | (simp only [↓apply_ite State.still, ite_self, ↓State.updTable_still, ↓State.send_still, ↓State.newReq_still, ↓State.endDrop_still, ↓State.freeTable_still, ↓State.tablePost_still]; done)
                    | simp only [↓apply_ite State.still, ite_self, ↓State.updTable_still, ↓State.endDrop_still]
                    | with_reducible refine (still_foldl1 _ _ (fun _ _ => ?_) _).trans ?_ | split)

theorem State.reserveTable_still : ∀ a0 a1 a2 s, ∀ t, @State.reserveTable a0 a1 a2 s = .ok t → t.still = s.still := by
  intro a0 a1 a2 s t h
  unfold State.reserveTable at h
  repeat' (first | (simp only [↓still_mk, ↓still_fold]; done) | (rw [bind_ok] at h; rcases h with ⟨_, _, h⟩) | (rw [pure_ok] at h; subst h))

theorem execTableCreate_still : ∀ a0 a1 s, ∀ t, @execTableCreate a0 a1 s = .next t → t.still = s.still := by
  intro a0 a1 s t h
  simp only [execTableCreate, Host.Outcome.next.injEq] at h
  subst h
  repeat' (first | with_reducible rfl
                    | (simp only [↓State.endCreate_still, ↓State.send_still, ↓State.updTable_still, ↓State.setWork_still, ↓State.newReq_still, ↓State.answer_still]; done)
                    | (intro _ _ _ h) | (rw [err_ok] at h; exact h.elim) | (rw [bind_ok] at h; rcases h with ⟨_, _, h⟩)
                    | (rw [map_ok] at h; rcases h with ⟨_, h, rfl⟩) | (rw [ok_ok] at h; subst h) | (split at h)
                    | with_reducible refine (State.reserveTable_still _ _ _ _ _ h).trans ?_
                    | simp only [↓State.endCreate_still, ↓State.updTable_still, ↓State.setWork_still, ↓State.newReq_still, ↓State.answer_still]
                    | with_reducible refine (still_foldl1 _ _ (fun _ _ => ?_) _).trans ?_
                    | with_reducible refine (State.start_still _ _ _ _ _ ?_ ).trans ?_
                    | with_reducible refine (State.reserveTable_still _ _ _ _ _ ‹_›).trans ?_)

theorem execTableDrop_still : ∀ a0 a1 s, ∀ t, @execTableDrop a0 a1 s = .next t → t.still = s.still := by
  intro a0 a1 s t h
  simp only [execTableDrop, Host.Outcome.next.injEq] at h
  subst h
  repeat' (first | with_reducible rfl
                    | (simp only [↓apply_ite State.still, ↓State.updTable_still, ↓State.setWork_still, ↓State.settleDrop_still]; done)
                    | (intro _ _ _ h) | (rw [bind_ok] at h; rcases h with ⟨_, _, h⟩) | (rw [ok_ok] at h; subst h)
                    | simp only [↓apply_ite State.still, ↓State.settleDrop_still] | with_reducible refine (State.start_still _ _ _ _ _ ?_ ).trans ?_
                    | split)

theorem State.inStep_still : ∀ a0 a1 a2 s, (∀ x0 t, a2 x0 = .ok t → t.still = x0.still) → ∀ t, @State.inStep a0 a1 a2 s = .ok t → t.still = s.still := by
  intro a0 a1 a2 s h0 t h
  unfold State.inStep at h
  repeat' (first | with_reducible rfl | (simp only [↓State.updTable_still, ↓State.setWork_still]; done) | (rw [err_ok] at h; exact h.elim)
                    | (rw [ok_ok] at h; subst h) | (dsimp only at h) | (split at h) | with_reducible refine (h0 _ _ ‹_›).trans ?_)

theorem State.askRows_still : ∀ a0 a1 a2 a3 a4 a5 s, (@State.askRows a0 a1 a2 a3 a4 a5 s).1.still = s.still := by
  intro a0 a1 a2 a3 a4 a5 s
  unfold State.askRows
  repeat' (first | with_reducible rfl | (simp only [↓apply_ite State.still, ↓apply_ite Prod.fst, ite_self, ↓State.send_still]; done) | simp only []
                    | with_reducible refine (still_foldl1 _ _ (fun _ _ => ?_) _).trans ?_)
theorem State.askRows_still_eq : ∀ a0 a1 a2 a3 a4 a5 s t x, @State.askRows a0 a1 a2 a3 a4 a5 s = (t, x) → t.still = s.still := by
  intro a0 a1 a2 a3 a4 a5 s t x h
  have := State.askRows_still a0 a1 a2 a3 a4 a5 s
  rwa [h] at this

theorem execTableLookup_still : ∀ a0 a1 s, ∀ t, @execTableLookup a0 a1 s = .next t → t.still = s.still := by
  intro a0 a1 s t h
  simp only [execTableLookup, Host.Outcome.next.injEq] at h
  subst h
  repeat' (first | with_reducible rfl
                    | (simp only [↓apply_ite State.still, ite_self, ↓State.breakTable_still, ↓State.pumpLookup_still, ↓State.askRows_still, ↓State.setWork_still, ↓State.newReq_still, ↓State.updFlight_still]; done)
                    | (intro _ _ _ h) | (intro _ _ h) | (rw [bind_ok] at h; rcases h with ⟨_, _, h⟩) | (rw [ok_ok] at h; subst h) | (split at h)
                    | with_reducible refine (State.withCrew_still _ _ _ _ _ _ ?_ _ h).trans ?_
                    | with_reducible refine (State.inStep_still _ _ _ _ ?_ _ h).trans ?_
                    | with_reducible refine (State.start_still _ _ _ _ _ ?_ ).trans ?_)

theorem State.sendUpdates_still : ∀ a0 a1 a2 a3 a4 a5 s, (@State.sendUpdates a0 a1 a2 a3 a4 a5 s).1.still = s.still := by
  intro a0 a1 a2 a3 a4 a5 s
  unfold State.sendUpdates
  repeat' (first | with_reducible rfl | (simp only [↓apply_ite State.still, ↓apply_ite Prod.fst, ite_self, ↓State.send_still]; done) | simp only []
                    | with_reducible refine (still_foldl1 _ _ (fun _ _ => ?_) _).trans ?_)
theorem State.sendUpdates_still_eq : ∀ a0 a1 a2 a3 a4 a5 s t x, @State.sendUpdates a0 a1 a2 a3 a4 a5 s = (t, x) → t.still = s.still := by
  intro a0 a1 a2 a3 a4 a5 s t x h
  have := State.sendUpdates_still a0 a1 a2 a3 a4 a5 s
  rwa [h] at this

theorem execTableUpdate_still : ∀ a0 a1 s, ∀ t, @execTableUpdate a0 a1 s = .next t → t.still = s.still := by
  intro a0 a1 s t h
  simp only [execTableUpdate, Host.Outcome.next.injEq] at h
  subst h
  repeat' (first | with_reducible rfl
                    | (simp only [↓apply_ite State.still, ite_self, ↓State.breakTable_still, ↓State.chargeTiles_still, ↓State.answer_still, ↓State.sendUpdates_still, ↓State.newReq_still, ↓State.updTable_still]; done)
                    | (intro _ _ _ h) | (intro _ _ h) | (rw [bind_ok] at h; rcases h with ⟨_, _, h⟩) | (rw [ok_ok] at h; subst h)
                    | with_reducible refine (State.withCrew_still _ _ _ _ _ _ ?_ _ h).trans ?_
                    | with_reducible refine (State.inStep_still _ _ _ _ ?_ _ h).trans ?_
                    | with_reducible refine (State.start_still _ _ _ _ _ ?_ ).trans ?_)

theorem execTableRebalance_still : ∀ a0 a1 s, ∀ t, @execTableRebalance a0 a1 s = .next t → t.still = s.still := by
  intro a0 a1 s t h
  simp only [execTableRebalance, Host.Outcome.next.injEq] at h
  subst h
  repeat' (first | with_reducible rfl
                    | (simp only [↓apply_ite State.still, ↓apply_ite Prod.fst, ↓apply_ite Prod.snd, ite_self, ↓State.answer_still, ↓State.draw_still, ↓State.updTable_still]; done)
                    | (intro _ _ _ h) | (rw [bind_ok] at h; rcases h with ⟨_, _, h⟩) | (rw [ok_ok] at h; subst h)
                    | simp only [↓apply_ite Prod.fst, ↓apply_ite Prod.snd] | with_reducible refine (State.start_still _ _ _ _ _ ?_ ).trans ?_)

theorem State.sendBlock_still : ∀ a0 a1 a2 s, (@State.sendBlock a0 a1 a2 s).still = s.still := by
  intro a0 a1 a2 s
  unfold State.sendBlock
  repeat' (first | (simp only [↓State.updTable_still, ↓State.post_still]; done))

theorem State.endClose_still : ∀ a0 s, (@State.endClose a0 s).still = s.still := by
  intro a0 s
  unfold State.endClose
  repeat' (first | with_reducible rfl
                    | (simp only [↓still_mk, ↓still_fold, ↓apply_ite State.still, ↓State.pumpTable_still, ↓State.sendBlock_still, ↓State.charge_still]; done)
                    | simp only [↓still_mk, ↓still_fold, ↓apply_ite State.still, ↓State.pumpTable_still]
                    | with_reducible refine (still_foldl _ _ (fun _ _ => ?_) _).trans ?_ | split)

theorem State.sendEnd_still : ∀ a0 s, (@State.sendEnd a0 s).still = s.still := by
  intro a0 s
  unfold State.sendEnd
  repeat' (first | with_reducible rfl | (simp only [↓State.updTable_still, ↓State.tablePost_still]; done) | simp only [↓State.updTable_still]
                    | with_reducible refine (still_foldl _ _ (fun _ _ => ?_) _).trans ?_)

theorem execTableStepClose_still : ∀ a0 s, ∀ t, @execTableStepClose a0 s = .next t → t.still = s.still := by
  intro a0 s t h
  simp only [execTableStepClose, Host.Outcome.next.injEq] at h
  subst h
  repeat' (first | with_reducible rfl
                    | (simp only [↓apply_ite State.still, ite_self, ↓State.sendEnd_still, ↓State.endClose_still, ↓State.settleDrop_still, ↓State.updTable_still]; done)
                    | simp only [↓apply_ite State.still] | split)

theorem execTableBlockMigrate_still : ∀ a0 s, ∀ t, @execTableBlockMigrate a0 s = .next t → t.still = s.still := by
  intro a0 s t h
  simp only [execTableBlockMigrate, Host.Outcome.next.injEq] at h
  subst h
  repeat' (first | with_reducible rfl
                    | (simp only [↓apply_ite State.still, ite_self, ↓State.sendEnd_still, ↓State.endClose_still, ↓State.settleDrop_still, ↓State.updTable_still]; done)
                    | simp only [↓apply_ite State.still] | split)

theorem execTablePrefetch_still : ∀ a0 a1 s, ∀ t, @execTablePrefetch a0 a1 s = .next t → t.still = s.still := by
  intro a0 a1 s t h
  simp only [execTablePrefetch, Host.Outcome.next.injEq] at h
  subst h
  repeat' (first | with_reducible rfl
                    | (simp only [↓still_mk, ↓still_fold, ↓apply_ite State.still, ite_self, ↓State.askRows_still, ↓State.newReq_still, ↓State.chargeTiles_still]; done)
                    | split)

theorem execTablePrefetchExpire_still : ∀ a0 a1 s, ∀ t, @execTablePrefetchExpire a0 a1 s = .next t → t.still = s.still := by
  intro a0 a1 s t h
  simp only [execTablePrefetchExpire, Host.Outcome.next.injEq] at h
  subst h
  repeat' (first | (simp only [↓State.dropPrefetched_still]; done))

theorem execTableDropTimeout_still : ∀ a0 s, ∀ t, @execTableDropTimeout a0 s = .next t → t.still = s.still := by
  intro a0 s t h
  simp only [execTableDropTimeout, Host.Outcome.next.injEq] at h
  subst h
  repeat' (first | with_reducible rfl | (simp only [↓apply_ite State.still, ite_self, ↓State.endDrop_still]; done) | split)

/-! ### NbuCommands -/

theorem execNbuMarkWrite_still : ∀ a0 a1 a2 a3 s, ∀ t, @execNbuMarkWrite a0 a1 a2 a3 s = .next t → t.still = s.still := by
  intro a0 a1 a2 a3 s t h
  simp only [execNbuMarkWrite, Host.Outcome.next.injEq] at h
  subst h
  repeat' (first | with_reducible rfl
                    | (simp only [↓apply_ite State.still, ite_self, ↓State.setColl_still, ↓State.countWrites_still, ↓State.charge_still]; done)
                    | split)

theorem State.poison_still : ∀ a0 s, (@State.poison a0 s).still = s.still := by
  intro a0 s
  unfold State.poison
  repeat' (first | (simp only [↓still_mk, ↓still_fold, ↓apply_ite State.still, ite_self]; done))

theorem State.poisonHit_still : ∀ a0 a1 s, (@State.poisonHit a0 a1 s).still = s.still := by
  intro a0 a1 s
  unfold State.poisonHit
  repeat' (first | with_reducible rfl
                    | (simp only [↓still_mk, ↓still_fold, ↓State.updGen_still, ↓State.updColl_still, ↓State.logIntegrity_still, ↓State.poison_still]; done)
                    | simp only [] | split)

theorem State.readerLoses_still : ∀ a0 a1 a2 a3 s, (@State.readerLoses a0 a1 a2 a3 s).still = s.still := by
  intro a0 a1 a2 a3 s
  unfold State.readerLoses
  repeat' (first | with_reducible rfl | (simp only [↓apply_ite State.still, ↓State.dataLost_still, ↓State.updNbu_still]; done)
                    | simp only [↓apply_ite State.still, ↓State.updNbu_still] | split)

theorem execGranuleUncorrectable_still : ∀ a0 a1 a2 a3 s, ∀ t, @execGranuleUncorrectable a0 a1 a2 a3 s = .next t → t.still = s.still := by
  intro a0 a1 a2 a3 s t h
  simp only [execGranuleUncorrectable, Host.Outcome.next.injEq] at h
  subst h
  repeat' (first | with_reducible rfl
                    | (simp only [↓apply_ite State.still, ↓State.readerLoses_still, ↓State.poisonHit_still, ↓State.updNbu_still]; done)
                    | simp only [↓apply_ite State.still] | split)

theorem State.move_still : ∀ a0 a1 s t, @State.move a0 a1 s = some t → t.still = s.still := by
  intro a0 a1 s t h
  obtain ⟨_, _, h⟩ := Option.bind_eq_some_iff.mp h
  obtain ⟨_, _, h⟩ := Option.bind_eq_some_iff.mp h
  obtain ⟨_, _, rfl⟩ := Option.map_eq_some_iff.mp h
  exact State.setColl_still ..
theorem still_moves (l : List (Nat × Nat)) : ∀ (a : Option State) (s t : State), (∀ u, a = some u → u.still = s.still) →
    l.foldl (fun a e => a.bind fun s => s.move e.1 e.2) a = some t → t.still = s.still := by
  induction l with
  | nil => intro a s t h e; exact h t e
  | cons x l ih =>
    intro a s t h e
    refine ih _ s t (fun u hu => ?_) e
    obtain ⟨v, hv, hu⟩ := Option.bind_eq_some_iff.mp hu
    exact (State.move_still _ _ _ _ hu).trans (h v hv)

theorem execExtentRebuildDone_still : ∀ a0 a1 a2 a3 s, ∀ t, @execExtentRebuildDone a0 a1 a2 a3 s = .next t → t.still = s.still := by
  intro a0 a1 a2 a3 s t h
  simp only [execExtentRebuildDone, Host.Outcome.next.injEq] at h
  subst h
  repeat' (first | with_reducible rfl
                    | simp only [↓still_mk, ↓still_fold, ↓apply_ite State.still, ↓State.resumeRebuild_still, ↓State.resumeSearches_still]
                    | with_reducible refine (State.move_still _ _ _ _ ‹_›).trans ?_ | split)

theorem execRunRetire_still : ∀ a0 a1 s, ∀ t, @execRunRetire a0 a1 s = .next t → t.still = s.still := by
  intro a0 a1 s t h
  simp only [execRunRetire, Host.Outcome.next.injEq] at h
  subst h
  split
  · generalize he : List.foldl _ _ _ = r
    cases r with
    | none => rfl
    | some t =>
      refine still_moves _ _ s t (fun u hu => ?_) he
      rw [Option.some.injEq] at hu; subst hu
      exact State.updNbu_still ..
  · rfl

theorem execPatrolScrub_still : ∀ a0 a1 a2 s, ∀ t, @execPatrolScrub a0 a1 a2 s = .next t → t.still = s.still := by
  intro a0 a1 a2 s t h
  simp only [execPatrolScrub, Host.Outcome.next.injEq] at h
  subst h
  repeat' (first | with_reducible rfl | (simp only [↓apply_ite State.still, ite_self, ↓State.updNbu_still]; done)
                    | simp only [↓apply_ite State.still, ite_self, ↓State.updNbu_still]
                    | with_reducible refine (still_foldl _ _ (fun _ _ => ?_) _).trans ?_ | split)

theorem execNbuFailed_still : ∀ a0 s, ∀ t, @execNbuFailed a0 s = .next t → t.still = s.still := by
  intro a0 s t h
  simp only [execNbuFailed, Host.Outcome.next.injEq] at h
  subst h
  repeat' (first | (simp only [↓apply_ite State.still, ite_self, ↓State.updNbu_still, ↓State.logUnit_still]; done))

theorem State.holdJobs_still : ∀ a0 s, (@State.holdJobs a0 s).still = s.still := by
  intro a0 s
  unfold State.holdJobs
  repeat' (first | with_reducible rfl | (simp only [↓State.setWork_still]; done) | with_reducible refine (still_foldl _ _ (fun _ _ => ?_) _).trans ?_
                    | split)

theorem State.takeOffline_still : ∀ a0 s, (@State.takeOffline a0 s).still = s.still := by
  intro a0 s
  unfold State.takeOffline
  repeat' (first | with_reducible rfl
                    | (simp only [↓still_mk, ↓still_fold, ↓State.poison_still, ↓State.updNbu_still, ↓State.logUnit_still]; done)
                    | simp only [↓still_mk, ↓still_fold]
                    | with_reducible refine (still_foldl _ _ (fun _ _ => ?_) _).trans ?_ | split)

theorem execPseudoChannelOffline_still : ∀ a0 s, ∀ t, @execPseudoChannelOffline a0 s = .next t → t.still = s.still := by
  intro a0 s t h
  simp only [execPseudoChannelOffline, Host.Outcome.next.injEq] at h
  subst h
  repeat' (first | with_reducible rfl
                    | (simp only [↓apply_ite State.still, ite_self, ↓State.holdJobs_still, ↓State.sendJobs_still, ↓State.takeOffline_still]; done))

theorem State.foundIn_still : ∀ a0 s, (@State.foundIn a0 s).still = s.still := by
  intro a0 s
  unfold State.foundIn
  repeat' (first | with_reducible rfl | (simp only [↓still_mk, ↓still_fold, ↓State.updNbu_still]; done) | simp only [↓still_mk, ↓still_fold]
                    | with_reducible refine (still_foldl _ _ (fun _ _ => ?_) _).trans ?_)

theorem execNbuDiagRead_still : ∀ a0 a1 s, ∀ t, @execNbuDiagRead a0 a1 s = .next t → t.still = s.still := by
  intro a0 a1 s t h
  simp only [execNbuDiagRead, Host.Outcome.next.injEq] at h
  subst h
  repeat' (first | with_reducible rfl | (simp only [↓State.updNbu_still, ↓State.draw_still, ↓State.foundIn_still, ↓State.answer_still]; done)
                    | (intro _ _ _ h) | (rw [bind_ok] at h; rcases h with ⟨_, _, h⟩) | (rw [pure_ok] at h; subst h) | (split at h)
                    | with_reducible refine (State.start_still _ _ _ _ _ ?_ ).trans ?_)

/-! ### Upkeep -/

theorem State.tellMap_still : ∀ a0 a1 s, (@State.tellMap a0 a1 s).still = s.still := by
  intro a0 a1 s
  unfold State.tellMap
  repeat' (first | (simp only [↓State.setColl_still, ↓State.post_still]; done) | with_reducible refine (still_foldl _ _ (fun _ _ => ?_) _).trans ?_)

theorem execRebalancePublish_still : ∀ a0 s, ∀ t, @execRebalancePublish a0 s = .next t → t.still = s.still := by
  intro a0 s t h
  simp only [execRebalancePublish, Host.Outcome.next.injEq] at h
  subst h
  repeat' (first | with_reducible rfl | (simp only [↓apply_ite State.still, ite_self, ↓State.tellMap_still, ↓State.setColl_still]; done) | split)

theorem execLegacyRedistributeDone_still : ∀ a0 a1 s, ∀ t, @execLegacyRedistributeDone a0 a1 s = .next t → t.still = s.still := by
  intro a0 a1 s t h
  simp only [execLegacyRedistributeDone, Host.Outcome.next.injEq] at h
  subst h
  repeat' (first | with_reducible rfl | (simp only [↓apply_ite State.still, ↓State.tellMap_still, ↓State.countWrites_still]; done)
                    | simp only [↓apply_ite State.still] | split)

theorem execMapRunRepair_still : ∀ a0 a1 a2 s, ∀ t, @execMapRunRepair a0 a1 a2 s = .next t → t.still = s.still := by
  intro a0 a1 a2 s t h
  simp only [execMapRunRepair, Host.Outcome.next.injEq] at h
  subst h
  repeat' (first | with_reducible rfl
                    | (simp only [↓apply_ite State.still, ite_self, ↓State.logIntegrity_still, ↓State.setColl_still, ↓State.resumeRebuild_still, ↓State.tellMap_still]; done)
                    | split)

theorem execCollectionRebuild_still : ∀ a0 s, ∀ t, @execCollectionRebuild a0 s = .next t → t.still = s.still := by
  intro a0 s t h
  simp only [execCollectionRebuild, Host.Outcome.next.injEq] at h
  subst h
  repeat' (first | with_reducible rfl | (simp only [↓apply_ite State.still, ite_self, ↓State.setColl_still]; done) | split)

theorem execCollectionRebuildDone_still : ∀ a0 s, ∀ t, @execCollectionRebuildDone a0 s = .next t → t.still = s.still := by
  intro a0 s t h
  simp only [execCollectionRebuildDone, Host.Outcome.next.injEq] at h
  subst h
  repeat' (first | with_reducible rfl | (simp only [↓apply_ite State.still, ↓State.setColl_still, ↓State.countWrites_still]; done)
                    | simp only [↓apply_ite State.still] | split)

theorem execForwardingRecordRelease_still : ∀ a0 a1 a2 s, ∀ t, @execForwardingRecordRelease a0 a1 a2 s = .next t → t.still = s.still := by
  intro a0 a1 a2 s t h
  simp only [execForwardingRecordRelease, Host.Outcome.next.injEq] at h
  subst h
  repeat' (first | with_reducible rfl | (simp only [↓apply_ite State.still, ite_self, ↓State.setColl_still, ↓State.draw_still]; done) | split)

end Sys2Proof.Machine
end

