-- ==== Sys2Proof/Laws/StillFabric.lean ====
section
/-!
SUPPORT. The queue, the clock, the power state, the governor and the pins stay as they are: the fabric, compositions, peers and tiers.
-/
namespace Sys2Proof.Machine

/-! ### Links -/

theorem State.replayFrom_still : ∀ a0 a1 s, (@State.replayFrom a0 a1 s).still = s.still := by
  intro a0 a1 s
  unfold State.replayFrom
  repeat' (first | (simp only [↓State.emit_still, ↓State.updVievo_still]; done) | simp only []
                    | with_reducible refine (still_foldl _ _ (fun _ _ => ?_) _).trans ?_)

theorem State.linkDown_still : ∀ a0 s, (@State.linkDown a0 s).still = s.still := by
  intro a0 s
  unfold State.linkDown
  repeat' (first | (simp only [↓State.updVievo_still]; done))

theorem State.sendLink_still : ∀ a0 a1 a2 a3 s, (@State.sendLink a0 a1 a2 a3 s).still = s.still := by
  intro a0 a1 a2 a3 s
  unfold State.sendLink
  repeat' (first | (simp only [↓still_mk, ↓still_fold, ↓apply_ite State.still, ite_self, ↓State.emit_still, ↓State.sendFrame_still]; done)
                    | simp only [] | with_reducible refine (still_foldl _ _ (fun _ _ => ?_) _).trans ?_)

theorem State.sendIdentity_still : ∀ a0 s, (@State.sendIdentity a0 s).still = s.still := by
  intro a0 s
  unfold State.sendIdentity
  repeat' (first | with_reducible rfl | (simp only [↓State.updVievo_still, ↓State.sendLink_still]; done) | simp only [↓State.updVievo_still]
                    | with_reducible refine (still_foldl _ _ (fun _ _ => ?_) _).trans ?_)

theorem State.beginDiscovery_still : ∀ a0 s, (@State.beginDiscovery a0 s).still = s.still := by
  intro a0 s
  unfold State.beginDiscovery
  repeat' (first | (simp only [↓State.sendIdentity_still, ↓State.updVievo_still]; done))

theorem State.holdPort_still : ∀ a0 a1 s, (@State.holdPort a0 a1 s).still = s.still := by
  intro a0 a1 s
  unfold State.holdPort
  repeat' (first | (simp only [↓State.updVievo_still]; done))

theorem execPortTraining_still : ∀ a0 a1 s, ∀ t, @execPortTraining a0 a1 s = .next t → t.still = s.still := by
  intro a0 a1 s t h
  simp only [execPortTraining, Host.Outcome.next.injEq] at h
  subst h
  repeat' (first | (simp only [↓apply_ite State.still, ite_self, ↓State.updVievo_still, ↓State.beginDiscovery_still, ↓State.linkDown_still]; done))

theorem execPortRetrainTimer_still : ∀ a0 s, ∀ t, @execPortRetrainTimer a0 s = .next t → t.still = s.still := by
  intro a0 s t h
  simp only [execPortRetrainTimer, Host.Outcome.next.injEq] at h
  subst h
  repeat' (first | (simp only [↓apply_ite State.still, ite_self, ↓State.updVievo_still]; done))

theorem execHeldRetryTimer_still : ∀ a0 s, ∀ t, @execHeldRetryTimer a0 s = .next t → t.still = s.still := by
  intro a0 s t h
  simp only [execHeldRetryTimer, Host.Outcome.next.injEq] at h
  subst h
  repeat' (first | (simp only [↓apply_ite State.still, ite_self, ↓State.beginDiscovery_still]; done))

theorem execHello_still : ∀ s, ∀ t, @execHello s = .next t → t.still = s.still := by
  intro s t h
  simp only [execHello, Host.Outcome.next.injEq] at h
  subst h
  repeat' (first | with_reducible rfl | (simp only [↓apply_ite State.still, ite_self, ↓State.updVievo_still]; done) | intro _
                    | with_reducible refine (State.wellFormed_still _ _ _ _ ?_ ).trans ?_
                    | with_reducible refine (State.takeMessage_still _ _ _ _ ‹_›).trans ?_ | split)

theorem State.sendKex_still : ∀ a0 s, (@State.sendKex a0 s).still = s.still := by
  intro a0 s
  unfold State.sendKex
  repeat' (first | with_reducible rfl | (simp only [↓State.updVievo_still, ↓State.sendLink_still, ↓State.draw_still]; done)
                    | simp only [↓State.updVievo_still, ↓State.sendLink_still] | split)

theorem execIdentity_still : ∀ a0 s, ∀ t, @execIdentity a0 s = .next t → t.still = s.still := by
  intro a0 s t h
  simp only [execIdentity, Host.Outcome.next.injEq] at h
  subst h
  repeat' (first | with_reducible rfl | (simp only [↓apply_ite State.still, ↓State.sendKex_still, ↓State.holdPort_still, ↓State.updVievo_still]; done)
                    | intro _ | simp only [↓apply_ite State.still, ↓State.holdPort_still, ↓State.updVievo_still]
                    | with_reducible refine (State.wellFormed_still _ _ _ _ ?_ ).trans ?_
                    | with_reducible refine (State.takeMessage_still _ _ _ _ ‹_›).trans ?_ | split)

theorem State.sendConfirm_still : ∀ a0 s, (@State.sendConfirm a0 s).still = s.still := by
  intro a0 s
  unfold State.sendConfirm
  repeat' (first | (simp only [↓State.sendLink_still]; done))

theorem execKex_still : ∀ s, ∀ t, @execKex s = .next t → t.still = s.still := by
  intro s t h
  simp only [execKex, Host.Outcome.next.injEq] at h
  subst h
  repeat' (first | with_reducible rfl
                    | (simp only [↓apply_ite State.still, ite_self, ↓State.updVievo_still, ↓State.sendConfirm_still, ↓State.sendKex_still]; done)
                    | intro _ | with_reducible refine (State.wellFormed_still _ _ _ _ ?_ ).trans ?_
                    | with_reducible refine (State.takeMessage_still _ _ _ _ ‹_›).trans ?_ | split)

theorem State.installKeys_still : ∀ a0 s, (@State.installKeys a0 s).still = s.still := by
  intro a0 s
  unfold State.installKeys
  repeat' (first | (simp only [↓apply_ite State.still, ite_self, ↓State.linkDown_still, ↓State.updVievo_still]; done) | simp only [] | split)

theorem execKexConfirm_still : ∀ a0 s, ∀ t, @execKexConfirm a0 s = .next t → t.still = s.still := by
  intro a0 s t h
  simp only [execKexConfirm, Host.Outcome.next.injEq] at h
  subst h
  repeat' (first | with_reducible rfl | (simp only [↓apply_ite State.still, ite_self, ↓State.holdPort_still, ↓State.installKeys_still]; done)
                    | intro _ | with_reducible refine (State.wellFormed_still _ _ _ _ ?_ ).trans ?_
                    | with_reducible refine (State.takeMessage_still _ _ _ _ ‹_›).trans ?_ | split)

theorem execLinkRekey_still : ∀ a0 s, ∀ t, @execLinkRekey a0 s = .next t → t.still = s.still := by
  intro a0 s t h
  simp only [execLinkRekey, Host.Outcome.next.injEq] at h
  subst h
  repeat' (first | (simp only [↓apply_ite State.still, ite_self, ↓State.sendKex_still]; done))

theorem State.countFec_still : ∀ a0 a1 s, (@State.countFec a0 a1 s).still = s.still := by
  intro a0 a1 s
  unfold State.countFec
  repeat' (first | with_reducible rfl | (simp only [↓State.updVievo_still]; done) | split)

theorem State.dropFrame_still : ∀ a0 s, (@State.dropFrame a0 s).still = s.still := by
  intro a0 s
  unfold State.dropFrame
  repeat' (first | (simp only [↓apply_ite State.still, ite_self, ↓State.updVievo_still, ↓State.sendFrame_still]; done))

theorem State.acceptFrame_still : ∀ a0 a1 s, (@State.acceptFrame a0 a1 s).still = s.still := by
  intro a0 a1 s
  unfold State.acceptFrame
  repeat' (first | (simp only [↓State.updVievo_still]; done))

theorem execLinkFrameReceive_still : ∀ a0 a1 a2 a3 s, ∀ t, @execLinkFrameReceive a0 a1 a2 a3 s = .next t → t.still = s.still := by
  intro a0 a1 a2 a3 s t h
  simp only [execLinkFrameReceive, Host.Outcome.next.injEq] at h
  subst h
  repeat' (first
                    | (simp only [↓apply_ite State.still, ite_self, ↓State.acceptFrame_still, ↓State.dropFrame_still, ↓State.updVievo_still, ↓State.countFec_still]; done))

theorem execRetryReq_still : ∀ a0 a1 a2 s, ∀ t, @execRetryReq a0 a1 a2 s = .next t → t.still = s.still := by
  intro a0 a1 a2 s t h
  simp only [execRetryReq, Host.Outcome.next.injEq] at h
  subst h
  repeat' (first
                    | (simp only [↓apply_ite State.still, ite_self, ↓State.acceptFrame_still, ↓State.replayFrom_still, ↓State.dropFrame_still, ↓State.countFec_still]; done))

theorem execLinkAckTimeout_still : ∀ a0 s, ∀ t, @execLinkAckTimeout a0 s = .next t → t.still = s.still := by
  intro a0 s t h
  simp only [execLinkAckTimeout, Host.Outcome.next.injEq] at h
  subst h
  repeat' (first | (simp only [↓apply_ite State.still, ite_self, ↓State.linkDown_still]; done))

theorem execPortMarginal_still : ∀ a0 s, ∀ t, @execPortMarginal a0 s = .next t → t.still = s.still := by
  intro a0 s t h
  simp only [execPortMarginal, Host.Outcome.next.injEq] at h
  subst h
  repeat' (first | (simp only [↓apply_ite State.still, ite_self, ↓State.updVievo_still, ↓State.logUnit_still]; done))

theorem execPortLaneLoss_still : ∀ a0 s, ∀ t, @execPortLaneLoss a0 s = .next t → t.still = s.still := by
  intro a0 s t h
  simp only [execPortLaneLoss, Host.Outcome.next.injEq] at h
  subst h
  repeat' (first | (simp only [↓apply_ite State.still, ite_self, ↓State.linkDown_still]; done))

theorem State.resendKeys_still : ∀ a0 s, (@State.resendKeys a0 s).still = s.still := by
  intro a0 s
  unfold State.resendKeys
  repeat' (first | (simp only [↓apply_ite State.still, ite_self, ↓State.sendConfirm_still, ↓State.sendKex_still]; done))

theorem execDiscoveryMessageRetry_still : ∀ a0 s, ∀ t, @execDiscoveryMessageRetry a0 s = .next t → t.still = s.still := by
  intro a0 s t h
  simp only [execDiscoveryMessageRetry, Host.Outcome.next.injEq] at h
  subst h
  repeat' (first | with_reducible rfl | (simp only [↓apply_ite State.still, ite_self, ↓State.resendKeys_still, ↓State.sendIdentity_still]; done)
                    | simp only [↓apply_ite State.still] | split)

/-! ### Packets -/

theorem State.unreachable_still : ∀ a0 a1 s, (@State.unreachable a0 a1 s).still = s.still := by
  intro a0 a1 s
  unfold State.unreachable
  repeat' (first | (simp only [↓still_mk, ↓still_fold, ↓apply_ite State.still, ite_self, ↓State.post_still]; done))

theorem State.countDrop_still : ∀ s, (@State.countDrop s).still = s.still := by
  intro s
  unfold State.countDrop
  repeat' (first | (simp only [↓still_mk, ↓still_fold]; done))

theorem State.releaseHeld_still : ∀ s, (@State.releaseHeld s).still = s.still := by
  intro s
  unfold State.releaseHeld
  repeat' (first | (simp only [↓still_mk, ↓still_fold, ↓State.countDrop_still, ↓State.unreachable_still, ↓State.enqueue_still]; done) | simp only []
                    | with_reducible refine (still_foldl _ _ (fun _ _ => ?_) _).trans ?_ | split)

theorem execPacketAged_still : ∀ a0 a1 s, ∀ t, @execPacketAged a0 a1 s = .next t → t.still = s.still := by
  intro a0 a1 s t h
  simp only [execPacketAged, Host.Outcome.next.injEq] at h
  subst h
  repeat' (first | with_reducible rfl
                    | (simp only [↓apply_ite State.still, ite_self, ↓State.countDrop_still, ↓State.unreachable_still, ↓State.releaseHeld_still, ↓State.updVievo_still]; done)
                    | split)

theorem State.countLost_still : ∀ s, (@State.countLost s).still = s.still := by
  intro s
  unfold State.countLost
  repeat' (first | (simp only [↓still_mk, ↓still_fold]; done))

theorem State.takePacket_still : ∀ a0 s, ∀ t, @State.takePacket a0 s = some t → t.2.still = s.still := by
  intro a0 s t h
  unfold State.takePacket at h
  repeat' (first | (simp only [↓State.updVievo_still]; done) | (rw [none_ok] at h; exact h.elim) | (rw [Option.some.injEq] at h; subst h)
                    | (split at h))

theorem execPacketForward_still : ∀ a0 s, ∀ t, @execPacketForward a0 s = .next t → t.still = s.still := by
  intro a0 s t h
  simp only [execPacketForward, Host.Outcome.next.injEq] at h
  subst h
  repeat' (first | with_reducible rfl
                    | simp only [↓apply_ite State.still, ↓State.enqueue_still, ↓State.emit_still, ↓State.unreachable_still, ↓State.countDrop_still]
                    | with_reducible refine (State.takePacket_still _ _ _ ‹_›).trans ?_ | split)

theorem execEgressTurn_still : ∀ a0 s, ∀ t, @execEgressTurn a0 s = .next t → t.still = s.still := by
  intro a0 s t h
  simp only [execEgressTurn, Host.Outcome.next.injEq] at h
  subst h
  repeat' (first | (simp only [↓apply_ite State.still, ite_self, ↓State.updVievo_still, ↓State.emitFrames_still, ↓State.releaseHeld_still]; done))

theorem State.dropAssembly_still : ∀ a0 a1 s, (@State.dropAssembly a0 a1 s).still = s.still := by
  intro a0 a1 s
  unfold State.dropAssembly
  repeat' (first | (simp only [↓still_mk, ↓still_fold]; done))

theorem execReassemblyTimeout_still : ∀ a0 a1 s, ∀ t, @execReassemblyTimeout a0 a1 s = .next t → t.still = s.still := by
  intro a0 a1 s t h
  simp only [execReassemblyTimeout, Host.Outcome.next.injEq] at h
  subst h
  repeat' (first | with_reducible rfl | (simp only [↓apply_ite State.still, ite_self, ↓State.dropAssembly_still, ↓State.countLost_still]; done)
                    | split)

theorem State.deliverMessage_still : ∀ a0 a1 s, (@State.deliverMessage a0 a1 s).still = s.still := by
  intro a0 a1 s
  unfold State.deliverMessage
  repeat' (first | (simp only [↓still_mk, ↓still_fold]; done))

theorem State.assemble_still : ∀ a0 a1 s, (@State.assemble a0 a1 s).still = s.still := by
  intro a0 a1 s
  unfold State.assemble
  repeat' (first | with_reducible rfl
                    | (simp only [↓still_mk, ↓still_fold, ↓apply_ite State.still, ite_self, ↓State.unreachable_still, ↓State.deliverMessage_still, ↓State.countLost_still, ↓State.dropAssembly_still]; done)
                    | simp only [↓still_mk, ↓still_fold, ↓apply_ite State.still, ite_self, ↓State.unreachable_still, ↓State.deliverMessage_still, ↓State.countLost_still, ↓State.dropAssembly_still]
                    | split)

theorem execMessageReceive_still : ∀ a0 s, ∀ t, @execMessageReceive a0 s = .next t → t.still = s.still := by
  intro a0 s t h
  simp only [execMessageReceive, Host.Outcome.next.injEq] at h
  subst h
  repeat' (first | with_reducible rfl
                    | simp only [↓apply_ite State.still, ite_self, ↓State.assemble_still, ↓State.countDrop_still, ↓State.partnerViolation_still, ↓State.countLost_still, ↓State.logKind_still, ↓State.dropAssembly_still]
                    | with_reducible refine (State.takePacket_still _ _ _ ‹_›).trans ?_ | split)

theorem execProtocolViolationHold_still : ∀ a0 s, ∀ t, @execProtocolViolationHold a0 s = .next t → t.still = s.still := by
  intro a0 s t h
  simp only [execProtocolViolationHold, Host.Outcome.next.injEq] at h
  subst h
  repeat' (first | (simp only [↓apply_ite State.still, ite_self, ↓State.holdPort_still, ↓State.updVievo_still]; done))

/-! ### FabricCommands -/

theorem execFabricStatus_still : ∀ a0 a1 s, ∀ t, @execFabricStatus a0 a1 s = .next t → t.still = s.still := by
  intro a0 a1 s t h
  simp only [execFabricStatus, Host.Outcome.next.injEq] at h
  subst h
  repeat' (first | with_reducible rfl | (simp only [↓State.answer_still]; done) | (intro _ _ _ h) | (rw [bind_ok] at h; rcases h with ⟨_, _, h⟩)
                    | (rw [ok_ok] at h; subst h) | (split at h) | with_reducible refine (State.start_still _ _ _ _ _ ?_ ).trans ?_)

theorem execRouteLoad_still : ∀ a0 a1 s, ∀ t, @execRouteLoad a0 a1 s = .next t → t.still = s.still := by
  intro a0 a1 s t h
  simp only [execRouteLoad, Host.Outcome.next.injEq] at h
  subst h
  refine State.start_still _ _ _ _ _ ?_
  intro f s t h
  rw [bind_ok] at h; rcases h with ⟨_, _, h⟩
  rw [bind_ok] at h; rcases h with ⟨_, _, h⟩
  split at h
  · cases h
  · rw [bind_ok] at h; rcases h with ⟨_, _, h⟩
    rw [bind_ok] at h; rcases h with ⟨_, _, h⟩
    rw [ok_ok] at h; subst h
    exact (State.setWork_still ..)

theorem State.rejudge_still : ∀ a0 s, (@State.rejudge a0 s).still = s.still := by
  intro a0 s
  unfold State.rejudge
  repeat' (first | with_reducible rfl | (simp only [↓State.holdPort_still, ↓State.beginDiscovery_still]; done) | split)

theorem execRouteActivate_still : ∀ s, ∀ t, @execRouteActivate s = .next t → t.still = s.still := by
  intro s t h
  simp only [execRouteActivate, Host.Outcome.next.injEq] at h
  subst h
  repeat' (first | with_reducible rfl | (simp only [↓still_mk, ↓still_fold, ↓apply_ite State.still, ↓State.answer_still, ↓State.rejudge_still]; done)
                    | simp only [↓apply_ite State.still, ↓State.answer_still] | with_reducible refine (still_foldl _ _ (fun _ _ => ?_) _).trans ?_
                    | split)

theorem State.gateSettled_still : ∀ a0 a1 s a3, (@State.gateSettled a0 a1 s a3).still = s.still := by
  intro a0 a1 s a3
  unfold State.gateSettled
  repeat' (first | with_reducible rfl | (simp only [↓still_mk, ↓still_fold, ↓apply_ite State.still, ↓State.answer_still]; done)
                    | simp only [↓apply_ite State.still] | split)

theorem execGateListLoad_still : ∀ a0 a1 s, ∀ t, @execGateListLoad a0 a1 s = .next t → t.still = s.still := by
  intro a0 a1 s t h
  simp only [execGateListLoad, Host.Outcome.next.injEq] at h
  subst h
  repeat' (first | with_reducible rfl
                    | (simp only [↓apply_ite State.still, ite_self, ↓State.gateSettled_still, ↓State.setWork_still, ↓State.updVievo_still]; done)
                    | (intro _ _ _ h) | (rw [bind_ok] at h; rcases h with ⟨_, _, h⟩) | (rw [ok_ok] at h; subst h) | simp only [↓State.setWork_still]
                    | with_reducible refine (still_foldl _ _ (fun _ _ => ?_) _).trans ?_
                    | with_reducible refine (State.start_still _ _ _ _ _ ?_ ).trans ?_)

theorem execGateListActivate_still : ∀ a0 s, ∀ t, @execGateListActivate a0 s = .next t → t.still = s.still := by
  intro a0 s t h
  simp only [execGateListActivate, Host.Outcome.next.injEq] at h
  subst h
  repeat' (first | with_reducible rfl | (simp only [↓apply_ite State.still, ite_self, ↓State.updVievo_still, ↓State.gateSettled_still]; done) | split)

theorem State.endLogInterval_still : ∀ s, (@State.endLogInterval s).still = s.still := by
  intro s
  unfold State.endLogInterval
  repeat' (first | with_reducible rfl | (simp only [↓still_mk, ↓still_fold, ↓apply_ite State.still, ite_self, ↓State.logAppend_still]; done)
                    | simp only [↓still_mk, ↓still_fold] | with_reducible refine (still_foldl _ _ (fun _ _ => ?_) _).trans ?_)

theorem execTime_still : ∀ a0 s, ∀ t, @execTime a0 s = .next t → t.still = s.still := by
  intro a0 s t h
  simp only [execTime, Host.Outcome.next.injEq] at h
  subst h
  repeat' (first | with_reducible rfl | simp only [↓still_mk, ↓still_fold, ↓apply_ite State.still, ite_self]
                    | with_reducible refine (State.takeMessage_still _ _ _ _ ‹_›).trans ?_ | split)

theorem execTimeHoldover_still : ∀ s, ∀ t, @execTimeHoldover s = .next t → t.still = s.still := by
  intro s t h
  simp only [execTimeHoldover, Host.Outcome.next.injEq] at h
  subst h
  repeat' (first | (simp only [↓still_mk, ↓still_fold]; done))

/-! ### Stop -/

theorem State.endMerge_still : ∀ a0 a1 s, (@State.endMerge a0 a1 s).still = s.still := by
  intro a0 a1 s
  unfold State.endMerge
  repeat' (first | with_reducible rfl
                    | (simp only [↓State.squashReads_still, ↓State.endFlight_still, ↓State.cancelShards_still, ↓State.dropServed_still]; done)
                    | simp only [] | split)

theorem State.giveUp_still : ∀ a0 s, (@State.giveUp a0 s).still = s.still := by
  intro a0 s
  unfold State.giveUp
  repeat' (first | with_reducible rfl | (simp only [↓apply_ite State.still, ite_self, ↓State.endMerge_still, ↓State.squashReads_still]; done)
                    | simp only [] | with_reducible refine (still_foldl _ _ (fun _ _ => ?_) _).trans ?_)

theorem State.stopGates_still : ∀ a0 s, (@State.stopGates a0 s).still = s.still := by
  intro a0 s
  unfold State.stopGates
  repeat' (first | (simp only [↓still_mk, ↓still_fold]; done))

set_option maxRecDepth 4000 in
theorem State.stopChange_still : ∀ a0 s, (@State.stopChange a0 s).still = s.still := by
  intro a0 s
  unfold State.stopChange
  repeat' (first | with_reducible rfl
                    | (simp only [↓still_mk, ↓still_fold, ↓State.stopGates_still, ↓State.freeCreated_still, ↓State.updLoad_still, ↓State.updColl_still]; done)
                    | simp only [] | with_reducible refine (still_foldl _ _ (fun _ _ => ?_) _).trans ?_ | split)

theorem State.endCommand_still : ∀ a0 a1 s, (@State.endCommand a0 a1 s).still = s.still := by
  intro a0 a1 s
  unfold State.endCommand
  repeat' (first | with_reducible rfl
                    | (simp only [↓apply_ite State.still, ↓State.answer_still, ↓State.genStop_still, ↓State.abortStreams_still, ↓State.answerDetail_still, ↓State.giveUp_still, ↓State.stopChange_still]; done)
                    | simp only [↓apply_ite State.still, ↓State.abortStreams_still, ↓State.answerDetail_still, ↓State.giveUp_still, ↓State.stopChange_still]
                    | split)

theorem execStopCommand_still : ∀ a0 a1 s, ∀ t, @execStopCommand a0 a1 s = .next t → t.still = s.still := by
  intro a0 a1 s t h
  simp only [execStopCommand, Host.Outcome.next.injEq] at h
  subst h
  repeat' (first | with_reducible rfl | (simp only [↓apply_ite State.still, ite_self, ↓State.endCommand_still, ↓State.setWork_still]; done)
                    | (intro _ _ _ h) | (rw [bind_ok] at h; rcases h with ⟨_, _, h⟩) | (rw [ok_ok] at h; subst h) | (split at h)
                    | with_reducible refine (State.start_still _ _ _ _ _ ?_ ).trans ?_)

theorem State.logLateLists_still : ∀ a0 s, (@State.logLateLists a0 s).still = s.still := by
  intro a0 s
  unfold State.logLateLists
  repeat' (first | with_reducible rfl | (simp only [↓apply_ite State.still, ite_self, ↓State.logKind_still]; done) | simp only []
                    | with_reducible refine (still_foldl _ _ (fun _ _ => ?_) _).trans ?_ | split)

theorem State.lateLists_still : ∀ a0 s, (@State.lateLists a0 s).still = s.still := by
  intro a0 s
  unfold State.lateLists
  repeat' (first | (simp only [↓State.logLateLists_still, ↓State.shardMissing_still]; done)
                    | with_reducible refine (still_foldl _ _ (fun _ _ => ?_) _).trans ?_)

theorem execCommandDeadlineExpire_still : ∀ a0 a1 s, ∀ t, @execCommandDeadlineExpire a0 a1 s = .next t → t.still = s.still := by
  intro a0 a1 s t h
  simp only [execCommandDeadlineExpire, Host.Outcome.next.injEq] at h
  subst h
  repeat' (first | with_reducible rfl
                    | (simp only [↓apply_ite State.still, ite_self, ↓State.lateLists_still, ↓State.endCommand_still, ↓State.logLateLists_still]; done)
                    | simp only [↓apply_ite State.still, ite_self, ↓State.lateLists_still] | split)

/-! ### Compositions -/

theorem State.compPost_still : ∀ a0 a1 a2 a3 a4 a5 s, (@State.compPost a0 a1 a2 a3 a4 a5 s).still = s.still := by
  intro a0 a1 a2 a3 a4 a5 s
  unfold State.compPost
  repeat' (first | (simp only [↓State.post_still]; done))

theorem State.updComp_still : ∀ a0 a1 s, (@State.updComp a0 a1 s).still = s.still := by
  intro a0 a1 s
  unfold State.updComp
  repeat' (first | (simp only [↓still_mk, ↓still_fold]; done))

theorem execSelfFence_still : ∀ a0 s, ∀ t, @execSelfFence a0 s = .next t → t.still = s.still := by
  intro a0 s t h
  simp only [execSelfFence, Host.Outcome.next.injEq] at h
  subst h
  repeat' (first | with_reducible rfl
                    | (simp only [↓apply_ite State.still, ite_self, ↓State.updComp_still, ↓State.logKind_still, ↓State.compPost_still]; done) | split)

theorem State.tableLoses_still : ∀ a0 s a2, (@State.tableLoses a0 s a2).still = s.still := by
  intro a0 s a2
  unfold State.tableLoses
  repeat' (first
                    | (simp only [↓apply_ite State.still, ite_self, ↓State.updTable_still, ↓State.settleDrop_still, ↓State.breakTable_still, ↓State.endCreate_still]; done))

theorem State.abandonServed_still : ∀ a0 s, (@State.abandonServed a0 s).still = s.still := by
  intro a0 s
  unfold State.abandonServed
  repeat' (first | (simp only [↓State.dropServed_still, ↓State.giveUp_still, ↓State.endFlight_still, ↓State.cancelShards_still]; done)
                    | simp only [↓State.dropServed_still] | split)

theorem State.loseReplicas_still : ∀ a0 a1 s, (@State.loseReplicas a0 a1 s).still = s.still := by
  intro a0 a1 s
  unfold State.loseReplicas
  repeat' (first | (simp only [↓still_mk, ↓still_fold]; done))

theorem State.endMembership_still : ∀ a0 s, (@State.endMembership a0 s).still = s.still := by
  intro a0 s
  unfold State.endMembership
  repeat' (first | with_reducible rfl
                    | (simp only [↓still_mk, ↓still_fold, ↓State.endDrop_still, ↓State.loseReplicas_still, ↓State.abandonServed_still, ↓State.endCommand_still, ↓State.tableLoses_still]; done)
                    | simp only [↓still_mk, ↓still_fold, ↓State.loseReplicas_still]
                    | with_reducible refine (still_foldl _ _ (fun _ _ => ?_) _).trans ?_ | split)

theorem State.left_still : ∀ a0 s, (@State.left a0 s).still = s.still := by
  intro a0 s
  unfold State.left
  repeat' (first | (simp only [↓State.answer_still, ↓State.endMembership_still]; done) | simp only [] | split)

theorem State.compAll_still : ∀ a0 a1 a2 a3 a4 s, (@State.compAll a0 a1 a2 a3 a4 s).still = s.still := by
  intro a0 a1 a2 a3 a4 s
  unfold State.compAll
  repeat' (first | with_reducible rfl | (simp only [↓State.compPost_still]; done)
                    | with_reducible refine (still_foldl _ _ (fun _ _ => ?_) _).trans ?_)

theorem State.settleLeave_still : ∀ a0 s, (@State.settleLeave a0 s).still = s.still := by
  intro a0 s
  unfold State.settleLeave
  repeat' (first | with_reducible rfl
                    | (simp only [↓apply_ite State.still, ite_self, ↓State.updComp_still, ↓State.compPost_still, ↓State.compAll_still, ↓State.left_still]; done)
                    | simp only [] | split)

theorem State.beginLeave_still : ∀ a0 a1 s, (@State.beginLeave a0 a1 s).still = s.still := by
  intro a0 a1 s
  unfold State.beginLeave
  repeat' (first | (simp only [↓still_mk, ↓still_fold, ↓State.updComp_still]; done))

theorem State.tellFence_still : ∀ a0 a1 s, (@State.tellFence a0 a1 s).still = s.still := by
  intro a0 a1 s
  unfold State.tellFence
  repeat' (first | with_reducible rfl | (simp only [↓State.compPost_still]; done)
                    | with_reducible refine (still_foldl _ _ (fun _ _ => ?_) _).trans ?_)

theorem State.nodeLeaves_still : ∀ a0 a1 s, (@State.nodeLeaves a0 a1 s).still = s.still := by
  intro a0 a1 s
  unfold State.nodeLeaves
  repeat' (first | with_reducible rfl | (simp only [↓apply_ite State.still, ite_self, ↓State.shardGone_still]; done) | simp only []
                    | with_reducible refine (still_foldl _ _ (fun _ _ => ?_) _).trans ?_)

theorem State.mergeLoses_still : ∀ a0 a1 s a3, (@State.mergeLoses a0 a1 s a3).still = s.still := by
  intro a0 a1 s a3
  unfold State.mergeLoses
  repeat' (first | with_reducible rfl
                    | (simp only [↓apply_ite State.still, ite_self, ↓State.abandonServed_still, ↓State.nodeLeaves_still, ↓State.endCommand_still]; done)
                    | simp only [↓apply_ite State.still, ↓State.nodeLeaves_still] | split)

theorem State.ownerLost_still : ∀ a0 s, (@State.ownerLost a0 s).still = s.still := by
  intro a0 s
  unfold State.ownerLost
  repeat' (first | with_reducible rfl | (simp only [↓State.readLost_still]; done) | with_reducible refine (still_foldl _ _ (fun _ _ => ?_) _).trans ?_
                    | split)

theorem State.memberGone_still : ∀ a0 a1 s, (@State.memberGone a0 a1 s).still = s.still := by
  intro a0 a1 s
  unfold State.memberGone
  repeat' (first | with_reducible rfl
                    | (simp only [↓State.updComp_still, ↓State.loseReplicas_still, ↓State.ownerLost_still, ↓State.tableLoses_still, ↓State.mergeLoses_still]; done)
                    | simp only [↓State.updComp_still, ↓State.loseReplicas_still, ↓State.ownerLost_still]
                    | with_reducible refine (still_foldl _ _ (fun _ _ => ?_) _).trans ?_ | split)

theorem State.declareLost_still : ∀ a0 a1 s, (@State.declareLost a0 a1 s).still = s.still := by
  intro a0 a1 s
  unfold State.declareLost
  repeat' (first | with_reducible rfl
                    | (simp only [↓still_mk, ↓still_fold, ↓apply_ite State.still, ite_self, ↓State.memberGone_still, ↓State.compAll_still, ↓State.logKind_still]; done)
                    | simp only [] | split)

theorem State.treatLost_still : ∀ a0 s, (@State.treatLost a0 s).still = s.still := by
  intro a0 s
  unfold State.treatLost
  repeat' (first | with_reducible rfl
                    | (simp only [↓apply_ite State.still, ite_self, ↓State.updComp_still, ↓State.memberGone_still, ↓State.declareLost_still]; done)
                    | with_reducible refine (still_foldl _ _ (fun _ _ => ?_) _).trans ?_)

theorem State.idlePorts_still : ∀ a0 s, (@State.idlePorts a0 s).still = s.still := by
  intro a0 s
  unfold State.idlePorts
  repeat' (first | with_reducible rfl | (simp only [↓State.linkDown_still, ↓State.updVievo_still]; done)
                    | with_reducible refine (still_foldl _ _ (fun _ _ => ?_) _).trans ?_)

theorem execFenceSet_still : ∀ a0 a1 s, ∀ t, @execFenceSet a0 a1 s = .next t → t.still = s.still := by
  intro a0 a1 s t h
  simp only [execFenceSet, Host.Outcome.next.injEq] at h
  subst h
  repeat' (first | with_reducible rfl
                    | (simp only [↓still_mk, ↓still_fold, ↓apply_ite State.still, ite_self, ↓State.answer_still, ↓State.idlePorts_still, ↓State.treatLost_still, ↓State.tellFence_still, ↓State.logKind_still]; done)
                    | (intro _ _ _ h) | (rw [bind_ok] at h; rcases h with ⟨_, _, h⟩) | (rw [ok_ok] at h; subst h)
                    | with_reducible refine (State.start_still _ _ _ _ _ ?_ ).trans ?_)

theorem State.activate_still : ∀ a0 s, (@State.activate a0 s).still = s.still := by
  intro a0 s
  unfold State.activate
  repeat' (first | with_reducible rfl | (simp only [↓State.answer_still, ↓State.updComp_still]; done) | simp only []
                    | with_reducible refine (still_foldl _ _ (fun _ _ => ?_) _).trans ?_ | split)

theorem State.tryActivate_still : ∀ a0 s, (@State.tryActivate a0 s).still = s.still := by
  intro a0 s
  unfold State.tryActivate
  repeat' (first | with_reducible rfl | (simp only [↓apply_ite State.still, ite_self, ↓State.compAll_still, ↓State.activate_still]; done) | split)

theorem execCompositionJoin_still : ∀ a0 a1 a2 s, ∀ t, @execCompositionJoin a0 a1 a2 s = .next t → t.still = s.still := by
  intro a0 a1 a2 s t h
  simp only [execCompositionJoin, Host.Outcome.next.injEq] at h
  subst h
  repeat' (first | with_reducible rfl
                    | (simp only [↓still_mk, ↓still_fold, ↓apply_ite State.still, ite_self, ↓State.compPost_still, ↓State.tryActivate_still, ↓State.setWork_still, ↓State.endMembership_still]; done)
                    | (intro _ _ _ h) | (rw [err_ok] at h; exact h.elim) | (rw [bind_ok] at h; rcases h with ⟨_, _, h⟩) | (rw [ok_ok] at h; subst h)
                    | (split at h) | with_reducible refine (State.start_still _ _ _ _ _ ?_ ).trans ?_)

theorem execCompositionJoinTimeout_still : ∀ a0 a1 s, ∀ t, @execCompositionJoinTimeout a0 a1 s = .next t → t.still = s.still := by
  intro a0 a1 s t h
  simp only [execCompositionJoinTimeout, Host.Outcome.next.injEq] at h
  subst h
  repeat' (first | with_reducible rfl | (simp only [↓State.updComp_still, ↓State.answer_still]; done) | split)

theorem execCompositionLeave_still : ∀ a0 a1 s, ∀ t, @execCompositionLeave a0 a1 s = .next t → t.still = s.still := by
  intro a0 a1 s t h
  simp only [execCompositionLeave, Host.Outcome.next.injEq] at h
  subst h
  repeat' (first | with_reducible rfl
                    | (simp only [↓apply_ite State.still, ↓State.beginLeave_still, ↓State.setWork_still, ↓State.settleLeave_still]; done)
                    | (intro _ _ _ h) | (rw [err_ok] at h; exact h.elim) | (rw [bind_ok] at h; rcases h with ⟨_, _, h⟩) | (rw [ok_ok] at h; subst h)
                    | (split at h) | simp only [↓apply_ite State.still, ↓State.settleLeave_still]
                    | with_reducible refine (State.start_still _ _ _ _ _ ?_ ).trans ?_ | split)

theorem State.takeCollective_still : ∀ a0 s, ∀ t, @State.takeCollective a0 s = some t → t.2.still = s.still := by
  intro a0 s t h
  unfold State.takeCollective at h
  repeat' (first | (simp only [↓still_mk, ↓still_fold]; done) | (rw [none_ok] at h; exact h.elim) | (rw [Option.some.injEq] at h; subst h)
                    | (dsimp only at h) | (split at h))

theorem execCollDown_still : ∀ s, ∀ t, @execCollDown s = .next t → t.still = s.still := by
  intro s t h
  simp only [execCollDown, Host.Outcome.next.injEq] at h
  subst h
  repeat' (first | with_reducible rfl
                    | (simp only [↓apply_ite State.still, ↓State.updComp_still, ↓State.admitSubquery_still, ↓State.post_still, ↓State.partnerViolation_still]; done)
                    | intro _ | simp only [↓apply_ite State.still, ↓State.admitSubquery_still, ↓State.partnerViolation_still]
                    | with_reducible refine (still_foldl _ _ (fun _ _ => ?_) _).trans ?_
                    | with_reducible refine (State.wellFormed_still _ _ _ _ ?_ ).trans ?_
                    | with_reducible refine (State.takeCollective_still _ _ _ ‹_›).trans ?_ | split)

theorem State.settleBarrier_still : ∀ a0 a1 a2 a3 s, (@State.settleBarrier a0 a1 a2 a3 s).still = s.still := by
  intro a0 a1 a2 a3 s
  unfold State.settleBarrier
  repeat' (first | with_reducible rfl | (simp only [↓apply_ite State.still, ↓State.post_still, ↓State.updComp_still]; done)
                    | simp only [↓apply_ite State.still, ↓State.post_still, ↓State.updComp_still]
                    | with_reducible refine (still_foldl _ _ (fun _ _ => ?_) _).trans ?_ | split)

theorem execCollUp_still : ∀ s, ∀ t, @execCollUp s = .next t → t.still = s.still := by
  intro s t h
  simp only [execCollUp, Host.Outcome.next.injEq] at h
  subst h
  repeat' (first | with_reducible rfl
                    | (simp only [↓still_mk, ↓still_fold, ↓apply_ite State.still, ite_self, ↓State.settleBarrier_still, ↓State.updComp_still, ↓State.partnerViolation_still]; done)
                    | intro _ | simp only [↓apply_ite State.still, ↓State.partnerViolation_still]
                    | with_reducible refine (State.wellFormed_still _ _ _ _ ?_ ).trans ?_
                    | with_reducible refine (State.takeCollective_still _ _ _ ‹_›).trans ?_ | split)

theorem execHeartbeatTick_still : ∀ a0 s, ∀ t, @execHeartbeatTick a0 s = .next t → t.still = s.still := by
  intro a0 s t h
  simp only [execHeartbeatTick, Host.Outcome.next.injEq] at h
  subst h
  repeat' (first | with_reducible rfl | (simp only [↓apply_ite State.still, ↓State.updComp_still, ↓State.compPost_still, ↓State.post_still]; done)
                    | simp only [↓apply_ite State.still, ↓State.post_still] | with_reducible refine (still_foldl _ _ (fun _ _ => ?_) _).trans ?_
                    | split)

theorem execMemberLost_still : ∀ a0 a1 s, ∀ t, @execMemberLost a0 a1 s = .next t → t.still = s.still := by
  intro a0 a1 s t h
  simp only [execMemberLost, Host.Outcome.next.injEq] at h
  subst h
  repeat' (first | with_reducible rfl | (simp only [↓apply_ite State.still, ite_self, ↓State.declareLost_still]; done) | split)

theorem execProbeTimeout_still : ∀ a0 a1 s, ∀ t, @execProbeTimeout a0 a1 s = .next t → t.still = s.still := by
  intro a0 a1 s t h
  simp only [execProbeTimeout, Host.Outcome.next.injEq] at h
  subst h
  repeat' (first | with_reducible rfl | (simp only [↓apply_ite State.still, ite_self, ↓State.declareLost_still]; done) | split)

theorem execCoordinatorTakeover_still : ∀ a0 s, ∀ t, @execCoordinatorTakeover a0 s = .next t → t.still = s.still := by
  intro a0 s t h
  simp only [execCoordinatorTakeover, Host.Outcome.next.injEq] at h
  subst h
  repeat' (first | with_reducible rfl
                    | (simp only [↓apply_ite State.still, ite_self, ↓State.compPost_still, ↓State.declareLost_still, ↓State.compAll_still, ↓State.updComp_still]; done)
                    | simp only [↓apply_ite State.still, ite_self, ↓State.declareLost_still, ↓State.compAll_still, ↓State.updComp_still]
                    | with_reducible refine (still_foldl _ _ (fun _ _ => ?_) _).trans ?_ | split)

theorem State.fenceHere_still : ∀ a0 s, (@State.fenceHere a0 s).still = s.still := by
  intro a0 s
  unfold State.fenceHere
  repeat' (first | (simp only [↓still_mk, ↓still_fold, ↓apply_ite State.still, ite_self, ↓State.treatLost_still, ↓State.logKind_still]; done))

theorem State.hearMember_still : ∀ a0 a1 s, (@State.hearMember a0 a1 s).still = s.still := by
  intro a0 a1 s
  unfold State.hearMember
  repeat' (first | (simp only [↓State.updComp_still]; done))

theorem State.lostHere_still : ∀ a0 a1 a2 s, (@State.lostHere a0 a1 a2 s).still = s.still := by
  intro a0 a1 a2 s
  unfold State.lostHere
  repeat' (first | with_reducible rfl | (simp only [↓apply_ite State.still, ↓State.memberGone_still, ↓State.updComp_still, ↓State.left_still]; done)
                    | simp only [↓apply_ite State.still, ↓State.left_still] | with_reducible refine (still_foldl _ _ (fun _ _ => ?_) _).trans ?_
                    | split)

theorem State.declareLeft_still : ∀ a0 a1 s, (@State.declareLeft a0 a1 s).still = s.still := by
  intro a0 a1 s
  unfold State.declareLeft
  repeat' (first | (simp only [↓State.compPost_still, ↓State.declareLost_still]; done) | simp only [] | split)

theorem execComposition_still : ∀ s, ∀ t, @execComposition s = .next t → t.still = s.still := by
  intro s t h
  simp only [execComposition, Host.Outcome.next.injEq] at h
  subst h
  repeat' (first | with_reducible rfl
                    | (simp only [↓still_mk, ↓still_fold, ↓apply_ite State.still, ite_self, ↓State.declareLeft_still, ↓State.lostHere_still, ↓State.activate_still, ↓State.updComp_still, ↓State.tryActivate_still, ↓State.compPost_still, ↓State.hearMember_still, ↓State.partnerViolation_still, ↓State.fenceHere_still]; done)
                    | intro _ | simp only [↓apply_ite State.still, ↓State.partnerViolation_still, ↓State.fenceHere_still]
                    | with_reducible refine (State.wellFormed_still _ _ _ _ ?_ ).trans ?_
                    | with_reducible refine (State.takeMessage_still _ _ _ _ ‹_›).trans ?_ | split)

theorem execSuspectMember_still : ∀ a0 a1 a2 s, ∀ t, @execSuspectMember a0 a1 a2 s = .next t → t.still = s.still := by
  intro a0 a1 a2 s t h
  simp only [execSuspectMember, Host.Outcome.next.injEq] at h
  subst h
  repeat' (first | with_reducible rfl
                    | (simp only [↓apply_ite State.still, ite_self, ↓State.updComp_still, ↓State.logKind_still, ↓State.emit_still]; done) | split)

/-! ### Peers -/

theorem execReplicaPromote_still : ∀ a0 a1 a2 a3 s, ∀ t, @execReplicaPromote a0 a1 a2 a3 s = .next t → t.still = s.still := by
  intro a0 a1 a2 a3 s t h
  simp only [execReplicaPromote, Host.Outcome.next.injEq] at h
  subst h
  repeat' (first | with_reducible rfl | (simp only [↓still_mk, ↓still_fold, ↓apply_ite State.still, ↓State.post_still, ↓State.updComp_still]; done)
                    | simp only [↓apply_ite State.still, ↓State.updComp_still] | with_reducible refine (still_foldl _ _ (fun _ _ => ?_) _).trans ?_
                    | split)

theorem State.settlePeers_still : ∀ s, (@State.settlePeers s).still = s.still := by
  intro s
  unfold State.settlePeers
  repeat' (first | with_reducible rfl | (simp only [↓still_mk, ↓still_fold, ↓apply_ite State.still, ite_self]; done) | simp only [] | split)

theorem execPartitionSet_still : ∀ a0 a1 a2 s, ∀ t, @execPartitionSet a0 a1 a2 s = .next t → t.still = s.still := by
  intro a0 a1 a2 s t h
  simp only [execPartitionSet, Host.Outcome.next.injEq] at h
  subst h
  repeat' (first | with_reducible rfl
                    | (simp only [↓still_mk, ↓still_fold, ↓State.settlePeers_still, ↓State.answer_still, ↓State.shipRecord_still]; done)
                    | (intro _ _ _ h) | (rw [bind_ok] at h; rcases h with ⟨_, _, h⟩) | (rw [ok_ok] at h; subst h)
                    | simp only [↓State.settlePeers_still, ↓State.answer_still] | with_reducible refine (still_foldl _ _ (fun _ _ => ?_) _).trans ?_
                    | with_reducible refine (State.start_still _ _ _ _ _ ?_ ).trans ?_)

theorem execReplicaSet_still : ∀ a0 a1 a2 s, ∀ t, @execReplicaSet a0 a1 a2 s = .next t → t.still = s.still := by
  intro a0 a1 a2 s t h
  simp only [execReplicaSet, Host.Outcome.next.injEq] at h
  subst h
  repeat' (first | with_reducible rfl | (simp only [↓State.answer_still, ↓State.setColl_still, ↓State.copyTo_still, ↓State.pumpReplica_still]; done)
                    | (intro _ _ _ h) | (rw [err_ok] at h; exact h.elim) | (rw [bind_ok] at h; rcases h with ⟨_, _, h⟩) | (rw [ok_ok] at h; subst h)
                    | (split at h) | simp only [↓State.answer_still] | with_reducible refine (still_foldl _ _ (fun _ _ => ?_) _).trans ?_
                    | with_reducible refine (State.start_still _ _ _ _ _ ?_ ).trans ?_)

theorem execLogRecord_still : ∀ s, ∀ t, @execLogRecord s = .next t → t.still = s.still := by
  intro s t h
  simp only [execLogRecord, Host.Outcome.next.injEq] at h
  subst h
  repeat' (first | with_reducible rfl | (simp only [↓still_mk, ↓still_fold, ↓apply_ite State.still, ite_self, ↓State.post_still]; done) | intro _
                    | simp only [↓apply_ite State.still] | with_reducible refine (State.wellFormed_still _ _ _ _ ?_ ).trans ?_
                    | with_reducible refine (State.takeMessage_still _ _ _ _ ‹_›).trans ?_ | split)

theorem execLogConfirm_still : ∀ s, ∀ t, @execLogConfirm s = .next t → t.still = s.still := by
  intro s t h
  simp only [execLogConfirm, Host.Outcome.next.injEq] at h
  subst h
  repeat' (first | with_reducible rfl
                    | (simp only [↓still_mk, ↓still_fold, ↓apply_ite State.still, ite_self, ↓State.updColl_still, ↓State.settlePeers_still]; done)
                    | intro _ | simp only [↓apply_ite State.still] | with_reducible refine (State.wellFormed_still _ _ _ _ ?_ ).trans ?_
                    | with_reducible refine (State.takeMessage_still _ _ _ _ ‹_›).trans ?_ | split)

theorem execLogRecordResend_still : ∀ a0 a1 a2 s, ∀ t, @execLogRecordResend a0 a1 a2 s = .next t → t.still = s.still := by
  intro a0 a1 a2 s t h
  simp only [execLogRecordResend, Host.Outcome.next.injEq] at h
  subst h
  repeat' (first | with_reducible rfl | (simp only [↓apply_ite State.still, ite_self, ↓State.updColl_still, ↓State.shipRecord_still]; done) | split)

theorem execLogRelease_still : ∀ s, ∀ t, @execLogRelease s = .next t → t.still = s.still := by
  intro s t h
  simp only [execLogRelease, Host.Outcome.next.injEq] at h
  subst h
  repeat' (first | with_reducible rfl | (simp only [↓still_mk, ↓still_fold, ↓apply_ite State.still]; done) | intro _
                    | simp only [↓apply_ite State.still] | with_reducible refine (State.wellFormed_still _ _ _ _ ?_ ).trans ?_
                    | with_reducible refine (State.takeMessage_still _ _ _ _ ‹_›).trans ?_ | split)

theorem execLogFetch_still : ∀ s, ∀ t, @execLogFetch s = .next t → t.still = s.still := by
  intro s t h
  simp only [execLogFetch, Host.Outcome.next.injEq] at h
  subst h
  repeat' (first | with_reducible rfl | (simp only [↓apply_ite State.still, ↓State.post_still]; done) | intro _
                    | simp only [↓apply_ite State.still, ↓State.post_still] | with_reducible refine (still_foldl _ _ (fun _ _ => ?_) _).trans ?_
                    | with_reducible refine (State.wellFormed_still _ _ _ _ ?_ ).trans ?_
                    | with_reducible refine (State.takeMessage_still _ _ _ _ ‹_›).trans ?_ | split)

theorem State.applyFetched_still : ∀ a0 a1 a2 a3 s, (@State.applyFetched a0 a1 a2 a3 s).still = s.still := by
  intro a0 a1 a2 a3
  induction a3 with
  | zero => intro s; rfl
  | succ n ih =>
  intro s
  unfold State.applyFetched
  repeat' (first | with_reducible rfl | simp only [] | exact ih _ | split)

theorem execFetchData_still : ∀ s, ∀ t, @execFetchData s = .next t → t.still = s.still := by
  intro s t h
  simp only [execFetchData, Host.Outcome.next.injEq] at h
  subst h
  repeat' (first | with_reducible rfl | (simp only [↓still_mk, ↓still_fold, ↓apply_ite State.still, ite_self, ↓State.applyFetched_still]; done)
                    | intro _ | simp only [↓apply_ite State.still] | with_reducible refine (State.wellFormed_still _ _ _ _ ?_ ).trans ?_
                    | with_reducible refine (State.takeMessage_still _ _ _ _ ‹_›).trans ?_ | split)

theorem State.ackReplica_still : ∀ a0 a1 a2 s, (@State.ackReplica a0 a1 a2 s).still = s.still := by
  intro a0 a1 a2 s
  unfold State.ackReplica
  repeat' (first | (simp only [↓State.post_still]; done))

theorem execReplicaOp_still : ∀ a0 s, ∀ t, @execReplicaOp a0 s = .next t → t.still = s.still := by
  intro a0 s t h
  simp only [execReplicaOp, Host.Outcome.next.injEq] at h
  subst h
  repeat' (first | with_reducible rfl
                    | (simp only [↓apply_ite State.still, ite_self, ↓State.logIntegrity_still, ↓State.countWrites_still, ↓State.setColl_still, ↓State.ackReplica_still, ↓State.partnerViolation_still, ↓State.updColl_still]; done)
                    | intro _ | simp only [↓apply_ite State.still, ↓State.setColl_still, ↓State.ackReplica_still, ↓State.updColl_still]
                    | with_reducible refine (State.wellFormed_still _ _ _ _ ?_ ).trans ?_
                    | with_reducible refine (State.takeMessage_still _ _ _ _ ‹_›).trans ?_ | split)

theorem execReplicaFallsBehind_still : ∀ a0 a1 s, ∀ t, @execReplicaFallsBehind a0 a1 s = .next t → t.still = s.still := by
  intro a0 a1 s t h
  simp only [execReplicaFallsBehind, Host.Outcome.next.injEq] at h
  subst h
  repeat' (first | with_reducible rfl | (simp only [↓State.setColl_still]; done) | split)

/-! ### TableMessages -/

theorem State.tableCreateHere_still : ∀ a0 s, (@State.tableCreateHere a0 s).still = s.still := by
  intro a0 s
  unfold State.tableCreateHere
  repeat' (first | with_reducible rfl | (simp only [↓apply_ite State.still, ↓State.tablePost_still, ↓State.partnerViolation_still]; done) | intro _
                    | simp only [↓apply_ite State.still, ↓State.tablePost_still] | with_reducible refine (State.wellFormed_still _ _ _ _ ?_ ).trans ?_
                    | with_reducible refine (State.reserveTable_still _ _ _ _ _ ‹_›).trans ?_ | split)

theorem State.withTable_still : ∀ a0 a1 s, (∀ x0 x1, (a1 x0 x1).still = x1.still) → (@State.withTable a0 a1 s).still = s.still := by
  intro a0 a1 s h0
  unfold State.withTable
  repeat' (first | with_reducible rfl | (simp only [↓apply_ite State.still, ↓State.partnerViolation_still]; done)
                    | simp only [↓apply_ite State.still, ↓State.partnerViolation_still] | with_reducible exact h0 .. | split)

theorem State.tableCreateAck_still : ∀ a0 a1 s, (@State.tableCreateAck a0 a1 s).still = s.still := by
  intro a0 a1 s
  unfold State.tableCreateAck
  repeat' (first | with_reducible rfl
                    | (simp only [↓apply_ite State.still, ite_self, ↓State.updTable_still, ↓State.endCreate_still, ↓State.draw_still]; done)
                    | simp only [] | split)

theorem State.tableUpdateHere_still : ∀ a0 a1 s, (@State.tableUpdateHere a0 a1 s).still = s.still := by
  intro a0 a1 s
  unfold State.tableUpdateHere
  repeat' (first | with_reducible rfl | (simp only [↓apply_ite State.still, ite_self, ↓State.updTable_still]; done) | intro _ | simp only []
                    | with_reducible refine (State.wellFormed_still _ _ _ _ ?_ ).trans ?_)

theorem State.tableLookupHere_still : ∀ a0 a1 s, (@State.tableLookupHere a0 a1 s).still = s.still := by
  intro a0 a1 s
  unfold State.tableLookupHere
  repeat' (first | with_reducible rfl | (simp only [↓still_mk, ↓still_fold, ↓State.pumpRequest_still]; done) | intro _ | simp only []
                    | with_reducible refine (State.wellFormed_still _ _ _ _ ?_ ).trans ?_)

theorem State.tableRowsHere_still : ∀ a0 a1 s, (@State.tableRowsHere a0 a1 s).still = s.still := by
  intro a0 a1 s
  unfold State.tableRowsHere
  repeat' (first | with_reducible rfl
                    | (simp only [↓still_mk, ↓still_fold, ↓apply_ite State.still, ite_self, ↓State.setWork_still, ↓State.pumpLookup_still, ↓State.abortStreams_still, ↓State.answer_still]; done)
                    | intro _ | simp only [] | with_reducible refine (State.wellFormed_still _ _ _ _ ?_ ).trans ?_ | split)

theorem State.tableEndHere_still : ∀ a0 a1 s, (@State.tableEndHere a0 a1 s).still = s.still := by
  intro a0 a1 s
  unfold State.tableEndHere
  repeat' (first | with_reducible rfl | (simp only [↓State.endClose_still, ↓State.settleDrop_still, ↓State.updTable_still]; done) | intro _
                    | simp only [] | with_reducible refine (State.wellFormed_still _ _ _ _ ?_ ).trans ?_)

theorem execTableOp_still : ∀ s, ∀ t, @execTableOp s = .next t → t.still = s.still := by
  intro s t h
  simp only [execTableOp, Host.Outcome.next.injEq] at h
  subst h
  repeat' (first | with_reducible rfl
                    | (simp only [↓apply_ite State.still, ↓State.updTable_still, ↓State.settleDrop_still, ↓State.tableEndHere_still, ↓State.tableRowsHere_still, ↓State.tableLookupHere_still, ↓State.tableUpdateHere_still, ↓State.tableCreateAck_still, ↓State.tableCreateHere_still]; done)
                    | (intro _ h) | intro _ | simp only [↓apply_ite State.still] | with_reducible refine (State.withTable_still _ _ _ ?_ ).trans ?_
                    | with_reducible refine (State.wellFormed_still _ _ _ _ ?_ ).trans ?_
                    | with_reducible refine (State.takeMessage_still _ _ _ _ ‹_›).trans ?_ | split)

theorem execTableBlock_still : ∀ s, ∀ t, @execTableBlock s = .next t → t.still = s.still := by
  intro s t h
  simp only [execTableBlock, Host.Outcome.next.injEq] at h
  subst h
  repeat' (first | with_reducible rfl
                    | (simp only [↓apply_ite State.still, ↓State.pumpTable_still, ↓State.updTable_still, ↓State.partnerViolation_still]; done)
                    | intro _ | simp only [↓apply_ite State.still, ↓State.partnerViolation_still]
                    | with_reducible refine (State.wellFormed_still _ _ _ _ ?_ ).trans ?_
                    | with_reducible refine (State.takeMessage_still _ _ _ _ ‹_›).trans ?_ | split)

/-! ### TierCommands -/

theorem execHostRegionGrant_still : ∀ a0 a1 s, ∀ t, @execHostRegionGrant a0 a1 s = .next t → t.still = s.still := by
  intro a0 a1 s t h
  simp only [execHostRegionGrant, Host.Outcome.next.injEq] at h
  subst h
  repeat' (first | with_reducible rfl | (simp only [↓still_mk, ↓still_fold, ↓State.answer_still]; done) | (intro _ _ _ h)
                    | (rw [bind_ok] at h; rcases h with ⟨_, _, h⟩) | (rw [ok_ok] at h; subst h)
                    | with_reducible refine (State.start_still _ _ _ _ _ ?_ ).trans ?_)

theorem execHostRegionRevoke_still : ∀ a0 a1 s, ∀ t, @execHostRegionRevoke a0 a1 s = .next t → t.still = s.still := by
  intro a0 a1 s t h
  simp only [execHostRegionRevoke, Host.Outcome.next.injEq] at h
  subst h
  repeat' (first | with_reducible rfl | (simp only [↓still_mk, ↓still_fold, ↓State.setWork_still, ↓State.settleRevoke_still]; done) | (intro _ _ _ h)
                    | (rw [err_ok] at h; exact h.elim) | (rw [bind_ok] at h; rcases h with ⟨_, _, h⟩) | (rw [ok_ok] at h; subst h) | (split at h)
                    | with_reducible refine (State.start_still _ _ _ _ _ ?_ ).trans ?_)

theorem execHostCacheFill_still : ∀ a0 a1 a2 a3 s, ∀ t, @execHostCacheFill a0 a1 a2 a3 s = .next t → t.still = s.still := by
  intro a0 a1 a2 a3 s t h
  simp only [execHostCacheFill, Host.Outcome.next.injEq] at h
  subst h
  repeat' (first | with_reducible rfl | (simp only [↓still_mk, ↓still_fold, ↓State.writeHostPage_still]; done) | split)

theorem execSharedPublish_still : ∀ a0 a1 s, ∀ t, @execSharedPublish a0 a1 s = .next t → t.still = s.still := by
  intro a0 a1 s t h
  simp only [execSharedPublish, Host.Outcome.next.injEq] at h
  subst h
  repeat' (first | with_reducible rfl | (simp only [↓still_mk, ↓still_fold, ↓apply_ite State.still, ite_self, ↓State.charge_still]; done) | split)

theorem execLeaseRenew_still : ∀ a0 s, ∀ t, @execLeaseRenew a0 s = .next t → t.still = s.still := by
  intro a0 s t h
  simp only [execLeaseRenew, Host.Outcome.next.injEq] at h
  subst h
  repeat' (first | (simp only [↓still_mk, ↓still_fold, ↓apply_ite State.still, ite_self, ↓State.post_still]; done))

theorem State.reclaimObjects_still : ∀ s, (@State.reclaimObjects s).still = s.still := by
  intro s
  unfold State.reclaimObjects
  repeat' (first | (simp only [↓still_mk, ↓still_fold]; done))

theorem execLeaseExpire_still : ∀ a0 s, ∀ t, @execLeaseExpire a0 s = .next t → t.still = s.still := by
  intro a0 s t h
  simp only [execLeaseExpire, Host.Outcome.next.injEq] at h
  subst h
  repeat' (first | (simp only [↓still_mk, ↓still_fold, ↓State.reclaimObjects_still]; done))

theorem execSharedRead_still : ∀ s, ∀ t, @execSharedRead s = .next t → t.still = s.still := by
  intro s t h
  simp only [execSharedRead, Host.Outcome.next.injEq] at h
  subst h
  repeat' (first | with_reducible rfl | (simp only [↓apply_ite State.still, ite_self, ↓State.post_still]; done) | intro _
                    | with_reducible refine (State.wellFormed_still _ _ _ _ ?_ ).trans ?_
                    | with_reducible refine (State.takeMessage_still _ _ _ _ ‹_›).trans ?_ | split)

theorem execLease_still : ∀ s, ∀ t, @execLease s = .next t → t.still = s.still := by
  intro s t h
  simp only [execLease, Host.Outcome.next.injEq] at h
  subst h
  repeat' (first | with_reducible rfl | (simp only [↓still_mk, ↓still_fold, ↓apply_ite State.still, ite_self, ↓State.post_still]; done) | intro _
                    | with_reducible refine (State.wellFormed_still _ _ _ _ ?_ ).trans ?_
                    | with_reducible refine (State.takeMessage_still _ _ _ _ ‹_›).trans ?_ | split)

/-! ### FabricLosses -/

theorem State.subqueryUnreached_still : ∀ a0 a1 s, (@State.subqueryUnreached a0 a1 s).still = s.still := by
  intro a0 a1 s
  unfold State.subqueryUnreached
  repeat' (first | with_reducible rfl | (simp only [↓State.shardGone_still]; done) | split)

theorem State.hedgeUnreached_still : ∀ a0 a1 s, (@State.hedgeUnreached a0 a1 s).still = s.still := by
  intro a0 a1 s
  unfold State.hedgeUnreached
  repeat' (first | with_reducible rfl | (simp only [↓State.readLost_still, ↓State.putReads_still]; done) | (intro _ h) | simp only []
                    | with_reducible refine (State.again_still _ _ _ ?_ ).trans ?_ | split)

theorem State.replicaUnreached_still : ∀ a0 a1 s, (@State.replicaUnreached a0 a1 s).still = s.still := by
  intro a0 a1 s
  unfold State.replicaUnreached
  repeat' (first | with_reducible rfl | (simp only [↓apply_ite State.still, ↓State.setColl_still, ↓State.pumpReplica_still, ↓State.post_still]; done)
                    | simp only [↓apply_ite State.still, ↓State.post_still] | with_reducible refine (still_foldl _ _ (fun _ _ => ?_) _).trans ?_
                    | split)

theorem State.tableUnreached_still : ∀ a0 a1 s, (@State.tableUnreached a0 a1 s).still = s.still := by
  intro a0 a1 s
  unfold State.tableUnreached
  repeat' (first | with_reducible rfl
                    | (simp only [↓apply_ite State.still, ite_self, ↓State.breakTable_still, ↓State.updTable_still, ↓State.settleDrop_still, ↓State.endCreate_still]; done)
                    | simp only [] | split)

theorem State.sharedLost_still : ∀ a0 a1 s, (@State.sharedLost a0 a1 s).still = s.still := by
  intro a0 a1 s
  unfold State.sharedLost
  repeat' (first | (simp only [↓still_mk, ↓still_fold, ↓State.readLost_still]; done) | simp only [] | split)

theorem State.notDelivered_still : ∀ a0 a1 a2 s, (@State.notDelivered a0 a1 a2 s).still = s.still := by
  intro a0 a1 a2 s
  unfold State.notDelivered
  repeat' (first | with_reducible rfl
                    | (simp only [↓still_mk, ↓still_fold, ↓apply_ite State.still, ite_self, ↓State.sharedLost_still, ↓State.post_still, ↓State.tableUnreached_still, ↓State.replicaUnreached_still, ↓State.hedgeUnreached_still, ↓State.subqueryUnreached_still]; done)
                    | simp only [↓still_mk, ↓still_fold, ↓apply_ite State.still, ite_self, ↓State.post_still, ↓State.tableUnreached_still, ↓State.replicaUnreached_still, ↓State.hedgeUnreached_still, ↓State.subqueryUnreached_still]
                    | split)

theorem execUnreachable_still : ∀ s, ∀ t, @execUnreachable s = .next t → t.still = s.still := by
  intro s t h
  simp only [execUnreachable, Host.Outcome.next.injEq] at h
  subst h
  repeat' (first | with_reducible rfl | (simp only [↓still_mk, ↓still_fold, ↓apply_ite State.still, ↓State.notDelivered_still]; done) | intro _
                    | simp only [↓apply_ite State.still] | with_reducible refine (State.wellFormed_still _ _ _ _ ?_ ).trans ?_
                    | with_reducible refine (State.takeMessage_still _ _ _ _ ‹_›).trans ?_ | split)

theorem execSharedData_still : ∀ a0 s, ∀ t, @execSharedData a0 s = .next t → t.still = s.still := by
  intro a0 s t h
  simp only [execSharedData, Host.Outcome.next.injEq] at h
  subst h
  repeat' (first | with_reducible rfl
                    | (simp only [↓still_mk, ↓still_fold, ↓apply_ite State.still, ↓State.logReadOf_still, ↓State.readArrived_still, ↓State.sharedLost_still]; done)
                    | intro _ | simp only [↓still_mk, ↓still_fold, ↓apply_ite State.still, ↓State.readArrived_still, ↓State.sharedLost_still]
                    | with_reducible refine (State.wellFormed_still _ _ _ _ ?_ ).trans ?_
                    | with_reducible refine (State.takeMessage_still _ _ _ _ ‹_›).trans ?_ | split)

end Sys2Proof.Machine
end

