-- ==== Sys2Proof/Laws/StillModule.lean ====
section
/-!
SUPPORT. The queue, the clock, the power state, the governor and the pins stay as they are: flash media, keys, tenants and what the power rows share.
-/
namespace Sys2Proof.Machine

/-! ### FlashMedia -/

theorem State.noteLatency_still : ∀ a0 a1 s, (@State.noteLatency a0 a1 s).still = s.still := by
  intro a0 a1 s
  unfold State.noteLatency
  repeat' (first | (simp only [↓still_mk, ↓still_fold]; done))

theorem State.endRead_still : ∀ a0 a1 a2 a3 a4 s, (@State.endRead a0 a1 a2 a3 a4 s).still = s.still := by
  intro a0 a1 a2 a3 a4 s
  unfold State.endRead
  repeat' (first | (simp only [↓apply_ite State.still, ite_self, ↓State.logReadOf_still, ↓State.readLost_still, ↓State.readArrived_still]; done)
                    | split)

theorem execFlashReadComplete_still : ∀ a0 a1 a2 a3 a4 a5 s, ∀ t, @execFlashReadComplete a0 a1 a2 a3 a4 a5 s = .next t → t.still = s.still := by
  intro a0 a1 a2 a3 a4 a5 s t h
  simp only [execFlashReadComplete, Host.Outcome.next.injEq] at h
  subst h
  repeat' (first | with_reducible rfl
                    | (simp only [↓apply_ite State.still, ↓State.dropLeft_still, ↓State.leftFails_still, ↓State.readEffects_still, ↓State.endRead_still, ↓State.noteLatency_still, ↓State.putReads_still, ↓State.touchPage_still, ↓State.updQuad_still]; done)
                    | (intro _ h)
                    | simp only [↓apply_ite State.still, ↓State.dropLeft_still, ↓State.readEffects_still, ↓State.noteLatency_still, ↓State.putReads_still, ↓State.updQuad_still]
                    | with_reducible refine (State.again_still _ _ _ ?_ ).trans ?_ | split)

theorem State.answerEntries_still : ∀ a0 a1 a2 s, (@State.answerEntries a0 a1 a2 s).still = s.still := by
  intro a0 a1 a2 s
  unfold State.answerEntries
  repeat' (first | (simp only [↓State.answer_still]; done))

theorem execMediaStatus_still : ∀ a0 a1 s, ∀ t, @execMediaStatus a0 a1 s = .next t → t.still = s.still := by
  intro a0 a1 s t h
  simp only [execMediaStatus, Host.Outcome.next.injEq] at h
  subst h
  repeat' (first | with_reducible rfl | (simp only [↓still_mk, ↓still_fold, ↓State.answerEntries_still]; done) | (intro _ _ _ h)
                    | (rw [bind_ok] at h; rcases h with ⟨_, _, h⟩) | (rw [ok_ok] at h; subst h) | (split at h)
                    | with_reducible refine (State.start_still _ _ _ _ _ ?_ ).trans ?_)

theorem State.placeUnit_still : ∀ a0 a1 a2 a3 a4 a5 s, (@State.placeUnit a0 a1 a2 a3 a4 a5 s).still = s.still := by
  intro a0 a1 a2 a3 a4 a5 s
  unfold State.placeUnit
  repeat' (first | (simp only [↓still_mk, ↓still_fold, ↓State.mapUnit_still, ↓State.programUnit_still]; done)
                    | simp only [↓still_mk, ↓still_fold, ↓State.mapUnit_still] | split)

theorem State.placeParity_still : ∀ a0 a1 a2 a3 s, (@State.placeParity a0 a1 a2 a3 s).still = s.still := by
  intro a0 a1 a2 a3 s
  unfold State.placeParity
  repeat' (first | (simp only [↓apply_ite State.still, ite_self, ↓State.programUnit_still]; done))

theorem State.programLog_still : ∀ a0 s, (@State.programLog a0 s).still = s.still := by
  intro a0 s
  unfold State.programLog
  repeat' (first | with_reducible rfl | (simp only [↓still_mk, ↓still_fold, ↓State.updColl_still]; done) | simp only [↓still_mk, ↓still_fold]
                    | with_reducible refine (still_foldl1 _ _ (fun _ _ => ?_) _).trans ?_)

theorem execFlashProgramComplete_still : ∀ a0 a1 a2 a3 a4 s, ∀ t, @execFlashProgramComplete a0 a1 a2 a3 a4 s = .next t → t.still = s.still := by
  intro a0 a1 a2 a3 a4 s t h
  simp only [execFlashProgramComplete, Host.Outcome.next.injEq] at h
  subst h
  repeat' (first | with_reducible rfl
                    | (simp only [↓still_mk, ↓still_fold, ↓apply_ite State.still, ite_self, ↓State.charge_still, ↓State.programLog_still, ↓State.closeBand_still, ↓State.placeParity_still, ↓State.placeUnit_still]; done)
                    | simp only [↓still_mk, ↓still_fold, ↓apply_ite State.still, ite_self, ↓State.charge_still, ↓State.programLog_still, ↓State.closeBand_still, ↓State.placeParity_still]
                    | with_reducible refine (still_foldl _ _ (fun _ _ => ?_) _).trans ?_
                    | with_reducible refine (State.needBand_still _ _ _ _ ‹_›).trans ?_ | split)

theorem execProgramFail_still : ∀ a0 a1 a2 a3 s, ∀ t, @execProgramFail a0 a1 a2 a3 s = .next t → t.still = s.still := by
  intro a0 a1 a2 a3 s t h
  simp only [execProgramFail, Host.Outcome.next.injEq] at h
  subst h
  repeat' (first | with_reducible rfl
                    | (simp only [↓apply_ite State.still, ite_self, ↓State.retireQuad_still, ↓State.updQuad_still, ↓State.closeBand_still, ↓State.media_still]; done)
                    | split)

theorem execEraseFail_still : ∀ a0 s, ∀ t, @execEraseFail a0 s = .next t → t.still = s.still := by
  intro a0 s t h
  simp only [execEraseFail, Host.Outcome.next.injEq] at h
  subst h
  repeat' (first | (simp only [↓apply_ite State.still, ite_self, ↓State.media_still, ↓State.retireQuad_still]; done))

theorem execQuadBlockErase_still : ∀ a0 s, ∀ t, @execQuadBlockErase a0 s = .next t → t.still = s.still := by
  intro a0 s t h
  simp only [execQuadBlockErase, Host.Outcome.next.injEq] at h
  subst h
  repeat' (first | with_reducible rfl
                    | (simp only [↓still_mk, ↓still_fold, ↓apply_ite State.still, ite_self, ↓State.logKind_still, ↓State.emit_still, ↓State.updQuad_still]; done)
                    | split)

theorem execJournalSectorProgram_still : ∀ a0 s, ∀ t, @execJournalSectorProgram a0 s = .next t → t.still = s.still := by
  intro a0 s t h
  simp only [execJournalSectorProgram, Host.Outcome.next.injEq] at h
  subst h
  repeat' (first | (simp only [↓apply_ite State.still, ite_self, ↓State.programJournal_still]; done))

theorem execCheckpointStart_still : ∀ s, ∀ t, @execCheckpointStart s = .next t → t.still = s.still := by
  intro s t h
  simp only [execCheckpointStart, Host.Outcome.next.injEq] at h
  subst h
  repeat' (first | (simp only [↓still_mk, ↓still_fold, ↓apply_ite State.still, ite_self]; done))

theorem execCheckpointComplete_still : ∀ s, ∀ t, @execCheckpointComplete s = .next t → t.still = s.still := by
  intro s t h
  simp only [execCheckpointComplete, Host.Outcome.next.injEq] at h
  subst h
  repeat' (first | with_reducible rfl | (simp only [↓still_mk, ↓still_fold, ↓State.journalAll_still]; done) | split)

theorem State.writeMapPage_still : ∀ a0 s, (@State.writeMapPage a0 s).still = s.still := by
  intro a0 s
  unfold State.writeMapPage
  repeat' (first | with_reducible rfl | (simp only [↓still_mk, ↓still_fold, ↓State.writeHostPage_still]; done) | simp only [] | split)

theorem execMapPageEvict_still : ∀ s, ∀ t, @execMapPageEvict s = .next t → t.still = s.still := by
  intro s t h
  simp only [execMapPageEvict, Host.Outcome.next.injEq] at h
  subst h
  repeat' (first | with_reducible rfl | (simp only [↓still_mk, ↓still_fold, ↓State.writeMapPage_still]; done) | split)

theorem execGcStart_still : ∀ s, ∀ t, @execGcStart s = .next t → t.still = s.still := by
  intro s t h
  simp only [execGcStart, Host.Outcome.next.injEq] at h
  subst h
  repeat' (first | with_reducible rfl | (simp only [↓still_mk, ↓still_fold, ↓apply_ite State.still]; done) | simp only [↓apply_ite State.still]
                    | split)

theorem execQuadBlockRefresh_still : ∀ a0 s, ∀ t, @execQuadBlockRefresh a0 s = .next t → t.still = s.still := by
  intro a0 s t h
  simp only [execQuadBlockRefresh, Host.Outcome.next.injEq] at h
  subst h
  repeat' (first | (simp only [↓still_mk, ↓still_fold, ↓apply_ite State.still, ite_self, ↓State.updQuad_still]; done))

theorem execWearLevelMove_still : ∀ a0 s, ∀ t, @execWearLevelMove a0 s = .next t → t.still = s.still := by
  intro a0 s t h
  simp only [execWearLevelMove, Host.Outcome.next.injEq] at h
  subst h
  repeat' (first | with_reducible rfl | (simp only [↓still_mk, ↓still_fold, ↓apply_ite State.still]; done) | simp only [↓apply_ite State.still]
                    | split)

theorem execFlashPatrol_still : ∀ a0 a1 s, ∀ t, @execFlashPatrol a0 a1 s = .next t → t.still = s.still := by
  intro a0 a1 s t h
  simp only [execFlashPatrol, Host.Outcome.next.injEq] at h
  subst h
  repeat' (first | (simp only [↓apply_ite State.still, ite_self, ↓State.updQuad_still]; done))

theorem execLowSpaceEnter_still : ∀ s, ∀ t, @execLowSpaceEnter s = .next t → t.still = s.still := by
  intro s t h
  simp only [execLowSpaceEnter, Host.Outcome.next.injEq] at h
  subst h
  repeat' (first | (simp only [↓still_mk, ↓still_fold, ↓apply_ite State.still, ite_self, ↓State.media_still]; done))

theorem execLowSpaceExit_still : ∀ s, ∀ t, @execLowSpaceExit s = .next t → t.still = s.still := by
  intro s t h
  simp only [execLowSpaceExit, Host.Outcome.next.injEq] at h
  subst h
  repeat' (first | (simp only [↓still_mk, ↓still_fold, ↓apply_ite State.still, ite_self]; done))

theorem State.failDie_still : ∀ a0 s, (@State.failDie a0 s).still = s.still := by
  intro a0 s
  unfold State.failDie
  repeat' (first | (simp only [↓apply_ite State.still, ite_self, ↓State.updDie_still, ↓State.media_still, ↓State.logUnit_still]; done))

theorem State.failChannel_still : ∀ a0 s, (@State.failChannel a0 s).still = s.still := by
  intro a0 s
  unfold State.failChannel
  repeat' (first | with_reducible rfl
                    | (simp only [↓still_mk, ↓still_fold, ↓apply_ite State.still, ↓State.failDie_still, ↓State.logUnit_still, ↓State.media_still]; done)
                    | simp only [↓apply_ite State.still, ↓State.logUnit_still] | with_reducible refine (still_foldl _ _ (fun _ _ => ?_) _).trans ?_
                    | split)

theorem execDieFailed_still : ∀ a0 s, ∀ t, @execDieFailed a0 s = .next t → t.still = s.still := by
  intro a0 s t h
  simp only [execDieFailed, Host.Outcome.next.injEq] at h
  subst h
  repeat' (first | (simp only [↓apply_ite State.still, ite_self, ↓State.failChannel_still, ↓State.failDie_still]; done))

theorem execChannelFailed_still : ∀ a0 s, ∀ t, @execChannelFailed a0 s = .next t → t.still = s.still := by
  intro a0 s t h
  simp only [execChannelFailed, Host.Outcome.next.injEq] at h
  subst h
  repeat' (first | (simp only [↓State.failChannel_still]; done))

theorem execDieRebuildDone_still : ∀ a0 s, ∀ t, @execDieRebuildDone a0 s = .next t → t.still = s.still := by
  intro a0 s t h
  simp only [execDieRebuildDone, Host.Outcome.next.injEq] at h
  subst h
  repeat' (first | (simp only [↓apply_ite State.still, ite_self, ↓State.updDie_still, ↓State.media_still]; done))

/-! ### Identity -/

theorem execStreamClose_still : ∀ a0 a1 s, ∀ t, @execStreamClose a0 a1 s = .next t → t.still = s.still := by
  intro a0 a1 s t h
  simp only [execStreamClose, Host.Outcome.next.injEq] at h
  subst h
  repeat' (first | with_reducible rfl | (simp only [↓still_mk, ↓still_fold, ↓State.answer_still]; done) | (intro _ _ _ h)
                    | (rw [err_ok] at h; exact h.elim) | (rw [bind_ok] at h; rcases h with ⟨_, _, h⟩) | (rw [ok_ok] at h; subst h) | (split at h)
                    | with_reducible refine (State.start_still _ _ _ _ _ ?_ ).trans ?_)

theorem execIdentify_still : ∀ a0 a1 s, ∀ t, @execIdentify a0 a1 s = .next t → t.still = s.still := by
  intro a0 a1 s t h
  simp only [execIdentify, Host.Outcome.next.injEq] at h
  subst h
  repeat' (first | with_reducible rfl | (simp only [↓State.answer_still]; done) | (intro _ _ _ h) | (rw [ok_ok] at h; subst h)
                    | with_reducible refine (State.start_still _ _ _ _ _ ?_ ).trans ?_)

theorem execGetStatus_still : ∀ a0 a1 s, ∀ t, @execGetStatus a0 a1 s = .next t → t.still = s.still := by
  intro a0 a1 s t h
  simp only [execGetStatus, Host.Outcome.next.injEq] at h
  subst h
  repeat' (first | with_reducible rfl | (simp only [↓State.answer_still]; done) | (intro _ _ _ h) | (rw [ok_ok] at h; subst h)
                    | with_reducible refine (State.start_still _ _ _ _ _ ?_ ).trans ?_)

theorem execNop_still : ∀ a0 a1 s, ∀ t, @execNop a0 a1 s = .next t → t.still = s.still := by
  intro a0 a1 s t h
  simp only [execNop, Host.Outcome.next.injEq] at h
  subst h
  repeat' (first | with_reducible rfl | (simp only [↓State.answer_still]; done) | (intro _ _ _ h) | (rw [bind_ok] at h; rcases h with ⟨_, _, h⟩)
                    | (rw [ok_ok] at h; subst h) | with_reducible refine (State.start_still _ _ _ _ _ ?_ ).trans ?_)

set_option maxRecDepth 4000 in
theorem execStreamOpen_still : ∀ a0 a1 s, ∀ t, @execStreamOpen a0 a1 s = .next t → t.still = s.still := by
  intro a0 a1 s t h
  simp only [execStreamOpen, Host.Outcome.next.injEq] at h
  subst h
  repeat' (first | with_reducible rfl | (simp only [↓still_mk, ↓still_fold, ↓State.answer_still]; done) | (intro _ _ _ h)
                    | (rw [err_ok] at h; exact h.elim) | (rw [bind_ok] at h; rcases h with ⟨_, _, h⟩) | (rw [ok_ok] at h; subst h) | (split at h)
                    | with_reducible refine (State.start_still _ _ _ _ _ ?_ ).trans ?_)

theorem execPiwBind_still : ∀ a0 a1 s, ∀ t, @execPiwBind a0 a1 s = .next t → t.still = s.still := by
  intro a0 a1 s t h
  simp only [execPiwBind, Host.Outcome.next.injEq] at h
  subst h
  repeat' (first | with_reducible rfl | (simp only [↓State.updWin_still, ↓State.answer_still]; done) | (intro _ _ _ h)
                    | (rw [bind_ok] at h; rcases h with ⟨_, _, h⟩) | (rw [ok_ok] at h; subst h)
                    | with_reducible refine (State.start_still _ _ _ _ _ ?_ ).trans ?_)

theorem execPiwUnbind_still : ∀ a0 a1 s, ∀ t, @execPiwUnbind a0 a1 s = .next t → t.still = s.still := by
  intro a0 a1 s t h
  simp only [execPiwUnbind, Host.Outcome.next.injEq] at h
  subst h
  repeat' (first | with_reducible rfl | (simp only [↓requestFlush_still, ↓State.setWork_still]; done) | (intro _ _ _ h)
                    | (rw [bind_ok] at h; rcases h with ⟨_, _, h⟩) | (rw [ok_ok] at h; subst h)
                    | with_reducible refine (State.start_still _ _ _ _ _ ?_ ).trans ?_)

theorem execGetCertificates_still : ∀ a0 a1 s, ∀ t, @execGetCertificates a0 a1 s = .next t → t.still = s.still := by
  intro a0 a1 s t h
  simp only [execGetCertificates, Host.Outcome.next.injEq] at h
  subst h
  repeat' (first | with_reducible rfl | (simp only [↓State.answer_still]; done) | (intro _ _ _ h) | (rw [bind_ok] at h; rcases h with ⟨_, _, h⟩)
                    | (rw [ok_ok] at h; subst h) | with_reducible refine (State.start_still _ _ _ _ _ ?_ ).trans ?_)

/-! ### Resets -/

theorem State.carryDrops_still : ∀ s, (@State.carryDrops s).still = s.still := by
  intro s
  unfold State.carryDrops
  repeat' (first | with_reducible rfl | (simp only [↓still_mk, ↓still_fold, ↓State.unmapObject_still]; done) | simp only []
                    | with_reducible refine (still_foldl _ _ (fun _ _ => ?_) _).trans ?_)

theorem State.allDurable_still : ∀ s, (@State.allDurable s).still = s.still := by
  intro s
  unfold State.allDurable
  repeat' (first | (simp only [↓still_mk, ↓still_fold, ↓State.journalAll_still]; done))

theorem State.stopFabric_still : ∀ s, (@State.stopFabric s).still = s.still := by
  intro s
  unfold State.stopFabric
  repeat' (first | with_reducible rfl | (simp only [↓still_mk, ↓still_fold, ↓State.linkDown_still]; done) | simp only [↓still_mk, ↓still_fold]
                    | with_reducible refine (still_foldl _ _ (fun _ _ => ?_) _).trans ?_)

theorem State.holdupSeen_still : ∀ a0 s, (@State.holdupSeen a0 s).2.still = s.still := by
  intro a0 s
  unfold State.holdupSeen
  repeat' (first | (simp only [↓apply_ite State.still, ↓apply_ite Prod.snd, ite_self, ↓State.draw_still]; done))
theorem State.holdupSeen_still_eq : ∀ a0 s t x, @State.holdupSeen a0 s = (x, t) → t.still = s.still := by
  intro a0 s t x h
  have := State.holdupSeen_still a0 s
  rwa [h] at this

theorem State.unflushed_still : ∀ s, (@State.unflushed s).still = s.still := by
  intro s
  unfold State.unflushed
  repeat' (first | (simp only [↓still_mk, ↓still_fold, ↓State.undoJournal_still, ↓State.draw_still]; done))

theorem State.resetSeen_still : ∀ a0 s, (@State.resetSeen a0 s).2.still = s.still := by
  intro a0 s
  unfold State.resetSeen
  repeat' (first | (simp only [↓apply_ite State.still, ↓apply_ite Prod.snd, ite_self, ↓State.draw_still]; done))
theorem State.resetSeen_still_eq : ∀ a0 s t x, @State.resetSeen a0 s = (x, t) → t.still = s.still := by
  intro a0 s t x h
  have := State.resetSeen_still a0 s
  rwa [h] at this

theorem State.mapDamaged_still : ∀ a0 s, (@State.mapDamaged a0 s).still = s.still := by
  intro a0 s
  unfold State.mapDamaged
  repeat' (first | with_reducible rfl | (simp only [↓still_mk, ↓still_fold, ↓State.media_still]; done) | simp only []
                    | with_reducible refine (still_foldl _ _ (fun _ _ => ?_) _).trans ?_)

theorem State.dieFound_still : ∀ a0 a1 s, (@State.dieFound a0 a1 s).still = s.still := by
  intro a0 a1 s
  unfold State.dieFound
  repeat' (first | (simp only [↓State.updDie_still]; done))

theorem State.format_still : ∀ a0 s, (@State.format a0 s).still = s.still := by
  intro a0 s
  unfold State.format
  repeat' (first | (simp only [↓still_mk, ↓still_fold, ↓apply_ite State.still, ite_self, ↓State.updQuad_still, ↓State.updDie_still]; done)
                    | simp only [↓still_mk, ↓still_fold] | with_reducible refine (still_foldl _ _ (fun _ _ => ?_) _).trans ?_ | split)

theorem State.bringUpDies_still : ∀ a0 s, (@State.bringUpDies a0 s).still = s.still := by
  intro a0 s
  unfold State.bringUpDies
  repeat' (first | with_reducible rfl
                    | (simp only [↓still_mk, ↓still_fold, ↓apply_ite State.still, ↓State.format_still, ↓State.dieFound_still, ↓State.failDie_still]; done)
                    | simp only [↓apply_ite State.still, ↓State.format_still] | with_reducible refine (still_foldl _ _ (fun _ _ => ?_) _).trans ?_
                    | split)

/-! ### Seasons -/

theorem State.sealForDrain_still : ∀ s a1, (@State.sealForDrain s a1).still = s.still := by
  intro s a1
  unfold State.sealForDrain
  repeat' (first | with_reducible rfl | (simp only [↓apply_ite State.still, ite_self, ↓State.setColl_still, ↓State.sealAtBoundary_still]; done)
                    | simp only [] | split)

theorem State.leaveForDrain_still : ∀ s a1, (@State.leaveForDrain s a1).still = s.still := by
  intro s a1
  unfold State.leaveForDrain
  repeat' (first | with_reducible rfl
                    | (simp only [↓apply_ite State.still, ite_self, ↓State.endMembership_still, ↓State.beginLeave_still, ↓State.settleLeave_still]; done)
                    | split)

theorem State.pursueDrain_still : ∀ s, (@State.pursueDrain s).still = s.still := by
  intro s
  unfold State.pursueDrain
  repeat' (first | with_reducible rfl | (simp only [↓State.leaveForDrain_still, ↓State.sealForDrain_still]; done) | simp only []
                    | with_reducible refine (still_foldl _ _ (fun _ _ => ?_) _).trans ?_)

theorem State.closeSteps_still : ∀ s, (@State.closeSteps s).still = s.still := by
  intro s
  unfold State.closeSteps
  repeat' (first | (simp only [↓still_mk, ↓still_fold]; done))

theorem State.closeHost_still : ∀ s, (@State.closeHost s).still = s.still := by
  intro s
  unfold State.closeHost
  repeat' (first | (simp only [↓still_mk, ↓still_fold]; done))

/-! ### Governor -/

theorem State.judgeNbus_still : ∀ a0 s, (@State.judgeNbus a0 s).still = s.still := by
  intro a0 s
  unfold State.judgeNbus
  repeat' (first | (simp only [↓still_mk, ↓still_fold, ↓apply_ite State.still, ite_self, ↓State.updNbu_still, ↓State.logUnit_still]; done)
                    | simp only [] | with_reducible refine (still_foldl _ _ (fun _ _ => ?_) _).trans ?_)

theorem State.attributeEnergy_still : ∀ s, (@State.attributeEnergy s).still = s.still := by
  intro s
  unfold State.attributeEnergy
  repeat' (first | with_reducible rfl | (simp only [↓State.charge_still, ↓State.draw_still]; done) | simp only []
                    | with_reducible refine (still_foldl _ _ (fun _ _ => ?_) _).trans ?_)

/-! ### KeyCommands -/

theorem State.supply_still : ∀ a0 s, (@State.supply a0 s).still = s.still := by
  intro a0 s
  unfold State.supply
  repeat' (first | (simp only [↓still_mk, ↓still_fold]; done))

theorem State.beginZeroise_still : ∀ a0 s, (@State.beginZeroise a0 s).still = s.still := by
  intro a0 s
  unfold State.beginZeroise
  repeat' (first | with_reducible rfl
                    | (simp only [↓still_mk, ↓still_fold, ↓apply_ite State.still, ite_self, ↓State.endCommand_still, ↓State.updColl_still]; done)
                    | simp only [↓apply_ite State.still] | with_reducible refine (still_foldl _ _ (fun _ _ => ?_) _).trans ?_ | split)

theorem State.joinPk_still : ∀ s, ∀ t, @State.joinPk s = .ok t → t.still = s.still := by
  intro s t h
  unfold State.joinPk at h
  repeat' (first | (simp only [↓still_mk, ↓still_fold]; done) | (rw [err_ok] at h; exact h.elim) | (rw [ok_ok] at h; subst h) | (dsimp only at h)
                    | (split at h))

theorem State.wrapped_still : ∀ a0 a1 a2 s, ∀ t, @State.wrapped a0 a1 a2 s = .ok t → t.still = s.still := by
  intro a0 a1 a2 s t h
  unfold State.wrapped at h
  repeat' (first | with_reducible rfl | (rw [bind_ok] at h; rcases h with ⟨_, _, h⟩) | with_reducible refine (State.joinPk_still _ _ h).trans ?_)

theorem State.orAnswer_still : ∀ a0 a1 s, (∀ t, a1 = .ok t → t.still = s.still) → (@State.orAnswer a0 a1 s).still = s.still := by
  intro a0 a1 s h
  cases a1 with
  | ok t => exact h t rfl
  | error d => exact State.answerDetail_still ..

theorem State.underKey_still : ∀ a0 a1 s, (@State.underKey a0 a1 s).still = s.still := by
  intro a0 a1 s
  unfold State.underKey
  repeat' (first | (simp only [↓still_mk, ↓still_fold]; done))

theorem State.importKey_still : ∀ a0 a1 s, ∀ t, @State.importKey a0 a1 s = .ok t → t.still = s.still := by
  intro a0 a1 s t h
  unfold State.importKey at h
  repeat' (first | (simp only [↓still_mk, ↓still_fold, ↓State.supply_still, ↓State.answer_still, ↓State.underKey_still]; done)
                    | (rw [bind_ok] at h; rcases h with ⟨_, _, h⟩) | (rw [ok_ok] at h; subst h) | (dsimp only at h) | (split at h))

theorem execKeyImport_still : ∀ a0 a1 a2 s, ∀ t, @execKeyImport a0 a1 a2 s = .next t → t.still = s.still := by
  intro a0 a1 a2 s t h
  simp only [execKeyImport, Host.Outcome.next.injEq] at h
  subst h
  repeat' (first | with_reducible rfl | (intro _ _ _ h) | (rw [err_ok] at h; exact h.elim) | (rw [bind_ok] at h; rcases h with ⟨_, _, h⟩)
                    | (rw [ok_ok] at h; subst h) | (split at h) | with_reducible refine (State.importKey_still _ _ _ _ h).trans ?_
                    | with_reducible refine (State.start_still _ _ _ _ _ ?_ ).trans ?_
                    | with_reducible refine (State.wrapped_still _ _ _ _ _ ‹_›).trans ?_
                    | (refine (State.orAnswer_still _ _ _ (fun _ h => ?_)).trans ?_))

theorem State.openSession_still : ∀ a0 a1 s, ∀ t, @State.openSession a0 a1 s = .ok t → t.still = s.still := by
  intro a0 a1 s t h
  unfold State.openSession at h
  repeat' (first | (simp only [↓still_mk, ↓still_fold, ↓State.answer_still, ↓State.underKey_still, ↓State.draw_still]; done)
                    | (rw [err_ok] at h; exact h.elim) | (rw [bind_ok] at h; rcases h with ⟨_, _, h⟩) | (rw [ok_ok] at h; subst h) | (dsimp only at h)
                    | (split at h))

theorem execSessionOpen_still : ∀ a0 a1 a2 s, ∀ t, @execSessionOpen a0 a1 a2 s = .next t → t.still = s.still := by
  intro a0 a1 a2 s t h
  simp only [execSessionOpen, Host.Outcome.next.injEq] at h
  subst h
  repeat' (first | with_reducible rfl | (intro _ _ _ h) | (rw [err_ok] at h; exact h.elim) | (rw [bind_ok] at h; rcases h with ⟨_, _, h⟩)
                    | (rw [ok_ok] at h; subst h) | (split at h) | with_reducible refine (State.openSession_still _ _ _ _ h).trans ?_
                    | with_reducible refine (State.start_still _ _ _ _ _ ?_ ).trans ?_
                    | with_reducible refine (State.wrapped_still _ _ _ _ _ ‹_›).trans ?_
                    | (refine (State.orAnswer_still _ _ _ (fun _ h => ?_)).trans ?_))

theorem execSessionClose_still : ∀ a0 a1 s, ∀ t, @execSessionClose a0 a1 s = .next t → t.still = s.still := by
  intro a0 a1 s t h
  simp only [execSessionClose, Host.Outcome.next.injEq] at h
  subst h
  repeat' (first | with_reducible rfl | (simp only [↓State.setWork_still, ↓State.settle_still]; done) | (intro _ _ _ h)
                    | (rw [bind_ok] at h; rcases h with ⟨_, _, h⟩) | (rw [ok_ok] at h; subst h)
                    | with_reducible refine (State.start_still _ _ _ _ _ ?_ ).trans ?_)

theorem execKeyRotate_still : ∀ a0 a1 s, ∀ t, @execKeyRotate a0 a1 s = .next t → t.still = s.still := by
  intro a0 a1 s t h
  simp only [execKeyRotate, Host.Outcome.next.injEq] at h
  subst h
  repeat' (first | with_reducible rfl | (simp only [↓State.setColl_still, ↓State.answer_still]; done) | (intro _ _ _ h)
                    | (rw [err_ok] at h; exact h.elim) | (rw [bind_ok] at h; rcases h with ⟨_, _, h⟩) | (rw [ok_ok] at h; subst h) | (split at h)
                    | with_reducible refine (State.start_still _ _ _ _ _ ?_ ).trans ?_)

theorem execKeyZeroise_still : ∀ a0 a1 s, ∀ t, @execKeyZeroise a0 a1 s = .next t → t.still = s.still := by
  intro a0 a1 s t h
  simp only [execKeyZeroise, Host.Outcome.next.injEq] at h
  subst h
  repeat' (first | with_reducible rfl | (simp only [↓State.beginZeroise_still, ↓State.setWork_still]; done) | (intro _ _ _ h)
                    | (rw [bind_ok] at h; rcases h with ⟨_, _, h⟩) | (rw [ok_ok] at h; subst h)
                    | with_reducible refine (State.start_still _ _ _ _ _ ?_ ).trans ?_)

theorem State.endZeroise_still : ∀ a0 s, (@State.endZeroise a0 s).1.still = s.still := by
  intro a0 s
  unfold State.endZeroise
  repeat' (first | with_reducible rfl | (simp only [↓still_mk, ↓still_fold, ↓apply_ite State.still, ite_self, ↓State.countFill_still]; done)
                    | simp only [↓still_mk, ↓still_fold, ↓apply_ite State.still, ite_self]
                    | with_reducible refine (still_foldl _ _ (fun _ _ => ?_) _).trans ?_)
theorem State.endZeroise_still_eq : ∀ a0 s t x, @State.endZeroise a0 s = (t, x) → t.still = s.still := by
  intro a0 s t x h
  have := State.endZeroise_still a0 s
  rwa [h] at this

theorem execZeroiseFillDone_still : ∀ a0 a1 s, ∀ t, @execZeroiseFillDone a0 a1 s = .next t → t.still = s.still := by
  intro a0 a1 s t h
  simp only [execZeroiseFillDone, Host.Outcome.next.injEq] at h
  subst h
  repeat' (first | with_reducible rfl | (simp only [↓State.answer_still, ↓State.endZeroise_still]; done) | split)

/-! ### Pins -/

theorem State.sideband_still : ∀ a0 s, (@State.sideband a0 s).still = s.still := by
  intro a0 s
  unfold State.sideband
  repeat' (first | (simp only [↓apply_ite State.still, ite_self, ↓State.emit_still]; done))

theorem execI3cStatus_still : ∀ s, ∀ t, @execI3cStatus s = .next t → t.still = s.still := by
  intro s t h
  simp only [execI3cStatus, Host.Outcome.next.injEq] at h
  subst h
  repeat' (first | (simp only [↓State.sideband_still]; done))

theorem State.endStreaming_still : ∀ s a1, (@State.endStreaming s a1).still = s.still := by
  intro s a1
  unfold State.endStreaming
  repeat' (first | with_reducible rfl | (simp only [↓State.answer_still]; done) | split)

/-! ### TenantCommands -/

theorem State.rebucket_still : ∀ a0 a1 s, (@State.rebucket a0 a1 s).still = s.still := by
  intro a0 a1 s
  unfold State.rebucket
  repeat' (first | (simp only [↓still_mk, ↓still_fold]; done))

theorem execTenantConfigure_still : ∀ a0 a1 s, ∀ t, @execTenantConfigure a0 a1 s = .next t → t.still = s.still := by
  intro a0 a1 s t h
  simp only [execTenantConfigure, Host.Outcome.next.injEq] at h
  subst h
  repeat' (first | with_reducible rfl | (simp only [↓still_mk, ↓still_fold, ↓State.answer_still, ↓State.rebucket_still]; done) | (intro _ _ _ h)
                    | (rw [bind_ok] at h; rcases h with ⟨_, _, h⟩) | (rw [ok_ok] at h; subst h)
                    | with_reducible refine (State.start_still _ _ _ _ _ ?_ ).trans ?_)

theorem execTenantDisable_still : ∀ a0 a1 s, ∀ t, @execTenantDisable a0 a1 s = .next t → t.still = s.still := by
  intro a0 a1 s t h
  simp only [execTenantDisable, Host.Outcome.next.injEq] at h
  subst h
  repeat' (first | with_reducible rfl
                    | (simp only [↓still_mk, ↓still_fold, ↓State.settle_still, ↓State.setWork_still, ↓State.beginZeroise_still]; done)
                    | (intro _ _ _ h) | (rw [bind_ok] at h; rcases h with ⟨_, _, h⟩) | (rw [ok_ok] at h; subst h) | (split at h)
                    | with_reducible refine (State.start_still _ _ _ _ _ ?_ ).trans ?_)

theorem execMeterRead_still : ∀ a0 a1 s, ∀ t, @execMeterRead a0 a1 s = .next t → t.still = s.still := by
  intro a0 a1 s t h
  simp only [execMeterRead, Host.Outcome.next.injEq] at h
  subst h
  repeat' (first | with_reducible rfl | (simp only [↓State.answer_still]; done) | (intro _ _ _ h) | (rw [bind_ok] at h; rcases h with ⟨_, _, h⟩)
                    | (rw [ok_ok] at h; subst h) | with_reducible refine (State.start_still _ _ _ _ _ ?_ ).trans ?_)

theorem State.clearMeters_still : ∀ a0 s, (@State.clearMeters a0 s).still = s.still := by
  intro a0 s
  unfold State.clearMeters
  repeat' (first | (simp only [↓still_mk, ↓still_fold]; done))

theorem execMeterReadAll_still : ∀ a0 a1 s, ∀ t, @execMeterReadAll a0 a1 s = .next t → t.still = s.still := by
  intro a0 a1 s t h
  simp only [execMeterReadAll, Host.Outcome.next.injEq] at h
  subst h
  repeat' (first | with_reducible rfl | (simp only [↓apply_ite State.still, ↓State.answer_still, ↓State.clearMeters_still]; done) | (intro _ _ _ h)
                    | (rw [bind_ok] at h; rcases h with ⟨_, _, h⟩) | (rw [ok_ok] at h; subst h)
                    | simp only [↓apply_ite State.still, ↓State.answer_still] | with_reducible refine (still_foldl _ _ (fun _ _ => ?_) _).trans ?_
                    | with_reducible refine (State.start_still _ _ _ _ _ ?_ ).trans ?_ | split)

theorem execLogRead_still : ∀ a0 a1 s, ∀ t, @execLogRead a0 a1 s = .next t → t.still = s.still := by
  intro a0 a1 s t h
  simp only [execLogRead, Host.Outcome.next.injEq] at h
  subst h
  repeat' (first | with_reducible rfl | (simp only [↓State.answer_still]; done) | (intro _ _ _ h) | (rw [bind_ok] at h; rcases h with ⟨_, _, h⟩)
                    | (rw [ok_ok] at h; subst h) | with_reducible refine (State.start_still _ _ _ _ _ ?_ ).trans ?_)

theorem execDiagRun_still : ∀ a0 a1 a2 a3 a4 s, ∀ t, @execDiagRun a0 a1 a2 a3 a4 s = .next t → t.still = s.still := by
  intro a0 a1 a2 a3 a4 s t h
  simp only [execDiagRun, Host.Outcome.next.injEq] at h
  subst h
  repeat' (first | with_reducible rfl | (simp only [↓State.setWork_still, ↓State.answer_still]; done) | (intro _ _ _ h)
                    | (rw [bind_ok] at h; rcases h with ⟨_, _, h⟩) | (rw [ok_ok] at h; subst h)
                    | with_reducible refine (State.start_still _ _ _ _ _ ?_ ).trans ?_ | split)

theorem execLogIntervalEnd_still : ∀ s, ∀ t, @execLogIntervalEnd s = .next t → t.still = s.still := by
  intro s t h
  simp only [execLogIntervalEnd, Host.Outcome.next.injEq] at h
  subst h
  repeat' (first | (simp only [↓apply_ite State.still, ite_self, ↓State.endLogInterval_still]; done))

end Sys2Proof.Machine
end

