-- ==== Sys2Proof/Laws/Seasons.lean ====
section
/-!
SUPPORT. What the power, season, profile, governor and pin rows do to the queue, the clock, power and the governor.
-/
namespace Sys2Proof.Machine

/-- The part of the state that `State.still` gives. -/
abbrev Still := List Instr × Nat × Power × Governor × Pins

/-- From one part to the next: the queue and the clock stay, a lawful part stays lawful, and from a coherent one the season makes a move of the table
or none. -/
def Sound (x y : Still) : Prop :=
  y.1 = x.1 ∧ y.2.1 = x.2.1 ∧
    (x.2.2.2.1.within x.2.2.1.profile ∧ x.2.2.1.coherent → y.2.2.2.1.within y.2.2.1.profile ∧ y.2.2.1.coherent) ∧
    (x.2.2.1.coherent → y.2.2.1.season = x.2.2.1.season ∨ (x.2.2.1.season, y.2.2.1.season) ∈ seasonMoves)

/-- From one part to the next, nothing that `Sound` looks at has changed. -/
def Same (x y : Still) : Prop :=
  y.1 = x.1 ∧ y.2.1 = x.2.1 ∧ y.2.2.2.1 = x.2.2.2.1 ∧ y.2.2.1.season = x.2.2.1.season ∧ y.2.2.1.profile = x.2.2.1.profile ∧
    y.2.2.1.drain = x.2.2.1.drain ∧ y.2.2.1.entering = x.2.2.1.entering ∧ y.2.2.1.waking = x.2.2.1.waking ∧ y.2.2.1.warm = x.2.2.1.warm ∧
    y.2.2.1.flush = x.2.2.1.flush

theorem Same.of_eq {x y : Still} (h : y = x) : Same x y := by subst h; exact ⟨rfl, rfl, rfl, rfl, rfl, rfl, rfl, rfl, rfl, rfl⟩

theorem Same.trans {x y z : Still} (h : Same x y) (g : Same y z) : Same x z := by
  obtain ⟨a1, a2, a3, a4, a5, a6, a7, a8, a9, a0⟩ := h
  obtain ⟨b1, b2, b3, b4, b5, b6, b7, b8, b9, b0⟩ := g
  exact ⟨b1.trans a1, b2.trans a2, b3.trans a3, b4.trans a4, b5.trans a5, b6.trans a6, b7.trans a7, b8.trans a8, b9.trans a9, b0.trans a0⟩

theorem Same.coherent {x y : Still} (h : Same x y) : y.2.2.1.coherent ↔ x.2.2.1.coherent := by
  obtain ⟨-, -, -, e1, -, e2, e3, e4, e5, e6⟩ := h
  simp only [Power.coherent, e1, e2, e3, e4, e5, e6]

theorem Same.sound {x y : Still} (h : Same x y) : Sound x y :=
  ⟨h.1, h.2.1, fun g => ⟨by rw [h.2.2.1, h.2.2.2.2.1]; exact g.1, h.coherent.mpr g.2⟩, fun _ => .inl h.2.2.2.1⟩

theorem Sound.refl (x : Still) : Sound x x := (Same.of_eq rfl).sound

theorem Same.then {x y z : Still} (h : Same x y) (g : Sound y z) : Sound x z := by
  obtain ⟨g1, g2, g3, g4⟩ := g
  refine ⟨g1.trans h.1, g2.trans h.2.1, fun k => g3 ⟨by rw [h.2.2.1, h.2.2.2.2.1]; exact k.1, h.coherent.mpr k.2⟩, fun k => ?_⟩
  have := g4 (h.coherent.mpr k)
  rwa [h.2.2.2.1] at this

theorem Sound.then {x y z : Still} (g : Sound x y) (h : Same y z) : Sound x z := by
  obtain ⟨g1, g2, g3, g4⟩ := g
  refine ⟨h.1.trans g1, h.2.1.trans g2, fun k => ⟨by rw [h.2.2.1, h.2.2.2.2.1]; exact (g3 k).1, h.coherent.mpr (g3 k).2⟩, fun k => ?_⟩
  have := g4 k
  rwa [h.2.2.2.1]

/-- Parts that differ in pins, or in fields of power that `Sound` does not look at. -/
theorem same_fields {q : List Instr} {c : Nat} {p p' : Power} {g : Governor} {n n' : Pins} (h1 : p'.season = p.season) (h2 : p'.profile = p.profile)
    (h3 : p'.drain = p.drain) (h4 : p'.entering = p.entering) (h5 : p'.waking = p.waking) (h6 : p'.warm = p.warm) (h7 : p'.flush = p.flush) :
    Same (q, c, p, g, n) (q, c, p', g, n') := ⟨rfl, rfl, rfl, h1, h2, h3, h4, h5, h6, h7⟩

theorem reset_within (p : Profile) : State.reset.governor.within p := by
  refine ⟨rfl, ?_, ?_, ?_, ?_, ?_, ?_⟩
  · cases p <;> decide
  all_goals decide

/-- A part in which nothing runs, whatever the season but power loss. -/
theorem Power.coherent_idle {p : Power} (h1 : p.drain = .none) (h2 : p.entering = none) (h3 : p.waking = none) (h4 : p.flush = none)
    (h5 : p.season ≠ .powerLoss) : p.coherent := by
  simp [Power.coherent, h1, h2, h3, h4, h5]

theorem retain_same (k : Nat) (s : State) : Same s.still (s.retain k).still := same_fields rfl rfl rfl rfl rfl rfl rfl

/-- A reset leaves the queue and the clock. -/
theorem afterReset_pending (s : State) : s.afterReset.pending = s.pending ∧ s.afterReset.clock = s.clock :=
  ⟨congrArg (fun x => x.1) (State.carryDrops_still s), congrArg (fun x => x.2.1) (State.carryDrops_still s)⟩

/-- A reset: from any season but Spring and Summer, by a move of the table. -/
theorem afterReset_sound {s : State} (h : s.power.coherent → s.power.season ≠ .spring ∧ s.power.season ≠ .summer) :
    Sound s.still s.afterReset.still := by
  refine ⟨(afterReset_pending s).1, (afterReset_pending s).2,
    fun _ => ⟨reset_within _, Power.coherent_idle rfl rfl rfl rfl nofun⟩, fun k => ?_⟩
  obtain ⟨h, h'⟩ := h k
  show Season.heldInReset = s.power.season ∨ (s.power.season, Season.heldInReset) ∈ seasonMoves
  revert h h'
  cases s.power.season <;> decide

theorem stillOperating {s : State} (h : s.operating = true) : s.power.season = .spring ∨ s.power.season = .summer ∨ s.power.season = .drain := by
  simpa only [State.operating, Bool.or_eq_true, beq_iff_eq, or_assoc] using h

theorem not_operating {s : State} (h : ¬s.operating = true) : s.power.season ≠ .spring ∧ s.power.season ≠ .summer := by
  simp only [State.operating, Bool.or_eq_true, beq_iff_eq, not_or] at h
  exact h.1

theorem beginFlush_sound (s : State) : Sound s.still s.beginFlush.still := by
  unfold State.beginFlush
  split
  · rename_i h
    refine Sound.then (y := (s.pending, s.clock, { s.power with
      season := .powerLoss, flush := some s.clock, flushed := false, flushMarked := false
      drain := .none, entering := none, waking := none }, s.governor, s.pins)) ?_ (.of_eq (State.stopFabric_still _))
    refine ⟨rfl, rfl, fun x => ⟨x.1, by simp [Power.coherent]⟩, fun _ => .inr ?_⟩
    rcases stillOperating h with h | h | h <;> simp [State.still, h, seasonMoves]
  · exact .refl _

/-- A failure of power or clocks. -/
theorem powerFails_sound (k : Nat) (s : State) : Sound s.still (s.powerFails k).still := by
  unfold State.powerFails
  split
  · exact (same_fields rfl rfl rfl rfl rfl rfl rfl).sound
  · split
    · rename_i t e
      split
      · refine (Same.of_eq (State.allDurable_still s)).then (afterReset_sound fun k => ?_)
        have hp : s.allDurable.power = s.power := congrArg (fun x => x.2.2.1) (State.allDurable_still s)
        rw [hp] at k ⊢
        obtain ⟨m, tag, hd⟩ := k.2.1 (by rw [e]; rfl)
        rw [k.1 (by rw [hd]; nofun)]
        exact ⟨nofun, nofun⟩
      · exact beginFlush_sound s
    · exact beginFlush_sound s

theorem execHoldupWarnAssert_sound (n : Nat) (s t : State) (h : execHoldupWarnAssert n s = .next t) : Sound s.still t.still := by
  simp only [execHoldupWarnAssert, Host.Outcome.next.injEq] at h
  subst h
  split
  · exact (Same.of_eq (State.holdupSeen_still n s)).then
      ((same_fields rfl rfl rfl rfl rfl rfl rfl).then (powerFails_sound 1 { (s.holdupSeen n).2 with pins.holdupN := false }))
  · exact (Same.of_eq (State.holdupSeen_still n s)).sound

theorem execInputUndervoltage_sound (v : Fin 355) (s t : State) (h : execInputUndervoltage v s = .next t) : Sound s.still t.still := by
  simp only [execInputUndervoltage, Host.Outcome.next.injEq] at h
  subst h
  exact (same_fields rfl rfl rfl rfl rfl rfl rfl).then (powerFails_sound 2 { s with pins.input := v })

theorem execInputOvervoltage_sound (v : Nat) (s t : State) (h : execInputOvervoltage v s = .next t) : Sound s.still t.still := by
  simp only [execInputOvervoltage, Host.Outcome.next.injEq] at h
  subst h
  split
  · exact .refl _
  · refine Same.then (y := ({ s with pins.input := v, power.overvoltage := true } : State).still) (same_fields rfl rfl rfl rfl rfl rfl rfl) ?_
    split
    · rename_i h
      refine Sound.then (afterReset_sound fun _ => ?_) (same_fields rfl rfl rfl rfl rfl rfl rfl)
      rw [beq_iff_eq.mp h]
      exact ⟨nofun, nofun⟩
    · exact powerFails_sound 3 _

theorem execThermalTrip_sound (p : Fin 27) (s t : State) (h : execThermalTrip p s = .next t) : Sound s.still t.still := by
  simp only [execThermalTrip, Host.Outcome.next.injEq] at h
  subst h
  refine Same.then (y := (({ s with power.trip := s.pins.thermSb, power.tripRetained := true } : State).retain (256 + p)).still)
    (same_fields rfl rfl rfl rfl rfl rfl rfl) ?_
  split
  · rename_i h
    exact afterReset_sound fun _ => by rw [beq_iff_eq.mp h]; exact ⟨nofun, nofun⟩
  · exact powerFails_sound 4 _

theorem execPowerLossFlush_sound (b : Bool) (s t : State) (h : execPowerLossFlush b s = .next t) : Sound s.still t.still := by
  simp only [execPowerLossFlush, Host.Outcome.next.injEq] at h
  subst h
  split
  · split
    · exact ((Same.of_eq (State.allDurable_still s)).trans (same_fields rfl rfl rfl rfl rfl rfl rfl)).sound
    · exact ((Same.of_eq (State.unflushed_still s)).trans (same_fields rfl rfl rfl rfl rfl rfl rfl)).sound
  · exact .refl _

theorem execFlushEnd_sound (s t : State) (h : execFlushEnd s = .next t) : Sound s.still t.still := by
  simp only [execFlushEnd, Host.Outcome.next.injEq] at h
  subst h
  split
  · rename_i h
    simp only [Bool.and_eq_true, beq_iff_eq] at h
    exact afterReset_sound fun _ => by rw [h.1]; exact ⟨nofun, nofun⟩
  · exact .refl _

/-- The coherent part of a module held in reset runs nothing. -/
theorem held_idle {p : Power} (h : p.coherent) (e : p.season = .heldInReset) :
    p.drain = .none ∧ p.entering = none ∧ p.waking = none ∧ p.flush = none := by
  obtain ⟨h1, h2, h3, h4⟩ := h
  rw [e] at h1 h3 h4
  have d : p.drain = .none := by
    exact Decidable.byContradiction fun d => absurd (h1 d) nofun
  refine ⟨d, ?_, ?_, ?_⟩
  · cases he : p.entering with
    | none => rfl
    | some t =>
      obtain ⟨m, tag, hd⟩ := h2 (by rw [he]; rfl)
      rw [d] at hd
      cases hd
  · cases he : p.waking with
    | none => rfl
    | some t => exact absurd (h3 (by rw [he]; rfl)).1 nofun
  · cases he : p.flush with
    | none => rfl
    | some t => exact absurd (h4.mp (by rw [he]; rfl)) nofun

/-- Spring begins from held in reset. -/
theorem beginSpring_sound {s : State} (h : s.power.season = .heldInReset) : Sound s.still s.beginSpring.still := by
  unfold State.beginSpring
  dsimp only
  split
  · exact (same_fields rfl rfl rfl rfl rfl rfl rfl).sound
  · have key (b : Power) (hb : b = { s.power with
        season := .spring, straps := s.pins.straps, profile := strapProfile s.pins.straps.profileSel
        rates := strapProfile s.pins.straps.profileSel, pcieUp := s.pins.perstN && s.pins.pcieClk
        flashDriven := s.pins.flashPg, warm := false, flushed := false }) :
        Sound s.still (s.pending, s.clock, b, { s.governor with clocks := List.replicate 4 (clockCeiling b.profile) }, s.pins) := by
      subst hb
      refine ⟨rfl, rfl, fun x => ⟨⟨rfl, ?_, x.1.2.2⟩, Power.coherent_idle (held_idle x.2 h).1 (held_idle x.2 h).2.1 (held_idle x.2 h).2.2.1 (held_idle x.2 h).2.2.2 nofun⟩, fun _ => .inr ?_⟩
      · intro k h
        exact Nat.le_of_eq (List.eq_of_mem_replicate h)
      · simp [State.still, h, seasonMoves]
    split
    · exact key _ rfl
    · exact key _ rfl

theorem beginSpring_season (s : State) : s.beginSpring.power.season = .spring ∨ s.beginSpring.power.season = s.power.season := by
  unfold State.beginSpring
  dsimp only
  split
  · exact .inr rfl
  · split <;> exact .inl rfl

theorem execResetRelease_sound (v : Nat) (b : Bool) (c : BitVec 2) (st : Straps) (s t : State) (h : execResetRelease v b c st s = .next t) :
    Sound s.still t.still := by
  simp only [execResetRelease, Host.Outcome.next.injEq] at h
  subst h
  split
  · rename_i h
    simp only [Bool.and_eq_true, beq_iff_eq] at h
    have e : Same s.still ({ s with pins.input := v, pins.holdupN := b, pins.sysClk := c, pins.straps := st } : State).still :=
      same_fields rfl rfl rfl rfl rfl rfl rfl
    split
    · exact e.then (beginSpring_sound h.1.1)
    · exact e.sound
  · exact .refl _

theorem execResetNDeassert_sound (st : Straps) (s t : State) (h : execResetNDeassert st s = .next t) : Sound s.still t.still := by
  simp only [execResetNDeassert, Host.Outcome.next.injEq] at h
  subst h
  have e : Same s.still ({ s with pins.resetN := true, pins.straps := st } : State).still := same_fields rfl rfl rfl rfl rfl rfl rfl
  split
  · rename_i h
    simp only [Bool.and_eq_true, beq_iff_eq] at h
    exact e.then (beginSpring_sound h.1)
  · exact e.sound

theorem execResetNAssert_sound (n : Nat) (b : Bool) (s t : State) (h : execResetNAssert n b s = .next t) : Sound s.still t.still := by
  simp only [execResetNAssert, Host.Outcome.next.injEq] at h
  subst h
  have e0 : Same s.still (s.resetSeen n).2.still := .of_eq (State.resetSeen_still n s)
  split
  · exact e0.sound
  · refine e0.then (Same.then (y := ({ (s.resetSeen n).2 with
        pins.resetN := false, power.resetRequest := true, power.overvoltage := false
        power.trip := (s.resetSeen n).2.power.trip && !b, power.tripRetained := (s.resetSeen n).2.power.tripRetained && !b } : State).still)
      (same_fields rfl rfl rfl rfl rfl rfl rfl) ?_)
    split
    · exact beginFlush_sound _
    · rename_i ho
      split
      · exact .refl _
      · exact afterReset_sound fun _ => not_operating ho

theorem execColdPowerUp_pending (v : Nat) (s t : State) (h : execColdPowerUp v s = .next t) : t.pending = s.pending ∧ t.clock = s.clock := by
  simp only [execColdPowerUp, Host.Outcome.next.injEq] at h
  subst h
  split
  · exact ⟨rfl, rfl⟩
  · split
    · exact ⟨(afterReset_pending _).1.trans (congrArg (fun x => x.1) (State.unflushed_still s)),
        (afterReset_pending _).2.trans (congrArg (fun x => x.2.1) (State.unflushed_still s))⟩
    · exact afterReset_pending _

theorem execColdPowerUp_lawful (v : Nat) (s t : State) (h : execColdPowerUp v s = .next t) (g : s.lawful) : t.lawful := by
  simp only [execColdPowerUp, Host.Outcome.next.injEq] at h
  subst h
  split
  · exact g
  · exact ⟨reset_within _, Power.coherent_idle rfl rfl rfl rfl nofun⟩

/-! ### Profiles and seasons -/

/-- A command's own row: its body is sound, or it answers with a detail, or nothing happens. -/
theorem start_sound (op : Nat) (m : Mbx) (tag : Word) (body : Flight → State → Except Detail State) (s : State)
    (h : ∀ f t, body f s = .ok t → Sound s.still t.still) : Sound s.still (s.start op m tag body).still := by
  unfold State.start
  split
  · exact .refl _
  · split
    · split
      · exact h _ _ ‹_›
      · exact (Same.of_eq (State.answerDetail_still _ _ _)).sound
    · exact .refl _

theorem execSetProfile_sound (m : Mbx) (tag : Word) (s t : State) (h : execSetProfile m tag s = .next t) : Sound s.still t.still := by
  simp only [execSetProfile, Host.Outcome.next.injEq] at h
  subst h
  refine start_sound _ _ _ _ _ fun f t h => ?_
  rw [bind_ok] at h; rcases h with ⟨_, _, h⟩
  rw [bind_ok] at h; rcases h with ⟨_, _, h⟩
  rw [bind_ok] at h; rcases h with ⟨_, _, h⟩
  split at h
  · rw [ok_ok] at h; subst h
    exact (Same.of_eq (State.answer_still _ _ _ _ _ _)).sound
  · rw [ok_ok] at h; subst h
    exact (Same.trans (same_fields rfl rfl rfl rfl rfl rfl rfl) (.of_eq (State.setWork_still _ _ _))).sound

theorem execProfileSwitch_sound (s t : State) (h : execProfileSwitch s = .next t) : Sound s.still t.still := by
  simp only [execProfileSwitch, Host.Outcome.next.injEq] at h
  subst h
  split
  · exact .refl _
  · rename_i c e
    split
    · have key : Sound s.still ({ s with
          power.profile := c.target, power.change := none
          governor.clocks := s.governor.clocks.map fun k => min k (clockCeiling c.target) } : State).still := by
        refine ⟨rfl, rfl, fun x => ⟨⟨(List.length_map _).trans x.1.1, ?_, x.1.2.2⟩, x.2⟩, fun _ => .inl rfl⟩
        intro k h
        obtain ⟨j, -, rfl⟩ := List.mem_map.mp h
        exact Nat.min_le_right _ _
      split
      · exact key.then (.of_eq (State.answer_still _ _ _ _ _ _))
      · exact key
    · exact .refl _

theorem beginDrain_sound {s : State} (d : Drain) (h : s.power.season = .summer) : Sound s.still (s.beginDrain d).still := by
  have e : (s.beginDrain d).still = (s.pending, s.clock, { s.power with season := .drain, drain := d }, s.governor, s.pins) := by
    unfold State.beginDrain
    rw [State.pursueDrain_still, State.closeSteps_still, State.logKind_still]
    rfl
  rw [e]
  refine ⟨rfl, rfl, fun x => ⟨x.1, ?_⟩, fun _ => .inr (by simp [State.still, h, seasonMoves])⟩
  obtain ⟨h1, h2, h3, h4⟩ := x.2
  simp only [State.still] at h1 h2 h3 h4
  rw [h] at h1 h3 h4
  refine ⟨fun _ => rfl, fun k => ?_, fun k => absurd (h3 k).1 nofun, ⟨fun k => absurd (h4.mp k) nofun, nofun⟩⟩
  obtain ⟨m, tag, hd⟩ := h2 k
  exact absurd (h1 (by rw [hd]; nofun)) nofun

theorem execSetSeason_sound (m : Mbx) (tag : Word) (s t : State) (h : execSetSeason m tag s = .next t) : Sound s.still t.still := by
  simp only [execSetSeason, Host.Outcome.next.injEq] at h
  subst h
  refine start_sound _ _ _ _ _ fun f t h => ?_
  rw [bind_ok] at h; rcases h with ⟨_, _, h⟩
  rw [bind_ok] at h; rcases h with ⟨_, _, h⟩
  split at h
  · rename_i hs
    split at h
    · rw [ok_ok] at h; subst h
      refine Same.then (.of_eq (State.setWork_still f .winterWait s)) (beginDrain_sound _ ?_)
      have := congrArg (fun x => x.2.2.1.season) (State.setWork_still f .winterWait s)
      exact this.trans hs
    · split at h
      · rw [ok_ok] at h; subst h
        exact (Same.of_eq (State.answer_still _ _ _ _ _ _)).sound
      · rw [ok_ok] at h; subst h
        exact (beginDrain_sound _ hs).then (.of_eq (State.answer_still _ _ _ _ _ _))
  · cases h
  · rename_i d hs hd
    split at h
    · rw [ok_ok] at h; subst h
      refine Sound.then (y := ({ s with power.drain := .winter f.mbx f.tag } : State).still) ?_ (.of_eq (State.setWork_still _ _ _))
      refine ⟨rfl, rfl, fun x => ⟨x.1, fun _ => hs, fun _ => ⟨_, _, rfl⟩, x.2.2.2⟩, fun _ => .inl rfl⟩
    · split at h
      · rw [ok_ok] at h; subst h
        refine Sound.then (y := ({ s with power.season := .summer, power.drain := .none } : State).still) ?_
          (.of_eq ((State.answer_still _ _ _ _ _ _).trans (State.logKind_still _ _ _)))
        refine ⟨rfl, rfl, fun x => ⟨x.1, ?_⟩, fun _ => .inr (by simp [State.still, hs, seasonMoves])⟩
        obtain ⟨h1, h2, h3, h4⟩ := x.2
        simp only [State.still] at h1 h2 h3 h4
        rw [hs] at h3 h4
        refine ⟨fun k => absurd rfl k, fun k => ?_, fun k => absurd (h3 k).1 nofun, ⟨fun k => absurd (h4.mp k) nofun, nofun⟩⟩
        obtain ⟨m, tag, hd'⟩ := h2 k
        exact absurd hd' (hd m tag)
      · rw [ok_ok] at h; subst h
        exact (Same.of_eq (State.answer_still _ _ _ _ _ _)).sound
  · cases h

theorem execDrainComplete_sound (s t : State) (h : execDrainComplete s = .next t) : Sound s.still t.still := by
  simp only [execDrainComplete, Host.Outcome.next.injEq] at h
  subst h
  split
  · rename_i hs
    simp only [Bool.and_eq_true, beq_iff_eq] at hs
    refine (Same.of_eq (State.pursueDrain_still s)).then ?_
    have hp : s.pursueDrain.power = s.power := congrArg (fun x => x.2.2.1) (State.pursueDrain_still s)
    generalize s.pursueDrain = u at hp
    split
    · rename_i m tag hd
      split
      · have key (v : State) (hv : v.still = u.still) : Sound u.still ({ v with power.entering := some v.clock } : State).closeHost.still := by
          refine Sound.then (y := ({ v with power.entering := some v.clock } : State).still) ?_ (.of_eq (State.closeHost_still _))
          rw [← hv]
          refine ⟨rfl, rfl, fun x => ⟨x.1, x.2.1, fun _ => ⟨m, tag, ?_⟩, x.2.2.2⟩, fun _ => .inl rfl⟩
          have hvp : v.power = u.power := congrArg (fun x => x.2.2.1) hv
          show v.power.drain = _
          rw [hvp, hd]
        split
        · exact key _ ((State.writeOne_still _ _).trans (State.answer_still _ _ _ _ _ _))
        · exact key _ rfl
      · exact .refl _
    · exact .refl _
  · exact .refl _

theorem execWinterEntry_sound (s t : State) (h : execWinterEntry s = .next t) : Sound s.still t.still := by
  simp only [execWinterEntry, Host.Outcome.next.injEq] at h
  subst h
  split
  · exact .refl _
  · split
    · rename_i hs
      simp only [Bool.and_eq_true, beq_iff_eq] at hs
      have e : (((s.logKind 10 0).allDurable.stopFabric).closeHost).still = s.still := by
        rw [State.closeHost_still, State.stopFabric_still, State.allDurable_still, State.logKind_still]
      refine (Same.of_eq e).then ?_
      have hp : (((s.logKind 10 0).allDurable.stopFabric).closeHost).power = s.power := congrArg (fun x => x.2.2.1) e
      generalize ((s.logKind 10 0).allDurable.stopFabric).closeHost = u at hp
      refine ⟨rfl, rfl, fun x => ⟨x.1, ?_⟩, fun _ => .inr (by simp [State.still, hp, hs.1, seasonMoves])⟩
      obtain ⟨h1, h2, h3, h4⟩ := x.2
      simp only [State.still] at h1 h2 h3 h4
      rw [hp, hs.1] at h3 h4
      refine ⟨fun k => absurd rfl k, nofun, fun k => ?_, ⟨fun k => ?_, nofun⟩⟩
      · exact absurd (h3 (by simpa only [State.still, hp] using k)).1 nofun
      · exact absurd (h4.mp (by simpa only [State.still, hp] using k)) nofun
    · exact .refl _

theorem beginWake_sound {s : State} (h : s.power.season = .winter) : Sound s.still s.beginWake.still := by
  refine Sound.then (y := (s.pending, s.clock, { s.power with
    season := .spring, warm := true, waking := some s.clock, profile := strapProfile s.power.straps.profileSel
    pcieUp := s.pins.perstN && s.pins.pcieClk, flashDriven := s.pins.flashPg },
    { s.governor with clocks := List.replicate 4 (clockCeiling (strapProfile s.power.straps.profileSel)), nbuRates := [] }, s.pins)) ?_
    (.of_eq (State.logKind_still _ _ _))
  refine ⟨rfl, rfl, fun x => ⟨⟨rfl, fun k g => ?_, x.1.2.2.1, x.1.2.2.2.1, x.1.2.2.2.2.1, x.1.2.2.2.2.2.1, nofun⟩, ?_⟩,
    fun _ => .inr (by simp [State.still, h, seasonMoves])⟩
  · exact Nat.le_of_eq (List.eq_of_mem_replicate g)
  · obtain ⟨h1, h2, -, h4⟩ := x.2
    simp only [State.still] at h1 h2 h4
    rw [h] at h1 h4
    refine ⟨fun k => absurd (h1 k) nofun, fun k => ?_, fun _ => ⟨rfl, rfl⟩, ⟨fun k => absurd (h4.mp k) nofun, nofun⟩⟩
    obtain ⟨m, tag, hd⟩ := h2 k
    exact absurd (h1 (by rw [hd]; nofun)) nofun

theorem execWake_sound (s t : State) (h : execWake s = .next t) : Sound s.still t.still := by
  simp only [execWake, Host.Outcome.next.injEq] at h
  subst h
  split
  · exact .refl _
  · split
    · rename_i hs
      rw [beq_iff_eq] at hs
      refine (Same.of_eq (State.emit_still (.mctp (vendorMessage 2 [0])) s)).then ?_
      have hp : (s.emit (.mctp (vendorMessage 2 [0]))).power.season = .winter := hs
      generalize s.emit (.mctp (vendorMessage 2 [0])) = u at hp
      split
      · have a := afterReset_sound (s := u) fun _ => by rw [hp]; exact ⟨nofun, nofun⟩
        have b := beginSpring_sound (s := u.afterReset) rfl
        refine ⟨b.1.trans a.1, b.2.1.trans a.2.1, fun x => b.2.2.1 (a.2.2.1 x), fun _ => .inr ?_⟩
        show (u.power.season, u.afterReset.beginSpring.power.season) ∈ seasonMoves
        rw [hp]
        rcases beginSpring_season u.afterReset with e | e
        · rw [e]; decide
        · rw [e]; exact (by decide : (Season.winter, Season.heldInReset) ∈ seasonMoves)
      · exact beginWake_sound hp
    · exact (Same.of_eq (State.emit_still _ s)).sound

/-- Summer begins: the season moves, nothing else does. -/
theorem beginSummer_still (s : State) :
    s.beginSummer.still = (s.still.1, s.still.2.1, { s.still.2.2.1 with season := .summer }, s.still.2.2.2.1, s.still.2.2.2.2) :=
  State.logKind_still _ _ _

theorem execWakeComplete_sound (s t : State) (h : execWakeComplete s = .next t) : Sound s.still t.still := by
  simp only [execWakeComplete, Host.Outcome.next.injEq] at h
  subst h
  split
  · exact .refl _
  · split
    · rename_i hs
      simp only [Bool.and_eq_true, beq_iff_eq] at hs
      rw [beginSummer_still, State.selfTest_still]
      refine ⟨rfl, rfl, fun x => ⟨⟨(List.length_map _).trans x.1.1, ?_, x.1.2.2⟩, ?_⟩, fun _ => .inr (by simp [State.still, hs, seasonMoves])⟩
      · intro k h
        obtain ⟨j, -, rfl⟩ := List.mem_map.mp h
        exact Nat.min_le_right _ _
      · obtain ⟨h1, h2, -, h4⟩ := x.2
        simp only [State.still] at h1 h2 h4
        rw [hs.1.1.1] at h1 h4
        exact ⟨fun k => absurd (h1 k) nofun, h2, nofun, ⟨fun k => absurd (h4.mp k) nofun, nofun⟩⟩
    · exact .refl _

theorem recoverMedia_same (s : State) : Same s.still s.recoverMedia.still := by
  unfold State.recoverMedia
  dsimp only
  split
  · exact (Same.of_eq (State.journalAll_still s)).trans (same_fields rfl rfl rfl rfl rfl rfl rfl)
  · exact (Same.of_eq (State.undoJournal_still s)).trans (same_fields rfl rfl rfl rfl rfl rfl rfl)

theorem execSpringBringUp_sound (a : MediaFound) (d : List (Fin 4352)) (s t : State) (h : execSpringBringUp a d s = .next t) : Sound s.still t.still := by
  simp only [execSpringBringUp, Host.Outcome.next.injEq] at h
  subst h
  split
  · rename_i hs
    simp only [Bool.and_eq_true, beq_iff_eq, Bool.not_eq_true'] at hs
    have e0 : Same s.still ((s.recoverMedia.bringUpDies (acceptedDies a.dies a.untrained)).mapDamaged a.rejected).still :=
      (recoverMedia_same s).trans (.of_eq ((State.mapDamaged_still _ _).trans (State.bringUpDies_still _ _)))
    generalize (s.recoverMedia.bringUpDies (acceptedDies a.dies a.untrained)).mapDamaged a.rejected = u at e0 ⊢
    have e1 : (if u.usableChannels < 16 then ({ u with flash.failed := true } : State).logUnit 0xFFFF else { u with flash.failed := false }).still = u.still := by
      split
      · exact State.logUnit_still _ _
      · rfl
    generalize (if u.usableChannels < 16 then ({ u with flash.failed := true } : State).logUnit 0xFFFF else { u with flash.failed := false }) = v at e1 ⊢
    have e2 : (v.selfTest d).still = v.still := State.selfTest_still _ _
    generalize v.selfTest d = w at e2 ⊢
    have e : Same s.still w.still := e0.trans ((Same.of_eq e1).trans (.of_eq e2))
    refine e.then ?_
    rw [beginSummer_still]
    have hw : w.power.season = .spring := e.2.2.2.1.trans hs.1.1
    have hm : w.power.warm = false := e.2.2.2.2.2.2.2.2.1.trans hs.1.2
    refine ⟨rfl, rfl, fun x => ⟨x.1, ?_⟩, fun _ => .inr (by simp [State.still, hw, seasonMoves])⟩
    obtain ⟨h1, h2, h3, h4⟩ := x.2
    simp only [State.still] at h1 h2 h3 h4
    rw [hw] at h1 h4
    exact ⟨fun k => absurd (h1 k) nofun, h2, fun k => absurd ((h3 k).2.symm.trans hm) nofun, ⟨fun k => absurd (h4.mp k) nofun, nofun⟩⟩
  · exact .refl _

/-! ### The governor -/

theorem bestStep_le (d q l c : Nat) (hc : 8 ≤ c) : ∀ n, n ≤ c → bestStep d q l n ≤ c
  | 0, _ => hc
  | n + 1, h => by
    unfold bestStep
    split
    · exact hc
    · split
      · exact h
      · exact bestStep_le d q l c hc n (Nat.le_of_succ_le h)

theorem ceiling_ge (p : Profile) : 8 ≤ clockCeiling p := by cases p <;> decide

theorem stepCap_le {hot cool : Bool} {step top c : Nat} (h : c ≤ top) : stepCap hot cool step top c ≤ top := by
  unfold stepCap
  split
  · exact Nat.le_trans (Nat.sub_le _ _) h
  · split
    · exact Nat.min_le_left _ _
    · exact h

theorem mapIdx_le {l : List Nat} {g : Nat → Nat → Nat} {top : Nat} (h : ∀ k ∈ l, k ≤ top) (hg : ∀ i k, k ≤ top → g i k ≤ top) :
    ∀ k ∈ l.mapIdx g, k ≤ top := by
  intro k hk
  obtain ⟨i, hi, rfl⟩ := List.mem_mapIdx.mp hk
  exact hg _ _ (h _ (List.getElem_mem hi))

theorem adjustCaps_within {p : Profile} {g : Governor} (r : TickReading) (h : g.within p) : (adjustCaps r g).within p := by
  obtain ⟨h1, h2, h3, h4, h5, h6, h7⟩ := h
  exact ⟨h1, h2, mapIdx_le h3 fun _ _ => stepCap_le, mapIdx_le h4 fun _ _ => stepCap_le, mapIdx_le h5 fun _ _ => stepCap_le, stepCap_le h6, h7⟩

theorem getD_le {l : List Nat} {top d : Nat} (h : ∀ k ∈ l, k ≤ top) (hd : d ≤ top) (i : Nat) : l.getD i d ≤ top := by
  rw [List.getD_eq_getElem?_getD]
  cases e : l[i]? with
  | none => exact hd
  | some k => exact h k (List.mem_of_getElem? e)

theorem rates_le (l : List Nat) (f : Nat → Nat) (hf : ∀ n, f n ≤ 100) : ∀ e ∈ (l.map fun n => (n, f n)).filter fun e => e.2 != 100, e.2 ≤ 100 := by
  intro e he
  obtain ⟨n, -, rfl⟩ := List.mem_map.mp (List.mem_filter.mp he).1
  exact hf n

theorem shareRates_le : ∀ (k gs : Nat) (l : List (Nat × Nat × Nat)), (∀ x ∈ l, x.2.2 ≤ 100) → ∀ e ∈ shareRates k gs l, e.2 ≤ 100
  | 0, _, l, h, e, he => by
    obtain ⟨x, hx, rfl⟩ := List.mem_map.mp he
    exact h x hx
  | k + 1, gs, l, h, e, he => by
    unfold shareRates at he
    dsimp only at he
    split at he
    · rcases List.mem_append.mp he with he | he
      · obtain ⟨x, hx, rfl⟩ := List.mem_map.mp he
        exact h x (List.mem_filter.mp hx).1
      · exact shareRates_le k _ _ (fun x hx => h x (List.mem_filter.mp hx).1) e he
    · rename_i hc
      obtain ⟨x, hx, rfl⟩ := List.mem_map.mp he
      have h1 := h x hx
      have h2 : ¬ x.2.2 * (l.map (·.2.1)).sum * 375 ≤ gs * x.2.1 * 100 := fun g => hc (List.any_eq_true.mpr ⟨x, hx, decide_eq_true g⟩)
      refine Nat.div_le_of_le_mul ?_
      generalize (l.map (·.2.1)).sum = T at h2 ⊢
      have : x.2.2 * T ≤ 100 * T := Nat.mul_le_mul_right T h1
      show gs * x.2.1 * 100 ≤ T * 375 * 100
      omega

theorem tab_getD_le {l : Tab Nat} {n d top : Nat} (h : ∀ e ∈ l, e.2 ≤ top) (hd : d ≤ top) : l.getD n d ≤ top := by
  induction l with
  | nil => exact hd
  | cons a l ih =>
    obtain ⟨k, v⟩ := a
    have ih := ih fun e he => h e (List.mem_cons_of_mem _ he)
    unfold Tab.getD Tab.find
    by_cases e : k = n
    · rw [if_pos e]
      exact h (k, v) (List.mem_cons_self ..)
    · rw [if_neg e]
      exact ih

theorem setRates_within {s : State} {p : Profile} (gs : Nat) (h : s.governor.within p) : (s.setRates gs).governor.within p := by
  obtain ⟨h1, h2, h3, h4, h5, h6, -⟩ := h
  unfold State.setRates
  generalize List.range 1280 = l
  refine ⟨h1, h2, h3, h4, h5, h6, rates_le _ _ fun _ => tab_getD_le (shareRates_le _ _ _ fun x hx => ?_) (getD_le h4 (Nat.le_refl _) _)⟩
  obtain ⟨n, -, rfl⟩ := List.mem_map.mp hx
  exact getD_le h4 (Nat.le_refl _) _

theorem setClocks_within {s : State} (gt : Nat) (r : TickReading) (h : s.governor.within s.power.profile) :
    (s.setClocks gt r).governor.within s.power.profile := by
  obtain ⟨h1, -, h3⟩ := h
  refine ⟨(List.length_mapIdx).trans h1, fun k hk => ?_, h3⟩
  obtain ⟨i, hi, rfl⟩ := List.mem_mapIdx.mp hk
  exact bestStep_le _ _ _ _ (ceiling_ge _) _ (Nat.min_le_left _ _)

theorem execGovernorTick_sound (r : TickReading) (s t : State) (h : execGovernorTick r s = .next t) : Sound s.still t.still := by
  simp only [execGovernorTick, Host.Outcome.next.injEq] at h
  subst h
  split
  · refine Sound.then ?_ (.of_eq (State.attributeEnergy_still _))
    refine Same.then (.of_eq (State.judgeNbus_still r.delivered s)) ?_
    generalize s.judgeNbus r.delivered = u
    refine ⟨rfl, rfl, fun x => ⟨?_, x.2⟩, fun _ => .inl rfl⟩
    exact setClocks_within _ _ (setRates_within _ (adjustCaps_within r x.1))
  · exact .refl _

theorem put_le {k v top : Nat} (hv : v ≤ top) : ∀ {t : Tab Nat}, (∀ e ∈ t, e.2 ≤ top) → ∀ e ∈ t.put k v, e.2 ≤ top
  | [], _, e, he => by
    rw [List.mem_singleton.mp he]
    exact hv
  | (j, w) :: t, h, e, he => by
    unfold Tab.put at he
    split at he
    · rcases List.mem_cons.mp he with rfl | he
      · exact hv
      · exact h e (List.mem_cons_of_mem _ he)
    · split at he
      · rcases List.mem_cons.mp he with rfl | he
        · exact hv
        · exact h e he
      · rcases List.mem_cons.mp he with rfl | he
        · exact h _ List.mem_cons_self
        · exact put_le hv (fun e he => h e (List.mem_cons_of_mem _ he)) e he

theorem find_le {k top : Nat} : ∀ {t : Tab Nat}, (∀ e ∈ t, e.2 ≤ top) → ∀ v, t.find k = some v → v ≤ top
  | [], _, v, hv => by cases hv
  | (j, w) :: t, h, v, hv => by
    unfold Tab.find at hv
    split at hv
    · cases hv
      exact h (j, w) List.mem_cons_self
    · exact find_le (fun e he => h e (List.mem_cons_of_mem _ he)) v hv

theorem halved_le (l : List Nat) : ∀ {t : Tab Nat}, (∀ e ∈ t, e.2 ≤ 100) → ∀ e ∈ l.foldl (fun t n => t.put n (t.getD n 100 / 2)) t, e.2 ≤ 100 := by
  induction l with
  | nil => exact fun h => h
  | cons n l ih =>
    refine fun h => ih (put_le ?_ h)
    refine Nat.le_trans (Nat.div_le_self _ _) ?_
    unfold Tab.getD
    split
    · exact find_le h _ ‹_›
    · exact Nat.le_refl _

theorem execLimiterEvent_sound (b : Bool) (u : Fin 20) (s t : State) (h : execLimiterEvent b u s = .next t) : Sound s.still t.still := by
  simp only [execLimiterEvent, Host.Outcome.next.injEq] at h
  subst h
  split
  · exact .refl _
  · have e : ({ s with governor.limiterEvents := s.governor.limiterEvents + 1 }.logUnit u.val).still =
        (s.pending, s.clock, s.power, { s.governor with limiterEvents := s.governor.limiterEvents + 1 }, s.pins) := State.logUnit_still _ _
    generalize { s with governor.limiterEvents := s.governor.limiterEvents + 1 }.logUnit u.val = v at e ⊢
    simp only [State.still, Prod.mk.injEq] at e
    obtain ⟨e1, e2, e3, e4, -⟩ := e
    have hs : v.power.season = s.power.season := congrArg Power.season e3
    generalize List.range 64 = l
    split
    · refine ⟨e1, e2, fun x => ?_, fun _ => .inl hs⟩
      have h : ∀ e ∈ v.governor.nbuRates, e.2 ≤ 100 := by rw [e4]; exact x.1.2.2.2.2.2.2
      have g := halved_le (l.map (64 * u.val + ·)) h
      show Governor.within v.power.profile { v.governor with nbuRates := _ } ∧ v.power.coherent
      rw [e3, e4]
      rw [e4] at g
      exact ⟨⟨x.1.1, x.1.2.1, x.1.2.2.1, x.1.2.2.2.1, x.1.2.2.2.2.1, x.1.2.2.2.2.2.1, g⟩, x.2⟩
    · refine ⟨e1, e2, fun x => ?_, fun _ => .inl hs⟩
      show Governor.within v.power.profile { v.governor with clocks := _ } ∧ v.power.coherent
      rw [e3, e4]
      refine ⟨⟨(List.length_modify _ _ _).trans x.1.1, fun k hk => ?_, x.1.2.2⟩, x.2⟩
      obtain ⟨i, hi, rfl⟩ := List.mem_iff_getElem.mp hk
      rw [List.getElem_modify]
      have := x.1.2.1 _ (List.getElem_mem (by simpa using hi : i < s.governor.clocks.length))
      split
      · exact Nat.le_trans (Nat.div_le_self _ _) this
      · exact this

/-! ### The pins, the clocks and the sideband -/

theorem endpointReset_still (s : State) : s.endpointReset.still = (s.pending, s.clock, { s.power with pcieUp := false }, s.governor, s.pins) := by
  unfold State.endpointReset
  exact still_foldl _ _ (fun _ _ => State.endStreaming_still _ _) _

theorem pcieReset_same (s : State) : Same s.still s.pcieReset.still := by
  unfold State.pcieReset
  split
  · exact .of_eq rfl
  · rw [endpointReset_still]
    exact same_fields rfl rfl rfl rfl rfl rfl rfl

theorem execPerstNAssert_sound (s t : State) (h : execPerstNAssert s = .next t) : Sound s.still t.still := by
  simp only [execPerstNAssert, Host.Outcome.next.injEq] at h
  subst h
  exact (Same.trans (same_fields rfl rfl rfl rfl rfl rfl rfl) (pcieReset_same { s with pins.perstN := false })).sound

theorem execPerstNDeassert_sound (s t : State) (h : execPerstNDeassert s = .next t) : Sound s.still t.still := by
  simp only [execPerstNDeassert, Host.Outcome.next.injEq] at h
  subst h
  exact (same_fields rfl rfl rfl rfl rfl rfl rfl).sound

theorem execPcieRefclkLoss_sound (s t : State) (h : execPcieRefclkLoss s = .next t) : Sound s.still t.still := by
  simp only [execPcieRefclkLoss, Host.Outcome.next.injEq] at h
  subst h
  split
  · have e : Same s.still ({ s with pins.pcieClk := false } : State).pcieReset.still :=
      (same_fields rfl rfl rfl rfl rfl rfl rfl).trans (pcieReset_same _)
    split
    · exact (e.trans (.of_eq (State.logUnit_still _ _))).sound
    · exact e.sound
  · exact .refl _

theorem execSysRefclkLoss_sound (b : Fin 2) (s t : State) (h : execSysRefclkLoss b s = .next t) : Sound s.still t.still := by
  simp only [execSysRefclkLoss, Host.Outcome.next.injEq] at h
  subst h
  have e : Same s.still ({ s with pins.sysClk := s.pins.sysClk &&& ~~~(1#2 <<< b.val) } : State).still := same_fields rfl rfl rfl rfl rfl rfl rfl
  split
  · exact (e.trans (.of_eq (State.logUnit_still b.val _))).then (powerFails_sound 5 _)
  · exact e.sound

theorem execFlashPgLow_sound (n : Nat) (s t : State) (h : execFlashPgLow n s = .next t) : Sound s.still t.still := by
  simp only [execFlashPgLow, Host.Outcome.next.injEq] at h
  subst h
  have e : Same s.still ({ s with pins.flashPg := false, power.flashDriven := false } : State).still := same_fields rfl rfl rfl rfl rfl rfl rfl
  split
  · exact e.then (powerFails_sound 6 _)
  · exact e.sound

theorem execFlashPgHigh_sound (s t : State) (h : execFlashPgHigh s = .next t) : Sound s.still t.still := by
  simp only [execFlashPgHigh, Host.Outcome.next.injEq] at h
  subst h
  exact (same_fields rfl rfl rfl rfl rfl rfl rfl).sound

theorem execThermSbLoss_sound (s t : State) (h : execThermSbLoss s = .next t) : Sound s.still t.still := by
  simp only [execThermSbLoss, Host.Outcome.next.injEq] at h
  subst h
  exact (same_fields rfl rfl rfl rfl rfl rfl rfl).sound

theorem execMctpControlMessage_sound (m : Bytes) (s t : State) (h : execMctpControlMessage m s = .next t) : Sound s.still t.still := by
  simp only [execMctpControlMessage, Host.Outcome.next.injEq] at h
  subst h
  split
  · split
    · exact (Same.trans (same_fields rfl rfl rfl rfl rfl rfl rfl) (.of_eq (State.emit_still _ _))).sound
    · exact .refl _
  · exact .refl _

theorem execI3cDynamicAddressAssign_sound (a : BitVec 7) (s t : State) (h : execI3cDynamicAddressAssign a s = .next t) : Sound s.still t.still := by
  simp only [execI3cDynamicAddressAssign, Host.Outcome.next.injEq] at h
  subst h
  split
  · exact (same_fields rfl rfl rfl rfl rfl rfl rfl).sound
  · exact .refl _

theorem execFabRefclkLoss_sound (b : Fin 2) (s t : State) (h : execFabRefclkLoss b s = .next t) : Sound s.still t.still := by
  simp only [execFabRefclkLoss, Host.Outcome.next.injEq] at h
  subst h
  split
  · refine Same.sound (Same.trans (y := ({ s with pins.fabClk := s.pins.fabClk &&& ~~~(1#2 <<< b.val) } : State).still)
      (same_fields rfl rfl rfl rfl rfl rfl rfl) (.of_eq ((State.logUnit_still _ _).trans (still_foldl _ _ (fun x i => ?_) _))))
    split
    · rfl
    · exact State.linkDown_still _ _
  · exact .refl _

theorem execFabRefclkRestore_sound (b : Fin 2) (s t : State) (h : execFabRefclkRestore b s = .next t) : Sound s.still t.still := by
  simp only [execFabRefclkRestore, Host.Outcome.next.injEq] at h
  subst h
  exact (same_fields rfl rfl rfl rfl rfl rfl rfl).sound

theorem execTimeFirstLock_sound (s t : State) (h : execTimeFirstLock s = .next t) : Sound s.still t.still := by
  simp only [execTimeFirstLock, Host.Outcome.next.injEq] at h
  subst h
  split
  · split
    · refine Sound.then ?_ (.of_eq (State.endLogInterval_still _))
      exact ⟨rfl, rfl, id, fun _ => .inl rfl⟩
    · exact .refl _
  · exact .refl _

end Sys2Proof.Machine
end

