-- ==== Sys2Proof/Laws/State.lean ====
section
/-!
SUPPORT. What the elementary changes of the state leave alone: one lemma for each field of State and each change.
-/
namespace Sys2Proof.Machine

@[simp] theorem State.emit_pending (o : Output) (s : State) : (s.emit o).pending = s.pending := rfl
@[simp] theorem State.emit_clock (o : Output) (s : State) : (s.emit o).clock = s.clock := rfl
@[simp] theorem State.emit_fabTime (o : Output) (s : State) : (s.emit o).fabTime = s.fabTime := rfl
@[simp] theorem State.emit_free (o : Output) (s : State) : (s.emit o).free = s.free := rfl
@[simp] theorem State.emit_host (o : Output) (s : State) : (s.emit o).host = s.host := rfl
@[simp] theorem State.emit_keys (o : Output) (s : State) : (s.emit o).keys = s.keys := rfl
@[simp] theorem State.emit_tenants (o : Output) (s : State) : (s.emit o).tenants = s.tenants := rfl
@[simp] theorem State.emit_index (o : Output) (s : State) : (s.emit o).index = s.index := rfl
@[simp] theorem State.emit_models (o : Output) (s : State) : (s.emit o).models = s.models := rfl
@[simp] theorem State.emit_tiles (o : Output) (s : State) : (s.emit o).tiles = s.tiles := rfl
@[simp] theorem State.emit_tables (o : Output) (s : State) : (s.emit o).tables = s.tables := rfl
@[simp] theorem State.emit_tiers (o : Output) (s : State) : (s.emit o).tiers = s.tiers := rfl
@[simp] theorem State.emit_flash (o : Output) (s : State) : (s.emit o).flash = s.flash := rfl
@[simp] theorem State.emit_fabric (o : Output) (s : State) : (s.emit o).fabric = s.fabric := rfl
@[simp] theorem State.emit_comp (o : Output) (s : State) : (s.emit o).comp = s.comp := rfl
@[simp] theorem State.emit_power (o : Output) (s : State) : (s.emit o).power = s.power := rfl
@[simp] theorem State.emit_governor (o : Output) (s : State) : (s.emit o).governor = s.governor := rfl
@[simp] theorem State.emit_pins (o : Output) (s : State) : (s.emit o).pins = s.pins := rfl

@[simp] theorem State.setMbx_pending (m : Nat) (b : Mailbox) (s : State) : (s.setMbx m b).pending = s.pending := rfl
@[simp] theorem State.setMbx_clock (m : Nat) (b : Mailbox) (s : State) : (s.setMbx m b).clock = s.clock := rfl
@[simp] theorem State.setMbx_fabTime (m : Nat) (b : Mailbox) (s : State) : (s.setMbx m b).fabTime = s.fabTime := rfl
@[simp] theorem State.setMbx_free (m : Nat) (b : Mailbox) (s : State) : (s.setMbx m b).free = s.free := rfl
@[simp] theorem State.setMbx_out (m : Nat) (b : Mailbox) (s : State) : (s.setMbx m b).out = s.out := rfl
@[simp] theorem State.setMbx_keys (m : Nat) (b : Mailbox) (s : State) : (s.setMbx m b).keys = s.keys := rfl
@[simp] theorem State.setMbx_tenants (m : Nat) (b : Mailbox) (s : State) : (s.setMbx m b).tenants = s.tenants := rfl
@[simp] theorem State.setMbx_index (m : Nat) (b : Mailbox) (s : State) : (s.setMbx m b).index = s.index := rfl
@[simp] theorem State.setMbx_models (m : Nat) (b : Mailbox) (s : State) : (s.setMbx m b).models = s.models := rfl
@[simp] theorem State.setMbx_tiles (m : Nat) (b : Mailbox) (s : State) : (s.setMbx m b).tiles = s.tiles := rfl
@[simp] theorem State.setMbx_tables (m : Nat) (b : Mailbox) (s : State) : (s.setMbx m b).tables = s.tables := rfl
@[simp] theorem State.setMbx_tiers (m : Nat) (b : Mailbox) (s : State) : (s.setMbx m b).tiers = s.tiers := rfl
@[simp] theorem State.setMbx_flash (m : Nat) (b : Mailbox) (s : State) : (s.setMbx m b).flash = s.flash := rfl
@[simp] theorem State.setMbx_fabric (m : Nat) (b : Mailbox) (s : State) : (s.setMbx m b).fabric = s.fabric := rfl
@[simp] theorem State.setMbx_comp (m : Nat) (b : Mailbox) (s : State) : (s.setMbx m b).comp = s.comp := rfl
@[simp] theorem State.setMbx_power (m : Nat) (b : Mailbox) (s : State) : (s.setMbx m b).power = s.power := rfl
@[simp] theorem State.setMbx_governor (m : Nat) (b : Mailbox) (s : State) : (s.setMbx m b).governor = s.governor := rfl
@[simp] theorem State.setMbx_pins (m : Nat) (b : Mailbox) (s : State) : (s.setMbx m b).pins = s.pins := rfl

@[simp] theorem State.updMbx_pending (m : Nat) (f : Mailbox → Mailbox) (s : State) : (s.updMbx m f).pending = s.pending := rfl
@[simp] theorem State.updMbx_clock (m : Nat) (f : Mailbox → Mailbox) (s : State) : (s.updMbx m f).clock = s.clock := rfl
@[simp] theorem State.updMbx_fabTime (m : Nat) (f : Mailbox → Mailbox) (s : State) : (s.updMbx m f).fabTime = s.fabTime := rfl
@[simp] theorem State.updMbx_free (m : Nat) (f : Mailbox → Mailbox) (s : State) : (s.updMbx m f).free = s.free := rfl
@[simp] theorem State.updMbx_out (m : Nat) (f : Mailbox → Mailbox) (s : State) : (s.updMbx m f).out = s.out := rfl
@[simp] theorem State.updMbx_keys (m : Nat) (f : Mailbox → Mailbox) (s : State) : (s.updMbx m f).keys = s.keys := rfl
@[simp] theorem State.updMbx_tenants (m : Nat) (f : Mailbox → Mailbox) (s : State) : (s.updMbx m f).tenants = s.tenants := rfl
@[simp] theorem State.updMbx_index (m : Nat) (f : Mailbox → Mailbox) (s : State) : (s.updMbx m f).index = s.index := rfl
@[simp] theorem State.updMbx_models (m : Nat) (f : Mailbox → Mailbox) (s : State) : (s.updMbx m f).models = s.models := rfl
@[simp] theorem State.updMbx_tiles (m : Nat) (f : Mailbox → Mailbox) (s : State) : (s.updMbx m f).tiles = s.tiles := rfl
@[simp] theorem State.updMbx_tables (m : Nat) (f : Mailbox → Mailbox) (s : State) : (s.updMbx m f).tables = s.tables := rfl
@[simp] theorem State.updMbx_tiers (m : Nat) (f : Mailbox → Mailbox) (s : State) : (s.updMbx m f).tiers = s.tiers := rfl
@[simp] theorem State.updMbx_flash (m : Nat) (f : Mailbox → Mailbox) (s : State) : (s.updMbx m f).flash = s.flash := rfl
@[simp] theorem State.updMbx_fabric (m : Nat) (f : Mailbox → Mailbox) (s : State) : (s.updMbx m f).fabric = s.fabric := rfl
@[simp] theorem State.updMbx_comp (m : Nat) (f : Mailbox → Mailbox) (s : State) : (s.updMbx m f).comp = s.comp := rfl
@[simp] theorem State.updMbx_power (m : Nat) (f : Mailbox → Mailbox) (s : State) : (s.updMbx m f).power = s.power := rfl
@[simp] theorem State.updMbx_governor (m : Nat) (f : Mailbox → Mailbox) (s : State) : (s.updMbx m f).governor = s.governor := rfl
@[simp] theorem State.updMbx_pins (m : Nat) (f : Mailbox → Mailbox) (s : State) : (s.updMbx m f).pins = s.pins := rfl

@[simp] theorem State.setWin_pending (w : Nat) (b : Window) (s : State) : (s.setWin w b).pending = s.pending := rfl
@[simp] theorem State.setWin_clock (w : Nat) (b : Window) (s : State) : (s.setWin w b).clock = s.clock := rfl
@[simp] theorem State.setWin_fabTime (w : Nat) (b : Window) (s : State) : (s.setWin w b).fabTime = s.fabTime := rfl
@[simp] theorem State.setWin_free (w : Nat) (b : Window) (s : State) : (s.setWin w b).free = s.free := rfl
@[simp] theorem State.setWin_out (w : Nat) (b : Window) (s : State) : (s.setWin w b).out = s.out := rfl
@[simp] theorem State.setWin_keys (w : Nat) (b : Window) (s : State) : (s.setWin w b).keys = s.keys := rfl
@[simp] theorem State.setWin_tenants (w : Nat) (b : Window) (s : State) : (s.setWin w b).tenants = s.tenants := rfl
@[simp] theorem State.setWin_index (w : Nat) (b : Window) (s : State) : (s.setWin w b).index = s.index := rfl
@[simp] theorem State.setWin_models (w : Nat) (b : Window) (s : State) : (s.setWin w b).models = s.models := rfl
@[simp] theorem State.setWin_tiles (w : Nat) (b : Window) (s : State) : (s.setWin w b).tiles = s.tiles := rfl
@[simp] theorem State.setWin_tables (w : Nat) (b : Window) (s : State) : (s.setWin w b).tables = s.tables := rfl
@[simp] theorem State.setWin_tiers (w : Nat) (b : Window) (s : State) : (s.setWin w b).tiers = s.tiers := rfl
@[simp] theorem State.setWin_flash (w : Nat) (b : Window) (s : State) : (s.setWin w b).flash = s.flash := rfl
@[simp] theorem State.setWin_fabric (w : Nat) (b : Window) (s : State) : (s.setWin w b).fabric = s.fabric := rfl
@[simp] theorem State.setWin_comp (w : Nat) (b : Window) (s : State) : (s.setWin w b).comp = s.comp := rfl
@[simp] theorem State.setWin_power (w : Nat) (b : Window) (s : State) : (s.setWin w b).power = s.power := rfl
@[simp] theorem State.setWin_governor (w : Nat) (b : Window) (s : State) : (s.setWin w b).governor = s.governor := rfl
@[simp] theorem State.setWin_pins (w : Nat) (b : Window) (s : State) : (s.setWin w b).pins = s.pins := rfl

@[simp] theorem State.updWin_pending (w : Nat) (f : Window → Window) (s : State) : (s.updWin w f).pending = s.pending := rfl
@[simp] theorem State.updWin_clock (w : Nat) (f : Window → Window) (s : State) : (s.updWin w f).clock = s.clock := rfl
@[simp] theorem State.updWin_fabTime (w : Nat) (f : Window → Window) (s : State) : (s.updWin w f).fabTime = s.fabTime := rfl
@[simp] theorem State.updWin_free (w : Nat) (f : Window → Window) (s : State) : (s.updWin w f).free = s.free := rfl
@[simp] theorem State.updWin_out (w : Nat) (f : Window → Window) (s : State) : (s.updWin w f).out = s.out := rfl
@[simp] theorem State.updWin_keys (w : Nat) (f : Window → Window) (s : State) : (s.updWin w f).keys = s.keys := rfl
@[simp] theorem State.updWin_tenants (w : Nat) (f : Window → Window) (s : State) : (s.updWin w f).tenants = s.tenants := rfl
@[simp] theorem State.updWin_index (w : Nat) (f : Window → Window) (s : State) : (s.updWin w f).index = s.index := rfl
@[simp] theorem State.updWin_models (w : Nat) (f : Window → Window) (s : State) : (s.updWin w f).models = s.models := rfl
@[simp] theorem State.updWin_tiles (w : Nat) (f : Window → Window) (s : State) : (s.updWin w f).tiles = s.tiles := rfl
@[simp] theorem State.updWin_tables (w : Nat) (f : Window → Window) (s : State) : (s.updWin w f).tables = s.tables := rfl
@[simp] theorem State.updWin_tiers (w : Nat) (f : Window → Window) (s : State) : (s.updWin w f).tiers = s.tiers := rfl
@[simp] theorem State.updWin_flash (w : Nat) (f : Window → Window) (s : State) : (s.updWin w f).flash = s.flash := rfl
@[simp] theorem State.updWin_fabric (w : Nat) (f : Window → Window) (s : State) : (s.updWin w f).fabric = s.fabric := rfl
@[simp] theorem State.updWin_comp (w : Nat) (f : Window → Window) (s : State) : (s.updWin w f).comp = s.comp := rfl
@[simp] theorem State.updWin_power (w : Nat) (f : Window → Window) (s : State) : (s.updWin w f).power = s.power := rfl
@[simp] theorem State.updWin_governor (w : Nat) (f : Window → Window) (s : State) : (s.updWin w f).governor = s.governor := rfl
@[simp] theorem State.updWin_pins (w : Nat) (f : Window → Window) (s : State) : (s.updWin w f).pins = s.pins := rfl

@[simp] theorem State.updFlight_pending (m : Nat) (tag : Word) (g : Flight → Flight) (s : State) : (s.updFlight m tag g).pending = s.pending := rfl
@[simp] theorem State.updFlight_clock (m : Nat) (tag : Word) (g : Flight → Flight) (s : State) : (s.updFlight m tag g).clock = s.clock := rfl
@[simp] theorem State.updFlight_fabTime (m : Nat) (tag : Word) (g : Flight → Flight) (s : State) : (s.updFlight m tag g).fabTime = s.fabTime := rfl
@[simp] theorem State.updFlight_free (m : Nat) (tag : Word) (g : Flight → Flight) (s : State) : (s.updFlight m tag g).free = s.free := rfl
@[simp] theorem State.updFlight_out (m : Nat) (tag : Word) (g : Flight → Flight) (s : State) : (s.updFlight m tag g).out = s.out := rfl
@[simp] theorem State.updFlight_keys (m : Nat) (tag : Word) (g : Flight → Flight) (s : State) : (s.updFlight m tag g).keys = s.keys := rfl
@[simp] theorem State.updFlight_tenants (m : Nat) (tag : Word) (g : Flight → Flight) (s : State) : (s.updFlight m tag g).tenants = s.tenants := rfl
@[simp] theorem State.updFlight_index (m : Nat) (tag : Word) (g : Flight → Flight) (s : State) : (s.updFlight m tag g).index = s.index := rfl
@[simp] theorem State.updFlight_models (m : Nat) (tag : Word) (g : Flight → Flight) (s : State) : (s.updFlight m tag g).models = s.models := rfl
@[simp] theorem State.updFlight_tiles (m : Nat) (tag : Word) (g : Flight → Flight) (s : State) : (s.updFlight m tag g).tiles = s.tiles := rfl
@[simp] theorem State.updFlight_tables (m : Nat) (tag : Word) (g : Flight → Flight) (s : State) : (s.updFlight m tag g).tables = s.tables := rfl
@[simp] theorem State.updFlight_tiers (m : Nat) (tag : Word) (g : Flight → Flight) (s : State) : (s.updFlight m tag g).tiers = s.tiers := rfl
@[simp] theorem State.updFlight_flash (m : Nat) (tag : Word) (g : Flight → Flight) (s : State) : (s.updFlight m tag g).flash = s.flash := rfl
@[simp] theorem State.updFlight_fabric (m : Nat) (tag : Word) (g : Flight → Flight) (s : State) : (s.updFlight m tag g).fabric = s.fabric := rfl
@[simp] theorem State.updFlight_comp (m : Nat) (tag : Word) (g : Flight → Flight) (s : State) : (s.updFlight m tag g).comp = s.comp := rfl
@[simp] theorem State.updFlight_power (m : Nat) (tag : Word) (g : Flight → Flight) (s : State) : (s.updFlight m tag g).power = s.power := rfl
@[simp] theorem State.updFlight_governor (m : Nat) (tag : Word) (g : Flight → Flight) (s : State) : (s.updFlight m tag g).governor = s.governor := rfl
@[simp] theorem State.updFlight_pins (m : Nat) (tag : Word) (g : Flight → Flight) (s : State) : (s.updFlight m tag g).pins = s.pins := rfl

@[simp] theorem State.setWork_pending (f : Flight) (w : Work) (s : State) : (s.setWork f w).pending = s.pending := rfl
@[simp] theorem State.setWork_clock (f : Flight) (w : Work) (s : State) : (s.setWork f w).clock = s.clock := rfl
@[simp] theorem State.setWork_fabTime (f : Flight) (w : Work) (s : State) : (s.setWork f w).fabTime = s.fabTime := rfl
@[simp] theorem State.setWork_free (f : Flight) (w : Work) (s : State) : (s.setWork f w).free = s.free := rfl
@[simp] theorem State.setWork_out (f : Flight) (w : Work) (s : State) : (s.setWork f w).out = s.out := rfl
@[simp] theorem State.setWork_keys (f : Flight) (w : Work) (s : State) : (s.setWork f w).keys = s.keys := rfl
@[simp] theorem State.setWork_tenants (f : Flight) (w : Work) (s : State) : (s.setWork f w).tenants = s.tenants := rfl
@[simp] theorem State.setWork_index (f : Flight) (w : Work) (s : State) : (s.setWork f w).index = s.index := rfl
@[simp] theorem State.setWork_models (f : Flight) (w : Work) (s : State) : (s.setWork f w).models = s.models := rfl
@[simp] theorem State.setWork_tiles (f : Flight) (w : Work) (s : State) : (s.setWork f w).tiles = s.tiles := rfl
@[simp] theorem State.setWork_tables (f : Flight) (w : Work) (s : State) : (s.setWork f w).tables = s.tables := rfl
@[simp] theorem State.setWork_tiers (f : Flight) (w : Work) (s : State) : (s.setWork f w).tiers = s.tiers := rfl
@[simp] theorem State.setWork_flash (f : Flight) (w : Work) (s : State) : (s.setWork f w).flash = s.flash := rfl
@[simp] theorem State.setWork_fabric (f : Flight) (w : Work) (s : State) : (s.setWork f w).fabric = s.fabric := rfl
@[simp] theorem State.setWork_comp (f : Flight) (w : Work) (s : State) : (s.setWork f w).comp = s.comp := rfl
@[simp] theorem State.setWork_power (f : Flight) (w : Work) (s : State) : (s.setWork f w).power = s.power := rfl
@[simp] theorem State.setWork_governor (f : Flight) (w : Work) (s : State) : (s.setWork f w).governor = s.governor := rfl
@[simp] theorem State.setWork_pins (f : Flight) (w : Work) (s : State) : (s.setWork f w).pins = s.pins := rfl

@[simp] theorem State.charge_pending (t off n : Nat) (s : State) : (s.charge t off n).pending = s.pending := rfl
@[simp] theorem State.charge_clock (t off n : Nat) (s : State) : (s.charge t off n).clock = s.clock := rfl
@[simp] theorem State.charge_fabTime (t off n : Nat) (s : State) : (s.charge t off n).fabTime = s.fabTime := rfl
@[simp] theorem State.charge_free (t off n : Nat) (s : State) : (s.charge t off n).free = s.free := rfl
@[simp] theorem State.charge_out (t off n : Nat) (s : State) : (s.charge t off n).out = s.out := rfl
@[simp] theorem State.charge_host (t off n : Nat) (s : State) : (s.charge t off n).host = s.host := rfl
@[simp] theorem State.charge_keys (t off n : Nat) (s : State) : (s.charge t off n).keys = s.keys := rfl
@[simp] theorem State.charge_index (t off n : Nat) (s : State) : (s.charge t off n).index = s.index := rfl
@[simp] theorem State.charge_models (t off n : Nat) (s : State) : (s.charge t off n).models = s.models := rfl
@[simp] theorem State.charge_tiles (t off n : Nat) (s : State) : (s.charge t off n).tiles = s.tiles := rfl
@[simp] theorem State.charge_tables (t off n : Nat) (s : State) : (s.charge t off n).tables = s.tables := rfl
@[simp] theorem State.charge_tiers (t off n : Nat) (s : State) : (s.charge t off n).tiers = s.tiers := rfl
@[simp] theorem State.charge_flash (t off n : Nat) (s : State) : (s.charge t off n).flash = s.flash := rfl
@[simp] theorem State.charge_fabric (t off n : Nat) (s : State) : (s.charge t off n).fabric = s.fabric := rfl
@[simp] theorem State.charge_comp (t off n : Nat) (s : State) : (s.charge t off n).comp = s.comp := rfl
@[simp] theorem State.charge_power (t off n : Nat) (s : State) : (s.charge t off n).power = s.power := rfl
@[simp] theorem State.charge_governor (t off n : Nat) (s : State) : (s.charge t off n).governor = s.governor := rfl
@[simp] theorem State.charge_pins (t off n : Nat) (s : State) : (s.charge t off n).pins = s.pins := rfl

@[simp] theorem State.countGlobalPv_pending (s : State) : (s.countGlobalPv).pending = s.pending := rfl
@[simp] theorem State.countGlobalPv_clock (s : State) : (s.countGlobalPv).clock = s.clock := rfl
@[simp] theorem State.countGlobalPv_fabTime (s : State) : (s.countGlobalPv).fabTime = s.fabTime := rfl
@[simp] theorem State.countGlobalPv_free (s : State) : (s.countGlobalPv).free = s.free := rfl
@[simp] theorem State.countGlobalPv_out (s : State) : (s.countGlobalPv).out = s.out := rfl
@[simp] theorem State.countGlobalPv_keys (s : State) : (s.countGlobalPv).keys = s.keys := rfl
@[simp] theorem State.countGlobalPv_tenants (s : State) : (s.countGlobalPv).tenants = s.tenants := rfl
@[simp] theorem State.countGlobalPv_index (s : State) : (s.countGlobalPv).index = s.index := rfl
@[simp] theorem State.countGlobalPv_models (s : State) : (s.countGlobalPv).models = s.models := rfl
@[simp] theorem State.countGlobalPv_tiles (s : State) : (s.countGlobalPv).tiles = s.tiles := rfl
@[simp] theorem State.countGlobalPv_tables (s : State) : (s.countGlobalPv).tables = s.tables := rfl
@[simp] theorem State.countGlobalPv_tiers (s : State) : (s.countGlobalPv).tiers = s.tiers := rfl
@[simp] theorem State.countGlobalPv_flash (s : State) : (s.countGlobalPv).flash = s.flash := rfl
@[simp] theorem State.countGlobalPv_fabric (s : State) : (s.countGlobalPv).fabric = s.fabric := rfl
@[simp] theorem State.countGlobalPv_comp (s : State) : (s.countGlobalPv).comp = s.comp := rfl
@[simp] theorem State.countGlobalPv_power (s : State) : (s.countGlobalPv).power = s.power := rfl
@[simp] theorem State.countGlobalPv_governor (s : State) : (s.countGlobalPv).governor = s.governor := rfl
@[simp] theorem State.countGlobalPv_pins (s : State) : (s.countGlobalPv).pins = s.pins := rfl

@[simp] theorem State.updVievo_pending (p : Nat) (g : Port → Port) (s : State) : (s.updVievo p g).pending = s.pending := rfl
@[simp] theorem State.updVievo_clock (p : Nat) (g : Port → Port) (s : State) : (s.updVievo p g).clock = s.clock := rfl
@[simp] theorem State.updVievo_fabTime (p : Nat) (g : Port → Port) (s : State) : (s.updVievo p g).fabTime = s.fabTime := rfl
@[simp] theorem State.updVievo_free (p : Nat) (g : Port → Port) (s : State) : (s.updVievo p g).free = s.free := rfl
@[simp] theorem State.updVievo_out (p : Nat) (g : Port → Port) (s : State) : (s.updVievo p g).out = s.out := rfl
@[simp] theorem State.updVievo_host (p : Nat) (g : Port → Port) (s : State) : (s.updVievo p g).host = s.host := rfl
@[simp] theorem State.updVievo_keys (p : Nat) (g : Port → Port) (s : State) : (s.updVievo p g).keys = s.keys := rfl
@[simp] theorem State.updVievo_tenants (p : Nat) (g : Port → Port) (s : State) : (s.updVievo p g).tenants = s.tenants := rfl
@[simp] theorem State.updVievo_index (p : Nat) (g : Port → Port) (s : State) : (s.updVievo p g).index = s.index := rfl
@[simp] theorem State.updVievo_models (p : Nat) (g : Port → Port) (s : State) : (s.updVievo p g).models = s.models := rfl
@[simp] theorem State.updVievo_tiles (p : Nat) (g : Port → Port) (s : State) : (s.updVievo p g).tiles = s.tiles := rfl
@[simp] theorem State.updVievo_tables (p : Nat) (g : Port → Port) (s : State) : (s.updVievo p g).tables = s.tables := rfl
@[simp] theorem State.updVievo_tiers (p : Nat) (g : Port → Port) (s : State) : (s.updVievo p g).tiers = s.tiers := rfl
@[simp] theorem State.updVievo_flash (p : Nat) (g : Port → Port) (s : State) : (s.updVievo p g).flash = s.flash := rfl
@[simp] theorem State.updVievo_comp (p : Nat) (g : Port → Port) (s : State) : (s.updVievo p g).comp = s.comp := rfl
@[simp] theorem State.updVievo_power (p : Nat) (g : Port → Port) (s : State) : (s.updVievo p g).power = s.power := rfl
@[simp] theorem State.updVievo_governor (p : Nat) (g : Port → Port) (s : State) : (s.updVievo p g).governor = s.governor := rfl
@[simp] theorem State.updVievo_pins (p : Nat) (g : Port → Port) (s : State) : (s.updVievo p g).pins = s.pins := rfl

@[simp] theorem State.updStream_pending (st : Nat) (g : Stream → Stream) (s : State) : (s.updStream st g).pending = s.pending := rfl
@[simp] theorem State.updStream_clock (st : Nat) (g : Stream → Stream) (s : State) : (s.updStream st g).clock = s.clock := rfl
@[simp] theorem State.updStream_fabTime (st : Nat) (g : Stream → Stream) (s : State) : (s.updStream st g).fabTime = s.fabTime := rfl
@[simp] theorem State.updStream_free (st : Nat) (g : Stream → Stream) (s : State) : (s.updStream st g).free = s.free := rfl
@[simp] theorem State.updStream_out (st : Nat) (g : Stream → Stream) (s : State) : (s.updStream st g).out = s.out := rfl
@[simp] theorem State.updStream_keys (st : Nat) (g : Stream → Stream) (s : State) : (s.updStream st g).keys = s.keys := rfl
@[simp] theorem State.updStream_tenants (st : Nat) (g : Stream → Stream) (s : State) : (s.updStream st g).tenants = s.tenants := rfl
@[simp] theorem State.updStream_index (st : Nat) (g : Stream → Stream) (s : State) : (s.updStream st g).index = s.index := rfl
@[simp] theorem State.updStream_models (st : Nat) (g : Stream → Stream) (s : State) : (s.updStream st g).models = s.models := rfl
@[simp] theorem State.updStream_tiles (st : Nat) (g : Stream → Stream) (s : State) : (s.updStream st g).tiles = s.tiles := rfl
@[simp] theorem State.updStream_tables (st : Nat) (g : Stream → Stream) (s : State) : (s.updStream st g).tables = s.tables := rfl
@[simp] theorem State.updStream_tiers (st : Nat) (g : Stream → Stream) (s : State) : (s.updStream st g).tiers = s.tiers := rfl
@[simp] theorem State.updStream_flash (st : Nat) (g : Stream → Stream) (s : State) : (s.updStream st g).flash = s.flash := rfl
@[simp] theorem State.updStream_fabric (st : Nat) (g : Stream → Stream) (s : State) : (s.updStream st g).fabric = s.fabric := rfl
@[simp] theorem State.updStream_comp (st : Nat) (g : Stream → Stream) (s : State) : (s.updStream st g).comp = s.comp := rfl
@[simp] theorem State.updStream_power (st : Nat) (g : Stream → Stream) (s : State) : (s.updStream st g).power = s.power := rfl
@[simp] theorem State.updStream_governor (st : Nat) (g : Stream → Stream) (s : State) : (s.updStream st g).governor = s.governor := rfl
@[simp] theorem State.updStream_pins (st : Nat) (g : Stream → Stream) (s : State) : (s.updStream st g).pins = s.pins := rfl

@[simp] theorem State.dropDone_pending (d : Done) (s : State) : (s.dropDone d).pending = s.pending := rfl
@[simp] theorem State.dropDone_clock (d : Done) (s : State) : (s.dropDone d).clock = s.clock := rfl
@[simp] theorem State.dropDone_fabTime (d : Done) (s : State) : (s.dropDone d).fabTime = s.fabTime := rfl
@[simp] theorem State.dropDone_free (d : Done) (s : State) : (s.dropDone d).free = s.free := rfl
@[simp] theorem State.dropDone_out (d : Done) (s : State) : (s.dropDone d).out = s.out := rfl
@[simp] theorem State.dropDone_keys (d : Done) (s : State) : (s.dropDone d).keys = s.keys := rfl
@[simp] theorem State.dropDone_tenants (d : Done) (s : State) : (s.dropDone d).tenants = s.tenants := rfl
@[simp] theorem State.dropDone_index (d : Done) (s : State) : (s.dropDone d).index = s.index := rfl
@[simp] theorem State.dropDone_models (d : Done) (s : State) : (s.dropDone d).models = s.models := rfl
@[simp] theorem State.dropDone_tiles (d : Done) (s : State) : (s.dropDone d).tiles = s.tiles := rfl
@[simp] theorem State.dropDone_tables (d : Done) (s : State) : (s.dropDone d).tables = s.tables := rfl
@[simp] theorem State.dropDone_tiers (d : Done) (s : State) : (s.dropDone d).tiers = s.tiers := rfl
@[simp] theorem State.dropDone_flash (d : Done) (s : State) : (s.dropDone d).flash = s.flash := rfl
@[simp] theorem State.dropDone_fabric (d : Done) (s : State) : (s.dropDone d).fabric = s.fabric := rfl
@[simp] theorem State.dropDone_comp (d : Done) (s : State) : (s.dropDone d).comp = s.comp := rfl
@[simp] theorem State.dropDone_power (d : Done) (s : State) : (s.dropDone d).power = s.power := rfl
@[simp] theorem State.dropDone_governor (d : Done) (s : State) : (s.dropDone d).governor = s.governor := rfl
@[simp] theorem State.dropDone_pins (d : Done) (s : State) : (s.dropDone d).pins = s.pins := rfl

@[simp] theorem State.setColl_pending (c : Collection) (s : State) : (s.setColl c).pending = s.pending := rfl
@[simp] theorem State.setColl_clock (c : Collection) (s : State) : (s.setColl c).clock = s.clock := rfl
@[simp] theorem State.setColl_fabTime (c : Collection) (s : State) : (s.setColl c).fabTime = s.fabTime := rfl
@[simp] theorem State.setColl_free (c : Collection) (s : State) : (s.setColl c).free = s.free := rfl
@[simp] theorem State.setColl_out (c : Collection) (s : State) : (s.setColl c).out = s.out := rfl
@[simp] theorem State.setColl_host (c : Collection) (s : State) : (s.setColl c).host = s.host := rfl
@[simp] theorem State.setColl_keys (c : Collection) (s : State) : (s.setColl c).keys = s.keys := rfl
@[simp] theorem State.setColl_tenants (c : Collection) (s : State) : (s.setColl c).tenants = s.tenants := rfl
@[simp] theorem State.setColl_models (c : Collection) (s : State) : (s.setColl c).models = s.models := rfl
@[simp] theorem State.setColl_tiles (c : Collection) (s : State) : (s.setColl c).tiles = s.tiles := rfl
@[simp] theorem State.setColl_tables (c : Collection) (s : State) : (s.setColl c).tables = s.tables := rfl
@[simp] theorem State.setColl_tiers (c : Collection) (s : State) : (s.setColl c).tiers = s.tiers := rfl
@[simp] theorem State.setColl_flash (c : Collection) (s : State) : (s.setColl c).flash = s.flash := rfl
@[simp] theorem State.setColl_fabric (c : Collection) (s : State) : (s.setColl c).fabric = s.fabric := rfl
@[simp] theorem State.setColl_comp (c : Collection) (s : State) : (s.setColl c).comp = s.comp := rfl
@[simp] theorem State.setColl_power (c : Collection) (s : State) : (s.setColl c).power = s.power := rfl
@[simp] theorem State.setColl_governor (c : Collection) (s : State) : (s.setColl c).governor = s.governor := rfl
@[simp] theorem State.setColl_pins (c : Collection) (s : State) : (s.setColl c).pins = s.pins := rfl

@[simp] theorem State.updColl_pending (id : Nat) (g : Collection → Collection) (s : State) : (s.updColl id g).pending = s.pending := rfl
@[simp] theorem State.updColl_clock (id : Nat) (g : Collection → Collection) (s : State) : (s.updColl id g).clock = s.clock := rfl
@[simp] theorem State.updColl_fabTime (id : Nat) (g : Collection → Collection) (s : State) : (s.updColl id g).fabTime = s.fabTime := rfl
@[simp] theorem State.updColl_free (id : Nat) (g : Collection → Collection) (s : State) : (s.updColl id g).free = s.free := rfl
@[simp] theorem State.updColl_out (id : Nat) (g : Collection → Collection) (s : State) : (s.updColl id g).out = s.out := rfl
@[simp] theorem State.updColl_host (id : Nat) (g : Collection → Collection) (s : State) : (s.updColl id g).host = s.host := rfl
@[simp] theorem State.updColl_keys (id : Nat) (g : Collection → Collection) (s : State) : (s.updColl id g).keys = s.keys := rfl
@[simp] theorem State.updColl_tenants (id : Nat) (g : Collection → Collection) (s : State) : (s.updColl id g).tenants = s.tenants := rfl
@[simp] theorem State.updColl_models (id : Nat) (g : Collection → Collection) (s : State) : (s.updColl id g).models = s.models := rfl
@[simp] theorem State.updColl_tiles (id : Nat) (g : Collection → Collection) (s : State) : (s.updColl id g).tiles = s.tiles := rfl
@[simp] theorem State.updColl_tables (id : Nat) (g : Collection → Collection) (s : State) : (s.updColl id g).tables = s.tables := rfl
@[simp] theorem State.updColl_tiers (id : Nat) (g : Collection → Collection) (s : State) : (s.updColl id g).tiers = s.tiers := rfl
@[simp] theorem State.updColl_flash (id : Nat) (g : Collection → Collection) (s : State) : (s.updColl id g).flash = s.flash := rfl
@[simp] theorem State.updColl_fabric (id : Nat) (g : Collection → Collection) (s : State) : (s.updColl id g).fabric = s.fabric := rfl
@[simp] theorem State.updColl_comp (id : Nat) (g : Collection → Collection) (s : State) : (s.updColl id g).comp = s.comp := rfl
@[simp] theorem State.updColl_power (id : Nat) (g : Collection → Collection) (s : State) : (s.updColl id g).power = s.power := rfl
@[simp] theorem State.updColl_governor (id : Nat) (g : Collection → Collection) (s : State) : (s.updColl id g).governor = s.governor := rfl
@[simp] theorem State.updColl_pins (id : Nat) (g : Collection → Collection) (s : State) : (s.updColl id g).pins = s.pins := rfl

@[simp] theorem State.updDie_pending (d : Nat) (g : Die → Die) (s : State) : (s.updDie d g).pending = s.pending := rfl
@[simp] theorem State.updDie_clock (d : Nat) (g : Die → Die) (s : State) : (s.updDie d g).clock = s.clock := rfl
@[simp] theorem State.updDie_fabTime (d : Nat) (g : Die → Die) (s : State) : (s.updDie d g).fabTime = s.fabTime := rfl
@[simp] theorem State.updDie_free (d : Nat) (g : Die → Die) (s : State) : (s.updDie d g).free = s.free := rfl
@[simp] theorem State.updDie_out (d : Nat) (g : Die → Die) (s : State) : (s.updDie d g).out = s.out := rfl
@[simp] theorem State.updDie_host (d : Nat) (g : Die → Die) (s : State) : (s.updDie d g).host = s.host := rfl
@[simp] theorem State.updDie_keys (d : Nat) (g : Die → Die) (s : State) : (s.updDie d g).keys = s.keys := rfl
@[simp] theorem State.updDie_tenants (d : Nat) (g : Die → Die) (s : State) : (s.updDie d g).tenants = s.tenants := rfl
@[simp] theorem State.updDie_index (d : Nat) (g : Die → Die) (s : State) : (s.updDie d g).index = s.index := rfl
@[simp] theorem State.updDie_models (d : Nat) (g : Die → Die) (s : State) : (s.updDie d g).models = s.models := rfl
@[simp] theorem State.updDie_tiles (d : Nat) (g : Die → Die) (s : State) : (s.updDie d g).tiles = s.tiles := rfl
@[simp] theorem State.updDie_tables (d : Nat) (g : Die → Die) (s : State) : (s.updDie d g).tables = s.tables := rfl
@[simp] theorem State.updDie_tiers (d : Nat) (g : Die → Die) (s : State) : (s.updDie d g).tiers = s.tiers := rfl
@[simp] theorem State.updDie_fabric (d : Nat) (g : Die → Die) (s : State) : (s.updDie d g).fabric = s.fabric := rfl
@[simp] theorem State.updDie_comp (d : Nat) (g : Die → Die) (s : State) : (s.updDie d g).comp = s.comp := rfl
@[simp] theorem State.updDie_power (d : Nat) (g : Die → Die) (s : State) : (s.updDie d g).power = s.power := rfl
@[simp] theorem State.updDie_governor (d : Nat) (g : Die → Die) (s : State) : (s.updDie d g).governor = s.governor := rfl
@[simp] theorem State.updDie_pins (d : Nat) (g : Die → Die) (s : State) : (s.updDie d g).pins = s.pins := rfl

@[simp] theorem State.updQuad_pending (q : Nat) (g : QuadBlock → QuadBlock) (s : State) : (s.updQuad q g).pending = s.pending := rfl
@[simp] theorem State.updQuad_clock (q : Nat) (g : QuadBlock → QuadBlock) (s : State) : (s.updQuad q g).clock = s.clock := rfl
@[simp] theorem State.updQuad_fabTime (q : Nat) (g : QuadBlock → QuadBlock) (s : State) : (s.updQuad q g).fabTime = s.fabTime := rfl
@[simp] theorem State.updQuad_free (q : Nat) (g : QuadBlock → QuadBlock) (s : State) : (s.updQuad q g).free = s.free := rfl
@[simp] theorem State.updQuad_out (q : Nat) (g : QuadBlock → QuadBlock) (s : State) : (s.updQuad q g).out = s.out := rfl
@[simp] theorem State.updQuad_host (q : Nat) (g : QuadBlock → QuadBlock) (s : State) : (s.updQuad q g).host = s.host := rfl
@[simp] theorem State.updQuad_keys (q : Nat) (g : QuadBlock → QuadBlock) (s : State) : (s.updQuad q g).keys = s.keys := rfl
@[simp] theorem State.updQuad_tenants (q : Nat) (g : QuadBlock → QuadBlock) (s : State) : (s.updQuad q g).tenants = s.tenants := rfl
@[simp] theorem State.updQuad_index (q : Nat) (g : QuadBlock → QuadBlock) (s : State) : (s.updQuad q g).index = s.index := rfl
@[simp] theorem State.updQuad_models (q : Nat) (g : QuadBlock → QuadBlock) (s : State) : (s.updQuad q g).models = s.models := rfl
@[simp] theorem State.updQuad_tiles (q : Nat) (g : QuadBlock → QuadBlock) (s : State) : (s.updQuad q g).tiles = s.tiles := rfl
@[simp] theorem State.updQuad_tables (q : Nat) (g : QuadBlock → QuadBlock) (s : State) : (s.updQuad q g).tables = s.tables := rfl
@[simp] theorem State.updQuad_tiers (q : Nat) (g : QuadBlock → QuadBlock) (s : State) : (s.updQuad q g).tiers = s.tiers := rfl
@[simp] theorem State.updQuad_fabric (q : Nat) (g : QuadBlock → QuadBlock) (s : State) : (s.updQuad q g).fabric = s.fabric := rfl
@[simp] theorem State.updQuad_comp (q : Nat) (g : QuadBlock → QuadBlock) (s : State) : (s.updQuad q g).comp = s.comp := rfl
@[simp] theorem State.updQuad_power (q : Nat) (g : QuadBlock → QuadBlock) (s : State) : (s.updQuad q g).power = s.power := rfl
@[simp] theorem State.updQuad_governor (q : Nat) (g : QuadBlock → QuadBlock) (s : State) : (s.updQuad q g).governor = s.governor := rfl
@[simp] theorem State.updQuad_pins (q : Nat) (g : QuadBlock → QuadBlock) (s : State) : (s.updQuad q g).pins = s.pins := rfl

@[simp] theorem State.updTable_pending (id : Nat) (g : Table → Table) (s : State) : (s.updTable id g).pending = s.pending := rfl
@[simp] theorem State.updTable_clock (id : Nat) (g : Table → Table) (s : State) : (s.updTable id g).clock = s.clock := rfl
@[simp] theorem State.updTable_fabTime (id : Nat) (g : Table → Table) (s : State) : (s.updTable id g).fabTime = s.fabTime := rfl
@[simp] theorem State.updTable_free (id : Nat) (g : Table → Table) (s : State) : (s.updTable id g).free = s.free := rfl
@[simp] theorem State.updTable_out (id : Nat) (g : Table → Table) (s : State) : (s.updTable id g).out = s.out := rfl
@[simp] theorem State.updTable_host (id : Nat) (g : Table → Table) (s : State) : (s.updTable id g).host = s.host := rfl
@[simp] theorem State.updTable_keys (id : Nat) (g : Table → Table) (s : State) : (s.updTable id g).keys = s.keys := rfl
@[simp] theorem State.updTable_tenants (id : Nat) (g : Table → Table) (s : State) : (s.updTable id g).tenants = s.tenants := rfl
@[simp] theorem State.updTable_index (id : Nat) (g : Table → Table) (s : State) : (s.updTable id g).index = s.index := rfl
@[simp] theorem State.updTable_models (id : Nat) (g : Table → Table) (s : State) : (s.updTable id g).models = s.models := rfl
@[simp] theorem State.updTable_tiles (id : Nat) (g : Table → Table) (s : State) : (s.updTable id g).tiles = s.tiles := rfl
@[simp] theorem State.updTable_tiers (id : Nat) (g : Table → Table) (s : State) : (s.updTable id g).tiers = s.tiers := rfl
@[simp] theorem State.updTable_flash (id : Nat) (g : Table → Table) (s : State) : (s.updTable id g).flash = s.flash := rfl
@[simp] theorem State.updTable_fabric (id : Nat) (g : Table → Table) (s : State) : (s.updTable id g).fabric = s.fabric := rfl
@[simp] theorem State.updTable_comp (id : Nat) (g : Table → Table) (s : State) : (s.updTable id g).comp = s.comp := rfl
@[simp] theorem State.updTable_power (id : Nat) (g : Table → Table) (s : State) : (s.updTable id g).power = s.power := rfl
@[simp] theorem State.updTable_governor (id : Nat) (g : Table → Table) (s : State) : (s.updTable id g).governor = s.governor := rfl
@[simp] theorem State.updTable_pins (id : Nat) (g : Table → Table) (s : State) : (s.updTable id g).pins = s.pins := rfl

@[simp] theorem State.updComp_pending (id : Nat) (g : Composition → Composition) (s : State) : (s.updComp id g).pending = s.pending := rfl
@[simp] theorem State.updComp_clock (id : Nat) (g : Composition → Composition) (s : State) : (s.updComp id g).clock = s.clock := rfl
@[simp] theorem State.updComp_fabTime (id : Nat) (g : Composition → Composition) (s : State) : (s.updComp id g).fabTime = s.fabTime := rfl
@[simp] theorem State.updComp_free (id : Nat) (g : Composition → Composition) (s : State) : (s.updComp id g).free = s.free := rfl
@[simp] theorem State.updComp_out (id : Nat) (g : Composition → Composition) (s : State) : (s.updComp id g).out = s.out := rfl
@[simp] theorem State.updComp_host (id : Nat) (g : Composition → Composition) (s : State) : (s.updComp id g).host = s.host := rfl
@[simp] theorem State.updComp_keys (id : Nat) (g : Composition → Composition) (s : State) : (s.updComp id g).keys = s.keys := rfl
@[simp] theorem State.updComp_tenants (id : Nat) (g : Composition → Composition) (s : State) : (s.updComp id g).tenants = s.tenants := rfl
@[simp] theorem State.updComp_index (id : Nat) (g : Composition → Composition) (s : State) : (s.updComp id g).index = s.index := rfl
@[simp] theorem State.updComp_models (id : Nat) (g : Composition → Composition) (s : State) : (s.updComp id g).models = s.models := rfl
@[simp] theorem State.updComp_tiles (id : Nat) (g : Composition → Composition) (s : State) : (s.updComp id g).tiles = s.tiles := rfl
@[simp] theorem State.updComp_tables (id : Nat) (g : Composition → Composition) (s : State) : (s.updComp id g).tables = s.tables := rfl
@[simp] theorem State.updComp_tiers (id : Nat) (g : Composition → Composition) (s : State) : (s.updComp id g).tiers = s.tiers := rfl
@[simp] theorem State.updComp_flash (id : Nat) (g : Composition → Composition) (s : State) : (s.updComp id g).flash = s.flash := rfl
@[simp] theorem State.updComp_fabric (id : Nat) (g : Composition → Composition) (s : State) : (s.updComp id g).fabric = s.fabric := rfl
@[simp] theorem State.updComp_power (id : Nat) (g : Composition → Composition) (s : State) : (s.updComp id g).power = s.power := rfl
@[simp] theorem State.updComp_governor (id : Nat) (g : Composition → Composition) (s : State) : (s.updComp id g).governor = s.governor := rfl
@[simp] theorem State.updComp_pins (id : Nat) (g : Composition → Composition) (s : State) : (s.updComp id g).pins = s.pins := rfl

@[simp] theorem State.updServed_pending (id shard : Nat) (g : Served → Served) (s : State) : (s.updServed id shard g).pending = s.pending := rfl
@[simp] theorem State.updServed_clock (id shard : Nat) (g : Served → Served) (s : State) : (s.updServed id shard g).clock = s.clock := rfl
@[simp] theorem State.updServed_fabTime (id shard : Nat) (g : Served → Served) (s : State) : (s.updServed id shard g).fabTime = s.fabTime := rfl
@[simp] theorem State.updServed_free (id shard : Nat) (g : Served → Served) (s : State) : (s.updServed id shard g).free = s.free := rfl
@[simp] theorem State.updServed_out (id shard : Nat) (g : Served → Served) (s : State) : (s.updServed id shard g).out = s.out := rfl
@[simp] theorem State.updServed_host (id shard : Nat) (g : Served → Served) (s : State) : (s.updServed id shard g).host = s.host := rfl
@[simp] theorem State.updServed_keys (id shard : Nat) (g : Served → Served) (s : State) : (s.updServed id shard g).keys = s.keys := rfl
@[simp] theorem State.updServed_tenants (id shard : Nat) (g : Served → Served) (s : State) : (s.updServed id shard g).tenants = s.tenants := rfl
@[simp] theorem State.updServed_index (id shard : Nat) (g : Served → Served) (s : State) : (s.updServed id shard g).index = s.index := rfl
@[simp] theorem State.updServed_models (id shard : Nat) (g : Served → Served) (s : State) : (s.updServed id shard g).models = s.models := rfl
@[simp] theorem State.updServed_tiles (id shard : Nat) (g : Served → Served) (s : State) : (s.updServed id shard g).tiles = s.tiles := rfl
@[simp] theorem State.updServed_tables (id shard : Nat) (g : Served → Served) (s : State) : (s.updServed id shard g).tables = s.tables := rfl
@[simp] theorem State.updServed_tiers (id shard : Nat) (g : Served → Served) (s : State) : (s.updServed id shard g).tiers = s.tiers := rfl
@[simp] theorem State.updServed_flash (id shard : Nat) (g : Served → Served) (s : State) : (s.updServed id shard g).flash = s.flash := rfl
@[simp] theorem State.updServed_fabric (id shard : Nat) (g : Served → Served) (s : State) : (s.updServed id shard g).fabric = s.fabric := rfl
@[simp] theorem State.updServed_power (id shard : Nat) (g : Served → Served) (s : State) : (s.updServed id shard g).power = s.power := rfl
@[simp] theorem State.updServed_governor (id shard : Nat) (g : Served → Served) (s : State) : (s.updServed id shard g).governor = s.governor := rfl
@[simp] theorem State.updServed_pins (id shard : Nat) (g : Served → Served) (s : State) : (s.updServed id shard g).pins = s.pins := rfl

@[simp] theorem State.retain_pending (kind : Nat) (s : State) : (s.retain kind).pending = s.pending := rfl
@[simp] theorem State.retain_clock (kind : Nat) (s : State) : (s.retain kind).clock = s.clock := rfl
@[simp] theorem State.retain_fabTime (kind : Nat) (s : State) : (s.retain kind).fabTime = s.fabTime := rfl
@[simp] theorem State.retain_free (kind : Nat) (s : State) : (s.retain kind).free = s.free := rfl
@[simp] theorem State.retain_out (kind : Nat) (s : State) : (s.retain kind).out = s.out := rfl
@[simp] theorem State.retain_host (kind : Nat) (s : State) : (s.retain kind).host = s.host := rfl
@[simp] theorem State.retain_keys (kind : Nat) (s : State) : (s.retain kind).keys = s.keys := rfl
@[simp] theorem State.retain_tenants (kind : Nat) (s : State) : (s.retain kind).tenants = s.tenants := rfl
@[simp] theorem State.retain_index (kind : Nat) (s : State) : (s.retain kind).index = s.index := rfl
@[simp] theorem State.retain_models (kind : Nat) (s : State) : (s.retain kind).models = s.models := rfl
@[simp] theorem State.retain_tiles (kind : Nat) (s : State) : (s.retain kind).tiles = s.tiles := rfl
@[simp] theorem State.retain_tables (kind : Nat) (s : State) : (s.retain kind).tables = s.tables := rfl
@[simp] theorem State.retain_tiers (kind : Nat) (s : State) : (s.retain kind).tiers = s.tiers := rfl
@[simp] theorem State.retain_flash (kind : Nat) (s : State) : (s.retain kind).flash = s.flash := rfl
@[simp] theorem State.retain_fabric (kind : Nat) (s : State) : (s.retain kind).fabric = s.fabric := rfl
@[simp] theorem State.retain_comp (kind : Nat) (s : State) : (s.retain kind).comp = s.comp := rfl
@[simp] theorem State.retain_governor (kind : Nat) (s : State) : (s.retain kind).governor = s.governor := rfl
@[simp] theorem State.retain_pins (kind : Nat) (s : State) : (s.retain kind).pins = s.pins := rfl

@[simp] theorem State.setPhase_pending (tr : Nat) (p : SpdmPhase) (s : State) : (s.setPhase tr p).pending = s.pending := rfl
@[simp] theorem State.setPhase_clock (tr : Nat) (p : SpdmPhase) (s : State) : (s.setPhase tr p).clock = s.clock := rfl
@[simp] theorem State.setPhase_fabTime (tr : Nat) (p : SpdmPhase) (s : State) : (s.setPhase tr p).fabTime = s.fabTime := rfl
@[simp] theorem State.setPhase_free (tr : Nat) (p : SpdmPhase) (s : State) : (s.setPhase tr p).free = s.free := rfl
@[simp] theorem State.setPhase_out (tr : Nat) (p : SpdmPhase) (s : State) : (s.setPhase tr p).out = s.out := rfl
@[simp] theorem State.setPhase_host (tr : Nat) (p : SpdmPhase) (s : State) : (s.setPhase tr p).host = s.host := rfl
@[simp] theorem State.setPhase_tenants (tr : Nat) (p : SpdmPhase) (s : State) : (s.setPhase tr p).tenants = s.tenants := rfl
@[simp] theorem State.setPhase_index (tr : Nat) (p : SpdmPhase) (s : State) : (s.setPhase tr p).index = s.index := rfl
@[simp] theorem State.setPhase_models (tr : Nat) (p : SpdmPhase) (s : State) : (s.setPhase tr p).models = s.models := rfl
@[simp] theorem State.setPhase_tiles (tr : Nat) (p : SpdmPhase) (s : State) : (s.setPhase tr p).tiles = s.tiles := rfl
@[simp] theorem State.setPhase_tables (tr : Nat) (p : SpdmPhase) (s : State) : (s.setPhase tr p).tables = s.tables := rfl
@[simp] theorem State.setPhase_tiers (tr : Nat) (p : SpdmPhase) (s : State) : (s.setPhase tr p).tiers = s.tiers := rfl
@[simp] theorem State.setPhase_flash (tr : Nat) (p : SpdmPhase) (s : State) : (s.setPhase tr p).flash = s.flash := rfl
@[simp] theorem State.setPhase_fabric (tr : Nat) (p : SpdmPhase) (s : State) : (s.setPhase tr p).fabric = s.fabric := rfl
@[simp] theorem State.setPhase_comp (tr : Nat) (p : SpdmPhase) (s : State) : (s.setPhase tr p).comp = s.comp := rfl
@[simp] theorem State.setPhase_power (tr : Nat) (p : SpdmPhase) (s : State) : (s.setPhase tr p).power = s.power := rfl
@[simp] theorem State.setPhase_governor (tr : Nat) (p : SpdmPhase) (s : State) : (s.setPhase tr p).governor = s.governor := rfl
@[simp] theorem State.setPhase_pins (tr : Nat) (p : SpdmPhase) (s : State) : (s.setPhase tr p).pins = s.pins := rfl

@[simp] theorem State.closeMgmt_pending (s : State) : (s.closeMgmt).pending = s.pending := rfl
@[simp] theorem State.closeMgmt_clock (s : State) : (s.closeMgmt).clock = s.clock := rfl
@[simp] theorem State.closeMgmt_fabTime (s : State) : (s.closeMgmt).fabTime = s.fabTime := rfl
@[simp] theorem State.closeMgmt_free (s : State) : (s.closeMgmt).free = s.free := rfl
@[simp] theorem State.closeMgmt_out (s : State) : (s.closeMgmt).out = s.out := rfl
@[simp] theorem State.closeMgmt_host (s : State) : (s.closeMgmt).host = s.host := rfl
@[simp] theorem State.closeMgmt_tenants (s : State) : (s.closeMgmt).tenants = s.tenants := rfl
@[simp] theorem State.closeMgmt_index (s : State) : (s.closeMgmt).index = s.index := rfl
@[simp] theorem State.closeMgmt_models (s : State) : (s.closeMgmt).models = s.models := rfl
@[simp] theorem State.closeMgmt_tiles (s : State) : (s.closeMgmt).tiles = s.tiles := rfl
@[simp] theorem State.closeMgmt_tables (s : State) : (s.closeMgmt).tables = s.tables := rfl
@[simp] theorem State.closeMgmt_tiers (s : State) : (s.closeMgmt).tiers = s.tiers := rfl
@[simp] theorem State.closeMgmt_flash (s : State) : (s.closeMgmt).flash = s.flash := rfl
@[simp] theorem State.closeMgmt_fabric (s : State) : (s.closeMgmt).fabric = s.fabric := rfl
@[simp] theorem State.closeMgmt_comp (s : State) : (s.closeMgmt).comp = s.comp := rfl
@[simp] theorem State.closeMgmt_power (s : State) : (s.closeMgmt).power = s.power := rfl
@[simp] theorem State.closeMgmt_governor (s : State) : (s.closeMgmt).governor = s.governor := rfl
@[simp] theorem State.closeMgmt_pins (s : State) : (s.closeMgmt).pins = s.pins := rfl

@[simp] theorem State.updPort_pending (p : Nat) (g : MgmtPort → MgmtPort) (s : State) : (s.updPort p g).pending = s.pending := rfl
@[simp] theorem State.updPort_clock (p : Nat) (g : MgmtPort → MgmtPort) (s : State) : (s.updPort p g).clock = s.clock := rfl
@[simp] theorem State.updPort_fabTime (p : Nat) (g : MgmtPort → MgmtPort) (s : State) : (s.updPort p g).fabTime = s.fabTime := rfl
@[simp] theorem State.updPort_free (p : Nat) (g : MgmtPort → MgmtPort) (s : State) : (s.updPort p g).free = s.free := rfl
@[simp] theorem State.updPort_out (p : Nat) (g : MgmtPort → MgmtPort) (s : State) : (s.updPort p g).out = s.out := rfl
@[simp] theorem State.updPort_keys (p : Nat) (g : MgmtPort → MgmtPort) (s : State) : (s.updPort p g).keys = s.keys := rfl
@[simp] theorem State.updPort_tenants (p : Nat) (g : MgmtPort → MgmtPort) (s : State) : (s.updPort p g).tenants = s.tenants := rfl
@[simp] theorem State.updPort_index (p : Nat) (g : MgmtPort → MgmtPort) (s : State) : (s.updPort p g).index = s.index := rfl
@[simp] theorem State.updPort_models (p : Nat) (g : MgmtPort → MgmtPort) (s : State) : (s.updPort p g).models = s.models := rfl
@[simp] theorem State.updPort_tiles (p : Nat) (g : MgmtPort → MgmtPort) (s : State) : (s.updPort p g).tiles = s.tiles := rfl
@[simp] theorem State.updPort_tables (p : Nat) (g : MgmtPort → MgmtPort) (s : State) : (s.updPort p g).tables = s.tables := rfl
@[simp] theorem State.updPort_tiers (p : Nat) (g : MgmtPort → MgmtPort) (s : State) : (s.updPort p g).tiers = s.tiers := rfl
@[simp] theorem State.updPort_flash (p : Nat) (g : MgmtPort → MgmtPort) (s : State) : (s.updPort p g).flash = s.flash := rfl
@[simp] theorem State.updPort_fabric (p : Nat) (g : MgmtPort → MgmtPort) (s : State) : (s.updPort p g).fabric = s.fabric := rfl
@[simp] theorem State.updPort_comp (p : Nat) (g : MgmtPort → MgmtPort) (s : State) : (s.updPort p g).comp = s.comp := rfl
@[simp] theorem State.updPort_power (p : Nat) (g : MgmtPort → MgmtPort) (s : State) : (s.updPort p g).power = s.power := rfl
@[simp] theorem State.updPort_governor (p : Nat) (g : MgmtPort → MgmtPort) (s : State) : (s.updPort p g).governor = s.governor := rfl
@[simp] theorem State.updPort_pins (p : Nat) (g : MgmtPort → MgmtPort) (s : State) : (s.updPort p g).pins = s.pins := rfl

@[simp] theorem State.logAppend_pending (e : LogEntry) (s : State) : (s.logAppend e).pending = s.pending := rfl
@[simp] theorem State.logAppend_clock (e : LogEntry) (s : State) : (s.logAppend e).clock = s.clock := rfl
@[simp] theorem State.logAppend_fabTime (e : LogEntry) (s : State) : (s.logAppend e).fabTime = s.fabTime := rfl
@[simp] theorem State.logAppend_free (e : LogEntry) (s : State) : (s.logAppend e).free = s.free := rfl
@[simp] theorem State.logAppend_out (e : LogEntry) (s : State) : (s.logAppend e).out = s.out := rfl
@[simp] theorem State.logAppend_host (e : LogEntry) (s : State) : (s.logAppend e).host = s.host := rfl
@[simp] theorem State.logAppend_keys (e : LogEntry) (s : State) : (s.logAppend e).keys = s.keys := rfl
@[simp] theorem State.logAppend_index (e : LogEntry) (s : State) : (s.logAppend e).index = s.index := rfl
@[simp] theorem State.logAppend_models (e : LogEntry) (s : State) : (s.logAppend e).models = s.models := rfl
@[simp] theorem State.logAppend_tiles (e : LogEntry) (s : State) : (s.logAppend e).tiles = s.tiles := rfl
@[simp] theorem State.logAppend_tables (e : LogEntry) (s : State) : (s.logAppend e).tables = s.tables := rfl
@[simp] theorem State.logAppend_tiers (e : LogEntry) (s : State) : (s.logAppend e).tiers = s.tiers := rfl
@[simp] theorem State.logAppend_flash (e : LogEntry) (s : State) : (s.logAppend e).flash = s.flash := rfl
@[simp] theorem State.logAppend_fabric (e : LogEntry) (s : State) : (s.logAppend e).fabric = s.fabric := rfl
@[simp] theorem State.logAppend_comp (e : LogEntry) (s : State) : (s.logAppend e).comp = s.comp := rfl
@[simp] theorem State.logAppend_power (e : LogEntry) (s : State) : (s.logAppend e).power = s.power := rfl
@[simp] theorem State.logAppend_governor (e : LogEntry) (s : State) : (s.logAppend e).governor = s.governor := rfl
@[simp] theorem State.logAppend_pins (e : LogEntry) (s : State) : (s.logAppend e).pins = s.pins := rfl

@[simp] theorem State.putReads_pending (f : Flight) (l : List Read) (s : State) : (s.putReads f l).pending = s.pending := rfl
@[simp] theorem State.putReads_clock (f : Flight) (l : List Read) (s : State) : (s.putReads f l).clock = s.clock := rfl
@[simp] theorem State.putReads_fabTime (f : Flight) (l : List Read) (s : State) : (s.putReads f l).fabTime = s.fabTime := rfl
@[simp] theorem State.putReads_free (f : Flight) (l : List Read) (s : State) : (s.putReads f l).free = s.free := rfl
@[simp] theorem State.putReads_out (f : Flight) (l : List Read) (s : State) : (s.putReads f l).out = s.out := rfl
@[simp] theorem State.putReads_keys (f : Flight) (l : List Read) (s : State) : (s.putReads f l).keys = s.keys := rfl
@[simp] theorem State.putReads_tenants (f : Flight) (l : List Read) (s : State) : (s.putReads f l).tenants = s.tenants := rfl
@[simp] theorem State.putReads_index (f : Flight) (l : List Read) (s : State) : (s.putReads f l).index = s.index := rfl
@[simp] theorem State.putReads_models (f : Flight) (l : List Read) (s : State) : (s.putReads f l).models = s.models := rfl
@[simp] theorem State.putReads_tiles (f : Flight) (l : List Read) (s : State) : (s.putReads f l).tiles = s.tiles := rfl
@[simp] theorem State.putReads_tables (f : Flight) (l : List Read) (s : State) : (s.putReads f l).tables = s.tables := rfl
@[simp] theorem State.putReads_tiers (f : Flight) (l : List Read) (s : State) : (s.putReads f l).tiers = s.tiers := rfl
@[simp] theorem State.putReads_flash (f : Flight) (l : List Read) (s : State) : (s.putReads f l).flash = s.flash := rfl
@[simp] theorem State.putReads_fabric (f : Flight) (l : List Read) (s : State) : (s.putReads f l).fabric = s.fabric := rfl
@[simp] theorem State.putReads_comp (f : Flight) (l : List Read) (s : State) : (s.putReads f l).comp = s.comp := rfl
@[simp] theorem State.putReads_power (f : Flight) (l : List Read) (s : State) : (s.putReads f l).power = s.power := rfl
@[simp] theorem State.putReads_governor (f : Flight) (l : List Read) (s : State) : (s.putReads f l).governor = s.governor := rfl
@[simp] theorem State.putReads_pins (f : Flight) (l : List Read) (s : State) : (s.putReads f l).pins = s.pins := rfl

end Sys2Proof.Machine
end

