-- ==== Sys2Proof/Laws/Tables.lean ====
section
/-!
SUPPORT. The sparse tables and sorted lists of the model: an entry just written is read back, every other entry stays.
-/
namespace Sys2Proof.Tab

theorem find_put {α : Type} (k : Nat) (v : α) (t : Tab α) : (t.put k v).find k = some v := by
  induction t with
  | nil => simp [Tab.put, Tab.find]
  | cons e t ih =>
    obtain ⟨j, w⟩ := e
    unfold Tab.put
    split
    · simp [Tab.find]
    · split
      · simp [Tab.find]
      · next a _ => unfold Tab.find; rw [if_neg a]; exact ih

theorem find_put_ne {α : Type} (k j : Nat) (v : α) (t : Tab α) (h : j ≠ k) : (t.put k v).find j = t.find j := by
  induction t with
  | nil => simp [Tab.put, Tab.find, Ne.symm h]
  | cons e t ih =>
    obtain ⟨i, w⟩ := e
    unfold Tab.put
    split
    · next q => subst q; simp [Tab.find, Ne.symm h]
    · split
      · simp [Tab.find, Ne.symm h]
      · unfold Tab.find
        split
        · rfl
        · exact ih

theorem find_upd {α : Type} (k : Nat) (g : α → α) (t : Tab α) (x : α) (h : t.find k = some x) : (t.upd k g).find k = some (g x) := by
  induction t with
  | nil => cases h
  | cons e t ih =>
    obtain ⟨j, v⟩ := e
    unfold Tab.find at h
    unfold Tab.upd
    split at h
    · next e => cases h; subst e; simp [Tab.find]
    · next e => rw [if_neg e]; unfold Tab.find; rw [if_neg e]; exact ih h

theorem getD_put {α : Type} (k : Nat) (v d : α) (t : Tab α) : (t.put k v).getD k d = v := by
  unfold getD; rw [find_put]

theorem getD_put_ne {α : Type} (k j : Nat) (v d : α) (t : Tab α) (h : j ≠ k) : (t.put k v).getD j d = t.getD j d := by
  unfold getD; rw [find_put_ne k j v t h]

theorem find_upd_ne {α : Type} (k j : Nat) (g : α → α) (t : Tab α) (h : j ≠ k) : (t.upd k g).find j = t.find j := by
  induction t with
  | nil => rfl
  | cons e t ih =>
    obtain ⟨i, w⟩ := e
    unfold Tab.upd
    split
    · next q => subst q; simp [Tab.find, Ne.symm h]
    · unfold Tab.find; rw [ih]

theorem find_del {α : Type} (k : Nat) (t : Tab α) : (t.del k).find k = none := by
  induction t with
  | nil => rfl
  | cons e t ih =>
    obtain ⟨i, w⟩ := e
    unfold Tab.del
    split
    · exact ih
    · next q => unfold Tab.find; rw [if_neg q]; exact ih

theorem find_del_ne {α : Type} (k j : Nat) (t : Tab α) (h : j ≠ k) : (t.del k).find j = t.find j := by
  induction t with
  | nil => rfl
  | cons e t ih =>
    obtain ⟨i, w⟩ := e
    unfold Tab.del
    split
    · next q => subst q; rw [ih]; simp [Tab.find, Ne.symm h]
    · unfold Tab.find; rw [ih]

end Sys2Proof.Tab

namespace Sys2Proof.Machine

@[simp] theorem sortBy_nil {α : Type} (le : α → α → Bool) : sortBy [] le = [] := rfl
@[simp] theorem sortBy_one {α : Type} (a : α) (le : α → α → Bool) : sortBy [a] le = [a] := rfl

theorem insertBy_perm {α : Type} (le : α → α → Bool) (a : α) (l : List α) : (insertBy le a l).Perm (a :: l) := by
  induction l with
  | nil => exact List.Perm.refl _
  | cons b l ih =>
    unfold insertBy
    split
    · exact List.Perm.refl _
    · exact (ih.cons b).trans (List.Perm.swap a b l)

/-- Sorting only reorders. -/
theorem sortBy_perm {α : Type} (l : List α) (le : α → α → Bool) : (sortBy l le).Perm l := by
  induction l with
  | nil => exact List.Perm.refl _
  | cons a l ih => exact (insertBy_perm le a _).trans (ih.cons a)

@[simp] theorem length_sortBy {α : Type} (l : List α) (le : α → α → Bool) : (sortBy l le).length = l.length := (sortBy_perm l le).length_eq

@[simp] theorem mem_sortBy {α : Type} {l : List α} {le : α → α → Bool} {a : α} : a ∈ sortBy l le ↔ a ∈ l := (sortBy_perm l le).mem_iff

theorem State.setMbx_mbx (m : Nat) (b : Mailbox) (s : State) : (s.setMbx m b).mbx m = b := Tab.getD_put _ _ _ _
theorem State.setMbx_mbx_ne (m n : Nat) (b : Mailbox) (s : State) (h : n ≠ m) : (s.setMbx m b).mbx n = s.mbx n := Tab.getD_put_ne _ _ _ _ _ h
theorem State.setWin_win (w : Nat) (x : Window) (s : State) : (s.setWin w x).win w = x := Tab.getD_put _ _ _ _
theorem State.setWin_win_ne (w v : Nat) (x : Window) (s : State) (h : v ≠ w) : (s.setWin w x).win v = s.win v := Tab.getD_put_ne _ _ _ _ _ h

end Sys2Proof.Machine
end

