-- ==== Sys2Proof/WellFormed.lean ====
section
/-!
DEFINITION. Which commands are well formed: the ranges of operands that their types leave open.
-/
namespace Sys2Proof

/-- A key names a mailbox: no batch item, no served sub-query. -/
def Mbx.isMailbox : Mbx → Bool
  | .tenant _ | .mgmt => true
  | .item _ _ | .served _ _ => false

/-- A key is in range: SQ.ID has 64 bits, a shard number 16. -/
def Mbx.ok : Mbx → Bool
  | .served id shard => decide (id < 2 ^ 64) && decide (shard < 65536)
  | _ => true

/-- A packet has the 32 header bytes of Table 2-10, and no more payload than any ring can hold (R48). -/
def Packet.ok (p : Packet) : Bool := p.header.length == 32 && decide (p.payload.length ≤ 16777216)

/-- A number fits a 64-bit field: a CSN, a segment, an item ID. -/
def quadOk (n : Nat) : Bool := decide (n < 2 ^ 64)

/-- A list or slot number is below the 2²⁰ lists a collection may have (R100). -/
def slotOk (n : Nat) : Bool := decide (n < 2 ^ 20)

/-- A quad-block: 1,024 dies of 8,192 (R356). -/
def quadBlockOk (n : Nat) : Bool := decide (n < 2 ^ 23)

/-- Operands within the ranges that the spec gives them. -/
def Instr.wellFormed : Instr → Bool
  | .bar0AccessViolation _ off width => decide (off < 2 ^ 20) && width != 0
  | .registerWrite off wide value => decide (off < 2 ^ 20) && (if wide then off % 8 == 0 else off % 4 == 0 && decide (value.toNat < 2 ^ 32))
  | .piwDataWrite _ off bytes => bytes != [] && decide (off.val + bytes.length ≤ 2 ^ 20)
  | .mailboxTurn packets => packets.all Packet.ok
  | .operationAck _ csn _ => quadOk csn
  | .operationApply _ done => quadOk done.csn
  | .segmentSealed _ seg _ => quadOk seg
  | .segmentRetire _ seg => quadOk seg
  | .tombstoneMaterialised _ csn => quadOk csn
  | .legacyRedistributeDone _ slot => slotOk slot
  | .mapRunRepair _ run _ => slotOk run.slot && decide (run.part < 3)
  | .subqueryHedge m _ _ replicas => m.ok && decide (replicas.length ≤ 2) && decide replicas.Nodup
  | .nbuMarkWrite _ csn id ins => quadOk csn && quadOk id && quadOk ins
  | .granuleUncorrectable _ _ _ reader => reader.all fun r => r.1.ok
  | .hostCacheFill _ _ seg _ => quadOk seg
  | .flashReadComplete m _ _ quad _ _ => m.ok && quadBlockOk quad
  | .flashProgramComplete _ _ units _ _ => units != [] && decide (units.length ≤ 15)
  | .eraseFail quad => quadBlockOk quad
  | .quadBlockErase quad => quadBlockOk quad
  | .quadBlockRefresh quad => quadBlockOk quad
  | .flashPatrol quad _ => quadBlockOk quad
  | .sharedPublish _ seg => quadOk seg
  | .tileFailed _ loss => loss.lost.all fun c => c.1.ok
  | .flitRetryExhausted _ carried => carried.all fun c => c.1.ok
  | .governorTick r => r.demand.length == 4 && r.drawn.length == 4
  | .inputOvervoltage volts => decide (440 < volts)
  | .springBringUp found failed =>
    decide (found.dies.map Prod.fst).Nodup && decide found.untrained.Nodup && decide found.rejected.Nodup && decide failed.Nodup
  | .mctpControlMessage msg => decide (3 ≤ msg.length)
  | .spdmGetCertificate _ _ off len => decide (off < 65536) && decide (len < 65536)
  | .spdmChallenge _ _ nonce => nonce.length == 32
  | .spdmGetMeasurements _ _ _ nonce => nonce.length == 32
  | .spdmChunkSend _ seq _ _ => decide (seq < 65536)
  | .spdmChunkGet _ seq => decide (seq < 65536)
  | .mgmtRecordPacket _ _ packet => packet.ok
  | .hedgeBindTimeout id shard => quadOk id && decide (shard < 65536)
  | .logRecordResend _ csn _ => quadOk csn
  | .replicaPromote _ _ replicas _ => replicas.all fun r => quadOk r.2
  | .forwardingRecordRelease _ slot _ => slotOk slot
  | .coldPowerUp volts => decide (360 ≤ volts)
  | .admissionResume m | .search m _ | .searchRerank m _ | .refinePrefetch m _ | .speculationSquash m _ | .commandDeadlineExpire m _
  | .refineReadHedge m _ _ | .gateCompaction m _ | .lowerTierLate m _ _ | .hostTierReadComplete m _ _ _ | .workSteal m _ _
  | .slowMember m _ _ | .thresholdUpdate _ m _ => m.ok
  | .identify m _ | .getStatus m _ | .nop m _ | .setProfile m _ | .setSeason m _ | .tenantConfigure m _ | .tenantDisable m _
  | .streamOpen m _ | .streamClose m _ | .stopCommand m _ | .piwBind m _ | .piwUnbind m _ | .getCertificates m _ | .keyImport m _ _
  | .sessionOpen m _ _ | .sessionClose m _ | .keyRotate m _ | .keyZeroise m _ | .zeroiseFillDone m _ | .collectionCreate m _
  | .collectionDrop m _ | .collectionDescribe m _ | .insertVectors m _ | .insertText m _ | .upsertVectors m _ | .upsertText m _
  | .deleteItems m _ | .deleteByFilter m _ | .commitWait m _ | .commitWaitComplete m _ | .segmentSeal m _ | .compact m _ | .getItems m _
  | .searchBatch m _ | .selectTopk m _ | .mergePartial m _ | .nbuDiagRead m _ | .modelLoad m _ | .modelRetire m _ | .placementLoad m _
  | .encode m _ | .scorePairs m _ | .generate m _ | .generateTokenStep m _ | .vocabLoad m _ | .vocabRetire m _ | .tokenize m _
  | .detokenize m _ | .grammarLoad m _ | .grammarRetire m _ | .tableCreate m _ | .tableDrop m _ | .tableLookup m _ | .tableUpdate m _
  | .tableRebalance m _ | .tablePrefetch m _ | .tablePrefetchExpire m _ | .fabricStatus m _ | .routeLoad m _ | .gateListLoad m _
  | .partitionSet m _ _ | .fenceSet m _ | .compositionJoin m _ _ | .compositionJoinTimeout m _ | .compositionLeave m _ | .replicaSet m _ _
  | .mediaStatus m _ | .hostRegionGrant m _ | .hostRegionRevoke m _ | .meterRead m _ | .meterReadAll m _ | .logRead m _
  | .diagRun m _ _ _ _ => m.isMailbox
  | .doorbellWrite .. | .mbxEnable .. | .mbxDisable .. | .mbxCtrlReset .. | .mbxResetComplete .. | .irqRearm .. | .rspConsWrite ..
  | .streamConsWrite .. | .piwOverrunClear .. | .piwCtrlFlush .. | .piwFlushComplete .. | .piwSlotWrite .. | .piwPacketTimeout ..
  | .piwPacketAdmit .. | .incompletePacket .. | .responseWrite .. | .irqModTimer .. | .streamRecordWrite .. | .streamWaitTimeout ..
  | .streamAbortRecord .. | .profileSwitch | .collectionDropComplete .. | .commitPublish .. | .encoderBatchClose | .segmentSealTrigger ..
  | .autoCompactionStart .. | .compactionListSwitch .. | .rebalancePublish .. | .collectionRebuild .. | .collectionRebuildDone ..
  | .scanJob .. | .scanJobComplete .. | .extentRebuildDone .. | .runRetire .. | .patrolScrub .. | .nbuFailed .. | .pseudoChannelOffline ..
  | .modelLoadCommitDone .. | .loadIdleTimeout .. | .placementInForce | .tokenizeContextExpire .. | .tableStepClose ..
  | .tableBlockMigrate .. | .routeActivate | .gateListActivate .. | .hostRegionFailed .. | .logIntervalEnd | .programFail ..
  | .journalSectorProgram .. | .checkpointStart | .checkpointComplete | .mapPageEvict | .gcStart | .wearLevelMove .. | .lowSpaceEnter
  | .lowSpaceExit | .dieFailed .. | .channelFailed .. | .dieRebuildDone .. | .leaseRenew .. | .leaseExpire .. | .tileRetire ..
  | .spareSubstituted .. | .crewForm .. | .crewQueueTimeout .. | .suspectTile .. | .bridgeReroute .. | .limiterEvent .. | .thermalTrip ..
  | .holdupWarnAssert .. | .inputUndervoltage .. | .powerLossFlush .. | .flushEnd | .resetRelease .. | .resetNAssert ..
  | .resetNDeassert .. | .drainComplete | .winterEntry | .wake | .wakeComplete | .i3cStatus | .spdmGetVersion .. | .spdmGetCapabilities ..
  | .spdmNegotiateAlgorithms .. | .spdmGetDigests .. | .spdmKeyExchange .. | .spdmFinish .. | .spdmHeartbeat .. | .spdmKeyUpdate ..
  | .spdmEndSession .. | .spdmSetCertificate .. | .spdmUnsupportedRequest .. | .jtagInstruction .. | .perstNAssert | .perstNDeassert
  | .flashPgLow .. | .flashPgHigh | .sysRefclkLoss .. | .fabRefclkLoss .. | .pcieRefclkLoss | .mgmtRecordSpdm .. | .mgmtKeepalive ..
  | .mgmtConnectionTimeout .. | .mgmtResponseDiscard .. | .portTraining .. | .portRetrainTimer .. | .heldRetryTimer .. | .hello
  | .identity .. | .kex | .kexConfirm .. | .linkRekey .. | .linkFrameReceive .. | .retryReq .. | .linkAckTimeout .. | .portMarginal ..
  | .packetForward .. | .packetAged .. | .egressTurn .. | .reassemblyTimeout .. | .messageReceive .. | .protocolViolationHold ..
  | .unreachable | .time .. | .timeFirstLock | .timeHoldover | .subquery | .admitNotice | .partialList | .cancel | .hedgeRead ..
  | .hedgeData | .logRecord | .logConfirm | .logRelease | .logFetch | .fetchData | .replicaOp .. | .tableOp | .tableBlock | .sharedRead
  | .sharedData .. | .lease | .collDown | .collUp | .heartbeatTick .. | .memberLost .. | .probeTimeout .. | .coordinatorTakeover ..
  | .selfFence .. | .composition | .suspectMember .. | .streamIrqTimer .. | .suspectTileExpire .. | .tableDropTimeout ..
  | .replicaFallsBehind .. | .modelWeightRunRepaired .. | .portLaneLoss .. | .discoveryMessageRetry .. | .fabRefclkRestore ..
  | .mgmtPortLinkLoss .. | .mgmtConnectionOpen .. | .mgmtConnectionClose .. | .thermSbLoss | .i3cDynamicAddressAssign .. => true

end Sys2Proof
end

