-- ==== Sys2Proof/Tests/Slice0.lean ====
section
/-!
SUPPORT. Small tests with values from the spec, terms that WellFormed refuses, and for each statement with hypotheses states that meet them.
-/
namespace Sys2Proof.Tests
open Sys2Proof Sys2Proof.Machine
set_option Elab.async false

/-- A command of opcode `op` from tenant `t` with tag 7 and this plaintext, at its turn. -/
def sampleFlight (op : Nat) (t : Fin 4096) (plain : Bytes) : Flight :=
  { mbx := t, hdr := { version := 1, status := 0, opcode := BitVec.ofNat 16 op, tenant := BitVec.ofNat 16 t, flags := 1, tag := 7,
                       length := BitVec.ofNat 32 (plain.length + 24), session := 1, crc := 0, csn := 0 },
    path := .ring, plain := plain, arrival := 0, reserved := 1 }

/-- A module in Summer with one command in flight. -/
def sample (op : Nat) (t : Fin 4096) (plain : Bytes) : State :=
  { State.reset with power.season := .summer, host.flights := [sampleFlight op t plain] }

/-- The one command in flight of a serving module is at its turn. -/
theorem sample_turn {s : State} {op : Nat} {t : Fin 4096} {plain : Bytes} (h : op < 65536) (hf : s.host.flights = [sampleFlight op t plain])
    (hs : s.serving = true) : s.turn op (.tenant t) 7 (sampleFlight op t plain) := by
  refine ⟨?_, ?_, rfl, ?_, hs⟩
  · simp [State.flight, hf, sampleFlight, Mbx.key, Flight.tag]
  · simp [Flight.opcode, sampleFlight]; omega
  · simp [State.isNext, hf, sampleFlight, Flight.tag]

/-- The bytes of a number read back as the number. -/
theorem leNat_leBytes (n v : Nat) (h : v < 256 ^ n) : leNat (leBytes n v) = v := by
  induction n generalizing v with
  | zero => simp at h; subst h; rfl
  | succ n ih =>
    have : v / 256 < 256 ^ n := by rw [Nat.div_lt_iff_lt_mul (by decide)]; rwa [Nat.pow_succ] at h
    simp only [leBytes, leNat, ih _ this, BitVec.toNat_ofNat]
    omega

/-- A field at the start of a payload reads what was put there. -/
theorem field_start (n v : Nat) (r : Bytes) (h : v < 256 ^ n) : field (leBytes n v ++ r) 0 n = v := by
  have l : ∀ n v, (leBytes n v).length = n := by
    intro n; induction n with
    | zero => intro v; rfl
    | succ n ih => intro v; simp [leBytes, ih]
  unfold field slice
  rw [List.drop_zero, List.take_append_of_le_length (Nat.le_of_eq (l n v).symm), List.take_of_length_le (Nat.le_of_eq (l n v))]
  exact leNat_leBytes n v h

/-- The first 16 bytes of a valid STREAM_OPEN. -/
def sampleStream : Bytes := leBytes 8 0x2000 ++ [6, 0] ++ leBytes 2 2047 ++ leBytes 2 1 ++ zeros 2

/-- The ID of the sample collection: tenant 5, index 0. -/
def sampleId : Nat := 5 * 2 ^ 20

/-- A small descriptor: 64 dimensions, no model. -/
def sampleDesc : Descriptor where
  raw := zeros 192
  keyId := 1
  dim := 64
  sketchBits := 256
  refineBits := 8
  metric := 2
  vecFormat := 1
  storeFull := false
  storeTokens := false
  extBytes := 0
  listsLog2 := 10
  compactPct := 20
  model := 0
  vocab := 0
  chunkTokens := 0
  sealMs := 100
  maxItems := 1000
  sealItems := 65536
  retainCsn := 0
  fields := [{ kind := 1, area := false, offset := 0, width := 8 }]

/-- An empty collection of tenant 5. -/
def sampleColl : Collection :=
  { id := sampleId, desc := sampleDesc, qimage := [], gens := [(1, 1, zeros 8)], reserved := 0, segments := [{ id := 1, state := .opened }] }

/-- The sample module with a collection. -/
def sampleWith (op : Nat) (plain : Bytes) (c : Collection) : State := { sample op 5 plain with index.collections := [(sampleId, c)] }

/-- A row of the collection, in list 0 of segment 1. -/
def sampleRow (id ins : Nat) : Version :=
  { id := id, packed := 0, ext := [], ins := ins, list := 0, seg := 1, pos := 0, sketch := 0, refine := [], vector := [], tokens := [] }

/-- A delete of item 9 under CSN 1. -/
def sampleOp : Operation := { csn := 1, body := .delete [9], mbx := 5, tag := 7, encoded := true }

/-- A TRK of tenant 5. -/
def sampleTrk : Trk := { tenant := 5, keyId := 1, key := zeros 32 }

/-- A crew class of one tile, tile `k`, for kind `k`. -/
def sampleCrew (k : Nat) : Bytes := leBytes 1 k ++ leBytes 1 k ++ [0, 1, 1, 0] ++ leBytes 2 k ++ [1, 0, 200, 0, 1, 0, 1, 0, 0] ++ zeros 15

/-- A region of kind `k` on stack 0, 64 MiB, of kind 6 8 GiB; a shared region of 1 GiB for kind 7. -/
def sampleRegion (k : Nat) : Bytes :=
  leBytes 2 (k - 1) ++ [BitVec.ofNat 8 k, 0] ++ (if k = 7 then zeros 12 ++ leBytes 4 1 else leBytes 4 1 ++ leBytes 2 (1000 * k) ++ leBytes 2 (if k = 6 then 2048 else 16) ++ zeros 8) ++ zeros 12

/-- A placement image with crew classes of kinds 0 to 6, regions of kinds 1 to 7 and one collection class for every tenant and index. -/
def samplePlace : Bytes :=
  leBytes 4 0x474D4950 ++ leBytes 2 1 ++ zeros 2 ++ leBytes 4 1 ++ leBytes 4 704 ++ leBytes 4 96 ++ [7, 0, 0, 0] ++ leBytes 4 320 ++ leBytes 2 7 ++ leBytes 2 1 ++
    leBytes 4 544 ++ leBytes 4 64 ++ leBytes 4 64 ++ zeros 52 ++
    ((List.range 7).map sampleCrew).flatten ++ ((List.range 7).map fun i => sampleRegion (i + 1)).flatten ++
    ([0, 0, 0, 0] ++ leBytes 2 0 ++ leBytes 2 4095 ++ leBytes 4 0 ++ leBytes 4 0xFFFFE ++ leBytes 4 576 ++ leBytes 2 64 ++ [3, 0, 6, 0] ++ zeros 6) ++
    ((List.range 64).map (leBytes 2)).flatten

/-- The sample module with a collection and the placement image in force. -/
def samplePlaced (op : Nat) (plain : Bytes) (c : Collection) : State :=
  { sampleWith op plain c with models.placement := some { gen := 1, image := samplePlace } }

def sampleTaps : Bytes := [0, 0, 1, 0, 2, 0, 3, 0, 4, 0, 5, 0, 6, 0, 7, 0]
def sampleProj : Bytes := 8 :: (zeros 1295 ++ (List.replicate 256 sampleTaps).flatten)
theorem taps_drop (n j : Nat) (h : j ≤ n) : (List.replicate n sampleTaps).flatten.drop (16 * j) = (List.replicate (n - j) sampleTaps).flatten := by
  induction j generalizing n with
  | zero => simp
  | succ j ih =>
    obtain ⟨n, rfl⟩ : ∃ k, n = k + 1 := ⟨n - 1, by omega⟩
    rw [Nat.mul_succ, Nat.add_comm, ← List.drop_drop, List.replicate_succ, List.flatten_cons]
    rw [show (16 : Nat) = sampleTaps.length from rfl, List.drop_left]
    rw [show sampleTaps.length = 16 from rfl, ih n (by omega)]
    simp
theorem taps_field (n i : Nat) (h : i < 8 * n) : field (List.replicate n sampleTaps).flatten (2 * i) 2 = i % 8 := by
  unfold field slice
  rw [show 2 * i = 16 * (i / 8) + 2 * (i % 8) by omega, ← List.drop_drop, taps_drop n _ (by omega),
    show n - i / 8 = (n - i / 8 - 1) + 1 by omega, List.replicate_succ, List.flatten_cons]
  have := Nat.mod_lt i (show 0 < 8 by decide)
  generalize i % 8 = k at *
  generalize (List.replicate _ sampleTaps).flatten = r
  rcases k with _|_|_|_|_|_|_|_|k <;> first | rfl | omega
theorem proj_tap (i : Nat) (h : i < 2048) : field sampleProj (1296 + 2 * i) 2 = i % 8 := by
  refine Eq.trans ?_ (taps_field 256 i (by omega))
  unfold field slice sampleProj
  rw [← List.drop_drop, show (1296 : Nat) = 1295 + 1 from rfl, List.drop_succ_cons, zeros, List.drop_left' List.length_replicate]
theorem taps_length (n : Nat) : (List.replicate n sampleTaps).flatten.length = 16 * n := by
  induction n with
  | zero => rfl
  | succ n ih => rw [List.replicate_succ, List.flatten_cons, List.length_append, ih]; exact (by omega : 16 + 16 * n = 16 * (n + 1))
theorem proj_len : sampleProj.length = 5392 := by
  rw [sampleProj, List.length_cons, List.length_append, taps_length, zeros, List.length_replicate]
theorem zeros_field (n o k : Nat) (r : Bytes) (h : o + k ≤ n) : field (zeros n ++ r) o k = 0 := by
  have z : ∀ k, leNat (List.replicate k 0) = 0 := by intro k; induction k with | zero => rfl | succ k ih => rw [List.replicate_succ, leNat]; exact (congrArg (fun n => 0 + 256 * n) ih)
  unfold field slice zeros
  rw [List.drop_append_of_le_length (by rw [List.length_replicate]; omega), List.drop_replicate,
    List.take_append_of_le_length (by rw [List.length_replicate]; omega), List.take_replicate]
  exact z _
theorem proj_zero (o k : Nat) (h : 1 ≤ o) (g : o + k ≤ 1296) : field sampleProj o k = 0 := by
  obtain ⟨o, rfl⟩ : ∃ x, o = x + 1 := ⟨o - 1, by omega⟩
  refine Eq.trans ?_ (zeros_field 1295 o k (List.replicate 256 sampleTaps).flatten (by omega))
  unfold field slice sampleProj
  rw [List.drop_succ_cons]
theorem projection_sound {b : Bytes} {l : List Nat} (t : field b 0 1 = 8) (len : b.length = 5392) (z : zeroField b 1 15 = true)
    (mean : (readProjection 64 256 b).mean.findIdx? (fun w => !f32Finite w) = none)
    (thr : (readProjection 64 256 b).thresh.findIdx? (fun w => !f32Finite w) = none) (tap : (readProjection 64 256 b).tap = l)
    (t1 : l.findIdx? (fun t => (decide (64 ≤ t % 4096) || bits t 12 14 != 0)) = none)
    (t3 : ((List.range 256).findSome? fun j => ((List.range 8).find? fun k => (((l.drop (j * 8)).take 8).take k).any fun t =>
      t % 4096 == ((l.drop (j * 8)).take 8).getD k 0 % 4096).map (j * 8 + ·)) = none) : projectionFault 64 256 b = none := by
  unfold projectionFault
  rw [t, if_neg (by decide), if_neg (by rw [len]; decide), z, if_neg (by decide)]
  simp only [mean, thr]
  rw [tap, t1]
  dsimp only
  rw [t3]
theorem proj_ok : projectionFault 64 256 sampleProj = none := by
  have t : field sampleProj 0 1 = 8 := rfl
  have z : zeroField sampleProj 1 15 = true := by rfl
  have tap : (readProjection 64 256 sampleProj).tap = (List.range 2048).map (· % 8) := by
    simp only [readProjection, t]
    refine List.map_congr_left fun i hi => ?_
    exact proj_tap i (List.mem_range.mp hi)
  have mean : (readProjection 64 256 sampleProj).mean.findIdx? (fun w => !f32Finite w) = none := by
    rw [List.findIdx?_eq_none_iff]
    intro w hw
    simp only [readProjection, List.mem_map, List.mem_range] at hw
    obtain ⟨i, hi, rfl⟩ := hw
    rw [proj_zero _ _ (by omega) (by omega)]; rfl
  have thr : (readProjection 64 256 sampleProj).thresh.findIdx? (fun w => !f32Finite w) = none := by
    rw [List.findIdx?_eq_none_iff]
    intro w hw
    simp only [readProjection, List.mem_map, List.mem_range] at hw
    obtain ⟨i, hi, rfl⟩ := hw
    rw [proj_zero _ _ (by omega) (by omega)]; rfl
  have t1 : ((List.range 2048).map (· % 8)).findIdx? (fun t => (decide (64 ≤ t % 4096) || bits t 12 14 != 0)) = none := by
    rw [List.findIdx?_eq_none_iff]
    intro w hw
    obtain ⟨i, hi, rfl⟩ := List.mem_map.mp hw
    have := Nat.mod_lt i (show 0 < 8 by decide)
    generalize i % 8 = k at *
    clear hw hi
    revert k; decide
  have t2 : ∀ j < 256, ((((List.range 2048).map (· % 8)).drop (j * 8)).take 8) = List.range 8 := by
    intro j hj
    refine List.ext_getElem (by simp; omega) fun i h1 h2 => ?_
    simp at h1 h2 ⊢
    omega
  have t3 : ((List.range 256).findSome? fun j =>
      ((List.range 8).find? fun k => (((((List.range 2048).map (· % 8)).drop (j * 8)).take 8).take k).any fun t =>
        t % 4096 == ((((List.range 2048).map (· % 8)).drop (j * 8)).take 8).getD k 0 % 4096).map (j * 8 + ·)) = none := by
    rw [List.findSome?_eq_none_iff]
    intro j hj
    rw [t2 j (List.mem_range.mp hj)]
    rfl
  exact projection_sound t proj_len z mean thr tap t1 t3
def sampleHead : Bytes := leBytes 4 0x474D4951 ++ leBytes 2 1 ++ leBytes 2 64 ++ leBytes 2 256 ++ [10, 5, 16, 2, 8, 1] ++ leBytes 4 64 ++ leBytes 4 5392 ++ leBytes 4 5456 ++
  leBytes 4 20 ++ leBytes 4 5480 ++ leBytes 4 9576 ++ leBytes 4 5476
def sampleRest : Bytes := zeros 16 ++ (sampleProj ++ ((leBytes 2 1 ++ zeros 14 ++ leBytes 4 0x3F800000) ++ zeros 8196))
def sampleImage : Bytes := sampleHead ++ (leBytes 4 (crc32c (sampleHead ++ zeros 4 ++ sampleRest)).toNat ++ sampleRest)
theorem zeros_length (n : Nat) : (zeros n).length = n := List.length_replicate
theorem len_leBytes (n v : Nat) : (leBytes n v).length = n := by
  induction n generalizing v with
  | zero => rfl
  | succ n ih => rw [leBytes, List.length_cons, ih]
theorem field_left (a r : Bytes) (o n : Nat) (h : o + n ≤ a.length) : field (a ++ r) o n = field a o n := by
  unfold field slice
  rw [List.drop_append_of_le_length (by omega), List.take_append_of_le_length (by rw [List.length_drop]; omega)]
theorem slice_right (a r : Bytes) (o n k : Nat) (h : a.length = k) : slice (a ++ r) (k + o) n = slice r o n := by
  unfold slice
  rw [← List.drop_drop, List.drop_left' h]
theorem slice_whole (a r : Bytes) (n : Nat) (h : a.length = n) : slice (a ++ r) 0 n = a := by
  unfold slice
  rw [List.drop_zero, List.take_left' h]
theorem zeros_slice (n o k : Nat) (h : o + k ≤ n) : leNat (slice (zeros n) o k) = 0 := by
  have := zeros_field n o k [] h
  rwa [List.append_nil] at this
theorem sampleRest_length : sampleRest.length = 13624 := by
  rw [sampleRest, List.length_append, List.length_append, List.length_append, proj_len, zeros_length, zeros_length]; rfl
theorem sampleImage_length : sampleImage.length = 13672 := by
  rw [sampleImage, List.length_append, List.length_append, len_leBytes, sampleRest_length]; rfl
theorem image_sound {d : Descriptor} {b : Bytes} (hd : d.listsLog2 = 10 ∧ d.dim = 64 ∧ d.sketchBits = 256 ∧ d.metric = 2 ∧ d.refineBits = 8) (len : b.length = 13672)
    (h : ∀ o n, o + n ≤ 44 → field b o n = field sampleHead o n)
    (crc : BitVec.ofNat 32 (field b 0x2C 4) = crc32c (slice b 0 0x2C ++ zeros 4 ++ b.drop 0x30)) (z : zeroField b 0x30 16 = true)
    (e : field b 5476 4 = 0) (p : projectionFault 64 256 (slice b 64 5392) = none) (q : scaleFault 64 (slice b 5456 20) = none) : qimageFault d b = none := by
  obtain ⟨d1, d2, d3, d4, d5⟩ := hd
  have hq : readQHeader b = readQHeader sampleHead := by
    unfold readQHeader
    simp only [h 0x0B 1 (by decide), h 0x0C 1 (by decide), h 0x0F 1 (by decide), h 0x10 4 (by decide), h 0x14 4 (by decide), h 0x18 4 (by decide),
      h 0x1C 4 (by decide), h 0x20 4 (by decide), h 0x24 4 (by decide), h 0x28 4 (by decide)]
  unfold qimageFault
  rw [hq, d1, d2, d3, d4, d5, h 0 4 (by decide), h 4 2 (by decide), h 6 2 (by decide), h 8 2 (by decide), h 0x0A 1 (by decide), h 0x0D 1 (by decide), h 0x0E 1 (by decide), len]
  have s : (qSections 64 10 (readQHeader sampleHead)).find? (fun x => !sectionOk 13672 (qSections 64 10 (readQHeader sampleHead)) x) = none := by decide
  have en : (List.range (readQHeader sampleHead).entries).find? (fun i => decide (2 ^ 10 ≤ field b ((readQHeader sampleHead).entryOffset + 4 * i) 4)) = none := by
    rw [List.find?_eq_none]
    intro i hi
    have : i = 0 := by have := List.mem_range.mp hi; rw [show (readQHeader sampleHead).entries = 1 by decide] at this; omega
    subst this
    rw [show (readQHeader sampleHead).entryOffset + 4 * 0 = 5476 by decide, e]; decide
  rw [if_neg (by decide), if_neg (by decide), if_neg (by decide), if_neg (by decide), if_neg (by decide), if_neg (by decide), if_neg (by decide), if_neg (by decide),
    if_neg (by decide), if_neg (by decide), if_neg (by decide), if_neg (by decide), if_neg (by decide), s]
  dsimp only
  rw [if_neg (by simp [crc]), z, if_neg (by decide), en]
  dsimp only
  rw [show (readQHeader sampleHead).projOffset = 64 by decide, show (readQHeader sampleHead).projBytes = 5392 by decide, p,
    show (readQHeader sampleHead).scaleOffset = 5456 by decide, show (readQHeader sampleHead).scaleBytes = 20 by decide]
  dsimp only
  rw [q]; rfl
theorem sampleImage_sound {d : Descriptor} (hd : d.listsLog2 = 10 ∧ d.dim = 64 ∧ d.sketchBits = 256 ∧ d.metric = 2 ∧ d.refineBits = 8) : qimageFault d sampleImage = none := by
  have r1 : ∀ o n, slice sampleImage (44 + (4 + o)) n = slice sampleRest o n := by
    intro o n
    rw [sampleImage, slice_right _ _ _ _ 44 (by decide), slice_right _ _ _ _ 4 (len_leBytes _ _)]
  have r2 : ∀ o n, slice sampleImage (44 + (4 + (16 + (5392 + o)))) n = slice ((leBytes 2 1 ++ zeros 14 ++ leBytes 4 0x3F800000) ++ zeros 8196) o n := by
    intro o n
    rw [r1, sampleRest, slice_right _ _ _ _ 16 (zeros_length 16), slice_right _ _ _ _ 5392 proj_len]
  refine image_sound hd sampleImage_length (fun o n h => field_left _ _ _ _ h) ?_ ?_ ?_ ?_ ?_
  · have a : slice sampleImage 0 44 = sampleHead := slice_whole _ _ _ (by decide)
    have b : sampleImage.drop 48 = sampleRest := by
      rw [sampleImage, show (48 : Nat) = 44 + 4 from rfl, ← List.drop_drop, List.drop_left' (by decide), List.drop_left' (len_leBytes _ _)]
    have c : field sampleImage 44 4 = (crc32c (sampleHead ++ zeros 4 ++ sampleRest)).toNat := by
      unfold field
      rw [sampleImage, show (44 : Nat) = 44 + 0 from rfl, slice_right _ _ _ _ 44 (by decide), slice_whole _ _ _ (len_leBytes _ _)]
      exact leNat_leBytes 4 _ (by have := (crc32c (sampleHead ++ zeros 4 ++ sampleRest)).isLt; omega)
    rw [a, b, c, BitVec.ofNat_toNat, BitVec.setWidth_eq]
  · unfold zeroField
    rw [show (48 : Nat) = 44 + (4 + 0) from rfl, r1, sampleRest, slice_whole _ _ _ (by rw [zeros, List.length_replicate])]; decide
  · unfold field
    rw [show (5476 : Nat) = 44 + (4 + (16 + (5392 + (20 + 0)))) from rfl, r2, slice_right _ _ _ _ 20 (by decide)]
    exact zeros_slice 8196 0 4 (by decide)
  · have a : slice sampleImage (44 + (4 + (16 + 0))) 5392 = sampleProj := by
      rw [r1, sampleRest, slice_right _ _ _ _ 16 (zeros_length 16), slice_whole _ _ _ proj_len]
    rw [show slice sampleImage 64 5392 = sampleProj from a]
    exact proj_ok
  · rw [show (5456 : Nat) = 44 + (4 + (16 + (5392 + 0))) from rfl, r2, slice_whole _ _ _ (by decide)]
    decide

/-- Whether an action has a result. -/
def succeeded {ε α : Type} : Except ε α → Bool
  | .ok _ => true
  | .error _ => false

theorem result_of {ε α : Type} {x : Except ε α} (h : succeeded x = true) : ∃ t, x = .ok t := by
  cases x with
  | error e => cases h
  | ok t => exact ⟨t, rfl⟩

theorem some_of {α : Type} {x : Option α} (h : x.isSome = true) : ∃ t, x = some t := Option.isSome_iff_exists.mp h

/-- A crew that forms at once. -/
theorem crew_of {s : State} {i p : Nat} {f : Flight} (a : s.crewFor f.mbx f.tag = none) (b : (s.pool (crewOf s.placeImage i)).isEmpty = false)
    (c : s.tiles.queue.filter (·.cls == i) = []) (d : (s.formCrew i p f.mbx f.tag).isSome = true) : ∃ t, s.crewAtOnce i p f t := by
  obtain ⟨t, e⟩ := some_of d
  exact ⟨t, .inr ⟨a, by simpa using b, c, e⟩⟩

/-- The sample collection with one item in segment 1. -/
def sampleFull : Collection := { sampleColl with assigned := 1, committed := 1, versions := [sampleRow 9 1] }

/-- A vector query of the sample collection: K 1, PROBE 1, no deadline. -/
def sampleQuery : Bytes := leBytes 4 sampleId ++ [1, 0, 0, 0, 1, 0] ++ zeros 14 ++ leBytes 4 256 ++ zeros 36 ++ zeros 256

/-- A message of node 9 delivered by port 2. -/
def sampleMsg (type : Nat) (body : Bytes) : Inbound := { type := type, cls := 1, src := 9, tenant := 5, port := 2, body := body }

/-- The sample module with a message in its inbox. -/
def messaged (type : Nat) (body : Bytes) : State := { sample 0 5 [] with fabric.inbox := [sampleMsg type body] }

/-- It once the message has been taken. -/
def taken : State := { sample 0 5 [] with fabric.inbox := [] }

/-- The only message of the inbox is taken by its type. -/
theorem take_only {s : State} {x : Inbound} (h : s.fabric.inbox = [x]) : s.takeMessage x.type [] = some (x, { s with fabric.inbox := [] }) := by
  unfold State.takeMessage
  rw [h]
  simp

/-- The only message of the inbox is taken by its type and kind. -/
theorem take_kind {s : State} {x : Inbound} {ks : List Nat} (h : s.fabric.inbox = [x]) (k : ks.contains (field x.body 0 1) = true) :
    s.takeMessage x.type ks = some (x, { s with fabric.inbox := [] }) := by
  have c : (x.type == x.type && (ks.isEmpty || ks.contains (field x.body 0 1))) = true := by rw [k]; simp
  have e : [x].find? (fun y => y.type == x.type && (ks.isEmpty || ks.contains (field y.body 0 1))) = some x := by
    rw [List.find?_cons]; simp only [c]
  unfold State.takeMessage
  rw [h, e]
  simp

/-- A route image of node 0 with one way: to node 9 by port 0. -/
def sampleWay : Bytes := zeros 804 ++ leBytes 4 0x400000

/-- A module with port 0 up, and the way to node 9. -/
def linked (s : State) : State := { s with fabric.route := some sampleWay, fabric.ports := s.fabric.ports.set 0 { state := .up } }

/-! ### Small tests, with values from the spec -/

/-- The check value of CRC-32C over the digits 1 to 9. -/
theorem test_crc32c : crc32c [0x31, 0x32, 0x33, 0x34, 0x35, 0x36, 0x37, 0x38, 0x39] = 0xE3069283#32 := by decide +kernel
/-- The worked example of section 10: an exact tie rounds to even, the other element is clamped. -/
theorem test_refine_codes : refineCodes 127 [0x3B000000#32] [0x3D820000#32, 0xBE852BD4#32] = [32, -127] ∧ refineRaw 0x3B000000#32 0xBE852BD4#32 = -133 := by decide +kernel
/-- The worked example of section 10: dequantised values 0.0625 and −0.248046875. -/
theorem test_dequantise : dequantise [0x3B000000#32] [32, -127] = [0x3D800000#32, 0xBE7E0000#32] := by decide +kernel
/-- The worked example of section 10: where record 1,234,567 lies with 8-bit and with 4-bit codes. -/
theorem test_record_place : recordPlace 768 1234567 = (246913, 1536) ∧ recordPlace 384 1234567 = (123456, 2688) := by decide
/-- R308: E6 97 41 becomes U+FFFD and "A", FF becomes U+FFFD. -/
theorem test_utf8 : utf8Whole [0xE6, 0x97, 0x41] = ([0xFFFD, 0x41], 1) ∧ utf8Whole [0xFF] = ([0xFFFD], 1) := by decide +kernel
/-- The worked example of section 18: the split of July's pool of 1,470 W, and the step that fits. -/
theorem test_governor : divide .july 1470000 290000 1300000 = (290000, 1180000) ∧ stepFits 325000 295000 32 31 = false ∧ stepFits 325000 295000 32 30 = true ∧
    bestStep 325000 295000 32 36 = 30 := by decide +kernel

/-- The row of the worked example of section 13, element 0 code 40 and element 1 code 127 under SCALE 0.01. -/
def ownerTable : TableDesc :=
  { composition := 0x31, dim := 64, format := 4, store := 1, rowsLog2 := 28, rLog2 := 0, combine := 0, update := 1, seed := 0, migratePct := 50 }
def ownerUpdate (issuer seq index : Nat) (v : Word) : RowUpdate :=
  { step := 912, issuer := issuer, seq := seq, index := index, part := 0, row := 0x2C41E07, delta := v :: List.replicate 63 0 }
/-- The worked example of section 13: three updates in the order of R332 leave code 53. -/
theorem test_row_update : rowSize ownerTable = 128 ∧ blockOf 0x2C41E07 = 11329 ∧
    (((applyRow ownerTable 912 { scale := 0x3C23D70A#32, elems := 40 :: 127 :: List.replicate 62 0 }
      [ownerUpdate 0x109 3 5 0x3DCCCCCD#32, ownerUpdate 0x103 7 40 0xBCA3D70A#32, ownerUpdate 0x103 7 12 0x3D4CCCCD#32]).1).elems.take 2) = [53, 127] := by decide +kernel
/-- The worked example of section 2: a sealed chunk of 2,176 bytes needs a packet of 35 slots. -/
theorem test_packet_slots : packetSlots 2176 = 35 ∧ packetSlots 32 = 1 ∧ packetSlots 33 = 2 := by decide

/-- Terms that WellFormed refuses, one for each check. -/
theorem test_illFormed : (([.bar0AccessViolation true (2 ^ 20) 4, .bar0AccessViolation true 0 0, .registerWrite (2 ^ 20) false 0, .registerWrite 4 true 0, .registerWrite 2 false 0,
    .registerWrite 4 false (2 ^ 32), .piwDataWrite 0 0 [], .piwDataWrite 0 (2 ^ 20 - 1) [1, 2], .mailboxTurn [⟨zeros 31, [], true, []⟩], .operationAck 0 (2 ^ 64) true, .operationApply 0 ⟨2 ^ 64, false⟩,
    .segmentSealed 0 (2 ^ 64) false, .segmentRetire 0 (2 ^ 64), .tombstoneMaterialised 0 (2 ^ 64), .legacyRedistributeDone 0 (2 ^ 20), .mapRunRepair 0 ⟨2 ^ 20, 0⟩ true, .mapRunRepair 0 ⟨0, 3⟩ true,
    .nbuMarkWrite 0 (2 ^ 64) 0 0, .nbuMarkWrite 0 0 (2 ^ 64) 0, .nbuMarkWrite 0 0 0 (2 ^ 64), .granuleUncorrectable 0 0 .other (some (.served (2 ^ 64) 0, 1)), .hostCacheFill 0 0 (2 ^ 64) 0,
    .flashReadComplete (.served 0 65536) 0 0 0 .hard false, .flashReadComplete .mgmt 0 0 (2 ^ 23) .hard false, .flashProgramComplete 0 0 [] 0 0,
    .flashProgramComplete 0 0 (List.replicate 16 0) 0 0, .eraseFail (2 ^ 23), .quadBlockErase (2 ^ 23), .quadBlockRefresh (2 ^ 23), .flashPatrol (2 ^ 23) true, .sharedPublish 0 (2 ^ 64),
    .flitRetryExhausted 0 [(.served (2 ^ 64) 0, 0)], .governorTick ⟨0, 0, 0, [], [0, 0, 0, 0], [], [], []⟩, .governorTick ⟨0, 0, 0, [0, 0, 0, 0], [0], [], [], []⟩, .inputOvervoltage 440,
    .springBringUp ⟨[], [0, 0], []⟩ [], .springBringUp ⟨[], [], [0, 0]⟩ [], .springBringUp ⟨[], [], []⟩ [5, 5], .subqueryHedge .mgmt 0 0 [1, 2, 3], .mctpControlMessage [1, 2], .spdmGetCertificate 0 0 65536 0, .spdmGetCertificate 0 0 0 65536, .spdmChallenge 0 0 (zeros 31),
    .spdmGetMeasurements 0 0 true [], .spdmChunkSend 0 65536 true [], .spdmChunkGet 0 65536, .mgmtRecordPacket 0 0 ⟨zeros 33, [], true, []⟩, .hedgeBindTimeout (2 ^ 64) 0,
    .hedgeBindTimeout 0 65536, .logRecordResend 0 (2 ^ 64) 0, .replicaPromote 0 0 [(0, 2 ^ 64)] none, .forwardingRecordRelease 0 (2 ^ 20) 0, .coldPowerUp 359,
    .search (.served 0 65536) 1, .identify (.item 0 0) 1] : List Instr).all fun i => !i.wellFormed) = true := by decide +kernel
/-- Their neighbours inside the ranges. -/
theorem test_wellFormed : (([.bar0AccessViolation true (2 ^ 20 - 1) 1, .registerWrite 0x1000 true 0, .registerWrite 4 false (2 ^ 32 - 1), .piwDataWrite 0 (2 ^ 20 - 1) [1], .mailboxTurn [⟨zeros 32, [], true, []⟩],
    .operationAck 0 (2 ^ 64 - 1) true, .mapRunRepair 0 ⟨2 ^ 20 - 1, 0⟩ true, .eraseFail (2 ^ 23 - 1), .flashProgramComplete 0 0 (List.replicate 15 0) 0 0,
    .governorTick ⟨0, 0, 0, [0, 0, 0, 0], [0, 0, 0, 0], [], [], []⟩, .inputOvervoltage 441, .mctpControlMessage [1, 2, 3], .coldPowerUp 360, .search (.item 0 255) 1, .identify .mgmt 1] : List Instr).all
      Instr.wellFormed) = true := by decide +kernel
/-- A packet carries at most the 16 MiB of payload any ring can hold (R48). -/
theorem test_packet_payload (p : Bytes) (h : 16777216 < p.length) : Packet.ok ⟨zeros 32, p, true, []⟩ = false := by
  simp [Packet.ok]; omega

/-! ### Witnesses: states and operands that meet the hypotheses of the statements -/

theorem witness_StepRunsTheFrontCommand : State.reset.pending = [] := rfl

theorem witness_OnlyPowerRowsTouchPower : powerRow (.nop .mgmt 0) = false ∧ ∃ t, exec (.nop .mgmt 0) State.reset = .next t := ⟨rfl, _, rfl⟩

theorem witness_StepsKeepTheStateLawful : ∃ t, State.reset.lawful ∧ step State.reset = .next t :=
  ⟨_, ⟨reset_within _, Power.coherent_idle rfl rfl rfl rfl nofun⟩, rfl⟩

theorem witness_SeasonsMoveByTheTable : ∃ t, State.reset.lawful ∧ exec .flushEnd State.reset = .next t :=
  ⟨_, ⟨reset_within _, Power.coherent_idle rfl rfl rfl rfl nofun⟩, rfl⟩

theorem witness_GlobalErrorsRaiseVectorZero :
    63 < 64 ∧ State.reset.host.glbErr.getLsbD 63 = false ∧ (State.reset.host.msix.getD 0 {}).control.getLsbD 0 = true ∧
      ({ State.reset with host.msix := [(0, { control := 0 })] } : State).host.glbErr.getLsbD 0 = false ∧
      ((({ State.reset with host.msix := [(0, { control := 0 })] } : State).host.msix.getD 0 {}).control.getLsbD 0 = false) ∧
      ({ State.reset with host.glbErr := 1 } : State).host.glbErr.getLsbD 0 = true := by decide

theorem witness_BadBarAccesses : State.reset.pcieReachable = true ∧ barLegal 0x28 4 = false ∧ barLegal 0x1000 4 = true ∧ 6 % 4 ≠ 0 := by decide

theorem witness_RegisterWrites : State.reset.pcieReachable = true ∧ (State.reset.mbx 4095).state = .disabled ∧
    (({ State.reset with host.mailboxes := [(0, { state := .active })] } : State).mbx 0).state ≠ .disabled := by decide

theorem witness_Doorbells : State.reset.pcieReachable = true ∧
    (({ State.reset with host.mailboxes := [(0, { state := .active, cfg := 0x8006318C#32 })] } : State).mbx 0).state = .active ∧
    (4096#64 : Quad).toNat < 2 ^ 32 ∧ ((4096#64 : Quad).setWidth 32 - (0#32)).toNat ≤ 2 ^ bits (0x8006318C#32 : Word).toNat 0 4 ∧
    ¬((4097#64 : Quad).setWidth 32 - (0#32)).toNat ≤ 2 ^ bits (0x8006318C#32 : Word).toNat 0 4 := by decide

theorem witness_MailboxConfiguration :
    let b : Mailbox := { basesWritten := (true, true) }
    let s (b : Mailbox) : State := { State.reset with host.mailboxes := [(0, b)] }
    ((s b).pcieReachable = true ∧ ((s b).mbx 0).state = .disabled ∧ cfgValid (1#1 ++ 0x0006318C#31) = true ∧
      ((s b).mbx 0).basesWritten = (true, true)) ∧
    (cfgValid (1#1 ++ 0x0006318B#31) = false ∧ (State.reset.mbx 0).basesWritten ≠ (true, true)) ∧
    (((s { state := .active, cfg := 0x80000000#32 }).mbx 0).state ≠ .disabled ∧ ((s { state := .active, cfg := 0x80000000#32 }).mbx 0).cfg.getLsbD 31 = true) ∧
    ((s { state := .halted }).mbx 0).state = .halted ∧
    (((s { state := .resetting }).mbx 0).state = .resetting ∧ (s { state := .resetting }).inFlight 0 = 0 ∧
      (s { state := .resetting }).host.done.any (·.mbx == 0) = false) := by decide

theorem witness_ConsumerIndices :
    let x : Stream := { tenant := 0, base := 0, slotsLog2 := 6, vector := 0, irqCount := 1, irqUs := 0, prod := 0, cons := 0xFFFFFFFF#32 }
    let s : State := { State.reset with
      clock := 1000, host.mailboxes := [(0, { rspProd := 4, unreported := 1, irqMod := 0x10000#32 })], host.streams := [(3, x)] }
    s.pcieReachable = true ∧ ((4 : Word) - (s.mbx 0).rspCons).toNat ≤ ((s.mbx 0).rspProd - (s.mbx 0).rspCons).toNat ∧
      ¬((5 : Word) - (s.mbx 0).rspCons).toNat ≤ ((s.mbx 0).rspProd - (s.mbx 0).rspCons).toNat ∧ s.host.streams.find 3 = some x ∧
      ((0 : Quad).setWidth 32 - x.cons).toNat ≤ (x.prod - x.cons).toNat ∧ ¬((1 : Quad).setWidth 32 - x.cons).toNat ≤ (x.prod - x.cons).toNat ∧
      (s.mbx 0).unreported ≠ 0 ∧ bits (s.mbx 0).irqMod.toNat 16 31 ≠ 0 ∧
      (s.mbx 0).oldest + bits (s.mbx 0).irqMod.toNat 16 31 * 1000 ≤ s.clock := by decide

theorem witness_WindowMemory : Memory.wf [(0, 1), (1048575, 255)] = true ∧ Memory.wf [(0, 0)] = false ∧ Memory.wf [(1, 1), (1, 2)] = false := by decide

theorem witness_IngestWindows :
    let s (x : Window) : State := { State.reset with clock := 1000000, host.windows := [(63, x)] }
    let x : Window := { enable := true, bound := some 4095, next := 64 }
    (s x).pcieReachable = true ∧
    ((s { x with flushRequested := true }).win 63).flushRequested = true ∧ ((s x).win 63).current = none ∧ ((s x).win 63).queued = [] ∧
    (s x).host.flights = [] ∧ (s x).host.done = [] ∧ (s x).host.held = [] ∧
    ((s { x with queued := [{ offset := 0, bytes := 64, arrival := 0 }] }).win 63).queued ≠ [] ∧
    ((s {}).win 63).enable = false ∧ ((s { x with overrun := true }).win 63).overrun = true ∧ ((s x).win 63).enable = true ∧
    winFull { x with queued := [{ offset := 128, bytes := 1048512, arrival := 0 }] } = true ∧ winFull ((s x).win 63) = false ∧
    winFree { x with queued := [{ offset := 128, bytes := 1048512, arrival := 0 }] } < (128 + 1048576 - 64) % 1048576 + 1 ∧
    (71 + 1048576 - 64) % 1048576 < 8 ∧ 8 ≤ (72 + 1048576 - 64) % 1048576 ∧
    ((63 : Nat) + 1048576 - 64) % 1048576 + 1 ≤ winFree ((s x).win 63) ∧ 8 ≤ winFree ((s x).win 63) ∧
    ¬ 64 ∣ 65 ∧ 64 ∣ 262144 ∧
    0 + ((s { x with current := some { since := 0 } }).win 63).timeout * 100000 ≤ (s x).clock := by
  decide
/-- The slot of the packet at reset's window 0: a NOP header with its CRC, length 0, sequence number 0. -/
theorem witness_IngestWindows_slot :
    let raw := leBytes 20 1 ++ leBytes 4 (crc32c (leBytes 20 1 ++ zeros 4 ++ zeros 8)).toNat ++ zeros 8
    let y : Memory := memStore 1048576 [] 8 raw
    headerCrc (memLoad 1048576 y 8 32) = (parseHeader (memLoad 1048576 y 8 32)).crc ∧
      0x40 = 64 * ((40 + (parseHeader (memLoad 1048576 y 8 32)).length.toNat + 63) / 64) ∧
      headerCrc (memLoad 1048576 [] 8 32) ≠ (parseHeader (memLoad 1048576 [] 8 32)).crc := by decide +kernel

theorem witness_Admission :
    let h : Header := { version := 1, status := 0, opcode := 1, tenant := 4095, flags := 0, tag := 7, length := 0, session := 0, crc := 0, csn := 0 }
    let s : State := { State.reset with host.mailboxes := [(4095, { state := .active, cfg := 0x8006318C#32 })] }
    hdrFence h = false ∧ s.host.held.find 4095 = none ∧ hdrSealed h = false ∧ s.inFlight 4095 < s.inflightLimit 4095 ∧ s.bucketAllows 4095 h = true ∧
    s.rspRoom 4095 1 = true ∧ s.sessionStopped 4095 h = false ∧
    h.tenant.toNat = 4095 ∧ s.tagInFlight 4095 h.tag = false ∧ opRow h.opcode = some ⟨1, true, true, .clear, .identity⟩ ∧
    s.tenants.disabled.contains 4095 = false ∧ stepEight h.opcode s.power.season s.placed = true ∧
    (let u := (s.updMbx 4095 fun b => { b with limitWait := false, rspWait := false }).bucketTake 4095 h; u.rspRoom 4095 (rspSlots (u.responseBound { mbx := 4095, hdr := h, path := .ring, plain := [], arrival := 0, reserved := 0 }))) = true ∧
    State.reset.rspRoom 4095 5000 = false := by decide
theorem witness_Admission_sealed :
    let h : Header := { version := 1, status := 0, opcode := 0x2011, tenant := 3, flags := 3, tag := 7, length := 40, session := 9, crc := 0, csn := 0 }
    let s : State := { State.reset with
      power.season := .summer, models.placement := some { gen := 1, image := [] }
      host.mailboxes := [(3, { state := .active, cfg := 0x8006318C#32 })], keys.sessions := [(9, { tenant := 3, keyId := 1, ks := [] })] }
    let p : Packet := { header := [], payload := leBytes 8 1 ++ zeros 32, opens := true, plain := zeros 16 }
    hdrFence h = true ∧ s.fenceBlocked 3 (.window 63) = false ∧ windowOpcode h.opcode = true ∧ hdrSealed h = true ∧ s.sessionStopped 3 h = false ∧
    (opRow h.opcode).elim false (fun r => r.mark == .sealed && r.onTenant) = true ∧ stepEight h.opcode s.power.season s.placed = true ∧
    (s.sessionOf 3 h).elim false (fun x => !x.closing && !x.exhausted && seqFresh x (field p.payload 0 8)) = true ∧
    24 ≤ h.length.toNat ∧ p.plain.length = h.length.toNat - 24 := by decide

theorem witness_HeaderCrcHalts :
    let s : State := { State.reset with host.mailboxes := [(4096, { state := .active, cfg := 0x8006318C#32, doorbell := 1 })] }
    s.serving = true ∧ s.pcieReachable = true ∧ s.nextTurn = some 4096 ∧ s.pendingRing 4096 = true ∧
      headerCrc (zeros 32) ≠ (parseHeader (zeros 32)).crc := by decide +kernel

theorem witness_RingTurns_turn :
    let h : Bytes := [1, 0, 1, 0, 0, 0, 0, 0, 7, 0, 0, 0] ++ zeros 8 ++ zeros 4 ++ zeros 8
    let h := h.take 20 ++ leBytes 4 (headerCrc h).toNat ++ h.drop 24
    let p : Packet := { header := h, payload := [] }
    let s : State := { State.reset with host.mailboxes := [(0, { state := .active, cfg := 0x8006318C#32, doorbell := 1 })] }
    s.serving = true ∧ s.pcieReachable = true ∧ s.nextTurn = some 0 ∧ s.pendingRing 0 = true ∧ headerCrc p.header = (parseHeader p.header).crc ∧
      (parseHeader p.header).length.toNat ≤ min 16777216 (2 ^ cmdMaxLog2 (s.mbx 0) - 32) ∧
      packetSlots (parseHeader p.header).length.toNat ≤ ((s.mbx 0).doorbell - (s.mbx 0).cmdCons).toNat := by decide +kernel
set_option maxRecDepth 20000 in
theorem witness_RingTurns_windows :
    let x : Window := { bound := some 0, queued := [{ offset := 0, bytes := 64, arrival := 0 }] }
    let s : State := { State.reset with host.windows := [(0, x)], host.mailboxes := [(0, { state := .active, cfg := 0x8006318C#32 })] }
    (s.win 0).queued = [{ offset := 0, bytes := 64, arrival := 0 }] ∧ (s.win 0).bound = some 0 ∧ s.serving = true ∧ (s.mbx 0).state = .active ∧
      s.tenants.disabled.contains 0 = false ∧ s.host.held.find 0 = none ∧ s.packetHeld 0 (parseHeader (zeros 32)).opcode [] = false ∧
      (match s.submit 0 (.window 0) (parseHeader (zeros 32)) { header := zeros 32, payload := [], opens := true, plain := [] } 0 with
        | .taken _ => true | .wait _ => false) = true ∧ memLoad 1048576 (s.win 0).buffer 8 32 = zeros 32 := by decide
theorem witness_RingTurns_timeout :
    let s : State := { State.reset with
      clock := 10000000, host.mailboxes := [(0, { state := .active, doorbell := 1, partialPacket := some ({ version := 1, status := 0, opcode := 3, tenant := 0, flags := 0, tag := 0, length := 64, session := 0, crc := 0, csn := 0 }, 0) })] }
    (s.mbx 0).state = .active ∧ s.serving = true ∧ 0 + 10000000 ≤ s.clock ∧ ((s.mbx 0).doorbell - (s.mbx 0).cmdCons).toNat < packetSlots 64 := by decide
theorem witness_RingTurns_flush :
    let f : Flight := { mbx := 4096, hdr := { version := 1, status := 0, opcode := 0x51, tenant := 0, flags := 1, tag := 0, length := 28, session := 1, crc := 0, csn := 0 }, path := .ring, plain := zeros 4, arrival := 0, reserved := 0, work := .flushWait 63 }
    let s : State := { State.reset with host.windows := [(63, { bound := some 1, flushRequested := true })], host.flights := [f] }
    (s.win 63).flushRequested = true ∧ (s.win 63).current = none ∧ (s.win 63).queued = [] ∧ (s.host.flights.any (·.path == .window 63)) = false ∧
      (s.host.done.any (·.path == .window 63)) = false ∧ s.host.held = [] ∧ ((s.flushStep 63).win 63).flushRequested = false ∧
      (s.flushStep 63).host.flights.find? (·.work == .flushWait 63) = some f := by
  decide
theorem witness_RingTurns_resume :
    let h : Header := { version := 1, status := 0, opcode := 1, tenant := 0, flags := 0, tag := 0, length := 0, session := 0, crc := 0, csn := 0 }
    let f : Flight := { mbx := 0, hdr := h, path := .window 63, plain := [], arrival := 0, reserved := 0 }
    let s : State := { State.reset with host.mailboxes := [(0, { state := .active })], host.held := [(0, f)] }
    Mbx.key (.tenant 0) ≤ 4096 ∧ s.host.held.find 0 = some f ∧ (s.mbx 0).state = .active ∧ s.sessionStopped 0 f.hdr = false ∧
      stepEight f.opcode s.power.season s.placed = true ∧ hdrSealed f.hdr = false ∧ State.reset.host.held.find 0 = none := by decide

theorem witness_AnswersWaitInLine : ∃ f : Flight, f.mbx = 4096 ∧ f.mbx < 2 ^ 20 :=
  ⟨{ mbx := 4096, hdr := { version := 1, status := 0, opcode := 3, tenant := 0, flags := 0, tag := 0, length := 0, session := 0, crc := 0, csn := 0 }, path := .ring, plain := [], arrival := 0, reserved := 0 }, rfl, by decide⟩

theorem witness_ResponsesReachTheRing :
    let h : Header := { version := 1, status := 0, opcode := 3, tenant := 4095, flags := 0, tag := 0, length := 0, session := 0, crc := 0, csn := 0 }
    let d : Done := { mbx := 4095, hdr := h, path := .ring, reserved := 1, response := { status := .done, payload := [], sealed := false }, admitted := true }
    let s (d : Done) : State := { State.reset with host.mailboxes := [(4095, { state := .active, cfg := 0x8006318C#32, reserved := 1, irqMod := 1 })], host.done := [d] }
    (s d).serving = true ∧ ({ s d with power.season := .winter } : State).serving = false ∧ State.reset.host.done.find? (State.reset.leaves 0) = none ∧
      (s d).host.done.find? ((s d).leaves 4095) = some d ∧ (s d).fitsRing d = true ∧
      ((s d).writeMany 4095 (min 1 4096)).mbx 4095 ≠ (s d).mbx 4095 ∧ (((s d).writeMany 4095 (min 1 4096)).mbx 4095).rspProd ≠ ((s d).mbx 4095).rspProd ∧
      (({ s d with host.mailboxes := [(4095, { cfg := 0x8006318C#32, rspProd := 4096 })] } : State).fitsRing d) = false ∧
      (s { d with discard := true }).host.done.find? ((s { d with discard := true }).leaves 4095) = some { d with discard := true } ∧
      bits ((s d).mbx 4095).irqMod.toNat 0 15 = 1 ∧ (s d).host.flights = [] ∧
      (s d).sealSeq 4095 h = none ∧ (s d).sealSeq 4095 { h with opcode := 0x1003 } = some (0, s d) := by decide
theorem witness_ResponsesReachTheRing_port :
    let h : Header := { version := 1, status := 0, opcode := 3, tenant := 0, flags := 0, tag := 0, length := 0, session := 0, crc := 0, csn := 0 }
    let d : Done := { mbx := 4097, hdr := h, path := .port 1, reserved := 0, response := { status := .done, payload := [], sealed := false }, admitted := true }
    let s : State := { State.reset with host.ports := [{ connected := true }, {}], host.done := [d] }
    s.host.done.find? (s.leaves 4097) = some d ∧ s.portFor 1 = some 0 := by decide

theorem witness_StreamRecords :
    let r : PendingRecord := { tag := 1, mbx := 7, tenant := 7, opcode := 0x3001, session := 9, csn := 0, payload := [1], last := true, aborted := false }
    let x (n : Nat) (r : PendingRecord) : Stream := { tenant := 7, base := 0, slotsLog2 := n, vector := 1, irqCount := 2, irqUs := 1, waiting := [r] }
    let f : Flight := { mbx := 7, hdr := { version := 1, status := 0, opcode := 0x3001, tenant := 7, flags := 5, tag := 1, length := 0, session := 9, crc := 0, csn := 0 }, path := .ring, plain := [], arrival := 0, reserved := 1, work := .streaming 1023 .done none }
    let s (x : Stream) : State := { State.reset with clock := 1000000000, host.streams := [(1023, x)], host.flights := [f] }
    let t (x : Stream) : State := { s x with keys.sessions := [(9, { tenant := 7, keyId := 1, ks := [1] })] }
    (s (x 6 r)).host.streams.find 1023 = some (x 6 r) ∧ ((x 6 r).prod - (x 6 r).cons).toNat + recordSlots r ≤ 2 ^ (x 6 r).slotsLog2 ∧
      (s (x 6 r)).serving = true ∧ (s (x 6 r)).pcieReachable = true ∧ (s (x 6 r)).sealSeq 7 (recordHeader r) = none ∧
      ((t (x 6 r)).sealSeq 7 (recordHeader r)).isSome = true ∧ (s (x 6 r)).flight 7 1 = some f ∧
      ¬((x 0 { r with payload := zeros 64 }).prod - (x 0 r).cons).toNat + recordSlots { r with payload := zeros 64 } ≤ 2 ^ 0 ∧
      [r].find? (fun y => !y.aborted && y.since + 1000000000 ≤ (s (x 0 r)).clock) = some r ∧ f.deadline = none := by decide

theorem witness_IdentityCommands : ∀ op ∈ [0x0001, 0x0002, 0x0003, 0x1001, 0x0030, 0x0031, 0x0050, 0x0051, 0x0040],
    (sample op 5 (sampleStream ++ zeros 16)).turn op (.tenant 5) 7 (sampleFlight op 5 (sampleStream ++ zeros 16)) := by
  intro op h; simp only [List.mem_cons, List.not_mem_nil, or_false] at h
  rcases h with rfl | rfl | rfl | rfl | rfl | rfl | rfl | rfl | rfl <;> exact ⟨by decide, by decide, by decide, by decide, by decide⟩
set_option maxRecDepth 20000 in
theorem witness_IdentityCommands_payloads :
    let b := sampleStream ++ zeros 16
    (sampleFlight 0x30 5 b).opens 32 32 ∧ field b 0 8 % 4096 = 0 ∧ 6 ≤ field b 8 1 ∧ field b 8 1 ≤ 24 ∧ zeroField b 9 1 = true ∧ field b 0xA 2 < 2048 ∧
      field b 0xC 2 ≠ 0 ∧ zeroField b 0x10 16 = true ∧ (sample 0x30 5 b).streamsHeld 5 < 16 ∧
      (List.range 1024).find? (fun n => ((sample 0x30 5 b).host.streams.find n).isNone) = some 0 ∧
    (sampleFlight 0x1001 5 (leBytes 4 2)).opens 4 4 ∧ field (leBytes 4 2) 0 4 ≤ 2 ∧ zeroField (leBytes 4 2) 2 2 = true ∧
    field (leBytes 4 (2 ^ 18 - 1)) 0 4 < 2 ^ 18 ∧ ((sample 0x50 5 []).win (bits (2 ^ 18 - 1) 0 5)).bound = none ∧ field (leBytes 4 63) 0 4 < 64 ∧
    (({ sample 0x51 5 [] with host.windows := [(63, { bound := some 5 })] } : State).win 63).bound.isSome = true ∧
    (({ sample 0x31 5 [] with host.streams := [(2, { tenant := 5, base := 0, slotsLog2 := 6, vector := 0, irqCount := 1, irqUs := 0 })] } : State).host.streams.find 2).isSome = true ∧
    (sampleFlight 0x40 5 (zeros 8)).opens 8 8 ∧ zeroField (zeros 8) 4 4 = true ∧
    ({ sample 0x40 5 (zeros 8) with host.flights := [sampleFlight 0x40 5 (zeros 8), { sampleFlight 3 5 [] with hdr.tag := 0 }] } : State).tagInFlight 5 0 = true ∧
    ((sample 3 5 []).flight 5 7).isSome = true := by decide

theorem witness_KeyCommands :
    let p64 := leBytes 4 1 ++ [1] ++ zeros 59
    p64.length = 64 ∧ field p64 0 4 ≠ 0 ∧ field p64 4 1 = 1 ∧ zeroField p64 5 3 = true ∧ zeroField p64 0x28 24 = true ∧ (zeros 48).length = 48 ∧
      zeroField (zeros 48) 4 12 = true := by decide

theorem witness_TenantCommands_pattern :
    let b := leBytes 2 1279 ++ [3, 3, 7] ++ zeros 3
    let s := sample 0x7032 5 b
    let u : State := { s with index.nbus := [(1279, { patternUntil := 1 })] }
    let d : State := { s with index.nbus := [(1279, { state := 2 })] }
    (sampleFlight 0x7032 5 b).opens 8 8 ∧ field b 0 2 = 1279 ∧ zeroField b 5 3 = true ∧ field b 2 1 = 3 ∧ field b 3 1 = 3 ∧ field b 4 1 = 7 ∧
      (s.nbu 1279).state ≠ 2 ∧ (s.nbu 1279).patternUntil ≤ s.clock ∧ (u.nbu 1279).state ≠ 2 ∧ u.clock < (u.nbu 1279).patternUntil ∧ (d.nbu 1279).state = 2 := by decide

set_option maxRecDepth 20000 in
theorem witness_KeyCommands_effects : ∃ b : Bytes, b = leBytes 8 Config.importHint.toNat ++ zeros 1745 ∧
    (sample 0x1002 5 b).turn 0x1002 (.tenant 5) 7 (sampleFlight 0x1002 5 b) ∧ (sampleFlight 0x1002 5 b).opens 1753 1753 ∧
    field (sampleFlight 0x1002 5 b).plain 0 8 = Config.importHint.toNat ∧ (sample 0x1002 5 b).zeroisingTenant (sampleFlight 0x1002 5 b).tenant = false ∧
    ((sample 0x1002 5 b).keys.trks.filter (·.tenant == 5)).length < 64 ∧ (sample 0x1002 5 b).keys.pkDone - (sample 0x1002 5 b).clock ≤ 1000000 ∧
    (sample 0x1002 5 b).trk 5 1 = none ∧ (sample 0x1002 5 b).contradicts { tenant := 5, keyId := 1, key := zeros 32 } = false := by
  refine ⟨_, rfl, sample_turn (by decide) rfl rfl, ⟨?_, ?_, rfl⟩, field_start 8 _ _ Config.importHint.isLt, by decide, by decide, by decide, by decide, by decide⟩
  · decide
  · decide

set_option maxRecDepth 20000 in
theorem witness_KeyCommands_sessions : ∃ b : Bytes, b = leBytes 8 Config.importHint.toNat ++ zeros 1729 ∧
    (sample 0x1003 5 b).turn 0x1003 (.tenant 5) 7 (sampleFlight 0x1003 5 b) ∧ (sampleFlight 0x1003 5 b).opens 1737 1737 ∧
    field (sampleFlight 0x1003 5 b).plain 0 8 = Config.importHint.toNat ∧ (sample 0x1003 5 b).keys.nextSession < 2 ^ 32 ∧
    ({ sample 0x1003 5 b with keys.trks := [sampleTrk] } : State).trk 5 (BitVec.ofNat 32 (field (leBytes 4 1 ++ zeros 44) 0 4)) = some sampleTrk ∧
    (sample 0x1003 5 b).trk 5 1 = none ∧
    (sample 0x1004 5 []).turn 0x1004 (.tenant 5) 7 (sampleFlight 0x1004 5 []) := by
  refine ⟨_, rfl, sample_turn (by decide) rfl rfl, ⟨?_, ?_, rfl⟩, field_start 8 _ _ Config.importHint.isLt, ?_, rfl, rfl, sample_turn (by decide) rfl rfl⟩ <;> decide

theorem witness_KeyCommands_zeroise :
    let b := [1, 1, 0, 0] ++ leBytes 4 1 ++ zeros 8
    let z : Zeroise := { mbx := 5, tag := 7, scope := 1, tenant := 5, keyId := 1, collections := [] }
    let s : State := { sample 0x1006 5 b with keys.zeroising := [z] }
    s.turn 0x1006 (.tenant 5) 7 (sampleFlight 0x1006 5 b) ∧ (sampleFlight 0x1006 5 b).opens 16 16 ∧ field b 0 1 = 1 ∧ field b 1 1 < 2 ∧ zeroField b 2 2 = true ∧
      zeroField b 8 8 = true ∧ s.keys.zeroising.find? (fun z => z.mbx == (Mbx.tenant 5).key && z.tag == 7 && s.fillReady z) = some z ∧ ((s.endZeroise z).1.flight 5 7).isSome = true :=
  ⟨sample_turn (by decide) rfl rfl, by decide, by decide, by decide, by decide, by decide, by decide, by decide⟩

theorem witness_KeyRotation :
    let b := leBytes 4 sampleId ++ leBytes 4 1 ++ zeros 8
    let s (c : Collection) : State := { sampleWith 0x1005 b c with keys.trks := [sampleTrk] }
    let last : Collection := { sampleColl with gens := [(65535, 1, zeros 8)], gen := 65535 }
    let full : Collection := { sampleColl with gens := [(1, 1, zeros 8), (2, 1, zeros 8), (3, 1, zeros 8), (4, 1, zeros 8)], gen := 4,
                                               segments := [{ id := 1, state := .sealed, gen := 1 }, { id := 2, state := .sealed, gen := 2 }, { id := 3, state := .sealed, gen := 3 }] }
    (∀ c ∈ [sampleColl, last, full], (s c).usableColl 0x20 (field b 0 4) (sampleFlight 0x1005 5 b) = .ok c ∧ (s c).turn 0x1005 (.tenant 5) 7 (sampleFlight 0x1005 5 b)) ∧
      (sampleFlight 0x1005 5 b).opens 16 16 ∧ zeroField b 8 8 = true ∧ (s sampleColl).trk 5 (BitVec.ofNat 32 (field b 4 4)) = some sampleTrk ∧
      (s sampleColl).zeroisingTenant 5 = false ∧ sampleColl.gen < 65535 ∧ ((s sampleColl).liveGensOf sampleColl).length < 4 ∧ last.gen = 65535 ∧ full.gen < 65535 ∧ ((s full).liveGensOf full).length = 4 := by
  refine ⟨fun c hc => ?_, by decide, by decide, rfl, rfl, by decide, by decide, rfl, by decide, by decide⟩
  simp only [List.mem_cons, List.not_mem_nil, or_false] at hc
  rcases hc with rfl | rfl | rfl <;> exact ⟨rfl, sample_turn (by decide) rfl rfl⟩

theorem witness_StreamClosing :
    let b := leBytes 4 1023
    let x : Stream := { tenant := 5, base := 0, slotsLog2 := 6, vector := 0, irqCount := 1, irqUs := 0 }
    let s : State := { sample 0x31 5 b with host.streams := [(1023, x)] }
    let g : Flight := { sampleFlight 0x3001 5 [] with hdr.tag := 8, hdr.flags := 5, path := .port 0, work := .streaming 1023 .done }
    let u : State := { s with host.flights := s.host.flights ++ [g] }
    s.turn 0x31 (.tenant 5) 7 (sampleFlight 0x31 5 b) ∧ (sampleFlight 0x31 5 b).opens 4 4 ∧ bits (field b 0 4) 16 31 = 0 ∧ s.host.streams.find (bits (field b 0 4) 0 15) = some x ∧
      x.tenant = (sampleFlight 0x31 5 b).tenant ∧ (∀ h ∈ s.host.flights, writesTo h ≠ some 1023) ∧
      u.turn 0x31 (.tenant 5) 7 (sampleFlight 0x31 5 b) ∧ g ∈ u.host.flights ∧ writesTo g = some 1023 :=
  ⟨sample_turn (by decide) rfl rfl, by decide, by decide, by decide, by decide, by decide, by decide, by decide, by decide⟩

theorem witness_TenantCommands :
    let cfg := leBytes 2 4095 ++ [0, 0] ++ leBytes 4 1000 ++ leBytes 4 1 ++ leBytes 2 4096 ++ zeros 2 ++ leBytes 4 1280 ++ leBytes 4 262144
    let off := leBytes 2 4095 ++ zeros 6
    let all := leBytes 2 4094 ++ leBytes 2 2 ++ leBytes 2 3 ++ zeros 2
    (sampleFlight 0x20 5 cfg).opens 24 24 ∧ field cfg 0 2 < 4096 ∧ (readTenant cfg).cls ≤ 2 ∧ field cfg 3 1 = 0 ∧
      (if (readTenant cfg).rate = 0 then (readTenant cfg).burst = 0 else (readTenant cfg).rate ≤ (readTenant cfg).burst * 1000) ∧ 1 ≤ (readTenant cfg).inflight ∧
      (readTenant cfg).inflight ≤ 4096 ∧ zeroField cfg 0xE 2 = true ∧ (readTenant cfg).hbmQuota ≤ 1280 ∧ (readTenant cfg).flashQuota ≤ 262144 ∧
      ((readTenant cfg).cls = 2 → (sample 0x20 5 cfg).otherControls 4095 < 64) ∧
    (sampleFlight 0x21 5 off).opens 8 8 ∧ field off 0 2 < 4096 ∧ field off 2 2 = 0 ∧ zeroField off 4 4 = true ∧
    (sampleFlight 0x7021 5 all).opens 8 8 ∧ 1 ≤ field all 2 2 ∧ field all 0 2 + field all 2 2 ≤ 4096 ∧ field all 4 2 < 4 ∧ zeroField all 6 2 = true := by decide

theorem witness_TenantCommands_control :
    let cfg := leBytes 2 5 ++ [2, 0] ++ zeros 8 ++ leBytes 2 1 ++ zeros 10
    let s : State := { sample 0x20 5 cfg with tenants.config := (List.range 64).map fun t => (100 + t, { cls := 2, rate := 0, burst := 0, inflight := 1, hbmQuota := 0, flashQuota := 0 }) }
    (readTenant cfg).cls = 2 ∧ 64 ≤ s.otherControls 5 ∧ (sampleFlight 0x20 5 cfg).opens 24 24 ∧ 1 ≤ (readTenant cfg).inflight := by decide

theorem witness_TenantCommands_reads :
    let log := zeros 8 ++ leBytes 2 4096 ++ zeros 6
    let dia := [2, 0] ++ leBytes 2 1279 ++ zeros 4
    let nbu := leBytes 2 1279 ++ [2, 0] ++ zeros 4
    let e : LogEntry := { seq := 1, time := 0, kind := 4 }
    let s : State := { sample 0x7030 5 log with tenants.log := [e], tenants.logNext := 2, fabTime := 1000000000 }
    let d : State := { sample 0x7031 5 dia with host.flights := [{ sampleFlight 0x7031 5 dia with work := .diagWait 1 0 }] }
    (sampleFlight 0x7030 5 log).opens 16 16 ∧ 1 ≤ field log 8 2 ∧ field log 8 2 ≤ 4096 ∧ zeroField log 10 6 = true ∧ s.tenants.log = e :: [] ∧
      s.tenants.logInterval / 1000000000 < s.fabTime / 1000000000 ∧
    (sampleFlight 0x7031 5 dia).opens 8 8 ∧ 1 ≤ field dia 0 1 ∧ field dia 0 1 ≤ 2 ∧ field dia 1 1 = 0 ∧ zeroField dia 4 4 = true ∧
      (sample 0x7031 5 dia).diagRunning (field dia 0 1) = false ∧ (d.flight (Mbx.tenant 5).key 7).isSome = true ∧
    (sampleFlight 0x7032 5 nbu).opens 8 8 ∧ field nbu 0 2 ≤ 1279 ∧ field nbu 2 1 = 2 ∧ field nbu 3 1 = 0 ∧ field nbu 4 1 = 0 ∧ zeroField nbu 5 3 = true := by decide

theorem witness_KeyCommands_scopes :
    let one := [0, 0, 0, 0] ++ leBytes 4 1 ++ zeros 8
    let all := [2, 0, 0, 0] ++ leBytes 4 1 ++ zeros 8
    let s : State := { sample 0x1006 5 one with keys.trks := [sampleTrk] }
    s.turn 0x1006 (.tenant 5) 7 (sampleFlight 0x1006 5 one) ∧ field one 0 1 = 0 ∧ (s.trk 5 (BitVec.ofNat 32 (field one 4 4))).isSome = true ∧
      s.zeroiseColls 0 5 1 = [] ∧ field all 0 1 = 2 ∧ (sampleFlight 0x1006 5 all).opens 16 16 :=
  ⟨sample_turn (by decide) rfl rfl, by decide, by decide, by decide, by decide, by decide⟩

set_option maxRecDepth 20000 in
theorem witness_Operations_vectors :
    let b := leBytes 4 sampleId ++ leBytes 4 1 ++ zeros 8 ++ leBytes 8 (2 ^ 64 - 2) ++ zeros 136
    let f := sampleFlight 0x2010 5 b
    let s := sampleWith 0x2010 b sampleColl
    s.usableColl 0x20 (field b 0 4) f = .ok sampleColl ∧ sampleColl.isReplica = false ∧ f.opens 16 16777216 ∧ 1 ≤ field b 4 4 ∧ field b 4 4 ≤ 65536 ∧ zeroField b 8 8 = true ∧
      sampleColl.desc.model = 0 ∧ (b.drop 16).length = field b 4 4 * vectorRecordBytes sampleColl.desc ∧
      (∃ recs, readVectorRecords sampleColl.desc (field b 4 4) 0x30 [] (b.drop 16) = .ok recs) ∧ s.opRoom sampleColl f false 1 1 ∧ s.turn 0x2010 (.tenant 5) 7 f ∧
      (sampleWith 0x2012 b sampleColl).turn 0x2012 (.tenant 5) 7 (sampleFlight 0x2012 5 b) := by
  refine ⟨rfl, rfl, by decide, by decide, by decide, by decide, rfl, by decide, ⟨_, rfl⟩, ?_, sample_turn (by decide) rfl rfl, sample_turn (by decide) rfl rfl⟩
  refine ⟨by decide, by decide, rfl, by decide, by decide, .inl (by decide), by decide⟩

set_option maxRecDepth 20000 in
theorem witness_Operations_text :
    let b := leBytes 4 sampleId ++ leBytes 4 1 ++ zeros 8 ++ leBytes 8 9 ++ zeros 8 ++ leBytes 4 1 ++ zeros 4 ++ [65] ++ zeros 7
    let c : Collection := { sampleColl with desc := { sampleDesc with model := 1, vocab := 1, chunkTokens := 8 } }
    let f := sampleFlight 0x2011 5 b
    let s := sampleWith 0x2011 b c
    s.usableColl 0x20 (field b 0 4) f = .ok c ∧ c.isReplica = false ∧ f.opens 16 16777216 ∧ c.desc.model ≠ 0 ∧ wholeText c.desc (field b 4 4) (b.drop 16) = ((b.drop 16).length, field b 4 4) ∧
      (∃ recs, readTextRecords c.desc (field b 4 4) 0x30 [] (b.drop 16) = .ok recs) ∧ s.opRoom c f true 1 1 ∧ s.turn 0x2011 (.tenant 5) 7 f ∧
      (sampleWith 0x2013 b c).turn 0x2013 (.tenant 5) 7 (sampleFlight 0x2013 5 b) := by
  refine ⟨rfl, rfl, by decide, by decide, by decide, ⟨_, rfl⟩, ?_, sample_turn (by decide) rfl rfl, sample_turn (by decide) rfl rfl⟩
  refine ⟨by decide, by decide, rfl, by decide, by decide, .inl (by decide), by decide⟩

set_option maxRecDepth 20000 in
theorem witness_Operations_deletes :
    let b := leBytes 4 sampleId ++ leBytes 4 1 ++ zeros 8 ++ leBytes 8 9
    let p := leBytes 4 sampleId ++ [1] ++ zeros 11 ++ [0, 1, 0, 0, 0, 0, 0, 0] ++ leBytes 8 9 ++ zeros 8
    (sampleWith 0x2014 b sampleColl).usableColl 0x20 (field b 0 4) (sampleFlight 0x2014 5 b) = .ok sampleColl ∧ b.length = 16 + 8 * field b 4 4 ∧
      (sampleWith 0x2014 b sampleColl).turn 0x2014 (.tenant 5) 7 (sampleFlight 0x2014 5 b) ∧
    (sampleFlight 0x2015 5 p).opens 40 784 ∧ field p 4 1 = 1 ∧ zeroField p 5 11 = true ∧ p.length = 16 + 24 * 1 ∧ sampleColl.tombCount < 16 ∧
      (sampleWith 0x2015 p sampleColl).turn 0x2015 (.tenant 5) 7 (sampleFlight 0x2015 5 p) ∧ (sampleWith 0x2014 b sampleColl).coll sampleColl.id = some sampleColl := by
  refine ⟨rfl, by decide, sample_turn (by decide) rfl rfl, by decide, by decide, by decide, by decide, by decide, sample_turn (by decide) rfl rfl, rfl⟩

theorem witness_Operations_filter :
    let p : Bytes := [0, 1, 0, 0, 0, 0, 0, 0] ++ leBytes 8 9 ++ zeros 8
    checkFilter sampleColl.desc.fields 0x30 1 p = .ok () ∧ (sampleWith 0x2015 p sampleColl).opRoom sampleColl (sampleFlight 0x2015 5 p) false 1 0 := by
  refine ⟨rfl, by decide, by decide, rfl, by decide, by decide, .inl (by decide), by decide⟩

theorem witness_OperationLife :
    let c : Collection := { sampleColl with ops := [sampleOp], assigned := 1 }
    let f : Flight := { sampleFlight 0x2014 5 [] with work := .ackWait sampleId 1 }
    let s : State := { sampleWith 0x2014 [] c with host.flights := [f] }
    let ready : Operation := { sampleOp with acked := true }
    let d : Collection := { c with ops := [ready] }
    let e : Collection := { c with ops := [{ sampleOp with acked := true, applied := true }] }
    s.coll (BitVec.ofNat 32 sampleId).toNat = some c ∧ c.op 1 = some sampleOp ∧ sampleOp.acked = false ∧ s.serving = true ∧ c.replicas = [] ∧
      s.ackable { sampleOp with buffered := true, durable := true } = true ∧ s.ackable sampleOp = false ∧ s.flight sampleOp.mbx sampleOp.tag = some f ∧
    d.op 1 = some ready ∧ d.applicable ready = true ∧ (s.placeRows true (fun _ => none) (d.apply s.clock ready).1).isSome = true ∧ opStored ready = 0 ∧
    e.prefixEnd e.ops.length = 1 ∧ e.committed < 1 ∧ e.availability = .ready := by
  refine ⟨rfl, rfl, rfl, rfl, rfl, rfl, rfl, rfl, rfl, rfl, ?_, rfl, ?_, ?_, rfl⟩ <;> decide

/-- The first 192 bytes of a COLLECTION_CREATE that fits `sampleImage`. -/
def sampleCreate : Bytes := leBytes 4 (sampleId + 1) ++ leBytes 4 1 ++ leBytes 2 64 ++ leBytes 2 256 ++ [8, 2, 1, 0, 1, 0, 10, 20] ++ zeros 8 ++ leBytes 2 0 ++ leBytes 2 100 ++
  leBytes 8 1000 ++ leBytes 4 65536 ++ zeros 4 ++ leBytes 4 13672 ++ zeros 12 ++ ([1, 0, 0, 8, 0, 0, 0, 0] ++ zeros 120)
theorem sampleCreate_length : (sampleCreate ++ sampleImage).length = 13864 := by
  rw [List.length_append, sampleImage_length]; decide +kernel
theorem sampleCreate_fields : fields (createFields 5 (sampleCreate ++ sampleImage)) = .ok () := by
  unfold createFields
  rw [sampleCreate_length]
  decide +kernel
theorem sampleCreate_image : qimageFault (readDescriptor (sampleCreate ++ sampleImage)) ((sampleCreate ++ sampleImage).drop 0xC0) = none := by
  rw [List.drop_left' (by decide +kernel)]
  exact sampleImage_sound (by decide +kernel)
theorem witness_CollectionCommands :
    let b := sampleCreate ++ sampleImage
    let s : State := { samplePlaced 0x2001 b sampleColl with keys.trks := [sampleTrk] }
    let f := sampleFlight 0x2001 5 b
    s.turn 0x2001 (.tenant 5) 7 f ∧ f.opens 0xC0 16777216 ∧ fields (createFields f.tenant f.plain) = .ok () ∧ qimageFault (readDescriptor b) (f.plain.drop 0xC0) = none ∧
      s.coll (field f.plain 0 4) = none ∧ s.trk f.tenant (readDescriptor b).keyId = some sampleTrk ∧ s.createModel (readDescriptor b) f = .ok (0, 0) ∧
      s.classFor f.tenant (field f.plain 0 4 % 2 ^ 20) = some 0 ∧ (readDescriptor b).model = 0 ∧ s.index.collections.length < 65536 ∧
      createReserve (readDescriptor b) (readQHeader (f.plain.drop 0xC0)) ≤ s.regionFree (placeClassOf s.placeImage 0).region ∧
      s.quotaHbm f.tenant (createReserve (readDescriptor b) (readQHeader (f.plain.drop 0xC0))) = .ok () := by
  refine ⟨sample_turn (by decide) rfl rfl, ⟨?_, ?_, rfl⟩, sampleCreate_fields, sampleCreate_image, by decide +kernel, by decide +kernel, by decide +kernel, by decide +kernel,
    by decide +kernel, by decide +kernel, by decide +kernel, by decide +kernel⟩
  · show 0xC0 ≤ (sampleCreate ++ sampleImage).length
    rw [sampleCreate_length]; decide
  · show (sampleCreate ++ sampleImage).length ≤ _
    rw [sampleCreate_length]; decide

theorem witness_CollectionCommands_named :
    let b := leBytes 4 sampleId ++ zeros 4
    let f := sampleFlight 0x2002 5 b
    let s := sampleWith 0x2002 b sampleColl
    let g := sampleFlight 0x2003 5 b
    let u := sampleWith 0x2003 b sampleColl
    let c : Collection := { sampleColl with dropping := some (5, 7) }
    s.turn 0x2002 (.tenant 5) 7 f ∧ f.opens 8 8 ∧ zeroField f.plain 4 4 = true ∧ s.namedColl 0x20 (field f.plain 0 4) f = .ok sampleColl ∧
      u.turn 0x2003 (.tenant 5) 7 g ∧ u.namedColl 0x20 (field g.plain 0 4) g = .ok sampleColl ∧
      (sampleWith 0x2002 b c).coll (BitVec.ofNat 32 sampleId).toNat = some c ∧ c.dropping = some (5, 7) ∧ (sampleWith 0x2002 b c).boundTo (BitVec.ofNat 32 sampleId).toNat = [] ∧
      (sampleWith 0x2002 b c).flight 5 7 = some f := by
  refine ⟨sample_turn (by decide) rfl rfl, by decide, by decide, rfl, sample_turn (by decide) rfl rfl, rfl, rfl, rfl, by decide, rfl⟩

theorem witness_CollectionCommands_reads :
    let b := leBytes 4 sampleId ++ leBytes 4 1 ++ leBytes 8 0 ++ leBytes 4 10000000 ++ zeros 12
    let f := sampleFlight 0x2020 5 b
    let s := sampleWith 0x2020 b sampleColl
    let d : Collection := { sampleColl with assigned := 1 }
    let p := leBytes 4 sampleId ++ leBytes 2 1 ++ zeros 10 ++ leBytes 8 9
    let g := sampleFlight 0x2040 5 p
    let u := sampleWith 0x2040 p sampleColl
    s.turn 0x2020 (.tenant 5) 7 f ∧ f.opens 32 32 ∧ field f.plain 4 4 < 2 ∧ 1 ≤ field f.plain 0x10 4 ∧ field f.plain 0x10 4 ≤ 10000000 ∧ zeroField f.plain 0x14 12 = true ∧
      s.usableColl 0x20 (field f.plain 0 4) f = .ok sampleColl ∧ field f.plain 8 8 ≤ sampleColl.assigned ∧ commitReached sampleColl 0 true = true ∧
      (sampleWith 0x2020 b d).usableColl 0x20 (field f.plain 0 4) f = .ok d ∧ commitReached d 1 true = false ∧
      u.turn 0x2040 (.tenant 5) 7 g ∧ 24 ≤ g.plain.length ∧ g.hdr.csn.toNat = 0 ∧ g.hdr.csn.toNat ≤ sampleColl.committed ∧ field g.plain 4 2 = 1 ∧ field g.plain 6 2 = 0 ∧ zeroField g.plain 0xA 6 = true ∧ g.plain.length = 16 + 8 * 1 ∧
      hdrStream g.hdr = false ∧ u.usableColl 0x20 (field g.plain 0 4) g = .ok sampleColl ∧ g.bound = none := by
  refine ⟨sample_turn (by decide) rfl rfl, by decide, by decide, by decide, by decide, by decide, rfl, by decide, by decide, rfl, by decide,
    sample_turn (by decide) rfl rfl, by decide, rfl, by decide, by decide, by decide, by decide, by decide, rfl, rfl, rfl⟩

/-- GET_ITEMS with vectors and tokens to a stream, for the committed CSN and for one still to be committed. -/
theorem witness_CollectionCommands_items :
    let p := leBytes 4 sampleId ++ leBytes 2 1 ++ leBytes 2 3 ++ leBytes 2 4 ++ zeros 6 ++ leBytes 8 9
    let c : Collection := { sampleColl with desc := { sampleDesc with storeFull := true, storeTokens := true }, assigned := 2, committed := 1 }
    let g (q : Quad) : Flight := { sampleFlight 0x2040 5 p with hdr := { (sampleFlight 0x2040 5 p).hdr with csn := q, flags := 5 } }
    let x : Stream := { tenant := 5, base := 0x2000, slotsLog2 := 6, vector := 2047, irqCount := 1, irqUs := 0 }
    let u (q : Quad) : State := { sampleWith 0x2040 p c with host.flights := [g q], host.streams := [(4, x)] }
    ∀ q : Quad, q = 1 ∨ q = 2 → (u q).turn 0x2040 (.tenant 5) 7 (g q) ∧ hdrStream (g q).hdr = true ∧ (u q).ownStream 0x28 (field p 8 2) (g q) = .ok x ∧
      (u q).usableColl 0x20 (field p 0 4) (g q) = .ok c ∧ field p 6 2 = 3 ∧ (g q).bound = none ∧ q.toNat ≤ c.assigned ∧ c.floor ≤ q.toNat ∧ (q.toNat ≤ c.committed ↔ q = 1) := by
  intro p c g x u q hq
  rcases hq with rfl | rfl
  · exact ⟨by unfold State.turn; decide +kernel, by decide +kernel, by decide +kernel, by decide +kernel, by decide +kernel, by decide +kernel, by decide +kernel, by decide +kernel, by decide +kernel⟩
  · exact ⟨by unfold State.turn; decide +kernel, by decide +kernel, by decide +kernel, by decide +kernel, by decide +kernel, by decide +kernel, by decide +kernel, by decide +kernel, by decide +kernel⟩

theorem witness_CollectionCommands_waits :
    let f : Flight := { sampleFlight 0x2020 5 [] with work := .commitWait sampleId 1 true 0 }
    let d : Collection := { sampleColl with assigned := 1 }
    let s : State := { sampleWith 0x2020 [] d with host.flights := [f] }
    s.flight 5 7 = some f ∧ f.work = .commitWait sampleId 1 true 0 ∧ s.coll sampleId = some d ∧ commitReached d 1 true = false ∧ 0 ≤ s.clock ∧
      commitReached { d with committed := 1 } 1 false = true ∧
      (sampleWith 0 [] { d with availability := .keyPending [] }).coll sampleId = some { d with availability := .keyPending [] } ∧ s.power.season = .summer ∧
      (sampleWith 0 [] { d with availability := .rebuilding 0 }).coll sampleId = some { d with availability := .rebuilding 0 } := by
  refine ⟨rfl, rfl, rfl, by decide, by decide, by decide, rfl, rfl, rfl⟩


theorem witness_Segments_commands :
    let b := leBytes 4 sampleId ++ zeros 4
    let f := sampleFlight 0x2030 5 b
    let s := sampleWith 0x2030 b sampleColl
    let p := leBytes 4 sampleId ++ leBytes 4 1 ++ zeros 8
    let g := sampleFlight 0x2031 5 p
    let u := samplePlaced 0x2031 p sampleColl
    s.turn 0x2030 (.tenant 5) 7 f ∧ f.opens 8 8 ∧ zeroField f.plain 4 4 = true ∧ s.usableColl 0x20 (field f.plain 0 4) f = .ok sampleColl ∧
      sampleColl.openSegment = some { id := 1, state := .opened } ∧ sampleColl.rows 1 = [] ∧
      (sampleWith 0x2030 b sampleFull).usableColl 0x20 (field f.plain 0 4) f = .ok sampleFull ∧ sampleFull.openSegment = some { id := 1, state := .opened } ∧ sampleFull.rows 1 ≠ [] ∧
      sampleFull.sealingCount < 4 ∧
      u.turn 0x2031 (.tenant 5) 7 g ∧ g.opens 16 16 ∧ field g.plain 4 4 = 1 ∧ zeroField g.plain 8 8 = true ∧ u.usableColl 0x20 (field g.plain 0 4) g = .ok sampleColl ∧
      sampleColl.compaction = none ∧ largestList sampleColl ((eligible sampleColl (purgePoint sampleColl)).map (·.id)) ≤ u.regionFree (placeClassOf u.placeImage sampleColl.cls).region := by
  refine ⟨sample_turn (by decide) rfl rfl, by decide, by decide, rfl, rfl, by decide, rfl, rfl, by decide, by decide, sample_turn (by decide) rfl rfl, by decide, by decide, by decide, rfl, rfl, by decide +kernel⟩

theorem witness_Segments_sealing :
    let x : Segment := { id := 1, state := .sealing }
    let c : Collection := { sampleFull with segments := [x] }
    let s := samplePlaced 0 [] c
    let t : Segment := { id := 1, state := .opened, firstAt := some 0 }
    let d : Collection := { sampleFull with segments := [t], committed := 0, ops := [{ sampleOp with acked := true, applied := true }] }
    s.coll (BitVec.ofNat 32 sampleId).toNat = some c ∧ s.serving = true ∧ c.availability = .ready ∧ c.dropping = none ∧ c.segment 1 = some x ∧ s.flash.lowSpace = false ∧
      (c.segments.filter fun x => !x.tombstone && segDurable x).length < 65536 ∧
      (let d := { c.updSegment 1 (fun x => { x with state := .sealed }) with
        map.evaluate := true, versions := c.versions.map fun (v : Version) => if v.seg == 1 then { v with staged := false } else v }
       d.dropPredicates.release.ops.length = c.ops.length) ∧
      d.openSegment = some t ∧ sealDue d 100000000000 t = true ∧ d.openTombs = none ∧ s.flash.failed = false := by
  refine ⟨rfl, rfl, rfl, rfl, rfl, by decide, by decide, by decide, rfl, by decide, rfl, by decide⟩

theorem witness_Segments_upkeep :
    let col : Word := BitVec.ofNat 32 sampleId
    let x : Segment := { id := 1, state := .merging }
    let c : Collection := { sampleColl with segments := [x], predicates := [{ csn := 0, predicates := [], marked := true }] }
    let s := sampleWith 0 [] c
    let d : Collection := { sampleFull with segments := [{ id := 1, state := .sealed }], committed := 2, versions := [{ sampleRow 9 1 with del := some 2 }] }
    let u := samplePlaced 0 [] d
    let k : Compaction := { waiter := none, inputs := [1], output := 2, purge := 2, lists := [0] }
    let e : Collection := { d with compaction := some k }
    s.coll col.toNat = some c ∧ c.segment 1 = some x ∧ c.compaction = none ∧ c.rows 1 = [] ∧ s.boundTo col.toNat = [] ∧
      c.predicates.find? (·.csn == 0) = some { csn := 0, predicates := [], marked := true } ∧ 0 ≤ c.committed ∧
      u.coll col.toNat = some d ∧ d.desc.compactPct ≠ 0 ∧ ((eligible d (purgePoint d)).filter (overPct d (purgePoint d))).map (·.id) ≠ [] ∧
      largestList d (((eligible d (purgePoint d)).filter (overPct d (purgePoint d))).map (·.id)) ≤ u.regionFree (placeClassOf u.placeImage d.cls).region ∧
      (samplePlaced 0 [] e).coll col.toNat = some e ∧ (samplePlaced 0 [] e).boundBelow col.toNat k.purge = false := by
  refine ⟨rfl, rfl, rfl, by decide, by decide, rfl, by decide, rfl, by decide, by decide, by decide +kernel, rfl, by decide⟩

/-- A rebuild that finds its places, a row in an extent that is being rebuilt or is dead, and 4 segments SEALING. -/
theorem witness_CollectionCommands_rebuild :
    let c : Collection := { sampleColl with availability := .rebuilding 0 }
    let p (dead : Bool) : PoisonedExtent := { collection := sampleId, list := 0, extent := 1, nbu := 0, dead := dead }
    let s (dead : Bool) : State := { sampleWith 0 [] sampleFull with index.poisoned := [p dead] }
    let v : Version := { sampleRow 9 1 with extent := 1 }
    let busy : Collection := { sampleFull with segments := sampleFull.segments ++ [2, 3, 4, 5].map fun i => { id := i, state := .sealing } }
    ((sampleWith 0 [] c).placeAgain ((sampleWith 0 [] c).replayLog c)).isSome = true ∧ c.dropping = none ∧
      (s true).rowsBlocked sampleFull [v] = some true ∧ (s false).rowsBlocked sampleFull [v] = some false ∧ (s true).rowsBlocked sampleFull [] = none ∧
      4 ≤ busy.sealingCount ∧ busy.rows 1 ≠ [] := by
  refine ⟨?_, rfl, ?_, ?_, ?_, ?_, ?_⟩ <;> decide

theorem witness_Segments_marks :
    let t : PredTombstone := { csn := 0, predicates := [], marked := false }
    let c : Collection := { sampleColl with predicates := [t] }
    let s := sampleWith 0 [] c
    s.coll (BitVec.ofNat 32 sampleId).toNat = some c ∧ c.predicates.find? (·.csn == 0) = some t ∧ 0 ≤ c.committed ∧ s.workBlocked c (fun _ => true) = false ∧
      s.segmentFree { sampleColl with segments := [{ id := 1, state := .merging }] } 1 = true ∧ sampleColl.durableRoom = true := by
  refine ⟨rfl, rfl, ?_, ?_, ?_, ?_⟩ <;> decide

theorem witness_NearBankUnits :
    let col : Word := BitVec.ofNat 32 sampleId
    let o : Operation := { sampleOp with csn := 2, acked := true }
    let c : Collection := { sampleFull with assigned := 2, ops := [o] }
    let s : State := { sampleWith 0 [] c with index.poisoned := [{ collection := sampleId, list := 0, extent := 0, nbu := 3 }] }
    let u := s.updNbu 1279 fun x => { x with broken := [524255] }
    s.coll col.toNat = some c ∧ c.op 2 = some o ∧ c.applicable o = true ∧ o.body = .delete [9] ∧
      (∃ v ∈ c.versions, v.id = 9 ∧ v.ins = 1 ∧ v.del = none ∧ (c.opMarks 2 v = true ∨ c.tombMarks 2 v = true)) ∧ c.availability = .ready ∧ c.dropping = none ∧
      s.serving = true ∧ (∀ v ∈ c.versions, v.id = 9 → v.ins = 7 → c.opMarks 2 v = false ∧ c.tombMarks 2 v = false) ∧
      (s.nbu 1279).state ≠ 2 ∧ s.hitHolds 1279 0 .kv = true ∧ s.flight 5 7 = some (sampleFlight 0 5 []) ∧
      (s.index.poisoned.any fun p => p.collection == sampleId && p.list == 0 && p.extent == 0) = true ∧ s.move sampleId 0 = none ∧
      (u.nbu 1279).retired.contains 524255 = false ∧ (u.nbu 1279).broken.contains 524255 = true ∧ 524255 < 0x7FFE0 ∧ (s.nbu 1279).state = 0 := by
  refine ⟨rfl, rfl, by decide, rfl, ⟨_, List.mem_cons_self, rfl, rfl, rfl, .inl (by decide)⟩, rfl, rfl, rfl, ?_, ?_, ?_, rfl, ?_, ?_, ?_, ?_, ?_, ?_⟩ <;> decide

/-- Only a speculative job reads a row. -/
theorem witness_NearBankUnits_speculative :
    let j : ScanJob := { mbx := 5, tag := 7, collection := sampleId, list := 0, extents := [(4, [])], speculative := true }
    let s : State := { sampleWith 0 [] sampleFull with index.nbus := [(3, { jobs := [j] })] }
    (s.nbu 3).jobsOver 5 7 sampleId 4 = [j] ∧ [j].all (·.speculative) = true := by decide

theorem witness_MapUpkeep :
    let col : Word := BitVec.ofNat 32 sampleId
    let m : CentroidMap := { version := 1, evaluate := true, forwards := [⟨3, 0, [3, 1023]⟩], poisoned := [(5, 0, true), (6, 1, false)] }
    let c : Collection := { sampleColl with map := m }
    let s := sampleWith 0 [] c
    let e : Extent := { id := 1, list := 3, legacy := some 1023, seg := 1, index := 0, nbu := 0, addr := 0, first := 0, rows := 0 }
    let d : Collection := { sampleColl with extents := [e] }
    s.coll col.toNat = some c ∧ c.availability = .ready ∧ c.dropping = none ∧ s.serving = true ∧ c.map.evaluate = true ∧ c.atBoundary = true ∧ c.isReplica = false ∧
      c.map.forwards.find? (fun r => r.slot == 3 && r.epoch == 0) = some ⟨3, 0, [3, 1023]⟩ ∧
      c.map.poisoned.find? (fun p => p.1 == 5 && p.2.1 == 0) = some (5, 0, true) ∧ c.map.poisoned.find? (fun p => p.1 == 6 && p.2.1 == 1) = some (6, 1, false) ∧
      d.current.find? (fun e => e.list == 3 && e.legacy.isSome) = some e ∧ s.workBlocked d (ownedBy 3) = false ∧
      (s.redistribute (s.keepMap d) 3 (e.legacy.getD 3)).isSome = true := by
  refine ⟨rfl, rfl, rfl, rfl, rfl, by decide, rfl, rfl, rfl, rfl, by decide, by decide, by decide⟩

/-- A vector query without models, by the third clause of `Searches`, always goes on to its scans. -/
theorem bound_of {s : State} {c : Collection} {q i p : Nat} {w : Flight} (a : field w.plain 0xE 1 ≠ 2) (b : (s.bindPinned c w).generation .model 0 0 = none)
    (m : w.mbx < 2 ^ 20) (hi : i = (placeClassOf (s.bindPinned c w).placeImage c.cls).searchCrew)
    (hp : p = selectionPages (qdDepth w.plain) (decide (256 < qdDepth w.plain)) (!qdCalm w.plain)) (h : ∃ t, (s.bindPinned c w).crewAtOnce i p w t) :
    ∃ t, s.searchBound c q (0, 0) w = .ok t := by
  obtain ⟨t, h⟩ := h
  subst hi hp
  have e1 : (field w.plain 0xE 1 == 2) = false := by simpa using a
  have e3 : ¬(2 ^ 20 ≤ w.mbx ∧ w.mbx < 2 ^ 40) := by omega
  have fin : ∀ k : State → Except Detail State, (s.bindPinned c w).searchCrew c w k = k t := by
    intro k
    unfold State.searchCrew
    rw [if_neg e3]
    exact withCrew_ok h
  unfold State.searchBound
  simp only [e1, Bool.false_eq_true, if_false, b]
  split <;> (rw [fin]; exact ⟨_, rfl⟩)

theorem witness_Searches :
    let b := sampleQuery
    let f := sampleFlight 0x3001 5 b
    let s := samplePlaced 0x3001 b sampleFull
    let v2 := (s.updFlight f.mbx f.tag fun x => { x with deadline := none }).updFlight f.mbx f.tag fun g => { g with bound := some sampleFull.committed, coll := some sampleFull.id, mapBound := sampleFull.map.version, boundAt := s.clock }
    s.turn 0x3001 (.tenant 5) 7 f ∧ 64 ≤ f.plain.length ∧ f.mbx < 2 ^ 20 ∧ f.bound = none ∧ checkQuery false (hdrStream f.hdr) 0x20 0x0C f.hdr.csn.toNat f.plain = .ok () ∧
      s.streamField 0x34 (field f.plain 0x14 2) f = .ok none ∧ s.usableColl 0x20 (field f.plain 0 4) f = .ok sampleFull ∧ f.hdr.csn.toNat = 0 ∧ f.hdr.csn.toNat ≤ sampleFull.assigned ∧ f.hdr.csn.toNat ≤ sampleFull.committed ∧ checkQueryOn sampleFull 0x20 f.plain = .ok () ∧
      bit (field f.plain 6 2) 0 = false ∧ s.bindReranker sampleFull f = .ok ((0, 0), s) ∧ queryDeadline f.arrival f.plain = none ∧ v2.searchesInFlight + 1 ≤ 8192 ∧
      (∃ w, v2.flight f.mbx f.tag = some w ∧ ∃ t, v2.searchBound sampleFull sampleFull.committed (0, 0) w = .ok t) := by
  refine ⟨sample_turn (by decide) rfl rfl, by decide +kernel, by decide, rfl, by decide +kernel, rfl, rfl, rfl, by decide, by decide, by decide +kernel, by decide, rfl, by decide, by decide, _, rfl, ?_⟩
  refine bound_of (by decide) (by decide) (by decide) rfl rfl (crew_of ?_ ?_ ?_ ?_) <;> decide +kernel

theorem witness_Searches_selections :
    let b := [1, 0] ++ zeros 2 ++ leBytes 4 1 ++ zeros 8 ++ (leBytes 8 9 ++ leBytes 4 0x3F800000 ++ zeros 4)
    let f := sampleFlight 0x3010 5 b
    let s := samplePlaced 0x3010 b sampleColl
    let c := crewOf s.placeImage ((s.crewOfKind 3).getD 0)
    s.turn 0x3010 (.tenant 5) 7 f ∧ f.opens 16 16000016 ∧ fields (selectFields f 4 1000000) = .ok () ∧ field f.plain 4 4 = 1 ∧ f.plain.length = 16 + 16 * 1 ∧
      checkInputs 1 0x30 (f.plain.drop 16) = .ok () ∧ s.streamField 0x28 (field f.plain 8 2) f = .ok none ∧ (s.crewFor f.mbx f.tag) = none ∧ field f.plain 0 2 = 1 ∧ (s.pool c).isEmpty = false ∧
      (∃ t, s.formCrew ((s.crewOfKind 3).getD 0) (selectionPages 1 (decide (256 < 1)) false) f.mbx f.tag 1 = some t) := by
  refine ⟨sample_turn (by decide) rfl rfl, by decide, by decide, by decide, by decide, by decide, rfl, by decide, by decide, by decide +kernel, some_of (by decide +kernel)⟩

theorem witness_Searches_merges :
    let b := [1, 0] ++ zeros 2 ++ leBytes 4 1 ++ zeros 8 ++ (leBytes 4 1 ++ leBytes 2 1 ++ leBytes 2 16 ++ zeros 40) ++ (leBytes 8 9 ++ leBytes 4 0x3F800000 ++ zeros 4)
    let f := sampleFlight 0x3011 5 b
    let s := samplePlaced 0x3011 b sampleColl
    s.turn 0x3011 (.tenant 5) 7 f ∧ f.opens 16 16777216 ∧ fields (selectFields f 2 4096) = .ok () ∧ (∃ r, readLists (field f.plain 4 4) 0x30 0 (f.plain.drop 16) = .ok r) := by
  exact ⟨sample_turn (by decide) rfl rfl, by decide, by decide, result_of (by decide +kernel)⟩

theorem batch_of {s : State} {f : Flight} {i p : Nat} (hi : i = (placeClassOf s.placeImage (((s.host.flights.filter (isItemOf f)).head?.bind fun g => s.coll (field g.plain 0 4)).elim 0 (·.cls))).searchCrew)
    (hp : p = (s.host.flights.filter (isItemOf f)).foldl (fun n g => max n (selectionPages (qdDepth g.plain) (decide (256 < qdDepth g.plain)) (!qdCalm g.plain))) 0)
    (h : ∃ t, s.crewAtOnce i p f t) : ∃ t, s.runBatch f = .ok t := by
  obtain ⟨t, h⟩ := h
  subst hi hp
  exact ⟨_, withCrew_ok h⟩

theorem witness_Searches_batch :
    let b := [1, 0] ++ zeros 14 ++ (leBytes 4 320 ++ zeros 4 ++ sampleQuery)
    let f := sampleFlight 0x3003 5 b
    let s := samplePlaced 0x3003 b sampleFull
    let u : State := { s with host.flights := s.host.flights ++ [(0x38, sampleQuery)].mapIdx fun i x => s.itemFlight f i x.2 none }
    s.turn 0x3003 (.tenant 5) 7 f ∧ f.opens 16 8603664 ∧ field f.plain 0 2 = 1 ∧ field f.plain 2 2 = 0 ∧ zeroField f.plain 4 12 = true ∧ s.host.flights.any (isItemOf f) = false ∧
      succeeded (readItems 1 0x30 (f.plain.drop 16)) = true ∧ s.streamField 0x22 (field f.plain 2 2) f = .ok none ∧ succeeded (s.checkItems f [(0x38, sampleQuery)]) = true ∧ succeeded (checkItemFields f [(0x38, sampleQuery)]) = true ∧
      s.searchesInFlight + 1 ≤ 8192 ∧ ∃ t, u.runBatch f = .ok t := by
  refine ⟨sample_turn (by decide) rfl rfl, by decide +kernel, by decide, by decide, by decide, by decide, by decide +kernel, rfl, by decide +kernel, by decide +kernel, by decide, ?_⟩
  refine batch_of rfl rfl (crew_of ?_ ?_ ?_ ?_) <;> decide +kernel

/-- A search, a batch and a GET_ITEMS that name the committed CSN, and ones that name a CSN still to be committed. -/
theorem witness_Searches_named :
    let b := sampleQuery
    let c : Collection := { sampleFull with assigned := 2 }
    let f (q : Quad) : Flight := { sampleFlight 0x3001 5 b with hdr := { (sampleFlight 0x3001 5 b).hdr with csn := q } }
    let s (q : Quad) : State := { samplePlaced 0x3001 b c with host.flights := [f q] }
    ∀ q : Quad, q = 1 ∨ q = 2 → (s q).turn 0x3001 (.tenant 5) 7 (f q) ∧ checkQuery false false 0x20 0x0C q.toNat b = .ok () ∧ checkQueryOn c 0x20 b = .ok () ∧
      (s q).usableColl 0x20 (field b 0 4) (f q) = .ok c ∧ (s q).bindReranker c (f q) = .ok ((0, 0), s q) ∧ q.toNat ≤ c.assigned ∧ c.floor ≤ q.toNat ∧
      (q.toNat ≤ c.committed ↔ q = 1) := by
  intro b c f s q hq
  rcases hq with rfl | rfl
  · exact ⟨by unfold State.turn; decide +kernel, by decide +kernel, by decide +kernel, by decide +kernel, by decide +kernel, by decide +kernel, by decide +kernel, by decide +kernel⟩
  · exact ⟨by unfold State.turn; decide +kernel, by decide +kernel, by decide +kernel, by decide +kernel, by decide +kernel, by decide +kernel, by decide +kernel, by decide +kernel⟩

theorem witness_Searches_batchNamed :
    let b := [1, 0] ++ zeros 14 ++ (leBytes 4 320 ++ zeros 4 ++ sampleQuery)
    let c : Collection := { sampleFull with assigned := 2 }
    let f (q : Quad) : Flight := { sampleFlight 0x3003 5 b with hdr := { (sampleFlight 0x3003 5 b).hdr with csn := q } }
    let s (q : Quad) : State := { samplePlaced 0x3003 b c with host.flights := [f q] }
    ∀ q : Quad, q = 1 ∨ q = 2 → (s q).turn 0x3003 (.tenant 5) 7 (f q) ∧ (s q).coll (field b 0x18 4) = some c ∧
      succeeded (readItems 1 0x30 (b.drop 16)) = true ∧ ([(0x38, sampleQuery)].all fun x => field x.2 0 4 == field b 0x18 4) = true ∧
      succeeded ((s q).checkItems (f q) [(0x38, sampleQuery)]) = true ∧ q ≠ 0 ∧ q.toNat ≤ c.assigned ∧ c.floor ≤ q.toNat ∧ (q.toNat ≤ c.committed ↔ q = 1) := by
  intro b c f s q hq
  rcases hq with rfl | rfl
  · exact ⟨by unfold State.turn; decide +kernel, by decide +kernel, by decide +kernel, by decide +kernel, by decide +kernel, by decide +kernel, by decide +kernel, by decide +kernel, by decide +kernel⟩
  · exact ⟨by unfold State.turn; decide +kernel, by decide +kernel, by decide +kernel, by decide +kernel, by decide +kernel, by decide +kernel, by decide +kernel, by decide +kernel, by decide +kernel⟩

def sampleJob (n : Nat) : ScanJob := { mbx := 5, tag := 7, collection := sampleId, list := 0, extents := [(0, [(9, 1)])], t := n }
def sampleRun (jobs delivered : Nat) (full : List Entry) (list : List Entry) : SearchRun :=
  { plain := sampleQuery, collection := sampleId, csn := 1, mapVersion := 1, q := [], lists := 1, jobs := jobs, delivered := delivered, stage := { n := 1, full := full, list := list } }
def searching (r : SearchRun) (j : List ScanJob) : State :=
  { sampleWith 0x3001 sampleQuery sampleFull with
    host.flights := [{ sampleFlight 0x3001 5 sampleQuery with work := .search r }], index.nbus := [(1279, { jobs := j })] }
def searcher (r : SearchRun) : Flight := { sampleFlight 0x3001 5 sampleQuery with work := .search r }

theorem witness_Scans_stopped : ({ searching (sampleRun 1 0 [] []) [] with power.season := .winter } : State).serving = false := by decide

theorem witness_Scans_jobs :
    let r := sampleRun 1 0 [] []
    let s := searching r [sampleJob 0]
    let k : ScanJob := { sampleJob 0 with result := some [] }
    let u := searching r [k]
    (s.nbu 1279).state ≠ 2 ∧ s.serving = true ∧ s.takeHeld 1279 288 = s ∧ s.nextJob (s.nbu 1279) = some (sampleJob 0) ∧ s.flight 5 7 = some (searcher r) ∧
      s.coll sampleId = some sampleFull ∧ (searcher r).work = .search r ∧ s.jobBlocked (sampleJob 0) ≠ some true ∧
      (searching r []).takeHeld 1279 288 = searching r [] ∧ (searching r []).nextJob ((searching r []).nbu 1279) = none ∧
      (s.nbu 1279).jobs.find? (fun j => j.result.isSome && !j.speculative) = none ∧
      (u.nbu 1279).jobs.find? (fun j => j.result.isSome && !j.speculative) = some k ∧ u.flight 5 7 = some (searcher r) ∧ k.result = some [] ∧ ([] : List Entry).length ≤ min r.stage.room 0 := by
  refine ⟨by decide, rfl, by rfl, by decide, rfl, rfl, rfl, by decide, by rfl, by decide, by decide, by decide, rfl, rfl, by decide⟩

theorem witness_Scans_lost :
    let r := sampleRun 1 0 [] []
    let hit : PoisonedExtent := { collection := sampleId, list := 0, extent := 0, nbu := 1279, dead := true }
    let s : State := { searching r [sampleJob 0] with index.poisoned := [hit] }
    let u : State := { searching r [{ sampleJob 0 with speculative := true }] with index.poisoned := [hit] }
    s.takeHeld 1279 288 = s ∧ s.nextJob (s.nbu 1279) = some (sampleJob 0) ∧ s.jobBlocked (sampleJob 0) = some true ∧ (sampleJob 0).speculative = false ∧
      u.takeHeld 1279 288 = u ∧ u.nextJob (u.nbu 1279) = some { sampleJob 0 with speculative := true } ∧ u.jobBlocked { sampleJob 0 with speculative := true } = some true := by
  refine ⟨by rfl, by decide, by decide, rfl, by rfl, by decide, by decide⟩

theorem witness_Scans_room :
    let e : Entry := { id := 9, key := 1 }
    let k : ScanJob := { sampleJob 0 with result := some [e, e] }
    let full : SearchRun := { sampleRun 1 0 [] [] with stage := { n := 257, full := List.replicate 8192 e } }
    let near : SearchRun := { sampleRun 1 0 [] [] with stage := { n := 257, full := List.replicate 8191 e } }
    ((searching near [k]).nbu 1279).jobs.find? (fun j => j.result.isSome && !j.speculative) = some k ∧ k.result = some [e, e] ∧
      (searching near [k]).flight 5 7 = some (searcher near) ∧ (searching full [k]).flight 5 7 = some (searcher full) ∧ full.stage.room = 0 ∧ near.stage.room = 1 := by
  refine ⟨by decide, rfl, rfl, rfl, ?_, ?_⟩ <;> (unfold Stage.room; rw [if_pos (by decide), List.length_replicate]; rfl)

theorem witness_Scans_stages :
    let e : Entry := { id := 9, key := 1 }
    let p : Bytes := leBytes 4 sampleId ++ [1, 0, 0, 0, 1, 0, 0, 0, 1, 0] ++ zeros 10 ++ leBytes 4 256 ++ zeros 36 ++ zeros 256
    let r : SearchRun := { sampleRun 4 3 [] [e] with plain := p }
    let s := searching r []
    (sampleRun 1 0 [e] []).stage.full ≠ [] ∧ r.stage.full = [] ∧ s.flight 5 7 = some (searcher r) ∧ s.coll r.collection = some sampleFull ∧ qdRefine r.plain ≠ 0 ∧
      r.stage.list.length = qdDepth r.plain ∧ 3 * r.jobs ≤ 4 * r.delivered ∧ s.mayPrefetch r.plain = true ∧ s.serving = true ∧
      r.probing = none ∧ qdRefine sampleQuery = 0 ∧ ({ r with probing := some [1] } : SearchRun).probing = some [1] ∧
      ({ sampleJob 0 with speculative := true } : ScanJob).mbx = (searcher r).mbx ∧ (sampleJob 0).tag = (searcher r).tag ∧ (sampleJob 0).list ∈ [0] ∧ (sampleJob 0).list ∉ [1] := by
  refine ⟨by decide, rfl, rfl, rfl, by decide, by decide, by decide, by decide, rfl, rfl, by decide, rfl, rfl, rfl, by decide, by decide⟩

theorem witness_Scans_batches :
    let s : State := { samplePlaced 0 [] sampleFull with index.batch := List.replicate 64 (0, 1, 0) }
    s.index.batch ≠ [] ∧ s.serving = true ∧ (∀ x ∈ s.index.batch.take 64, ∀ c g, s.coll x.1 = some c → s.generation .model c.desc.model c.modelGen = some g → g.damaged = []) ∧
      s.batchFits (s.index.batch.take 64) = true ∧ 64 ≤ s.index.batch.length ∧
      ¬ ({ s with index.batch := [] } : State).index.batch ≠ [] := by
  refine ⟨by decide, rfl, ?_, by decide +kernel, by decide, fun h => h rfl⟩
  intro x hx c g e _
  have hx := List.mem_of_mem_take hx
  rw [(List.mem_replicate.mp hx).2] at e
  cases e

def crewed (c : Crew) : State := { sample 0x3001 5 [] with tiles.crews := [c] }
def twoTiles : Crew := { mbx := 5, tag := 7, cls := 63, members := [0, 4095], lead := 0, strands := 1, pages := 1, leadPages := 0, queues := [(4095, 3)] }

theorem witness_Tiles_queues :
    let w : CrewWait := { mbx := 5, tag := 7, cls := 3, leadPages := 0, since := 0 }
    let s : State := { samplePlaced 0x3010 [] sampleColl with tiles.queue := [w] }
    let u : State := { sample 0x3010 5 [] with tiles.queue := [{ w with cls := 63 }], clock := 200000 }
    let v : State := { u with tiles.queue := [{ w with cls := 63, since := 1 }] }
    s.tiles.queue.find? (·.cls == 3) = some w ∧ (∃ t, s.formCrew 3 w.leadPages w.mbx w.tag w.tiles = some t) ∧ (sample 0x3010 5 []).tiles.queue.find? (·.cls == 3) = none ∧
      v.tiles.queue.find? (·.cls == 63) = some { w with cls := 63, since := 1 } ∧ v.clock < 1 + 200000 ∧
      ({ v with power.season := .drain } : State).formCrew 63 w.leadPages w.mbx w.tag w.tiles = none ∧
      u.tiles.queue.find? (·.cls == 63) = some { w with cls := 63 } ∧ w.since + 200000 ≤ u.clock ∧ u.flight w.mbx w.tag = some (sampleFlight 0x3010 5 []) := by
  exact ⟨rfl, some_of (by decide +kernel), rfl, rfl, by decide, by rfl, rfl, by decide, rfl⟩

theorem witness_Tiles_crews :
    let s := crewed twoTiles
    let rate : List (Fin 4096 × Nat) := [(0, 9), (4095, 4), (1, 9)]
    let k : Crew := { twoTiles with members := [0, 1, 4095], order := [0, 1, 4095], fanout := 4 }
    s.crewFor 5 7 = some twoTiles ∧ 0 ∈ twoTiles.members ∧ twoTiles.queued 0 = 0 ∧ 0 ∉ twoTiles.slow ∧ s.tileActive 0 = true ∧ twoTiles.victim 0 = some 4095 ∧
      7 ∉ twoTiles.members ∧ 4095 ∈ k.members ∧ 4095 ∉ k.slow ∧
      k.lags (fun t => ((rate.find? fun r => r.1.val == t).map (·.2)).getD 0) 4095 = true ∧
      k.lags (fun t => ((([] : List (Fin 4096 × Nat)).find? fun r => r.1.val == t).map (·.2)).getD 0) 4095 = false := by
  refine ⟨rfl, by decide, by decide, by decide, by decide, by decide, by decide, by decide, by decide, by decide, by decide⟩

theorem witness_Tiles_slow :
    let s : State := { crewed twoTiles with tiles.slowNamed := List.replicate 16 (4095, 0) }
    let u : State := { crewed twoTiles with tiles.suspect := [(4095, 0), (1, 5)] }
    16 ≤ (s.tiles.slowNamed.filter fun x => x.1 == 4095 && s.clock < x.2 + 1000000000).length ∧ s.tiles.suspect.find 4095 = none ∧
      (u.tiles.slowNamed.filter fun x => x.1 == 4095 && u.clock < x.2 + 1000000000).length < 16 ∧
      u.tiles.suspect.find 4095 = some 0 ∧ 0 ≤ u.clock ∧ u.tiles.suspect.find 1 = some 5 ∧ u.clock < 5 := by
  refine ⟨by decide, rfl, by decide, rfl, by decide, rfl, by decide⟩

theorem witness_Tiles_failures :
    let u : State := { crewed twoTiles with
      tiles.state := [(1, .substituting 5 0), (2, .gone), (3, .retiring), (4095, .retiring)], tiles.corrected := List.replicate 15 (4095, 0), clock := 45000 }
    let v : State := { u with tiles.state := [], tiles.corrected := List.replicate 15 (7, 0) }
    let w : State := { u with clock := 44999 }
    let seen (t : Nat) (x : State) : Nat := (((t, x.clock) :: x.tiles.corrected.filter fun y => x.clock < y.2 + 3600000000000).filter (·.1 == t)).length
    v.tiles.state.find 4095 = none ∧ u.tiles.state.find 3 = some .retiring ∧ u.faultHolds .store = true ∧ u.faultHolds (.silent 999999) = false ∧
      u.tiles.state.find 1 = some (.substituting 5 0) ∧ u.tiles.state.find 2 = some .gone ∧ seen 4095 v < 16 ∧
      16 ≤ seen 4095 { u with tiles.state := [] } ∧ ({ u with tiles.state := [] } : State).crewsOn 4095 ≠ [] ∧ 16 ≤ seen 7 v ∧ v.crewsOn 7 = [] ∧
      u.crewsOn 3 = [] ∧ u.tiles.state.find 4095 = some .retiring ∧ u.crewsOn 4095 ≠ [] ∧ 0 + 45000 ≤ u.clock ∧
      w.tiles.state.find 1 = some (.substituting 5 0) ∧ w.clock < 0 + 45000 ∧
      7 ∉ u.tiles.bridgesDown ∧ 27 ∈ ({ u with tiles.bridgesDown := [27] } : State).tiles.bridgesDown := by
  refine ⟨rfl, rfl, rfl, by decide, rfl, rfl, by decide, by decide, by decide, by decide, by decide, by decide, rfl, by decide, by decide, rfl, by decide, by decide, by decide⟩

theorem witness_LowerTiers_grants :
    let b := leBytes 4 1 ++ [1, 0, 0, 0] ++ leBytes 8 4096 ++ leBytes 4 256 ++ leBytes 4 20 ++ zeros 8
    let f := sampleFlight 0x7010 5 b
    let s := samplePlaced 0x7010 b sampleColl
    s.turn 0x7010 (.tenant 5) 7 f ∧ f.opens 32 32 ∧ field f.plain 0 4 = 1 ∧ s.tiers.regions.find 1 = none ∧ field f.plain 4 1 = 1 ∧ zeroField f.plain 5 3 = true ∧
      field f.plain 8 8 = 4096 ∧ 4096 + extentSize 256 ≤ 2 ^ 64 ∧ (∀ x ∈ s.tiers.regions.vals, extentsOverlap 4096 (extentSize 256) x.base (extentSize x.pages) = false) ∧
      field f.plain 0x10 4 = 256 ∧ field f.plain 0x14 4 = 20 ∧ zeroField f.plain 0x18 8 = true ∧ s.tiers.regions.length < 64 ∧ s.grantedPages + 256 ≤ 67108864 ∧
      8 * 256 ≤ s.workingFree := by
  refine ⟨sample_turn (by decide) rfl rfl, by decide, by decide, rfl, by decide, by decide, by decide, by decide, fun x h => (by cases h), by decide, by decide, by decide, by decide,
    by decide, by decide +kernel⟩

def sampleArea (k : Nat) (r : Option (Nat × Word × Nat)) : HostRegion := { kind := k, base := 4096, pages := 256, boundUs := 200, revoking := r }

theorem witness_LowerTiers_regions :
    let b := leBytes 4 1 ++ zeros 4
    let f := sampleFlight 0x7011 5 b
    let c : Collection := { sampleFull with segments := [{ id := 1, state := .sealed }] }
    let s : State := { samplePlaced 0x7011 b c with tiers.regions := [(1, sampleArea 2 none)] }
    let u : State := { s with tiers.regions := [(1, sampleArea 2 (some (5, 7, 256)))] }
    let r : Read := { tier := .host 1, collection := sampleId, seg := 1, area := 0, sector := 0, since := 0 }
    s.turn 0x7011 (.tenant 5) 7 f ∧ f.opens 8 8 ∧ s.tiers.regions.find 1 = some (sampleArea 2 none) ∧ zeroField f.plain 4 4 = true ∧
      u.tiers.regions.find 1 = some (sampleArea 2 (some (5, 7, 256))) ∧ u.regionQuiet 1 = true ∧ u.flight 5 7 = some f ∧
      ({ u with host.flights := [f, { f with work := .reads [r] { status := .done, parts := [] } }] } : State).regionQuiet 1 = false ∧
      s.coll (BitVec.ofNat 32 sampleId).toNat = some c ∧ (sampleArea 2 none).kind = 2 ∧ (sampleArea 2 none).failed = false ∧ (sampleArea 2 none).revoking = none ∧
      (placeClassOf s.placeImage c.cls).hostCache = true ∧ s.mayCache c 1 0 = true ∧ s.flash.lowSpace = false ∧ s.power.season = .summer ∧
      s.cacheSlot 1 1 (sampleArea 2 none) = some 0 ∧ (sampleArea 1 none).kind ≠ 2 ∧
      ((sampleArea 2 none).failures.filter fun t => s.clock < t + 1000000000).length < 3 ∧
      3 ≤ (({ sampleArea 2 none with failures := [0, 0, 0] } : HostRegion).failures.filter fun t => s.clock < t + 1000000000).length := by
  refine ⟨sample_turn (by decide) rfl rfl, by decide, rfl, by decide, rfl, by decide, rfl, by decide, rfl, rfl, rfl, rfl, by decide +kernel, by decide, by decide, rfl,
    by decide, by decide, by decide, by decide⟩

theorem witness_LowerTiers_reads :
    let r (t : Tier) (p : Option Nat) (l : Option Status) : Read := { tier := t, collection := sampleId, seg := 1, area := 0, sector := 0, since := 0, mapPage := p, lost := l }
    let f (x : Read) : Flight := { sampleFlight 0x3001 5 [] with work := .reads [x] { status := .done, parts := [] } }
    let s (x : Read) (n : Nat) : State := { sample 0x3001 5 [] with host.flights := [f x], tiers.regions := [(1, sampleArea 2 none)], clock := n }
    let left : SquashedRead := { mbx := 5, tag := 7, tenant := 5, opcode := 0x3001, read := r (.host 1) none none, counted := true }
    let u : State := { sample 0x3001 5 [] with index.squashed := [left] }
    (∀ x, (s x 0).flight 5 7 = some (f x) ∧ (readsOf (f x))[0]? = some x) ∧ (r (.host 1) none (some .tierLate)).lost.isSome = true ∧ (r (.host 1) none none).lost = none ∧
      (r (.host 1) (some 3) none).mapPage = some 3 ∧
      ((u.flight 5 7).elim [] readsOf)[0]? = none ∧ u.leftRead 5 7 (0 - ((u.flight 5 7).elim [] readsOf).length) = some left ∧ left.read.tier = .host 1 ∧
      (r .flash none none).since + (s (r .flash none none) 0).readBound (r .flash none none) ≤ (s (r .flash none none) 3000000).clock ∧ (r .flash none none).came = none ∧
      (s (r .flash none none) 2999999).clock < (r .flash none none).since + (s (r .flash none none) 0).readBound (r .flash none none) ∧
      (s (r (.host 1) none none) 0).tiers.regions.find 1 = some (sampleArea 2 none) := by
  refine ⟨fun x => ⟨rfl, rfl⟩, rfl, rfl, rfl, rfl, by decide, rfl, by decide, rfl, by decide, rfl⟩

theorem witness_SharedTier_objects :
    let c : Collection := { sampleFull with segments := [{ id := 1, state := .sealed }] }
    let s := samplePlaced 0 [] c
    let k := placeClassOf s.placeImage c.cls
    let size := ((c.rows 1).map (recordBytes c.desc)).foldl (· + ·) 0
    let l : Lease := { node := 9, collection := sampleId, gen := 0, segment := 1, since := 0 }
    let u : State := { s with tiers.held := [l], clock := 1000000000 }
    s.coll (BitVec.ofNat 32 sampleId).toNat = some c ∧ c.segment 1 = some { id := 1, state := .sealed } ∧ k.publish = true ∧ s.flash.lowSpace = false ∧ s.serving = true ∧
      (s.tiers.objects.any fun o => o.collection == c.id && o.gen == 0 && o.segment == 1) = false ∧ s.sharedBytes k.shared + size ≤ (regionOf s.placeImage k.shared).gib * 2 ^ 30 ∧
      ¬ ({ s with flash.lowSpace := true } : State).flash.lowSpace = false ∧
      (∃ l ∈ u.tiers.held.filter (·.node == (9 : Half).toNat), l.since + 1000000000 ≤ u.clock) ∧ u.selfFenced = false ∧
      (∀ l ∈ ({ u with clock := 999999999 } : State).tiers.held.filter (·.node == (9 : Half).toNat), (999999999 : Nat) < l.since + 1000000000) := by
  refine ⟨rfl, rfl, by decide +kernel, by decide, rfl, rfl, by decide +kernel, by decide, ?_, rfl, ?_⟩
  · exact ⟨_, List.mem_cons_self, by decide⟩
  · intro l h
    rw [List.mem_singleton.mp (show l ∈ [_] from h)]
    decide

theorem witness_SharedTier_full :
    let c : Collection := { sampleFull with segments := [{ id := 1, state := .sealed }], desc := { sampleDesc with extBytes := 2 ^ 60 } }
    let s := samplePlaced 0 [] c
    let k := placeClassOf s.placeImage c.cls
    k.publish = true ∧ s.serving = true ∧ s.tiers.objects = [] ∧ (regionOf s.placeImage k.shared).gib * 2 ^ 30 <
      s.sharedBytes k.shared + ((c.rows 1).map (recordBytes c.desc)).foldl (· + ·) 0 := by
  refine ⟨by decide +kernel, rfl, rfl, by decide +kernel⟩

theorem witness_SharedTier_messages :
    let q := [1, 0] ++ leBytes 2 1 ++ leBytes 4 sampleId ++ zeros 2 ++ zeros 2 ++ leBytes 4 1 ++ leBytes 8 1 ++ zeros 8 ++ zeros 8
    let o : SharedObject := { region := 6, collection := sampleId, gen := 0, segment := 1 }
    let l : Lease := { node := 9, collection := sampleId, gen := 0, segment := 1, since := 0 }
    let s : State := { messaged 0x40 q with tiers.objects := [o], tiers.given := [l] }
    let u : State := { taken with tiers.objects := [o], tiers.given := [l] }
    let e := [4, 0] ++ zeros 38
    let d := [3, 1] ++ zeros 38
    let short := [3, 1]
    s.takeMessage 0x40 [1] = some (sampleMsg 0x40 q, u) ∧ q.length = 40 ∧ field q 1 1 = 0 ∧ zeroField q 0xA 2 = true ∧ u.refuseReason 9 = 0 ∧
      (u.tiers.objects.any fun o => o.collection == field q 4 4 && o.gen == field q 8 2 && o.segment == field q 0x10 8) = true ∧
      (u.tiers.given.any fun l => l.node == 9 && l.collection == field q 4 4 && l.gen == field q 8 2 && l.segment == field q 0x10 8) = true ∧
      (messaged 0x40 q).takeMessage 0x40 [1] = some (sampleMsg 0x40 q, taken) ∧ taken.tiers.objects = [] ∧
      (messaged 0x40 e).takeMessage 0x40 [4, 5] = some (sampleMsg 0x40 e, taken) ∧ e.length = 40 + 16 * field e 0xC 4 ∧ field e 0 1 = 4 ∧
      (messaged 0x40 d).takeMessage 0x40 [2, 3] = some (sampleMsg 0x40 d, taken) ∧ field d 0 1 = 3 ∧ 1 ≤ field d 1 1 ∧ field d 1 1 ≤ 4 ∧ d.length = 40 ∧
      taken.ownPastId (field d 0x20 8) taken.tiers.nextReq = true ∧ taken.tiers.reads.find? (fun r => r.req == field d 0x20 8 && r.owner == 9) = none ∧
      (messaged 0x40 short).takeMessage 0x40 [2, 3] = some (sampleMsg 0x40 short, taken) ∧ short.length < 40 ∧ taken.serving = true := by
  refine ⟨rfl, by decide, by decide, by decide, by decide, by decide, by decide, rfl, rfl, rfl, by decide, by decide, rfl, by decide, by decide, by decide, by decide, by decide, rfl,
    rfl, by decide, rfl⟩

theorem witness_SharedTier_data :
    let d := [2, 0] ++ zeros 38
    let r : SharedRead := { req := 0, owner := 9, mbx := 5, tag := 7 }
    let x : Read := { tier := .shared 9, collection := sampleId, seg := 1, area := 0, sector := 0, since := 0 }
    let f : Flight := { sampleFlight 0x3001 5 [] with work := .reads [x] { status := .done, parts := [] } }
    let u : State := { taken with tiers.reads := [r] }
    let w : State := { u with host.flights := [f] }
    ({ messaged 0x40 d with tiers.reads := [r] } : State).takeMessage 0x40 [2, 3] = some (sampleMsg 0x40 d, u) ∧ field d 0 1 = 2 ∧ field d 1 1 = 0 ∧
      d.length = 40 + 4112 * field d 0xC 4 ∧ u.tiers.reads.find? (fun r => r.req == field d 0x20 8 && r.owner == 9) = some r ∧
      ({ u with host.flights := [] } : State).sharedWaiter r = none ∧ w.sharedWaiter r = some (f, 0) ∧ (readsOf f)[0]? = some x := by
  refine ⟨rfl, by decide, by decide, by decide, rfl, rfl, rfl, rfl⟩

def sampleId2 : Nat := 2 ^ 40
def sampleShard (no node : Nat) (covers : List Nat) : Shard := { no := no, covers := covers, node := node, sent := 0 }
def sampleServed (root : Option (Nat × Word)) (l : List Shard) : Served :=
  { id := 0, shard := 0, from_ := 9, root := root, collection := sampleId, tenant := 5, cls := 1, deadline := 0, plain := [],
    run := { composition := 1, position := 0, k := 1, entryBytes := 16, reranked := false, shards := l } }
def serving (type : Nat) (body : Bytes) (l : List Served) : State := { messaged type body with comp.served := l, comp.nextSubq := 2, comp.nextRead := 2 }
def served (l : List Served) : State := { taken with comp.served := l, comp.nextSubq := 2, comp.nextRead := 2 }

def sampleComp : Composition := { id := 1, version := 1, members := [0, 9], digest := [], active := true }

theorem witness_MergeMessages_queries :
    let q := zeros 112
    let n := zeros 20 ++ leBytes 4 3
    (messaged 0x10 q).takeMessage 0x10 [] = some (sampleMsg 0x10 q, taken) ∧ taken.comp.compositions.find (field (q.drop 48) 0x1C 4) = none ∧
      (serving 0x11 n []).takeMessage 0x11 [] = some (sampleMsg 0x11 n, served []) ∧ n.length = 24 ∧ (served []).ownPastId (field n 0 8) (served []).comp.nextSubq = true ∧
      (messaged 0x11 []).takeMessage 0x11 [] = some (sampleMsg 0x11 [], taken) ∧ ¬ ([] : Bytes).length = 24 := by
  refine ⟨rfl, rfl, rfl, by decide, by decide, rfl, by decide⟩

theorem witness_MergeMessages_subquery :
    let plain := leBytes 4 sampleId ++ [1, 0, 1, 0, 1, 0] ++ zeros 14 ++ leBytes 4 256 ++ leBytes 4 1 ++ zeros 32 ++ zeros 256
    let q := leBytes 8 9 ++ leBytes 2 5 ++ [1, 0] ++ leBytes 4 0 ++ zeros 32 ++ plain
    let s : State := { sampleWith 0x3001 [] sampleFull with fabric.inbox := [sampleMsg 0x10 q], comp.compositions := [(1, sampleComp)] }
    let u : State := { s with fabric.inbox := [] }
    s.takeMessage 0x10 [] = some (sampleMsg 0x10 q, u) ∧ u.comp.compositions.find (field (q.drop 48) 0x1C 4) = some sampleComp ∧
      (!bit (field q 0xB 1) 0 && sampleComp.shardOf u.nodeId == field q 0xC 4) = true ∧ u.coll (field (q.drop 48) 0 4) = some sampleFull ∧
      subqueryOk q sampleComp (field (q.drop 48) 0 4) sampleFull u = true ∧ u.power.season = .summer ∧ taken.coll (field (q.drop 48) 0 4) = none ∧
      ({ u with power.season := .drain } : State).power.season ≠ .summer ∧ subqueryOk (zeros 112) sampleComp sampleId sampleFull u = false := by
  refine ⟨by decide +kernel, by decide, by decide, by decide +kernel, by decide +kernel, rfl, by decide +kernel, by decide, by decide +kernel⟩

theorem witness_MergeMessages_lists :
    let b := leBytes 8 0 ++ (zeros 4 ++ [1, 0, 16, 0, 9, 0, 1, 0] ++ zeros 32 ++ [1, 0, 0, 0])
    let m := leBytes 8 0 ++ (zeros 4 ++ [1, 0, 16, 0, 9, 0, 0, 0, 1, 0, 1, 0] ++ zeros 28 ++ [1, 0, 0, 0] ++ leBytes 4 3)
    let d := sampleShard 3 9 [3, 4]
    let e := sampleShard 3 9 [3]
    let y := sampleServed (some (5, 7)) [d]
    let w := sampleServed (some (5, 7)) [e]
    let find (u : State) : Option (Served × Shard × Bool) := u.comp.served.findSome? fun y => (y.listFor 0 9).map fun d => (y, d)
    (serving 0x12 b [y]).takeMessage 0x12 [] = some (sampleMsg 0x12 b, served [y]) ∧ find (served [y]) = some (y, d, false) ∧
      listFaultless y.run 9 (b.drop 8) = true ∧ d.covers.length ≠ 1 ∧ listFaultless y.run 9 [] = false ∧
      find (served [w]) = some (w, e, false) ∧ listFaultless w.run 9 (m.drop 8) = true ∧ e.covers.length = 1 ∧ field (m.drop 8) 0xC 2 ≠ 0 ∧
      find (served []) = none ∧ (served []).knownSubq (field b 0 8) = true ∧ find taken = none ∧ taken.knownSubq 5 = false := by
  refine ⟨rfl, by decide, by decide, by decide, by decide, by decide, by decide, by decide, by decide, by decide, by decide, by decide, by decide⟩

theorem witness_MergeMessages_cancels :
    let z := sampleServed none []
    let c := zeros 16
    let f : Flight := { sampleFlight 0x3001 5 [] with mbx := servedKey 0 0, hdr := { (sampleFlight 0x3001 5 []).hdr with tag := 0 } }
    let gone (y : Served) : Bool := y.id == field c 0 8 && y.shard == field c 8 4 && y.from_ == 9 && y.root.isNone
    let u := (served [z]).takeAnswered fun y => y.id == field c 0 8 && y.shard == field c 8 4 && y.from_ == 9
    let v := ({ served [z] with host.flights := [f] } : State).takeAnswered fun y => y.id == field c 0 8 && y.shard == field c 8 4 && y.from_ == 9
    (serving 0x13 c [z]).takeMessage 0x13 [] = some (sampleMsg 0x13 c, served [z]) ∧ c.length = 16 ∧ zeroField c 12 4 = true ∧
      u.comp.served.find? gone = some z ∧ (u.cancelShards z).flight (servedKey z.id z.shard) 0 = none ∧
      v.comp.served.find? gone = some z ∧ (v.cancelShards z).flight (servedKey z.id z.shard) 0 = some f ∧ (served []).comp.served.find? gone = none ∧ ¬ ([] : Bytes).length = 16 := by
  refine ⟨rfl, by decide, by decide, by decide, by decide, by decide, by decide, by decide, by decide⟩

theorem witness_MergeMessages_hedges :
    let d := { sampleShard 3 9 [3] with hedge := none }
    let y (d : Shard) := sampleServed (some (5, 7)) [d]
    let s (d : Shard) (n k : Nat) : State := { served [y d] with clock := n, fabTime := n, comp.compositions := [(1, sampleComp)], comp.dispatched := List.replicate k (n, false) }
    let w : Served := { sampleServed none [] with waitSince := some 0 }
    let f : Flight := { sampleFlight 0x3001 5 [] with mbx := servedKey 0 0, hdr := { (sampleFlight 0x3001 5 []).hdr with tag := 0 } }
    let u : State := { served [w] with host.flights := [f], clock := 1000000 }
    let point (u : State) : Nat := 0 + max (u.p95 1 9 * 5 / 4) 150000
    (∀ d n k, (s d n k).mergeOf 5 7 = some (y d) ∧ (s d n k).comp.compositions.find 1 = some sampleComp) ∧
      (y d).run.shards.find? (fun d => d.no == 3 && !d.merged && !d.missing) = some d ∧ d.hedge = none ∧ d.gone = false ∧
      point (s d 1250000 20) ≤ 1250000 ∧ ((y d).deadline != 0) = false ∧ d.covers.length ≤ 1 ∧ 1249999 < point (s d 1249999 20) ∧
      (s d 1250000 20).hedgeReplica sampleComp d [0] = some 0 ∧ (s d 1250000 20).hedgeReplica sampleComp d [] = none ∧
      ¬ 5 * (20 - 0) < 100 * (0 + 1) ∧ 5 * (19 - 0) < 100 * (0 + 1) ∧
      ((s d 1250000 20).comp.dispatched.filter fun e => 1250000 < e.1 + 10000000).length = 20 ∧
      u.comp.served.find? (fun y => y.id == 0 && y.shard == 0) = some w ∧ w.waitSince = some 0 ∧ u.flight (servedKey 0 0) 0 = some f ∧ 0 + 1000000 ≤ u.clock ∧ f.bound = none ∧
      ({ u with clock := 999999 } : State).clock < 0 + 1000000 := by
  refine ⟨fun d n k => ⟨rfl, rfl⟩, rfl, rfl, rfl, by decide, by decide, by decide, by decide, by decide, by decide, by decide, by decide, by decide, rfl, rfl, ?_, by decide, rfl, by decide⟩
  decide

theorem witness_MergeMessages_readHedges :
    let r : Read := { tier := .flash, collection := sampleId, seg := 1, area := 0, sector := 0, since := 0 }
    let g : Flight := { sampleFlight 0x3001 5 [] with work := .reads [r] { status := .done, parts := [] } }
    let c : Collection := { sampleFull with replicas := [{ node := 9, state := 1, c := 0 }] }
    let s (n k : Nat) : State := { sampleWith 0x3001 [] c with host.flights := [g], clock := n, flash.latencies := [(3, [(n, 50000)])], comp.readsIssued := List.replicate k (n, false) }
    (s 100000 50).flight 5 7 = some g ∧ (readsOf g)[0]? = some r ∧ (s 100000 50).coll r.collection = some c ∧ c.replicas.find? (·.state == 1) = some { node := 9, state := 1, c := 0 } ∧
      (s 100000 50).p99 3 = some 50000 ∧ r.since + max (2 * 50000) 100000 ≤ (s 100000 50).clock ∧ r.area < 2 ∧ r.hedge = none ∧ r.lost = none ∧ ¬ (32 ≤ g.hedges) ∧
      ¬ 2 * (50 - 0) < 100 * (0 + 1) ∧ 2 * (49 - 0) < 100 * (0 + 1) ∧ ¬ r.since + max (2 * 50000) 100000 ≤ (s 99999 50).clock := by
  refine ⟨rfl, rfl, rfl, rfl, by decide, by decide, by decide, rfl, rfl, by decide, by decide, by decide, by decide⟩

theorem witness_MergeMessages_reads :
    let h := [1, 0, 0, 0] ++ leBytes 4 sampleId ++ leBytes 8 0 ++ leBytes 8 9 ++ leBytes 8 1 ++ zeros 16
    let c (l : List Version) : Collection := { sampleFull with id := sampleId + 2 ^ 32, isReplica := true, versions := l }
    let u (l : List Version) : State := { taken with index.collections := [(sampleId + 2 ^ 32, c l)] }
    let v := { sampleRow 9 1 with staged := false }
    let find (l : List Version) : Option Version := (c l).versions.find? fun v => v.id == field h 0x10 8 && v.ins == field h 0x18 8
    (∀ l, ({ messaged 0x14 h with index.collections := [(sampleId + 2 ^ 32, c l)] } : State).takeMessage 0x14 [1, 4] = some (sampleMsg 0x14 h, u l)) ∧
      hedgeFaultless h = true ∧ field h 0 1 ≠ 4 ∧ (∀ l ∈ [[v], [sampleRow 9 1], []], (u l).coll (field h 4 4 + 2 ^ 32 * (field h 0x20 4 + 1)) = some (c l)) ∧ taken.coll (field h 4 4 + 2 ^ 32 * (field h 0x20 4 + 1)) = none ∧
      ¬ ((c [v]).availability = .keyLost ∨ (u [v]).zeroisingColl (field h 4 4 + 2 ^ 32 * (field h 0x20 4 + 1)) = true) ∧
      find [sampleRow 9 1] = some (sampleRow 9 1) ∧ (sampleRow 9 1).staged = true ∧ find [v] = some v ∧ v.staged = false ∧ find [] = none ∧
      (messaged 0x14 [1]).takeMessage 0x14 [1, 4] = some (sampleMsg 0x14 [1], taken) ∧ hedgeFaultless [1] = false ∧
      hedgeFaultless ([4, 0, 0, 0] ++ zeros 44) = true ∧ field ([4, 0, 0, 0] ++ zeros 44) 0 1 = 4 := by
  refine ⟨fun l => rfl, by decide, by decide, by decide +kernel, by decide, by decide, by decide, rfl, by decide, rfl, rfl, rfl, by decide, by decide, by decide⟩

theorem witness_MergeMessages_answers :
    let a := [2, 0, 0, 0] ++ zeros 44
    let b := [3, 0x22, 0, 0] ++ zeros 44
    let r (l : Option Status) : Read := { tier := .flash, collection := sampleId, seg := 1, area := 0, sector := 0, since := 0, hedge := some { node := 9, ids := [0] }, lost := l }
    let f (l : Option Status) : Flight := { sampleFlight 0x3001 5 [] with work := .reads [r l] { status := .done, parts := [] } }
    let u (l : Option Status) : State := { served [] with host.flights := [f l] }
    let mine (r : Read) : Bool := r.hedge.any fun h => h.node == 9 && h.ids.contains 0
    let x := zeros 6 ++ [1, 0] ++ zeros 8
    let k : Nat × Nat × Nat × Bytes := (0, 0, 0, [])
    (serving 0x14 a []).takeMessage 0x14 [2, 3] = some (sampleMsg 0x14 a, served []) ∧ hedgeFaultless a = true ∧ (served []).ownPastId (field a 8 8) 2 = true ∧
      (served []).host.flights.find? (fun f => (readsOf f).any mine) = none ∧ hedgeFaultless b = true ∧ field b 0 1 ≠ 2 ∧ field a 0 1 = 2 ∧
      (u none).host.flights.find? (fun f => (readsOf f).any mine) = some (f none) ∧ (readsOf (f none))[(readsOf (f none)).findIdx mine]? = some (r none) ∧
      (u (some .tierLate)).host.flights.find? (fun f => (readsOf f).any mine) = some (f (some .tierLate)) ∧
      (messaged 3 x).takeMessage 3 [] = some (sampleMsg 3 x, taken) ∧ taken.serving = true ∧ x.length = 16 ∧ 1 ≤ field x 6 1 ∧ field x 6 1 ≤ 4 ∧ zeroField x 8 8 = true ∧
      taken.fabric.sent.find? (fun m => m.1 == field x 0 4 && m.2.1 == field x 4 2 && m.2.2.1 == field x 7 1) = none ∧
      [k].find? (fun m => m.1 == field x 0 4 && m.2.1 == field x 4 2 && m.2.2.1 == field x 7 1) = some k := by
  refine ⟨rfl, by decide, by decide, rfl, by decide, by decide, by decide, by decide, by decide, by decide, rfl, rfl, by decide, by decide, by decide, by decide, rfl, by decide⟩

theorem bytesOf_length (n v : Nat) : (Config.bytesOf n v).length = n := by
  induction n generalizing v with
  | zero => rfl
  | succ n ih => rw [Config.bytesOf, List.length_cons, ih]

theorem digest_length (b : Bytes) : (Config.sha384 b).length = 48 := bytesOf_length _ _

/-- `samplePlace` with its digest. -/
def signedPlace : Bytes := samplePlace.take 48 ++ (Config.sha384 (samplePlace.take 48 ++ zeros 48 ++ samplePlace.drop 96) ++ samplePlace.drop 96)

theorem signedPlace_digest : (slice signedPlace 0x30 48 == Config.sha384 (slice signedPlace 0 0x30 ++ zeros 48 ++ signedPlace.drop 0x60)) = true := by
  have a : slice signedPlace 0 48 = samplePlace.take 48 := slice_whole _ _ _ (by decide +kernel)
  have b : signedPlace.drop 96 = samplePlace.drop 96 := by
    rw [← List.drop_drop (i := 48) (j := 48), signedPlace, List.drop_left' (by decide +kernel), List.drop_left' (digest_length _)]
  have c : slice signedPlace 48 48 = Config.sha384 (samplePlace.take 48 ++ zeros 48 ++ samplePlace.drop 96) := by
    rw [signedPlace]
    exact (slice_right _ _ 0 48 48 (by decide +kernel)).trans (slice_whole _ _ _ (digest_length _))
  rw [a, b, c, beq_iff_eq]

theorem signedPlace_sound : placementFault signedPlace 0 0 = none := by
  unfold placementFault
  rw [signedPlace_digest]
  decide +kernel

theorem witness_Images_placement :
    let f := sampleFlight 0x4003 5 signedPlace
    let s := sample 0x4003 5 signedPlace
    let p : Placing := { placement := { gen := 1, image := signedPlace }, mbx := 5, tag := 7 }
    let u : State := { s with models.placing := some p }
    let z := zeros 96
    s.turn 0x4003 (.tenant 5) 7 f ∧ f.opens 96 8388608 ∧ placementFault f.plain s.nodeId s.placementGen = none ∧ s.models.placing = none ∧ s.mayReplace f.plain = true ∧
      u.models.placing ≠ none ∧ u.models.placing = some p ∧ u.serving = true ∧ u.flight p.mbx p.tag = some f ∧ u.mayReplace p.placement.image = true ∧
      (∃ o, placementFault z 0 0 = some o) ∧ ({ u with power.season := .winter } : State).serving = false ∧ ({ u with host.flights := [] } : State).flight p.mbx p.tag = none := by
  refine ⟨sample_turn (by decide) rfl rfl, ⟨by decide +kernel, by decide +kernel, rfl⟩, signedPlace_sound, rfl, rfl, by simp, rfl, rfl, rfl, rfl, ?_, rfl, rfl⟩
  exact ⟨0, by decide +kernel⟩

/-- A collection of another size binds a region that an image without it may not take away. -/
theorem witness_Images_kept :
    let s : State := { samplePlaced 0x4003 [] sampleColl with models.placing := some { placement := { gen := 2, image := zeros 96 }, mbx := 5, tag := 7 } }
    s.mayReplace (zeros 96) = false ∧ s.serving = true ∧ s.flight 5 7 = some (sampleFlight 0x4003 5 []) := by
  exact ⟨by decide +kernel, rfl, rfl⟩

/-- A load written in one piece is that piece. -/
theorem load_whole {l : ImageLoad} {b : Bytes} (w : l.writes = [(0, b)]) (t : l.total = b.length) : loadImage l = some b := by
  have e : ∀ i, loadByte l i = b[i]? := by
    intro i
    rw [loadByte, w]
    simp
  have key : ∀ (r p : Bytes), p ++ r = b → (List.range' p.length r.length).mapM (fun i => b[i]?) = some r := by
    intro r
    induction r with
    | nil => intro p _; rfl
    | cons x r ih =>
      intro p h
      have a : b[p.length]? = some x := by rw [← h]; simp
      have c := ih (p ++ [x]) (by rw [← h]; simp)
      rw [List.length_append] at c
      rw [List.length_cons, List.range'_succ, List.mapM_cons, a]
      show (do let t ← (List.range' (p.length + 1) r.length).mapM (fun i => b[i]?); pure (x :: t)) = some (x :: r)
      erw [c]
      rfl
  rw [loadImage, t, List.range_eq_range', show loadByte l = fun i => b[i]? from funext e]
  exact key b [] rfl

theorem load_found {l : ImageLoad} {b : Bytes} (w : l.writes = [(0, b)]) (t : l.total = b.length) :
    (List.range l.total).find? (fun i => (loadByte l i).isNone) = none := by
  rw [List.find?_eq_none]
  intro i hi
  rw [loadByte, w]
  have : i < b.length := by rw [← t]; exact List.mem_range.mp hi
  simp [this]

/-- A grammar of one class and one state that accepts every text. -/
def grammarHead : Bytes := leBytes 4 0x474D4947 ++ leBytes 2 1 ++ [1, 0] ++ leBytes 4 361 ++ leBytes 4 1 ++ leBytes 2 0 ++ leBytes 2 0 ++ leBytes 4 96 ++ leBytes 4 352 ++
  leBytes 4 360 ++ zeros 16
def grammarRest : Bytes := zeros 256 ++ [0, 0, 0, 0, 1, 0, 0, 0] ++ [1]
def sampleGrammar : Bytes := grammarHead ++ (Config.sha384 (grammarHead ++ zeros 48 ++ grammarRest) ++ grammarRest)

theorem sampleGrammar_digest : digestOk 0x30 sampleGrammar = true := by
  have a : slice sampleGrammar 0 48 = grammarHead := slice_whole _ _ _ (by decide)
  have b : sampleGrammar.drop (48 + 48) = grammarRest := by
    rw [← List.drop_drop (i := 48) (j := 48), sampleGrammar, List.drop_left' (by decide), List.drop_left' (digest_length _)]
  have c : slice sampleGrammar 48 48 = Config.sha384 (grammarHead ++ zeros 48 ++ grammarRest) := by
    rw [sampleGrammar]
    exact (slice_right _ _ 0 48 48 (by decide)).trans (slice_whole _ _ _ (digest_length _))
  unfold digestOk
  rw [a, b, c, beq_iff_eq]

def grammarLoad (c : Option (Nat × Word)) : ImageLoad :=
  { id := 1, kind := .grammar, handle := sampleId + 1, tenant := 5, total := 361, writes := [(0, sampleGrammar)], last := 0, committing := c }

theorem grammarLoad_sound (c : Option (Nat × Word)) (s : State) : s.imageFault (grammarLoad c) = none := by
  have w : (grammarLoad c).writes = [(0, sampleGrammar)] := rfl
  have t : (grammarLoad c).total = sampleGrammar.length := by
    show 361 = sampleGrammar.length
    decide +kernel
  unfold State.imageFault
  rw [load_found w t, load_whole w t]
  show grammarFault (digestOk 0x30 sampleGrammar) sampleGrammar = none
  rw [sampleGrammar_digest]
  decide +kernel

def phase (op n : Nat) (off : Nat) (data : Bytes) : Bytes := leBytes 4 (sampleId + 1) ++ [BitVec.ofNat 8 n, 0, 0, 0] ++ leBytes 8 off ++ zeros 8 ++ leBytes 4 1 ++ zeros 4 ++ data
def loading (p : Bytes) (c : Option (Nat × Word)) : State := { sample 0x4030 5 p with models.loads := [grammarLoad c] }

theorem witness_Images_loads :
    let b := phase 0x4030 1 0 [1, 2, 3, 4]
    let f := sampleFlight 0x4030 5 b
    let s := loading b none
    let b2 := phase 0x4030 2 0 []
    let b3 := phase 0x4030 3 0 []
    let torn : ImageLoad := { grammarLoad none with writes := [(1, sampleGrammar)] }
    s.turn 0x4030 (.tenant 5) 7 f ∧ f.opens 32 16777216 ∧ 1 ≤ field f.plain 0 4 % 2 ^ 20 ∧ zeroField f.plain 5 3 = true ∧ field f.plain 0x10 8 = 0 ∧ zeroField f.plain 0x1C 4 = true ∧
      ownerOf (field f.plain 0 4) = f.tenant ∧ s.load .grammar f = .ok (grammarLoad none) ∧ field f.plain 4 1 = 1 ∧ field f.plain 8 8 % 4096 = 0 ∧
      field f.plain 8 8 + (f.plain.length - 32) ≤ (grammarLoad none).total ∧
      b2.length = 32 ∧ field b2 8 8 = 0 ∧ field b2 4 1 = 2 ∧ (loading b2 none).load .grammar (sampleFlight 0x4030 5 b2) = .ok (grammarLoad none) ∧
      (loading b2 none).imageFault (grammarLoad none) = none ∧ b3.length = 32 ∧ field b3 4 1 = 3 ∧
      ({ loading b2 none with models.loads := [torn] } : State).load .grammar (sampleFlight 0x4030 5 b2) = .ok torn ∧
      (∃ o, (loading b2 none).imageFault torn = some o) := by
  refine ⟨sample_turn (by decide) rfl rfl, by decide, by decide, by decide, by decide, by decide, by decide, rfl, by decide, by decide, by decide, by decide, by decide, by decide,
    rfl, grammarLoad_sound none _, by decide, by decide, rfl, 0, ?_⟩
  have e : (List.range 361).find? (fun i => (loadByte { grammarLoad none with writes := [(1, sampleGrammar)] } i).isNone) = some 0 := rfl
  unfold State.imageFault
  erw [e]

theorem witness_Images_begin :
    let b := leBytes 4 (sampleId + 1) ++ zeros 12 ++ leBytes 8 361 ++ zeros 8 ++ (grammarHead ++ zeros 48)
    let f := sampleFlight 0x4030 5 b
    let s := sample 0x4030 5 b
    s.turn 0x4030 (.tenant 5) 7 f ∧ f.opens 32 16777216 ∧ 1 ≤ field f.plain 0 4 % 2 ^ 20 ∧ zeroField f.plain 5 3 = true ∧ zeroField f.plain 0x1C 4 = true ∧
      ownerOf (field f.plain 0 4) = f.tenant ∧ field f.plain 4 1 = 0 ∧ field f.plain 8 8 = 0 ∧ field f.plain 0x18 4 = 0 ∧ f.plain.length - 32 = beginBytes .grammar ∧
      firstFault (beginChecks .grammar (f.plain.drop 32) (field f.plain 0x10 8)) = none ∧ s.models.loads = [] ∧ s.genLimits .grammar (field f.plain 0 4) = .ok () ∧
      State.imageLoad .grammar (sampleFlight 0x4030 5 [1]) s = .error (bad 0x0C) := by
  refine ⟨sample_turn (by decide) rfl rfl, by decide +kernel, by decide, by decide, by decide, by decide, by decide, by decide, by decide, by decide +kernel, by decide +kernel, rfl, ?_, ?_⟩
  · rfl
  · rfl

theorem witness_Images_rows :
    let s := loading [] (some (5, 7))
    let u : State := { loading [] none with clock := 60000000000 }
    let g : Generation := { kind := .grammar, handle := sampleId + 1, gen := 1, image := sampleGrammar }
    let b := leBytes 4 (sampleId + 1) ++ zeros 4
    let f := sampleFlight 0x4031 5 b
    let v : State := { sample 0x4031 5 b with models.gens := [g] }
    let m : Generation := { kind := .model, handle := 9, gen := 1, image := [] }
    let c : Collection := { sampleColl with desc := { sampleDesc with model := 9 }, modelGen := 1 }
    s.models.loads.find? (·.id == (1 : Word).toNat) = some (grammarLoad (some (5, 7))) ∧ s.serving = true ∧ s.flash.failed = false ∧ s.flash.lowSpace = false ∧
      s.flight 5 7 = some (sampleFlight 0x4030 5 []) ∧ ({ s with host.flights := [] } : State).flight 5 7 = none ∧ ({ s with flash.lowSpace := true } : State).flash.lowSpace = true ∧
      u.models.loads.find? (·.id == (1 : Word).toNat) = some (grammarLoad none) ∧ (grammarLoad none).last + 60000000000 ≤ u.clock ∧ (59999999999 : Nat) < (grammarLoad none).last + 60000000000 ∧
      v.turn 0x4031 (.tenant 5) 7 f ∧ f.opens 8 8 ∧ zeroField f.plain 6 2 = true ∧ ownerOf (field f.plain 0 4) = f.tenant ∧ field f.plain 4 2 = 0 ∧
      v.handleGens .grammar (field f.plain 0 4) = [g] ∧ ([g].filter (·.gen == 1)) ≠ [] ∧ ([g].any fun g => v.pinned g) = false ∧ ([m].any fun g => (sampleWith 0 [] c).pinned g) = true := by
  refine ⟨rfl, rfl, rfl, rfl, rfl, rfl, rfl, rfl, by decide, by decide, sample_turn (by decide) rfl rfl, by decide, by decide, by decide, by decide, rfl, by decide, by decide, by decide⟩

theorem crew_then {s : State} {i p : Nat} {f : Flight} {P : State → Bool} (a : s.crewFor f.mbx f.tag = none) (b : (s.pool (crewOf s.placeImage i)).isEmpty = false)
    (c : s.tiles.queue.filter (·.cls == i) = []) (d : (s.formCrew i p f.mbx f.tag).any P = true) : ∃ t, s.crewAtOnce i p f t ∧ P t = true := by
  cases e : s.formCrew i p f.mbx f.tag with
  | none => rw [e] at d; cases d
  | some t => rw [e] at d; exact ⟨t, .inr ⟨a, by simpa using b, c, e⟩, d⟩

/-- The header of a one-layer model of a kind, with crew class `crew`; no CLS, SEP or EOS token. -/
def modelHead (kind crew : Nat) : Bytes := zeros 6 ++ [BitVec.ofNat 8 kind, 0] ++ zeros 16 ++ leBytes 2 1 ++ leBytes 2 64 ++ [1, 1] ++ leBytes 2 64 ++ leBytes 4 64 ++ leBytes 2 512 ++
  [1, 0] ++ leBytes 4 64 ++ [BitVec.ofNat 8 crew, 0] ++ zeros 22 ++ leBytes 4 0xFFFFFFFF ++ leBytes 4 0xFFFFFFFF ++ zeros 4 ++ leBytes 4 0xFFFFFFFF ++ zeros 44
def modelGen (kind crew : Nat) : Generation := { kind := .model, handle := sampleId + 1, gen := 1, image := modelHead kind crew }
def vocabGen : Generation := { kind := .vocab, handle := sampleId + 2, gen := 1, image := zeros 128 }
def modelled (op kind crew : Nat) (b : Bytes) : State := { samplePlaced op b sampleColl with models.gens := [modelGen kind crew, vocabGen] }
def handles : Bytes := leBytes 4 (sampleId + 1) ++ leBytes 4 (sampleId + 2)
def bound (op kind crew : Nat) (b : Bytes) : State :=
  { modelled op kind crew b with host.flights := [{ sampleFlight op 5 b with binds := [(1, sampleId + 2, 1), (0, sampleId + 1, 1)] }] }
def boundModel (op kind crew : Nat) (b : Bytes) : State :=
  { modelled op kind crew b with host.flights := [{ sampleFlight op 5 b with binds := [(0, sampleId + 1, 1)] }] }

theorem witness_ModelPasses_encode :
    let b := handles ++ leBytes 2 1 ++ [0, 1, 0, 0, 0, 0] ++ (leBytes 4 4 ++ zeros 4 ++ leBytes 4 3 ++ zeros 4)
    let f := sampleFlight 0x4010 5 b
    let g := modelGen 0 4
    let h := readModelHeader g.image
    let ins : List (Nat × Bytes) := [(0x30, leBytes 4 3)]
    let seqs := (ins.map fun x => inputTokens vocabGen.image true x.2).map fun x => modelSequence h x.1
    (modelled 0x4010 0 4 b).turn 0x4010 (.tenant 5) 7 f ∧ f.opens 16 16777216 ∧ field f.plain 8 2 = 1 ∧ field f.plain 0xA 1 < 2 ∧ field f.plain 0xB 1 = 1 ∧ zeroField f.plain 0xE 2 = true ∧
      readInputs 1 0x30 (f.plain.drop 16) = .ok ins ∧ hdrStream f.hdr = false ∧ field f.plain 0xC 2 = 0 ∧
      (modelled 0x4010 0 4 b).bindGen .model 0x20 (field f.plain 0 4) f = .ok (g, boundModel 0x4010 0 4 b) ∧
      (boundModel 0x4010 0 4 b).bindGen .vocab 0x24 (field f.plain 4 4) f = .ok (vocabGen, bound 0x4010 0 4 b) ∧ h.kind = 0 ∧ vocabMatches g.image vocabGen.image = true ∧
      (∀ x ∈ ins, x.2.length % 4 = 0) ∧
      ∃ t, (bound 0x4010 0 4 b).crewAtOnce h.crewClass 0 f t ∧ succeeded (t.reserveKv f h (seqs.map (·.1.length))) = true := by
  refine ⟨sample_turn (by decide) rfl rfl, by decide, by decide, by decide, by decide, by decide, rfl, rfl, by decide, rfl, rfl, by decide, by decide, by decide,
    crew_then ?_ ?_ ?_ ?_⟩ <;> decide +kernel

theorem witness_ModelPasses_pairs :
    let b := handles ++ leBytes 2 1 ++ leBytes 2 64 ++ [1, 0, 0, 0] ++ (leBytes 4 4 ++ leBytes 4 4 ++ leBytes 4 3 ++ zeros 4 ++ leBytes 4 9 ++ zeros 4)
    let f := sampleFlight 0x4011 5 b
    let g := modelGen 1 5
    let h := readModelHeader g.image
    let ps : List ((Nat × Bytes) × (Nat × Bytes)) := [((0x30, leBytes 4 3), (0x34, leBytes 4 9))]
    (modelled 0x4011 1 5 b).turn 0x4011 (.tenant 5) 7 f ∧ f.opens 16 16777216 ∧ field f.plain 8 2 = 1 ∧ field f.plain 0xA 2 = 64 ∧ field f.plain 0xC 1 = 1 ∧ zeroField f.plain 0xD 1 = true ∧
      succeeded (readPairs 1 0x30 (f.plain.drop 16)) = true ∧ (readPairs 1 0x30 (f.plain.drop 16)).toOption.map (·.map fun x => (x.1.2, x.2.2)) = some (ps.map fun x => (x.1.2, x.2.2)) ∧
      field f.plain 0xE 2 = 0 ∧ (modelled 0x4011 1 5 b).bindGen .model 0x20 (field f.plain 0 4) f = .ok (g, boundModel 0x4011 1 5 b) ∧
      (boundModel 0x4011 1 5 b).bindGen .vocab 0x24 (field f.plain 4 4) f = .ok (vocabGen, bound 0x4011 1 5 b) ∧ h.kind = 1 ∧ vocabMatches g.image vocabGen.image = true ∧ 64 ≤ h.maxSeq ∧
      (∀ x ∈ ps, x.1.2.length % 4 = 0 ∧ x.2.2.length % 4 = 0) ∧
      ∃ t, (bound 0x4011 1 5 b).crewAtOnce h.crewClass 0 f t ∧
        succeeded (t.reserveKv f h (ps.map fun x => (pairSequence h 64 (tokenIds x.1.2) (tokenIds x.2.2)).1.length)) = true := by
  refine ⟨sample_turn (by decide) rfl rfl, by decide, by decide, by decide, by decide, by decide, by decide, by decide, by decide, rfl, rfl, by decide, by decide, by decide, by decide,
    crew_then ?_ ?_ ?_ ?_⟩ <;> decide +kernel

theorem witness_Generation_start :
    let b := handles ++ zeros 6 ++ [1, 0] ++ leBytes 4 1 ++ leBytes 4 4 ++ zeros 8 ++ zeros 16 ++ leBytes 4 3 ++ zeros 4
    let f := sampleFlight 0x4012 5 b
    let g := modelGen 2 5
    let h := readModelHeader g.image
    (modelled 0x4012 2 5 b).turn 0x4012 (.tenant 5) 7 f ∧ f.opens 48 16777216 ∧ fields (genFields f) = .ok () ∧ field f.plain 0x14 4 = 4 ∧ field f.plain 0x1E 1 = 0 ∧
      f.plain.length = 48 + (4 + 7) / 8 * 8 + 72 * 0 ∧ zeroField f.plain (48 + 4) ((8 - 4 % 8) % 8) = true ∧ readStops 0 0x58 (f.plain.drop 56) = .ok [] ∧ field f.plain 0xC 2 = 0 ∧
      (modelled 0x4012 2 5 b).bindGen .model 0x20 (field f.plain 0 4) f = .ok (g, boundModel 0x4012 2 5 b) ∧
      (boundModel 0x4012 2 5 b).bindGen .vocab 0x24 (field f.plain 4 4) f = .ok (vocabGen, bound 0x4012 2 5 b) ∧ field f.plain 8 4 = 0 ∧ (bound 0x4012 2 5 b).bindGrammar h.eos f = .ok (none, bound 0x4012 2 5 b) ∧ h.kind = 2 ∧ field f.plain 0x28 4 = 0 ∧
      field f.plain 0xE 1 = 1 ∧ (inputTokens vocabGen.image true (slice f.plain 48 4)).1.length + field f.plain 0x10 4 ≤ h.maxSeq ∧
      ∃ t, ((bound 0x4012 2 5 b).updFlight f.mbx f.tag fun x => { x with deadline := none }).crewAtOnce h.crewClass 0 f t ∧
        succeeded (t.reserveKv f h [1 + field f.plain 0x10 4]) = true := by
  refine ⟨sample_turn (by decide) rfl rfl, by decide, by decide, by decide, by decide, by decide, by decide, rfl, by decide, rfl, rfl, by decide, rfl, by decide, by decide, by decide, by decide,
    crew_then ?_ ?_ ?_ ?_⟩ <;> decide +kernel

theorem witness_ModelPasses_texts :
    let b := leBytes 4 (sampleId + 2) ++ zeros 4 ++ leBytes 4 1 ++ zeros 4 ++ [65] ++ zeros 7
    let f := sampleFlight 0x4022 5 b
    let s := modelled 0x4022 0 4 b
    let u : State := { s with host.flights := [{ f with binds := [(1, sampleId + 2, 1)] }] }
    let d := leBytes 4 (sampleId + 2) ++ zeros 4 ++ leBytes 4 1 ++ zeros 4 ++ leBytes 4 0
    let e := sampleFlight 0x4023 5 d
    let v := modelled 0x4023 0 4 d
    let w : State := { v with host.flights := [{ e with binds := [(1, sampleId + 2, 1)] }] }
    let c : TokenContext := { id := 1, tenant := 5, vocab := sampleId + 2, gen := 1, carry := [], started := true, last := 0 }
    let x : State := { sample 0 5 [] with models.contexts := [c], clock := 10000000000 }
    s.turn 0x4022 (.tenant 5) 7 f ∧ f.opens 16 4000016 ∧ field f.plain 8 4 = 1 ∧ field f.plain 4 2 = 0 ∧ field f.plain 6 2 = 0 ∧ zeroField f.plain 0xC 4 = true ∧
      f.plain.length = 16 + (1 + 7) / 8 * 8 ∧ zeroField f.plain (16 + 1) ((8 - 1 % 8) % 8) = true ∧ s.tokenizeSource f = .ok (none, vocabGen, u) ∧ (∃ t, u.crewAtOnce u.textCrew 0 f t) ∧
      v.turn 0x4023 (.tenant 5) 7 e ∧ e.opens 16 16000016 ∧ field e.plain 8 4 = 1 ∧ field e.plain 4 2 = 0 ∧ zeroField e.plain 6 2 = true ∧ zeroField e.plain 0xC 4 = true ∧
      e.plain.length = 16 + 4 * 1 ∧ v.bindGen .vocab 0x20 (field e.plain 0 4) e = .ok (vocabGen, w) ∧
      (tokenIds (e.plain.drop 16)).findIdx? (fun i => decide (vocabPieces vocabGen.image ≤ i)) = some 0 ∧
      x.models.contexts.find? (·.id == (1 : Half).toNat) = some c ∧ (∀ g ∈ x.host.flights, g.opcode ≠ 0x4022#16) ∧ c.last + 10000000000 ≤ x.clock := by
  refine ⟨sample_turn (by decide) rfl rfl, by decide, by decide, by decide, by decide, by decide, by decide, by decide, rfl, crew_of ?_ ?_ ?_ ?_, sample_turn (by decide) rfl rfl, by decide,
    by decide, by decide, by decide, by decide, by decide, rfl, by decide, rfl, by decide, by decide⟩ <;> decide +kernel

theorem witness_ModelPasses_more :
    let b := leBytes 4 (sampleId + 2) ++ [3, 0, 0, 0] ++ leBytes 4 1 ++ zeros 4 ++ [65] ++ zeros 7
    let f := sampleFlight 0x4022 5 b
    let s := modelled 0x4022 0 4 b
    let u : State := { s with host.flights := [{ f with binds := [(1, sampleId + 2, 1)] }] }
    let d := leBytes 4 (sampleId + 2) ++ [0, 0, 1, 0] ++ leBytes 4 0 ++ zeros 4
    let e := sampleFlight 0x4022 5 d
    let c : TokenContext := { id := 1, tenant := 5, vocab := sampleId + 2, gen := 1, carry := [65], started := true, last := 0 }
    let v : State := { modelled 0x4022 0 4 d with models.contexts := [c] }
    bit (field f.plain 4 2) 0 = true ∧ s.tokenizeSource f = .ok (none, vocabGen, u) ∧ u.models.contexts.length < 256 ∧
      (u.models.contexts.filter (·.tenant == f.tenant)).length < 16 ∧ (∃ t, u.crewAtOnce u.textCrew 0 f t) ∧
      v.turn 0x4022 (.tenant 5) 7 e ∧ e.opens 16 4000016 ∧ field e.plain 8 4 = 0 ∧ field e.plain 6 2 ≠ 0 ∧ field e.plain 4 2 = 0 ∧
      e.plain.length = 16 + (0 + 7) / 8 * 8 ∧ v.tokenizeSource e = .ok (some c, vocabGen, v) ∧ (∃ t, v.crewAtOnce v.textCrew 0 e t) := by
  refine ⟨by decide, rfl, by decide, by decide, crew_of ?_ ?_ ?_ ?_, sample_turn (by decide) rfl rfl, by decide, by decide, by decide, by decide, by decide, rfl, crew_of ?_ ?_ ?_ ?_⟩ <;>
    decide +kernel

/-- A vocabulary of one byte piece, of no bytes. -/
def onePiece : Bytes := zeros 12 ++ leBytes 4 1 ++ leBytes 4 128 ++ leBytes 4 160 ++ zeros 104 ++ zeros 5 ++ [1] ++ zeros 26
theorem witness_ModelPasses_detokenize :
    let d := leBytes 4 (sampleId + 2) ++ zeros 4 ++ leBytes 4 1 ++ zeros 4 ++ leBytes 4 0
    let e := sampleFlight 0x4023 5 d
    let g : Generation := { vocabGen with image := onePiece }
    let v : State := { samplePlaced 0x4023 d sampleColl with models.gens := [g] }
    let w : State := { v with host.flights := [{ e with binds := [(1, sampleId + 2, 1)] }] }
    v.bindGen .vocab 0x20 (field e.plain 0 4) e = .ok (g, w) ∧ (tokenIds (e.plain.drop 16)).findIdx? (fun i => decide (vocabPieces g.image ≤ i)) = none ∧
      (∃ t, w.crewAtOnce w.textCrew 0 e t) := by
  refine ⟨rfl, by decide, crew_of ?_ ?_ ?_ ?_⟩ <;> decide +kernel

theorem witness_ModelPasses_contexts :
    let c : TokenContext := { id := 1, tenant := 5, vocab := sampleId + 2, gen := 1, carry := [], started := true, last := 0 }
    let b := leBytes 4 (sampleId + 2) ++ [0, 0, 1, 0] ++ leBytes 4 0 ++ zeros 4
    let f : Flight := { sampleFlight 0x4022 5 b with work := .rebuildWait }
    let x : State := { sample 0 5 [] with models.contexts := [c] }
    let y : State := { x with host.flights := [f], clock := 10000000000 }
    x.models.contexts.find? (·.id == (1 : Half).toNat) = some c ∧ x.clock < c.last + 10000000000 ∧ y.models.contexts.find? (·.id == (1 : Half).toNat) = some c ∧
      (y.host.flights.any fun g => g.opcode == 0x4022#16 && g.work != .admitted && field g.plain 6 2 == c.id) = true := by decide

theorem witness_ModelPasses_weights :
    let g : Generation := { modelGen 0 4 with damaged := [(0, true)] }
    let h : Generation := { modelGen 0 4 with damaged := [(0, false)] }
    (∃ d ∈ g.damaged, d.2 = true) ∧ h.damaged ≠ [] ∧ (∀ d ∈ h.damaged, d.2 = false) := by decide

/-- A generator of two tokens whose logits are row 0, [1, 2], after token 0 and row 1, [NaN, NaN], after token 1. -/
def twoTokens (eos : Nat) : Bytes :=
  zeros 6 ++ [2, 0] ++ zeros 16 ++ leBytes 2 1 ++ leBytes 2 64 ++ [1, 1] ++ leBytes 2 64 ++ leBytes 4 64 ++ leBytes 2 512 ++ [1, 0] ++ leBytes 4 2 ++ [5, 0] ++
    leBytes 2 1 ++ leBytes 4 128 ++ leBytes 4 144 ++ leBytes 4 3 ++ zeros 8 ++ leBytes 4 0xFFFFFFFF ++ leBytes 4 0xFFFFFFFF ++ zeros 4 ++ leBytes 4 eos ++ zeros 44 ++
    ([1, 0] ++ leBytes 2 0xFFFF ++ leBytes 2 0 ++ leBytes 2 1 ++ leBytes 2 2 ++ leBytes 2 0xFFFF ++ zeros 4) ++
    (zeros 16 ++ [6, 1, 0, 0] ++ leBytes 4 1 ++ zeros 8) ++ (leBytes 8 240 ++ leBytes 8 8 ++ [1, 2, 0, 0] ++ leBytes 4 2 ++ leBytes 4 2 ++ zeros 4) ++
    (zeros 16 ++ [0, 1, 0, 0] ++ leBytes 4 2 ++ zeros 8) ++ (leBytes 2 0x3F80 ++ leBytes 2 0x4000 ++ leBytes 2 0x7FC0 ++ leBytes 2 0x7FC0)
def twoRun (t : Nat) : GenRun := { model := (sampleId + 1, 1), vocab := (sampleId + 2, 1), grammar := (0, 0), prompt := [t], conf := (0, []), stops := [], stream := none, sprint := false }
/-- The tokens a run may choose from whose logits are numbers. -/
def twoChoices (eos t : Nat) : List (Nat × Word) :=
  (permitted none vocabGen.image eos (0, []) (nextLogits (twoTokens eos) (genSequence (readModelHeader (twoTokens eos)) (twoRun t))).1)

theorem witness_Generation_steps :
    permitted none vocabGen.image 9 (0, []) (nextLogits (modelHead 2 5) [0]).1 = [] ∧
      twoChoices 9 1 ≠ [] ∧ (twoChoices 9 1).filter (fun x => !f32IsNan x.2) = [] ∧
      twoChoices 9 0 = [(0, 0x3F800000#32), (1, 0x40000000#32)] ∧ (twoChoices 9 0).filter (fun x => !f32IsNan x.2) ≠ [] ∧
      (candidates 1 ((twoChoices 9 0).filter fun x => !f32IsNan x.2)).head? = some (1, 0x40000000#32) ∧
      (candidates 1 ((twoChoices 1 0).filter fun x => !f32IsNan x.2)).head? = some (1, 0x40000000#32) := by decide +kernel

theorem witness_Generation_tokens :
    let m : Generation := { kind := .model, handle := sampleId + 1, gen := 1, image := twoTokens 9 }
    let f : Flight := { sampleFlight 0x4012 5 [] with work := .generate (twoRun 0) }
    let s : State := { sample 0x4012 5 [] with host.flights := [f], models.gens := [m, vocabGen] }
    let q : KvSequence := { id := 1, layers := 1, table := 0, entries := [(0, { frame := 0, check := 2 })] }
    let u : State := { s with models.kv := [{ mbx := 5, tag := 7, pages := 1, pageBytes := 1, sequences := [q] }] }
    s.flight (Mbx.tenant 5).key 7 = some f ∧ s.generation .model (sampleId + 1) 1 = some m ∧ s.generation .vocab (sampleId + 2) 1 = some vocabGen ∧
      s.serving = true ∧ m.damaged = [] ∧ genSequence (readModelHeader m.image) (twoRun 0) = [0] ∧ (s.throughPages f 1).isSome = true ∧ u.throughPages f 1 = none ∧
      (∀ d, ({ s with models.gens := [{ m with damaged := [(0, d)] }, vocabGen] } : State).generation .model (sampleId + 1) 1 = some { m with damaged := [(0, d)] }) := by
  refine ⟨?_, ?_, ?_, ?_, ?_, ?_, ?_, ?_, ?_⟩ <;> decide +kernel

theorem witness_Generation_streams :
    let r : GenRun := { twoRun 0 with stream := some 1 }
    let f : Flight := { sampleFlight 0x4012 5 [] with work := .generate r }
    let o : PendingRecord := { tag := 7, mbx := 5, tenant := 5#16, opcode := 0x4012#16, session := 1, csn := 0, payload := [], last := false, aborted := false }
    let x : Stream := { tenant := 5, base := 0, slotsLog2 := 6, vector := 0, irqCount := 1, irqUs := 0, prod := 64, waiting := [o] }
    let s : State := { sample 0x4012 5 [] with host.flights := [f], host.streams := [(1, x)] }
    let u : State := { s with host.streams := [(1, { x with prod := 0 })] }
    s.flight (Mbx.tenant 5).key 7 = some f ∧ s.host.streams.find 1 = some x ∧ s.streamLacks 1 = true ∧ u.host.streams.find 1 = some { x with prod := 0 } ∧ u.streamLacks 1 = false := by
  decide

theorem witness_Generation_texts :
    let r : GenRun := { twoRun 0 with out := [0, 0] }
    let f := sampleFlight 0x4012 5 (zeros 16 ++ leBytes 4 3)
    stopAt [[65]] [] 0 [65] = some (1, 0) ∧ stopAt r.stops [] 0 ((genChars vocabGen.image r.out).1.map unmark) = none ∧ r.out.length < field f.plain 0x10 4 ∧
      field (sampleFlight 0x4012 5 (zeros 16 ++ leBytes 4 2)).plain 0x10 4 ≤ r.out.length := by decide

/-- A module-local table of 8 FP32 elements and 1,024 rows, updated by SET. -/
def tableBytes : Bytes := leBytes 4 (sampleId + 1) ++ leBytes 4 0 ++ leBytes 2 8 ++ [0, 0, 10, 0, 0, 0] ++ leBytes 8 0 ++ zeros 40
def sampleTable : Table := { id := sampleId + 1, desc := readTableDesc tableBytes, reserved := 65536 }
def tabled (op : Nat) (b : Bytes) (t : Table) : State := { samplePlaced op b sampleColl with tables.tables := [(sampleId + 1, t)] }

theorem witness_Tables_lives :
    let f := sampleFlight 0x5001 5 tableBytes
    let s := samplePlaced 0x5001 tableBytes sampleColl
    let d := leBytes 4 (sampleId + 1) ++ zeros 4
    let g := sampleFlight 0x5002 5 d
    let u := tabled 0x5002 d sampleTable
    let h : Flight := { g with work := .eventWait }
    let w : Table := { sampleTable with dropping := some (5, 7), dropSent := some 0 }
    s.turn 0x5001 (.tenant 5) 7 f ∧ f.opens 64 64 ∧ s.unfenced (field f.plain 4 4) = .ok () ∧ fields (tableFields f.plain) = .ok () ∧ ownerOf (field f.plain 0 4) = f.tenant ∧
      s.tables.tables.find (field f.plain 0 4) = none ∧
      (readTableDesc f.plain).composition = 0 ∧ succeeded (s.reserveTable (field f.plain 0 4) (readTableDesc f.plain) []) = true ∧
      u.turn 0x5002 (.tenant 5) 7 g ∧ u.unfencedTable g = .ok () ∧ g.opens 8 8 ∧ zeroField g.plain 4 4 = true ∧ u.namedTable g = .ok sampleTable ∧
      ({ u with host.flights := [h] } : State).flight 5 7 = some h ∧ h.opcode.toNat = 0x5002 ∧ h.work = .eventWait ∧
      (tabled 0x5002 d w).table w.id = some w ∧ w.dropSent = some 0 ∧ w.id < 2 ^ 32 ∧ 0 + 100000000 ≤ ({ tabled 0x5002 d w with clock := 100000000 } : State).clock ∧
      (({ u with host.flights := [h] } : State).freeTable sampleTable.id).flight 5 7 = some h := by
  refine ⟨sample_turn (by decide) rfl rfl, by decide, rfl, by decide, by decide, rfl, by decide, by decide +kernel, sample_turn (by decide) rfl rfl, rfl, by decide, by decide, rfl, rfl, by decide, rfl,
    rfl, rfl, by decide, by decide, ?_⟩
  decide +kernel

/-- The table of a composition of nodes 0 and 9. -/
def sharedBytes : Bytes := leBytes 4 (sampleId + 1) ++ leBytes 4 1 ++ leBytes 2 8 ++ [0, 0, 10, 0, 0, 0] ++ leBytes 8 0 ++ zeros 40
def tableComp (l : List Nat) : Composition := { id := 1, version := 1, members := l, digest := [], active := true }
/-- The creation of a table on a composition: what has been sent, and whether all of it could be. -/
def createSent (l : List Nat) (u : State) : State × Bool :=
  let f := sampleFlight 0x5001 5 sharedBytes
  let others := l.filter (· != u.nodeId)
  let r := u.newReq
  others.foldl (fun (a : State × Bool) n =>
    let y := a.1.send n 0x30 (a.1.fabClass f.tenant) f.tenant false (tableMessage 1 0 a.1.nodeId (sampleId + 1) 0 r.1 0 (tableDescBytes (sampleId + 1) (readTableDesc sharedBytes)))
    (y.1, a.2 && y.2 && !(tableComp l).lost.contains n)) ((r.2.updTable (sampleId + 1) fun t => { t with creating := some (f.mbx, f.tag, others) }).setWork f .eventWait, true)
def creating (s : State) (l : List Nat) : State := { s with comp.compositions := [(1, tableComp l)] }

set_option maxRecDepth 20000 in
theorem witness_Tables_shared :
    let f := sampleFlight 0x5001 5 sharedBytes
    let s := samplePlaced 0x5001 sharedBytes sampleColl
    let d := readTableDesc f.plain
    f.opens 64 64 ∧ (creating s [0, 9]).unfenced (field f.plain 4 4) = .ok () ∧ fields (tableFields f.plain) = .ok () ∧ d.composition = 1 ∧
      (creating s [0, 9]).comp.compositions.find 1 = some (tableComp [0, 9]) ∧
      (∃ u t, (creating s [0, 9]).reserveTable (sampleId + 1) d [0, 9] = .ok u ∧ (createSent [0, 9] u).1.tables.tables.find (sampleId + 1) = some t ∧ (createSent [0, 9] u).2 = false) ∧
      (∃ u t, (creating s [0]).reserveTable (sampleId + 1) d [0] = .ok u ∧ (createSent [0] u).1.tables.tables.find (sampleId + 1) = some t ∧ (createSent [0] u).2 = true) ∧
      (∃ u t, (linked (creating s [0, 9])).reserveTable (sampleId + 1) d [0, 9] = .ok u ∧ (createSent [0, 9] u).1.tables.tables.find (sampleId + 1) = some t ∧ (createSent [0, 9] u).2 = true) := by
  have pick : ∀ {x : Except Detail State} {P : State → Bool} {Q : State → Option Table}, (match x with | .ok u => P u && (Q u).isSome | .error _ => false) = true →
      ∃ u t, x = .ok u ∧ Q u = some t ∧ P u = true := by
    intro x P Q h
    cases x with
    | error e => cases h
    | ok u =>
      rw [Bool.and_eq_true] at h
      obtain ⟨t, e⟩ := Option.isSome_iff_exists.mp h.2
      exact ⟨u, t, rfl, e, h.1⟩
  refine ⟨by decide, rfl, by decide, by decide, rfl, ?_, pick (P := fun u => (createSent [0] u).2) ?_, pick (P := fun u => (createSent [0, 9] u).2) ?_⟩
  · obtain ⟨u, t, a, b, c⟩ := pick (x := (creating (samplePlaced 0x5001 sharedBytes sampleColl) [0, 9]).reserveTable (sampleId + 1) (readTableDesc sharedBytes) [0, 9])
      (P := fun u => !(createSent [0, 9] u).2) (Q := fun u => (createSent [0, 9] u).1.tables.tables.find (sampleId + 1)) (by decide +kernel)
    exact ⟨u, t, a, b, by simpa using c⟩
  · decide +kernel
  · decide +kernel

theorem witness_Tables_creating :
    let t : Table := { sampleTable with creating := some (5, 7, [9]) }
    let s := tabled 0x5001 tableBytes t
    let f := sampleFlight 0x5001 5 tableBytes
    (s.updTable t.id fun t => { t with creating := none }).flight 5 7 = some f ∧ (s.freeCreated t).flight 5 7 = some f ∧ t.ready 0 1 0 5 = true ∧
      ({ t with incoming := [0] } : Table).ready 0 1 0 5 = false := by
  refine ⟨rfl, ?_, by decide, by decide⟩
  decide +kernel

theorem witness_Tables_rows :
    let b := leBytes 4 (sampleId + 1) ++ leBytes 8 1 ++ leBytes 4 1 ++ leBytes 4 0 ++ zeros 12 ++ leBytes 8 1023
    let f := sampleFlight 0x5010 5 b
    let s := tabled 0x5010 b sampleTable
    let v := s.updFlight f.mbx f.tag fun g => { g with deadline := none }
    let e := leBytes 4 (sampleId + 1) ++ leBytes 8 1 ++ leBytes 4 5 ++ leBytes 4 1 ++ zeros 12 ++ (leBytes 8 1023 ++ zeros 8 ++ zeros 32)
    let g := sampleFlight 0x5011 5 e
    let u := tabled 0x5011 e sampleTable
    s.turn 0x5010 (.tenant 5) 7 f ∧ s.unfencedTable f = .ok () ∧ f.opens 32 16777216 ∧ field f.plain 0xC 4 = 1 ∧ field f.plain 4 8 = 1 ∧ field f.plain 0x10 4 = 0 ∧ field f.plain 0x14 1 = 0 ∧
      zeroField f.plain 0x15 1 = true ∧ field f.plain 0x18 4 = 0 ∧ zeroField f.plain 0x1C 4 = true ∧ f.plain.length = 32 + 8 * (1 + 0) ∧ s.namedTable f = .ok sampleTable ∧
      s.streamField 0x36 (field f.plain 0x16 2) f = .ok none ∧ keyFault sampleTable.desc 0x40 8 (lookupKeys f.plain 32 1) = .ok () ∧ sampleTable.broken = false ∧
      field f.plain 4 8 = sampleTable.step ∧ sampleTable.endSent = false ∧ (∃ w, v.crewAtOnce ((v.crewOfKind 4).getD 0) 0 f w) ∧
      u.turn 0x5011 (.tenant 5) 7 g ∧ u.unfencedTable g = .ok () ∧ g.opens 32 16777216 ∧ field g.plain 0x10 4 = 1 ∧ field g.plain 0x14 1 = 0 ∧ field g.plain 4 8 = sampleTable.step ∧ zeroField g.plain 0x15 11 = true ∧
      u.namedTable g = .ok sampleTable ∧ g.plain.length = 32 + 1 * updateEntryBytes sampleTable.desc 0 ∧
      updateFault sampleTable.desc 0 0x40 (records (updateEntryBytes sampleTable.desc 0) 1 (g.plain.drop 32)) = .ok () ∧ sampleTable.broken = false ∧
      field g.plain 0xC 4 ∉ sampleTable.seqs ∧ (sampleTable.buffer.filter (·.step == sampleTable.step)).length < 4194304 ∧ ∃ w, u.crewAtOnce ((u.crewOfKind 4).getD 0) 0 g w := by
  refine ⟨sample_turn (by decide) rfl rfl, rfl, by decide, by decide, by decide, by decide, by decide, by decide, by decide, by decide, by decide, rfl, rfl, by decide, rfl, by decide, rfl,
    crew_of ?_ ?_ ?_ ?_, sample_turn (by decide) rfl rfl, rfl, by decide, by decide, by decide, by decide, by decide, rfl, by decide, by decide, rfl, by decide, by decide,
    crew_of ?_ ?_ ?_ ?_⟩ <;> decide +kernel

theorem witness_Tables_loads :
    let b := leBytes 4 (sampleId + 1) ++ zeros 12
    let f := sampleFlight 0x5020 5 b
    let s := tabled 0x5020 b sampleTable
    let u := s.updTable sampleTable.id fun x => { x.roll s.clock with forced := x.forced || (!x.members.isEmpty && bit (field f.plain 4 4) 0 && !bit (field f.plain 4 4) 1) }
    let t : Table := { sampleTable with closed := some [(0, 3)] }
    s.turn 0x5020 (.tenant 5) 7 f ∧ s.unfencedTable f = .ok () ∧ f.opens 16 16 ∧ field f.plain 4 4 < 4 ∧ zeroField f.plain 8 8 = true ∧ s.namedTable f = .ok sampleTable ∧ sampleTable.broken = false ∧
      u.table sampleTable.id = some sampleTable ∧ (skewOf [s.nodeId] sampleTable.lastLoads).2 = 0 ∧ (skewOf [s.nodeId] (t.ownLoads s.nodeId)).2 ≠ 0 ∧
      ({ s with tables.nexts := [{ mbx := 5, table := sampleId + 1, keys := [1] }] } : State).tables.nexts.find? (fun x => x.mbx == 5 && x.table == (BitVec.ofNat 32 (sampleId + 1)).toNat) =
        some { mbx := 5, table := sampleId + 1, keys := [1] } ∧ s.table (BitVec.ofNat 32 (sampleId + 1)).toNat = some sampleTable ∧ sampleTable.broken = false ∧ s.serving = true := by
  refine ⟨sample_turn (by decide) rfl rfl, rfl, by decide, by decide, by decide, rfl, rfl, ?_, by decide, by decide, rfl, rfl, rfl, rfl⟩
  decide +kernel

theorem witness_TableSteps_closes :
    let id := sampleId + 1
    let t : Table := { sampleTable with closing := true }
    let s := tabled 0 [] t
    let j : Table := { t with members := [0, 9], desc := { t.desc with migratePct := 10 }, ends := [(9, 1)] }
    let e : Table := { t with endSent := true }
    let q : RowUpdate := { step := 1, issuer := 0, seq := 5, index := 0, part := 0, row := 3, delta := [] }
    s.serving = true ∧ (s.updTable id fun t => t.roll s.clock).table id = some t ∧ (s.updTable id fun t => t.roll s.clock).stepBusy t = false ∧ t.closing = true ∧ t.endSent = false ∧
      t.broken = false ∧ t.judges s.nodeId = false ∧ j.judges 0 = true ∧ j.othersEnded 0 = true ∧
      (tabled 0 [] e).table id = some e ∧ e.othersEnded s.nodeId = true ∧ e.moves = [] ∧ ({ tabled 0 [] e with host.flights := [] } : State).tables.requests = [] ∧
      ({ t with buffer := [{ q with step := 2 }] } : Table).buffer = [{ q with step := 2 }] ∧ ({ q with step := 2 } : RowUpdate).step ≠ t.step ∧ t.desc.update = 0 ∧ q.issuer < ({ q with issuer := 1 } : RowUpdate).issuer := by
  refine ⟨rfl, ?_, by decide +kernel, rfl, rfl, rfl, by decide, by decide, by decide, rfl, by decide, rfl, rfl, rfl, by decide, by decide, by decide⟩
  decide +kernel

set_option maxRecDepth 20000 in
theorem witness_TableSteps_messages :
    let t : Table := { sampleTable with members := [0, 9], incoming := [0] }
    let q (k : Nat) : Bytes := leBytes 1 k ++ zeros 3 ++ leBytes 4 (sampleId + 1) ++ zeros 24
    let b := leBytes 4 (sampleId + 1) ++ leBytes 4 0 ++ leBytes 4 1 ++ zeros 4 ++ zeros 65536
    let u : State := { taken with tables.tables := [(sampleId + 1, t)] }
    ({ messaged 0x30 (q 7) with tables.tables := [(sampleId + 1, t)] } : State).takeMessage 0x30 [] = some (sampleMsg 0x30 (q 7), u) ∧ u.serving = true ∧ tableHeadOk (q 7) = true ∧
      field (q 7) 0 1 = 7 ∧ u.tables.tables.find (field (q 7) 4 4) = some t ∧ 9 ∈ t.members ∧ tableHeadOk [1] = false ∧ tableHeadOk (q 2) = true ∧ tableHeadOk (q 3) = true ∧
      tableHeadOk (q 4) = true ∧ tableHeadOk (q 5) = true ∧ tableHeadOk (q 6) = true ∧ tableHeadOk (q 8) = true ∧ taken.tables.tables.find (field (q 2) 4 4) = none ∧
      ({ messaged 0x31 b with tables.tables := [(sampleId + 1, t)] } : State).takeMessage 0x31 [] = some (sampleMsg 0x31 b, u) ∧ u.tables.tables.find (field b 0 4) = some t ∧
      zeroField b 12 4 = true ∧ b.length = 16 + min 4096 (2 ^ t.desc.rowsLog2) * rowSize t.desc ∧ field b 8 4 = t.mapVersion ∧ field b 4 4 ∈ t.incoming := by
  have mine : ∀ b : Bytes, ({ messaged 0x31 b with tables.tables := [(sampleId + 1, { sampleTable with members := [0, 9], incoming := [0] })] } : State).takeMessage 0x31 [] =
    some (sampleMsg 0x31 b, { taken with tables.tables := [(sampleId + 1, { sampleTable with members := [0, 9], incoming := [0] })] }) := fun b => take_only (x := sampleMsg 0x31 b) rfl
  refine ⟨rfl, rfl, by decide, by decide, rfl, by decide, by decide, by decide, by decide, by decide, by decide, by decide, by decide, rfl, mine _, by decide +kernel, by decide +kernel, ?_,
    by decide +kernel, by decide +kernel⟩
  rw [List.length_append, zeros_length 65536]
  decide +kernel

/-- The DROP messages of a table: who was told. -/
def dropTold (t : Table) (s : State) : List Nat :=
  let lost := (s.comp.compositions.find t.desc.composition).elim [] (·.lost)
  let r := s.newReq
  (((t.others s.nodeId).filter fun n => !lost.contains n).foldl (fun (a : State × List Nat) n =>
    let y := a.1.send n 0x30 (a.1.fabClass (ownerOf t.id)) (ownerOf t.id) false (tableMessage 7 0 a.1.nodeId t.id 0 r.1 0 [])
    (y.1, if y.2 then a.2 ++ [n] else a.2)) (r.2, [])).2

set_option maxRecDepth 20000 in
theorem witness_Tables_drops :
    let t : Table := { sampleTable with dropping := some (5, 7) }
    let u : Table := { t with members := [0, 9] }
    let b := leBytes 4 (sampleId + 1) ++ leBytes 8 1 ++ leBytes 4 1 ++ leBytes 4 0 ++ zeros 12 ++ leBytes 8 1023
    (tabled 0x5002 [] sampleTable).table sampleTable.id = some sampleTable ∧ sampleTable.dropping = none ∧ (tabled 0x5010 b t).host.flights.any (usesTable t.id) = true ∧
      (tabled 0x5002 [] t).host.flights.any (usesTable t.id) = false ∧ ((tabled 0x5002 [] t).beforeDrop t).any (usesTable t.id) = false ∧ t.closing = false ∧
      dropTold t (tabled 0x5002 [] t) = [] ∧ dropTold u (linked (tabled 0x5002 [] u)) = [9] := by
  refine ⟨rfl, rfl, ?_, ?_, ?_, rfl, ?_, ?_⟩ <;> decide +kernel

theorem witness_TableSteps_moves :
    let j : Table := { sampleTable with members := [0, 9], desc := { sampleTable.desc with migratePct := 10 }, ends := [(9, 1)] }
    let k : Table := { j with forced := true, loads := [(0, 0, 100), (0, 1, 50)] }
    (j.verdict 0).1 = [] ∧ (k.verdict 0).1 ≠ [] ∧ ({ j with ends := [] } : Table).othersEnded 0 = false := by decide

theorem witness_TableSteps_kinds :
    let id := sampleId + 1
    let c := samplePlaced 0x5001 sharedBytes sampleColl
    let x : Inbound := sampleMsg 0x30 (leBytes 1 1 ++ zeros 3 ++ leBytes 4 id ++ zeros 20 ++ leBytes 4 64 ++ sharedBytes)
    let t : Table := { sampleTable with members := [0, 9], creating := some (5, 7, [9]) }
    let p := leBytes 1 3 ++ zeros 3 ++ leBytes 4 id ++ leBytes 8 1 ++ zeros 8 ++ leBytes 4 1 ++ leBytes 4 56 ++ zeros 8 ++ zeros 56
    let q := leBytes 1 4 ++ zeros 3 ++ leBytes 4 id ++ leBytes 8 1 ++ zeros 8 ++ leBytes 4 1 ++ leBytes 4 16 ++ zeros 16
    let e := leBytes 1 6 ++ zeros 3 ++ leBytes 4 id ++ leBytes 8 1 ++ zeros 8 ++ leBytes 4 1 ++ zeros 4 ++ zeros 8 ++ zeros 8
    (creating c [0, 9]).comp.compositions.find (readTableDesc (x.body.drop 32)).composition = some (tableComp [0, 9]) ∧ fields (tableFields (x.body.drop 32)) = .ok () ∧
      field (x.body.drop 32) 0 4 = field x.body 4 4 ∧ x.src ∈ [0, 9] ∧ (creating c [0, 9]).tables.tables.find id = none ∧ (creating c [0, 9]).power.season = .summer ∧
      succeeded ((creating c [0, 9]).reserveTable id (readTableDesc (x.body.drop 32)) [0, 9]) = true ∧ succeeded ((creating (sample 0 5 []) [0, 9]).reserveTable id (readTableDesc (x.body.drop 32)) [0, 9]) = false ∧
      t.creating = some (5, 7, [9]) ∧ [9].filter (· != x.src) = [] ∧ [8, 9].filter (· != x.src) ≠ [] ∧
      40 ≤ p.length ∧ field p 0x24 1 ≤ 1 ∧ zeroField p 0x25 3 = true ∧ p.length = 40 + field p 0x18 4 * (8 + updateEntryBytes t.desc (field p 0x24 1)) ∧
      (∀ e ∈ records (8 + updateEntryBytes t.desc (field p 0x24 1)) (field p 0x18 4) (p.drop 40), zeroField e 4 4 = true ∧ succeeded (updateEntryFault t.desc (field p 0x24 1) 0 (e.drop 8)) = true) ∧
      t.step ≤ field p 8 8 ∧ t.broken = false ∧ q.length = 32 + 16 * field q 0x18 4 ∧
      (∀ e ∈ records 16 (field q 0x18 4) (q.drop 32), zeroField e 5 3 = true ∧ field e 4 1 ≤ 1 ∧ keyOk t.desc (field e 8 8) = true) ∧
      40 ≤ e.length ∧ e.length = 40 + 8 * (field e 0x18 4 + field e 0x24 4) ∧ field e 0x24 4 = 0 := by
  refine ⟨rfl, ?_, ?_, ?_, rfl, rfl, ?_, ?_, rfl, ?_, ?_, ?_, ?_, ?_, ?_, ?_, ?_, rfl, ?_, ?_, ?_, ?_, ?_⟩ <;> decide +kernel

theorem witness_FabricImages_status :
    let b := [0] ++ zeros 7
    let f := sampleFlight 0x6001 5 b
    let s := sample 0x6001 5 b
    let g : Flight := { sampleFlight 0x6001 5 ([1] ++ zeros 7) with mbx := 4096 }
    s.turn 0x6001 (.tenant 5) 7 f ∧ f.opens 8 8 ∧ zeroField f.plain 1 7 = true ∧ field f.plain 0 1 = 0 ∧ field g.plain 0 1 = 1 ∧ 4096 ≤ g.mbx ∧ f.mbx < 4096 ∧
      ({ s with host.flights := [g] } : State).turn 0x6001 .mgmt 7 g := by
  refine ⟨sample_turn (by decide) rfl rfl, by decide, by decide, by decide, by decide, by decide, by decide, rfl, rfl, rfl, rfl, rfl⟩

/-- A route image of node 0 with no route but its own. -/
def routeHead : Bytes := leBytes 4 0x474D4952 ++ leBytes 2 1 ++ leBytes 2 0 ++ leBytes 4 1 ++ leBytes 2 0 ++ [0, 255] ++ [0, 0, 0, 0] ++ zeros 4 ++ leBytes 8 0 ++ zeros 640
def routeRest : Bytes := zeros 48 ++ (leBytes 4 0xC00000 ++ zeros 262140)
def sampleRoute : Bytes := routeHead ++ (Config.sha384 (routeHead ++ zeros 48 ++ routeRest) ++ routeRest)
theorem routeHead_length : routeHead.length = 672 := by decide +kernel

theorem sampleRoute_length : sampleRoute.length = 262912 := by
  rw [sampleRoute, List.length_append, List.length_append, routeHead_length, digest_length, routeRest, List.length_append, List.length_append, zeros_length, zeros_length, len_leBytes]

theorem sampleRoute_digest : (slice sampleRoute 0x2A0 48 == Config.sha384 (sampleRoute.take 0x2A0 ++ zeros 48 ++ sampleRoute.drop 0x2D0)) = true := by
  have a : sampleRoute.take 672 = routeHead := List.take_left' routeHead_length
  have b : sampleRoute.drop (672 + 48) = routeRest := by
    rw [← List.drop_drop, sampleRoute, List.drop_left' routeHead_length, List.drop_left' (digest_length _)]
  have c : slice sampleRoute 672 48 = Config.sha384 (routeHead ++ zeros 48 ++ routeRest) := by
    rw [sampleRoute]
    exact (slice_right _ _ 0 48 672 routeHead_length).trans (slice_whole _ _ _ (digest_length _))
  rw [a, b, c, beq_iff_eq]

theorem sampleRoute_fields : fields (routeFields sampleRoute 0 0) = .ok () := by
  unfold routeFields
  rw [sampleRoute_digest]
  decide +kernel

theorem sampleRoute_entry (n : Nat) (h : n < 65535) : routeEntry sampleRoute (n + 1) = 0 := by
  have e : slice sampleRoute (672 + (48 + (48 + (4 + 4 * n)))) 4 = slice (zeros 262140) (4 * n) 4 := by
    rw [sampleRoute, slice_right _ _ _ _ 672 routeHead_length, slice_right _ _ _ _ 48 (digest_length _), routeRest, slice_right _ _ _ _ 48 (zeros_length _),
      slice_right _ _ _ _ 4 (len_leBytes _ _)]
  unfold routeEntry field
  rw [show 0x300 + 4 * (n + 1) = 672 + (48 + (48 + (4 + 4 * n))) by omega, e]
  exact zeros_slice _ _ _ (by omega)

theorem sampleRoute_own : routeEntry sampleRoute 0 = 0xC00000 := by
  have e : slice sampleRoute (672 + (48 + (48 + 0))) 4 = leBytes 4 0xC00000 := by
    rw [sampleRoute, slice_right _ _ _ _ 672 routeHead_length, slice_right _ _ _ _ 48 (digest_length _), routeRest, slice_right _ _ _ _ 48 (zeros_length _)]
    exact slice_whole _ _ _ (len_leBytes _ _)
  unfold routeEntry field
  rw [show 0x300 + 4 * 0 = 672 + (48 + (48 + 0)) from rfl, e]
  decide

theorem sampleRoute_sound : routeFault sampleRoute = none := by
  unfold routeFault
  rw [List.find?_eq_none]
  intro n hn
  have z : field sampleRoute 0xC 2 = 0 := by decide +kernel
  have := List.mem_range.mp hn
  unfold routeEntryOk
  cases n with
  | zero => rw [z, sampleRoute_own]; decide
  | succ n =>
    rw [sampleRoute_entry n (by omega), z, if_neg (Nat.succ_ne_zero n)]
    simp [bit]

theorem witness_FabricImages_routes :
    let f := sampleFlight 0x6010 5 sampleRoute
    let s := sample 0x6010 5 sampleRoute
    let w : RouteWait := { image := sampleRoute, mbx := 5, tag := 7 }
    let u : State := { s with fabric.routeWait := some w }
    s.turn 0x6010 (.tenant 5) 7 f ∧ f.opens 262912 262912 ∧ fields (routeFields f.plain (routeGen s.routeImage) s.fabTime) = .ok () ∧ routeFault f.plain = none ∧
      s.fabric.routeWait = none ∧ s.fabric.route = none ∧ u.fabric.routeWait = some w ∧ field w.image 0x18 8 ≤ u.fabTime := by
  refine ⟨sample_turn (by decide) rfl rfl, ⟨Nat.le_of_eq sampleRoute_length.symm, Nat.le_of_eq sampleRoute_length, rfl⟩, sampleRoute_fields, sampleRoute_sound, rfl, rfl, rfl, ?_⟩
  decide +kernel

theorem witness_FabricImages_gates :
    let b := leBytes 4 0x474D4954 ++ leBytes 2 1 ++ [1, 0] ++ leBytes 4 0xFFFFFFFF ++ zeros 4 ++ leBytes 8 0 ++ leBytes 8 0 ++ leBytes 4 0 ++ leBytes 4 256 ++ leBytes 4 4160 ++ leBytes 4 4160 ++
      leBytes 4 4160 ++ leBytes 4 4160 ++ leBytes 4 1048576 ++ leBytes 4 0 ++ (leBytes 4 1000 ++ [127, 0, 0, 0])
    let f := sampleFlight 0x6011 5 b
    let s := sample 0x6011 5 b
    let w : GateWait := { list := readGates b, at_ := 1000, mbx := 5, tag := 7 }
    let u : State := { s.updVievo 31 (fun x => { x with gateWait := some w }) with fabTime := 1000 }
    s.turn 0x6011 (.tenant 5) 7 f ∧ f.opens 0x40 576 ∧ field f.plain 0 4 = 0x474D4954 ∧ field f.plain 4 2 = 1 ∧ field f.plain 6 1 = 1 ∧ f.plain.length = 0x40 + 8 * 1 ∧
      fields (gateFields f.plain) = .ok () ∧ (∀ x ∈ s.fabric.ports, x.gateWait = none) ∧ (u.vievo 31).gateWait = some w ∧ w.at_ ≤ u.fabTime := by
  refine ⟨sample_turn (by decide) rfl rfl, by decide, by decide, by decide, by decide, by decide, by decide +kernel, ?_, rfl, by decide⟩
  decide +kernel

theorem witness_FabricImages_time :
    let r : TimeReading := { parent := true, self := false, gm := 3, steps := 2, offset := -100 }
    let s : State := { sample 0 5 [] with fabric.closeSince := some 0, clock := 1000000000, fabric.offsetNs := -100, fabric.time := .acquiring }
    (messaged 2 []).takeMessage 0x02 [] = some (sampleMsg 2 [], taken) ∧ r.parent = true ∧ ({ r with parent := false } : TimeReading).parent = false ∧
      s.fabric.closeSince = some 0 ∧ 0 + 1000000000 ≤ s.clock ∧ s.fabric.lockedOnce = false ∧ s.fabric.time = .acquiring := by
  refine ⟨rfl, rfl, rfl, rfl, by decide, rfl, rfl⟩

theorem witness_FabricImages_bound :
    let r : Bytes := zeros 12 ++ [5, 0]
    let s : State := { sample 0x6010 5 sampleRoute with fabric.route := some r, comp.partition := 3 }
    fields (routeFields sampleRoute (routeGen s.routeImage) s.fabTime) = .ok () ∧ s.fabric.routeWait = none ∧ s.fabric.route ≠ none ∧
      field sampleRoute 0xC 2 ≠ s.nodeId ∧ s.comp.partition ≠ 0 := by
  have e : field sampleRoute 0xC 2 = 0 := by
    unfold sampleRoute
    rw [field_left _ _ _ _ (by rw [routeHead_length]; decide)]
    decide +kernel
  refine ⟨sampleRoute_fields, rfl, by decide, ?_, by decide⟩
  rw [e]; decide

theorem witness_FabricImages_locks :
    let u : State := { sample 0 5 [] with fabric.closeSince := some 0, clock := 1000000000, fabric.lockedOnce := true, fabric.time := .holdover }
    u.fabric.time ≠ .locked ∧ u.fabric.lockedOnce = true ∧ 0 + 1000000000 ≤ u.clock ∧ (sample 0 5 []).takeMessage 0x02 [] = none ∧
      (∀ t, (sample 0 5 []).fabric.closeSince = some t → (sample 0 5 []).clock < t + 1000000000) := by
  refine ⟨by decide, rfl, by decide, rfl, ?_⟩
  intro t h; cases h

def composed (op : Nat) (b : Bytes) (l : List Composition) : State :=
  { sampleWith op b sampleFull with comp.compositions := l.map fun k => (k.id, k), comp.partition := 1, fabric.route := some [] }

theorem witness_Memberships_partitions :
    let b := leBytes 2 4095 ++ [2, 0] ++ leBytes 2 9 ++ leBytes 2 10
    let f := sampleFlight 0x6020 5 b
    let s := sample 0x6020 5 b
    let o : Operation := { sampleOp with confirmed := [9] }
    let u : State := { sampleWith 0x6020 b { sampleFull with ops := [o] } with comp.newPeers := some [9] }
    let d := leBytes 4 2 ++ zeros 4
    s.turn 0x6020 (.tenant 5) 7 f ∧ f.opens 8 8 ∧ field f.plain 0 2 = 4095 ∧ field f.plain 2 1 = 2 ∧ zeroField f.plain 3 1 = true ∧ field f.plain 4 2 ≠ s.nodeId ∧
      PeerAnswer.accepted ≠ .outside false ∧ field f.plain 6 2 ≠ s.nodeId ∧ field f.plain 6 2 ≠ field f.plain 4 2 ∧ PeerAnswer.accepted ≠ .outside true ∧ 4095 ≠ s.comp.partition ∧
      s.comp.compositions = [] ∧ (composed 0 [] [sampleComp]).comp.compositions ≠ [] ∧
      u.comp.newPeers = some [9] ∧ u.unreleased ≠ [] ∧ (∀ o ∈ u.unreleased, ∀ p ∈ [9], p ∈ o.2.confirmed) ∧ ∀ o ∈ u.unreleased, ∀ p ∈ [10], p ∉ o.2.confirmed := by
  refine ⟨sample_turn (by decide) rfl rfl, by decide, by decide, by decide, by decide, by decide, by decide, by decide, by decide, by decide, by decide, rfl, by decide, rfl, by decide,
    by decide, by decide⟩

theorem witness_Memberships_fences :
    let b (op : Nat) : Bytes := leBytes 1 op ++ [0, 0, 0] ++ leBytes 2 9 ++ zeros 6
    let f (op : Nat) := sampleFlight 0x6021 5 (b op)
    (∀ op ∈ [0, 1, 2, 3, 4, 5], (sample 0x6021 5 (b op)).turn 0x6021 (.tenant 5) 7 (f op) ∧ (f op).opens 12 12 ∧ field (f op).plain 0 1 = op ∧ field (f op).plain 1 1 = 0 ∧
      zeroField (f op).plain 2 2 = true ∧ zeroField (f op).plain 6 6 = true) := by
  intro b f op h
  refine ⟨sample_turn (by decide) rfl rfl, ?_, ?_, ?_, ?_, ?_⟩ <;> revert op <;> decide

theorem witness_Memberships_compositions :
    let b := leBytes 4 2 ++ leBytes 4 1 ++ leBytes 4 2 ++ zeros 4 ++ leBytes 2 0 ++ leBytes 2 9 ++ zeros 4
    let f := sampleFlight 0x6030 5 b
    let s := composed 0x6030 b [sampleComp]
    let d := leBytes 4 1 ++ zeros 4
    let g := sampleFlight 0x6031 5 d
    let u := composed 0x6031 d [sampleComp]
    let h : Flight := { g with work := .eventWait }
    let w : Composition := { sampleComp with waiting := [(5, 7, 0)] }
    let x : State := { composed 0x6030 b [w] with clock := 60000000000 }
    s.turn 0x6030 (.tenant 5) 7 f ∧ f.opens 24 16777216 ∧ field f.plain 0 4 = 2 ∧ field f.plain 8 4 = 2 ∧ zeroField f.plain 12 4 = true ∧ f.plain.length = 16 + (2 * 2 + 7) / 8 * 8 ∧
      s.fabric.route ≠ none ∧ s.comp.partition ≠ 0 ∧ joinFault s.nodeId ((records 2 2 (f.plain.drop 16)).map leNat) none = none ∧
      joinFault s.nodeId ((records 2 2 (f.plain.drop 16)).map leNat) (some 9) ≠ none ∧ zeroField f.plain (16 + 2 * 2) (f.plain.length - 16 - 2 * 2) = true ∧ s.selfFenced = false ∧
      s.comp.compositions.find 2 = none ∧ s.comp.compositions.length < 256 ∧ s.comp.earlyJoins = [] ∧
      (composed 0x6030 b [{ sampleComp with id := 2 }]).comp.compositions.find 2 = some { sampleComp with id := 2 } ∧
      u.turn 0x6031 (.tenant 5) 7 g ∧ g.opens 8 8 ∧ zeroField g.plain 4 4 = true ∧ u.comp.compositions.find (field g.plain 0 4) = some sampleComp ∧ sampleComp.active = true ∧
      sampleComp.leaving = none ∧ ({ u with host.flights := [h] } : State).flight 5 7 = some h ∧ h.opcode.toNat = 0x6031 ∧
      x.comp.compositions.vals.find? (fun k => k.waiting.any fun w => w.1 == 5 && w.2.1 == 7 && decide (w.2.2 + 60000000000 ≤ x.clock)) = some w ∧ x.flight 5 7 = some f := by
  refine ⟨sample_turn (by decide) rfl rfl, by decide, by decide, by decide, by decide, by decide, by decide, by decide, by decide, by decide, by decide, by decide, rfl, by decide, rfl,
    rfl, sample_turn (by decide) rfl rfl, by decide, by decide, rfl, rfl, rfl, rfl, by decide, rfl, rfl⟩

theorem witness_Memberships_replicas :
    let b (op : Nat) : Bytes := leBytes 4 sampleId ++ leBytes 4 1 ++ leBytes 1 op ++ zeros 3 ++ leBytes 2 (9 * op) ++ zeros 2
    let f := sampleFlight 0x6040 5 (b 1)
    let s := composed 0x6040 (b 1) [sampleComp]
    s.turn 0x6040 (.tenant 5) 7 f ∧ f.opens 16 16 ∧ s.usableColl 0x20 (field f.plain 0 4) f = .ok sampleFull ∧ s.comp.compositions.find (field f.plain 4 4) = some sampleComp ∧
      sampleComp.active = true ∧ (s.selfFenced || sampleComp.fenced) = false ∧ zeroField f.plain 9 3 = true ∧ field f.plain 8 1 = 1 ∧ zeroField f.plain 14 2 = true ∧
      field f.plain 12 2 ∈ sampleComp.live ∧ field f.plain 12 2 ≠ s.nodeId ∧ (∀ r ∈ sampleFull.replicas, r.node ≠ field f.plain 12 2) ∧ field (b 0) 8 1 = 0 ∧
      zeroField (b 0) 12 2 = true := by
  refine ⟨sample_turn (by decide) rfl rfl, by decide, rfl, rfl, rfl, rfl, by decide, by decide, by decide, by decide, by decide, fun r h => (by cases h), by decide, by decide⟩

theorem witness_Memberships_others :
    let s := composed 0x6040 [] [sampleComp]
    let u : State := { s with comp.fences := [0] }
    let k : Composition := { sampleComp with leaving := some none }
    let v := composed 0x6031 [] [k]
    let r : Collection := { sampleFull with replicas := [{ node := 9, state := 1, c := 1 }] }
    bit (field (leBytes 1 1 ++ [1, 0, 0]) 1 1) 0 = true ∧ u.selfFenced = true ∧ s.unfenced 1 = .ok () ∧ (composed 0 [] [{ sampleComp with fenced := true }]).unfenced 1 = .error fencedDetail ∧
      v.comp.compositions.find 1 = some k ∧ k.leaving ≠ none ∧ k.leaveSent = false ∧
      ((v.comp.served.any fun x => x.run.composition == 1 && x.root.isNone) || v.tables.tables.vals.any fun t => t.desc.composition == 1 && !t.broken && t.closing) = false ∧
      k.coordinator = v.nodeId ∧ ({ k with coordinator := 9 } : Composition).coordinator ≠ v.nodeId ∧ (s.comp.compositions.find 1).any (fun k => k.version < 2) = true ∧
      ([9].filter fun x => !(r.replicas.filter fun y => [9].contains y.node).any (·.node == x)) = [] ∧ ([9].filter fun x => !(sampleFull.replicas.filter fun y => [9].contains y.node).any (·.node == x)) ≠ [] := by
  refine ⟨by decide, ?_, rfl, rfl, rfl, by decide, rfl, by decide, by decide, by decide, by decide, by decide, by decide⟩
  decide +kernel

def pairComp : Composition := { id := 1, version := 1, members := [0, 9], digest := zeros 48, active := true }
def member (k : Composition) (now : Nat) : State := { sample 0 5 [] with comp.compositions := [(k.id, k)], clock := now }
def memberTold (type : Nat) (b : Bytes) (k : Composition) : State := { messaged type b with comp.compositions := [(k.id, k)] }
def memberTook (k : Composition) : State := { taken with comp.compositions := [(k.id, k)] }

theorem witness_MemberEvents_hearing :
    let k := pairComp
    let c : Composition := { k with coordinator := 9 }
    let h : Composition := { k with heard := [(9, 0)] }
    let p : Composition := { k with probes := [(9, 0)] }
    (member c 0).comp.compositions.find (1 : Word).toNat = some c ∧ c.coordinator ≠ (member c 0).nodeId ∧ (member c 0).serving = true ∧
      (member h 0).comp.compositions.find 1 = some h ∧ h.coordinator = (member h 0).nodeId ∧ h.majority 0 0 = true ∧ (∀ n ∈ h.kids 0 0, h.recent 0 10 n = true) ∧
      (9 : Half).toNat ≠ (member k 0).nodeId ∧ (9 : Half).toNat ∈ k.live ∧ (9 : Half).toNat ∈ (k.report 0 0).2 ∧ (9 : Half).toNat ∉ (h.report 0 0).2 ∧
      p.probes.find (9 : Half).toNat = some 0 ∧ 0 + 5000000 ≤ (member p 5000000).clock ∧ (member p 4999999).clock < 0 + 5000000 := by
  refine ⟨rfl, by decide, rfl, rfl, rfl, by decide, by decide, by decide, by decide, by decide, by decide, rfl, by decide, by decide⟩

theorem witness_MemberEvents_losses :
    let c : Composition := { pairComp with members := [0, 8, 9], coordinator := 9, heard := [(8, 20000000)] }
    let j : Composition := { pairComp with members := [0, 8, 9], fenced := true, heard := [(8, 0)] }
    let o : Composition := { c with coordHeard := 20000000 }
    c.active = true ∧ c.coordSilent 0 20000000 = true ∧ 0 ∉ c.lost ∧ c.majority 0 20000000 = true ∧
      (∀ n ∈ c.live.filter (fun n => n != 0 && n != c.coordinator), n < 0 → c.recent 20000000 20 n = false) ∧
      (∃ n ∈ o.live.filter (fun n => n != 9 && n != o.coordinator), n < 9 ∧ o.recent 20000000 20 n = true) ∧ o.coordSilent 0 20000000 = false ∧
      pairComp.majority 0 0 = false ∧ pairComp.fenced = false ∧ j.majority 0 0 = true ∧ j.coordinator = (member j 0).nodeId := by
  refine ⟨rfl, by decide, by decide, by decide, by decide, by decide, by decide, by decide, rfl, by decide, rfl⟩

set_option maxRecDepth 20000 in
theorem witness_MemberEvents_suspects :
    let k : Composition := { pairComp with members := List.range 128, finishers := List.replicate 32 9 }
    let l : Composition := { k with finishers := List.replicate 15 9, suspect := [9] }
    (9 : Half).toNat ∈ k.members ∧ (9 : Half).toNat ∉ k.suspect ∧ max ((4095 + k.members.length) / k.members.length) 32 ≤ k.lastCount 9 ∧
      9 ∈ l.suspect ∧ 2 * l.lastCount 9 < max ((4095 + l.members.length) / l.members.length) 32 ∧ 9 ∉ l.lost ∧ max ((4095 + k.members.length) / k.members.length) 32 ≤ 2 * k.lastCount 9 ∧
      l.lastCount 9 < max ((4095 + k.members.length) / k.members.length) 32 := by
  refine ⟨by decide, by decide, by decide, by decide, by decide, by decide, by decide, by decide⟩

def compMsg (kind : Nat) (body : Bytes) : Bytes := leBytes 1 kind ++ zeros 3 ++ leBytes 4 1 ++ leBytes 4 1 ++ leBytes 2 9 ++ zeros 2 ++ zeros 4 ++ leBytes 4 body.length ++ body

theorem witness_MemberEvents_messages :
    let k := pairComp
    let c : Composition := { k with active := false, coordinator := 9 }
    (∀ q ∈ [3, 4, 5, 6], compFaultless (compMsg q []) = true ∧ field (compMsg q []) 0xC 2 = 9 ∧ field (compMsg q []) 0 1 = q) ∧
      (memberTold 0x60 (compMsg 6 []) k).takeMessage 0x60 [] = some (sampleMsg 0x60 (compMsg 6 []), memberTook k) ∧ (memberTook k).serving = true ∧
      (memberTook k).comp.compositions.find (field (compMsg 6 []) 4 4) = some k ∧ 9 ∈ k.members ∧ k.coordinator = ((memberTook k).hearMember 1 9).nodeId ∧
      compFaultless (compMsg 8 (zeros 8)) = true ∧ field (compMsg 8 (zeros 8)) 0 1 = 8 ∧ taken.comp.compositions.find 1 = none ∧
      compFaultless (compMsg 2 (zeros 48)) = true ∧ field (compMsg 2 (zeros 48)) 0 1 = 2 ∧ c.active = false ∧ 9 = c.coordinator ∧ field (compMsg 2 (zeros 48)) 8 4 = c.version ∧
      (compMsg 2 (zeros 48)).drop 24 = c.digest ∧ compFaultless [] = false := by
  refine ⟨by decide, rfl, rfl, rfl, by decide, by decide, by decide, by decide, rfl, by decide, by decide, rfl, rfl, by decide, by decide, by decide⟩

theorem witness_MemberEvents_collectives :
    let k := pairComp
    let d := leBytes 2 9 ++ zeros 6 ++ [3, 2] ++ zeros 2 ++ leBytes 4 1 ++ leBytes 4 1 ++ leBytes 4 0
    let u := zeros 8 ++ [2, 3] ++ zeros 2 ++ leBytes 4 1 ++ leBytes 4 1 ++ leBytes 4 1 ++ leBytes 4 0 ++ zeros 4
    (memberTold 0x50 d k).takeCollective [1, 3] = some (sampleMsg 0x50 d, memberTook k) ∧ (memberTook k).serving = true ∧
      (memberTook k).comp.compositions.find (field d 0xC 4) = some k ∧ d.length = 24 ∧ 9 ∈ k.members ∧ field d 0x14 4 = 0 ∧ field d 8 1 = 3 ∧ field d 9 1 = 2 ∧
      (messaged 0x50 d).takeCollective [1, 3] = some (sampleMsg 0x50 d, taken) ∧ taken.comp.compositions.find (field d 0xC 4) = none ∧
      (memberTold 0x50 u k).takeCollective [2] = some (sampleMsg 0x50 u, memberTook k) ∧ (memberTook k).comp.compositions.find (field u 0xC 4) = some k ∧ 9 ∉ k.lost ∧ field u 9 1 = 3 ∧
      zeroField u 28 4 = true ∧ u.length = 32 + (2 * field u 24 4 + 7) / 8 * 8 := by
  refine ⟨rfl, rfl, rfl, by decide, by decide, by decide, by decide, by decide, rfl, rfl, rfl, rfl, by decide, by decide, by decide, by decide⟩

theorem witness_MemberEvents_kinds :
    let k := pairComp
    let c : Composition := { k with coordinator := 9, coordHeard := 0 }
    let j := compMsg 1 (zeros 48)
    let d (kind op : Nat) (tail : Bytes) : Bytes := leBytes 2 0 ++ zeros 6 ++ leBytes 1 kind ++ leBytes 1 op ++ zeros 2 ++ leBytes 4 1 ++ leBytes 4 1 ++ leBytes 4 0 ++ tail
    let b := d 1 1 ([0x10, 0, 0, 0] ++ leBytes 4 8 ++ zeros 8)
    (sample 0 5 []).comp.compositions.find (1 : Word).toNat = none ∧ (sample 0 5 []).takeMessage 0x60 [] = none ∧ (sample 0 5 []).takeCollective [2] = none ∧
      compFaultless j = true ∧ field j 0xC 2 = 9 ∧ field j 8 4 = k.version ∧ j.drop 24 = k.digest ∧ ({ k with version := 0 } : Composition).version < field j 8 4 ∧
      compFaultless (compMsg 7 []) = true ∧ k.members.length < 2 * field (leBytes 2 2) 0 2 ∧ c.coordSilent 0 20000000 = true ∧ c.coordSilent 0 0 = false ∧ 0 ≤ c.coordinator ∧ 0 ∉ c.lost ∧
      b.length = 32 + field b 0x1C 4 ∧ field b 24 1 = 0x10 ∧ zeroField b 25 3 = true ∧ field b 9 1 = 1 ∧ (d 1 3 []).length = 24 ∧ field (d 1 3 []) 9 1 = 3 ∧
      (d 2 2 (zeros 8)).length = 32 ∧ field (d 2 2 (zeros 8)) 9 1 = 2 ∧ zeroField (d 2 2 (zeros 8)) 26 6 = true := by
  refine ⟨rfl, rfl, rfl, ?_, ?_, ?_, ?_, ?_, ?_, ?_, ?_, ?_, ?_, ?_, ?_, ?_, ?_, ?_, ?_, ?_, ?_, ?_, ?_⟩ <;> decide

def logMsg (kind src : Nat) (body : Bytes) : Bytes := leBytes 1 kind ++ zeros 3 ++ leBytes 4 sampleId ++ leBytes 8 1 ++ leBytes 2 src ++ zeros 2 ++ leBytes 4 body.length ++ body
def peered (b : Bytes) (src : List Nat) (r : List HeldRecord) : State := { messaged 0x20 b with comp.sources := src, comp.records := r, comp.peers := [9] }
def peeredTook (src : List Nat) (r : List HeldRecord) : State := { taken with comp.sources := src, comp.records := r, comp.peers := [9] }
def heldOne : HeldRecord := { source := 9, collection := sampleId, csn := 1, record := [] }

theorem witness_PeerMessages_records :
    let b := logMsg 1 9 [1]
    let c := logMsg 2 0 []
    (peered b [] []).takeMessage 0x20 [1] = some (sampleMsg 0x20 b, peeredTook [] []) ∧ (peeredTook [] []).serving = true ∧ logFaultless b = true ∧ field b 0x10 2 = 9 ∧
      (peeredTook [] []).heldRecord 9 (field b 4 4) (field b 8 8) = false ∧ (peeredTook [] []).heldBytes 9 + b.length ≤ 2 ^ 34 ∧ (peeredTook [] []).comp.sources.length < 2 ∧
      9 ∉ (peeredTook [3, 4] []).comp.sources ∧ 2 ≤ (peeredTook [3, 4] []).comp.sources.length ∧
      (peeredTook [9] [heldOne]).heldRecord 9 (field b 4 4) (field b 8 8) = true ∧ 9 ∈ (peeredTook [9] [heldOne]).comp.sources ∧
      (peered c [] []).takeMessage 0x20 [2] = some (sampleMsg 0x20 c, peeredTook [] []) ∧ logFaultless c = true ∧ field c 0x10 2 = (peeredTook [] []).nodeId ∧
      9 ∈ (peeredTook [] []).logPeers ∧ 9 ∉ taken.logPeers := by
  refine ⟨rfl, rfl, by decide, by decide, by decide, by decide, by decide, by decide, by decide, by decide, by decide, rfl, by decide, by decide, by decide, by decide⟩

theorem witness_PeerMessages_resends :
    let c : Collection := { sampleFull with ops := [sampleOp] }
    let s : State := { sampleWith 0 [] c with comp.peers := [9], clock := 100000 }
    let r := logMsg 3 9 []
    let q := logMsg 4 3 []
    s.coll (BitVec.ofNat 32 sampleId).toNat = some c ∧ c.op 1 = some sampleOp ∧ (9 : Half).toNat ∈ s.logPeers ∧ (9 : Half).toNat ∉ sampleOp.confirmed ∧ s.serving = true ∧
      sampleOp.sentAt + 100000 ≤ s.clock ∧ ({ s with clock := 99999 } : State).clock < sampleOp.sentAt + 100000 ∧
      (peered r [9] [heldOne]).takeMessage 0x20 [3] = some (sampleMsg 0x20 r, peeredTook [9] [heldOne]) ∧ logFaultless r = true ∧ field r 0x10 2 = 9 ∧
      (peered q [9] [heldOne]).takeMessage 0x20 [4] = some (sampleMsg 0x20 q, peeredTook [9] [heldOne]) ∧ logFaultless q = true := by
  refine ⟨rfl, rfl, by decide, by decide, rfl, by decide, by decide, rfl, by decide, by decide, rfl, by decide⟩

theorem witness_PeerMessages_fetches :
    let y : ShardFetch := { source := 3, peers := [9] }
    let b (k : Nat) : Bytes := logMsg k 3 []
    let s (k : Nat) : State := { messaged 0x20 (b k) with comp.fetching := [(sampleId, y)] }
    let u : State := { taken with comp.fetching := [(sampleId, y)] }
    (s 5).takeMessage 0x20 [5, 6] = some (sampleMsg 0x20 (b 5), u) ∧ (s 6).takeMessage 0x20 [5, 6] = some (sampleMsg 0x20 (b 6), u) ∧ u.serving = true ∧ logFaultless (b 5) = true ∧
      logFaultless (b 6) = true ∧ field (b 5) 0 1 = 5 ∧ field (b 6) 0 1 = 6 ∧
      u.comp.fetching.find? (fun e => e.1 % 2 ^ 32 == field (b 5) 4 4 && e.2.peers.contains 9 && e.2.source == field (b 5) 0x10 2) = some (sampleId, y) ∧ (∀ p ∈ y.peers, p = 9 ∨ p ∈ y.ended) ∧
      (∃ p ∈ y.peers, ∀ e ∈ y.got.zip y.by_, e.1.csn = 1 → e.2 ≠ p) := by
  refine ⟨rfl, rfl, rfl, by decide, by decide, by decide, by decide, by decide, by decide, by decide⟩

set_option maxRecDepth 20000 in
theorem witness_PeerMessages_replicas :
    let k : Composition := { id := 1, version := 1, members := [0, 8, 9], digest := [], active := true, lost := [8] }
    let s : State := { sample 0 5 [] with comp.compositions := [(1, k)] }
    let op (kind csn : Nat) (body : Bytes) : Bytes := leBytes 1 kind ++ zeros 3 ++ leBytes 4 (9 * 0 + sampleId) ++ leBytes 8 csn ++ zeros 12 ++ leBytes 4 body.length ++ body
    let key := sampleId + 2 ^ 32 * 3
    let c : Collection := { sampleFull with id := key, isReplica := true, composition := 1 }
    let b := op 1 1 []
    let u : State := { taken with comp.compositions := [(1, k)], index.collections := [(key, c)] }
    let r : Collection := { sampleFull with replicas := [{ node := 9, state := 1, c := 0 }] }
    s.comp.compositions.find (1 : Word).toNat = some k ∧ bestReplica [(9, 5)] = some 9 ∧ k.members.getD (1 : Half).toNat 0 ∈ k.lost ∧ 9 ∉ k.lost ∧ k.servers.find (1 : Half).toNat = none ∧
      9 ≠ s.nodeId ∧ k.members.getD (2 : Half).toNat 0 ∉ k.lost ∧
      ({ messaged 0x21 b with comp.compositions := [(1, k)], index.collections := [(key, c)] } : State).takeMessage 0x21 [] = some (sampleMsg 0x21 b, u) ∧ u.serving = true ∧
      replicaFaultless b = true ∧ field b 0 1 = 1 ∧ u.replicaOf 9 (field b 4 4) = some c ∧ field b 8 8 ≤ c.committed ∧ replicaFaultless [] = false ∧ replicaFaultless (op 4 1 []) = true ∧
      field (op 4 1 []) 0 1 = 4 ∧ taken.replicaOf 9 (field b 4 4) = none ∧ (sampleWith 0 [] r).coll (BitVec.ofNat 32 sampleId).toNat = some r := by
  refine ⟨rfl, by simp [bestReplica], by decide, by decide, rfl, by decide, by decide, rfl, rfl, by decide, by decide, ?_, by decide, by decide, by decide, by decide, ?_, rfl⟩ <;> decide +kernel

theorem witness_PeerMessages_turned :
    let b (k : Nat) : Bytes := logMsg k 9 []
    let idle : State := { messaged 0x20 (b 1) with power.season := .winter }
    State.reset.takeMessage 0x20 [1] = none ∧ State.reset.takeMessage 0x20 [2] = none ∧ State.reset.takeMessage 0x20 [3] = none ∧ State.reset.takeMessage 0x20 [4] = none ∧
      State.reset.takeMessage 0x20 [5, 6] = none ∧ State.reset.takeMessage 0x21 [] = none ∧
      (∃ u, idle.takeMessage 0x20 [1] = some (sampleMsg 0x20 (b 1), u) ∧ u.serving = false) ∧ logFaultless [4] = false ∧
      (messaged 0x20 [4]).takeMessage 0x20 [4] = some (sampleMsg 0x20 [4], taken) ∧ taken.serving = true ∧ (logFaultless (logMsg 1 8 []) && field (logMsg 1 8 []) 0x10 2 == 9) = false := by
  refine ⟨rfl, rfl, rfl, rfl, rfl, rfl, ⟨_, rfl, rfl⟩, by decide, rfl, rfl, by decide⟩

theorem witness_PeerMessages_room :
    (∃ big : Bytes, big.length = 33554432) ∧ (∃ all : Bytes, all.length = 2 ^ 34) ∧
    ∀ big all : Bytes, big.length = 33554432 → all.length = 2 ^ 34 →
      let u := peeredTook [3] [{ source := 3, collection := 1, csn := 1, record := big }]
      let v := peeredTook [9] [{ source := 9, collection := 1, csn := 1, record := all }]
      u.logRoom (25 - 24) = false ∧ u.heldRecord 9 sampleId 1 = false ∧ (peeredTook [] []).logRoom (25 - 24) = true ∧
        2 ^ 34 < v.heldBytes 9 + 25 ∧ v.heldRecord 9 sampleId 1 = false := by
  refine ⟨⟨List.replicate 33554432 0, List.length_replicate⟩, ⟨List.replicate (2 ^ 34) 0, List.length_replicate⟩, fun big all hb ha => ⟨?_, rfl, rfl, ?_, rfl⟩⟩
  · rw [State.logRoom, decide_eq_false_iff_not]
    simp only [State.logBuffered, peeredTook, List.filter_cons, List.filter_nil, Bool.not_false, if_true, List.map_cons, List.map_nil, hb, List.sum_cons, List.sum_nil]
    omega
  · simp only [State.heldBytes, peeredTook, List.filter_cons, List.filter_nil, beq_self_eq_true, if_true, List.map_cons, List.map_nil, ha, List.sum_cons, List.sum_nil]
    omega

theorem witness_PeerMessages_gathers :
    let c : Collection := { sampleColl with isReplica := true }
    let s : State := sampleWith 0 [] c
    let r : HeldRecord := { source := 3, collection := sampleId, csn := 1, record := [1] }
    let y : ShardFetch := { source := 3, peers := [9], got := [r], by_ := [9] }
    let p : Bytes := [0x14, 0x20] ++ zeros 16
    let o : Operation := { csn := 1, body := .delete [], mbx := 0, tag := 0, encoded := true, acked := true }
    s.coll sampleId = some c ∧ y.both (c.committed + 1) = some [1] ∧ [(1, p)].find? (fun e => e.1 == c.committed + 1) = some (1, p) ∧ recordOp c.desc p = some (.delete []) ∧
      (∃ d, s.placeRows true (fun _ => none) { c.replay s.clock (s.encodeAll c o) with committed := 1, assigned := 1 } = some d) ∧
      y.both 2 = none ∧ ([] : List (Nat × Bytes)).find? (fun e => e.1 == c.committed + 1) = none := by
  refine ⟨rfl, rfl, rfl, by decide, ⟨_, rfl⟩, rfl, rfl⟩

theorem witness_PeerMessages_applies :
    let c : Collection := { sampleColl with isReplica := true, id := sampleId + 2 ^ 32 * 3, composition := 1 }
    let k : Composition := { id := 1, version := 1, members := [0, 8, 9], digest := [], active := true, lost := [8] }
    let u : State := { taken with comp.compositions := [(1, k)], index.collections := [(c.id, c)] }
    let o : Bytes := [0x14, 0x20] ++ zeros 6
    let rb : Bytes := zeros 4 ++ [1, 0, 0, 0] ++ zeros 16 ++ zeros 384
    u.replicaOf 9 sampleId = some c ∧ c.committed < 1 ∧ c.replicaApply u.clock 1 [] = none ∧ (∃ new, c.replicaApply u.clock 1 o = some new ∧
      ∃ d, u.placeRows true (fun _ => none) { new with committed := 1, assigned := 1 } = some d) ∧
      rebalanceFaultless c [] = false ∧ rebalanceFaultless c rb = true ∧ (∃ new, u.takeRows c 1 c.gen [] [] none = some new) ∧
      bestReplica [((0 : Half), 5)] = some u.nodeId := by
  refine ⟨?_, by decide, rfl, ⟨_, rfl, _, rfl⟩, by decide, ?_, ⟨_, rfl⟩, by simp [bestReplica]; rfl⟩
  · decide +kernel
  · decide +kernel

def reading : Read := { tier := .flash, collection := sampleId, seg := 1, area := 0, sector := 0, since := 0 }
def reader : Flight := { sampleFlight 0x3001 5 [] with work := .reads [reading] { status := .done, parts := [] } }
def sampleBand (st : WriteStream) (closed : Option Nat) : Band := { stream := st, hub := 1, members := [0, 131072], closed := closed }
def banded (b : Band) : State := { sample 0 5 [] with flash.bands := [(0, b)] }
def sampleMapped : Mapped := { entry := 0, band := 0, object := (sampleId, 0) }

theorem witness_FlashWork_writes :
    let s : State := { sample 0x3001 5 [] with host.flights := [reader] }
    let b := sampleBand .segment none
    let u := banded b
    s.flight 5 7 = some reader ∧ (readsOf reader)[0]? = some reading ∧ reading.tier = .flash ∧ reading.lost = none ∧
      streamOf 2 = .segment ∧ WriteStream.segment ≠ .gc ∧ ([1] : List Word).length ≤ (if streamSlc .segment then 8 else 15) ∧ u.flash.failed = false ∧ u.pins.flashPg = true ∧
      u.power.season = .summer ∧ u.needBand .segment 1 = some (0, b, u) ∧ u.openBand .segment 1 = some (0, b) ∧ (u.quad 131072).verifyFails = [] := by
  refine ⟨rfl, rfl, rfl, rfl, rfl, by decide, by decide, rfl, rfl, rfl, rfl, rfl, rfl⟩

theorem witness_FlashWork_erases :
    let u := banded (sampleBand .segment (some 0))
    let g : State := u.updQuad 0 fun b => { b with grownBad := true }
    u.quadMapped 0 = 0 ∧ (u.quad 0).grownBad = false ∧ (g.quad 0).grownBad = true ∧ u.bandOf 0 = some 0 ∧ u.flash.bands.find 0 = some (sampleBand .segment (some 0)) ∧
      (sampleBand .segment (some 0)).closed = some 0 ∧ u.mayErase 0 = true := by
  refine ⟨by decide, rfl, by decide, by decide, rfl, rfl, by decide⟩

theorem witness_FlashWork_journal :
    let r : JournalRecord := { unit := 1, op := 1, entry := 0, before := none }
    let s : State := { sample 0 5 [] with flash.journal := [r], clock := 1000000 }
    let c : State := { sample 0 5 [] with clock := 600000000000 }
    s.flash.failed = false ∧ s.flash.journalSince + 1000000 ≤ s.clock ∧ s.flash.journal.length < 256 ∧ ({ s with clock := 999999 } : State).clock < s.flash.journalSince + 1000000 ∧
      s.flash.journal ≠ [] ∧ c.flash.ckpt = none ∧ c.flash.ckptBegan + 600000000000 ≤ c.clock ∧
      ({ c with flash.ckpt := some { half := 0, j := 0 } } : State).flash.ckpt = some { half := 0, j := 0 } ∧ s.freeMapSlot = none := by
  refine ⟨rfl, by decide, by decide, by decide, by decide, rfl, by decide, rfl, rfl⟩

/-- A flash of one block of one page a plane, one die a channel. -/
def smallFlash (bands : Tab Band) (map : Tab Mapped) : State :=
  { sample 0 5 [] with flash.perChannel := 1, flash.blocks := 1, flash.pages := 1, flash.bands := bands, flash.map := map }

theorem witness_FlashCare_space :
    let s := smallFlash ((List.range 4).map fun i => (i, sampleBand .segment (some 0))) []
    let u := smallFlash [] ((List.range 64).map fun i => (i, sampleMapped))
    s.flash.gcVictim = none ∧ s.freeBands * 50 < s.allBands ∧ s.power.season = .summer ∧ s.flash.bands ≠ [] ∧ (∀ e ∈ s.flash.bands, e.2.closed ≠ none) ∧
      u.flash.lowSpace = false ∧ u.usableBytes * 99 ≤ u.mappedUnits * unitBytes * 100 ∧ s.mappedUnits * unitBytes * 100 < s.usableBytes * 98 ∧
      ({ s with flash.lowSpace := true } : State).flash.lowSpace = true := by
  refine ⟨rfl, by decide +kernel, rfl, by decide, by decide, rfl, by decide +kernel, by decide +kernel, rfl⟩

theorem witness_FlashCare_blocks :
    let s := (sample 0 5 []).updQuad 5 fun b => { b with programmed := some 0, reads := 4000000 }
    let w : State := { s with clock := 7 * 86400000000000 }
    (s.quad 5).programmed ≠ none ∧ (s.quad 5).refreshing = false ∧ s.refreshDue 5 = true ∧ s.refreshDue 6 = false ∧ (w.quad 5).patrolled + 7 * 86400000000000 ≤ w.clock ∧
      s.clock < (s.quad 5).patrolled + 7 * 86400000000000 := by
  refine ⟨by decide, by decide, by decide, by decide, by decide, by decide⟩

theorem witness_FlashCare_dies :
    let s := sample 0 5 []
    let u := s.updDie 1023 fun x => { x with state := 1 }
    let b := zeros 8
    let f := sampleFlight 0x7001 5 b
    (s.die 1023).state = 0 ∧ ((s.updDie 1023 fun x => { x with state := 3 }).die 1023).state = 3 ∧ 63 ∉ s.flash.channelsFailed ∧ (u.die 1023).state = 1 ∧ u.dieMapped 1023 = 0 ∧
      ({ s with flash.map := [(0, sampleMapped)] } : State).dieMapped 0 ≠ 0 ∧ (sample 0x7001 5 b).turn 0x7001 (.tenant 5) 7 f ∧ f.opens 8 8 ∧ zeroField f.plain 1 7 = true := by
  refine ⟨rfl, by decide, by decide, by decide, by decide, by decide, sample_turn (by decide) rfl rfl, by decide, by decide⟩

theorem witness_FlashWork_reads :
    let s : State := { sample 0x3001 5 [] with host.flights := [reader] }
    let early : Flight := { sampleFlight 0x3001 5 [] with work := .search { plain := [], collection := sampleId, csn := 1, mapVersion := 1, q := [], lists := 1, jobs := 1, stage := { n := 1, full := [], list := [] }, prefetch := [{ reading with lost := some .tierLate }] } }
    let e : State := { sample 0x3001 5 [] with host.flights := [early] }
    let x : SquashedRead := { mbx := (Mbx.tenant 5).key, tag := 7, tenant := 5, opcode := 0x3001, read := reading, counted := true }
    let left : State := { sample 0 5 [] with host.flights := [], index.squashed := [x] }
    s.stepHolds 0 none .hard false = true ∧ s.stepHolds 0 none .hard true = false ∧ s.stepHolds 0 none .reconstruct true = true ∧
      ({ s with flash.lostUnits := [3] } : State).stepHolds 0 (some 3) .damaged false = true ∧ ((s.updDie 0 fun d => { d with state := 1 }).stepHolds 0 none .retry false) = false ∧
      e.flight (Mbx.tenant 5).key 7 = some early ∧ (readsOf early)[0]? = some { reading with lost := some .tierLate } ∧
      left.flight (Mbx.tenant 5).key 7 = none ∧ left.leftRead (Mbx.tenant 5).key 7 0 = some x ∧ left.leftRead (Mbx.tenant 5).key 7 1 = none ∧
      (∃ l k, reader.work = .reads l k) ∧ (∃ r, early.work = .search r) := by
  refine ⟨by decide, by decide, by decide, by decide, by decide, rfl, rfl, rfl, rfl, rfl, ⟨_, _, rfl⟩, ⟨_, rfl⟩⟩

theorem witness_FlashWork_others :
    let b := sampleBand .segment none
    let u := banded b
    let again : State := u.updQuad 131072 fun q => { q with verifyFails := [0] }
    let j : State := { sample 0 5 [] with flash.journalBytes := 2 ^ 32 }
    let p : State := { sample 0 5 [] with flash.hbmPages := [4] }
    u.mapRoom [1] = true ∧ u.mayProgram .gc = true ∧ u.mayProgram .segment = true ∧ ({ u with flash.failed := true } : State).flash.failed = true ∧
      u.openBand .log 0 = none ∧ 2 ≤ (again.clock :: ((again.quad 131072).verifyFails.filter fun t => again.clock < t + 86400000000000)).length ∧
      u.bandOf 5 = none ∧ u.bandOf 0 = some 0 ∧ b.closed = none ∧ 2 ^ 32 ≤ j.flash.journalBytes ∧ j.flash.ckpt = none ∧ p.evictee = some 4 ∧
      (sample 0 5 []).evictee = none ∧ (sample 0 5 []).coldPage = none ∧ ({ sample 0 5 [] with flash.map := [(512, sampleMapped)] } : State).coldPage = some 1 := by
  refine ⟨by decide, rfl, by decide +kernel, rfl, rfl, by decide, by decide, by decide, rfl, Nat.le_refl _, rfl, by decide, rfl, rfl, by decide⟩

theorem witness_FlashCare_wear :
    let s := smallFlash [(0, { sampleBand .segment (some 0) with members := [0] })] []
    let blocks : State := { s with flash.blocks := 2, flash.quads := [(1, { erases := Config.endurance + 1 })] }
    let es := (List.range blocks.flash.blocks).map fun b => (blocks.quad (quadKey 0 b)).erases
    Config.endurance < 20 * (es.foldl max 0 - es.foldl min (es.headD 0)) ∧ (blocks.quad 0).erases = es.foldl min (es.headD 0) ∧ blocks.bandOf (quadKey 0 0) ≠ none ∧
      (∃ e ∈ s.flash.bands, e.2.closed ≠ none) ∧ (s.die 5).state ≤ 2 ∧ ((s.failDie 5).die 5).state = 2 ∧
      (∀ x ∈ (s.failDie 0).positions, x / 16 = 0 → ((s.failDie 0).die x).state = 1 ∨ ((s.failDie 0).die x).state = 2) := by
  refine ⟨?_, ?_, by decide, by decide, by decide, by decide, by decide +kernel⟩
  · show Config.endurance < 20 * ([0, Config.endurance + 1].foldl max 0 - [0, Config.endurance + 1].foldl min 0)
    simp only [List.foldl_cons, List.foldl_nil]; omega
  · show 0 = [0, Config.endurance + 1].foldl min 0
    simp

theorem witness_FlashCare_fields :
    let f := sampleFlight 0x7001 5 [2, 1, 0, 0, 0, 0, 0, 0]
    let g := sampleFlight 0x7001 5 [3, 0, 0, 0, 0, 0, 0, 0]
    f.opens 8 8 ∧ field f.plain 0 1 ≤ 2 ∧ zeroField f.plain 1 7 = false ∧ g.opens 8 8 ∧ 3 ≤ field g.plain 0 1 := by decide

theorem witness_SeasonCommands_profiles :
    let b := [3] ++ zeros 7
    let f := sampleFlight 0x0010 5 b
    let s := sample 0x0010 5 b
    let c : ProfileChange := { target := .october, mbx := 5, tag := 7, since := 0, waits := [] }
    let u : State := { s with power.change := some c }
    s.turn 0x0010 (.tenant 5) 7 f ∧ f.opens 8 8 ∧ field f.plain 0 1 ≤ 3 ∧ zeroField f.plain 1 7 = true ∧ s.power.change = none ∧ profileOf (field f.plain 0 1) ≠ s.power.profile ∧
      profileOf 0 = s.power.profile ∧ u.power.change = some c ∧ u.serving = true ∧ u.fabTime % 1000000 = 0 ∧ c.waits.all u.hasCommitted = true ∧ u.flight c.mbx c.tag = some f ∧
      ({ u with fabTime := 1 } : State).fabTime % 1000000 ≠ 0 := by
  refine ⟨sample_turn (by decide) rfl rfl, by decide, by decide, by decide, rfl, by decide, rfl, rfl, rfl, rfl, rfl, rfl, by decide⟩

theorem witness_SeasonCommands_seasons :
    let b (n : Nat) : Bytes := leBytes 1 n ++ zeros 7
    let f (n : Nat) := sampleFlight 0x0011 5 (b n)
    let d (n : Nat) (x : Drain) : State := { sample 0x0011 5 (b n) with power.season := .drain, power.drain := x }
    (∀ n ∈ [0, 1, 2, 3, 4], (sample 0x0011 5 (b n)).turn 0x0011 (.tenant 5) 7 (f n) ∧ (d n .stay).turn 0x0011 (.tenant 5) 7 (f n) ∧
      (d n (.winter 6 8)).turn 0x0011 (.tenant 5) 7 (f n) ∧ (f n).opens 8 8 ∧ zeroField (f n).plain 1 7 = true ∧ field (f n).plain 0 1 = n) := by
  intro b f d n h
  refine ⟨sample_turn (by decide) rfl rfl, sample_turn (by decide) rfl rfl, sample_turn (by decide) rfl rfl, ?_, ?_, ?_⟩ <;> revert n <;> decide

theorem witness_SeasonCommands_drains :
    let f : Flight := { sampleFlight 0x0011 5 (zeros 8) with work := .winterWait }
    let s : State := { sample 0x0011 5 (zeros 8) with power.season := .drain, power.drain := .winter 5 7, host.flights := [f] }
    let u : State := { sample 0 5 [] with power.season := .drain, power.drain := .winter 5 7, power.entering := some 0, clock := 5000000 }
    s.power.season = .drain ∧ s.power.entering = none ∧ s.pursueDrain.power.drain = .winter 5 7 ∧ s.pursueDrain.drained = true ∧ s.pursueDrain.flight 5 7 = some f ∧
      u.power.entering = some 0 ∧ u.power.season = .drain ∧ 0 + 5000000 ≤ u.clock ∧ ({ u with clock := 4999999 } : State).clock < 0 + 5000000 := by
  refine ⟨rfl, rfl, by decide, by decide, ?_, rfl, rfl, by decide, by decide⟩
  rfl

theorem witness_SeasonCommands_wakes :
    let s : State := { State.reset with power.season := .winter }
    let u : State := { State.reset with power.warm := true, power.waking := some 0, clock := 200000000 }
    let r := State.reset
    let h : State := { State.reset with power.season := .heldInReset }
    let l : State := { State.reset with power.season := .powerLoss, power.flush := some 0, power.flushed := true }
    s.pins.aoUp = true ∧ s.power.season = .winter ∧ s.power.hbmLost = false ∧ r.power.season ≠ .winter ∧ u.power.waking = some 0 ∧ u.power.season = .spring ∧ u.power.warm = true ∧
      0 + 200000000 ≤ u.clock ∧ u.pins.flashPg = true ∧ r.power.season = .spring ∧ r.power.warm = false ∧ r.power.flushMarked = true ∧
      ({ r with power.flushMarked := false } : State).power.flushMarked = false ∧ l.power.season = .powerLoss ∧ l.power.flushed = true ∧ h.power.season = .heldInReset ∧ h.pins.resetN = true ∧
      h.power.straps.testMode = false ∧ 360 ≤ 360 ∧ 360 ≤ 420 ∧ h.power.trip = false ∧ h.power.tripRetained = false ∧ h.power.overvoltage = false := by
  refine ⟨rfl, rfl, rfl, by decide, rfl, rfl, rfl, by decide, rfl, rfl, rfl, rfl, rfl, rfl, rfl, rfl, rfl, rfl, by decide, by decide, rfl, rfl, rfl⟩

/-- A parameter page of Table 15-1, of a small block. -/
def samplePage : ParameterPage := {
  revision := (5, 0), crcHolds := true, rates := [800], bitsPerCell := 3, slcMode := true, planes := 4, dataBytes := 16384, spareBytes := 1888
  pagesPerBlock := 3, blocksPerPlane := 1, retryLevels := 7, operations := Vector.replicate _ true, serial := 1 }

theorem witness_SeasonCommands_turned :
    let f (b : Bytes) := sampleFlight 0x0010 5 b
    let g (b : Bytes) := sampleFlight 0x0011 5 b
    let c : ProfileChange := { target := .october, mbx := 6, tag := 8, since := 0, waits := [(sampleId, 1)] }
    let s : State := { sampleWith 0 [] sampleColl with power.change := some c }
    let w : State := { sample 0x0011 5 (zeros 8) with power.season := .drain, power.drain := .winter 6 8 }
    (f ([4] ++ zeros 7)).opens 8 8 ∧ 3 < field (f ([4] ++ zeros 7)).plain 0 1 ∧ (f ([3, 1] ++ zeros 6)).opens 8 8 ∧ field (f ([3, 1] ++ zeros 6)).plain 0 1 ≤ 3 ∧
      zeroField (f ([3, 1] ++ zeros 6)).plain 1 7 = false ∧ (g ([1] ++ zeros 7)).opens 8 8 ∧ field (g ([1] ++ zeros 7)).plain 0 1 = 1 ∧ 4 ≤ field (g ([4] ++ zeros 7)).plain 0 1 ∧
      zeroField (g ([3, 1] ++ zeros 6)).plain 1 7 = false ∧ State.reset.power.change = none ∧ s.power.change = some c ∧ s.hasCommitted (sampleId, 1) = false ∧ s.flight 6 8 = none ∧
      w.pursueDrain.power.drain = .winter 6 8 ∧ w.pursueDrain.drained = false ∧ ({ w with host.flights := [] } : State).pursueDrain.drained = true ∧
      ({ w with host.flights := [] } : State).pursueDrain.flight 6 8 = none ∧ ({ sample 0 5 [] with power.season := .winter, power.hbmLost := true } : State).power.hbmLost = true := by
  refine ⟨by decide, by decide, by decide, by decide, by decide, by decide, by decide, by decide, by decide, rfl, rfl, by decide, rfl, rfl, by decide, by decide, rfl, rfl⟩

set_option maxRecDepth 20000 in
theorem witness_SeasonCommands_dies :
    let d : FoundDie := { page := samplePage, trained := some 0, bad := [] }
    let found (n : Nat) : List (Fin 1024 × FoundDie) := (List.range n).map fun i => (Fin.ofNat 1024 (16 * i), d)
    let s : State := { State.reset with flash.hasState := true, flash.perChannel := 1 }
    geometryAccepted samplePage = true ∧ pagesAgree samplePage { samplePage with serial := 2 } = true ∧ d.trained ≠ none ∧
      16 ≤ ((s.recoverMedia.bringUpDies (acceptedDies (found 16) [])).mapDamaged []).usableChannels ∧
      ((s.recoverMedia.bringUpDies (acceptedDies (found 15) [])).mapDamaged []).usableChannels < 16 := by
  refine ⟨by decide, by decide, by decide, by decide +kernel, by decide +kernel⟩

theorem witness_PowerFailures_inputs :
    let s := sample 0 5 []
    let w : State := { State.reset with power.season := .winter }
    let e : State := { s with power.season := .drain, power.drain := .winter 5 7, power.entering := some 0, clock := 1000000 }
    s.operating = true ∧ s.power.entering = none ∧ w.power.season = .winter ∧ s.power.season ≠ .winter ∧ e.operating = true ∧ e.power.entering = some 0 ∧ 0 + 1000000 ≤ e.clock ∧
      ({ e with clock := 999999 } : State).clock < 0 + 1000000 ∧ ({ s with power.season := .powerLoss } : State).power.season = .powerLoss := by
  refine ⟨rfl, rfl, rfl, by decide, rfl, rfl, by decide, by decide, rfl⟩

theorem witness_PowerFailures_resets :
    let l : State := { State.reset with power.season := .powerLoss, power.flush := some 0 }
    let h : State := { State.reset with power.season := .heldInReset }
    let t : State := { h with pins.straps.testMode := true }
    l.power.season = .powerLoss ∧ l.power.flush = some 0 ∧ l.power.flushed = false ∧ (true && l.power.flashDriven) = true ∧ h.power.season = .heldInReset ∧
      ({ h with pins.resetN := true, pins.straps := {} } : State).conditionsGood = true ∧ ({ h with pins.input := 359 } : State).conditionsGood = false ∧ t.pins.straps.testMode = true ∧
      h.pins.straps.testMode = false := by
  refine ⟨rfl, rfl, rfl, rfl, rfl, by decide, by decide, rfl, rfl⟩

theorem witness_Governing :
    let s : State := { sample 0 5 [] with fabTime := 1000000 }
    s.operating = true ∧ s.fabTime % 1000000 = 0 ∧ s.fabTime ≠ s.governor.lastTick ∧ s.governor.dieCaps[3]? = some 32 ∧ s.governor.stackCaps[19]? = some 100 ∧
      s.governor.hubCaps[1]? = some 100 ∧ s.governor.clocks[3]? = some 20 ∧ 8 ≤ clockCeiling .january ∧ ({ s with fabTime := 1 } : State).fabTime % 1000000 ≠ 0 ∧
      (3 : Fin 20).val < 4 ∧ 4 ≤ (4 : Fin 20).val := by
  refine ⟨rfl, by decide, by decide, rfl, rfl, rfl, rfl, by decide, by decide, by decide, by decide⟩

theorem witness_Governing_shares :
    let l : List (Nat × Nat × Nat) := [(0, 3, 100), (64, 1, 20)]
    let capped (g : Nat) (x : Nat × Nat × Nat) : Bool := decide (x.2.2 * (l.map (·.2.1)).sum * 375 ≤ g * x.2.1 * 100)
    (∀ x ∈ l, capped 200 x = false) ∧ (∃ x ∈ l, capped 400 x = true) ∧ (0, 100) ∈ shareRates 2 4000 l ∧
      ((sample 0 5 []).nbu 7).state = 0 ∧ ((sample 0 5 []).judgeNbus [(7, 39)]).governor.stackCaps.getD 0 100 = 100 := by
  refine ⟨by decide, by decide, by decide, rfl, rfl⟩

theorem witness_PinEvents :
    let s := sample 0x1001 5 []
    let c : State := { s with pins.pcieClk := false }
    let f : State := { s with pins.fabClk := 0 }
    let a : State := { s with pins.aoUp := false }
    s.power.season ≠ .winter ∧ (∀ f ∈ s.host.flights, ∀ a b c, f.work ≠ .streaming a b c) ∧ s.pins.pcieClk = true ∧ c.pins.pcieClk = false ∧ s.operating = true ∧
      (({ s with pins.pcieClk := false } : State).pcieReset).operating = true ∧ s.pins.fabClk.getLsbD (1 : Fin 2).val = true ∧ f.pins.fabClk.getLsbD (1 : Fin 2).val = false ∧
      s.fabric.ports.length = 32 ∧ s.power.season = .summer ∧ a.pins.aoUp = false ∧ s.pins.aoUp = true ∧ (0x80 : Byte).getLsbD 7 = true ∧ (0x7F : Byte).getLsbD 7 = false ∧
      (0xFE : Byte) ≠ 0 ∧ (0xFE : Byte) ≠ 0xFF := by
  refine ⟨by decide, ?_, rfl, rfl, rfl, rfl, by decide, by decide, rfl, rfl, rfl, rfl, by decide, by decide, by decide, by decide⟩
  intro f h a b c
  cases h with
  | head => simp [sampleFlight]
  | tail _ h => cases h

theorem witness_PinEvents_messages :
    let f : Flight := { sampleFlight 0x3001 5 [] with work := .streaming 0 .done none }
    let s : State := { sample 0x3001 5 [] with host.flights := [f] }
    (∃ a b c, f.work = .streaming a b c) ∧ (∀ a b c, (sampleFlight 0x1001 5 []).work ≠ .streaming a b c) ∧ ([0, 0x80] : Bytes).length < 3 ∧ (1 : Byte) ≠ 0 ∧ ([0, 0] : Bytes).getD 1 0 = 0 ∧
      ([0] : Bytes).length ≠ 2 ∧ 3 ∉ [1, 2, 4, 5, 6] ∧ s.power.season ≠ .winter := by
  refine ⟨⟨_, _, _, rfl⟩, by simp [sampleFlight], by decide, by decide, by decide, by decide, by decide, by decide⟩

def ported (x : Port) (n : Nat) : State := { (sample 0 5 []).updVievo 31 (fun _ => x) with clock := n }

theorem witness_LinkBringUp_training :
    let s := ported {} 10000000
    let h : Port := { state := .held }
    s.fabric.ports.length = 32 ∧ (s.vievo 31).state = .down ∧ s.mayTrain 31 = true ∧ lanesUsed 0xF0 ≠ 0 ∧ lanesUsed 0x7F = 0x0F ∧ lanesUsed 0x77 = 0 ∧
      (ported h 10000000000).vievo 31 = h ∧ (ported h 10000000000).serving = true ∧ h.since + 10000000000 ≤ (ported h 10000000000).clock ∧
      (ported {} 9999999).mayTrain 31 = false := by
  refine ⟨rfl, rfl, by decide, by decide, by decide, by decide, rfl, rfl, by decide, by decide⟩

def discovery (kind part : Nat) (data : Bytes) : Bytes := leBytes 1 kind ++ leBytes 1 part ++ zeros 2 ++ leBytes 4 (data.length) ++ data
def port2 (x : Port) (b : Bytes) : State := { (sample 0 5 []).updVievo 2 (fun _ => x) with fabric.inbox := [sampleMsg 1 b] }
def port2Took (x : Port) : State := { (sample 0 5 []).updVievo 2 (fun _ => x) with fabric.inbox := [] }

theorem witness_LinkBringUp_discovery :
    let d : Port := { state := .discoveryOnly }
    let b := discovery 1 0 (zeros 32)
    let i : Port := { state := .discoveryOnly, identity := [0, 1], hello := true }
    let c := discovery 2 2 (zeros 1784)
    ∃ t, (port2 d b).takeMessage 1 [1] = some (sampleMsg 1 b, t) ∧ discoveryFaultless b = true ∧ field b 1 1 = 0 ∧ (b.drop 8).length = 32 ∧ field (b.drop 8) 10 1 < 4 ∧
      zeroField (b.drop 8) 16 16 = true ∧ (t.vievo 2).state = .discoveryOnly ∧
    ∃ u, (port2 i c).takeMessage 1 [2] = some (sampleMsg 1 c, u) ∧ discoveryFaultless c = true ∧ c.length = 1792 ∧ (u.vievo 2).state = .discoveryOnly ∧
      3 ≤ ((u.updVievo 2 fun z => if z.identity.contains 2 then z else { z with identity := z.identity ++ [2], heard := z.heard ++ c }).vievo 2).identity.length := by
  refine ⟨port2Took _, rfl, by decide, by decide, by decide, by decide, by decide, rfl, port2Took { state := .discoveryOnly, identity := [0, 1], hello := true }, take_kind (x := sampleMsg 1 (discovery 2 2 (zeros 1784))) rfl (by decide +kernel), by decide +kernel, by decide +kernel, rfl, by decide +kernel⟩

theorem witness_LinkBringUp_keys :
    let k : Port := { state := .keying }
    let b := discovery 3 0 (zeros 1672)
    let j : Port := { state := .keying, kex := true }
    let c := discovery 4 0 (zeros 48)
    let r : Port := { state := .up, lanes := 0xFF, txSeq := 2 ^ 40 }
    let s : State := { sample 0 5 [] with clock := 100000000 }
    (port2 k b).takeMessage 1 [3] = some (sampleMsg 1 b, port2Took k) ∧ discoveryFaultless b = true ∧ b.length = 1680 ∧ zeroField b 1673 7 = true ∧ portKeys ((port2Took k).vievo 2) = true ∧
      ((port2Took k).vievo 2).kex = false ∧ (port2 j c).takeMessage 1 [4] = some (sampleMsg 1 c, port2Took j) ∧ discoveryFaultless c = true ∧ c.length = 56 ∧
      ((port2Took j).vievo 2).kex = true ∧ (s.electricallyFenced 31) = false ∧ ((ported r 0).vievo 31).state = .up ∧ 2 ^ 40 ≤ ((ported r 0).vievo 31).txSeq ∧
      ((ported { state := .discoveryOnly } 100000000).vievo 31).sentAt + 100000000 ≤ (ported { state := .discoveryOnly } 100000000).clock := by
  refine ⟨take_kind (x := sampleMsg 1 (discovery 3 0 (zeros 1672))) rfl (by decide +kernel), by decide +kernel, by decide +kernel, by decide +kernel, by decide, rfl, rfl, by decide +kernel, by decide +kernel, rfl, by decide, rfl, by decide, by decide⟩

theorem witness_LinkBringUp_messages :
    let k : Port := { state := .keying, kexOut := some 0 }
    let b := discovery 3 0 (zeros 1672)
    let bad := discovery 1 1 (zeros 32)
    (port2Took {}).takeMessage 1 [1] = none ∧ (port2Took {}).takeMessage 1 [2] = none ∧ (port2Took {}).takeMessage 1 [3] = none ∧ (port2Took {}).takeMessage 1 [4] = none ∧
      (port2 {} bad).takeMessage 1 [1] = some (sampleMsg 1 bad, port2Took {}) ∧ field bad 1 1 ≠ 0 ∧
      (port2 k b).takeMessage 1 [3] = some (sampleMsg 1 b, port2Took k) ∧ portKeys ((port2Took k).vievo 2) = true ∧ ((port2Took k).vievo 2).kexOut = some 0 ∧
      portKeys ((port2Took {}).vievo 2) = false ∧ (port2Took {}).routeHolds 2 = none ∧ ({ port2Took {} with fabric.route := some (zeros 256) } : State).routeHolds 2 = some 1 := by
  refine ⟨rfl, rfl, rfl, rfl, take_kind (x := sampleMsg 1 (discovery 1 1 (zeros 32))) rfl (by decide +kernel), by decide +kernel,
    take_kind (x := sampleMsg 1 (discovery 3 0 (zeros 1672))) rfl (by decide +kernel), by decide, rfl, by decide, by decide, by decide +kernel⟩

theorem witness_LinkBringUp_repeats :
    let d : Port := { state := .down }
    let r : Port := { state := .up, lanes := 0xFF, txSeq := 2 ^ 40 - 1 }
    let x : Port := { state := .degraded, lanes := 0x0F, kexOut := some 3 }
    let k : Port := { state := .keying, kexOut := some 3 }
    ((ported d 10000000).vievo 31).state = .down ∧ (ported d 10000000).mayTrain 31 = true ∧
      ((ported r 0).vievo 31).kexOut = none ∧ ((ported r 0).vievo 31).txSeq < 2 ^ 40 ∧ (ported r 0).clock < ((ported r 0).vievo 31).keyedAt + 86400000000000 ∧
      ((ported r 86400000000000).vievo 31).keyedAt + 86400000000000 ≤ (ported r 86400000000000).clock ∧
      (ported x 100000000).serving = true ∧ ((ported x 100000000).vievo 31).sentAt + 100000000 ≤ (ported x 100000000).clock ∧
      ((ported x 100000000).vievo 31).kexOut ≠ none ∧ (ported x 99999999).clock < ((ported x 99999999).vievo 31).sentAt + 100000000 ∧
      ((ported k 100000000).vievo 31).state = .keying ∧ ((ported { marginal := true, state := .up } 0).vievo 31).marginal = true := by
  refine ⟨rfl, by decide, rfl, by decide, by decide, by decide, by decide, by decide, by decide, by decide, rfl, rfl⟩

theorem witness_LinkBringUp_fence :
    let x : Port := { state := .keying, partner := some 7, kex := true, kexOut := some 0, lanes := 0xFF }
    let f : State := { ported x 0 with comp.electrical := [7] }
    (ported x 0).electricallyFenced 31 = false ∧ f.electricallyFenced 31 = true ∧ (f.vievo 31).partner = some 7 ∧ (f.vievo 31).kexOut = some 0 := by
  refine ⟨by decide, by decide, rfl, rfl⟩

theorem witness_LinkFrames :
    let x : Port := { state := .up, lanes := 0xFF }
    let s : State := (sample 0 5 []).updVievo 31 fun _ => x
    let h (seq kind : Nat) : Bytes := leBytes 6 seq ++ leBytes 1 kind ++ zeros 9
    let r : Port := { x with replay := [(1, { kind := 1, bytes := [] })] }
    let u : State := { (sample 0 5 []).updVievo 31 (fun _ => r) with clock := 1000000 }
    s.fabric.ports.length = 32 ∧ s.serving = true ∧ (s.vievo 31).idledBy = [] ∧ linkUp (s.vievo 31) = true ∧ field (h 1 1) 6 1 = 1 ∧ field (h 1 2) 6 1 = 2 ∧ field (h 1 3) 6 1 = 3 ∧
      frameIntact .good = true ∧ field (h 1 1) 0 6 = (s.vievo 31).rxSeq + 1 ∧ field (h 2 1) 0 6 ≠ (s.vievo 31).rxSeq + 1 ∧ frameIntact .uncorrectable = false ∧
      (s.vievo 31).credits.length = 8 ∧ (s.vievo 31).awaiting = false ∧ (u.vievo 31).replay ≠ [] ∧ (u.vievo 31).ackSince + 1000000 ≤ u.clock ∧
      (((sample 0 5 []).updVievo 31 fun _ => { state := .discoveryOnly }).vievo 31).state = .discoveryOnly := by
  refine ⟨rfl, rfl, rfl, rfl, by decide, by decide, by decide, by decide, by decide, by decide, by decide, rfl, rfl, by decide, by decide, rfl⟩

theorem witness_LinkFrames_drops :
    let x : Port := { state := .up, lanes := 0xFF, replay := [(1, { kind := 1, bytes := [] })], replays := 8, ackSince := 5 }
    let s : State := (sample 0 5 []).updVievo 31 fun _ => x
    let a : State := (sample 0 5 []).updVievo 31 fun _ => { x with awaiting := true, replays := 7 }
    let d : State := (sample 0 5 []).updVievo 31 fun _ => { state := .held }
    let h : Bytes := leBytes 6 1 ++ leBytes 1 2 ++ zeros 9
    (a.vievo 31).awaiting = true ∧ (s.vievo 31).awaiting = false ∧ 8 ≤ (s.vievo 31).replays ∧ (a.vievo 31).replays < 8 ∧ a.clock < (a.vievo 31).ackSince + 1000000 ∧
      (d.vievo 31).state = .held ∧ linkUp (d.vievo 31) = false ∧ frameIntact .uncorrectable = false ∧ field h 6 1 = 2 ∧ field h 0 6 = (s.vievo 31).rxSeq + 1 ∧
      frameIntact .corrected = true ∧ linkUp (s.vievo 31) = true ∧ (s.vievo 31).replay ≠ [] := by
  refine ⟨rfl, rfl, by decide, by decide, by decide, rfl, rfl, rfl, by decide, by decide, rfl, rfl, by decide⟩

/-- A packet of version `v` from node 8, complete in itself. -/
def packetOf (v type cls hops dst pkey : Nat) : Bytes :=
  let h : Bytes := leBytes 1 v ++ leBytes 1 type ++ leBytes 1 cls ++ leBytes 1 hops ++ leBytes 2 dst ++ leBytes 2 8 ++ leBytes 2 pkey ++ [3, 0] ++ leBytes 2 8 ++ leBytes 2 5 ++
    leBytes 4 1 ++ leBytes 4 0 ++ leBytes 4 8
  h ++ leBytes 4 (crc32c (h ++ zeros 4 ++ zeros 8)).toNat ++ zeros 8

/-- A route image of node 0 that reaches node 9 by port 31. -/
def nearRoute : Bytes := zeros 0x324 ++ leBytes 4 (31 + 2 ^ 22)

/-- The sample module with an open port 31 at which a packet has arrived, and fences. -/
def arrivedWith (b : Bytes) (fences : List Nat) : State :=
  let s := (sample 0 5 []).updVievo 31 fun _ => { state := .up, lanes := 0xFF, arrived := [b] }
  { s with fabric.route := some nearRoute, comp.fences := fences }

theorem witness_Packets_broken : ∃ b t, (arrivedWith b []).takePacket 31 = some (b, t) ∧ (arrivedWith b []).serving = true ∧
    (arrivedWith b []).fabric.ports.length = 32 ∧ packetCrcHolds b = false :=
  ⟨zeros 32, _, rfl, rfl, rfl, by decide +kernel⟩
theorem witness_Packets_faulty : ∃ b t, (arrivedWith b []).takePacket 31 = some (b, t) ∧ (arrivedWith b []).serving = true ∧ packetCrcHolds b = true ∧ packetFaultless b = false :=
  ⟨packetOf 2 0x10 1 4 0 0, _, rfl, rfl, by decide +kernel, by decide +kernel⟩
theorem witness_Packets_mine : ∃ b t u v, packetCrcHolds b = true ∧ packetFaultless b = true ∧ packetCrcHolds v = true ∧ packetFaultless v = true ∧
    (arrivedWith b [8]).takePacket 31 = some (b, t) ∧ (arrivedWith b [8]).forMe (readPacket b) = true ∧ t.fenceDrops (readPacket b) = true ∧
    (arrivedWith b []).takePacket 31 = some (b, u) ∧ (arrivedWith b []).forMe (readPacket b) = true ∧ u.fenceDrops (readPacket b) = false ∧ u.pkeyAccepts (readPacket b) = false ∧
    ∃ w, (arrivedWith v []).takePacket 31 = some (v, w) ∧ (arrivedWith v []).forMe (readPacket v) = true ∧ w.fenceDrops (readPacket v) = false ∧ w.pkeyAccepts (readPacket v) = true :=
  ⟨packetOf 1 0x10 1 4 0 5, _, _, packetOf 1 0x60 0 4 0 0, by decide +kernel, by decide +kernel, by decide +kernel, by decide +kernel, rfl, by decide +kernel, by decide +kernel,
    rfl, by decide +kernel, by decide +kernel, by decide +kernel, _, rfl, by decide +kernel, by decide +kernel, by decide +kernel⟩
theorem witness_Packets_transit_dropped : ∃ b t u, packetCrcHolds b = true ∧ packetFaultless b = true ∧
    (arrivedWith b [8]).takePacket 31 = some (b, t) ∧ (arrivedWith b [8]).forMe (readPacket b) = false ∧ t.fenceDrops (readPacket b) = true ∧
    (arrivedWith b []).takePacket 31 = some (b, u) ∧ (arrivedWith b []).forMe (readPacket b) = false ∧ u.fenceDrops (readPacket b) = false ∧ u.pkeyTransit (readPacket b) = false :=
  ⟨packetOf 1 0x10 1 4 9 5, _, _, by decide +kernel, by decide +kernel, rfl, by decide +kernel, by decide +kernel, rfl, by decide +kernel, by decide +kernel, by decide +kernel⟩
theorem witness_Packets_transit :
    let ok : Bytes → State → Prop := fun b t => packetCrcHolds b = true ∧ packetFaultless b = true ∧ (arrivedWith b []).takePacket 31 = some (b, t) ∧
      (arrivedWith b []).forMe (readPacket b) = false ∧ t.fenceDrops (readPacket b) = false ∧ t.pkeyTransit (readPacket b) = true;
    (∃ b t, ok b t ∧ (readPacket b).hops ≤ 1) ∧ (∃ b t, ok b t ∧ 1 < (readPacket b).hops ∧ t.flowPort (readPacket b).src (readPacket b).dst (readPacket b).cls = none) ∧
    (∃ b t, ok b t ∧ 1 < (readPacket b).hops ∧ t.flowPort (readPacket b).src (readPacket b).dst (readPacket b).cls = some 31) :=
  ⟨⟨packetOf 1 0x10 1 1 9 0, _, ⟨by decide +kernel, by decide +kernel, rfl, by decide +kernel, by decide +kernel, by decide +kernel⟩, by decide +kernel⟩,
   ⟨packetOf 1 0x10 1 2 7 0, _, ⟨by decide +kernel, by decide +kernel, rfl, by decide +kernel, by decide +kernel, by decide +kernel⟩, by decide +kernel, by decide +kernel⟩,
   ⟨packetOf 1 0x10 1 2 9 0, _, ⟨by decide +kernel, by decide +kernel, rfl, by decide +kernel, by decide +kernel, by decide +kernel⟩, by decide +kernel, by decide +kernel⟩⟩

/-- A packet of a message of 8 bytes from node 8. -/
def partOf (first last : Bool) (offset msgLen : Nat) (payload : Bytes) : FabPacket :=
  { type := 0x10, cls := 1, hops := 4, dst := 0, src := 8, pkey := 0, first := first, last := last, module := false, tenant := 5, msgId := 1, offset := offset, msgLen := msgLen, payload := payload }

theorem witness_Packets_assembly :
    let s := sample 0 5 []
    let r : Reassembly := { src := 8, cls := 1, type := 0x10, msgId := 1, msgLen := 8, tenant := 5, got := zeros 4, last := 0 }
    let t : State := { s with fabric.reassembly := [r] }
    let first := partOf true true 0 8 (zeros 8)
    let next := partOf false true 4 8 (zeros 4)
    s.assembly first.src first.cls = none ∧ first.first = true ∧ s.fabric.reassembly.length < 65536 ∧ s.assemblyBytes + first.msgLen ≤ 268435456 ∧ first.last = true ∧
      first.payload.length = first.msgLen ∧ (partOf true true 0 9 (zeros 8)).payload.length < 9 ∧ 7 < (partOf true true 0 7 (zeros 8)).payload.length ∧
      (partOf true false 0 8 (zeros 4)).last = false ∧ (partOf true false 0 8 (zeros 4)).payload.length ≤ 8 ∧ 268435456 < s.assemblyBytes + (partOf true false 0 268435457 []).msgLen ∧
      next.first = false ∧ s.assembly next.src next.cls = none ∧ t.assembly next.src next.cls = some r ∧ r.msgId = next.msgId ∧ r.type = next.type ∧ r.got.length = next.offset ∧
      r.msgLen = next.msgLen ∧ next.last = true ∧ r.got.length + next.payload.length = r.msgLen ∧ r.got.length ≠ (partOf false true 3 8 (zeros 4)).offset ∧
      s.assembly (8 : Half).toNat (1 : Fin 7) = none ∧ t.assembly (8 : Half).toNat (1 : Fin 7) = some r ∧ t.clock < r.last + 1000000 ∧
      r.last + 1000000 ≤ ({ t with clock := 1000000 } : State).clock := by decide +kernel
theorem witness_Packets_hold : ∃ s : State, s.fabric.ports.length = 32 ∧ 10000 ≤ ((s.vievo 31).violations.filter fun t => s.clock < t + 1000000000).length ∧
    (s.vievo 31).state ≠ .down ∧ (s.vievo 31).state ≠ .held ∧ ((s.vievo 30).violations.filter fun t => s.clock < t + 1000000000).length < 10000 :=
  ⟨(sample 0 5 []).updVievo 31 fun _ => { state := .up, lanes := 0xFF, violations := List.replicate 10000 0 }, rfl, by decide +kernel, by decide, by decide, by decide⟩
theorem witness_Packets_turn :
    let q : Queued := { packet := partOf true true 0 8 (zeros 8), since := 0 }
    let s := (sample 0 5 []).updVievo 31 fun _ => { state := .up, lanes := 0xFF, queues := [(1, [q])], turn := 1, gates := { resetGates with entries := [(1000, 1)] } }
    s.fabric.ports.length = 32 ∧ (s.vievo 31).queues.getD (0 : Fin 7) [] = [] ∧ (s.vievo 31).queues.getD (1 : Fin 7) [] = [q] ∧ s.clock < q.since + 2000000 ∧
      q.since + 2000000 ≤ ({ s with clock := 2000000 } : State).clock ∧ portOpen (s.vievo 30) = false ∧ s.serving = true ∧ portOpen (s.vievo 31) = true ∧ (s.vievo 31).turn ≠ 0 ∧
      openLeft (s.vievo 31).turn s.fabTime (s.vievo 31).gates = 0 ∧ (s.vievo 31).turn < 6 ∧ openLeft 1 s.fabTime resetGates ≠ 0 := by decide +kernel

theorem witness_Packets_parts :
    let s := sample 0 5 []
    let r : Reassembly := { src := 8, cls := 1, type := 0x10, msgId := 1, msgLen := 8, tenant := 5, got := zeros 4, last := 0 }
    let t : State := { s with fabric.reassembly := [r] }
    let long := partOf false false 4 8 (zeros 5)
    let short := partOf false true 4 8 (zeros 3)
    let mid := partOf false false 4 8 (zeros 2)
    let other : FabPacket := { mid with msgId := 2 }
    (partOf true true 0 8 []).first = true ∧ t.assembly (partOf true true 0 8 []).src (partOf true true 0 8 []).cls = some r ∧ other.first = false ∧ t.assembly other.src other.cls = some r ∧
      r.msgId ≠ other.msgId ∧ r.msgId = mid.msgId ∧ r.type = mid.type ∧ r.got.length = mid.offset ∧ r.msgLen = mid.msgLen ∧ mid.last = false ∧
      r.got.length + mid.payload.length ≤ r.msgLen ∧ r.msgLen < r.got.length + long.payload.length ∧ short.last = true ∧ r.got.length + short.payload.length < r.msgLen := by decide +kernel
theorem witness_Packets_queues :
    let x := partOf true true 0 8 (zeros 8)
    let y : FabPacket := { x with src := 0 }
    let s := sample 0 5 []
    let h : State := { s with fabric.held := [x] }
    let n : State := { s with fabric.unreachSent := List.replicate 1000 (8, 0) }
    (h.fabric.held.any (sameFlow x) || h.flowElsewhere 31 x) = true ∧ (s.fabric.held.any (sameFlow x) || s.flowElsewhere 31 x) = false ∧ y.src = s.nodeId ∧ x.src ≠ s.nodeId ∧
      1000 ≤ ((n.fabric.unreachSent.filter fun e => n.clock < e.2 + 1000000000).filter (·.1 == x.src)).length ∧
      ((s.fabric.unreachSent.filter fun e => s.clock < e.2 + 1000000000).filter (·.1 == x.src)).length < 1000 := by
  refine ⟨by decide, by decide, by decide, by decide, by decide +kernel, by decide⟩
theorem witness_Packets_idle :
    let s := (sample 0 5 []).updVievo 31 fun _ => { state := .up, lanes := 0xFF, rxSeq := 1, owed := [0, 3, 0, 0, 0, 0, 0, 0], turn := 6 }
    s.serving = true ∧ portOpen (s.vievo 31) = true ∧ (s.vievo 31).turn = 6 ∧ ((s.vievo 31).ackSent < (s.vievo 31).rxSeq || (s.vievo 31).owed.any (0 < ·)) = true := by decide

/-- A module whose I3C connection has reached a phase. -/
def spdmAt (p : SpdmPhase) : State := (sample 0 5 []).setPhase 0 p

theorem witness_Spdm_reach : (({ sample 0 5 [] with power.season := .winter } : State).spdmReachable 0 = false) ∧ (sample 0 5 []).spdmReachable 1 = false ∧ (spdmAt .start).spdmReachable 0 = true ∧
    (spdmAt .start).spdmPhase 0 = .start ∧ (spdmAt .versioned).spdmPhase 0 = .versioned ∧ (spdmAt .versioned).spdmReachable 0 = true ∧ (spdmAt .capable).spdmPhase 0 = .capable ∧
    (spdmAt .capable).spdmReachable 0 = true ∧ (spdmAt .negotiated).spdmPhase 0 = .negotiated ∧ (spdmAt .negotiated).spdmReachable 0 = true := by decide
theorem witness_Spdm_slots : let s := spdmAt .negotiated; let t : State := { s with keys.anchor := some [1] }
    s.keys.anchor = none ∧ t.keys.anchor = some [1] ∧ t.spdmReachable (0 : Fin 3) = true ∧ t.spdmPhase (0 : Fin 3) = .negotiated ∧ (∃ c, s.slotChain (0 : Byte).toNat = some c) ∧
      s.slotChain (1 : Byte).toNat = none ∧ t.slotChain (1 : Byte).toNat = some [1] ∧ s.slotChain (2 : Byte).toNat = none ∧ 5 < (6 : Byte).toNat ∧ (6 : Byte).toNat ≠ 0xFF ∧ (5 : Byte).toNat ≤ 5 ∧
      (0xFF : Byte).toNat = 0xFF ∧ s.mgmtOpen = false ∧ (1 : Byte) ≠ 0 ∧ ((0 : Fin 3).val = 0 ∧ s.keys.anchor = none) := by
  refine ⟨rfl, rfl, rfl, rfl, ⟨_, rfl⟩, rfl, rfl, rfl, by decide, by decide, by decide, by decide, rfl, by decide, rfl, rfl⟩
theorem witness_Spdm_session :
    let s : State := { spdmAt .negotiated with keys.mgmt := .handshake 0x10001 0, keys.anchor := some [1] }
    let u : State := { s with keys.mgmt := .open 0x10001 0, keys.chunksIn := [(0, ([1], 1))], keys.chunksOut := [(0, (zeros 1008, 0))] }
    let v : State := { u with keys.chunksOut := [(0, (zeros 1009, 0))] }
    s.spdmReachable (0 : Fin 3) = true ∧ u.spdmReachable (0 : Fin 3) = true ∧ u.spdmPhase (0 : Fin 3) = .negotiated ∧ u.mgmtOpen = true ∧ s.keys.mgmt = .handshake 0x10001 (0 : Fin 3) ∧
      s.keys.anchor ≠ none ∧ u.keys.mgmt = .open 0x10001 (0 : Fin 3) ∧ (∀ id, u.keys.mgmt ≠ .handshake id (0 : Fin 3)) ∧ (∀ id, s.keys.mgmt ≠ .open id (0 : Fin 3)) ∧
      (∃ id, u.keys.mgmt = .open id (0 : Fin 3) ∧ true = true) ∧ ¬ (∃ id, s.keys.mgmt = .open id (0 : Fin 3) ∧ true = true) ∧
      (1 : Nat) = (u.keys.chunksIn.getD (0 : Fin 3) ([], 0)).2 ∧ (2 : Nat) ≠ (u.keys.chunksIn.getD (0 : Fin 3) ([], 0)).2 ∧ s.keys.chunksOut.find (0 : Fin 3) = none ∧
      u.keys.chunksOut.find (0 : Fin 3) = some (zeros 1008, 0) ∧ (zeros 1008).length ≤ (0 + 1) * (chunkSize - 16) ∧ v.keys.chunksOut.find (0 : Fin 3) = some (zeros 1009, 0) ∧
      (0 + 1) * (chunkSize - 16) < (zeros 1009).length ∧ v.spdmReachable (0 : Fin 3) = true ∧ v.spdmPhase (0 : Fin 3) = .negotiated ∧ (4 : Byte) ≠ 1 ∧ (4 : Byte) ≠ 2 ∧ (4 : Byte) ≠ 3 := by
  refine ⟨rfl, rfl, rfl, rfl, rfl, by decide, rfl, ?_, ?_, ⟨_, rfl, rfl⟩, ?_, rfl, by decide, rfl, rfl, ?_, rfl, ?_, rfl, rfl, by decide, by decide, by decide⟩
  · intro id h; cases h
  · intro id h; cases h
  · rintro ⟨id, h, -⟩; cases h
  · rw [zeros_length]; decide
  · rw [zeros_length]; decide
theorem witness_Spdm_jtag : (JtagInstr.extest ≠ .bypass ∧ JtagInstr.extest ≠ .idcode ∧ JtagInstr.extest ≠ .samplePreload) := by decide

/-- A module with its first management port connected. -/
def connectedAt (clock : Nat) : State := { sample 0 5 [] with clock := clock, host.ports := [{ link := true, connected := true }, {}] }

/-- A management packet's header with CRC. -/
def mgmtHeader (flags : Nat) : Bytes :=
  let h : Bytes := [1, 0] ++ leBytes 2 1 ++ zeros 2 ++ leBytes 2 flags ++ zeros 24
  h.take 20 ++ leBytes 4 (headerCrc h).toNat ++ h.drop 24

theorem witness_ManagementPorts :
    let s := sample 0 5 []
    let c := connectedAt
    let long : Bytes := zeros 12 ++ leBytes 4 16777217 ++ zeros 16
    s.host.ports.length = 2 ∧ s.portUp 1 = true ∧ (s.port 1).connected = false ∧ ({ s with power.straps.mgmtEn := 0 } : State).portUp 1 = false ∧ (c 0).host.ports.length = 2 ∧
      ((c 0).port 0).connected = true ∧ (s.port 1).link = false ∧ ((c 0).port 0).link = true ∧ ((c 5000000000).port 0).lastRx + 5000000000 ≤ (c 5000000000).clock ∧
      (c 4999999999).clock < ((c 4999999999).port 0).lastRx + 5000000000 ∧ (c 0).portUp 0 = true ∧ ((c 0).port 0).lastTx + 1000000000 ≤ (c 1000000000).clock ∧
      (c 999999999).clock < ((c 0).port 0).lastTx + 1000000000 ∧ 16777216 < (parseHeader long).length.toNat ∧ 0 ≠ 64 * packetSlots (parseHeader (mgmtHeader 0)).length.toNat ∧
      (parseHeader (zeros 32)).length.toNat ≤ 16777216 ∧ 64 = 64 * packetSlots (parseHeader (zeros 32)).length.toNat ∧ headerCrc (zeros 32) ≠ (parseHeader (zeros 32)).crc ∧
      headerCrc (mgmtHeader 0) = (parseHeader (mgmtHeader 0)).crc ∧ 64 = 64 * packetSlots (parseHeader (mgmtHeader 0)).length.toNat := by decide +kernel
theorem witness_ManagementPorts_taken : ∃ r u : State, r = (connectedAt 0).updPort 0 (fun x => { x with lastRx := (connectedAt 0).clock }) ∧
    r.submit 4096 (.port 0) (parseHeader (mgmtHeader 0)) { header := mgmtHeader 0, payload := [] } (connectedAt 0).clock = .taken u := by
  have h : (match ((connectedAt 0).updPort 0 (fun x => { x with lastRx := (connectedAt 0).clock })).submit 4096 (.port 0) (parseHeader (mgmtHeader 0))
      { header := mgmtHeader 0, payload := [] } (connectedAt 0).clock with | .taken _ => true | .wait _ => false) = true := by decide +kernel
  split at h
  · exact ⟨_, _, rfl, by assumption⟩
  · cases h
theorem witness_ManagementPorts_wait :
    let s : State := { connectedAt 0 with host.flights := [{ sampleFlight 1 0 [] with mbx := 4096 }] }
    ∃ u : State, (s.updPort 0 (fun x => { x with lastRx := s.clock })).submit 4096 (.port 0) (parseHeader (mgmtHeader 2)) { header := mgmtHeader 2, payload := [] } s.clock = .wait u := by
  intro s
  have h : (match (s.updPort 0 (fun x => { x with lastRx := s.clock })).submit 4096 (.port 0) (parseHeader (mgmtHeader 2)) { header := mgmtHeader 2, payload := [] } s.clock with
      | .taken _ => true | .wait _ => false) = false := by decide +kernel
  split at h
  · cases h
  · exact ⟨_, by assumption⟩
theorem witness_ManagementPorts_discard :
    let d : Done := { mbx := 4096, hdr := (sampleFlight 1 0 []).hdr, path := .port 0, response := { status := .done, payload := [], sealed := false }, admitted := true, reserved := 0 }
    let s : State := { sample 0 5 [] with clock := 60000000000, host.done := [d] }
    s.host.ports.length = 2 ∧ (s.host.done.find? fun d => d.path == .port (0 : Fin 2) && (s.portFor (0 : Fin 2)).isNone && decide (d.since + 60000000000 ≤ s.clock)) = some d ∧
      (s.host.done.find? fun d => d.path == .port (1 : Fin 2) && (s.portFor (1 : Fin 2)).isNone && decide (d.since + 60000000000 ≤ s.clock)) = none := by decide +kernel

theorem witness_WhatAResetLeaves :
    let v := sampleRow 9 1
    let c : Collection := { sampleColl with versions := [v], segments := [{ id := 1, state := .sealed }], availability := .ready, ops := [{ sampleOp with durable := true }] }
    let s : State := { sampleWith 0 [] c with power.season := .powerLoss, power.flushed := true }
    let k : State := { s with index.collections := [(sampleId, { c with availability := .keyLost })] }
    s.power.season = .powerLoss ∧ s.power.flushed = true ∧ s.coll sampleId = some c ∧ c.dropping = none ∧ v ∈ c.versions ∧ c.inSealed v = true ∧ c.availability ≠ .keyLost ∧
      k.coll sampleId = some { c with availability := .keyLost } ∧ ((s.afterReset.coll sampleId).map fun d => (d.versions.length, d.ops.length, d.availability != .keyLost)) = some (1, 1, true) := by
  decide +kernel

end Sys2Proof.Tests
end

/-! ### Proofs: every command answers a next state (O2) -/

namespace Sys2Proof.Machine

/-- Each row of the table builds a next state; no row answers a fault or a refusal (R7, R50). -/
theorem exec_next (c : Instr) (s : State) : ∃ t, exec c s = .next t := by
  cases c <;> exact ⟨_, rfl⟩

theorem step_next (s : State) : ∃ t, step s = .next t := by
  unfold step
  cases s.pending with
  | nil => exact ⟨s.tick, rfl⟩
  | cons c rest => exact exec_next c { s with pending := rest }

/-- Settles O2: each row of the table answers a next state, and a step runs one row or lets time pass. -/
theorem everyCommandCompletes : Obligations.EveryCommandCompletes :=
  ⟨exec_next, step_next⟩

end Sys2Proof.Machine

/-! ### Proofs: writes to BAR0 registers (O10) -/

namespace Sys2Proof.Machine

/-- A word of a tenant mailbox's block in BAR0 (Table 2-1). -/
theorem barReg_mailbox (t : Fin 4096) {o : Nat} (h : o < 64) : barReg (0x10000 + 64 * t + o) = mailboxReg t o := by
  have ht := t.isLt
  have hi : (0x10000 + 64 * t.val + o - 0x10000) / 64 = t := by omega
  have ho : (0x10000 + 64 * t.val + o) % 64 = o := by omega
  unfold barReg
  rw [if_neg (by omega), if_neg (by omega), if_neg (by omega), if_neg (by omega), if_neg (by omega), if_pos (by omega), hi, ho]

/-- REGISTER_WRITE is the write to BAR0 (R12, R28). -/
theorem exec_registerWrite (off : Nat) (wide : Bool) (v : Quad) (s : State) :
    exec (.registerWrite off wide v) s = .next (barWrite off wide v s) := rfl

/-- A 4-byte write that keeps R27 goes to the register at its offset (R28). -/
theorem registerWrite_word {s : State} {off : Nat} {r : BarReg} {upper : Bool} (v : Quad) (hs : s.pcieReachable = true)
    (ha : off % 4 = 0) (hr : barReg off = some (r, upper)) :
    exec (.registerWrite off false v) s = .next (writeReg4 r upper (v.setWidth 32) s) := by
  have hl : barLegal off 4 = true := by simp [barLegal, ha, hr]
  simp [exec_registerWrite, barWrite, hs, hl, hr]

/-- An 8-byte write that keeps R27 writes an 8-byte register as a whole (R28). -/
theorem registerWrite_whole {s : State} {off : Nat} {r : BarReg} {lower : Bool} {above : BarReg × Bool} (v : Quad) (hs : s.pcieReachable = true)
    (ha : off % 8 = 0) (hr : barReg off = some (r, lower)) (hn : barReg (off + 4) = some above) (hw : isWideReg r = true) :
    exec (.registerWrite off true v) s = .next (writeReg8 r v s) := by
  have hl : barLegal off 8 = true := by simp [barLegal, ha, hr, hn]
  simp [exec_registerWrite, barWrite, hs, hl, hr, hw]

/-- A 4-byte write to a tenant mailbox's block goes to the register that Table 2-5 places there. -/
theorem registerWrite_mailbox {s : State} {t : Fin 4096} {o : Nat} {r : BarReg} {upper : Bool} (v : Quad) (hs : s.pcieReachable = true)
    (ho : o < 64) (ha : o % 4 = 0) (hr : mailboxReg t o = some (r, upper)) :
    exec (.registerWrite (0x10000 + 64 * t + o) false v) s = .next (writeReg4 r upper (v.setWidth 32) s) :=
  registerWrite_word v hs (by omega) ((barReg_mailbox t ho).trans hr)

/-- An 8-byte write at the start of a tenant mailbox's block is a write of CMD_BASE (Table 2-5). -/
theorem registerWrite_cmdBase {s : State} (t : Fin 4096) (v : Quad) (hs : s.pcieReachable = true) :
    exec (.registerWrite (0x10000 + 64 * t) true v) s = .next (writeBase false t v s) :=
  registerWrite_whole v hs (by omega) (barReg_mailbox t (o := 0) (by omega)) (barReg_mailbox t (o := 4) (by omega)) rfl

/-- A base written while DISABLED is stored with bits [11:0] 0 (R30). -/
theorem writeBase_cmd_disabled {s : State} {m : Nat} (v : Quad) (h : (s.mbx m).state = .disabled) :
    writeBase false m v s =
      s.setMbx m { s.mbx m with cmdBase := v &&& 0xFFFFFFFFFFFFF000#64, basesWritten := (true, (s.mbx m).basesWritten.2) } := by
  simp [writeBase, h, State.updMbx]

/-- A base written outside DISABLED is a CFG_INVALID violation (R30). -/
theorem writeBase_not_disabled {s : State} {m : Nat} (rsp : Bool) (v : Quad) (h : (s.mbx m).state ≠ .disabled) :
    writeBase rsp m v s = s.registerViolation m .cfgInvalid := by
  simp [writeBase, h]

/-- Settles O10: each write is taken to its register by its offset, and the register's own write says the rest. -/
theorem registerWrites : Obligations.RegisterWrites := by
  unfold Obligations.RegisterWrites
  intro s v hs
  refine ⟨registerWrite_whole v hs rfl (r := .glbErr) rfl rfl rfl, fun t => ⟨fun hd => ⟨?whole, ?half⟩, fun hd => ?violation, ?irqMod, ?cmdCons, ?rspProd⟩⟩
  case whole => rw [registerWrite_cmdBase t v hs, writeBase_cmd_disabled v hd]
  case half =>
    rw [registerWrite_mailbox v hs (by omega) rfl (r := .cmdBase t) (upper := true) rfl]
    exact congrArg Host.Outcome.next (writeBase_cmd_disabled _ hd)
  case violation => rw [registerWrite_cmdBase t v hs, writeBase_not_disabled false v hd]
  case irqMod => exact registerWrite_mailbox v hs (by omega) rfl (r := .irqMod t) rfl
  case cmdCons => exact registerWrite_mailbox v hs (by omega) rfl (r := .cmdCons t) rfl
  case rspProd => exact registerWrite_mailbox v hs (by omega) rfl (r := .rspProd t) rfl

end Sys2Proof.Machine

/-! ### Proofs: acknowledgement, application and commit of operations (O28) -/

namespace Sys2Proof.Machine

/-- The operation as OPERATION_ACK finds it: its record in the log buffer where it is or fits now, and durable where it was or has been programmed (R24, R386). -/
def State.withRecord (programmed : Bool) (o : Operation) (s : State) : Operation :=
  let roomed : Operation := { o with buffered := o.buffered || s.logRoom o.record.length }
  { roomed with durable := o.durable || (programmed && roomed.buffered) }

/-- An operation of a collection is replaced. -/
def State.putOp (id csn : Nat) (o : Operation) (s : State) : State := s.updColl id fun c => c.updOp csn fun _ => o

/-- What bars an acknowledgement (R24, R52, R433): it has been given, the record is not safe, the module does not serve, or it is fenced off from the replicas
of the collection. -/
def State.ackBarred (c : Collection) (o : Operation) (s : State) : Bool :=
  o.acked || !s.ackable o || !s.serving || ((s.selfFenced || (s.comp.compositions.find c.composition).any (·.fenced)) && !c.replicas.isEmpty)

theorem ackBarred_of_acked_or_unsafe {s : State} {c : Collection} {o : Operation} (h : o.acked = true ∨ s.ackable o = false) : s.ackBarred c o = true := by
  rcases h with h | h <;> simp [State.ackBarred, h]

theorem ackBarred_eq_false {s : State} {c : Collection} {o : Operation} (h1 : o.acked = false) (h2 : s.ackable o = true) (h3 : s.serving = true)
    (h4 : c.replicas = [] ∨ (s.selfFenced = false ∧ (s.comp.compositions.find c.composition).any (·.fenced) = false)) : s.ackBarred c o = false := by
  rcases h4 with h4 | ⟨h4, h5⟩
  · simp [State.ackBarred, h1, h2, h3, h4]
  · simp only [State.ackBarred, h1, h2, h3, h4, h5, Bool.not_true, Bool.or_self, Bool.false_and]

/-- OPERATION_ACK is its row of the table (R24, R109). -/
theorem exec_operationAck (col : Word) (csn : Nat) (programmed : Bool) (s : State) : exec (.operationAck col csn programmed) s = execOperationAck col csn programmed s := rfl

section
variable {col : Word} {csn : Nat} {programmed : Bool} {s t : State} {c : Collection} {o : Operation}

/-- An operation whose acknowledgement is barred only has its record noted. -/
theorem operationAck_barred (hc : s.coll col.toNat = some c) (ho : c.op csn = some o) (hb : s.ackBarred c (s.withRecord programmed o) = true) :
    exec (.operationAck col csn programmed) s = .next (s.putOp col.toNat csn (s.withRecord programmed o)) := by
  simp only [exec_operationAck, execOperationAck, hc, ho]
  exact congrArg Host.Outcome.next (if_pos hb)

/-- An operation that may be acknowledged is, and the command that waits for it is answered (R109). -/
theorem operationAck_given (hc : s.coll col.toNat = some c) (ho : c.op csn = some o) (hb : s.ackBarred c (s.withRecord programmed o) = false)
    (ht : t = (s.putOp col.toNat csn (s.withRecord programmed o)).acknowledge col.toNat csn (s.withRecord programmed o)) :
    exec (.operationAck col csn programmed) s = .next (match t.flight o.mbx o.tag with
      | some f => if f.work == .ackWait col.toNat csn then t.answer f .done (leBytes 4 (ackCount o.body) ++ zeros 4) csn else t
      | none => t) := by
  subst ht
  simp only [exec_operationAck, execOperationAck, hc, ho]
  exact congrArg Host.Outcome.next ((if_neg (Bool.eq_false_iff.mp hb)).trans rfl)

end

/-! #### OPERATION_APPLY -/

/-- OPERATION_APPLY is its row of the table (R110). -/
theorem exec_operationApply (col : Word) (done : Applied) (s : State) : exec (.operationApply col done) s = execOperationApply col done s := rfl

section
variable {col : Word} {csn : Nat} {tier : Bool} {s : State} {c : Collection} {o : Operation} {rows : Option Collection}

/-- An operation whose lookups meet a tier that fails or is late is delayed until 1 ms before the bound of R25 (R117). -/
theorem operationApply_late (hc : s.coll col.toNat = some c) (ho : c.op csn = some o) (hl : c.looksUp o = true) (ht : s.clock < o.ackTime + 4000000) :
    exec (.operationApply col ⟨csn, false⟩) s = .next s := by
  simp [exec_operationApply, execOperationApply, hc, ho, hl, ht]

/-- An operation that may be applied now has its rows placed: where they find no room appends wait, otherwise its marks and clamped elements are counted
(R110, R120). -/
theorem operationApply_due (hc : s.coll col.toNat = some c) (ho : c.op csn = some o) (ha : c.applicable o = true) (hs : s.serving = true)
    (hl : tier = true ∨ c.looksUp o = false ∨ o.ackTime + 4000000 ≤ s.clock) (hr : opStored o = 0 ∨ c.capped (opStored o) = false)
    (hp : s.placeRows true (fun _ => none)
      { (c.apply s.clock o).1 with deleteMisses := c.deleteMisses + (c.apply s.clock o).2.2.2, appendsWait := false } = rows) :
    exec (.operationApply col ⟨csn, tier⟩) s = .next
      (rows.elim (s.updColl col.toNat fun c => { c with appendsWait := true }) fun d =>
        let stored := (s.setColl d).countWrites c d
        let marked := if (c.apply s.clock o).2.1 = 0 then stored else stored.charge (ownerOf col.toNat) 0x60 (c.apply s.clock o).2.1
        if (c.apply s.clock o).2.2.1 = 0 then marked else marked.charge (ownerOf col.toNat) 0xA8 (c.apply s.clock o).2.2.1) := by
  have e1 : (!tier && c.looksUp o && decide (s.clock < o.ackTime + 4000000)) = false := by
    rcases hl with h | h | h
    · simp [h]
    · simp [h]
    · simp [Nat.not_lt.mpr h]
  have e2 : (opStored o != 0 && c.capped (opStored o)) = false := by
    rcases hr with h | h <;> simp [h]
  simp only [exec_operationApply, execOperationApply, hc, ho, ha, hs, e1, e2, Bool.not_false, Bool.and_self, if_true, hp]
  cases rows <;> rfl

end

/-! #### COMMIT_PUBLISH -/

/-- COMMIT_PUBLISH is its row of the table (R110). -/
theorem exec_commitPublish (col : Word) (s : State) : exec (.commitPublish col) s = execCommitPublish col s := rfl

/-- The gap-free sequence of applied operations begins at C (R110). -/
theorem committed_le_prefixEnd (c : Collection) (n : Nat) : c.committed ≤ c.prefixEnd n := by
  induction n with
  | zero => exact Nat.le_refl _
  | succ n ih =>
    simp only [Collection.prefixEnd]
    split
    · split <;> omega
    · exact ih

/-- Every CSN of that sequence above C belongs to an applied operation (R110). -/
theorem op_of_le_prefixEnd (c : Collection) {n k : Nat} (h1 : c.committed < k) (h2 : k ≤ c.prefixEnd n) : ∃ o, c.op k = some o ∧ o.applied = true := by
  induction n with
  | zero => exact absurd h2 (Nat.not_le.mpr h1)
  | succ n ih =>
    simp only [Collection.prefixEnd] at h2
    split at h2
    · next o ho =>
      split at h2
      · next ha =>
        rcases Nat.lt_or_eq_of_le h2 with h | rfl
        · exact ih (Nat.le_of_lt_succ h)
        · exact ⟨o, ho, ha⟩
      · exact ih h2
    · exact ih h2

section
variable {col : Word} {s : State} {c : Collection}

theorem commitPublish_none (hc : s.coll col.toNat = some c) (hp : c.prefixEnd c.ops.length = c.committed) : exec (.commitPublish col) s = .next s := by
  simp [exec_commitPublish, execCommitPublish, hc, hp]

/-- COMMIT_PUBLISH of an available collection moves C to the end of the gap-free sequence of applied operations, sends to the replicas and seals at the
boundary (R110, R111, R123, R438). -/
theorem commitPublish_advances {d : Collection} (hc : s.coll col.toNat = some c) (hp : c.committed < c.prefixEnd c.ops.length) (ha : c.availability = .ready)
    (hs : s.serving = true) (hd : d = ({ c with committed := c.prefixEnd c.ops.length } : Collection).noteCommit s.clock) :
    exec (.commitPublish col) s = .next ((d.replicas.foldl (fun s r => s.pumpReplica d r) (s.setColl d)).sealAtBoundary col.toNat) := by
  subst hd
  simp [exec_commitPublish, execCommitPublish, hc, hp, ha, hs]

end

/-- Settles O28: an acknowledgement is barred or given, an operation is late or due, and C moves to the end of the gap-free sequence or not at all. -/
theorem operationLife : Obligations.OperationLife := by
  unfold Obligations.OperationLife
  intro col s c hc
  refine ⟨fun csn o programmed ho => ?ack, fun csn o tier ho ha hs => ⟨?late, fun hl hr => ?due⟩, fun p hp => ?commit⟩
  case ack =>
    intro roomed o1 noted
    refine ⟨fun h => operationAck_barred hc ho (ackBarred_of_acked_or_unsafe h), fun h1 h2 h3 h4 => ?_⟩
    intro t acked
    have given := operationAck_given (t := t) hc ho (ackBarred_eq_false (o := s.withRecord programmed o) h1 h2 h3 h4) rfl
    refine ⟨fun items up hb he => ?vectors, fun items up hb he => ?text, fun hb => ?other, fun f hf hw => ?answered, fun hw => ?silent⟩
    case vectors => exact acknowledge_encoded noted (o := o1) hb he
    case text => exact acknowledge_text noted (o := o1) hb he
    case other => exact acknowledge_other noted (o := o1) hb
    case answered => rw [given, hf]; simp [hw]
    case silent =>
      rw [given]
      cases hf : t.flight o.mbx o.tag with
      | none => rfl
      | some f => simp [hw f hf]
  case late => rintro rfl hl ht; exact operationApply_late hc ho hl ht
  case due =>
    intro r rows
    exact ⟨operationApply_due hc ho ha hs hl hr, fun d => operationApply_due hc ho ha hs hl hr⟩
  case commit =>
    subst hp
    exact ⟨committed_le_prefixEnd c _, fun n => op_of_le_prefixEnd c, fun hp => commitPublish_none hc hp,
      fun hp ha hs => ⟨rfl, rfl, commitPublish_advances hc hp ha hs rfl⟩⟩

end Sys2Proof.Machine

/-! ### Proofs: crews, tiles and bridges (O35) -/

namespace Sys2Proof.Machine

/-! #### A class's queue -/

/-- CREW_FORM is its row of the table (R247). -/
theorem exec_crewForm (cls : Fin 64) (s : State) : exec (.crewForm cls) s = execCrewForm cls s := rfl

/-- CREW_QUEUE_TIMEOUT is its row of the table (R248). -/
theorem exec_crewQueueTimeout (cls : Fin 64) (s : State) : exec (.crewQueueTimeout cls) s = execCrewQueueTimeout cls s := rfl

section
variable {cls : Fin 64} {s t : State} {w : CrewWait} {f : Flight}

theorem crewForm_none (h : s.tiles.queue.find? (·.cls == cls.val) = none) : exec (.crewForm cls) s = .next s := by
  simp only [exec_crewForm, execCrewForm, h]

theorem crewQueueTimeout_none (h : s.tiles.queue.find? (·.cls == cls.val) = none) : exec (.crewQueueTimeout cls) s = .next s := by
  simp only [exec_crewQueueTimeout, execCrewQueueTimeout, h]

/-- Where no crew is free the first command in the queue goes on waiting (R247). -/
theorem crewForm_busy (h : s.tiles.queue.find? (·.cls == cls.val) = some w) (hf : s.formCrew cls.val w.leadPages w.mbx w.tag w.tiles = none) :
    exec (.crewForm cls) s = .next s := by
  simp only [exec_crewForm, execCrewForm, h, hf]

/-- The first command in the queue leaves it with its crew, and its own row runs again (R248). -/
theorem crewForm_formed (h : s.tiles.queue.find? (·.cls == cls.val) = some w) (hf : s.formCrew cls.val w.leadPages w.mbx w.tag w.tiles = some t) :
    exec (.crewForm cls) s =
      .next ((({ t with tiles.queue := t.tiles.queue.erase w } : State).noteWait w).updFlight w.mbx w.tag fun f => { f with work := .admitted }) := by
  simp only [exec_crewForm, execCrewForm, h, hf]

theorem crewQueueTimeout_early (h : s.tiles.queue.find? (·.cls == cls.val) = some w) (ht : s.clock < w.since + 200000) :
    exec (.crewQueueTimeout cls) s = .next s := by
  simp only [exec_crewQueueTimeout, execCrewQueueTimeout, h, Nat.not_le.mpr ht, if_false]

/-- After 200 µs the first command in the queue is answered BUSY_RETRY (R248). -/
theorem crewQueueTimeout_due (h : s.tiles.queue.find? (·.cls == cls.val) = some w) (ht : w.since + 200000 ≤ s.clock) (hf : s.flight w.mbx w.tag = some f) :
    exec (.crewQueueTimeout cls) s = .next ((s.noteWait w).answerDetail f (busyRetry (s.meanWaitUs cls.val))) := by
  simp only [exec_crewQueueTimeout, execCrewQueueTimeout, h, ht, hf, if_true]

end

/-! #### The members of a crew -/

/-- WORK_STEAL is its row of the table (R229). -/
theorem exec_workSteal (m : Mbx) (tag : Word) (tile : Fin 4096) (s : State) : exec (.workSteal m tag tile) s = execWorkSteal m tag tile s := rfl

/-- SLOW_MEMBER is its row of the table (R230). -/
theorem exec_slowMember (m : Mbx) (tag : Word) (pace : MemberPace) (s : State) : exec (.slowMember m tag pace) s = execSlowMember m tag pace s := rfl

section
variable {m : Mbx} {tag : Word} {tile : Fin 4096} {s : State} {c : Crew} {v : Nat}

/-- An idle member in service takes half of the victim's queue, rounded up (R229). -/
theorem workSteal_moves (hc : s.crewFor m.key tag = some c) (hm : tile.val ∈ c.members) (hq : c.queued tile.val = 0) (hs : tile.val ∉ c.slow)
    (ha : s.tileActive tile.val = true) (hv : c.victim tile.val = some v) :
    exec (.workSteal m tag tile) s = .next (s.updCrew m.key tag fun k =>
      { k with queues := (k.queues.put v (k.queued v - (c.queued v + 1) / 2)).put tile.val ((c.queued v + 1) / 2) }) := by
  simp [exec_workSteal, execWorkSteal, hc, hm, hq, hs, ha, hv]

/-- A member that is busy, slow or out of service, or finds no victim, steals nothing (R229, R230, R252). -/
theorem workSteal_none (hc : s.crewFor m.key tag = some c)
    (h : tile.val ∉ c.members ∨ c.queued tile.val ≠ 0 ∨ tile.val ∈ c.slow ∨ s.tileActive tile.val = false ∨ c.victim tile.val = none) :
    exec (.workSteal m tag tile) s = .next s := by
  simp only [exec_workSteal, execWorkSteal, hc]
  rcases h with h | h | h | h | h <;> simp [h]

/-- A member that lags for the first time takes no new items, and its tile is named slow (R230, R441). -/
theorem slowMember_marks {rates : List (Fin 4096 × Nat)} (hc : s.crewFor m.key tag = some c) (hm : tile.val ∈ c.members) (hs : tile.val ∉ c.slow)
    (hl : c.lags (fun t => ((rates.find? fun r => r.1.val == t).map (·.2)).getD 0) tile.val = true) :
    exec (.slowMember m tag ⟨tile, rates⟩) s = .next (let u := s.updCrew m.key tag fun c => { c with slow := tile.val :: c.slow }
      { u with tiles.slowNamed := (tile.val, s.clock) :: s.tiles.slowNamed.filter fun x => s.clock < x.2 + 1000000000 }) := by
  have e : (c.members.contains tile.val && !c.slow.contains tile.val &&
      c.lags (fun t => ((rates.find? fun r => r.1.val == t).map (·.2)).getD 0) tile.val) = true := by simp [hm, hs, hl]
  simp only [exec_slowMember, execSlowMember, hc, e, if_true]
  rfl

theorem slowMember_none {rates : List (Fin 4096 × Nat)} (hc : s.crewFor m.key tag = some c)
    (h : tile.val ∉ c.members ∨ tile.val ∈ c.slow ∨ c.lags (fun t => ((rates.find? fun r => r.1.val == t).map (·.2)).getD 0) tile.val = false) :
    exec (.slowMember m tag ⟨tile, rates⟩) s = .next s := by
  simp only [exec_slowMember, execSlowMember, hc]
  rcases h with h | h | h <;> simp [h]

end

/-! #### Suspect tiles -/

/-- SUSPECT_TILE is its row of the table (R441). -/
theorem exec_suspectTile (tile : Fin 4096) (s : State) : exec (.suspectTile tile) s = execSuspectTile tile s := rfl

/-- SUSPECT_TILE_EXPIRE is its row of the table (R441). -/
theorem exec_suspectTileExpire (tile : Fin 4096) (s : State) : exec (.suspectTileExpire tile) s = execSuspectTileExpire tile s := rfl

section
variable {tile : Fin 4096} {s : State} {t : Nat}

/-- A tile named slow in 16 commands within 1 s takes no new membership for ten minutes (R441). -/
theorem suspectTile_marks (hn : 16 ≤ (s.tiles.slowNamed.filter fun x => x.1 == tile.val && s.clock < x.2 + 1000000000).length)
    (hf : s.tiles.suspect.find tile.val = none) : exec (.suspectTile tile) s =
      .next (({ s with tiles.suspect := s.tiles.suspect.put tile.val (s.clock + 600000000000) } : State).logKind 8 tile.val) := by
  simp only [exec_suspectTile, execSuspectTile, hn, hf, Option.isNone_none, decide_true, Bool.and_self, if_true]

theorem suspectTile_few (hn : (s.tiles.slowNamed.filter fun x => x.1 == tile.val && s.clock < x.2 + 1000000000).length < 16) :
    exec (.suspectTile tile) s = .next s := by
  simp only [exec_suspectTile, execSuspectTile, Nat.not_le.mpr hn, decide_false, Bool.false_and, Bool.false_eq_true, if_false]

theorem suspectTileExpire_due (h : s.tiles.suspect.find tile.val = some t) (ht : t ≤ s.clock) :
    exec (.suspectTileExpire tile) s = .next { s with tiles.suspect := s.tiles.suspect.del tile.val } := by
  simp only [exec_suspectTileExpire, execSuspectTileExpire, h, ht, if_true]

theorem suspectTileExpire_early (h : s.tiles.suspect.find tile.val = some t) (ht : s.clock < t) : exec (.suspectTileExpire tile) s = .next s := by
  simp only [exec_suspectTileExpire, execSuspectTileExpire, h, Nat.not_le.mpr ht, if_false]

end

/-! #### Tiles that fail, retire and are substituted -/

/-- TILE_FAILED is its row of the table (R252). -/
theorem exec_tileFailed (tile : Fin 4096) (loss : TileLoss) (s : State) : exec (.tileFailed tile loss) s = execTileFailed tile loss s := rfl

/-- TILE_RETIRE is its row of the table (R252). -/
theorem exec_tileRetire (tile : Fin 4096) (s : State) : exec (.tileRetire tile) s = execTileRetire tile s := rfl

/-- SPARE_SUBSTITUTED is its row of the table (R253). -/
theorem exec_spareSubstituted (tile : Fin 4096) (s : State) : exec (.spareSubstituted tile) s = execSpareSubstituted tile s := rfl

/-- Logging leaves the tiles alone. -/
@[simp] theorem log_tiles (e : LogEntry) (s : State) : (s.log e).tiles = s.tiles := by
  unfold State.log
  split
  · dsimp only
    split <;> rfl
  · rfl

/-- Logging a unit failure leaves the crews of a tile alone. -/
theorem logUnit_crewsOn (n t : Nat) (s : State) : (s.logUnit n).crewsOn t = s.crewsOn t := by
  simp only [State.crewsOn, State.logUnit, log_tiles]

/-- A tile that is in service or retiring. -/
def State.tileWorks (t : Nat) (s : State) : Prop := s.tiles.state.find t = none ∨ s.tiles.state.find t = some .retiring

/-- A corrected error that a tile reports is kept for an hour (R252). -/
def State.noteCorrected (t : Nat) (s : State) : State :=
  { s with tiles.corrected := (t, s.clock) :: s.tiles.corrected.filter fun x => s.clock < x.2 + 3600000000000 }

@[simp] theorem noteCorrected_crewsOn (t n : Nat) (s : State) : (s.noteCorrected n).crewsOn t = s.crewsOn t := rfl

/-- The corrected errors of a tile that are kept. -/
def State.correctedCount (t : Nat) (s : State) : Nat := (s.tiles.corrected.filter (·.1 == t)).length

section
variable {tile : Fin 4096} {s : State} {cause : TileFault} {lost : List (Mbx × Word)} {q t : Nat}

/-- A tile that fails leaves its crews and is substituted (R252, R254). -/
theorem tileFailed_holds (h : s.tileWorks tile.val) (hf : s.faultHolds cause = true) : exec (.tileFailed tile ⟨cause, lost⟩) s =
    .next (((s.logUnit tile.val).loseMember tile.val (lost.map fun x => (x.1.key, x.2))).substitute tile.val) := by
  rcases h with h | h <;> simp only [exec_tileFailed, execTileFailed, h, hf, if_true]

/-- What R252 does not count as a failure changes nothing. -/
theorem tileFailed_not (h : s.tileWorks tile.val) (hf : s.faultHolds cause = false) : exec (.tileFailed tile ⟨cause, lost⟩) s = .next s := by
  rcases h with h | h <;> simp only [exec_tileFailed, execTileFailed, h, hf, Bool.false_eq_true, if_false]

/-- A tile that is being substituted or is gone does not fail again. -/
theorem tileFailed_out (h : (∃ q t, s.tiles.state.find tile.val = some (.substituting q t)) ∨ s.tiles.state.find tile.val = some .gone) :
    exec (.tileFailed tile ⟨cause, lost⟩) s = .next s := by
  rcases h with ⟨q, t, h⟩ | h <;> simp only [exec_tileFailed, execTileFailed, h]

theorem tileRetire_few (h : s.tiles.state.find tile.val = none) (hn : (s.noteCorrected tile.val).correctedCount tile.val < 16) :
    exec (.tileRetire tile) s = .next (s.noteCorrected tile.val) := by
  simp only [exec_tileRetire, execTileRetire, h]
  exact congrArg Host.Outcome.next (if_neg (Nat.not_le.mpr hn))

/-- At the sixteenth corrected error within an hour a tile with memberships takes no new items (R252). -/
theorem tileRetire_serving (h : s.tiles.state.find tile.val = none) (hn : 16 ≤ (s.noteCorrected tile.val).correctedCount tile.val)
    (hc : s.crewsOn tile.val ≠ []) : exec (.tileRetire tile) s =
      .next (let v := (s.noteCorrected tile.val).logUnit tile.val; { v with tiles.state := v.tiles.state.put tile.val .retiring }) := by
  have e : (((s.noteCorrected tile.val).logUnit tile.val).crewsOn tile.val).isEmpty = false := by
    simpa [logUnit_crewsOn] using hc
  simp only [exec_tileRetire, execTileRetire, h]
  exact congrArg Host.Outcome.next ((if_pos hn).trans (if_neg (Bool.eq_false_iff.mp e)))

/-- At the sixteenth corrected error within an hour a tile without memberships is substituted at once (R252). -/
theorem tileRetire_idle (h : s.tiles.state.find tile.val = none) (hn : 16 ≤ (s.noteCorrected tile.val).correctedCount tile.val)
    (hc : s.crewsOn tile.val = []) : exec (.tileRetire tile) s = .next (((s.noteCorrected tile.val).logUnit tile.val).substitute tile.val) := by
  have e : (((s.noteCorrected tile.val).logUnit tile.val).crewsOn tile.val).isEmpty = true := by
    simpa [logUnit_crewsOn] using hc
  simp only [exec_tileRetire, execTileRetire, h]
  exact congrArg Host.Outcome.next ((if_pos hn).trans (if_pos e))

/-- A retiring tile is substituted once its last membership is done (R252). -/
theorem retiring_done (h : s.tiles.state.find tile.val = some .retiring) (hc : s.crewsOn tile.val = []) :
    exec (.tileRetire tile) s = .next ((s.noteCorrected tile.val).substitute tile.val) ∧ exec (.spareSubstituted tile) s = .next (s.substitute tile.val) := by
  have e : (s.crewsOn tile.val).isEmpty = true := by simpa using hc
  constructor
  · simp only [exec_tileRetire, execTileRetire, h]
    exact congrArg Host.Outcome.next (if_pos e)
  · simp only [exec_spareSubstituted, execSpareSubstituted, h, e, if_true]

/-- A retiring tile that still has memberships stays as it is (R252). -/
theorem retiring_serving (h : s.tiles.state.find tile.val = some .retiring) (hc : s.crewsOn tile.val ≠ []) :
    exec (.tileRetire tile) s = .next (s.noteCorrected tile.val) ∧ exec (.spareSubstituted tile) s = .next s := by
  have e : (s.crewsOn tile.val).isEmpty = false := by simpa using hc
  constructor
  · simp only [exec_tileRetire, execTileRetire, h]
    exact congrArg Host.Outcome.next (if_neg (Bool.eq_false_iff.mp e))
  · simp only [exec_spareSubstituted, execSpareSubstituted, h, e, Bool.false_eq_true, if_false]

/-- 45 µs after the failure the spare has the logical number (R253, Table 9-5). -/
theorem spareSubstituted_loaded (h : s.tiles.state.find tile.val = some (.substituting q t)) (ht : t + 45000 ≤ s.clock) :
    exec (.spareSubstituted tile) s = .next { s with
      tiles.map := s.tiles.map.put tile.val q, tiles.state := s.tiles.state.del tile.val, tiles.corrected := s.tiles.corrected.filter (·.1 != tile.val) } := by
  simp only [exec_spareSubstituted, execSpareSubstituted, h, ht, if_true]

theorem spareSubstituted_early (h : s.tiles.state.find tile.val = some (.substituting q t)) (ht : s.clock < t + 45000) :
    exec (.spareSubstituted tile) s = .next s := by
  simp only [exec_spareSubstituted, execSpareSubstituted, h, Nat.not_le.mpr ht, if_false]

end

/-! #### Bridges -/

section
variable {b : Fin 28} {carried : List (Mbx × Word)} {s u : State}

/-- A flit that exhausts its retries ends the commands whose data it carried, and takes a link that is up down (R17). -/
theorem flitRetryExhausted_up (hu : u = carried.foldl (fun s x => match s.flight x.1.key x.2 with
      | some f => s.dataLost f
      | none => s) s) (hb : b.val ∉ u.tiles.bridgesDown) :
    exec (.flitRetryExhausted b carried) s = .next (({ u with
      tiles.bridgesDown := b.val :: u.tiles.bridgesDown, tiles.rerouting := b.val :: u.tiles.rerouting } : State).logUnit b.val) := by
  subst hu
  exact congrArg Host.Outcome.next (if_neg (mt List.contains_iff_mem.mp hb))

theorem flitRetryExhausted_down (hu : u = carried.foldl (fun s x => match s.flight x.1.key x.2 with
      | some f => s.dataLost f
      | none => s) s) (hb : b.val ∈ u.tiles.bridgesDown) : exec (.flitRetryExhausted b carried) s = .next u := by
  subst hu
  exact congrArg Host.Outcome.next (if_pos (List.contains_iff_mem.mpr hb))

end

/-- Settles O35: each row by the case of its table that holds. -/
theorem tiles : Obligations.Tiles := by
  unfold Obligations.Tiles
  intro cls tile b m tag s
  refine ⟨fun h => ⟨crewForm_none h, crewQueueTimeout_none h⟩, fun w h => ?queue, fun c hc => ?crew, ⟨suspectTile_marks, suspectTile_few⟩,
    fun t h => ⟨suspectTileExpire_due h, suspectTileExpire_early h⟩,
    fun cause lost => ⟨fun h => ⟨tileFailed_holds h, tileFailed_not h⟩, tileFailed_out⟩,
    ⟨fun h => ⟨tileRetire_few h, tileRetire_serving h, tileRetire_idle h⟩, fun h => ⟨retiring_done h, retiring_serving h⟩⟩,
    fun q t h => ⟨spareSubstituted_loaded h, spareSubstituted_early h⟩,
    fun carried => ⟨flitRetryExhausted_up rfl, flitRetryExhausted_down rfl⟩, rfl⟩
  case queue => exact ⟨crewForm_busy h, fun t => crewForm_formed h, crewQueueTimeout_early h, fun f => crewQueueTimeout_due h⟩
  case crew => exact ⟨fun v hm hq hs ha hv => ⟨workSteal_moves hc hm hq hs ha hv, by omega⟩, workSteal_none hc,
    fun rates => ⟨slowMember_marks hc, slowMember_none hc⟩⟩

end Sys2Proof.Machine

/-! ### Proofs: log peers and replicas (O47) -/

namespace Sys2Proof.Machine

/-! #### How a row that takes a message begins -/

/-- Take a message and do `k` with it: nothing where none waits or the module does not serve, a partner violation where its layout is broken. -/
def State.onMessage (type : Nat) (kinds : List Nat) (ok : Inbound → State → Bool) (k : Inbound → State → State) (s : State) : State :=
  match s.takeMessage type kinds with
  | none => s
  | some (x, u) => if !u.serving then u else if ok x u then k x u else u.partnerViolation x.port x.src

section
variable {i : Instr} {s u : State} {x : Inbound} {type : Nat} {kinds : List Nat} {ok : Inbound → State → Bool} {k : Inbound → State → State}

/-- What a row that takes a message does where it makes no use of one. -/
theorem turnedAway_of_onMessage (h : exec i s = .next (s.onMessage type kinds ok k)) :
    (s.takeMessage type kinds = none → exec i s = .next s) ∧
    (∀ x u, s.takeMessage type kinds = some (x, u) → u.serving = false → exec i s = .next u) ∧
    (∀ x u, s.takeMessage type kinds = some (x, u) → u.serving = true → ok x u = false → exec i s = .next (u.partnerViolation x.port x.src)) := by
  rw [h]
  refine ⟨fun hm => ?_, fun x u hm hs => ?_, fun x u hm hs hok => ?_⟩
  · simp only [State.onMessage, hm]
  · simp only [State.onMessage, hm, hs, Bool.not_false, if_true]
  · simp only [State.onMessage, hm, hs, hok, Bool.not_true, Bool.false_eq_true, if_false]

/-- What a row does with a well-formed message. -/
theorem taken_of_onMessage (h : exec i s = .next (s.onMessage type kinds ok k)) (hm : s.takeMessage type kinds = some (x, u)) (hs : u.serving = true)
    (hok : ok x u = true) : exec i s = .next (k x u) := by
  rw [h]
  simp only [State.onMessage, hm, hs, hok, Bool.not_true, Bool.false_eq_true, if_false, if_true]

end

/-! #### LOG_RECORD -/

/-- A source becomes known. -/
def State.noteSource (n : Nat) (s : State) : State := if s.comp.sources.contains n then s else { s with comp.sources := s.comp.sources ++ [n] }

/-- The record of a LOG_RECORD is held. -/
def State.holdRecord (x : Inbound) (s : State) : State :=
  if s.heldRecord x.src (field x.body 4 4) (field x.body 8 8) then s
  else { s with comp.records := s.comp.records ++
    [{ source := x.src, collection := field x.body 4 4, csn := field x.body 8 8, record := x.body.drop 24 }] }

/-- The record of a LOG_RECORD is confirmed to its source. -/
def State.confirmRecord (x : Inbound) (s : State) : State :=
  s.post x.src 0x20 4 x.tenant false (logMessage 2 (field x.body 4 4) (field x.body 8 8) x.src [])

/-- A record finds no room: the 16 GiB of its source are full, or the log buffer is (R386, R435). -/
def State.recordRefused (x : Inbound) (s : State) : Bool :=
  decide (2 ^ 34 < s.heldBytes x.src + x.body.length) || !s.logRoom (x.body.length - 24)

/-- What is done with a LOG_RECORD. -/
def State.takeLogRecord (x : Inbound) (s : State) : State :=
  if !s.comp.sources.contains x.src && decide (2 ≤ s.comp.sources.length) then s
  else if !s.heldRecord x.src (field x.body 4 4) (field x.body 8 8) && s.recordRefused x then s
  else ((s.noteSource x.src).holdRecord x).confirmRecord x

theorem exec_logRecord (s : State) : exec .logRecord s =
    .next (s.onMessage 0x20 [1] (fun x _ => logFaultless x.body && field x.body 0x10 2 == x.src) State.takeLogRecord) := rfl

section
variable {x : Inbound} {u : State}

/-- The sources with one more, as the list of them reads afterwards. -/
theorem noteSource_eq (n : Nat) (s : State) :
    s.noteSource n = { s with comp.sources := if s.comp.sources.contains n then s.comp.sources else s.comp.sources ++ [n] } := by
  unfold State.noteSource
  split <;> rfl

@[simp] theorem noteSource_heldRecord (n src coll csn : Nat) (s : State) : (s.noteSource n).heldRecord src coll csn = s.heldRecord src coll csn := by
  rw [noteSource_eq]; rfl

@[simp] theorem noteSource_records (n : Nat) (s : State) : (s.noteSource n).comp.records = s.comp.records := by
  rw [noteSource_eq]

/-- A third source is neither held nor confirmed (R435). -/
theorem takeLogRecord_third (h1 : x.src ∉ u.comp.sources) (h2 : 2 ≤ u.comp.sources.length) : u.takeLogRecord x = u :=
  if_pos (by simp [h1, h2])

/-- A record of a source that has its area is weighed (R386, R435). -/
theorem takeLogRecord_area (h : x.src ∈ u.comp.sources ∨ u.comp.sources.length < 2) : u.takeLogRecord x =
    if !u.heldRecord x.src (field x.body 4 4) (field x.body 8 8) && u.recordRefused x then u else ((u.noteSource x.src).holdRecord x).confirmRecord x :=
  if_neg (by simpa [or_iff_not_imp_left] using h)

/-- A record that is held is confirmed again (R435). -/
theorem takeLogRecord_again (h : x.src ∈ u.comp.sources ∨ u.comp.sources.length < 2) (hh : u.heldRecord x.src (field x.body 4 4) (field x.body 8 8) = true) :
    u.takeLogRecord x = (u.noteSource x.src).confirmRecord x := by
  have e : (u.noteSource x.src).holdRecord x = u.noteSource x.src := if_pos (by simpa using hh)
  rw [takeLogRecord_area h, if_neg (by simp [hh]), e]

/-- A record without room is neither held nor confirmed (R386, R435). -/
theorem takeLogRecord_full (h : x.src ∈ u.comp.sources ∨ u.comp.sources.length < 2) (hh : u.heldRecord x.src (field x.body 4 4) (field x.body 8 8) = false)
    (hr : 2 ^ 34 < u.heldBytes x.src + x.body.length ∨ u.logRoom (x.body.length - 24) = false) : u.takeLogRecord x = u := by
  rw [takeLogRecord_area h, if_pos (by simpa [hh, State.recordRefused] using hr)]

/-- A new record with room is held and confirmed (R435). -/
theorem takeLogRecord_new (h : x.src ∈ u.comp.sources ∨ u.comp.sources.length < 2) (hh : u.heldRecord x.src (field x.body 4 4) (field x.body 8 8) = false)
    (hb : u.heldBytes x.src + x.body.length ≤ 2 ^ 34) (hr : u.logRoom (x.body.length - 24) = true) :
    u.takeLogRecord x = ({ u.noteSource x.src with comp.records := u.comp.records ++
      [{ source := x.src, collection := field x.body 4 4, csn := field x.body 8 8, record := x.body.drop 24 }] } : State).confirmRecord x := by
  have e : u.recordRefused x = false := by simpa [State.recordRefused, hr] using hb
  rw [takeLogRecord_area h, if_neg (by simp [e]), State.holdRecord, if_neg (by simp [hh]), noteSource_records]

end

/-! #### LOG_CONFIRM, LOG_RECORD_RESEND, LOG_RELEASE and LOG_FETCH -/

/-- What is done with a LOG_CONFIRM: its sender is reached, and what a log peer confirms is noted at the operation (R24, R435). -/
def State.takeLogConfirm (x : Inbound) (s : State) : State :=
  let reached : State := { s with comp.unreached := s.comp.unreached.filter (· != x.src) }
  if reached.logPeers.contains x.src then
    (reached.updColl (field x.body 4 4) fun c => c.updOp (field x.body 8 8) fun o =>
      if o.confirmed.contains x.src then o else { o with confirmed := x.src :: o.confirmed }).settlePeers
  else reached

theorem exec_logConfirm (s : State) : exec .logConfirm s =
    .next (s.onMessage 0x20 [2] (fun x u => logFaultless x.body && field x.body 0x10 2 == u.nodeId) State.takeLogConfirm) := rfl

/-- The records of a source and collection up to a CSN are dropped (R436). -/
def State.takeLogRelease (x : Inbound) (s : State) : State :=
  { s with comp.records := s.comp.records.filter fun r =>
      !(r.source == x.src && r.collection == field x.body 4 4 && decide (r.csn ≤ field x.body 8 8)) }

theorem exec_logRelease (s : State) : exec .logRelease s =
    .next (s.onMessage 0x20 [3] (fun x _ => logFaultless x.body && field x.body 0x10 2 == x.src) State.takeLogRelease) := rfl

/-- The records above a CSN go to the module that asks in CSN order, and then FETCH_END (R439). -/
def State.takeLogFetch (x : Inbound) (s : State) : State :=
  let hits := sortBy (s.comp.records.filter fun r => r.source == field x.body 0x10 2 && r.collection == field x.body 4 4 && decide (field x.body 8 8 < r.csn))
    fun r q => decide (r.csn ≤ q.csn)
  (hits.foldl (fun (v : State) r => v.post x.src 0x20 4 (ownerOf (field x.body 4 4)) false
    (logMessage 5 (field x.body 4 4) r.csn (field x.body 0x10 2) r.record)) s).post x.src 0x20 4 (ownerOf (field x.body 4 4)) false
      (logMessage 6 (field x.body 4 4) 0 (field x.body 0x10 2) [])

theorem exec_logFetch (s : State) : exec .logFetch s = .next (s.onMessage 0x20 [4] (fun x _ => logFaultless x.body) State.takeLogFetch) := rfl

/-- LOG_RECORD_RESEND is its row of the table (Table 16-8). -/
theorem exec_logRecordResend (id : Word) (csn : Nat) (p : Half) (s : State) : exec (.logRecordResend id csn p) s = execLogRecordResend id csn p s := rfl

section
variable {id : Word} {csn : Nat} {p : Half} {s : State} {c : Collection} {o : Operation}

theorem logRecordResend_none (h : (s.coll id.toNat).bind (fun c => c.op csn) = none) : exec (.logRecordResend id csn p) s = .next s := by
  simp only [exec_logRecordResend, execLogRecordResend, h]

/-- A record that a log peer has not confirmed within 100 µs is sent to it again (Table 16-8). -/
theorem logRecordResend_due (hc : s.coll id.toNat = some c) (ho : c.op csn = some o) (hp : p.toNat ∈ s.logPeers) (hn : p.toNat ∉ o.confirmed)
    (hs : s.serving = true) (ht : o.sentAt + 100000 ≤ s.clock) : exec (.logRecordResend id csn p) s =
      .next ((s.updColl id.toNat fun c => c.updOp csn fun o => { o with sentAt := s.clock }).shipRecord [p.toNat] id.toNat o) := by
  have e : (s.logPeers.contains p.toNat && !o.confirmed.contains p.toNat && decide (o.sentAt + 100000 ≤ s.clock) && s.serving) = true := by
    simp [hp, hn, hs, ht]
  simp only [exec_logRecordResend, execLogRecordResend, hc, Option.bind_some, ho, e, if_true]

/-- No record is sent again early, to another module, after its confirmation, or by a module that does not serve (Table 16-8). -/
theorem logRecordResend_not_due (hc : s.coll id.toNat = some c) (ho : c.op csn = some o)
    (h : p.toNat ∉ s.logPeers ∨ p.toNat ∈ o.confirmed ∨ s.serving = false ∨ s.clock < o.sentAt + 100000) :
    exec (.logRecordResend id csn p) s = .next s := by
  have e : (s.logPeers.contains p.toNat && !o.confirmed.contains p.toNat && decide (o.sentAt + 100000 ≤ s.clock) && s.serving) = false := by
    rcases h with h | h | h | h <;> simp [h]
  simp only [exec_logRecordResend, execLogRecordResend, hc, Option.bind_some, ho, e, Bool.false_eq_true, if_false]

end

/-- What LOG_RELEASE keeps (R436). -/
theorem mem_takeLogRelease {x : Inbound} {u : State} {r : HeldRecord} : r ∈ (u.takeLogRelease x).comp.records ↔
    r ∈ u.comp.records ∧ ¬(r.source = x.src ∧ r.collection = field x.body 4 4 ∧ r.csn ≤ field x.body 8 8) := by
  simp only [State.takeLogRelease, List.mem_filter, Bool.not_eq_true', ← Bool.not_eq_true, Bool.and_eq_true, beq_iff_eq, decide_eq_true_eq, and_assoc]

/-! #### FETCH_DATA -/

/-- The fetch that a message of a log peer answers (R439). -/
def State.fetchOf (x : Inbound) (s : State) : Option (Nat × ShardFetch) :=
  s.comp.fetching.find? fun e => e.1 % 2 ^ 32 == field x.body 4 4 && e.2.peers.contains x.src && e.2.source == field x.body 0x10 2

/-- A fetch with one record more. -/
def ShardFetch.add (x : Inbound) (y : ShardFetch) : ShardFetch :=
  { y with got := y.got ++ [{ source := y.source, collection := field x.body 4 4, csn := field x.body 8 8, record := x.body.drop 24 }], by_ := y.by_ ++ [x.src] }

/-- A fetch that a log peer has ended. -/
def ShardFetch.endOf (n : Nat) (y : ShardFetch) : ShardFetch := { y with ended := n :: y.ended.filter (· != n) }

/-- What is done with a FETCH_DATA or FETCH_END (R439). -/
def State.takeFetchData (x : Inbound) (s : State) : State :=
  match s.fetchOf x with
  | none => s
  | some (key, y) =>
    if field x.body 0 1 = 5 then { s with comp.fetching := s.comp.fetching.put key (y.add x) }
    else if y.peers.all (y.endOf x.src).ended.contains then
      ({ s with comp.fetching := s.comp.fetching.del key } : State).applyFetched key (y.endOf x.src) (s.openRecords key (y.endOf x.src)) y.got.length
    else { s with comp.fetching := s.comp.fetching.put key (y.endOf x.src) }

theorem exec_fetchData (s : State) : exec .fetchData s = .next (s.onMessage 0x20 [5, 6] (fun x _ => logFaultless x.body) State.takeFetchData) := rfl

section
variable {x : Inbound} {u : State} {key : Nat} {y : ShardFetch}

/-- A log peer has ended once another has, or it is the one that ends now. -/
theorem mem_endOf_ended {n p : Nat} : p ∈ (y.endOf n).ended ↔ p = n ∨ p ∈ y.ended := by
  by_cases h : p = n <;> simp [ShardFetch.endOf, h]

theorem takeFetchData_unasked (h : u.fetchOf x = none) : u.takeFetchData x = u := by
  simp only [State.takeFetchData, h]

/-- A record that is asked for is gathered (R439). -/
theorem takeFetchData_record (h : u.fetchOf x = some (key, y)) (hk : field x.body 0 1 = 5) :
    u.takeFetchData x = { u with comp.fetching := u.comp.fetching.put key (y.add x) } := by
  simp only [State.takeFetchData, h, hk, if_true]

/-- Where another log peer has not ended, the end of one is noted (R439). -/
theorem takeFetchData_end (h : u.fetchOf x = some (key, y)) (hk : field x.body 0 1 ≠ 5) (hp : ∃ p ∈ y.peers, p ≠ x.src ∧ p ∉ y.ended) :
    u.takeFetchData x = { u with comp.fetching := u.comp.fetching.put key (y.endOf x.src) } := by
  have e : y.peers.all (y.endOf x.src).ended.contains = false := by
    simpa [mem_endOf_ended] using hp
  simp only [State.takeFetchData, h, hk, e, Bool.false_eq_true, if_false]

/-- Once every log peer has ended, what they sent is opened and applied (R439). -/
theorem takeFetchData_last (h : u.fetchOf x = some (key, y)) (hk : field x.body 0 1 ≠ 5) (hp : ∀ p ∈ y.peers, p = x.src ∨ p ∈ y.ended) :
    u.takeFetchData x = ({ u with comp.fetching := u.comp.fetching.del key } : State).applyFetched key (y.endOf x.src)
      (u.openRecords key (y.endOf x.src)) y.got.length := by
  have e : y.peers.all (y.endOf x.src).ended.contains = true := by
    simpa [mem_endOf_ended] using hp
  simp only [State.takeFetchData, h, hk, e, if_true, if_false]

/-- A CSN that one of the log peers has not sent has no record (R439). -/
theorem both_none_of_lacking {csn : Nat} (h : ∃ p ∈ y.peers, ∀ e ∈ y.got.zip y.by_, e.1.csn = csn → e.2 ≠ p) : y.both csn = none := by
  obtain ⟨p, hp, hl⟩ := h
  refine if_neg fun ha => ?_
  obtain ⟨e, he, hx⟩ := List.any_eq_true.mp (List.all_eq_true.mp ha p hp)
  simp only [Bool.and_eq_true, beq_iff_eq] at hx
  exact hl e he hx.1 hx.2

/-- Applying stops at the first CSN that a log peer lacks or whose record does not open (R439). -/
theorem applyFetched_stops {s : State} {c : Collection} {opened : List (Nat × Bytes)} (n : Nat) (hc : s.coll key = some c)
    (h : y.both (c.committed + 1) = none ∨ opened.find? (·.1 == c.committed + 1) = none) : s.applyFetched key y opened (n + 1) = s := by
  rcases h with h | h <;> simp [State.applyFetched, hc, h]

/-- A record that every log peer has sent, and that opens, is applied, and the next CSN follows (R439). -/
theorem applyFetched_applies {s : State} {c d : Collection} {opened : List (Nat × Bytes)} {r : Bytes} {e : Nat × Bytes} {body : OpBody} (n : Nat)
    (hc : s.coll key = some c) (hr : y.both (c.committed + 1) = some r) (he : opened.find? (·.1 == c.committed + 1) = some e)
    (hb : recordOp c.desc e.2 = some body)
    (hd : s.placeRows true (fun _ => none) {
        c.replay s.clock (s.encodeAll c { csn := c.committed + 1, body := body, mbx := 0, tag := 0, encoded := true, acked := true }) with
        committed := c.committed + 1, assigned := c.committed + 1 } = some d) :
    s.applyFetched key y opened (n + 1) = ((s.setColl d).countWrites c d).applyFetched key y opened n := by
  simp only [State.applyFetched, hc, hr, he, hb, Option.bind_some, Option.map_some, hd]

end

/-! #### REPLICA_PROMOTE -/

/-- The sort of the model is the library's insertion sort. -/
theorem sortBy_eq_insertionSort {α : Type} (l : List α) (le : α → α → Bool) : sortBy l le = l.insertionSort fun a b => le a b = true := by
  have insert (a : α) (l : List α) : insertBy le a l = l.orderedInsert (fun a b => le a b = true) a := by
    induction l with
    | nil => rfl
    | cons b l ih => simp only [insertBy, List.orderedInsert, ih]
  induction l with
  | nil => rfl
  | cons a l ih => rw [List.insertionSort_cons, ← ih, ← insert]; rfl

/-- The first of a sorted list comes before every other one. -/
theorem le_of_head_sortBy {α : Type} {l : List α} {le : α → α → Bool} {a b : α} (total : ∀ a b, le a b = true ∨ le b a = true)
    (trans : ∀ a b c, le a b = true → le b c = true → le a c = true) (h : (sortBy l le).head? = some a) (hb : b ∈ l) : le a b = true := by
  have : Std.Total fun a b => le a b = true := ⟨total⟩
  have : IsTrans α fun a b => le a b = true := ⟨trans⟩
  have sorted := List.pairwise_insertionSort (fun a b => le a b = true) l
  rw [← sortBy_eq_insertionSort] at sorted
  obtain ⟨t, ht⟩ := List.head?_eq_some_iff.mp h
  rw [← mem_sortBy (le := le), ht] at hb
  rw [ht] at sorted
  rcases List.mem_cons.mp hb with rfl | hb
  · exact (total b b).elim id id
  · exact List.rel_of_pairwise_cons sorted hb

/-- A replica is preferred to another: it has the higher C, or the same and the lower node (R439). -/
def replicaBefore (a b : Half × Nat) : Bool := decide (b.2 < a.2) || (a.2 == b.2 && decide (a.1.toNat ≤ b.1.toNat))

theorem replicaBefore_iff {a b : Half × Nat} : replicaBefore a b = true ↔ b.2 < a.2 ∨ b.2 = a.2 ∧ a.1.toNat ≤ b.1.toNat := by
  simp only [replicaBefore, Bool.or_eq_true, Bool.and_eq_true, decide_eq_true_eq, beq_iff_eq]
  omega

theorem replicaBefore_total (a b : Half × Nat) : replicaBefore a b = true ∨ replicaBefore b a = true := by
  simp only [replicaBefore_iff]; omega

theorem replicaBefore_trans (a b c : Half × Nat) (h1 : replicaBefore a b = true) (h2 : replicaBefore b c = true) : replicaBefore a c = true := by
  simp only [replicaBefore_iff] at *; omega

theorem bestReplica_eq (rs : List (Half × Nat)) : bestReplica rs = ((sortBy rs replicaBefore).head?).map (·.1.toNat) := rfl

theorem bestReplica_eq_none_iff {rs : List (Half × Nat)} : bestReplica rs = none ↔ rs = [] := by
  rw [bestReplica_eq, Option.map_eq_none_iff, List.head?_eq_none_iff, ← List.length_eq_zero_iff, length_sortBy, List.length_eq_zero_iff]

/-- The best replica is one of those given, and none is preferred to it (R439). -/
theorem bestReplica_first {rs : List (Half × Nat)} {best : Nat} (h : bestReplica rs = some best) :
    ∃ r ∈ rs, r.1.toNat = best ∧ ∀ q ∈ rs, q.2 < r.2 ∨ q.2 = r.2 ∧ r.1.toNat ≤ q.1.toNat := by
  rw [bestReplica_eq, Option.map_eq_some_iff] at h
  obtain ⟨r, hr, hb⟩ := h
  exact ⟨r, mem_sortBy.mp (List.mem_of_head? hr), hb,
    fun q hq => replicaBefore_iff.mp (le_of_head_sortBy replicaBefore_total replicaBefore_trans hr hq)⟩

/-- Of two replicas the one with the higher C, or the lower node where both have the same (R439). -/
theorem bestReplica_pair (a b : Half) (m n : Nat) :
    bestReplica [(a, m), (b, n)] = some (if decide (n < m) || (n == m && decide (a.toNat ≤ b.toNat)) then a.toNat else b.toNat) := by
  have e : (decide (n < m) || (n == m && decide (a.toNat ≤ b.toNat))) = replicaBefore (a, m) (b, n) := by
    rw [replicaBefore, Bool.beq_comm]
  rw [bestReplica_eq, e]
  simp only [sortBy, List.foldr_cons, List.foldr_nil, insertBy]
  split <;> rfl

/-- A composition notes the server of a shard. -/
def State.nameServer (k : Composition) (no best : Nat) (s : State) : State := s.updComp k.id fun k => { k with servers := k.servers.put no best }

/-- A replica asks two log peers for the records of a lost primary above its C (R439). -/
def State.fetchFrom (node p q : Nat) (c : Collection) (s : State) : State :=
  (({ s with comp.fetching := s.comp.fetching.put c.id { source := node, peers := [p, q] } } : State).post
    p 0x20 4 (ownerOf c.id) false (logMessage 4 (c.id % 2 ^ 32) c.committed node [])).post
    q 0x20 4 (ownerOf c.id) false (logMessage 4 (c.id % 2 ^ 32) c.committed node [])

/-- REPLICA_PROMOTE is its row of the table (R439). -/
theorem exec_replicaPromote (id : Word) (no : Half) (rs : List (Half × Nat)) (ps : Option (Half × Half)) (s : State) : exec (.replicaPromote id no rs ps) s = execReplicaPromote id no rs ps s := rfl

theorem replicaPromote_none {id : Word} {no : Half} {rs : List (Half × Nat)} {ps : Option (Half × Half)} {s : State}
    (h : s.comp.compositions.find id.toNat = none ∨ rs = []) : exec (.replicaPromote id no rs ps) s = .next s := by
  rcases h with h | rfl
  · simp only [exec_replicaPromote, execReplicaPromote, h]
  · simp only [exec_replicaPromote, execReplicaPromote, bestReplica_eq_none_iff.mpr rfl]
    cases s.comp.compositions.find id.toNat <;> rfl

section
variable {id : Word} {no : Half} {rs : List (Half × Nat)} {s : State} {k : Composition} {best : Nat}

/-- A shard of a composition whose primary is lost, and has no server, is to be served by a replica that is not lost. -/
def serverDue (k : Composition) (no best : Nat) : Prop :=
  k.active = true ∧ k.members.getD no 0 ∈ k.lost ∧ best ∉ k.lost ∧ k.servers.find no = none

/-- REPLICA_PROMOTE asks whether a server is due. -/
theorem serverDue_iff {no : Nat} : serverDue k no best ↔
    (!k.active || !k.lost.contains (k.members.getD no 0) || k.lost.contains best || (k.servers.find no).isSome) = false := by
  simp [serverDue, and_assoc]

theorem replicaPromote_not_due {ps : Option (Half × Half)} (hk : s.comp.compositions.find id.toNat = some k) (hb : bestReplica rs = some best)
    (h : k.active = false ∨ k.members.getD no.toNat 0 ∉ k.lost ∨ best ∈ k.lost ∨ k.servers.find no.toNat ≠ none) :
    exec (.replicaPromote id no rs ps) s = .next s := by
  have e : (!k.active || !k.lost.contains (k.members.getD no.toNat 0) || k.lost.contains best || (k.servers.find no.toNat).isSome) = true := by
    simpa [or_assoc, Option.isSome_iff_ne_none] using h
  simp only [exec_replicaPromote, execReplicaPromote, hk, hb, e, if_true]

/-- The server is named; another module than this one has no more to do (R439). -/
theorem replicaPromote_other {ps : Option (Half × Half)} (hk : s.comp.compositions.find id.toNat = some k) (hb : bestReplica rs = some best)
    (h : serverDue k no.toNat best) (hn : best ≠ s.nodeId) : exec (.replicaPromote id no rs ps) s = .next (s.nameServer k no.toNat best) := by
  rw [serverDue_iff] at h
  simp only [exec_replicaPromote, execReplicaPromote, hk, hb, h, Bool.false_eq_true, if_false]
  exact congrArg Host.Outcome.next (if_pos (bne_iff_ne.mpr hn))

/-- Without log peers to ask, the server is only named. -/
theorem replicaPromote_unasked (hk : s.comp.compositions.find id.toNat = some k) (hb : bestReplica rs = some best) (h : serverDue k no.toNat best) :
    exec (.replicaPromote id no rs none) s = .next (s.nameServer k no.toNat best) := by
  rw [serverDue_iff] at h
  simp only [exec_replicaPromote, execReplicaPromote, hk, hb, h, Bool.false_eq_true, if_false]
  exact congrArg Host.Outcome.next (ite_self _)

/-- Being named, this module asks the log peers for each collection of the shard (R439). -/
theorem replicaPromote_fetches (p q : Half) (hk : s.comp.compositions.find id.toNat = some k) (hb : bestReplica rs = some best)
    (h : serverDue k no.toNat best) (hn : best = s.nodeId) : exec (.replicaPromote id no rs (some (p, q))) s =
      .next ((((s.nameServer k no.toNat best).index.collections.vals.filter fun c =>
          c.isReplica && c.composition == k.id && c.id / 2 ^ 32 == no.toNat + 1).foldl
        (fun v c => v.fetchFrom (k.members.getD no.toNat 0) p.toNat q.toNat c) (s.nameServer k no.toNat best))) := by
  rw [serverDue_iff] at h
  simp only [exec_replicaPromote, execReplicaPromote, hk, hb, h, Bool.false_eq_true, if_false]
  exact congrArg Host.Outcome.next (if_neg (by rw [bne_iff_ne, not_not]; exact hn))

end

/-! #### REPLICA_OP and REPLICA_FALLS_BEHIND -/

/-- What a replica does with an OP: one at or below its C is acknowledged, one above it is applied and acknowledged (R438). -/
def State.takeOp (x : Inbound) (c : Collection) (s : State) : State :=
  if field x.body 8 8 ≤ c.committed then (s.setColl c).ackReplica x (field x.body 4 4) c
  else match c.replicaApply s.clock (field x.body 8 8) (x.body.drop 32) with
    | none => s.partnerViolation x.port x.src
    | some new => match s.placeRows true (fun _ => none) { new with committed := field x.body 8 8, assigned := field x.body 8 8 } with
      | none => s.setColl c
      | some d => ((s.setColl d).countWrites c d).ackReplica x (field x.body 4 4) d

/-- A replica that has all of its primary's SEALED segments has the CSN of COPY_END (R438). -/
def Collection.endCopy (csn : Nat) (c : Collection) : Collection := { c with committed := max c.committed csn, assigned := max c.committed csn }

/-- What a SEGMENT chunk, or COPY_END, opens to: rows with the lists that share them, tombstone records and a centroid map; none where a tag fails. -/
abbrev OpenedCopy := Option (List (Version × Option Nat) × List (Nat × Nat × Nat) × Option CentroidMap)

/-- What a replica does with a SEGMENT chunk or COPY_END, as it opens (R438). -/
def State.takeCopy (opened : OpenedCopy) (x : Inbound) (c : Collection) (s : State) : State :=
  match opened with
  | none => (s.setColl c).logIntegrity (ownerOf (field x.body 4 4)) 3 x.src
  | some (rows, recs, map) =>
    match s.takeRows c (field x.body 0x10 8) c.gen rows recs map with
    | none => s.setColl c
    | some new =>
      if field x.body 0 1 = 5 then
        ((s.setColl (new.endCopy (field x.body 8 8))).countWrites c (new.endCopy (field x.body 8 8))).ackReplica x (field x.body 4 4)
          (new.endCopy (field x.body 8 8))
      else (s.setColl new).countWrites c new

/-- What is done with a replica message (Table 16-23). -/
def State.takeReplicaMessage (opened : OpenedCopy) (x : Inbound) (s : State) : State :=
  if field x.body 0 1 = 4 then s.updColl (field x.body 4 4) fun c => c.noteAck s.clock x.src (field x.body 8 8)
  else match s.replicaOf x.src (field x.body 4 4) with
    | none => s.partnerViolation x.port x.src
    | some c =>
      if field x.body 0 1 = 1 then s.takeOp x c
      else if field x.body 0 1 = 3 then
        s.wellFormed x (rebalanceFaultless c (x.body.drop 32)) (fun s => s.setColl (s.takeRebalance c (x.body.drop 32)))
      else s.takeCopy opened x c

theorem exec_replicaOp (opened : OpenedCopy) (s : State) :
    exec (.replicaOp opened) s = .next (s.onMessage 0x21 [] (fun x _ => replicaFaultless x.body) (State.takeReplicaMessage opened)) := rfl

section
variable {opened : OpenedCopy} {x : Inbound} {u : State} {c d new : Collection}

/-- A primary notes an ACK (R438). -/
theorem takeReplicaMessage_ack (hk : field x.body 0 1 = 4) :
    u.takeReplicaMessage opened x = u.updColl (field x.body 4 4) fun c => c.noteAck u.clock x.src (field x.body 8 8) :=
  if_pos hk

/-- A message for a collection that is not replicated here is a partner violation. -/
theorem takeReplicaMessage_unknown (hk : field x.body 0 1 ≠ 4) (hc : u.replicaOf x.src (field x.body 4 4) = none) :
    u.takeReplicaMessage opened x = u.partnerViolation x.port x.src := by
  simp only [State.takeReplicaMessage, hk, hc, if_false]

theorem takeReplicaMessage_op (hk : field x.body 0 1 = 1) (hc : u.replicaOf x.src (field x.body 4 4) = some c) :
    u.takeReplicaMessage opened x = u.takeOp x c := by
  simp only [State.takeReplicaMessage, hk, hc, if_true, (by decide : (1 : Nat) ≠ 4), if_false]

/-- A REBALANCE that keeps its layout is taken over (R152, R438). -/
theorem takeReplicaMessage_rebalance (hk : field x.body 0 1 = 3) (hc : u.replicaOf x.src (field x.body 4 4) = some c) :
    u.takeReplicaMessage opened x = if rebalanceFaultless c (x.body.drop 32) then u.setColl (u.takeRebalance c (x.body.drop 32))
      else u.partnerViolation x.port x.src := by
  simp only [State.takeReplicaMessage, hk, hc, if_true, (by decide : (3 : Nat) ≠ 4), (by decide : (3 : Nat) ≠ 1), if_false, State.wellFormed]

theorem takeReplicaMessage_copy (hk : field x.body 0 1 = 2 ∨ field x.body 0 1 = 5) (hc : u.replicaOf x.src (field x.body 4 4) = some c) :
    u.takeReplicaMessage opened x = u.takeCopy opened x c := by
  have h4 : field x.body 0 1 ≠ 4 := by omega
  have h1 : field x.body 0 1 ≠ 1 := by omega
  have h3 : field x.body 0 1 ≠ 3 := by omega
  simp only [State.takeReplicaMessage, hc, h4, h1, h3, if_false]

/-- An OP at or below C is acknowledged alone (R438). -/
theorem takeOp_old (h : field x.body 8 8 ≤ c.committed) : u.takeOp x c = (u.setColl c).ackReplica x (field x.body 4 4) c :=
  if_pos h

theorem takeOp_faulty (h : c.committed < field x.body 8 8) (ha : c.replicaApply u.clock (field x.body 8 8) (x.body.drop 32) = none) :
    u.takeOp x c = u.partnerViolation x.port x.src := by
  simp only [State.takeOp, Nat.not_le.mpr h, ha, if_false]

/-- An OP whose rows find no room is neither applied nor acknowledged. -/
theorem takeOp_full (h : c.committed < field x.body 8 8) (ha : c.replicaApply u.clock (field x.body 8 8) (x.body.drop 32) = some new)
    (hp : u.placeRows true (fun _ => none) { new with committed := field x.body 8 8, assigned := field x.body 8 8 } = none) : u.takeOp x c = u.setColl c := by
  simp only [State.takeOp, Nat.not_le.mpr h, ha, hp, if_false]

/-- An OP above C is applied and acknowledged (R438). -/
theorem takeOp_applied (h : c.committed < field x.body 8 8) (ha : c.replicaApply u.clock (field x.body 8 8) (x.body.drop 32) = some new)
    (hp : u.placeRows true (fun _ => none) { new with committed := field x.body 8 8, assigned := field x.body 8 8 } = some d) :
    u.takeOp x c = ((u.setColl d).countWrites c d).ackReplica x (field x.body 4 4) d := by
  simp only [State.takeOp, Nat.not_le.mpr h, ha, hp, if_false]

section
variable {rows : List (Version × Option Nat)} {recs : List (Nat × Nat × Nat)} {map : Option CentroidMap}

theorem takeCopy_full (h : u.takeRows c (field x.body 0x10 8) c.gen rows recs map = none) : u.takeCopy (some (rows, recs, map)) x c = u.setColl c := by
  simp only [State.takeCopy, h]

/-- The rows of a SEGMENT chunk are placed (R438). -/
theorem takeCopy_segment (h : u.takeRows c (field x.body 0x10 8) c.gen rows recs map = some new) (hk : field x.body 0 1 = 2) :
    u.takeCopy (some (rows, recs, map)) x c = (u.setColl new).countWrites c new := by
  simp only [State.takeCopy, h, hk, (by decide : (2 : Nat) ≠ 5), if_false]

/-- COPY_END is acknowledged with the C that the copy has (R438). -/
theorem takeCopy_end (h : u.takeRows c (field x.body 0x10 8) c.gen rows recs map = some new) (hk : field x.body 0 1 = 5)
    (hd : d = new.endCopy (field x.body 8 8)) :
    u.takeCopy (some (rows, recs, map)) x c = ((u.setColl d).countWrites c d).ackReplica x (field x.body 4 4) d := by
  subst hd
  simp only [State.takeCopy, h, hk, if_true]

end
end

/-- REPLICA_FALLS_BEHIND is its row of the table (R438). -/
theorem exec_replicaFallsBehind (id : Word) (n : Half) (s : State) : exec (.replicaFallsBehind id n) s = execReplicaFallsBehind id n s := rfl

theorem replicaFallsBehind_none {id : Word} {n : Half} {s : State} (h : s.coll id.toNat = none) : exec (.replicaFallsBehind id n) s = .next s := by
  simp only [exec_replicaFallsBehind, execReplicaFallsBehind, h]

/-- A replica IN_SYNC whose C is more than 100 ms behind is CATCHING_UP again (R438). -/
theorem replicaFallsBehind_eq {id : Word} {n : Half} {s : State} {c : Collection} (h : s.coll id.toNat = some c) :
    exec (.replicaFallsBehind id n) s = .next (s.setColl { c with
      replicas := c.replicas.map fun r =>
        if r.node = n.toNat ∧ r.state = 1 ∧ r.c < c.committedAt (s.clock - 100000000) then { r with state := 0 } else r }) := by
  simp only [exec_replicaFallsBehind, execReplicaFallsBehind, h]

/-! #### The obligation -/

/-- Settles O47: each message is turned away or taken, and what is done with it goes by its kind and by what the module holds. -/
theorem peerMessages : Obligations.PeerMessages := by
  unfold Obligations.PeerMessages
  intro s turnedAway
  refine ⟨turnedAway_of_onMessage (exec_logRecord s), turnedAway_of_onMessage (exec_logConfirm s), turnedAway_of_onMessage (exec_logRelease s),
    turnedAway_of_onMessage (exec_logFetch s), turnedAway_of_onMessage (exec_fetchData s), fun o => turnedAway_of_onMessage (exec_replicaOp o s),
    fun x u hm hs hf hx => ?record, fun x u hm hs hf hx => ?confirm,
    fun id csn p => ⟨logRecordResend_none, fun c o hc ho => ⟨logRecordResend_due hc ho, logRecordResend_not_due hc ho⟩⟩,
    fun x u hm hs hf hx => ?release, fun x u hm hs hf => taken_of_onMessage (exec_logFetch s) hm hs hf, fun x u hm hs hf => ?fetched,
    fun x csn => both_none_of_lacking,
    fun key x opened n c hc => ⟨applyFetched_stops n hc, fun r e body d => applyFetched_applies n hc⟩,
    fun id no rs ps => ⟨replicaPromote_none, fun k best hk hb => ?promote⟩, fun rs => ⟨bestReplica_eq_none_iff, fun best => bestReplica_first⟩,
    bestReplica_pair, fun x u o hm hs hf => ?replica, fun id n => ⟨replicaFallsBehind_none, fun c => replicaFallsBehind_eq⟩⟩
  case record =>
    have taken := taken_of_onMessage (exec_logRecord s) hm hs (by simp [hf, hx])
    rw [taken]
    intro known confirm
    have hk : known = u.noteSource x.src := (noteSource_eq x.src u).symm
    refine ⟨fun h1 h2 => congrArg _ (takeLogRecord_third h1 h2), fun h => ⟨fun hh => ?_, fun hh =>
      ⟨fun hr => congrArg _ (takeLogRecord_full h hh hr), fun hb hr => ?_⟩⟩⟩
    · rw [takeLogRecord_again h hh, hk]; rfl
    · rw [takeLogRecord_new h hh hb hr, hk]; rfl
  case confirm =>
    rw [taken_of_onMessage (exec_logConfirm s) hm hs (by simp [hf, hx])]
    exact ⟨fun h => congrArg _ (if_pos (List.contains_iff_mem.mpr h)), fun h => congrArg _ (if_neg (mt List.contains_iff_mem.mp h))⟩
  case release =>
    exact ⟨_, taken_of_onMessage (exec_logRelease s) hm hs (by simp [hf, hx]), fun r => mem_takeLogRelease⟩
  case fetched =>
    rw [taken_of_onMessage (exec_fetchData s) hm hs hf]
    exact ⟨fun h => congrArg _ (takeFetchData_unasked h), fun key y h => ⟨fun hk => congrArg _ (takeFetchData_record h hk), fun hk =>
      ⟨fun hp => congrArg _ (takeFetchData_end h hk hp), fun hp => congrArg _ (takeFetchData_last h hk hp)⟩⟩⟩
  case promote =>
    refine ⟨replicaPromote_not_due hk hb, fun h1 h2 h3 h4 => ?_⟩
    have due : serverDue k no.toNat best := ⟨h1, h2, h3, h4⟩
    exact ⟨replicaPromote_other hk hb due, fun hn => ⟨replicaPromote_unasked hk hb due, fun p q => replicaPromote_fetches p q hk hb due hn⟩⟩
  case replica =>
    rw [taken_of_onMessage (exec_replicaOp o s) hm hs hf]
    refine ⟨fun hk => congrArg _ (takeReplicaMessage_ack hk), fun hk hc => congrArg _ (takeReplicaMessage_unknown hk hc),
      fun c hc => ⟨fun hk => ?op, fun hk => ?rebalance, fun hk => ?copy⟩⟩
    case op =>
      rw [takeReplicaMessage_op hk hc]
      exact ⟨fun h => congrArg _ (takeOp_old h), fun h => ⟨fun ha => congrArg _ (takeOp_faulty h ha), fun new ha =>
        ⟨fun hp => congrArg _ (takeOp_full h ha hp), fun d hp => congrArg _ (takeOp_applied h ha hp)⟩⟩⟩
    case rebalance =>
      rw [takeReplicaMessage_rebalance hk hc]
      exact ⟨fun h => by rw [h]; rfl, fun h => by rw [h]; rfl⟩
    case copy =>
      have copied := fun opened => (taken_of_onMessage (exec_replicaOp opened s) hm hs hf).trans (congrArg _ (takeReplicaMessage_copy hk hc))
      refine ⟨copied none, fun rows recs map => ⟨fun h => ?_, fun new h => ⟨fun h2 => ?_, fun h5 => ?_⟩⟩⟩
      · rw [copied, takeCopy_full h]
      · rw [copied, takeCopy_segment h h2]
      · exact (copied _).trans (congrArg _ (takeCopy_end h h5 rfl))

end Sys2Proof.Machine

/-! ### Proofs: the admission of operations (O27) -/

namespace Sys2Proof.Machine

/-- A collection that is not served as a replica takes operations (R439). -/
theorem writable_ok {c : Collection} (h : c.isReplica = false) : writable c = .ok () := need_ok (by rw [h]; rfl)

section
variable {m : Mbx} {tag : Word} {f : Flight} {s : State} {c : Collection} {n k : Nat} {recs : List ItemRecord}

/-- Valid vector records take the next CSN of a vector collection (R105, R108). -/
theorem insertVectors_ok (up : Bool) (ho : f.opens 16 16777216) (hn : n = field f.plain 4 4) (h1 : 1 ≤ n) (h2 : n ≤ 65536)
    (hz : zeroField f.plain 8 8 = true) (hc : s.usableColl 0x20 (field f.plain 0 4) f = .ok c) (hr : c.isReplica = false) (hm : c.desc.model = 0)
    (hl : (f.plain.drop 16).length = n * vectorRecordBytes c.desc) (hi : readVectorRecords c.desc n 0x30 [] (f.plain.drop 16) = .ok recs)
    (room : s.opRoom c f false n n) : s.insertVectors up f = .ok (s.admitOp c f (.insert recs up) true n) := by
  subst hn
  rw [State.insertVectors, insertHead_ok ho h1 h2 hz]
  simp only [ok_bind, hc, need_ok (beq_iff_eq.mpr hm), writable_ok hr, need_ok (beq_iff_eq.mpr hl), hi, opLimits_ok room]

/-- Valid text records take the next CSN of a text collection (R105, R107, R108). -/
theorem insertText_ok (up : Bool) (ho : f.opens 16 16777216) (hn : n = field f.plain 4 4) (h1 : 1 ≤ n) (h2 : n ≤ 65536)
    (hz : zeroField f.plain 8 8 = true) (hc : s.usableColl 0x20 (field f.plain 0 4) f = .ok c) (hr : c.isReplica = false) (hm : c.desc.model ≠ 0)
    (hw : wholeText c.desc n (f.plain.drop 16) = ((f.plain.drop 16).length, n)) (hi : readTextRecords c.desc n 0x30 [] (f.plain.drop 16) = .ok recs)
    (room : s.opRoom c f true n n) : s.insertText up f = .ok (s.admitOp c f (.insert recs up) false n) := by
  subst hn
  rw [State.insertText, insertHead_ok ho h1 h2 hz]
  simp only [ok_bind, hc, need_ok (bne_iff_ne.mpr hm), writable_ok hr, hw, beq_self_eq_true, Bool.and_self, need_ok, hi, opLimits_ok room]

/-- INSERT_VECTORS is its row of the table (R105). -/
theorem exec_insertVectors (m : Mbx) (tag : Word) (s : State) :
    exec (.insertVectors m tag) s = .next (s.start 0x2010 m tag (State.insertVectors false)) := rfl

/-- UPSERT_VECTORS is its row of the table (R114). -/
theorem exec_upsertVectors (m : Mbx) (tag : Word) (s : State) :
    exec (.upsertVectors m tag) s = .next (s.start 0x2012 m tag (State.insertVectors true)) := rfl

/-- INSERT_TEXT is its row of the table (R105, R107). -/
theorem exec_insertText (m : Mbx) (tag : Word) (s : State) :
    exec (.insertText m tag) s = .next (s.start 0x2011 m tag (State.insertText false)) := rfl

/-- UPSERT_TEXT is its row of the table (R114). -/
theorem exec_upsertText (m : Mbx) (tag : Word) (s : State) :
    exec (.upsertText m tag) s = .next (s.start 0x2013 m tag (State.insertText true)) := rfl

/-- DELETE_ITEMS is its row of the table (R115). -/
theorem exec_deleteItems (m : Mbx) (tag : Word) (s : State) : exec (.deleteItems m tag) s = execDeleteItems m tag s := rfl

/-- DELETE_BY_FILTER is its row of the table (R116). -/
theorem exec_deleteByFilter (m : Mbx) (tag : Word) (s : State) : exec (.deleteByFilter m tag) s = execDeleteByFilter m tag s := rfl

/-- A list of item IDs to delete takes the next CSN (R108, R115). -/
theorem deleteItems_admits (ho : f.opens 16 16777216) (hn : n = field f.plain 4 4) (h1 : 1 ≤ n) (h2 : n ≤ 65536)
    (hz : zeroField f.plain 8 8 = true) (hc : s.usableColl 0x20 (field f.plain 0 4) f = .ok c) (hr : c.isReplica = false)
    (hl : f.plain.length = 16 + 8 * n) (room : s.opRoom c f false n 0) (ht : s.turn 0x2014 m tag f) :
    exec (.deleteItems m tag) s =
      .next (s.admitOp c f (.delete ((List.range n).map fun i => field f.plain (16 + 8 * i) 8)) true n) := by
  subst hn
  refine congrArg Host.Outcome.next (start_ok ht ?_)
  rw [insertHead_ok ho h1 h2 hz]
  simp only [ok_bind, need_ok (beq_iff_eq.mpr hl), hc, writable_ok hr, opLimits_ok room]

/-- A filter that is valid and for which a predicate tombstone is left takes the next CSN (R108, R116). -/
theorem deleteByFilter_admits (hk : k = field f.plain 4 1) (ho : f.opens 40 784) (h1 : 1 ≤ k) (h2 : k ≤ 32) (hz : zeroField f.plain 5 11 = true)
    (hl : f.plain.length = 16 + 24 * k) (hc : s.usableColl 0x20 (field f.plain 0 4) f = .ok c) (hr : c.isReplica = false)
    (hf : checkFilter c.desc.fields 0x30 k (f.plain.drop 16) = .ok ()) (hp : c.tombCount < 16) (room : s.opRoom c f false 1 0)
    (ht : s.turn 0x2015 m tag f) :
    exec (.deleteByFilter m tag) s = .next (s.admitOp c f (.deleteByFilter (f.plain.drop 16)) true 1) := by
  subst hk
  refine congrArg Host.Outcome.next (start_ok ht ?_)
  rw [opening_ok ho]
  simp only [ok_bind, h1, h2, hz, decide_true, Bool.and_self, fields_cons, fields_nil, need_ok (beq_iff_eq.mpr hl), hc, writable_ok hr, hf,
    need_ok (decide_eq_true hp), opLimits_ok room]

end

/-- The operation that a command's admission adds to its collection, under the CSN after the last one assigned (R108). -/
def State.newOp (c : Collection) (f : Flight) (b : OpBody) (e : Bool) (s : State) : Operation :=
  { csn := c.assigned + 1, body := b, mbx := f.mbx, tag := f.tag, encoded := e, gen := c.gen, record := leBytes 2 f.opcode.toNat ++ f.plain
    sentAt := s.clock, buffered := s.logRoom (leBytes 2 f.opcode.toNat ++ f.plain).length }

/-- Of the collections, admitting an operation changes the last CSN and the operations of its own (R108). -/
theorem admitOp_collections (c : Collection) (f : Flight) (b : OpBody) (e : Bool) (k : Nat) (s : State) :
    (s.admitOp c f b e k).index.collections =
      s.index.collections.upd c.id fun d => { d with assigned := c.assigned + 1, ops := d.ops ++ [s.newOp c f b e] } := by
  simp only [State.admitOp, State.updFlight_index, aside_index (shipRecord_aside ..)]
  rfl

/-- The collection once an operation has been admitted. -/
theorem admitOp_coll {c : Collection} {s : State} (f : Flight) (b : OpBody) (e : Bool) (k : Nat) (h : s.coll c.id = some c) :
    (s.admitOp c f b e k).coll c.id = some { c with assigned := c.assigned + 1, ops := c.ops ++ [s.newOp c f b e] } :=
  (congrArg (Tab.find c.id) (admitOp_collections c f b e k s)).trans (Tab.find_upd _ _ _ _ h)

/-- Settles O27: each row's checks pass one by one, and admission then touches the collection's CSN and operations only. -/
theorem operations : Obligations.Operations := by
  unfold Obligations.Operations
  intro m tag f s c hc hr n body
  refine ⟨fun ho h1 h2 hz => ⟨fun hm hl recs hi room => ?vectors, fun hm hw recs hi room => ?text,
      deleteItems_admits ho rfl h1 h2 hz hc hr⟩,
    fun k hk ho h1 h2 hz hl => deleteByFilter_admits hk ho h1 h2 hz hl hc hr, fun b e k h => ?frame⟩
  case vectors =>
    have ok (up : Bool) := insertVectors_ok up ho rfl h1 h2 hz hc hr hm hl hi room
    exact ⟨fun ht => (exec_insertVectors m tag s).trans (congrArg _ (start_ok ht (ok false))),
      fun ht => (exec_upsertVectors m tag s).trans (congrArg _ (start_ok ht (ok true)))⟩
  case text =>
    have ok (up : Bool) := insertText_ok up ho rfl h1 h2 hz hc hr hm hw hi room
    exact ⟨fun ht => (exec_insertText m tag s).trans (congrArg _ (start_ok ht (ok false))),
      fun ht => (exec_upsertText m tag s).trans (congrArg _ (start_ok ht (ok true)))⟩
  case frame => exact ⟨_, admitOp_coll f b e k h, rfl, rfl, rfl, rfl, List.map_append⟩

end Sys2Proof.Machine

/-! ### Proofs: segments and compaction (O30) -/

namespace Sys2Proof.Machine

/-! #### SEGMENT_SEAL and its trigger -/

/-- SEGMENT_SEAL is its row of the table (R123). -/
theorem exec_segmentSeal (m : Mbx) (tag : Word) (s : State) : exec (.segmentSeal m tag) s = execSegmentSeal m tag s := rfl

/-- SEGMENT_SEAL_TRIGGER is its row of the table (R123, R126). -/
theorem exec_segmentSealTrigger (col : Word) (tombs : Bool) (s : State) :
    exec (.segmentSealTrigger col tombs) s = execSegmentSealTrigger col tombs s := rfl

section
variable {m : Mbx} {tag : Word} {f : Flight} {s : State} {c : Collection} {x : Segment} {id : Nat}

/-- What SEGMENT_SEAL does with the open segment of its collection (R123, R131). -/
def State.sealOpen (id : Nat) (c : Collection) (x : Segment) (f : Flight) (s : State) : Except Detail State :=
  if (c.rows x.id).isEmpty then
    .ok (((s.updColl id Collection.askTombs).sealAtBoundary id).answer f .done (sealPayload 0 0 c.committed))
  else do
    need (decide (c.sealingCount < 4)) (busyRetry 20000)
    .ok (((s.updColl id fun c => { c.askTombs with sealRequested := true }).setWork f (.sealWait id 0)).sealAtBoundary id)

/-- At its turn SEGMENT_SEAL comes to what the open segment says. -/
theorem segmentSeal_open (ht : s.turn 0x2030 m tag f) (ho : f.opens 8 8) (hz : zeroField f.plain 4 4 = true) (hid : id = field f.plain 0 4)
    (hc : s.usableColl 0x20 id f = .ok c) (hx : c.openSegment = some x) :
    (∀ t, s.sealOpen id c x f = .ok t → exec (.segmentSeal m tag) s = .next t) ∧
    (∀ d, s.sealOpen id c x f = .error d → exec (.segmentSeal m tag) s = .next (s.answerDetail f d)) := by
  subst hid
  refine ⟨fun t h => congrArg Host.Outcome.next (start_ok ht ?_), fun d h => congrArg Host.Outcome.next (start_error ht ?_)⟩ <;>
    · simp only [opening_ok ho, ok_bind, hz, fields_cons, fields_nil, hc, hx]
      exact h

/-- SEGMENT_SEAL of an empty open segment answers at once with zeros (R131). -/
theorem sealOpen_empty (h : c.rows x.id = []) : s.sealOpen id c x f =
    .ok (((s.updColl id Collection.askTombs).sealAtBoundary id).answer f .done (sealPayload 0 0 c.committed)) :=
  if_pos (List.isEmpty_iff.mpr h)

/-- SEGMENT_SEAL asks for the seal of an open segment with rows, and waits (R123). -/
theorem sealOpen_asks (h : c.rows x.id ≠ []) (hn : c.sealingCount < 4) : s.sealOpen id c x f =
    .ok (((s.updColl id fun c => { c.askTombs with sealRequested := true }).setWork f (.sealWait id 0)).sealAtBoundary id) := by
  rw [State.sealOpen, if_neg (mt List.isEmpty_iff.mp h), need_ok (decide_eq_true hn)]
  rfl

/-- While 4 segments are SEALING, no further seal is asked for (R123). -/
theorem sealOpen_busy (h : c.rows x.id ≠ []) (hn : 4 ≤ c.sealingCount) : s.sealOpen id c x f = .error (busyRetry 20000) := by
  rw [State.sealOpen, if_neg (mt List.isEmpty_iff.mp h), need_error (decide_eq_false (Nat.not_lt.mpr hn))]
  rfl

/-- COMPACT is its row of the table (R127). -/
theorem exec_compact (m : Mbx) (tag : Word) (s : State) : exec (.compact m tag) s = execCompact m tag s := rfl

/-- COMPACT takes the eligible segments at the purge point, all of them or those of older generations (R127–R129). -/
theorem compact_begins {inputs : List Nat} (ht : s.turn 0x2031 m tag f) (ho : f.opens 16 16) (hm : field f.plain 4 4 = 1 ∨ field f.plain 4 4 = 2)
    (hz : zeroField f.plain 8 8 = true) (hid : id = field f.plain 0 4) (hc : s.usableColl 0x20 id f = .ok c) (hk : c.compaction = none)
    (hi : ((eligible c (purgePoint c)).filter fun x => field f.plain 4 4 == 1 || x.gen != c.gen).map (·.id) = inputs)
    (hl : largestList c inputs ≤ s.regionFree (placeClassOf s.placeImage c.cls).region) (hr : inputs = [] ∨ c.durableRoom = true) :
    exec (.compact m tag) s = .next (((s.beginCompaction c inputs (some (m.key, tag))).setWork f (.compactWait id)).finishCompaction id) := by
  subst hid
  have mode : (field f.plain 4 4 == 1 || field f.plain 4 4 == 2) = true := by simpa using hm
  have room : (inputs.isEmpty || c.durableRoom) = true := by simpa using hr
  refine congrArg Host.Outcome.next (start_ok ht ?_)
  simp only [opening_ok ho, ok_bind, mode, hz, fields_cons, fields_nil, hc, hk, Option.isNone_none, hi, need_ok, hl, decide_true, room]

end

section
variable {col : Word} {s : State} {c : Collection}

/-- Asks for the seal of the open tombstone segment where it or the log makes it due (R123, R126). -/
theorem segmentSealTrigger_tombs (hc : s.coll col.toNat = some c) (hs : s.serving = true) (ha : c.availability = .ready) (hd : c.dropping = none) :
    exec (.segmentSealTrigger col true) s =
      .next ((s.setColl (if s.logFull || c.openTombs.any (sealDue c s.clock) then c.askTombs else c)).sealAtBoundary col.toNat) := by
  simp only [exec_segmentSealTrigger, execSegmentSealTrigger, hc, hs, ha, hd, bne_self_eq_false, Option.isSome_none, Bool.not_true, Bool.or_self,
    Bool.false_eq_true, if_false, if_true]

/-- Asks for the seal of the open segment where its size, its age or the log makes it due (R123). -/
theorem segmentSealTrigger_items (hc : s.coll col.toNat = some c) (hs : s.serving = true) (ha : c.availability = .ready) (hd : c.dropping = none) :
    exec (.segmentSealTrigger col false) s = .next ((s.setColl { c with
      sealRequested := c.sealRequested || c.openSegment.any fun x => sealDue c s.clock x || (s.logFull && !(c.rows x.id).isEmpty)
      }).sealAtBoundary col.toNat) := by
  simp only [exec_segmentSealTrigger, execSegmentSealTrigger, hc, hs, ha, hd, bne_self_eq_false, Option.isSome_none, Bool.not_true, Bool.or_self,
    Bool.false_eq_true, if_false]

end

/-! #### Segments that are SEALED and retired -/

/-- SEGMENT_SEALED is its row of the table (R122, R124). -/
theorem exec_segmentSealed (col : Word) (seg : Nat) (failed : Bool) (s : State) :
    exec (.segmentSealed col seg failed) s = execSegmentSealed col seg failed s := rfl

/-- SEGMENT_RETIRE is its row of the table (R119, R122). -/
theorem exec_segmentRetire (col : Word) (seg : Nat) (s : State) : exec (.segmentRetire col seg) s = execSegmentRetire col seg s := rfl

/-- The collection once a segment's manifest is verified: the segment is SEALED, and its rows are read from flash (R122, R125). -/
def Collection.sealedNow (c : Collection) (seg : Nat) : Collection :=
  { c.updSegment seg (fun x => { x with state := .sealed }) with
    map.evaluate := true, versions := c.versions.map fun (v : Version) => if v.seg == seg then { v with staged := false } else v }

/-- The collection without a segment, its extents and its commit indices (R119, R120). -/
def Collection.withoutSegment (c : Collection) (seg : Nat) : Collection :=
  { c with
    segments := c.segments.filter fun y => y.id != seg, extents := c.extents.filter fun e => e.seg != seg
    indices := c.indices.filter fun x => x.seg != seg }

section
variable {col : Word} {s : State} {c d : Collection} {seg : Nat} {x : Segment}

/-- A tier that fails leaves the segment SEALING and ends the commands that wait for it (Table 4-9). -/
theorem segmentSealed_failed (hc : s.coll col.toNat = some c) (hx : c.segment seg = some x) (hst : x.state = .sealing) :
    exec (.segmentSealed col seg true) s = .next (s.failSealers col.toNat seg) := by
  simp only [exec_segmentSealed, execSegmentSealed, hc, hx, hst, Bool.true_or, beq_self_eq_true, Bool.and_self, if_true]

/-- The segment becomes SEALED, what is now sealed is dropped here and on the log peers, and the commands that wait for it are answered (R122, R124, R131). -/
theorem segmentSealed_done (hc : s.coll col.toNat = some c) (hs : s.serving = true) (hx : c.segment seg = some x) (hst : x.state = .sealing)
    (ha : c.availability = .ready) (hlow : s.flash.lowSpace = false) (hfail : s.flash.failed = false) (hr : x.tombstone = true ∨ c.durableRoom = true)
    (hd : d = (c.sealedNow seg).dropPredicates.release) :
    exec (.segmentSealed col seg false) s =
      .next (let t := ((s.setColl d).answerSealers col.toNat x ((c.sealedNow seg).rows seg).length ((c.sealedNow seg).highest x)).sealAtBoundary col.toNat
        if d.ops.length < c.ops.length then t.sendRelease col.toNat d.sealedCsn else t) := by
  subst hd
  have room : (x.tombstone || c.durableRoom) = true := by simpa using hr
  simp only [exec_segmentSealed, execSegmentSealed, hc, hs, hx, hst, ha, hlow, hfail, room, Bool.or_self, Bool.false_and, Bool.false_eq_true, if_false,
    beq_self_eq_true, Bool.not_false, Bool.and_self, if_true]
  rfl

/-- A merging segment that nothing refers to leaves the collection, with its space in flash and in the shared tier (R119, R122, R126). -/
theorem segmentRetire_free (hc : s.coll col.toNat = some c) (hx : c.segment seg = some x) (hst : x.state = .merging)
    (hk : ∀ k, c.compaction = some k → k.inputs.contains seg = false) (hf : s.segmentFree c seg = true) :
    exec (.segmentRetire col seg) s =
      .next (let t := (s.setColl (c.withoutSegment seg).retireTombs.release).unmapObject col.toNat seg
        { t with tiers.objects := t.tiers.objects.map fun (o : SharedObject) =>
            if o.collection == col.toNat && o.segment == seg then { o with superseded := true } else o }) := by
  have idle : (c.compaction.any fun k => k.inputs.contains seg) = false := by
    cases h : c.compaction with
    | none => rfl
    | some k => exact hk k h
  simp only [exec_segmentRetire, execSegmentRetire, hc, hx, hst, idle, hf, beq_self_eq_true, Bool.not_false, Bool.and_self, if_true]
  rfl

end

/-! #### Predicate tombstones -/

/-- TOMBSTONE_MATERIALISED is its row of the table (R116). -/
theorem exec_tombstoneMaterialised (col : Word) (csn : Nat) (s : State) :
    exec (.tombstoneMaterialised col csn) s = execTombstoneMaterialised col csn s := rfl

section
variable {col : Word} {s : State} {c : Collection} {csn : Nat} {t : PredTombstone}

/-- A predicate tombstone whose marks are written only drops what is sealed (R116). -/
theorem tombstoneMaterialised_marked (hc : s.coll col.toNat = some c) (hs : s.serving = true) (ht : c.predicates.find? (·.csn == csn) = some t)
    (hq : csn ≤ c.committed) (hm : t.marked = true) : exec (.tombstoneMaterialised col csn) s = .next (s.setColl c.dropPredicates.release) := by
  simp only [exec_tombstoneMaterialised, execTombstoneMaterialised, hc, hs, ht, hm, Nat.not_lt.mpr hq, decide_false, Bool.not_true, Bool.false_and,
    Bool.or_self, Bool.false_eq_true, if_false, if_true]

/-- A poisoned extent stops the pass (R186). -/
theorem tombstoneMaterialised_blocked (hc : s.coll col.toNat = some c) (ht : c.predicates.find? (·.csn == csn) = some t) (hm : t.marked = false)
    (hb : s.workBlocked c (fun _ => true) = true) : exec (.tombstoneMaterialised col csn) s = .next s := by
  simp only [exec_tombstoneMaterialised, execTombstoneMaterialised, hc, ht, hm, hb, Bool.not_false, Bool.and_self, Bool.or_true, if_true]

/-- The pass writes the marks of a committed predicate tombstone, which are counted and charged, and drops what is sealed (R116, R444). -/
theorem tombstoneMaterialised_writes {r : Collection × Nat} {wide : Bool} {u : State} (hc : s.coll col.toNat = some c) (hs : s.serving = true)
    (ht : c.predicates.find? (·.csn == csn) = some t) (hq : csn ≤ c.committed) (hm : t.marked = false) (hb : s.workBlocked c (fun _ => true) = false)
    (hr : r = c.materialise s.clock t) (hw : wide = (readPreds t.predicates).any fun p => (c.desc.fields[p.field]?).any (·.area))
    (hu : u = ((s.countWrites c r.1).countPass c (16 + (if wide then c.desc.extBytes else 0))).setColl r.1.dropPredicates.release) :
    exec (.tombstoneMaterialised col csn) s = .next (if r.2 = 0 then u else u.charge (ownerOf col.toNat) 0x60 r.2) := by
  subst hr hw hu
  simp only [exec_tombstoneMaterialised, execTombstoneMaterialised, hc, hs, ht, hm, hb, Nat.not_lt.mpr hq, decide_false, Bool.not_true, Bool.not_false,
    Bool.and_false, Bool.or_self, Bool.false_eq_true, if_false]

end

/-! #### Compaction -/

/-- AUTO_COMPACTION_START is its row of the table (R128). -/
theorem exec_autoCompactionStart (col : Word) (s : State) : exec (.autoCompactionStart col) s = execAutoCompactionStart col s := rfl

/-- COMPACTION_LIST_SWITCH is its row of the table (R129). -/
theorem exec_compactionListSwitch (col : Word) (lost : Option Loss) (s : State) :
    exec (.compactionListSwitch col lost) s = execCompactionListSwitch col lost s := rfl

section
variable {col : Word} {s : State} {c : Collection} {k : Compaction} {l : Nat} {rest : List Nat}

/-- An automatic compaction takes the segments over COMPACT_PCT (R128). -/
theorem autoCompactionStart_begins {inputs : List Nat} (hc : s.coll col.toNat = some c)
    (hi : inputs = ((eligible c (purgePoint c)).filter (overPct c (purgePoint c))).map (·.id)) (hp : c.desc.compactPct ≠ 0) (hk : c.compaction = none)
    (ha : c.availability = .ready) (hd : c.dropping = none) (hn : inputs ≠ []) (hr : c.durableRoom = true) (hsum : s.power.season = .summer)
    (hl : largestList c inputs ≤ s.regionFree (placeClassOf s.placeImage c.cls).region) :
    exec (.autoCompactionStart col) s = .next (s.beginCompaction c inputs none) := by
  have taken : inputs.isEmpty = false := List.isEmpty_eq_false_iff.mpr hn
  simp only [exec_autoCompactionStart, execAutoCompactionStart, hc, ← hi, bne_iff_ne.mpr hp, hk, ha, hd, taken, hr, hsum, hl, Option.isNone_none,
    beq_self_eq_true, Bool.not_false, decide_true, Bool.and_self, if_true]

/-- A command bound below the purge point, or a poisoned extent, holds the next list back (R129, R186). -/
theorem compactionListSwitch_held (hc : s.coll col.toNat = some c) (hk : c.compaction = some k) (hl : k.lists = l :: rest)
    (h : s.boundBelow col.toNat k.purge = true ∨ s.workBlocked c (ownedBy l) = true) : exec (.compactionListSwitch col none) s = .next s := by
  have held : (s.boundBelow col.toNat k.purge || !s.serving || s.workBlocked c (ownedBy l)) = true := by
    rcases h with h | h <;> simp [h]
  simp only [exec_compactionListSwitch, execCompactionListSwitch, hc, hk, hl, held, if_true]

/-- The next list is switched where its rows find places (R129). -/
theorem compactionListSwitch_next (hc : s.coll col.toNat = some c) (hs : s.serving = true) (hk : c.compaction = some k) (hl : k.lists = l :: rest)
    (hb : s.boundBelow col.toNat k.purge = false) (hw : s.workBlocked c (ownedBy l) = false) :
    exec (.compactionListSwitch col none) s =
      .next ((s.switchList c k l rest).elim s fun d => ((s.setColl d).countWrites c d).finishCompaction col.toNat) := by
  simp only [exec_compactionListSwitch, execCompactionListSwitch, hc, hs, hk, hl, hb, hw, Bool.not_true, Bool.or_self, Bool.false_eq_true, if_false]
  cases s.switchList c k l rest <;> rfl

/-- Lost reads end a compaction (Table 4-9). -/
theorem compactionListSwitch_lost {e : Loss} (hc : s.coll col.toNat = some c) (hk : c.compaction = some k) :
    exec (.compactionListSwitch col (some e)) s = .next (s.failCompaction c k e) := by
  simp only [exec_compactionListSwitch, execCompactionListSwitch, hc, hk]

/-- Without lists left a compaction ends (R129). -/
theorem compactionListSwitch_ends (hc : s.coll col.toNat = some c) (hk : c.compaction = some k) (hl : k.lists = []) :
    exec (.compactionListSwitch col none) s = .next (s.finishCompaction col.toNat) := by
  simp only [exec_compactionListSwitch, execCompactionListSwitch, hc, hk, hl]

end

/-- Settles O30: each row by the state of its segment, its tombstone or its compaction. -/
theorem segments : Obligations.Segments := by
  unfold Obligations.Segments
  refine ⟨fun m tag f s c x id ht ho hz hid hc hx => ?openSegment, fun m tag f s c id ht ho hm hz hid hc hk => compact_begins ht ho hm hz hid hc hk rfl,
    fun col s c hc hs => ⟨fun ha hd => ⟨segmentSealTrigger_tombs hc hs ha hd, segmentSealTrigger_items hc hs ha hd⟩,
      fun seg x hx hst => ⟨fun ha hlow hfail hr => segmentSealed_done hc hs hx hst ha hlow hfail hr rfl, segmentSealed_failed hc hx hst⟩,
      fun seg x hx hst hk hf => ⟨unmapObject_index .., segmentRetire_free hc hx hst hk hf⟩,
      fun csn t ht hq => ⟨tombstoneMaterialised_marked hc hs ht hq, tombstoneMaterialised_blocked hc ht,
        fun hm hb => tombstoneMaterialised_writes hc hs ht hq hm hb rfl rfl rfl⟩,
      autoCompactionStart_begins hc rfl, fun k l rest hk hl => ⟨compactionListSwitch_held hc hk hl, fun hb hw => ?switch⟩,
      fun k e hk => compactionListSwitch_lost hc hk, fun k hk hl => compactionListSwitch_ends hc hk hl⟩⟩
  case openSegment =>
    obtain ⟨done, refused⟩ := segmentSeal_open ht ho hz hid hc hx
    exact ⟨fun h => done _ (sealOpen_empty h), fun h hn => done _ (sealOpen_asks h hn), fun h hn => refused _ (sealOpen_busy h hn)⟩
  case switch =>
    have next := compactionListSwitch_next hc hs hk hl hb hw
    exact ⟨fun d hd => by rw [next, hd]; rfl, fun hd => by rw [next, hd]; rfl⟩

end Sys2Proof.Machine

/-! ### Proofs: near-bank scan units (O31) -/

namespace Sys2Proof.Machine

/-! #### Marks -/

/-- A mark counts no version where it selects none. -/
theorem mark_count_none {c : Collection} {now d : Nat} {sel : Version → Bool} (h : ∀ v ∈ c.versions, sel v = false) : (c.mark now d sel).2 = 0 := by
  refine List.length_eq_zero_iff.mpr (List.filter_eq_nil_iff.mpr fun v hv => ?_)
  simp [h v hv]

/-- A mark counts a version that it selects and that is not deleted yet. -/
theorem mark_count_some {c : Collection} {now d : Nat} {sel : Version → Bool} {v : Version} (hv : v ∈ c.versions) (hs : sel v = true)
    (hd : v.del = none) : (c.mark now d sel).2 ≠ 0 := by
  refine Nat.ne_of_gt (List.length_pos_of_mem (List.mem_filter.mpr ⟨hv, ?_⟩))
  simp [hs, hd]

/-- A delete or upsert that may be applied marks the versions of its items that were visible before it (R114, R115). -/
theorem opMarks_of_item {c : Collection} {csn : Nat} {v : Version} {o : Operation} (ho : c.op csn = some o) (ha : c.applicable o = true)
    (hv : visible c (csn - 1) v = true)
    (h : (∃ ids, o.body = .delete ids ∧ v.id ∈ ids) ∨ (∃ l, o.body = .insert l true ∧ ∃ x ∈ l, x.id = v.id)) : c.opMarks csn v = true := by
  rcases h with ⟨ids, hb, hi⟩ | ⟨l, hb, hi⟩
  · simp only [Collection.opMarks, ho, ha, hv, hb, List.contains_iff_mem.mpr hi, Bool.and_self]
  · have named : (l.any fun x => x.id == v.id) = true := by simpa using hi
    simp only [Collection.opMarks, ho, ha, hv, hb, named, Bool.and_self]

/-- A committed predicate tombstone whose marks are not written yet marks the older versions that pass it (R116). -/
theorem tombMarks_of_passes {c : Collection} {csn : Nat} {v : Version} {x : PredTombstone} (hx : c.predicates.find? (·.csn == csn) = some x)
    (hm : x.marked = false) (hc : csn ≤ c.committed) (hd : v.del = none) (hi : v.ins < csn)
    (hp : passes c.desc.fields (readPreds x.predicates) v.packed v.ext = true) : c.tombMarks csn v = true := by
  simp only [Collection.tombMarks, hx, hm, hc, hd, hi, hp, Bool.not_false, Option.isNone_none, decide_true, Bool.and_self]

/-- NBU_MARK_WRITE is its row of the table (R176, R184). -/
theorem exec_nbuMarkWrite (col : Word) (csn id ins : Nat) (s : State) : exec (.nbuMarkWrite col csn id ins) s = execNbuMarkWrite col csn id ins s := rfl

/-- The version of an item that the operation or the tombstone of a CSN marks. -/
def Collection.marksAt (csn id ins : Nat) (c : Collection) (v : Version) : Bool := v.id == id && v.ins == ins && (c.opMarks csn v || c.tombMarks csn v)

section
variable {col : Word} {s : State} {c : Collection} {csn id ins : Nat}

/-- One mark of a serving collection is written and charged, where there is one to write (R184). -/
theorem nbuMarkWrite_serving {r : Collection × Nat} (hc : s.coll col.toNat = some c) (ha : c.availability = .ready) (hd : c.dropping = none)
    (hs : s.serving = true) (hr : r = c.mark s.clock csn (c.marksAt csn id ins)) :
    exec (.nbuMarkWrite col csn id ins) s =
      .next (if r.2 = 0 then s else ((s.setColl r.1).countWrites c r.1).charge (ownerOf col.toNat) 0x60 1) := by
  subst hr
  simp only [exec_nbuMarkWrite, execNbuMarkWrite, hc, ha, hd, hs, bne_self_eq_false, Option.isSome_none, Bool.not_true, Bool.or_self, Bool.false_eq_true,
    if_false]
  rfl

theorem marksAt_eq_false {v : Version} (h : v.id = id → v.ins = ins → c.opMarks csn v = false ∧ c.tombMarks csn v = false) :
    c.marksAt csn id ins v = false := by
  by_cases named : v.id = id ∧ v.ins = ins
  · obtain ⟨op, tomb⟩ := h named.1 named.2
    simp only [Collection.marksAt, op, tomb, Bool.or_self, Bool.and_false]
  · have other : (v.id == id && v.ins == ins) = false := by simpa using named
    simp only [Collection.marksAt, other, Bool.false_and]

theorem marksAt_eq_true {v : Version} (hid : v.id = id) (hins : v.ins = ins) (h : c.opMarks csn v = true ∨ c.tombMarks csn v = true) :
    c.marksAt csn id ins v = true := by
  simpa only [Collection.marksAt, hid, hins, beq_self_eq_true, Bool.and_self, Bool.true_and, Bool.or_eq_true] using h

end

/-! #### Uncorrectable granules -/

/-- Poisoning an extent keeps what is poisoned. -/
theorem mem_poison {p q : PoisonedExtent} {s : State} (h : q ∈ s.index.poisoned) : q ∈ (s.poison p).index.poisoned := by
  unfold State.poison
  split
  · exact h
  · exact List.mem_cons_of_mem _ h

/-- An extent is poisoned once it has been poisoned. -/
theorem poison_holds (p : PoisonedExtent) (s : State) : ∃ q ∈ (s.poison p).index.poisoned, q.collection = p.collection ∧ q.extent = p.extent := by
  unfold State.poison
  split
  · next held => simpa using held
  · exact ⟨p, List.mem_cons_self, rfl, rfl⟩

@[simp] theorem poison_nbu (p : PoisonedExtent) (n : Nat) (s : State) : (s.poison p).nbu n = s.nbu n := by
  unfold State.poison; split <;> rfl

/-- GRANULE_UNCORRECTABLE is its row of the table (R186). -/
theorem exec_granuleUncorrectable (n : Fin 1280) (addr : BitVec 30) (hit : GranuleHit) (reader : Option (Mbx × Word)) (s : State) :
    exec (.granuleUncorrectable n addr hit reader) s = execGranuleUncorrectable n addr hit reader s := rfl

/-- A granule is lost: it is counted and logged, its run is noted, and what held it is poisoned (R186). -/
def State.loseGranule (n addr : Nat) (hit : GranuleHit) (s : State) : State :=
  (s.updNbu n fun x => nbuCount 0x38 1 ({ x with
    ue := min (x.ue + 1) 0xFFFFFFFF, broken := addr / 2048 :: x.broken.filter (· != addr / 2048) }.logEcc s.fabTime addr 2 0)).poisonHit n hit

/-- The jobs of the command that read a lost granule that scan what held it (R226). -/
def State.readerJobs (n : Nat) (hit : GranuleHit) (m : Nat) (tag : Word) (s : State) : List ScanJob :=
  match hit with
  | .row c _ e => (s.nbu n).jobsOver m tag c e
  | _ => []

section
variable {n : Nat} {hit : GranuleHit} {m : Nat} {tag : Word} {s : State}

/-- The speculative jobs that alone read a lost granule are marked damaged (R226). -/
theorem readerLoses_speculative (hj : s.readerJobs n hit m tag ≠ []) (ha : (s.readerJobs n hit m tag).all (·.speculative) = true) :
    s.readerLoses n hit m tag = s.updNbu n fun x =>
      { x with jobs := x.jobs.map fun j => if (s.readerJobs n hit m tag).contains j then { j with damaged := true } else j } := by
  have spec : (!(s.readerJobs n hit m tag).isEmpty && (s.readerJobs n hit m tag).all (·.speculative)) = true := by
    rw [List.isEmpty_eq_false_iff.mpr hj, ha]; rfl
  exact if_pos spec

/-- The command that read a lost granule ends DATA_DAMAGED, where it is still in flight (R186). -/
theorem readerLoses_ends (h : s.readerJobs n hit m tag = [] ∨ (s.readerJobs n hit m tag).all (·.speculative) = false) :
    s.readerLoses n hit m tag = (s.flight m tag).elim s fun f => s.dataLost f := by
  have spec : (!(s.readerJobs n hit m tag).isEmpty && (s.readerJobs n hit m tag).all (·.speculative)) = false := by
    rcases h with h | h <;> simp [h]
  refine (if_neg (Bool.eq_false_iff.mp spec)).trans ?_
  cases s.flight m tag <;> rfl

/-- GRANULE_UNCORRECTABLE in a unit that is not OFFLINE loses the granule, and then the command that read it loses its data (R186, R195). -/
theorem granuleUncorrectable_lost {n : Fin 1280} {addr : BitVec 30} (reader : Option (Mbx × Word)) (ho : (s.nbu n.val).state ≠ 2)
    (hs : s.serving = true) (hh : s.hitHolds n.val addr.toNat hit = true) :
    exec (.granuleUncorrectable n addr hit reader) s = .next (reader.elim (s.loseGranule n.val addr.toNat hit) fun r =>
      (s.loseGranule n.val addr.toNat hit).readerLoses n.val hit r.1.key r.2) := by
  simp only [exec_granuleUncorrectable, execGranuleUncorrectable, beq_eq_false_iff_ne.mpr ho, hs, hh, Bool.not_true, Bool.or_self, Bool.false_eq_true,
    if_false]
  cases reader <;> rfl

end

/-! #### Rebuilds and runs -/

/-- EXTENT_REBUILD_DONE is its row of the table (R186). -/
theorem exec_extentRebuildDone (c l e : Nat) (ok : Bool) (s : State) : exec (.extentRebuildDone c l e ok) s = execExtentRebuildDone c l e ok s := rfl

/-- RUN_RETIRE is its row of the table (R187). -/
theorem exec_runRetire (n : Fin 1280) (run : Fin 524288) (s : State) : exec (.runRetire n run) s = execRunRetire n run s := rfl

/-- What is poisoned is the extent that a rebuild is about. -/
def PoisonedExtent.isOf (c l e : Nat) (p : PoisonedExtent) : Bool := p.collection == c && p.list == l && p.extent == e

section
variable {c l e : Nat} {s : State}

/-- Without its extent poisoned a rebuild changes nothing. -/
theorem extentRebuildDone_none (ok : Bool) (h : s.index.poisoned.any (PoisonedExtent.isOf c l e) = false) :
    exec (.extentRebuildDone c l e ok) s = .next s :=
  congrArg Host.Outcome.next (if_pos (congrArg not h))

/-- A rebuild whose source fails leaves the extent dead (R186). -/
theorem extentRebuildDone_failed (h : s.index.poisoned.any (PoisonedExtent.isOf c l e) = true) :
    exec (.extentRebuildDone c l e false) s = .next (({ s with
      index.poisoned := s.index.poisoned.map fun p => if p.isOf c l e then { p with dead := true } else p } : State).resumeRebuild).resumeSearches :=
  congrArg Host.Outcome.next (if_neg (Bool.eq_false_iff.mp (congrArg not h)))

/-- A rebuilt extent moves, and its poisoning ends; with no free place it waits (R186, R195). -/
theorem extentRebuildDone_moves (h : s.index.poisoned.any (PoisonedExtent.isOf c l e) = true) :
    exec (.extentRebuildDone c l e true) s = .next ((s.move c e).elim s fun t =>
      (({ t with index.poisoned := t.index.poisoned.filter fun p => !p.isOf c l e } : State).resumeRebuild).resumeSearches) := by
  refine congrArg Host.Outcome.next ((if_neg (Bool.eq_false_iff.mp (congrArg not h))).trans ?_)
  cases s.move c e <;> rfl

end

section
variable {n : Fin 1280} {run : Fin 524288} {s : State}

/-- A run that has failed is noted and logged, and its extents move, or it waits where one has no place (R187). -/
theorem runRetire_moves (hw : run.val < 0x7FFE0) (hr : (s.nbu n.val).retired.contains run.val = false)
    (hf : (s.nbu n.val).broken.contains run.val = true ∨
      8 ≤ ((s.nbu n.val).corrected.filter fun c => c.1 == run.val && s.clock < c.2 + 3600000000000).length) :
    exec (.runRetire n run) s = .next (((s.extentsIn n.val run.val).foldl (fun a e => a.bind fun s => s.move e.1 e.2)
      (some (s.updNbu n.val fun x => { x with retired := run.val :: x.retired }.logEcc s.fabTime (run.val * 2048) 3 0))).getD s) := by
  refine congrArg Host.Outcome.next (if_pos ?_)
  rcases hf with hf | hf
  · simp only [hr, hw, hf, Bool.not_false, decide_true, Bool.or_true, Bool.and_self]
  · simp only [hr, hw, hf, Bool.not_false, decide_true, Bool.true_or, Bool.and_self]

/-- A run is retired once, and those of the diagnostic window never (R187, R192). -/
theorem runRetire_not (h : (s.nbu n.val).retired.contains run.val = true ∨ 0x7FFE0 ≤ run.val) : exec (.runRetire n run) s = .next s := by
  refine congrArg Host.Outcome.next (if_neg ?_)
  rcases h with h | h
  · simp only [h, Bool.not_true, Bool.false_and, Bool.false_eq_true, not_false_eq_true]
  · simp only [Nat.not_lt.mpr h, decide_false, Bool.and_false, Bool.false_and, Bool.false_eq_true, not_false_eq_true]

end

/-! #### The scrub, and units that fail -/

/-- PATROL_SCRUB of a unit that is not OFFLINE counts and logs each granule corrected, and ends a pass (R182, R187). -/
theorem patrolScrub_working {n : Fin 1280} {s u : State} {corrected : List (BitVec 30 × Fin 3)} (complete : Bool) (ho : (s.nbu n.val).state ≠ 2)
    (hs : s.serving = true) (hu : u = corrected.foldl (fun (s : State) (g : BitVec 30 × Fin 3) => s.updNbu n.val fun x =>
      nbuCount 0x30 1 ({ x with corrected := (g.1.toNat / 2048, s.clock) :: x.corrected.filter fun c => s.clock < c.2 + 3600000000000 }.logEcc
        s.fabTime g.1.toNat 1 g.2.val)) s) :
    exec (.patrolScrub n corrected complete) s = .next (if complete then u.updNbu n.val fun x =>
      let x := { x with scrubbed := u.clock }
      if x.state == 0 then nbuCount 0x00 (2 ^ 30) x else x
    else u) := by
  subst hu
  refine congrArg Host.Outcome.next (if_neg ?_)
  simp only [beq_eq_false_iff_ne.mpr ho, hs, Bool.not_true, Bool.or_self, Bool.false_eq_true, not_false_eq_true]

/-- A unit that fails is FAILED, and the event is logged (R195). -/
theorem nbuFailed_working {n : Fin 1280} {s : State} (h : (s.nbu n.val).state = 0) :
    exec (.nbuFailed n) s = .next ((s.updNbu n.val fun x => { x with state := 1 }).logUnit n.val) :=
  congrArg Host.Outcome.next (if_pos (beq_iff_eq.mpr h))

/-- A pseudo-channel that goes OFFLINE sends its jobs to their lists' homes (R195). -/
theorem pseudoChannelOffline_working {n : Fin 1280} {s t : State} (h : (s.nbu n.val).state ≠ 2) (ht : t = s.takeOffline n.val) :
    exec (.pseudoChannelOffline n) s = .next
      (let sent := t.sendJobs ((s.nbu n.val).jobs.map fun j => (t.jobHome n.val j, j))
       sent.1.holdJobs sent.2) := by
  subst ht
  exact congrArg Host.Outcome.next (if_neg (mt beq_iff_eq.mp h))

@[simp] theorem log_index (e : LogEntry) (s : State) : (s.log e).index = s.index := by
  unfold State.log
  split
  · dsimp only
    split <;> rfl
  · rfl

@[simp] theorem logUnit_index (n : Nat) (s : State) : (s.logUnit n).index = s.index := log_index _ s

/-- An NBU just changed. -/
theorem updNbu_nbu (n : Nat) (g : Nbu → Nbu) (s : State) : (s.updNbu n g).nbu n = g (s.nbu n) := Tab.getD_put ..

section
variable (l : List PoisonedExtent) (s : State)

theorem poisonAll_nbu (n : Nat) : (l.foldl (fun s p => s.poison p) s).nbu n = s.nbu n := by
  induction l generalizing s with
  | nil => rfl
  | cons p l ih => rw [List.foldl_cons, ih, poison_nbu]

/-- Poisoning extents keeps what is poisoned. -/
theorem mem_poisonAll {q : PoisonedExtent} (h : q ∈ s.index.poisoned) : q ∈ (l.foldl (fun s p => s.poison p) s).index.poisoned := by
  induction l generalizing s with
  | nil => exact h
  | cons p l ih => exact ih _ (mem_poison h)

/-- Each of the extents is poisoned once they have all been poisoned. -/
theorem poisonAll_holds {p : PoisonedExtent} (h : p ∈ l) :
    ∃ q ∈ (l.foldl (fun s p => s.poison p) s).index.poisoned, q.collection = p.collection ∧ q.extent = p.extent := by
  induction l generalizing s with
  | nil => cases h
  | cons r l ih =>
    rcases List.mem_cons.mp h with rfl | h
    · obtain ⟨q, hq, same⟩ := poison_holds p s
      exact ⟨q, mem_poisonAll l _ hq, same⟩
    · exact ih _ h

end

/-- A pseudo-channel's unit and what is poisoned, once it is OFFLINE (R195). -/
theorem takeOffline_index (n : Nat) (s : State) : (s.takeOffline n).index =
    ((s.lostWith n).foldl (fun s p => s.poison p) ((s.updNbu n fun x => { x with state := 2, jobs := [] }).logUnit n)).index := rfl

/-- An OFFLINE unit keeps no jobs (R195). -/
theorem takeOffline_nbu (n : Nat) (s : State) : (s.takeOffline n).nbu n = { s.nbu n with state := 2, jobs := [] } := by
  calc (s.takeOffline n).nbu n
    _ = ((s.lostWith n).foldl (fun s p => s.poison p) ((s.updNbu n fun x => { x with state := 2, jobs := [] }).logUnit n)).nbu n := rfl
    _ = ((s.updNbu n fun x => { x with state := 2, jobs := [] }).logUnit n).nbu n := poisonAll_nbu ..
    _ = (s.updNbu n fun x => { x with state := 2, jobs := [] }).nbu n := by simp only [State.nbu, logUnit_index]
    _ = { s.nbu n with state := 2, jobs := [] } := updNbu_nbu ..

/-- What was poisoned before a pseudo-channel went OFFLINE stays poisoned. -/
theorem mem_takeOffline_poisoned {n : Nat} {s : State} {p : PoisonedExtent} (h : p ∈ s.index.poisoned) : p ∈ (s.takeOffline n).index.poisoned := by
  rw [takeOffline_index]
  exact mem_poisonAll _ _ (by rw [logUnit_index]; exact h)

/-- What lay in a pseudo-channel that goes OFFLINE is poisoned (R195). -/
theorem takeOffline_poisons {n : Nat} {s : State} {x : Collection × Extent} (hx : x ∈ s.heldExtents) (hn : x.2.nbu = n) :
    ∃ p ∈ (s.takeOffline n).index.poisoned, p.collection = x.1.id ∧ p.extent = x.2.id :=
  poisonAll_holds (s.lostWith n) _ (List.mem_map.mpr ⟨x, List.mem_filter.mpr ⟨hx, beq_iff_eq.mpr hn⟩, rfl⟩)

/-- Settles O31: a mark is there or not, a granule is read by speculative jobs alone or not, a place is free or not; what an OFFLINE unit held is among
what its extents were poisoned for. -/
theorem nearBankUnits : Obligations.NearBankUnits := by
  unfold Obligations.NearBankUnits
  intro n s
  refine ⟨fun col c csn id ins hc ha hd hs => ?mark, fun addr hit ho hs hh => ?granule,
    fun c l e => ⟨fun h ok => extentRebuildDone_none ok h, fun h => ⟨extentRebuildDone_failed h, ?rebuilt⟩⟩,
    fun run => ⟨fun hw hr hf => ?retire, runRetire_not⟩,
    fun corrected ho hs => ⟨patrolScrub_working false ho hs rfl, patrolScrub_working true ho hs rfl⟩, nbuFailed_working, fun ho => ?offline⟩
  case mark =>
    have row := nbuMarkWrite_serving (csn := csn) (id := id) (ins := ins) hc ha hd hs rfl
    refine ⟨fun h => row.trans ?_, fun ⟨v, hv, hid, hins, hdel, hm⟩ => ⟨row.trans ?_, rfl⟩, fun o v => opMarks_of_item, fun x v => tombMarks_of_passes⟩
    · rw [if_pos (mark_count_none fun v hv => marksAt_eq_false (h v hv))]
    · rw [if_neg (mark_count_some hv (marksAt_eq_true hid hins hm) hdel)]; rfl
  case granule =>
    have row (reader : Option (Mbx × Word)) := granuleUncorrectable_lost reader ho hs hh
    refine ⟨row none, ?_, fun m tag => ⟨fun hj ha => (row (some (m, tag))).trans (congrArg _ (readerLoses_speculative hj ha)),
      fun h => ⟨fun f hf => ?_, fun hf => ?_⟩⟩⟩
    · rintro c l e rfl
      exact poison_holds { collection := c, list := l, extent := e, nbu := n.val } _
    all_goals
      refine (row (some (m, tag))).trans (congrArg _ ((readerLoses_ends h).trans ?_))
      exact congrArg (fun x => Option.elim x _ _) hf
  case rebuilt =>
    have row := extentRebuildDone_moves h
    exact ⟨fun t ht => by rw [row, ht]; rfl, fun ht => by rw [row, ht]; rfl⟩
  case retire =>
    have row := runRetire_moves hw hr hf
    exact ⟨fun u hu => row.trans (congrArg (fun x => Host.Outcome.next (Option.getD x s)) hu),
      fun hu => row.trans (congrArg (fun x => Host.Outcome.next (Option.getD x s)) hu)⟩
  case offline =>
    exact ⟨pseudoChannelOffline_working ho rfl, congrArg Nbu.state (takeOffline_nbu ..), congrArg Nbu.jobs (takeOffline_nbu ..),
      fun p => mem_takeOffline_poisoned, fun x => takeOffline_poisons⟩

end Sys2Proof.Machine

/-! ### Proofs: the messages of fabric-wide searches (O38) -/

namespace Sys2Proof.Machine

/-- A message whose layout holds is handled (R406). -/
theorem wellFormed_holds {s : State} {x : Inbound} {ok : Bool} (k : State → State) (h : ok = true) : s.wellFormed x ok k = k s := if_pos h

/-- A message that breaks its layout is a partner violation (R406). -/
theorem wellFormed_broken {s : State} {x : Inbound} {ok : Bool} (k : State → State) (h : ok = false) :
    s.wellFormed x ok k = s.partnerViolation x.port x.src := if_neg (by simp [h])

/-! #### SUBQUERY -/

/-- SUBQUERY is its row of the table (R165). -/
theorem exec_subquery (s : State) : exec .subquery s = execSubquery s := rfl

/-- A sub-query asks for a node's own shard, and not as a hedge. -/
def Composition.asksOwn (k : Composition) (node : Nat) (body : Bytes) : Bool := !bit (field body 0xB 1) 0 && k.shardOf node == field body 0xC 4

/-- The key of the collection that a sub-query is for: the named one of the own shard, the replica of any other. -/
def Composition.subqueryKey (k : Composition) (node : Nat) (body : Bytes) : Nat :=
  if k.asksOwn node body then field (body.drop 48) 0 4 else field (body.drop 48) 0 4 + 2 ^ 32 * (field body 0xC 4 + 1)

/-- The entry of a sub-query that is admitted (R165, R232, R233). -/
def State.subqueryEntry (x : Inbound) (k : Composition) (c : Collection) (s : State) : Served :=
  let plain := x.body.drop 48
  let flags := field x.body 0xB 1
  let order := treeOrder (field x.body 0 8 % 65536) k.live
  let i := order.idxOf s.nodeId
  { id := field x.body 0 8, shard := field x.body 0xC 4, from_ := x.src, collection := k.subqueryKey s.nodeId x.body, tenant := field x.body 8 2
    cls := field x.body 0xA 1, deadline := field x.body 0x20 8, hedge := bit flags 0
    told := if bit flags 1 then some (field x.body 0x10 8, field x.body 0x18 4) else none, plain := plain
    run := { composition := k.id, position := i, k := qdK plain, entryBytes := entryBytesOf c.desc.extBytes plain, reranked := qdRerank plain
             shards := if k.asksOwn s.nodeId x.body then childShards k order s.clock 4 i else [] } }

/-- What `subqueryOk` checks, one by one (R165, Table 16-19). -/
theorem subqueryOk_iff {b : Bytes} {k : Composition} {key : Nat} {c : Collection} {s : State} : subqueryOk b k key c s = true ↔
    112 ≤ b.length ∧ field b 8 2 < 4096 ∧ field b 0xA 1 ≤ 2 ∧ field b 0xB 1 < 4 ∧ zeroField b 0x1C 4 = true ∧ zeroField b 0x28 8 = true ∧
      (bit (field b 0xB 1) 1 = true ∨ (field b 0x10 8 = 0 ∧ field b 0x18 4 = 0)) ∧ subqueryFaultless (b.drop 48) = true ∧ k.active = true ∧
      field b 0xC 4 < k.members.length ∧ field b 0 8 % 65536 ∈ k.members ∧ ownerOf key = field b 8 2 ∧
      (s.comp.served.any fun y => y.id == field b 0 8 && y.shard == field b 0xC 4) = false ∧ checkQueryOn c 0x20 (b.drop 48) = .ok () := by
  cases h : checkQueryOn c 0x20 (b.drop 48) <;>
    simp [subqueryOk, h, and_assoc]

section
variable {s u : State} {x : Inbound} {k : Composition} {c : Collection}

/-- A SUBQUERY that is taken is admitted, or turned away (R165). -/
theorem subquery_taken (hm : s.takeMessage 0x10 [] = some (x, u)) : exec .subquery s = .next (u.admitSubquery x x.body) := by
  simp only [exec_subquery, execSubquery, hm]

theorem admitSubquery_noComposition (hk : u.comp.compositions.find (field (x.body.drop 48) 0x1C 4) = none) :
    u.admitSubquery x x.body = u.partnerViolation x.port x.src := by
  simp only [State.admitSubquery, hk]

section
variable (hk : u.comp.compositions.find (field (x.body.drop 48) 0x1C 4) = some k)
include hk

theorem admitSubquery_noShard (hc : u.coll (k.subqueryKey u.nodeId x.body) = none) : u.admitSubquery x x.body = u.partnerViolation x.port x.src := by
  simp only [State.admitSubquery, hk]
  split
  · rfl
  · next d h => cases hc.symm.trans h

/-- A sub-query of a composition and shard that are held here is checked, and begun in Summer (R165, R406). -/
theorem admitSubquery_held (hc : u.coll (k.subqueryKey u.nodeId x.body) = some c) : u.admitSubquery x x.body =
    u.wellFormed x (subqueryOk x.body k (k.subqueryKey u.nodeId x.body) c u) fun s =>
      if s.power.season != .summer then s else s.beginServed (s.subqueryEntry x k c) k .ring := by
  simp only [State.admitSubquery, hk]
  split
  · next h => cases hc.symm.trans h
  · next d h =>
    obtain rfl : c = d := Option.some.inj (hc.symm.trans h)
    rfl

theorem admitSubquery_faulty (hc : u.coll (k.subqueryKey u.nodeId x.body) = some c)
    (h : ¬subqueryOk x.body k (k.subqueryKey u.nodeId x.body) c u = true) : u.admitSubquery x x.body = u.partnerViolation x.port x.src := by
  rw [admitSubquery_held hk hc, wellFormed_broken _ (by simpa using h)]

theorem admitSubquery_outOfSeason (hc : u.coll (k.subqueryKey u.nodeId x.body) = some c)
    (h : subqueryOk x.body k (k.subqueryKey u.nodeId x.body) c u = true) (hs : u.power.season ≠ .summer) : u.admitSubquery x x.body = u := by
  rw [admitSubquery_held hk hc, wellFormed_holds _ h, if_pos (bne_iff_ne.mpr hs)]

theorem admitSubquery_begins (hc : u.coll (k.subqueryKey u.nodeId x.body) = some c)
    (h : subqueryOk x.body k (k.subqueryKey u.nodeId x.body) c u = true) (hs : u.power.season = .summer) :
    u.admitSubquery x x.body = u.beginServed (u.subqueryEntry x k c) k .ring := by
  rw [admitSubquery_held hk hc, wellFormed_holds _ h, if_neg (by simp [hs])]

end
end

/-! #### ADMIT_NOTICE and PARTIAL_LIST -/

/-- ADMIT_NOTICE is its row of the table (R232). -/
theorem exec_admitNotice (s : State) : exec .admitNotice s = execAdmitNotice s := rfl

/-- What an ADMIT_NOTICE notes in a merge of its ID: the CSN and the map version that a member has bound (R232). -/
def Served.noteAdmission (b : Bytes) (y : Served) : Served :=
  if y.root.isSome && (y.id == field b 0 8 || y.run.shards.any fun d => d.id == field b 0 8) then
    { y with run := { y.run with notices := y.run.notices.put (field b 20 4) (field b 8 8, field b 16 4) } }
  else y

/-- PARTIAL_LIST is its row of the table (R214–R218). -/
theorem exec_partialList (s : State) : exec .partialList s = execPartialList s := rfl

section
variable {s u : State} {x : Inbound} {y : Served} {d : Shard} {byHedge : Bool}

theorem admitNotice_noted (hm : s.takeMessage 0x11 [] = some (x, u)) (hl : x.body.length = 24)
    (ho : u.ownPastId (field x.body 0 8) u.comp.nextSubq = true) :
    exec .admitNotice s = .next { u with comp.served := u.comp.served.map (Served.noteAdmission x.body) } := by
  simp only [exec_admitNotice, execAdmitNotice, hm, wellFormed_holds, hl, ho, beq_self_eq_true, Bool.and_self]
  rfl

theorem admitNotice_broken (hm : s.takeMessage 0x11 [] = some (x, u))
    (h : ¬(x.body.length = 24 ∧ u.ownPastId (field x.body 0 8) u.comp.nextSubq = true)) :
    exec .admitNotice s = .next (u.partnerViolation x.port x.src) := by
  have broken : (x.body.length == 24 && u.ownPastId (field x.body 0 8) u.comp.nextSubq) = false := by simpa using h
  simp only [exec_admitNotice, execAdmitNotice, hm, wellFormed_broken _ broken]

/-- The open shard that a partial list is for, with its merge, and whether the list answers the hedge (R216). -/
def State.listTarget (id src : Nat) (s : State) : Option (Served × Shard × Bool) :=
  s.comp.served.findSome? fun y => (y.listFor id src).map fun d => (y, d)

/-- What is done with a list that is for an open shard (R209, R217, R233). -/
def State.takeList (x : Inbound) (y : Served) (d : Shard) (byHedge : Bool) (s : State) : State :=
  let b := x.body.drop 8
  if !listFaultless y.run x.src b then (s.partnerViolation x.port x.src).shardGone y d.no byHedge
  else if d.covers.length = 1 ∧ field b 0xC 2 ≠ 0 then (if byHedge then s.chargeSpec y.tenant 0x40 1 else s).shardGone y d.no byHedge
  else s.mergeList y d byHedge b

/-- A list for no open shard: discarded under an ID that was merged here, a violation under any other (R216, R225). -/
theorem partialList_untargeted (hm : s.takeMessage 0x12 [] = some (x, u)) (ht : u.listTarget (field x.body 0 8) x.src = none) :
    exec .partialList s = .next (if u.knownSubq (field x.body 0 8) then u else u.partnerViolation x.port x.src) := by
  simp only [State.listTarget] at ht
  simp only [exec_partialList, execPartialList, hm, ht]

theorem partialList_targeted (hm : s.takeMessage 0x12 [] = some (x, u)) (ht : u.listTarget (field x.body 0 8) x.src = some (y, d, byHedge)) :
    exec .partialList s = .next (u.takeList x y d byHedge) := by
  simp only [State.listTarget] at ht
  simp only [exec_partialList, execPartialList, hm, ht]
  rfl

theorem takeList_faulty (h : listFaultless y.run x.src (x.body.drop 8) = false) :
    u.takeList x y d byHedge = (u.partnerViolation x.port x.src).shardGone y d.no byHedge := by
  simp only [State.takeList, h, Bool.not_false, if_true]

/-- A list that says its only shard is not served leaves the shard to its other side (R217, R233). -/
theorem takeList_unserved (h : listFaultless y.run x.src (x.body.drop 8) = true) (hc : d.covers.length = 1) (hn : field (x.body.drop 8) 0xC 2 ≠ 0) :
    u.takeList x y d byHedge = (if byHedge then u.chargeSpec y.tenant 0x40 1 else u).shardGone y d.no byHedge := by
  simp only [State.takeList, h, Bool.not_true, Bool.false_eq_true, if_false]
  rw [if_pos ⟨hc, hn⟩]

theorem takeList_merges (h : listFaultless y.run x.src (x.body.drop 8) = true) (hc : d.covers.length ≠ 1 ∨ field (x.body.drop 8) 0xC 2 = 0) :
    u.takeList x y d byHedge = u.mergeList y d byHedge (x.body.drop 8) := by
  simp only [State.takeList, h, Bool.not_true, Bool.false_eq_true, if_false]
  rw [if_neg (by tauto)]

end

/-! #### CANCEL -/

/-- CANCEL is its row of the table (R225). -/
theorem exec_cancel (s : State) : exec .cancel s = execCancel s := rfl

/-- The charges of an answer that a CANCEL names are taken back (R228). -/
def State.takeCancelled (x : Inbound) (s : State) : State :=
  s.takeAnswered fun y => y.id == field x.body 0 8 && y.shard == field x.body 8 4 && y.from_ == x.src

/-- The served sub-query that a CANCEL names. -/
def State.cancelTarget (x : Inbound) (s : State) : Option Served :=
  s.comp.served.find? fun y => y.id == field x.body 0 8 && y.shard == field x.body 8 4 && y.from_ == x.src && y.root.isNone

/-- The end of a served sub-query that is cancelled (R225, R228). -/
def State.endCancelled (y : Served) (s : State) : State := (s.noteAnswered y.id y.shard y.from_ y.tenant [] []).dropServed y

section
variable {s u : State} {x : Inbound} {y : Served} {f : Flight}

theorem cancel_broken (hm : s.takeMessage 0x13 [] = some (x, u)) (h : ¬(x.body.length = 16 ∧ zeroField x.body 12 4 = true)) :
    exec .cancel s = .next (u.partnerViolation x.port x.src) := by
  have broken : (x.body.length == 16 && zeroField x.body 12 4) = false := by simpa using h
  simp only [exec_cancel, execCancel, hm, wellFormed_broken _ broken]

section
variable (hm : s.takeMessage 0x13 [] = some (x, u)) (hb : x.body.length = 16 ∧ zeroField x.body 12 4 = true)
include hm hb

/-- A CANCEL of no sub-query that is served here takes back the charges of an answer (R228). -/
theorem cancel_unserved (hy : (u.takeCancelled x).cancelTarget x = none) : exec .cancel s = .next (u.takeCancelled x) := by
  obtain ⟨hl, hz⟩ := hb
  simp only [State.cancelTarget, State.takeCancelled] at hy ⊢
  simp only [exec_cancel, execCancel, hm, wellFormed_holds, hl, hz, beq_self_eq_true, Bool.and_self, hy]

theorem cancel_waiting (hy : (u.takeCancelled x).cancelTarget x = some y)
    (hf : ((u.takeCancelled x).cancelShards y).flight (servedKey y.id y.shard) 0 = none) :
    exec .cancel s = .next (((u.takeCancelled x).cancelShards y).endCancelled y) := by
  obtain ⟨hl, hz⟩ := hb
  simp only [State.cancelTarget, State.takeCancelled, State.endCancelled] at hy hf ⊢
  simp only [exec_cancel, execCancel, hm, wellFormed_holds, hl, hz, beq_self_eq_true, Bool.and_self, hy, hf]

/-- A served sub-query that is under way is squashed (R225). -/
theorem cancel_running (hy : (u.takeCancelled x).cancelTarget x = some y)
    (hf : ((u.takeCancelled x).cancelShards y).flight (servedKey y.id y.shard) 0 = some f) :
    exec .cancel s = .next ((((u.takeCancelled x).cancelShards y).squashServed y f).endCancelled y) := by
  obtain ⟨hl, hz⟩ := hb
  simp only [State.cancelTarget, State.takeCancelled, State.endCancelled] at hy hf ⊢
  simp only [exec_cancel, execCancel, hm, wellFormed_holds, hl, hz, beq_self_eq_true, Bool.and_self, hy, hf]

end
end

/-! #### SUBQUERY_HEDGE and HEDGE_BIND_TIMEOUT -/

/-- SUBQUERY_HEDGE is its row of the table (R231). -/
theorem exec_subqueryHedge (m : Mbx) (tag : Word) (shard : Nat) (replicas : List Half) (s : State) :
    exec (.subqueryHedge m tag shard replicas) s = execSubqueryHedge m tag shard replicas s := rfl

/-- HEDGE_BIND_TIMEOUT is its row of the table (R233). -/
theorem exec_hedgeBindTimeout (id shard : Nat) (s : State) : exec (.hedgeBindTimeout id shard) s = execHedgeBindTimeout id shard s := rfl

/-- The hedge point of a shard (R231). -/
def State.hedgePoint (y : Served) (d : Shard) (s : State) : Nat := d.sent + max (s.p95 y.run.composition d.node * 5 / 4) 150000

/-- Too little of the deadline is left at the hedge point (R234). -/
def State.hedgeLate (y : Served) (d : Shard) (s : State) : Bool :=
  y.deadline != 0 && decide (y.deadline < 300000 + (s.fabTime + s.hedgePoint y d - s.clock))

/-- A shard is hedged: its member does not serve it, or it is past the hedge point, in time, and has no subtree (R217, R231, R234). -/
def State.hedgeDue (y : Served) (d : Shard) (s : State) : Bool :=
  d.gone || (decide (s.hedgePoint y d ≤ s.clock) && !s.hedgeLate y d && decide (d.covers.length ≤ 1))

/-- The sub-queries sent in the last 10 ms (R234). -/
def State.recentDispatches (s : State) : List (Nat × Bool) := s.comp.dispatched.filter fun e => s.clock < e.1 + 10000000

/-- The hedges among what was sent. -/
def hedgesIn (l : List (Nat × Bool)) : Nat := (l.filter (·.2)).length

/-- The share of hedged sub-queries is used up (R234). -/
abbrev State.hedgesCapped (s : State) : Prop :=
  5 * (s.recentDispatches.length - hedgesIn s.recentDispatches) < 100 * (hedgesIn s.recentDispatches + 1)

/-- A shard that goes without a hedge is missing once its member does not serve it (R217). -/
def State.unhedged (y : Served) (d : Shard) (shard : Nat) (s : State) : State := if d.gone then s.shardMissing y shard else s

/-- The sub-query of a shard goes to a replica, which is told what the member has bound (R231–R233). -/
def State.sendHedge (y : Served) (shard r : Nat) (s : State) : State :=
  let n := y.run.notices.find shard
  let p := s.freshSubq
  let q := p.2.sendFree r 0x10 (p.2.fabClass y.tenant) y.tenant
    (subqueryHead { y with id := p.1 } shard (1 + 2 * flag n.isSome) (n.getD (0, 0)).1 (n.getD (0, 0)).2 ++ y.plain)
  let v := q.1.updShard y shard fun e => { e with hedge := some r, hedgeId := p.1 }
  if q.2 then ({ v with comp.dispatched := s.recentDispatches ++ [(v.clock, true)] } : State).chargeSpec y.tenant 0x28 1 else v.shardGone y shard true

/-- What SUBQUERY_HEDGE does with an open shard of a merge. -/
def State.hedgeShard (y : Served) (d : Shard) (k : Composition) (shard : Nat) (replicas : List Half) (s : State) : State :=
  if d.hedge.isSome then (if d.gone && d.hedgeGone then s.shardMissing y shard else s)
  else if !s.hedgeDue y d then s
  else match s.hedgeReplica k d replicas with
    | none => s.unhedged y d shard
    | some r => if s.hedgesCapped then (s.chargeSpec y.tenant 0x38 1).unhedged y d shard else s.sendHedge y shard r

section
variable {m : Mbx} {tag : Word} {shard : Nat} {replicas : List Half} {s : State} {y : Served} {d : Shard} {k : Composition} {r : Nat}

theorem hedgeDue_iff : s.hedgeDue y d = true ↔
    d.gone = true ∨ (s.hedgePoint y d ≤ s.clock ∧ s.hedgeLate y d = false ∧ d.covers.length ≤ 1) := by
  simp only [State.hedgeDue, Bool.or_eq_true, Bool.and_eq_true, decide_eq_true_eq, Bool.not_eq_true', and_assoc]

theorem subqueryHedge_open (hy : s.mergeOf m.key tag = some y)
    (hd : y.run.shards.find? (fun d => d.no == shard && !d.merged && !d.missing) = some d)
    (hk : s.comp.compositions.find y.run.composition = some k) :
    exec (.subqueryHedge m tag shard replicas) s = .next (s.hedgeShard y d k shard replicas) := by
  simp only [exec_subqueryHedge, execSubqueryHedge, hy, hd, hk]
  rfl

/-- A shard whose hedge is out is missing once neither side serves it (R217). -/
theorem hedgeShard_out (h : d.hedge.isSome = true) :
    s.hedgeShard y d k shard replicas = if d.gone && d.hedgeGone then s.shardMissing y shard else s := if_pos h

theorem hedgeShard_early (h : d.hedge = none) (hn : ¬s.hedgeDue y d = true) : s.hedgeShard y d k shard replicas = s := by
  rw [State.hedgeShard, if_neg (by simp [h]), if_pos (by simpa using hn)]

section
variable (h : d.hedge = none) (hn : s.hedgeDue y d = true)
include h hn

theorem hedgeShard_due : s.hedgeShard y d k shard replicas = (s.hedgeReplica k d replicas).elim (s.unhedged y d shard) fun r =>
    if s.hedgesCapped then (s.chargeSpec y.tenant 0x38 1).unhedged y d shard else s.sendHedge y shard r := by
  rw [State.hedgeShard, if_neg (by simp [h]), if_neg (by simp [hn])]
  cases s.hedgeReplica k d replicas <;> rfl

/-- Without a replica in sync a shard that its member does not serve is missing (R217). -/
theorem hedgeShard_noReplica (hr : s.hedgeReplica k d replicas = none) : s.hedgeShard y d k shard replicas = s.unhedged y d shard := by
  rw [hedgeShard_due h hn, hr]; rfl

theorem hedgeShard_capped (hr : s.hedgeReplica k d replicas = some r) (hc : s.hedgesCapped) :
    s.hedgeShard y d k shard replicas = (s.chargeSpec y.tenant 0x38 1).unhedged y d shard := by
  rw [hedgeShard_due h hn, hr]; exact if_pos hc

theorem hedgeShard_sends (hr : s.hedgeReplica k d replicas = some r) (hc : ¬s.hedgesCapped) :
    s.hedgeShard y d k shard replicas = s.sendHedge y shard r := by
  rw [hedgeShard_due h hn, hr]; exact if_neg hc

end
end

section
variable {id shard t : Nat} {s : State} {y : Served} {f : Flight}
  (hy : s.comp.served.find? (fun y => y.id == id && y.shard == shard) = some y) (ht : y.waitSince = some t)
  (hf : s.flight (servedKey id shard) 0 = some f)
include hy ht hf

/-- A hedge whose CSN has not committed within 1 ms is declined (R233). -/
theorem hedgeBindTimeout_due (hw : t + 1000000 ≤ s.clock) (hb : f.bound = none) :
    exec (.hedgeBindTimeout id shard) s = .next (s.declineHedge y) := by
  simp only [exec_hedgeBindTimeout, execHedgeBindTimeout, hy, ht, hf, hw, hb, decide_true, Option.isNone_none, Bool.and_self, if_true]

theorem hedgeBindTimeout_not (h : s.clock < t + 1000000 ∨ f.bound.isSome = true) : exec (.hedgeBindTimeout id shard) s = .next s := by
  have waits : (decide (t + 1000000 ≤ s.clock) && f.bound.isNone) = false := by
    rcases h with h | h
    · simp [Nat.not_le.mpr h]
    · simp [Option.isNone_eq_false_iff.mpr h]
  simp only [exec_hedgeBindTimeout, execHedgeBindTimeout, hy, ht, hf, waits, Bool.false_eq_true, if_false]

end

/-! #### REFINE_READ_HEDGE -/

/-- REFINE_READ_HEDGE is its row of the table (R234, R235). -/
theorem exec_refineReadHedge (m : Mbx) (tag : Word) (place : ReadAt) (s : State) :
    exec (.refineReadHedge m tag place) s = execRefineReadHedge m tag place s := rfl

/-- A refine read is past its hedge point, and waits for its channel alone (R234, R235). -/
def Read.hedgeDue (r : Read) (p99 now : Nat) : Bool :=
  r.tier == .flash && decide (r.area < 2) && r.hedge.isNone && r.lost.isNone && decide (r.since + max (2 * p99) 100000 ≤ now)

/-- The refine reads issued in the last 10 ms (R234). -/
def State.recentReads (s : State) : List (Nat × Bool) := s.comp.readsIssued.filter fun e => s.clock < e.1 + 10000000

/-- A command's hedges, or the share of hedged reads, are used up (R234, R235). -/
abbrev State.readHedgesCapped (f : Flight) (s : State) : Prop :=
  32 ≤ f.hedges ∨ 2 * (s.recentReads.length - hedgesIn s.recentReads) < 100 * (hedgesIn s.recentReads + 1)

/-- What REFINE_READ_HEDGE does with read `i`, where `p` is in sync (R234, R235). -/
def State.hedgeRefineRead (f : Flight) (i : Nat) (r : Read) (c : Collection) (p : Replica) (p99 : Nat) (s : State) : State :=
  if !r.hedgeDue p99 s.clock then s
  else if s.readHedgesCapped f then s.chargeSpec f.tenant 0x38 1
  else s.sendReadHedge f i r p.node ((s.comp.compositions.find c.composition).elim 0 fun k => k.shardOf s.nodeId) s.recentReads

section
variable {m : Mbx} {tag : Word} {i p99 now : Nat} {ch : Fin 64} {f : Flight} {r : Read} {c : Collection} {p : Replica} {s : State}

theorem Read.hedgeDue_iff : r.hedgeDue p99 now = true ↔
    r.tier = .flash ∧ r.area < 2 ∧ r.hedge = none ∧ r.lost = none ∧ r.since + max (2 * p99) 100000 ≤ now := by
  simp only [Read.hedgeDue, Bool.and_eq_true, beq_iff_eq, decide_eq_true_eq, Option.isNone_iff_eq_none, and_assoc]

/-- The p99 of a channel without a recent read is free. -/
theorem refineReadHedge_replica (hf : s.flight m.key tag = some f) (hr : (readsOf f)[i]? = some r) (hc : s.coll r.collection = some c)
    (hp : c.replicas.find? (·.state == 1) = some p) : exec (.refineReadHedge m tag ⟨i, ch⟩) s =
      .next (s.draw.2.hedgeRefineRead f i r c p ((s.draw.2.p99 ch.val).getD s.draw.1)) := by
  simp only [exec_refineReadHedge, execRefineReadHedge, hf, hr, hc, hp]
  rfl

theorem hedgeRefineRead_early (h : ¬r.hedgeDue p99 s.clock = true) : s.hedgeRefineRead f i r c p p99 = s := if_pos (by simpa using h)

theorem hedgeRefineRead_capped (h : r.hedgeDue p99 s.clock = true) (hc : s.readHedgesCapped f) :
    s.hedgeRefineRead f i r c p p99 = s.chargeSpec f.tenant 0x38 1 := by
  rw [State.hedgeRefineRead, if_neg (by simp [h]), if_pos hc]

theorem hedgeRefineRead_sends (h : r.hedgeDue p99 s.clock = true) (hc : ¬s.readHedgesCapped f) : s.hedgeRefineRead f i r c p p99 =
    s.sendReadHedge f i r p.node ((s.comp.compositions.find c.composition).elim 0 fun k => k.shardOf s.nodeId) s.recentReads := by
  rw [State.hedgeRefineRead, if_neg (by simp [h]), if_neg hc]

end

/-! #### HEDGE_READ -/

/-- HEDGE_READ is its row of the table (R235, R420). -/
theorem exec_hedgeRead (o : HedgeOutcome) (s : State) : exec (.hedgeRead o) s = execHedgeRead o s := rfl

/-- The key of the replica that a hedged read is of. -/
def hedgeReadKey (b : Bytes) : Nat := field b 4 4 + 2 ^ 32 * (field b 0x20 4 + 1)

/-- Answer a hedged read (Table 16-22). -/
def State.answerHedge (x : Inbound) (kind st : Nat) (data : Bytes) (s : State) : State :=
  (s.sendFree x.src 0x14 x.cls x.tenant (hedgeMessage kind st (field x.body 2 1) (field x.body 4 4) (field x.body 8 8) (field x.body 0x10 8)
    (field x.body 0x18 8) (field x.body 0x20 4) (field x.body 0x28 8) data)).1

/-- The version that a hedged read is of, where the replica holds it. -/
def Collection.hedgedVersion (c : Collection) (b : Bytes) : Option Version :=
  c.versions.find? fun v => v.id == field b 0x10 8 && v.ins == field b 0x18 8

/-- What a replica's data answers, and what it charges (R228, R235). -/
def State.answerHedgeData (x : Inbound) (v : Version) (s : State) : State :=
  let data := if field x.body 2 1 == 0 then v.refine else v.vector
  let cost := (if v.staged then [] else [(0x38, 1)]) ++ sendCost (48 + data.length)
  ((s.chargeAll x.tenant cost).noteAnswered (field x.body 8 8) (field x.body 0x20 4) x.src x.tenant cost []).answerHedge x 2 0 data

/-- What is done with a hedged READ of a collection that is held here (R235, R420). -/
def State.readHedged (o : HedgeOutcome) (x : Inbound) (c : Collection) (s : State) : State :=
  if c.availability == .keyLost || s.zeroisingColl (hedgeReadKey x.body) then s.answerHedge x 3 0x27 []
  else match c.hedgedVersion x.body with
    | none => ({ s with free := s.free + 1 } : State).answerHedge x 3 ([0x22, 0x23, 0x24, 0x26, 0x27].getD (Config.free s.free % 5) 0x22) []
    | some v => if o == .data || v.staged then s.answerHedgeData x v else s.answerHedge x 3 (hedgeStatus o) []

section
variable {o : HedgeOutcome} {s u : State} {x : Inbound} {c : Collection} {v : Version}

section
variable (hm : s.takeMessage 0x14 [1, 4] = some (x, u))
include hm

theorem hedgeRead_broken (h : hedgeFaultless x.body = false) : exec (.hedgeRead o) s = .next (u.partnerViolation x.port x.src) := by
  simp only [exec_hedgeRead, execHedgeRead, hm, wellFormed_broken _ h]

theorem hedgeRead_cancels (h : hedgeFaultless x.body = true) (hk : field x.body 0 1 = 4) :
    exec (.hedgeRead o) s = .next (u.cancelHedgeRead x) := by
  simp only [exec_hedgeRead, execHedgeRead, hm, wellFormed_holds _ h, hk, beq_self_eq_true, if_true]

theorem hedgeRead_noReplica (h : hedgeFaultless x.body = true) (hk : field x.body 0 1 ≠ 4) (hc : u.coll (hedgeReadKey x.body) = none) :
    exec (.hedgeRead o) s = .next (u.partnerViolation x.port x.src) := by
  simp only [hedgeReadKey] at hc
  simp only [exec_hedgeRead, execHedgeRead, hm, wellFormed_holds _ h, beq_eq_false_iff_ne.mpr hk, Bool.false_eq_true, if_false, hc]

theorem hedgeRead_held (h : hedgeFaultless x.body = true) (hk : field x.body 0 1 ≠ 4) (hc : u.coll (hedgeReadKey x.body) = some c) :
    exec (.hedgeRead o) s = .next (u.readHedged o x c) := by
  simp only [hedgeReadKey] at hc
  simp only [exec_hedgeRead, execHedgeRead, hm, wellFormed_holds _ h, beq_eq_false_iff_ne.mpr hk, Bool.false_eq_true, if_false, hc]
  rfl

end

/-- The key of the replica's collection is lost, or going (R94). -/
abbrev State.hedgeKeyLost (c : Collection) (b : Bytes) (s : State) : Prop := c.availability = .keyLost ∨ s.zeroisingColl (hedgeReadKey b) = true

theorem readHedged_keyLost (h : u.hedgeKeyLost c x.body) : u.readHedged o x c = u.answerHedge x 3 0x27 [] := if_pos (by simpa using h)

section
variable (h : ¬u.hedgeKeyLost c x.body)
include h

theorem readHedged_usable : u.readHedged o x c = (c.hedgedVersion x.body).elim
    (({ u with free := u.free + 1 } : State).answerHedge x 3 ([0x22, 0x23, 0x24, 0x26, 0x27].getD (Config.free u.free % 5) 0x22) [])
    fun v => if o == .data || v.staged then u.answerHedgeData x v else u.answerHedge x 3 (hedgeStatus o) [] := by
  rw [State.readHedged, if_neg (by simpa using h)]
  cases c.hedgedVersion x.body <;> rfl

/-- A version that is not held fails with one of the statuses of Table 16-22. -/
theorem readHedged_unheld (hv : c.hedgedVersion x.body = none) : ∃ st ∈ [0x22, 0x23, 0x24, 0x26, 0x27],
    u.readHedged o x c = ({ u with free := u.free + 1 } : State).answerHedge x 3 st [] := by
  rw [readHedged_usable h, hv]
  refine ⟨_, ?_, rfl⟩
  have five : Config.free u.free % 5 < [0x22, 0x23, 0x24, 0x26, 0x27].length := Nat.mod_lt _ (by decide)
  rw [List.getD_eq_getElem _ _ five]
  exact List.getElem_mem _

theorem readHedged_data (hv : c.hedgedVersion x.body = some v) (ho : o = .data ∨ v.staged = true) :
    u.readHedged o x c = u.answerHedgeData x v := by
  rw [readHedged_usable h, hv]
  exact if_pos (by simpa using ho)

theorem readHedged_fails (hv : c.hedgedVersion x.body = some v) (ho : o ≠ .data) (hs : v.staged = false) :
    u.readHedged o x c = u.answerHedge x 3 (hedgeStatus o) [] := by
  rw [readHedged_usable h, hv]
  exact if_neg (by simp [ho, hs])

end
end

/-! #### HEDGE_DATA -/

/-- HEDGE_DATA is its row of the table (R235). -/
theorem exec_hedgeData (s : State) : exec .hedgeData s = execHedgeData s := rfl

/-- A read that was asked of a node under an ID. -/
def Read.hedgedAs (src id : Nat) : Read → Bool := fun r => r.hedge.any fun h => h.node == src && h.ids.contains id

/-- A replica's records of read `i` have come: with the last of them the hedge has won (R235). -/
def State.hedgeBrings (id : Nat) (f : Flight) (i : Nat) (r : Read) (s : State) : State :=
  let h := r.hedge.getD { node := 0, ids := [] }
  let v := s.putReads f ((readsOf f).set i { r with hedge := some { h with ids := h.ids.filter (· != id) } })
  if (h.ids.filter (· != id)).isEmpty && !h.failed then v.again f (fun f s => s.hedgeWon f i) else v

/-- The hedge of read `i` has failed: it is logged, and the original alone is awaited (R235). -/
def State.hedgeFails (x : Inbound) (f : Flight) (i : Nat) (r : Read) (s : State) : State :=
  (s.log { seq := 0, time := 0, kind := 4, status := field x.body 1 1, tenant := f.tenant, opcode := f.opcode.toNat, tag := f.tag, detail := x.src }).putReads f
    ((readsOf f).set i { r with hedge := some { r.hedge.getD { node := 0, ids := [] } with failed := true } })

section
variable {s u : State} {x : Inbound} {f : Flight} {r : Read} {st : Status} (hm : s.takeMessage 0x14 [2, 3] = some (x, u))
include hm

theorem hedgeData_broken (h : ¬(hedgeFaultless x.body = true ∧ u.ownPastId (field x.body 8 8) u.comp.nextRead = true)) :
    exec .hedgeData s = .next (u.partnerViolation x.port x.src) := by
  have broken : (hedgeFaultless x.body && u.ownPastId (field x.body 8 8) u.comp.nextRead) = false := by simpa using h
  simp only [exec_hedgeData, execHedgeData, hm, wellFormed_broken _ broken]

section
variable (hb : hedgeFaultless x.body = true ∧ u.ownPastId (field x.body 8 8) u.comp.nextRead = true)
include hb

/-- An answer that no read waits for any more is discarded (R235). -/
theorem hedgeData_unasked (hf : u.host.flights.find? (fun f => (readsOf f).any (Read.hedgedAs x.src (field x.body 8 8))) = none) :
    exec .hedgeData s = .next u := by
  unfold Read.hedgedAs at hf
  simp only [exec_hedgeData, execHedgeData, hm, wellFormed_holds, hb, Bool.and_self, hf]

section
variable (hf : u.host.flights.find? (fun f => (readsOf f).any (Read.hedgedAs x.src (field x.body 8 8))) = some f)
  (hr : (readsOf f)[(readsOf f).findIdx (Read.hedgedAs x.src (field x.body 8 8))]? = some r)
include hf hr

theorem hedgeData_brings (hk : field x.body 0 1 = 2) : exec .hedgeData s =
    .next (u.hedgeBrings (field x.body 8 8) f ((readsOf f).findIdx (Read.hedgedAs x.src (field x.body 8 8))) r) := by
  unfold Read.hedgedAs at hf hr ⊢
  simp only [exec_hedgeData, execHedgeData, hm, wellFormed_holds, hb, Bool.and_self, hf, hr, hk, beq_self_eq_true, if_true]
  rfl

theorem hedgeData_fails (hk : field x.body 0 1 ≠ 2) (hl : r.lost = none) : exec .hedgeData s =
    .next (u.hedgeFails x f ((readsOf f).findIdx (Read.hedgedAs x.src (field x.body 8 8))) r) := by
  unfold Read.hedgedAs at hf hr ⊢
  simp only [exec_hedgeData, execHedgeData, hm, wellFormed_holds, hb, Bool.and_self, hf, hr, beq_eq_false_iff_ne.mpr hk, Bool.false_eq_true, if_false,
    State.hedgeFails, hl]

/-- With both sides failed the command ends by the outcome of the original (R235). -/
theorem hedgeData_loses (hk : field x.body 0 1 ≠ 2) (hl : r.lost = some st) : exec .hedgeData s =
    .next ((u.hedgeFails x f ((readsOf f).findIdx (Read.hedgedAs x.src (field x.body 8 8))) r).again f fun g s =>
      s.readLost g ((readsOf f).findIdx (Read.hedgedAs x.src (field x.body 8 8))) st) := by
  unfold Read.hedgedAs at hf hr ⊢
  simp only [exec_hedgeData, execHedgeData, hm, wellFormed_holds, hb, Bool.and_self, hf, hr, beq_eq_false_iff_ne.mpr hk, Bool.false_eq_true, if_false,
    State.hedgeFails, hl]

end
end
end

/-! #### UNREACHABLE -/

/-- The layout of an UNREACHABLE (R403, Table 16-8). -/
def unreachableFaultless (b : Bytes) : Bool := b.length == 16 && decide (1 ≤ field b 6 1) && decide (field b 6 1 ≤ 4) && zeroField b 8 8

/-- The message sent that an UNREACHABLE names. -/
def State.sentAs (b : Bytes) (s : State) : Option (Nat × Nat × Nat × Bytes) :=
  s.fabric.sent.find? fun m => m.1 == field b 0 4 && m.2.1 == field b 4 2 && m.2.2.1 == field b 7 1

/-- An UNREACHABLE is counted, and what it names is taken as not delivered (R403). -/
def State.takeUnreachable (x : Inbound) (s : State) : State :=
  let v : State := { s with fabric.unreachRx := min (s.fabric.unreachRx + 1) 0xFFFFFFFF }
  match v.sentAs x.body with
  | none => v
  | some k => ({ v with fabric.sent := v.fabric.sent.erase k } : State).notDelivered k.2.1 k.2.2.1 k.2.2.2

theorem exec_unreachable (s : State) : exec .unreachable s =
    .next (s.onMessage 3 [] (fun x _ => unreachableFaultless x.body) State.takeUnreachable) := rfl

theorem unreachableFaultless_iff {b : Bytes} : unreachableFaultless b = true ↔
    b.length = 16 ∧ 1 ≤ field b 6 1 ∧ field b 6 1 ≤ 4 ∧ zeroField b 8 8 = true := by
  simp only [unreachableFaultless, Bool.and_eq_true, beq_iff_eq, decide_eq_true_eq, and_assoc]

section
variable {x : Inbound} {u : State}

theorem takeUnreachable_unknown (h : u.sentAs x.body = none) :
    u.takeUnreachable x = { u with fabric.unreachRx := min (u.fabric.unreachRx + 1) 0xFFFFFFFF } := by
  simp only [State.sentAs] at h
  simp only [State.takeUnreachable, State.sentAs, h]

theorem takeUnreachable_sent {k : Nat × Nat × Nat × Bytes} (h : u.sentAs x.body = some k) : u.takeUnreachable x =
    ({ u with fabric.unreachRx := min (u.fabric.unreachRx + 1) 0xFFFFFFFF, fabric.sent := u.fabric.sent.erase k } : State).notDelivered
      k.2.1 k.2.2.1 k.2.2.2 := by
  simp only [State.sentAs] at h
  simp only [State.takeUnreachable, State.sentAs, h]

end

/-! #### The obligation -/

/-- Settles O38: each message is turned away or taken, and each hedge sent or not, by what its body says and what the module holds. -/
theorem mergeMessages : Obligations.MergeMessages := by
  unfold Obligations.MergeMessages
  intro m tag s u x
  refine ⟨fun hm => ?subquery, fun hm => ⟨fun ⟨hl, ho⟩ => admitNotice_noted hm hl ho, admitNotice_broken hm⟩, fun hm => ?list, fun hm => ?cancel,
    fun shard replicas y d k hy hd hk => ?hedge,
    fun id shard y t f hy ht hf => ⟨hedgeBindTimeout_due hy ht hf, hedgeBindTimeout_not hy ht hf⟩,
    fun i ch f r c p hf hr hc hp => ?readHedge, fun o hm => ?read, fun hm => ?data, fun hm => ?unreachable⟩
  case subquery =>
    rw [subquery_taken hm]
    refine ⟨fun hk => congrArg _ (admitSubquery_noComposition hk), fun k hk => ⟨fun hc => congrArg _ (admitSubquery_noShard hk hc), fun c hc => ?_⟩⟩
    intro ok
    have sound : subqueryOk x.body k (k.subqueryKey u.nodeId x.body) c u = true ↔ ok := subqueryOk_iff
    exact ⟨fun h => congrArg _ (admitSubquery_faulty hk hc (mt sound.mp h)), fun h hs => congrArg _ (admitSubquery_outOfSeason hk hc (sound.mpr h) hs),
      fun h hs => congrArg _ (admitSubquery_begins hk hc (sound.mpr h) hs)⟩
  case list =>
    refine ⟨fun ht hk => ?_, fun ht hk => ?_, fun y d byHedge ht => ?_⟩
    · rw [partialList_untargeted hm ht, if_pos hk]
    · rw [partialList_untargeted hm ht, if_neg (by simpa using hk)]
    · rw [partialList_targeted hm ht]
      exact ⟨fun h => congrArg _ (takeList_faulty h), fun h hc hn => congrArg _ (takeList_unserved h hc hn), fun h hc => congrArg _ (takeList_merges h hc)⟩
  case cancel =>
    exact ⟨cancel_broken hm, cancel_unserved hm, fun y hb hy => ⟨cancel_waiting hm hb hy, fun f => cancel_running hm hb hy⟩⟩
  case hedge =>
    rw [subqueryHedge_open hy hd hk]
    intro point late old hedged due capped
    have sound : s.hedgeDue y d = true ↔ due := hedgeDue_iff
    exact ⟨fun h => congrArg _ (hedgeShard_out h), fun h hn => congrArg _ (hedgeShard_early h (mt sound.mp hn)),
      fun h hn hr => congrArg _ (hedgeShard_noReplica h (sound.mpr hn) hr),
      fun r h hn hr => ⟨fun hc => congrArg _ (hedgeShard_capped h (sound.mpr hn) hr hc), fun hc => congrArg _ (hedgeShard_sends h (sound.mpr hn) hr hc)⟩⟩
  case readHedge =>
    rw [refineReadHedge_replica hf hr hc hp]
    intro v p99 old hedged due capped
    have sound : r.hedgeDue p99 v.clock = true ↔ due := Read.hedgeDue_iff
    exact ⟨fun h => congrArg _ (hedgeRefineRead_early (mt sound.mp h)), fun h hc => congrArg _ (hedgeRefineRead_capped (sound.mpr h) hc),
      fun h hc => congrArg _ (hedgeRefineRead_sends (sound.mpr h) hc)⟩
  case read =>
    refine ⟨hedgeRead_broken hm, hedgeRead_cancels hm, hedgeRead_noReplica hm, fun c hb hk hc => ?_⟩
    rw [hedgeRead_held hm hb hk hc]
    refine ⟨fun h => congrArg _ (readHedged_keyLost h), fun h hv => ?_, fun v h hv ho => congrArg _ (readHedged_data h hv ho),
      fun v h hv ho hs => congrArg _ (readHedged_fails h hv ho hs)⟩
    obtain ⟨st, hst, e⟩ := readHedged_unheld (o := o) h hv
    exact ⟨st, hst, congrArg _ e⟩
  case data =>
    exact ⟨hedgeData_broken hm, hedgeData_unasked hm, fun f r hb hf hr => ⟨hedgeData_brings hm hb hf hr, hedgeData_fails hm hb hf hr,
      fun st => hedgeData_loses hm hb hf hr⟩⟩
  case unreachable =>
    obtain ⟨-, idle, broken⟩ := turnedAway_of_onMessage (exec_unreachable s)
    intro ok v
    have sound : unreachableFaultless x.body = true ↔ ok := unreachableFaultless_iff
    have taken (hs : u.serving = true) (h : ok) := taken_of_onMessage (exec_unreachable s) hm hs (sound.mpr h)
    exact ⟨idle x u hm, fun hs h => broken x u hm hs (Bool.eq_false_iff.mpr (mt sound.mp h)),
      fun hs h hk => (taken hs h).trans (congrArg _ (takeUnreachable_unknown hk)), fun k hs h hk => (taken hs h).trans (congrArg _ (takeUnreachable_sent hk))⟩

end Sys2Proof.Machine

/-! ### Proofs: how searches, batches and selections start (O33) -/

namespace Sys2Proof.Machine

/-! #### SEARCH and SEARCH_RERANK -/

/-- SEARCH is its row of the table (R141). -/
theorem exec_search (m : Mbx) (tag : Word) (s : State) : exec (.search m tag) s = .next (s.start 0x3001 m tag (State.searchBody false)) := rfl

/-- SEARCH_RERANK is its row of the table (R164). -/
theorem exec_searchRerank (m : Mbx) (tag : Word) (s : State) : exec (.searchRerank m tag) s = .next (s.start 0x3002 m tag (State.searchBody true)) := rfl

/-- What a search command does once its checks have passed: the fabric-wide search, or the binding of its snapshot and the search on it (R44, R165). -/
def State.searchChecked (c : Collection) (g : Nat × Nat) (f : Flight) (s : State) : Except Detail State :=
  if bit (field f.plain 6 2) 0 then s.fabricSearch f c
  else s.bindSnapshot c f fun q s => match s.flight f.mbx f.tag with
    | some w => s.searchBound c q g w
    | none => .ok s

section
variable {m : Mbx} {tag : Word} {f w : Flight} {s t u : State} {rr : Bool} {c : Collection} {g : Nat × Nat} {str : Option (Nat × Stream)} {q : Nat}

/-- At its turn either search command does what their common body gives. -/
theorem search_atTurn (ht : s.turn (if rr then 0x3002 else 0x3001) m tag f) (h : s.searchBody rr f = .ok t) :
    (rr = false → exec (.search m tag) s = .next t) ∧ (rr = true → exec (.searchRerank m tag) s = .next t) := by
  cases rr with
  | false => exact ⟨fun _ => (exec_search m tag s).trans (congrArg _ (start_ok ht h)), nofun⟩
  | true => exact ⟨nofun, fun _ => (exec_searchRerank m tag s).trans (congrArg _ (start_ok ht h))⟩

/-- A command that has bound its snapshot goes on with it (R146). -/
theorem searchBody_bound (hm : f.mbx < 2 ^ 20) (hb : f.bound = some q) : s.searchBody rr f = s.searchAgain f q := by
  have own : ¬2 ^ 40 ≤ f.mbx := by omega
  rw [State.searchBody, if_neg own, if_neg (Nat.not_le.mpr hm), hb]

/-- A command whose checks pass takes its deadline and its reranker (R146, R164). -/
theorem searchBody_checked (hm : f.mbx < 2 ^ 20) (hb : f.bound = none) (hl : 64 ≤ f.plain.length)
    (hu : s.unfenced (if bit (field f.plain 6 2) 0 then field f.plain 0x1C 4 else 0) = .ok ())
    (hq : checkQuery rr (hdrStream f.hdr) 0x20 0x0C f.hdr.csn.toNat f.plain = .ok ()) (hs : s.streamField 0x34 (field f.plain 0x14 2) f = .ok str)
    (hc : s.usableColl 0x20 (field f.plain 0 4) f = .ok c) (ha : f.hdr.csn.toNat ≤ c.assigned) (hqc : checkQueryOn c 0x20 f.plain = .ok ())
    (hr : s.bindReranker c f = .ok (g, u))
    (hn : (u.updFlight f.mbx f.tag fun x => { x with deadline := queryDeadline f.arrival f.plain }).searchesInFlight + 1 ≤ 8192) :
    s.searchBody rr f = (u.updFlight f.mbx f.tag fun x => { x with deadline := queryDeadline f.arrival f.plain }).searchChecked c g
      { f with deadline := queryDeadline f.arrival f.plain } := by
  have own : ¬2 ^ 40 ≤ f.mbx := by omega
  rw [State.searchBody, if_neg own, if_neg (Nat.not_le.mpr hm), hb]
  simp only [hu, need_ok (decide_eq_true hl), hq, hs, hc, csnAssigned, need_ok (decide_eq_true ha), hqc, hr, ok_bind, State.underSearchLimit, if_pos hn]
  rfl

section
variable (hf : bit (field f.plain 6 2) 0 = false) (hb : f.bound = none) (ha : f.hdr.csn.toNat ≤ c.assigned)
include hf hb ha

/-- A search on this module alone binds the CSN it names, or the committed one, and goes on from there (R44). -/
theorem searchChecked_binds (h3 : f.hdr.csn.toNat = 0 ∨ c.floor ≤ f.hdr.csn.toNat) (h4 : f.hdr.csn.toNat ≤ c.committed)
    (hq : q = if f.hdr.csn.toNat = 0 then c.committed else f.hdr.csn.toNat)
    (hu : u = s.updFlight f.mbx f.tag fun g => { g with bound := some q, coll := some c.id, mapBound := c.map.version, boundAt := s.clock })
    (hw : u.flight f.mbx f.tag = some w) : s.searchChecked c g f = u.searchBound c q g w := by
  subst hq hu
  simp only [State.searchChecked, hf, Bool.false_eq_true, if_false, bindSnapshot_at _ hb ha h3 h4, hw]

/-- A search on this module alone waits for a CSN that is not committed yet (R44). -/
theorem searchChecked_waits (h3 : c.floor ≤ f.hdr.csn.toNat) (h4 : c.committed < f.hdr.csn.toNat) :
    s.searchChecked c g f = .ok (s.setWork f (.csnWait c.id f.hdr.csn.toNat)) := by
  simp only [State.searchChecked, hf, Bool.false_eq_true, if_false, bindSnapshot_wait _ hb ha h3 h4]

end

theorem searchChecked_fabric (hf : bit (field f.plain 6 2) 0 = true) : s.searchChecked c g f = s.fabricSearch f c := if_pos hf

end

/-! #### From the snapshot to the scans -/

section
variable {s t t' u : State} {c : Collection} {q : Nat} {rr : Nat × Nat} {w : Flight} {o : Option Generation} {b : Bytes} {k : State → Except Detail State}

/-- The weights of a generation, where there is one, are read if it has no damage (R298). -/
def State.withWeightsOf (o : Option Generation) (f : Flight) (b : Bytes) (k : State → Except Detail State) (s : State) : Except Detail State :=
  match o with
  | some g => s.withWeights g f b k
  | none => k s

theorem withWeightsOf_ok (h : ∀ g, o = some g → g.damaged = []) : s.withWeightsOf o w b k = k s := by
  cases o with
  | none => rfl
  | some g => exact withWeights_ok (h g rfl)

/-- A search that is no item of a batch and has its crew at once goes on (R247). -/
theorem searchCrew_ok (hm : w.mbx < 2 ^ 20 ∨ 2 ^ 40 ≤ w.mbx)
    (h : s.crewAtOnce (placeClassOf s.placeImage c.cls).searchCrew (selectionPages (qdDepth w.plain) (decide (256 < qdDepth w.plain)) (!qdCalm w.plain)) w t) :
    s.searchCrew c w k = k t := by
  have own : ¬(2 ^ 20 ≤ w.mbx ∧ w.mbx < 2 ^ 40) := by omega
  rw [State.searchCrew, if_neg own, withCrew_ok h]

/-- The image of the encoder that a collection has pinned. -/
def State.pinnedModel (c : Collection) (s : State) : Bytes := (s.generation .model c.desc.model c.modelGen).elim [] (·.image)

/-- The image of the vocabulary that a collection has pinned. -/
def State.pinnedVocab (c : Collection) (s : State) : Bytes := (s.generation .vocab c.desc.vocab c.vocabGen).elim [] (·.image)

/-- A query as its collection's pinned images prepare it (R147). -/
def State.preparedQuery (c : Collection) (b : Bytes) (s : State) : Prepared := prepareQuery c (s.pinnedModel c) (s.pinnedVocab c) b

/-- The KV pages of a text query, where `u` holds the pinned images (R297). -/
def State.reserveQuery (u : State) (c : Collection) (w : Flight) (s : State) : Except Detail State :=
  s.reserveOnce w (readModelHeader (u.pinnedModel c)) (modelSequence (readModelHeader (u.pinnedModel c)) (u.preparedQuery c w.plain).kept).1.length

/-- The crew of a search, the KV pages of a text query, and the scans, where `u` holds the pinned images. -/
def State.scanFrom (u : State) (c : Collection) (q : Nat) (rr : Nat × Nat) (w : Flight) (s : State) : Except Detail State :=
  s.searchCrew c w fun t => do
    let t ← if field w.plain 0xE 1 == 2 then u.reserveQuery c w t else pure t
    return t.startScans c q rr w (u.preparedQuery c w.plain)

/-- A bound search reads the weights of its reranker, and before them for a text query those of its encoder (R147, R298). -/
theorem searchBound_eq : s.searchBound c q rr w =
    let u := s.bindPinned c w
    let fail := emptyResult c q c.map.version w.plain
    let second (v : State) := v.withWeightsOf (v.generation .model rr.1 rr.2) w fail (u.scanFrom c q rr w)
    if field w.plain 0xE 1 == 2 then u.withWeightsOf (u.generation .model c.desc.model c.modelGen) w fail second else second u := by
  rw [State.searchBound]
  dsimp only
  split
  · next g e =>
    conv_rhs => rw [e]
    rfl
  · next e =>
    conv_rhs => rw [e]
    exact (ite_self _).symm

/-- With undamaged weights a bound search comes to its crew (R298). -/
theorem searchBound_undamaged
    (hm : field w.plain 0xE 1 = 2 → ∀ g, (s.bindPinned c w).generation .model c.desc.model c.modelGen = some g → g.damaged = [])
    (hr : ∀ g, (s.bindPinned c w).generation .model rr.1 rr.2 = some g → g.damaged = []) :
    s.searchBound c q rr w = (s.bindPinned c w).scanFrom c q rr w (s.bindPinned c w) := by
  rw [searchBound_eq]
  dsimp only
  by_cases h : field w.plain 0xE 1 = 2
  · rw [if_pos (beq_iff_eq.mpr h), withWeightsOf_ok (hm h), withWeightsOf_ok hr]
  · rw [if_neg (mt beq_iff_eq.mp h), withWeightsOf_ok hr]

section
variable (hw : w.mbx < 2 ^ 20 ∨ 2 ^ 40 ≤ w.mbx)
  (hc : s.crewAtOnce (placeClassOf s.placeImage c.cls).searchCrew
    (selectionPages (qdDepth w.plain) (decide (256 < qdDepth w.plain)) (!qdCalm w.plain)) w t)
include hw hc

/-- A vector query with its crew at once starts its scans (R148). -/
theorem scanFrom_vector (h : field w.plain 0xE 1 ≠ 2) : u.scanFrom c q rr w s = .ok (t.startScans c q rr w (u.preparedQuery c w.plain)) := by
  rw [State.scanFrom, searchCrew_ok hw hc, if_neg (mt beq_iff_eq.mp h)]
  rfl

/-- A text query with its crew at once starts its scans once it has its KV pages (R147, R297). -/
theorem scanFrom_text (h : field w.plain 0xE 1 = 2) (hk : u.reserveQuery c w t = .ok t') :
    u.scanFrom c q rr w s = .ok (t'.startScans c q rr w (u.preparedQuery c w.plain)) := by
  rw [State.scanFrom, searchCrew_ok hw hc, if_pos (beq_iff_eq.mpr h), hk]
  rfl

end
end

/-! #### SEARCH_BATCH -/

/-- SEARCH_BATCH is its row of the table (R145). -/
theorem exec_searchBatch (m : Mbx) (tag : Word) (s : State) : exec (.searchBatch m tag) s = execSearchBatch m tag s := rfl

/-- The items of a batch join the commands in flight, bound to `q` or to what has committed, and are run (R145). -/
def State.runItems (items : List (Nat × Bytes)) (n : Nat) (f : Flight) (q : Option Nat) (s : State) : Except Detail State :=
  let v := s.updFlight f.mbx f.tag fun g => { g with results := List.replicate n none }
  ({ v with host.flights := v.host.flights ++ items.mapIdx fun i x => v.itemFlight f i x.2 q } : State).runBatch f

/-- What a batch does once its checks have passed: its items are run, on the snapshot it names where it names one (R44, R145). -/
def State.batchChecked (items : List (Nat × Bytes)) (n : Nat) (f : Flight) (s : State) : Except Detail State :=
  if f.hdr.csn == 0 then s.runItems items n f none
  else match s.coll (field f.plain 0x18 4) with
    | some c => s.bindSnapshot c f fun q s => s.runItems items n f (some q)
    | none => .error (bad 0x18)

section
variable {m : Mbx} {tag : Word} {f : Flight} {s t : State} {items : List (Nat × Bytes)} {n : Nat} {str : Option (Nat × Stream)} {c : Collection}

/-- A batch whose items are in flight is run again (R145). -/
theorem searchBatch_again (ht : s.turn 0x3003 m tag f) (hi : s.host.flights.any (isItemOf f) = true) (h : s.runBatch f = .ok t) :
    exec (.searchBatch m tag) s = .next t := by
  refine congrArg Host.Outcome.next (start_ok ht ?_)
  rw [if_pos hi, h]

/-- A batch whose own checks and whose items' checks pass goes on (R145, R146). -/
theorem searchBatch_checked (ht : s.turn 0x3003 m tag f) (h1 : 16 ≤ f.plain.length) (h2 : f.plain.length ≤ 8603664) (hn : n = field f.plain 0 2)
    (h3 : 1 ≤ n) (h4 : n ≤ 256) (hst : hdrStream f.hdr = true ∨ field f.plain 2 2 = 0) (hz : zeroField f.plain 4 12 = true)
    (hi : s.host.flights.any (isItemOf f) = false) (hr : readItems n 0x30 (f.plain.drop 16) = .ok items)
    (hs : f.hdr.csn = 0 ∨ (items.all fun x => field x.2 0 4 == field f.plain 0x18 4) = true) (hstr : s.streamField 0x22 (field f.plain 2 2) f = .ok str)
    (hf : checkItemFields f items = .ok ()) (hc : s.checkItems f items = .ok ()) (hl : s.searchesInFlight + n ≤ 8192)
    (h : s.batchChecked items n f = .ok t) : exec (.searchBatch m tag) s = .next t := by
  subst hn
  have stream : (hdrStream f.hdr || field f.plain 2 2 == 0) = true := by simpa using hst
  have same : (f.hdr.csn == 0 || items.all fun x => field x.2 0 4 == field f.plain 0x18 4) = true := by simpa using hs
  refine congrArg Host.Outcome.next (start_ok ht ?_)
  rw [if_neg (by simp [hi])]
  simp only [lengthBounds_ok h1 h2, h3, h4, decide_true, Bool.and_self, stream, hz, fields_cons, fields_nil, hr, need_ok same, hstr, hf, hc, ok_bind,
    State.underSearchLimit, if_pos hl]
  exact h

theorem batchChecked_unnamed (h : f.hdr.csn = 0) : s.batchChecked items n f = s.runItems items n f none := if_pos (beq_iff_eq.mpr h)

section
variable (h : f.hdr.csn ≠ 0) (hc : s.coll (field f.plain 0x18 4) = some c) (hb : f.bound = none) (ha : f.hdr.csn.toNat ≤ c.assigned)
  (h3 : c.floor ≤ f.hdr.csn.toNat)
include h hc hb ha h3

/-- The items of a batch that names a committed CSN are bound to it (R145). -/
theorem batchChecked_binds (h4 : f.hdr.csn.toNat ≤ c.committed) : s.batchChecked items n f =
    (s.updFlight f.mbx f.tag fun g => { g with
      bound := some f.hdr.csn.toNat, coll := some c.id, mapBound := c.map.version, boundAt := s.clock }).runItems items n f (some f.hdr.csn.toNat) := by
  have named : f.hdr.csn.toNat ≠ 0 := fun e => h (BitVec.eq_of_toNat_eq e)
  rw [State.batchChecked, if_neg (by simpa using h), hc]
  simp only [bindSnapshot_at _ hb ha (.inr h3) h4, named, if_false]

theorem batchChecked_waits (h4 : c.committed < f.hdr.csn.toNat) :
    s.batchChecked items n f = .ok (s.setWork f (.csnWait c.id f.hdr.csn.toNat)) := by
  rw [State.batchChecked, if_neg (by simpa using h), hc]
  simp only [bindSnapshot_wait _ hb ha h3 h4]

end
end

/-! #### SELECT_TOPK and MERGE_PARTIAL -/

/-- SELECT_TOPK is its row of the table (R210). -/
theorem exec_selectTopk (m : Mbx) (tag : Word) (s : State) : exec (.selectTopk m tag) s = execSelectTopk m tag s := rfl

/-- MERGE_PARTIAL is its row of the table (R211). -/
theorem exec_mergePartial (m : Mbx) (tag : Word) (s : State) : exec (.mergePartial m tag) s = execMergePartial m tag s := rfl

section
variable {m : Mbx} {tag : Word} {f : Flight} {s t : State} {n k : Nat} {str : Option (Nat × Stream)}
  (hc : s.crewAtOnce ((s.crewOfKind 3).getD 0) (selectionPages k (decide (256 < k)) false) f t (if k ≤ 256 then 1 else 4))
  (hstr : s.streamField 0x28 (field f.plain 8 2) f = .ok str) (hk : k = field f.plain 0 2)
include hc hstr hk

/-- The valid entries of SELECT_TOPK are selected (R210, R212). -/
theorem selectTopk_answers (ht : s.turn 0x3010 m tag f) (ho : f.opens 16 16000016) (hf : fields (selectFields f 4 1000000) = .ok ())
    (hn : n = field f.plain 4 4) (hl : f.plain.length = 16 + 16 * n) (hi : checkInputs n 0x30 (f.plain.drop 16) = .ok ()) :
    let rows := ((records 16 n (f.plain.drop 16)).map fun r => (field r 0 8, BitVec.ofNat 32 (field r 8 4))).filter fun r => !f32IsNan r.2
    exec (.selectTopk m tag) s = .next (t.answerSelection f str k (bit (field f.plain 2 2) 0) (n - rows.length) n
      (rows.map fun r => { id := r.1, key := scoreKey (if bit (field f.plain 2 2) 1 then r.2 ^^^ 0x80000000#32 else r.2), node := s.nodeId })) := by
  subst hn hk
  refine congrArg Host.Outcome.next (start_ok ht ?_)
  simp only [opening_ok ho, hf, need_ok (beq_iff_eq.mpr hl), hi, hstr, ok_bind, State.selectionCrew, withCrew_ok hc]

/-- The entries of the lists of MERGE_PARTIAL are selected (R211, R212). -/
theorem mergePartial_answers {r : List Entry × Nat × Nat} (ht : s.turn 0x3011 m tag f) (ho : f.opens 16 16777216)
    (hf : fields (selectFields f 2 4096) = .ok ()) (hr : readLists (field f.plain 4 4) 0x30 0 (f.plain.drop 16) = .ok r) :
    exec (.mergePartial m tag) s = .next (t.answerSelection f str k (bit (field f.plain 2 2) 0) r.2.1 r.2.2 r.1) := by
  subst hk
  refine congrArg Host.Outcome.next (start_ok ht ?_)
  simp only [opening_ok ho, hf, hr, hstr, ok_bind, State.selectionCrew, withCrew_ok hc]

end

/-! #### The obligation -/

/-- Settles O33: the checks of each command pass one by one, and what it does then goes by its snapshot, its weights and its crew. -/
theorem searches : Obligations.Searches := by
  unfold Obligations.Searches
  intro m tag f s
  refine ⟨fun rr str c g u ht hl hm hb hu hq hs hc ha hqc hr => ?checked,
    fun rr q t ht hm hb h => search_atTurn ht ((searchBody_bound hm hb).trans h), fun c q rr w t => ?bound,
    fun items str n ht h1 h2 hn h3 h4 hst hz hi hr hs hstr hf hc hl => ?batch, fun t => searchBatch_again, fun t => ?crew,
    fun n k str t ht ho hf hn hl hi hstr hk hc => selectTopk_answers hc hstr hk ht ho hf hn hl hi,
    fun r k str t ht ho hf hr hstr hk hc => mergePartial_answers hc hstr hk ht ho hf hr⟩
  case checked =>
    intro d v hn
    have body := searchBody_checked hm hb hl hu hq hs hc ha hqc hr hn
    exact ⟨fun w t hf h3 h4 hw h =>
        search_atTurn ht (body.trans ((searchChecked_binds (f := { f with deadline := d }) hf hb ha h3 h4 rfl rfl hw).trans h)),
      fun hf h3 h4 => search_atTurn ht (body.trans (searchChecked_waits (f := { f with deadline := d }) hf hb ha h3 h4)),
      fun t hf h => search_atTurn ht (body.trans ((searchChecked_fabric (f := { f with deadline := d }) hf).trans h))⟩
  case bound =>
    intro u hm hr hw hc img x
    have undamaged : s.searchBound c q rr w = u.scanFrom c q rr w u := searchBound_undamaged hm hr
    rw [undamaged]
    exact ⟨scanFrom_vector hw hc, fun h t' => scanFrom_text hw hc h⟩
  case crew =>
    intro items cls pages h
    exact withCrew_ok h
  case batch =>
    intro run
    have checked {t : State} (h : s.batchChecked items n f = .ok t) : exec (.searchBatch m tag) s = .next t :=
      searchBatch_checked ht h1 h2 hn h3 h4 hst hz hi hr hs hstr hf hc hl h
    exact ⟨fun t h0 h => checked ((batchChecked_unnamed h0).trans h), fun c h0 hc hb ha hfl =>
      ⟨fun t h5 h => checked ((batchChecked_binds h0 hc hb ha hfl h5).trans h), fun h5 => checked (batchChecked_waits h0 hc hb ha hfl h5)⟩⟩

end Sys2Proof.Machine

/-! ### Proofs: scan jobs, selection and early refine reads (O34) -/

namespace Sys2Proof.Machine

/-! #### SCAN_JOB -/

/-- SCAN_JOB is its row of the table (R180, R181). -/
theorem exec_scanJob (n : Fin 1280) (s : State) : exec (.scanJob n) s = execScanJob n s := rfl

/-- An extent of a job is scanned: the job goes on, and what the unit itself examined is counted (R177, R181, R236). -/
def State.scanExtent (n : Nat) (r : SearchRun) (c : Collection) (j : ScanJob) (s : State) : State :=
  let rows := (j.extents.getD j.scanned (0, [])).2
  let row := c.desc.sketchBits / 8 + 16 + (if readsExtended c r.csn r.plain then c.desc.extBytes else 0)
  let v := (s.tilesScan n).2.updNbu n fun x =>
    let x := x.rotate j (j.advance (scanRows c r j.t rows j.found) rows.length row)
    if x.state == 0 && !(s.tilesScan n).1 then nbuCount 0x08 rows.length (nbuCount 0x00 (rows.length * row) x) else x
  if j.speculative then { v with index.specBytes := v.index.specBytes + rows.length * row } else v

section
variable {n : Fin 1280} {s u : State} {j : ScanJob} {f : Flight} {c : Collection} {r : SearchRun}

/-- An OFFLINE unit, and every unit while the module does not serve, leaves its jobs alone (R195). -/
theorem scanJob_stopped (h : (s.nbu n.val).state = 2 ∨ s.serving = false) : exec (.scanJob n) s = .next s := by
  refine congrArg Host.Outcome.next (if_pos ?_)
  rcases h with h | h <;> simp [h]

variable (ho : (s.nbu n.val).state ≠ 2) (hs : s.serving = true) (hu : s.takeHeld n.val 288 = u)
include ho hs hu

/-- Without a job that is ready a unit only takes the jobs held for it (R180). -/
theorem scanJob_idle (hj : u.nextJob (u.nbu n.val) = none) : exec (.scanJob n) s = .next u := by
  simp only [exec_scanJob, execScanJob, beq_eq_false_iff_ne.mpr ho, hs, hu, hj, Bool.not_true, Bool.or_self, Bool.false_eq_true, if_false]

variable (hj : u.nextJob (u.nbu n.val) = some j) (hf : u.flight j.mbx j.tag = some f) (hc : u.coll j.collection = some c) (hw : f.work = .search r)
include hj hf hc hw

/-- The next ready job of a command is served for one extent: a lost one marks a run-ahead job and ends a command, and any other is scanned (R181, R186). -/
theorem scanJob_serves : exec (.scanJob n) s = .next (
    if u.jobBlocked j = some true then
      if j.speculative then u.updNbu n.val fun x => x.rotate j ({ j with damaged := true }.advance j.found 0 0)
      else (u.squashReads f r.prefetch r.fetched.length).answer f .dataDamaged (endPayload c.desc.extBytes f)
    else u.scanExtent n.val r c j) := by
  simp only [exec_scanJob, execScanJob, beq_eq_false_iff_ne.mpr ho, hs, hu, hj, hf, hc, hw, Bool.not_true, Bool.or_self, Bool.false_eq_true, if_false,
    beq_iff_eq]
  rfl

end

/-! #### SCAN_JOB_COMPLETE -/

/-- SCAN_JOB_COMPLETE is its row of the table (R179, R205). -/
theorem exec_scanJobComplete (n : Fin 1280) (s : State) : exec (.scanJobComplete n) s = execScanJobComplete n s := rfl

/-- The first job of a unit whose list waits to be delivered. -/
def Nbu.finishedJob (x : Nbu) : Option ScanJob := x.jobs.find? fun j => j.result.isSome && !j.speculative

/-- The entries of a finished job's list that the gate takes at once: in threshold mode at most 256 (R179, R205). -/
def SearchRun.offered (r : SearchRun) (l : List Entry) : Nat := min r.stage.room (if qdDepth r.plain ≤ 1024 then l.length else 256)

section
variable {n : Fin 1280} {s : State} {j : ScanJob} {l : List Entry} {f : Flight} {r : SearchRun}

theorem scanJobComplete_none (h : (s.nbu n.val).finishedJob = none) : exec (.scanJobComplete n) s = .next s := by
  unfold Nbu.finishedJob at h
  simp only [exec_scanJobComplete, execScanJobComplete, h]

variable (hj : (s.nbu n.val).finishedJob = some j) (hl : j.result = some l) (hf : s.flight j.mbx j.tag = some f) (hw : f.work = .search r)
include hj hl hf hw

/-- While the gate has no room a list that is not empty waits in its job's context (R205). -/
theorem scanJobComplete_waits (hk : r.offered l = 0) (hn : l ≠ []) : exec (.scanJobComplete n) s = .next s := by
  unfold Nbu.finishedJob at hj
  unfold SearchRun.offered at hk
  simp only [exec_scanJobComplete, execScanJobComplete, hj, hl, hf, hw, hk, Option.getD_some, List.isEmpty_eq_false_iff.mpr hn, decide_true, Bool.not_false,
    Bool.and_self, if_true]

/-- A part of a list is delivered, and the rest of it waits (R205). -/
theorem scanJobComplete_part (hk : r.offered l < l.length) (h0 : r.offered l ≠ 0) :
    exec (.scanJobComplete n) s = .next ((s.updNbu n.val fun x =>
        nbuCount 0x10 (l.take (r.offered l)).length (x.setJob j { j with result := some (l.drop (r.offered l)) })).setWork f
      (.search { r with stage := r.stage.offer (l.take (r.offered l)) })) := by
  have rest : (l.drop (r.offered l)).isEmpty = false := by simpa using hk
  unfold Nbu.finishedJob at hj
  unfold SearchRun.offered at h0 rest ⊢
  simp only [exec_scanJobComplete, execScanJobComplete, hj, hl, hf, hw, h0, rest, Option.getD_some, decide_false, Bool.false_and, Bool.false_eq_true,
    if_false]

/-- With the last entry of its list a job is delivered (R179, R180). -/
theorem scanJobComplete_whole (hk : l.length ≤ r.offered l) :
    exec (.scanJobComplete n) s = .next ((s.updNbu n.val fun x =>
        nbuCount 0x10 l.length { x with jobs := x.jobs.filter (· != j) }).searchProgress f { r with
      stage := r.stage.offer l, delivered := r.delivered + 1, items := r.items + j.examined
      bytes := r.bytes.put n.val (r.bytes.getD n.val 0 + j.bytes) }) := by
  have goes : (decide (r.offered l = 0) && !l.isEmpty) = false := by
    cases l with
    | nil => exact Bool.and_false _
    | cons e l => rw [decide_eq_false (Nat.ne_of_gt (Nat.lt_of_lt_of_le (Nat.succ_pos _) hk))]; rfl
  have all := List.take_of_length_le hk
  have rest := List.drop_of_length_le hk
  unfold Nbu.finishedJob at hj
  unfold SearchRun.offered at goes all rest
  simp only [exec_scanJobComplete, execScanJobComplete, hj, hl, hf, hw, goes, all, rest, Option.getD_some, List.isEmpty_nil, Bool.false_eq_true, if_false,
    if_true]

end

/-! #### The gate, the threshold and early refine reads -/

/-- REFINE_PREFETCH is its row of the table (R221). -/
theorem exec_refinePrefetch (m : Mbx) (tag : Word) (s : State) : exec (.refinePrefetch m tag) s = execRefinePrefetch m tag s := rfl

/-- A search may start its refine reads early (R221, R222). -/
def State.prefetchDue (r : SearchRun) (s : State) : Prop :=
  qdRefine r.plain ≠ 0 ∧ r.probing = none ∧ r.stage.list.length = qdDepth r.plain ∧ 3 * r.jobs ≤ 4 * r.delivered ∧ s.mayPrefetch r.plain = true ∧
    s.serving = true

/-- The candidates of the best half whose copies are not read from staging already (R221). -/
def SearchRun.bestHalf (c : Collection) (r : SearchRun) : List Version :=
  ((r.stage.list.take ((qdDepth r.plain + 1) / 2)).filterMap c.versionAt).filter fun v => !r.staged.contains v.key

/-- The refine reads that start early: those of the best half not started yet, as many as speculation may read (R221, R222). -/
def State.earlyReads (c : Collection) (r : SearchRun) (s : State) : List Read :=
  capReads ((5 * readShare s.power.rates + 99) / 100 - s.index.specReads)
    ((s.recordReads c (if qdFull r.plain then 1 else 0) (r.bestHalf c)).filter fun x =>
      !(r.prefetch.any (sameSector x) || r.fetched.any fun y => sameSector x y.1))

section
variable {n : Fin 1280} {m : Mbx} {tag : Word} {s : State} {f : Flight} {r : SearchRun} {c : Collection}
  (hf : s.flight m.key tag = some f) (hw : f.work = .search r)
include hf hw

/-- GATE_COMPACTION merges a full staging buffer into the list, and with none does nothing (R205). -/
theorem gateCompaction_merges : exec (.gateCompaction m tag) s =
    .next (if r.stage.full.isEmpty then s else s.setWork f (.search { r with stage := (r.stage.compact).swap })) := by
  refine congrArg Host.Outcome.next ?_
  simp only [hf, hw]

/-- THRESHOLD_UPDATE raises t for the unfinished jobs of the command on the unit (R204). -/
theorem thresholdUpdate_raises : exec (.thresholdUpdate n m tag) s = .next (s.updNbu n.val fun x => { x with jobs := x.jobs.map fun j =>
    if j.mbx == f.mbx && j.tag == f.tag && !j.speculative && j.result.isNone then { j with t := max j.t r.stage.t } else j }) := by
  refine congrArg Host.Outcome.next ?_
  simp only [hf, hw]

/-- SPECULATION_SQUASH ends a traversal that run-ahead has overtaken (R224). -/
theorem speculationSquash_ends : exec (.speculationSquash m tag) s = .next (r.probing.elim s (s.endTraversal f r)) := by
  refine congrArg Host.Outcome.next ?_
  simp only [hf, hw]
  cases r.probing <;> rfl

variable (hc : s.coll r.collection = some c)
include hc

theorem refinePrefetch_early (h : s.prefetchDue r) : exec (.refinePrefetch m tag) s = .next (({ s with
      index.specReads := s.index.specReads + ((s.earlyReads c r).filter fun x => x.tier == .flash).length
      comp.readsIssued := s.comp.readsIssued ++ ((s.earlyReads c r).filter (·.area < 2)).map fun _ => (s.clock, false) } : State).setWork f
    (.search { r with prefetch := r.prefetch ++ s.earlyReads c r, staged := r.staged ++ ((r.bestHalf c).filter (·.staged)).map (·.key) })) := by
  unfold State.prefetchDue at h
  simp only [exec_refinePrefetch, execRefinePrefetch, hf, hw, hc]
  rw [if_pos h]
  rfl

theorem refinePrefetch_not (h : ¬ s.prefetchDue r) : exec (.refinePrefetch m tag) s = .next s := by
  unfold State.prefetchDue at h
  simp only [exec_refinePrefetch, execRefinePrefetch, hf, hw, hc]
  rw [if_neg h]

end

/-! #### Run-ahead jobs -/

section
variable {f : Flight} {probe : List Nat} {t : Nat} {j : ScanJob}

/-- A run-ahead job of the probe set becomes a command job, with the current t (R224). -/
theorem confirmJob_probed (hm : j.mbx = f.mbx) (ht : j.tag = f.tag) (hs : j.speculative = true) (hp : j.list ∈ probe) :
    confirmJob f probe t j = { j with speculative := false, t := max j.t t } := by
  simp [confirmJob, hm, ht, hs, hp]

theorem confirmJob_notProbed (hp : j.list ∉ probe) : confirmJob f probe t j = j := by
  simp [confirmJob, hp]

end

/-- The units of a table after a change of each are those changes. -/
theorem mem_vals_each {α : Type} {g : α → α} {t : Tab α} {y : α} (h : y ∈ (t.each g).vals) : ∃ x ∈ t.vals, y = g x := by
  simp only [Tab.vals, Tab.each, List.map_map, List.mem_map] at h ⊢
  obtain ⟨e, he, rfl⟩ := h
  exact ⟨e.2, ⟨e, he, rfl⟩, rfl⟩

@[simp] theorem chargeSpec_index (t off n : Nat) (s : State) : (s.chargeSpec t off n).index = s.index := rfl

/-- Squashing leaves a command no job of the kind squashed (R225). -/
theorem squashJobs_leaves {t m : Nat} {tag : Word} {p : ScanJob → Bool} {s : State} {x : Nbu} {j : ScanJob}
    (hx : x ∈ (s.squashJobs t m tag p).index.nbus.vals) (hj : j ∈ x.jobs) (hm : j.mbx = m) (ht : j.tag = tag) : p j = false := by
  unfold State.squashJobs at hx
  dsimp only at hx
  split at hx
  · next missing =>
    have miss := List.filter_eq_nil_iff.mp (List.flatMap_eq_nil_iff.mp (List.isEmpty_iff.mp missing) x hx) j hj
    simpa [hm, ht] using miss
  · simp only [chargeSpec_index] at hx
    obtain ⟨y, -, rfl⟩ := mem_vals_each hx
    have kept := (List.mem_filter.mp hj).2
    simpa [hm, ht] using kept

/-! #### ENCODER_BATCH_CLOSE -/

/-- A sequence of a batch needs weights that wait for a repair (R298). -/
def State.weightsHurt (s : State) (x : Nat × Nat × Nat) : Bool :=
  match s.coll x.1 with
  | some c => (s.generation .model c.desc.model c.modelGen).any fun g => !g.damaged.isEmpty
  | none => false

/-- The batch that gathers is closed now (R293, R297, R298). -/
def State.batchDue (s : State) : Prop :=
  s.index.batch ≠ [] ∧ s.serving = true ∧
    (∀ x ∈ s.index.batch.take 64, ∀ c g, s.coll x.1 = some c → s.generation .model c.desc.model c.modelGen = some g → g.damaged = []) ∧
    s.batchFits (s.index.batch.take 64) = true ∧ (64 ≤ s.index.batch.length ∨ s.index.batchSince + 1000000 ≤ s.clock)

section
variable {s : State}

theorem weightsHurt_eq_false_iff {x : Nat × Nat × Nat} : s.weightsHurt x = false ↔
    ∀ c g, s.coll x.1 = some c → s.generation .model c.desc.model c.modelGen = some g → g.damaged = [] := by
  unfold State.weightsHurt
  constructor
  · intro unhurt c g hc hg
    simpa [hc, hg] using unhurt
  · intro whole
    split
    · next c hc => simpa [Option.any_eq_false] using fun g => whole c g hc
    · rfl

/-- A closed batch encodes its first 64 sequences, and the others stay (R293). -/
theorem encoderBatchClose_row : exec .encoderBatchClose s = .next (
    if !s.index.batch.isEmpty && s.serving && !(s.index.batch.take 64).any s.weightsHurt && s.batchFits (s.index.batch.take 64) &&
      (64 ≤ s.index.batch.length || s.index.batchSince + 1000000 ≤ s.clock) then
      (s.index.batch.take 64).foldl State.encodeOne { s with index.batch := s.index.batch.drop 64, index.batchSince := s.clock }
    else s) := rfl

theorem batchDue_iff : (!s.index.batch.isEmpty && s.serving && !(s.index.batch.take 64).any s.weightsHurt && s.batchFits (s.index.batch.take 64) &&
    (64 ≤ s.index.batch.length || s.index.batchSince + 1000000 ≤ s.clock)) = true ↔ s.batchDue := by
  have unhurt : (s.index.batch.take 64).any s.weightsHurt = false ↔ ∀ x ∈ s.index.batch.take 64, ∀ c g, s.coll x.1 = some c →
      s.generation .model c.desc.model c.modelGen = some g → g.damaged = [] := by
    simp only [List.any_eq_false, Bool.not_eq_true, weightsHurt_eq_false_iff]
  simp only [State.batchDue, Bool.and_eq_true, Bool.or_eq_true, Bool.not_eq_true', List.isEmpty_eq_false_iff, decide_eq_true_eq, unhurt, and_assoc]

theorem encoderBatchClose_due (h : s.batchDue) : exec .encoderBatchClose s = .next ((s.index.batch.take 64).foldl State.encodeOne
    { s with index.batch := s.index.batch.drop 64, index.batchSince := s.clock }) :=
  encoderBatchClose_row.trans (congrArg _ (if_pos (batchDue_iff.mpr h)))

theorem encoderBatchClose_not (h : ¬ s.batchDue) : exec .encoderBatchClose s = .next s :=
  encoderBatchClose_row.trans (congrArg _ (if_neg (mt batchDue_iff.mp h)))

end

/-! #### The obligation -/

/-- Settles O34: an extent is lost or scanned, a list is delivered as far as the gate has room, and each early start is due or not. -/
theorem scans : Obligations.Scans := by
  unfold Obligations.Scans
  intro n m tag f r s
  refine ⟨scanJob_stopped, fun ho hs => ⟨scanJob_idle ho hs rfl, fun j c hj hf hc hw => ?serves⟩, scanJobComplete_none,
    fun j l hj hl hf hw => ⟨scanJobComplete_waits hj hl hf hw, scanJobComplete_part hj hl hf hw, scanJobComplete_whole hj hl hf hw⟩,
    fun hf hw => ?command, fun probe t j hm ht hs => ⟨confirmJob_probed hm ht hs, confirmJob_notProbed⟩,
    fun x hx j => squashJobs_leaves hx, encoderBatchClose_due, encoderBatchClose_not⟩
  case serves =>
    have row := scanJob_serves ho hs rfl hj hf hc hw
    exact ⟨fun lost spec => by rw [row, if_pos lost, if_pos spec],
      fun lost spec => by rw [row, if_pos lost, if_neg (Bool.eq_false_iff.mp spec)], fun held => by rw [row, if_neg held]; rfl⟩
  case command =>
    have gate := gateCompaction_merges hf hw
    have squash := speculationSquash_ends hf hw
    exact ⟨fun full => by rw [gate, if_neg (mt List.isEmpty_iff.mp full)], fun full => by rw [gate, if_pos (List.isEmpty_iff.mpr full)],
      thresholdUpdate_raises hf hw, fun c hc => ⟨refinePrefetch_not hf hw hc, refinePrefetch_early hf hw hc⟩,
      fun walked => by rw [squash, walked]; rfl, fun probe walks => by rw [squash, walks]; rfl⟩

end Sys2Proof.Machine

/-! ### Proofs: the governor's tick and the hardware limiters (O52) -/

namespace Sys2Proof.Machine

/-! #### What logging, judging and metering touch -/

/-- Logging touches the tenants' records alone (R446). -/
theorem log_tenants_only (e : LogEntry) (s : State) : ∃ t, s.log e = { s with tenants := t } := by
  unfold State.log
  split
  · dsimp only
    split <;> exact ⟨_, rfl⟩
  · exact ⟨_, rfl⟩

theorem logUnit_governor (n : Nat) (s : State) : (s.logUnit n).governor = s.governor := by
  obtain ⟨t, h⟩ := log_tenants_only { seq := 0, time := 0, kind := 4, detail := n } s
  rw [State.logUnit, h]

/-- One NBU is judged by what it has delivered of its share (R236). -/
def State.judgeNbu (s : State) (x : Fin 1280 × Nat) : State :=
  let n := x.1.val
  if (s.nbu n).state != 0 || 75 < x.2 then s
  else if x.2 < 40 then (s.updNbu n fun y => { y with state := 1 }).logUnit n
  else if s.governor.stackCaps.getD (n / 64) 100 < 100 then s
  else s.updNbu n fun y => { y with slow := true }

theorem judgeNbus_nil (s : State) : s.judgeNbus [] = { s with index.nbus := s.index.nbus.each fun x => { x with slow := false } } := rfl

theorem judgeNbus_concat (l : List (Fin 1280 × Nat)) (x : Fin 1280 × Nat) (s : State) : s.judgeNbus (l ++ [x]) = (s.judgeNbus l).judgeNbu x :=
  List.foldl_append

section
variable {s : State} {n : Fin 1280} {d : Nat}

theorem judgeNbu_well (h : (s.nbu n.val).state ≠ 0 ∨ 75 < d) : s.judgeNbu (n, d) = s :=
  if_pos (by simpa using h)

/-- An NBU that works and delivers at most 75 % is judged further. -/
theorem judgeNbu_poor (h : (s.nbu n.val).state = 0) (hd : d ≤ 75) : s.judgeNbu (n, d) =
    if d < 40 then (s.updNbu n.val fun y => { y with state := 1 }).logUnit n.val
    else if s.governor.stackCaps.getD (n.val / 64) 100 < 100 then s
    else s.updNbu n.val fun y => { y with slow := true } :=
  if_neg (by simp [h, hd])

end

/-- Judging an NBU touches the NBUs and the tenants' records alone. -/
theorem judgeNbu_touches (x : Fin 1280 × Nat) (s : State) : ∃ b t, s.judgeNbu x = { s with index.nbus := b, tenants := t } := by
  unfold State.judgeNbu
  dsimp only
  split
  · exact ⟨_, _, rfl⟩
  · split
    · obtain ⟨t, h⟩ := log_tenants_only { seq := 0, time := 0, kind := 4, detail := x.1.val } (s.updNbu x.1.val fun y => { y with state := 1 })
      exact ⟨_, t, h⟩
    · split <;> exact ⟨_, _, rfl⟩

/-- Judging the NBUs touches them and the tenants' records alone. -/
theorem judgeNbus_touches (l : List (Fin 1280 × Nat)) (s : State) : ∃ b t, s.judgeNbus l = { s with index.nbus := b, tenants := t } := by
  induction l using List.reverseRecOn with
  | nil => exact ⟨_, _, rfl⟩
  | append_singleton l x ih =>
    obtain ⟨b, t, h⟩ := ih
    rw [judgeNbus_concat, h]
    exact judgeNbu_touches x _

/-- Attributing a tick's energy touches the tenants' records and the free values alone. -/
theorem attributeEnergy_touches (s : State) : ∃ t n, s.attributeEnergy = { s with tenants := t, free := n } := by
  unfold State.attributeEnergy
  generalize s.tenants.meters.keys.filter (· != moduleKey) = l
  induction l generalizing s with
  | nil => exact ⟨_, _, rfl⟩
  | cons k l ih => exact ih _

/-! #### The grants, the rates and the clocks -/

/-- The floors take at most the pool (Table 18-8). -/
theorem floors_within (p : Profile) (pool : Nat) : pool * (governorFloors p).1 / 100 + pool * (governorFloors p).2 / 100 ≤ pool := by
  cases p <;> simp only [governorFloors] <;> omega

theorem divide_within {p : Profile} {pool ds dt : Nat} (h : ds + dt ≤ pool) : divide p pool ds dt = (ds, dt) := if_pos h

/-- Demand above the pool is granted the whole pool, the scans at least their floor (R460). -/
theorem divide_beyond {p : Profile} {pool ds dt : Nat} (h : pool < ds + dt) :
    min ds (pool * (governorFloors p).1 / 100) ≤ (divide p pool ds dt).1 ∧ (divide p pool ds dt).1 + (divide p pool ds dt).2 = pool := by
  have floors := floors_within p pool
  unfold divide
  rw [if_neg (Nat.not_le.mpr h)]
  dsimp only
  generalize pool * (governorFloors p).1 / 100 = a at floors ⊢
  generalize pool * (governorFloors p).2 / 100 = b at floors ⊢
  generalize hA : (governorWeights p).1 * (ds - min ds a) = A
  generalize hB : (governorWeights p).2 * (dt - min dt b) = B
  generalize hrest : pool - min ds a - min dt b = rest
  have share : rest * A / (A + B) ≤ rest :=
    Nat.div_le_of_le_mul ((Nat.mul_le_mul_left _ (Nat.le_add_right A B)).trans_eq (Nat.mul_comm _ _))
  generalize rest * A / (A + B) = q at share ⊢
  omega

section
variable {drawn share last : Nat}

theorem bestStep_ge : ∀ top, 8 ≤ bestStep drawn share last top
  | 0 => Nat.le_refl 8
  | k + 1 => by
    unfold bestStep
    split
    · exact Nat.le_refl 8
    · split
      · omega
      · exact bestStep_ge k

/-- The step chosen fits its share, or it is the lowest (R460). -/
theorem bestStep_fits : ∀ top, stepFits drawn share last (bestStep drawn share last top) = true ∨ bestStep drawn share last top = 8
  | 0 => .inr rfl
  | k + 1 => by
    unfold bestStep
    split
    · exact .inr rfl
    · split
      · next fits => exact .inl fits
      · exact bestStep_fits k

/-- No step above the chosen one fits (R460). -/
theorem bestStep_highest {j : Nat} : ∀ top, bestStep drawn share last top < j → j ≤ top → stepFits drawn share last j = false
  | 0, above, below => by
    have := bestStep_ge (drawn := drawn) (share := share) (last := last) 0
    omega
  | k + 1, above, below => by
    unfold bestStep at above
    split at above
    · omega
    · split at above
      · omega
      · next misfit =>
        rcases Nat.le_succ_iff.mp below with below | rfl
        · exact bestStep_highest k above below
        · exact Bool.eq_false_iff.mpr misfit

end

/-- An NBU's share of a scan grant is at least what its cap lets it take (R194). -/
def rateCapped (gs total : Nat) (x : Nat × Nat × Nat) : Bool := decide (x.2.2 * total * 375 ≤ gs * x.2.1 * 100)

/-- A scan grant is shared over the NBUs: those whose caps cut something off get their caps, and what is left goes to the others (R194, R460). -/
theorem shareRates_succ {k gs : Nat} {l : List (Nat × Nat × Nat)} : shareRates (k + 1) gs l = if l.any (rateCapped gs (l.map (·.2.1)).sum) then
    ((l.filter (rateCapped gs (l.map (·.2.1)).sum)).map fun x => (x.1, x.2.2)) ++
      shareRates k (gs - ((l.filter (rateCapped gs (l.map (·.2.1)).sum)).map fun x => x.2.2 * 375).sum / 100)
        (l.filter fun x => !rateCapped gs (l.map (·.2.1)).sum x)
  else l.map fun x => (x.1, gs * x.2.1 * 100 / ((l.map (·.2.1)).sum * 375)) := rfl

theorem rate_le_cap {gs total : Nat} {x : Nat × Nat × Nat} (h : rateCapped gs total x = false) : gs * x.2.1 * 100 / (total * 375) ≤ x.2.2 := by
  have below : gs * x.2.1 * 100 ≤ x.2.2 * total * 375 := Nat.le_of_not_le (of_decide_eq_false h)
  exact Nat.div_le_of_le_mul (below.trans_eq (by ring))

/-- Every rate is that of an NBU of the list, at most its cap (R194). -/
theorem shareRates_capped : ∀ (k gs : Nat) (l : List (Nat × Nat × Nat)), ∀ e ∈ shareRates k gs l, ∃ x ∈ l, x.1 = e.1 ∧ e.2 ≤ x.2.2
  | 0, _, l, e, he => by
    obtain ⟨x, hx, rfl⟩ := List.mem_map.mp he
    exact ⟨x, hx, rfl, Nat.le_refl _⟩
  | k + 1, gs, l, e, he => by
    rw [shareRates_succ] at he
    split at he
    · rcases List.mem_append.mp he with he | he
      · obtain ⟨x, hx, rfl⟩ := List.mem_map.mp he
        exact ⟨x, List.mem_of_mem_filter hx, rfl, Nat.le_refl _⟩
      · obtain ⟨x, hx, same⟩ := shareRates_capped k _ _ e he
        exact ⟨x, List.mem_of_mem_filter hx, same⟩
    · next free =>
      obtain ⟨x, hx, rfl⟩ := List.mem_map.mp he
      exact ⟨x, hx, rfl, rate_le_cap (Bool.eq_false_iff.mpr fun capped => free (List.any_eq_true.mpr ⟨x, hx, capped⟩))⟩

theorem getD_cons {α : Type} (k n : Nat) (d v : α) (t : Tab α) : Tab.getD k d ((n, v) :: t) = if n = k then v else Tab.getD k d t := by
  unfold Tab.getD
  rw [Tab.find]
  by_cases here : n = k <;> simp only [here, if_true, if_false]

/-- A table of the values of some keys that leaves out the default still gives each of them. -/
theorem getD_filter_default (d k : Nat) (g : Nat → Nat) (l : List Nat) :
    Tab.getD k d ((l.map fun n => (n, g n)).filter fun e => e.2 != d) = if k ∈ l then g k else d := by
  induction l with
  | nil => rfl
  | cons n l ih =>
    by_cases here : n = k
    · subst here
      by_cases skipped : g n = d <;> simp [skipped, getD_cons, ih]
    · by_cases skipped : g n = d <;> simp [skipped, getD_cons, ih, here, Ne.symm here]

/-- The NBUs that have jobs queued, each with its jobs and its stack's cap. -/
def State.busyNbus (s : State) : List (Nat × Nat × Nat) :=
  (s.index.nbus.keys.filter fun n => s.queuedJobs n != 0).map fun n => (n, s.queuedJobs n, s.governor.stackCaps.getD (n / 64) 100)

/-- RATE_PCT of an NBU for the next tick: its share of the scan grant, or its stack's cap where it has no jobs (R194, R460). -/
theorem setRates_nbuRates (gs : Nat) (s : State) {n : Nat} (h : n < 1280) : (s.setRates gs).governor.nbuRates.getD n 100 =
    (shareRates s.busyNbus.length gs s.busyNbus).getD n (s.governor.stackCaps.getD (n / 64) 100) := by
  have listed := List.mem_range.mpr h
  unfold State.setRates
  generalize List.range 1280 = l at listed ⊢
  exact (getD_filter_default ..).trans (if_pos listed)

/-! #### GOVERNOR_TICK -/

/-- GOVERNOR_TICK is its row of the table (R460). -/
theorem exec_governorTick (r : TickReading) (s : State) : exec (.governorTick r) s = execGovernorTick r s := rfl

/-- An entry of a list, once each has been changed by its place. -/
theorem getElem?_mapIdx_of {α : Type} {l : List α} {g : Nat → α → α} {i : Nat} {c : α} (h : l[i]? = some c) : (l.mapIdx g)[i]? = some (g i c) := by
  rw [List.getElem?_mapIdx, h]; rfl

/-- The governor once a tick has read the sensors and measured the draw (R460, R463). -/
def State.sensed (r : TickReading) (s : State) : Governor :=
  { adjustCaps r s.governor with lastTick := s.fabTime, overshoot := r.draw - (s.envelopeMw - 50000) }

/-- The module once a tick has judged its NBUs and read its sensors. -/
def State.judged (r : TickReading) (s : State) : State :=
  { s.judgeNbus r.delivered with governor := s.sensed r, index.specBytes := 0, index.specReads := 0 }

/-- The scan grant and the tile grant of a tick (R460). -/
def State.grants (r : TickReading) (s : State) : Nat × Nat :=
  divide s.power.profile ((s.judged r).poolMw r.crypto) (min r.scan (scanLine s.power.profile * 1000)) r.demand.sum

/-- The rates that a tick sets. -/
def State.tickRates (r : TickReading) (s : State) : Tab Nat := ((s.judged r).setRates (s.grants r).1).governor.nbuRates

/-- The clocks that a tick sets. -/
def State.tickClocks (r : TickReading) (s : State) : List Nat := ((s.judged r).setClocks (s.grants r).2 r).governor.clocks

/-- The module once a tick has set its rates and clocks. -/
def State.governed (r : TickReading) (s : State) : State :=
  { s.judged r with governor := { s.sensed r with nbuRates := s.tickRates r, clocks := s.tickClocks r } }

section
variable {r : TickReading} {s : State}

/-- What a tick judges and senses touches the NBUs, the tenants' records, the governor and what speculation may still start. -/
theorem judged_touches : ∃ b t, s.judged r =
    { s with index.nbus := b, index.specBytes := 0, index.specReads := 0, tenants := t, governor := s.sensed r } := by
  obtain ⟨b, t, h⟩ := judgeNbus_touches r.delivered s
  exact ⟨b, t, by rw [State.judged, h]⟩

theorem judged_collections : (s.judged r).index.collections = s.index.collections := by
  obtain ⟨b, t, h⟩ := judged_touches (r := r) (s := s)
  rw [h]

theorem judged_host : (s.judged r).host = s.host := by
  obtain ⟨b, t, h⟩ := judged_touches (r := r) (s := s)
  rw [h]

theorem judged_power : (s.judged r).power = s.power := by
  obtain ⟨b, t, h⟩ := judged_touches (r := r) (s := s)
  rw [h]

/-- The pool is what the envelope leaves after the fixed lines, the fabric's crypto and the last tick's overshoot (R460). -/
theorem judged_poolMw : (s.judged r).poolMw r.crypto = envelopeOf s.power.profile * 10 * (s.sensed r).envelopeCap - s.fixedMw -
    min r.crypto (cryptoLine s.power.profile * 1000) - (s.sensed r).overshoot := by
  obtain ⟨b, t, h⟩ := judged_touches (r := r) (s := s)
  rw [h]; rfl

/-- The clock of a die is the highest step that fits its share of the tile grant, below its ceiling and its cap (R460). -/
theorem tickClocks_getElem? {i k : Nat} (hk : s.governor.clocks[i]? = some k) : (s.tickClocks r)[i]? = some (bestStep (r.drawn.getD i 0)
    (if r.demand.sum = 0 then (s.grants r).2 else (s.grants r).2 * r.demand.getD i 0 / r.demand.sum) k
    (min (clockCeiling s.power.profile) ((s.sensed r).dieCaps.getD i 32))) := by
  rw [← judged_power (r := r)]
  exact getElem?_mapIdx_of (l := (s.judged r).governor.clocks) hk

/-- The rate of an NBU is its share of the scan grant, or its stack's cap where it has no jobs (R194, R460). -/
theorem tickRates_getD {n : Nat} (hn : n < 1280) : (s.tickRates r).getD n 100 =
    (shareRates (s.judged r).busyNbus.length (s.grants r).1 (s.judged r).busyNbus).getD n ((s.sensed r).stackCaps.getD (n / 64) 100) :=
  setRates_nbuRates _ _ hn

theorem governorTick_not (h : s.operating = false ∨ s.fabTime % 1000000 ≠ 0 ∨ s.fabTime = s.governor.lastTick) :
    exec (.governorTick r) s = .next s := by
  refine congrArg Host.Outcome.next (if_neg ?_)
  rcases h with h | h | h <;> simp [h, State.atTick]

variable (ho : s.operating = true) (ht : s.fabTime % 1000000 = 0) (hl : s.fabTime ≠ s.governor.lastTick)
include ho ht hl

/-- A tick sets caps, rates and clocks, and meters the energy (R460, R463). -/
theorem governorTick_acts : exec (.governorTick r) s = .next (s.governed r).attributeEnergy := by
  obtain ⟨b, t, h⟩ := judgeNbus_touches r.delivered s
  have due : (s.operating && s.atTick && s.fabTime != s.governor.lastTick) = true := by simp [ho, ht, hl, State.atTick]
  rw [exec_governorTick, execGovernorTick, if_pos due]
  simp only [State.governed, State.tickRates, State.tickClocks, State.grants, State.judged, h]
  unfold State.setRates
  generalize List.range 1280 = l
  rfl

/-- What a tick leaves is what it has governed, with the tenants' records and the free values changed. -/
theorem governorTick_governs : ∃ t n, exec (.governorTick r) s = .next { s.judged r with
    tenants := t, free := n, governor := { s.sensed r with nbuRates := s.tickRates r, clocks := s.tickClocks r } } := by
  obtain ⟨t, n, h⟩ := attributeEnergy_touches (s.governed r)
  exact ⟨t, n, (governorTick_acts ho ht hl).trans (congrArg _ h)⟩

end

/-! #### LIMITER_EVENT -/

/-- Halving the entries of some keys, each once, leaves the others alone. -/
theorem getD_halved (d k : Nat) {l : List Nat} (hl : l.Nodup) (t : Tab Nat) :
    (l.foldl (fun t n => t.put n (t.getD n d / 2)) t).getD k d = if k ∈ l then t.getD k d / 2 else t.getD k d := by
  induction l generalizing t with
  | nil => rfl
  | cons n l ih =>
    obtain ⟨once, rest⟩ := List.nodup_cons.mp hl
    rw [List.foldl_cons, ih rest]
    by_cases here : k = n
    · subst here
      rw [if_neg once, if_pos List.mem_cons_self, Tab.getD_put]
    · simp only [List.mem_cons, here, false_or, Tab.getD_put_ne n k _ d t here]

/-- The 64 NBUs of a stack. -/
def stackNbus (unit : Nat) : List Nat := (List.range 64).map (64 * unit + ·)

theorem stackNbus_nodup (unit : Nat) : (stackNbus unit).Nodup := List.nodup_range.map fun _ _ => Nat.add_left_cancel

theorem mem_stackNbus {unit n : Nat} : n ∈ stackNbus unit ↔ n / 64 = unit := by
  simp only [stackNbus, List.mem_map, List.mem_range]
  constructor
  · rintro ⟨i, hi, rfl⟩
    omega
  · exact fun h => ⟨n % 64, Nat.mod_lt _ (by decide), by omega⟩

/-- A limiter event is counted and logged (R462). -/
def State.noteLimiter (unit : Nat) (s : State) : State := { s with governor.limiterEvents := s.governor.limiterEvents + 1 }.logUnit unit

@[simp] theorem noteLimiter_governor (unit : Nat) (s : State) :
    (s.noteLimiter unit).governor = { s.governor with limiterEvents := s.governor.limiterEvents + 1 } := logUnit_governor ..

section
variable {stack : Bool} {unit : Fin 20} {s : State}

theorem limiterEvent_not (h : s.operating = false ∨ (stack = false ∧ 4 ≤ unit.val)) : exec (.limiterEvent stack unit) s = .next s := by
  refine congrArg Host.Outcome.next (if_pos ?_)
  rcases h with h | ⟨h, hu⟩
  · simp [h]
  · simp [h, hu]

/-- A die's limiter halves its clock (R462). -/
theorem limiterEvent_die (ho : s.operating = true) (hu : unit.val < 4) : exec (.limiterEvent false unit) s =
    .next { s.noteLimiter unit.val with governor := { (s.noteLimiter unit.val).governor with clocks := s.governor.clocks.modify unit.val (· / 2) } } := by
  refine congrArg Host.Outcome.next ((if_neg (by simp [ho, hu])).trans ?_)
  exact congrArg (fun g : Governor => { s.noteLimiter unit.val with
    governor := { (s.noteLimiter unit.val).governor with clocks := g.clocks.modify unit.val (· / 2) } }) (noteLimiter_governor ..)

/-- A stack's limiter halves the rates of its NBUs (R462). -/
theorem limiterEvent_stack (ho : s.operating = true) : exec (.limiterEvent true unit) s =
    .next { s.noteLimiter unit.val with governor := { (s.noteLimiter unit.val).governor with
      nbuRates := (stackNbus unit.val).foldl (fun t n => t.put n (t.getD n 100 / 2)) s.governor.nbuRates } } := by
  refine congrArg Host.Outcome.next ((if_neg (by simp [ho])).trans ?_)
  exact congrArg (fun g : Governor => { s.noteLimiter unit.val with governor := { (s.noteLimiter unit.val).governor with
    nbuRates := (stackNbus unit.val).foldl (fun t n => t.put n (t.getD n 100 / 2)) g.nbuRates } }) (noteLimiter_governor ..)

end

/-! #### The obligation -/

/-- Settles O52: a tick is due or not, a rate is capped or shared, an NBU is judged by what it delivers, and a limiter halves what it guards. -/
theorem governing : Obligations.Governing := by
  unfold Obligations.Governing
  refine ⟨fun r s => ⟨governorTick_not, fun ho ht hl => ?tick⟩, fun l k gs => ⟨?shared, ?capped, shareRates_capped k gs l⟩, fun s l n d => ?judge,
    fun drawn share last top h8 => ⟨bestStep_ge top, bestStep_le drawn share last top h8 top (Nat.le_refl _), bestStep_fits top, fun j => bestStep_highest top⟩,
    fun p pool ds dt => ⟨divide_within, divide_beyond⟩, fun stack unit s => ⟨limiterEvent_not, fun ho => ⟨s.noteLimiter unit.val, rfl, ?die, ?stack⟩⟩⟩
  case tick =>
    obtain ⟨t, n, row⟩ := governorTick_governs (r := r) ho ht hl
    refine ⟨_, (s.judged r).poolMw r.crypto, row, ?_⟩
    dsimp only
    exact ⟨rfl, rfl, rfl, judged_collections, judged_host, judged_power, rfl, fun i c => getElem?_mapIdx_of, fun i c => getElem?_mapIdx_of,
      fun i c => getElem?_mapIdx_of, judged_poolMw, ⟨rfl, fun n => tickRates_getD⟩, fun i k => tickClocks_getElem?⟩
  case shared =>
    intro free
    exact shareRates_succ.trans (if_neg (by simpa [rateCapped] using free))
  case capped =>
    intro cut
    exact shareRates_succ.trans (if_pos (List.any_eq_true.mpr cut))
  case judge =>
    refine ⟨judgeNbus_nil s, fun h => (judgeNbus_concat ..).trans (judgeNbu_well h), fun h low => ?_, fun h mid hd => ⟨fun warm => ?_, fun cool => ?_⟩⟩
    · rw [judgeNbus_concat, judgeNbu_poor h (by omega), if_pos low]
    · rw [judgeNbus_concat, judgeNbu_poor h hd, if_neg (by omega), if_pos warm]
    · rw [judgeNbus_concat, judgeNbu_poor h hd, if_neg (by omega), if_neg (by omega)]
  case die =>
    rintro rfl hu
    exact limiterEvent_die ho hu
  case stack =>
    rintro rfl
    exact ⟨_, limiterEvent_stack ho, fun n => (getD_halved 100 n (stackNbus_nodup _) _).trans (by simp only [mem_stackNbus])⟩

end Sys2Proof.Machine

/-! ### Proofs: loading and retiring images (O39) -/

namespace Sys2Proof.Machine

/-! #### The phases of a load -/

/-- The checks that every phase of a load passes: its lengths, a handle of the caller, and reserved bytes of 0 (R289, R305). -/
structure Flight.LoadHead (f : Flight) : Prop where
  opens : f.opens 32 16777216
  handle : 1 ≤ field f.plain 0 4 % 1048576
  reserved : zeroField f.plain 5 3 = true
  reservedEnd : zeroField f.plain 0x1C 4 = true
  owner : ownerOf (field f.plain 0 4) = f.tenant

section
variable {k : ImageKind} {f : Flight} {s : State} {l : ImageLoad}

/-- BEGIN with a header of its kind's length goes on to the checks of the header (R289, R305). -/
theorem imageLoad_begin (h : f.LoadHead) (hp : field f.plain 4 1 = 0) (h8 : field f.plain 8 8 = 0) (h18 : field f.plain 0x18 4 = 0)
    (hn : f.plain.length - 32 = beginBytes k) : State.imageLoad k f s = s.loadBegin k f := by
  simp [State.imageLoad, opening_ok h.opens, fields, need_ok, h.handle, h.reserved, h.reservedEnd, h.owner, hp, h8, h18, hn]

/-- A load opens where its header is sound, its handle has no load, and there is room for it (R283, R285, R289, R424). -/
theorem loadBegin_opens (hc : firstFault (beginChecks k (f.plain.drop 32) (field f.plain 0x10 8)) = none)
    (hd : ∀ l ∈ s.models.loads, l.kind = k → l.handle ≠ field f.plain 0 4) (ht : (s.models.loads.filter (·.tenant == f.tenant)).length < 4)
    (hl : s.models.loads.length < 16) (hg : s.genLimits k (field f.plain 0 4) = .ok ())
    (hm : k = .model → s.modelBytes + field f.plain 0x10 8 ≤ s.modelRegion ∧ s.quotaHbm f.tenant (field f.plain 0x10 8) = .ok ()) :
    s.loadBegin k f = .ok (({ s with
      models.loads := s.models.loads ++ [{ id := s.models.nextLoad, kind := k, handle := field f.plain 0 4, tenant := f.tenant
                                           total := field f.plain 0x10 8, writes := [(0, f.plain.drop 32)], last := s.clock }]
      models.nextLoad := s.models.nextLoad % 0xFFFFFFFF + 1 } : State).answer f .done (leBytes 4 s.models.nextLoad ++ zeros 4)) := by
  have unopened : (!s.models.loads.any fun l => l.kind == k && l.handle == field f.plain 0 4) = true := by simpa using hd
  simp only [State.loadBegin, hc, need_ok unopened, need_ok (decide_eq_true ht), need_ok (decide_eq_true hl), hg, ok_bind]
  by_cases hk : k = .model
  · obtain ⟨region, quota⟩ := hm hk
    simp only [hk, beq_self_eq_true, if_true, need_ok (decide_eq_true region), quota, ok_bind]
  · rw [if_neg (by simpa using hk)]

/-- A later phase that names an open load: bytes that it writes, the image it commits, or the load it gives up (R289). -/
theorem imageLoad_write (h : f.LoadHead) (hz : field f.plain 0x10 8 = 0) (hl : s.load k f = .ok l) (hp : field f.plain 4 1 = 1)
    (h8 : field f.plain 8 8 % 4096 = 0) (hn : field f.plain 8 8 + (f.plain.length - 32) ≤ l.total) : State.imageLoad k f s =
      .ok ((s.updLoad l.id fun l => { l with writes := (field f.plain 8 8, f.plain.drop 32) :: l.writes, last := s.clock }).answer f .done []) := by
  simp [State.imageLoad, opening_ok h.opens, fields, need_ok, h.handle, h.reserved, h.reservedEnd, h.owner, hz, hl, hp, h8, hn]

section
variable (h : f.LoadHead) (hz : field f.plain 0x10 8 = 0) (hl : s.load k f = .ok l) (hn : f.plain.length = 32) (h8 : field f.plain 8 8 = 0)
include h hz hl hn h8

theorem imageLoad_commit (hp : field f.plain 4 1 = 2) : State.imageLoad k f s = s.loadCommit l f := by
  simp [State.imageLoad, opening_ok h.opens, fields, need_ok, h.handle, h.reserved, h.reservedEnd, h.owner, hz, hl, hn, h8, hp]

theorem imageLoad_abort (hp : field f.plain 4 1 = 3) : State.imageLoad k f s = .ok ((s.dropLoad l.id).answer f .done []) := by
  simp [State.imageLoad, opening_ok h.opens, fields, need_ok, h.handle, h.reserved, h.reservedEnd, h.owner, hz, hl, hn, h8, hp]

end

/-- COMMIT of an image without a fault waits until the image is in flash (R289). -/
theorem loadCommit_faultless (h : s.imageFault l = none) : s.loadCommit l f =
    .ok ((s.updLoad l.id fun l => { l with committing := some (f.mbx, f.tag), last := s.clock }).setWork f (.loadWait l.id)) := by
  simp only [State.loadCommit, h]

/-- COMMIT of an image with a fault is answered its offset, and the load is gone (R290). -/
theorem loadCommit_fault {o : Nat} (h : s.imageFault l = some o) : s.loadCommit l f = .ok ((s.dropLoad l.id).answerDetail f
    { status := .badField, offset := o % 2 ^ 32, space := 1, offsetHi := o / 2 ^ 32 }) := by
  simp only [State.loadCommit, h]

end

/-! #### MODEL_LOAD_COMMIT_DONE -/

/-- MODEL_LOAD_COMMIT_DONE is its row of the table (R289). -/
theorem exec_modelLoadCommitDone (id : Word) (s : State) : exec (.modelLoadCommitDone id) s = execModelLoadCommitDone id s := rfl

/-- The command in flight by a mailbox and tag is answered, where there is one. -/
def State.answerAt (r : Nat × Word) (st : Status) (p : Bytes) (s : State) : State :=
  match s.flight r.1 r.2 with
  | some f => s.answer f st p
  | none => s

/-- The number that the next generation of a handle takes (R283). -/
def State.nextGen (k : ImageKind) (h : Nat) (s : State) : Nat :=
  ((s.models.gens.filter fun g => g.kind == k && g.handle == h).map (·.gen)).foldl max 0 + 1

/-- The generation that a load's image becomes (R283, R289). -/
def State.loadedGen (l : ImageLoad) (s : State) : Generation :=
  { kind := l.kind, handle := l.handle, gen := s.nextGen l.kind l.handle, image := (loadImage l).getD [] }

/-- The generations of a handle without a current one. -/
def State.demoted (k : ImageKind) (h : Nat) (s : State) : List Generation :=
  s.models.gens.map fun g => if g.kind == k && g.handle == h then { g with current := false } else g

/-- A load's image is the handle's current generation: the load is over, and its bytes are charged (R283, R289, R444). -/
def State.install (l : ImageLoad) (s : State) : State :=
  (({ s with models.gens := s.demoted l.kind l.handle ++ [s.loadedGen l] } : State).dropLoad l.id).charge l.tenant 0x40 l.total

theorem le_foldl_max {l : List Nat} {n b : Nat} (h : n ∈ l) : n ≤ l.foldl max b := by
  rw [List.foldl_max]
  exact le_trans (List.le_max?_getD_of_mem h) (le_max_right _ _)

theorem gen_lt_nextGen {s : State} {g : Generation} (h : g ∈ s.models.gens) : g.gen < s.nextGen g.kind g.handle :=
  Nat.lt_succ_of_le (le_foldl_max (List.mem_map_of_mem (List.mem_filter.mpr ⟨h, by simp⟩)))

/-- A demoted generation of the handle is not current, and its number is below the next one (R283). -/
theorem demoted_below {k : ImageKind} {h : Nat} {s : State} {x : Generation} (hx : x ∈ s.demoted k h) (hk : x.kind = k) (hh : x.handle = h) :
    x.current = false ∧ x.gen < s.nextGen k h := by
  obtain ⟨g, hg, rfl⟩ := List.mem_map.mp hx
  by_cases same : g.kind = k ∧ g.handle = h
  · obtain ⟨rfl, rfl⟩ := same
    simpa using gen_lt_nextGen hg
  · rw [if_neg (by simpa using same)] at hk hh
    exact absurd ⟨hk, hh⟩ same

section
variable {l : ImageLoad} {s : State}

theorem install_gens : (s.install l).models.gens = s.demoted l.kind l.handle ++ [s.loadedGen l] := rfl

theorem install_loads {x : ImageLoad} (h : x ∈ (s.install l).models.loads) : x.id ≠ l.id := by
  obtain ⟨-, ne⟩ := List.mem_filter.mp h
  simpa using ne

section
variable {id : Word} {r : Nat × Word} (hl : s.models.loads.find? (·.id == id.toNat) = some l) (hc : l.committing = some r)
include hl hc

theorem loadCommitDone_notServing (hs : s.serving = false) : exec (.modelLoadCommitDone id) s = .next s := by
  simp [exec_modelLoadCommitDone, execModelLoadCommitDone, hl, hc, hs]

/-- With media that take no image the COMMIT ends TIER_FAILED, and its load stays open (R378, Table 11-10). -/
theorem loadCommitDone_noFlash (hs : s.serving = true) (hf : s.flash.failed = true ∨ s.flash.lowSpace = true) :
    exec (.modelLoadCommitDone id) s =
      .next ((s.updLoad l.id fun l => { l with committing := none, last := s.clock }).answerAt r .tierFailed []) := by
  simp only [exec_modelLoadCommitDone, execModelLoadCommitDone, hl, hc, hs, Bool.not_true, Bool.false_eq_true, if_false]
  exact congrArg Host.Outcome.next (if_pos (by simpa using hf))

/-- An image in flash is the handle's current generation, and its COMMIT is answered (R283, R289). -/
theorem loadCommitDone_installs (hs : s.serving = true) (hf : s.flash.failed = false) (hw : s.flash.lowSpace = false) :
    exec (.modelLoadCommitDone id) s = .next ((s.install l).answerAt r .done (leBytes 2 (s.loadedGen l).gen ++
      leBytes 2 ((s.install l).handleGens l.kind l.handle).length ++
      leBytes 8 (if l.kind == .model then (readModelHeader (s.loadedGen l).image).weightBytes else (s.loadedGen l).image.length))) := by
  simp only [exec_modelLoadCommitDone, execModelLoadCommitDone, hl, hc, hs, hf, hw, Bool.not_true, Bool.or_self, Bool.false_eq_true, if_false]
  rfl

end

theorem answerAt_some {r : Nat × Word} {f : Flight} {st : Status} {p : Bytes} (h : s.flight r.1 r.2 = some f) :
    s.answerAt r st p = s.answer f st p := by
  simp only [State.answerAt, h]

theorem answerAt_none {r : Nat × Word} {st : Status} {p : Bytes} (h : s.flight r.1 r.2 = none) : s.answerAt r st p = s := by
  simp only [State.answerAt, h]

/-! #### LOAD_IDLE_TIMEOUT -/

theorem loadIdleTimeout_row {id : Word} (hl : s.models.loads.find? (·.id == id.toNat) = some l) : exec (.loadIdleTimeout id) s =
    .next (if l.committing.isNone && l.last + 60000000000 ≤ s.clock then s.dropLoad l.id else s) := by
  show execLoadIdleTimeout id s = _
  simp only [execLoadIdleTimeout, hl]

end

/-! #### Retiring generations -/

/-- The generations that a retirement names: the one of its number, or with number 0 every live one of its handle (R291, R306). -/
def State.retiring (k : ImageKind) (f : Flight) (s : State) : List Generation :=
  if field f.plain 4 2 = 0 then s.handleGens k (field f.plain 0 4) else (s.handleGens k (field f.plain 0 4)).filter (·.gen == field f.plain 4 2)

/-- Generations are retired and unbindable (R291). -/
def State.retire (gs : List Generation) (s : State) : State :=
  { s with models.gens := s.models.gens.map fun g => if gs.contains g then { g with retired := true, current := false } else g }

/-- Bytes of all images. -/
def State.imageBytes (s : State) : Nat := (s.models.gens.map (·.image.length)).foldl (· + ·) 0

section
variable {k : ImageKind} {f : Flight} {s : State}

/-- A retirement that names a live generation is refused for a pinned one, and otherwise retires what it names (R104, R291). -/
theorem imageRetire_named (ho : f.opens 8 8) (hz : zeroField f.plain 6 2 = true) (hw : ownerOf (field f.plain 0 4) = f.tenant) (hg : s.retiring k f ≠ []) :
    State.imageRetire k f s = if (s.retiring k f).any (fun g => s.pinned g) then .error (wrongStateAt 0x24)
      else .ok ((s.retire (s.retiring k f)).reapGens.answer f .done (leBytes 2 (s.retiring k f).length ++ zeros 2 ++
        leBytes 8 ((s.retire (s.retiring k f)).imageBytes - (s.retire (s.retiring k f)).reapGens.imageBytes))) := by
  have live : s.handleGens k (field f.plain 0 4) ≠ [] := by
    intro e
    simp [State.retiring, e] at hg
  have named : (if field f.plain 4 2 == 0 then s.handleGens k (field f.plain 0 4)
      else (s.handleGens k (field f.plain 0 4)).filter (·.gen == field f.plain 4 2)) = s.retiring k f := by
    simp only [State.retiring, beq_iff_eq]
  simp only [State.imageRetire, opening_ok ho, hz, fields_cons, fields_nil, need_ok (beq_iff_eq.mpr hw), ok_bind, named]
  rw [need_ok (by simpa using live), ok_bind, need_ok (by simpa using hg), ok_bind]
  cases h : (s.retiring k f).any fun g => s.pinned g with
  | true => rfl
  | false => rfl

end

/-! #### The placement image -/

section
variable {m : Mbx} {tag : Word} {f : Flight} {s : State}

theorem placementLoad_fault {o : Nat} (ht : s.turn 0x4003 m tag f) (ho : f.opens 96 8388608)
    (h : placementFault f.plain s.nodeId s.placementGen = some o) : exec (.placementLoad m tag) s = .next (s.answerDetail f (bad (0x20 + o))) := by
  refine congrArg Host.Outcome.next (start_error ht ?_)
  simp only [opening_ok ho, ok_bind, h]

/-- A faultless image is programmed to flash where no other one is and it may replace the one in force (R286, R343). -/
theorem placementLoad_faultless (ht : s.turn 0x4003 m tag f) (ho : f.opens 96 8388608) (h : placementFault f.plain s.nodeId s.placementGen = none) :
    exec (.placementLoad m tag) s = .next (if s.models.placing.isNone && s.mayReplace f.plain then ({ s with
      models.placing := some { placement := { gen := field f.plain 8 4, image := f.plain }, mbx := m.key, tag := tag } } : State).setWork f .placeWait
      else s.answerDetail f wrongState) := by
  cases hr : s.models.placing.isNone && s.mayReplace f.plain with
  | true =>
    refine congrArg Host.Outcome.next (start_ok ht ?_)
    simp only [opening_ok ho, ok_bind, h, need_ok hr]
    rfl
  | false =>
    refine congrArg Host.Outcome.next (start_error ht ?_)
    simp only [opening_ok ho, ok_bind, h, need_error hr, error_bind]

/-- PLACEMENT_IN_FORCE is its row of the table (R286). -/
theorem exec_placementInForce (s : State) : exec .placementInForce s = execPlacementInForce s := rfl

section
variable {p : Placing} (hp : s.models.placing = some p)
include hp

theorem placementInForce_notServing (hs : s.serving = false) : exec .placementInForce s = .next s := by
  simp [exec_placementInForce, execPlacementInForce, hp, hs]

/-- An image that may still replace the one in force comes into force (R286, R343). -/
theorem placementInForce_replaces (hs : s.serving = true) (hr : s.mayReplace p.placement.image = true) : exec .placementInForce s =
    .next (({ s with models.placing := none, models.placement := some p.placement } : State).answerAt (p.mbx, p.tag) .done
      (leBytes 4 p.placement.gen ++ zeros 4)) := by
  simp only [exec_placementInForce, execPlacementInForce, hp, hs, hr, Bool.not_true, Bool.false_eq_true, if_false, if_true]
  rfl

section
variable (hs : s.serving = true) (hr : s.mayReplace p.placement.image = false)
include hs hr

/-- An image that may not replace the one in force any more is refused (R286, R343). -/
theorem placementInForce_refuses {f : Flight} (h : s.flight p.mbx p.tag = some f) :
    exec .placementInForce s = .next (({ s with models.placing := none } : State).answerDetail f wrongState) := by
  have kept : ({ s with models.placing := none } : State).flight p.mbx p.tag = some f := h
  simp only [exec_placementInForce, execPlacementInForce, hp, hs, hr, Bool.not_true, Bool.false_eq_true, if_false, kept]

theorem placementInForce_drops (h : s.flight p.mbx p.tag = none) : exec .placementInForce s = .next { s with models.placing := none } := by
  have kept : ({ s with models.placing := none } : State).flight p.mbx p.tag = none := h
  simp only [exec_placementInForce, execPlacementInForce, hp, hs, hr, Bool.not_true, Bool.false_eq_true, if_false, kept]

end
end
end

/-! #### MODEL_WEIGHT_RUN_REPAIRED -/

/-- No command waits for a rebuild once those that did run again (R153, R298). -/
theorem resumeRebuild_none_waits {s : State} {f : Flight} (h : f ∈ s.resumeRebuild.host.flights) : f.work ≠ .rebuildWait := by
  obtain ⟨g, -, rfl⟩ := List.mem_map.mp h
  by_cases e : g.work = .rebuildWait <;> simp [e]

/-! #### The obligation -/

/-- Settles O39: each phase of a load passes its checks, an image in flash is installed or not, and generations and placements change by their conditions. -/
theorem images : Obligations.Images := by
  unfold Obligations.Images
  intro m tag f s k
  refine ⟨fun t e => ?done, fun d e => ?refused, fun ho hh hz hz' hw => ?phases, fun id l r hl hc => ?committed, fun id l hl => ?idle,
    fun t e => ?retired, fun ho hz hw => ?retire, fun ht ho => ?place, fun p hp => ?inForce, fun h g run holds => rfl, fun f => resumeRebuild_none_waits⟩
  case done => refine ⟨?_, ?_, ?_⟩ <;> exact fun hk ht => congrArg Host.Outcome.next (start_ok ht (hk ▸ e))
  case refused => refine ⟨?_, ?_, ?_⟩ <;> exact fun hk ht => congrArg Host.Outcome.next (start_error ht (hk ▸ e))
  case retired => refine ⟨?_, ?_, ?_⟩ <;> exact fun hk ht => congrArg Host.Outcome.next (start_ok ht (hk ▸ e))
  case phases =>
    have head : f.LoadHead := ⟨ho, hh, hz, hz', hw⟩
    refine ⟨fun hp h8 h18 hn => ?_, fun l h10 hl => ⟨imageLoad_write head h10 hl, fun hn h8 => ?_⟩⟩
    · intro total hc hd ht hl hg hm
      exact (imageLoad_begin head hp h8 h18 hn).trans (loadBegin_opens hc hd ht hl hg hm)
    · exact ⟨fun hp h => (imageLoad_commit head h10 hl hn h8 hp).trans (loadCommit_faultless h),
        fun o hp h => (imageLoad_commit head h10 hl hn h8 hp).trans (loadCommit_fault h), imageLoad_abort head h10 hl hn h8⟩
  case committed =>
    refine ⟨loadCommitDone_notServing hl hc, fun hs hf => ?failed, fun hs hf hw => ?installed⟩
    case failed =>
      intro u
      rw [loadCommitDone_noFlash hl hc hs hf]
      exact ⟨fun h => congrArg _ (answerAt_none (s := u) h), fun g h => congrArg _ (answerAt_some (s := u) h)⟩
    case installed =>
      rw [loadCommitDone_installs hl hc hs hf hw]
      refine ⟨s.install l, s.loadedGen l, ?_, rfl, rfl, rfl, rfl, ?_, fun x => install_loads, fun h => congrArg _ (answerAt_none h),
        fun g h => congrArg _ (answerAt_some h)⟩
      · rw [install_gens, List.getLast?_concat]
      · rw [install_gens, List.dropLast_concat]
        exact fun x => demoted_below
  case idle =>
    rw [loadIdleTimeout_row hl]
    refine ⟨fun hn h => congrArg _ (if_pos (by simp [hn, h])), fun h => congrArg _ (if_neg ?_)⟩
    rcases h with h | h
    · simp [Nat.not_le.mpr h]
    · simp [Option.isSome_iff_ne_none.mp h]
  case retire =>
    intro live gs hg
    have named := imageRetire_named (k := k) ho hz hw hg
    exact ⟨fun h => named.trans (if_pos h), fun h => named.trans (if_neg (Bool.eq_false_iff.mp h))⟩
  case place =>
    refine ⟨fun o => placementLoad_fault ht ho, fun h => ?_⟩
    rw [placementLoad_faultless ht ho h]
    refine ⟨fun hn hr => congrArg _ (if_pos (by simp [hn, hr])), fun hr => congrArg _ (if_neg ?_)⟩
    simpa [imp_iff_not_or] using hr
  case inForce =>
    refine ⟨placementInForce_notServing hp, fun hs => ?_⟩
    intro u v
    exact ⟨fun hr h => (placementInForce_replaces hp hs hr).trans (congrArg _ (answerAt_none (s := u) h)), placementInForce_drops hp hs,
      fun f hr h => (placementInForce_replaces hp hs hr).trans (congrArg _ (answerAt_some (s := u) h)), fun f hr => placementInForce_refuses hp hs hr⟩

end Sys2Proof.Machine

/-! ### Proofs: model passes and text commands (O40) -/

namespace Sys2Proof.Machine

/-! #### Weights, inputs and crews -/

section
variable {g : Generation} {f : Flight} {s t r : State} {b : Bytes} {i p : Nat} {k : State → Except Detail State}

/-- A lost weight run ends a command that reads it (R298). -/
theorem withWeights_lost (h : ∃ d ∈ g.damaged, d.2 = true) : s.withWeights g f b k = .ok (s.answer f .dataDamaged b) :=
  if_pos (List.any_eq_true.mpr h)

/-- A weight run that is being rewritten is waited for (R298). -/
theorem withWeights_rewritten (hn : g.damaged ≠ []) (h : ∀ d ∈ g.damaged, d.2 = false) : s.withWeights g f b k = .ok (s.setWork f .rebuildWait) :=
  (if_neg (by simpa using h)).trans (if_pos (by simpa using hn))

/-- A pass over undamaged weights whose crew forms at once runs (R247, R298). -/
theorem withWeights_withCrew_ok (hd : g.damaged = []) (hc : s.crewAtOnce i p f t) (h : k t = .ok r) :
    s.withWeights g f b (fun s => s.withCrew i p f k) = .ok r := by
  rw [withWeights_ok hd, withCrew_ok hc, h]

end

/-- No input of token IDs is cut within an ID (R299). -/
theorem find_unaligned_eq_none {ids : Bool} {l : List (Nat × Bytes)} (h : ids = true → ∀ x ∈ l, x.2.length % 4 = 0) :
    (if ids then l.find? (fun x => x.2.length % 4 != 0) else none) = none := by
  cases ids with
  | true => simpa using h rfl
  | false => rfl

theorem find_unaligned_pairs_eq_none {ids : Bool} {l : List ((Nat × Bytes) × (Nat × Bytes))}
    (h : ids = true → ∀ x ∈ l, x.1.2.length % 4 = 0 ∧ x.2.2.length % 4 = 0) :
    (if ids then (l.flatMap fun x => [x.1, x.2]).find? (fun x => x.2.length % 4 != 0) else none) = none := by
  refine find_unaligned_eq_none fun hi x hx => ?_
  obtain ⟨y, hy, hx⟩ := List.mem_flatMap.mp hx
  obtain ⟨first, second⟩ := h hi y hy
  rcases List.mem_pair.mp hx with rfl | rfl
  · exact first
  · exact second

/-! #### TOKENIZE -/

/-- Only a text that opens a context needs a place for it (R313). -/
theorem contextPlace {more b : Bool} {c : Option TokenContext} (h : more = true → c = none → b = true) : (!more || c.isSome || b) = true := by
  cases more with
  | false => rfl
  | true => cases c with
    | none => exact h rfl rfl
    | some c => rfl

section
variable {f : Flight} {s : State} {id : Half} {c : TokenContext}

/-- A tokenize context is being used: a TOKENIZE that names it has begun to run (R313). -/
def State.contextInUse (id : Nat) (s : State) : Bool :=
  s.host.flights.any fun g => g.opcode == 0x4022#16 && g.work != .admitted && field g.plain 6 2 == id

/-- A context is freed once it is idle for 10 s (R313). -/
theorem tokenizeContextExpire_row (h : s.models.contexts.find? (·.id == id.toNat) = some c) : exec (.tokenizeContextExpire id) s =
    .next (if c.last + 10000000000 ≤ s.clock && !s.contextInUse c.id then
      ({ s with models.contexts := s.models.contexts.filter (·.id != c.id) } : State).reapGens else s) := by
  show execTokenizeContextExpire id s = _
  simp only [execTokenizeContextExpire, h]
  rfl

end

/-! #### The obligation -/

/-- Settles O40: the checks of each command pass one by one, its weights and its crew are there, and it answers what its pass or its text gives. -/
theorem modelPasses : Obligations.ModelPasses := by
  unfold Obligations.ModelPasses
  intro m tag f s
  refine ⟨fun n ins str g u v w t p ht ho hn h1 h2 hA hB hE hi hstr hg hv hk hm hd => ?encode,
    fun n mx ps str g u v w t p ht ho hn h1 h2 hx hx' hC hD hi hstr hg hv hk hm hs hd => ?score,
    fun g b k => ⟨withWeights_lost, withWeights_rewritten⟩,
    fun n c v u t ht ho hn h1 h2 h4 hC hl hz hsrc => ?tokenize, fun c id h => ?expire, fun n v u t ht ho hn h1 h2 h4 h6 hC hl hv => ?detokenize⟩
  case encode =>
    dsimp only
    intro aligned hc hk'
    subst hn
    refine congrArg Host.Outcome.next (start_ok ht ?_)
    simp only [opening_ok ho, h1, h2, hA, hB, hE, decide_true, Bool.and_self, fields_cons, fields_nil, hi, find_unaligned_eq_none aligned, hstr, hg, hv,
      need_ok (beq_iff_eq.mpr hk), need_ok hm, ok_bind]
    refine withWeights_withCrew_ok hd hc ?_
    simp only [hk']
    rfl
  case score =>
    dsimp only
    intro aligned hc hk'
    subst hn hx
    refine congrArg Host.Outcome.next (start_ok ht ?_)
    simp only [opening_ok ho, h1, h2, hx', hC, hD, decide_true, Bool.and_self, fields_cons, fields_nil, hi, find_unaligned_pairs_eq_none aligned, hstr, hg, hv,
      need_ok (beq_iff_eq.mpr hk), need_ok hm, need_ok (decide_eq_true hs), ok_bind]
    refine withWeights_withCrew_ok hd hc ?_
    simp only [hk']
    rfl
  case tokenize =>
    dsimp only
    intro hroom hc
    subst hn
    have given : (field f.plain 8 4 != 0 || field f.plain 6 2 != 0) = true := by simpa using h2
    refine congrArg Host.Outcome.next (start_ok ht ?_)
    simp only [opening_ok ho, h1, given, h4, hC, decide_true, Bool.and_self, fields_cons, fields_nil, need_ok (beq_iff_eq.mpr hl), need_ok hz, hsrc,
      need_ok (contextPlace fun hm hn => decide_eq_true (hroom hm hn).1), need_ok (contextPlace fun hm hn => decide_eq_true (hroom hm hn).2), ok_bind]
    rw [withCrew_ok hc]
    cases c <;> rfl
  case expire =>
    intro busy
    rw [tokenizeContextExpire_row h]
    refine ⟨fun hl hb => congrArg _ (if_pos ?_), fun hl => congrArg _ (if_neg ?_)⟩
    · simp [hl, show s.contextInUse c.id = false from hb]
    · rcases hl with hl | hb
      · simp [Nat.not_le.mpr hl]
      · simp [show s.contextInUse c.id = true from hb]
  case detokenize =>
    subst hn
    dsimp only
    refine ⟨fun i hi => ?_, fun hi hc => ?_⟩
    · refine congrArg Host.Outcome.next (start_error ht ?_)
      simp only [opening_ok ho, h1, h2, h4, h6, hC, decide_true, Bool.and_self, fields_cons, fields_nil, need_ok (beq_iff_eq.mpr hl), hv, ok_bind, hi]
    · refine congrArg Host.Outcome.next (start_ok ht ?_)
      simp only [opening_ok ho, h1, h2, h4, h6, hC, decide_true, Bool.and_self, fields_cons, fields_nil, need_ok (beq_iff_eq.mpr hl), hv, ok_bind, hi]
      exact withCrew_ok hc

end Sys2Proof.Machine

/-! ### Proofs: GENERATE and its token steps (O41) -/

namespace Sys2Proof.Machine

/-! #### GENERATE_TOKEN_STEP -/

/-- GENERATE_TOKEN_STEP is its row of the table (R301). -/
theorem exec_generateTokenStep (m : Mbx) (tag : Word) (s : State) : exec (.generateTokenStep m tag) s = execGenerateTokenStep m tag s := rfl

/-- A token step waits: the module does not serve, or the command's stream lacks room (R52, R60). -/
def State.stepHeld (r : GenRun) (s : State) : Prop := s.serving = false ∨ ∃ n, r.stream = some n ∧ s.streamLacks n = true

theorem stepHeld_iff {r : GenRun} {s : State} : s.stepHeld r ↔ (!s.serving || r.stream.any fun n => s.streamLacks n) = true := by
  simp [State.stepHeld, Option.any_eq_true]

/-- The image of the grammar that a GENERATE is bound to; none without one (R322). -/
def State.boundGrammar (r : GenRun) (s : State) : Option Bytes :=
  if r.grammar.2 = 0 then none else (s.generation .grammar r.grammar.1 r.grammar.2).map (·.image)

section
variable {m : Mbx} {tag : Word} {f : Flight} {s u : State} {r : GenRun} {g v : Generation}
  (hf : s.flight m.key tag = some f) (hw : f.work = .generate r) (hg : s.generation .model r.model.1 r.model.2 = some g)
  (hv : s.generation .vocab r.vocab.1 r.vocab.2 = some v)
include hf hw hg hv

theorem tokenStep_held (h : s.stepHeld r) : exec (.generateTokenStep m tag) s = .next s := by
  simp only [exec_generateTokenStep, execGenerateTokenStep, hf, hw, hg, hv]
  exact congrArg Host.Outcome.next (if_pos (stepHeld_iff.mp h))

variable (hh : ¬ s.stepHeld r)
include hh

/-- A step that is not held goes by the damage of its model, and then by its pages (R296, R298). -/
theorem tokenStep_row : exec (.generateTokenStep m tag) s = .next (
    if g.damaged.any (·.2) then (s.abortStreams f).answer f .dataDamaged (genHead r 0)
    else if !g.damaged.isEmpty then s
    else match s.throughPages f (genSequence (readModelHeader g.image) r).length with
      | none => (s.abortStreams f).answer f .dataDamaged (genHead r 0)
      | some u => u.genStep f r g v (u.boundGrammar r)) := by
  simp only [exec_generateTokenStep, execGenerateTokenStep, hf, hw, hg, hv]
  exact congrArg Host.Outcome.next (if_neg (mt stepHeld_iff.mpr hh))

/-- A lost weight run ends the command (R298). -/
theorem tokenStep_lost (h : ∃ d ∈ g.damaged, d.2 = true) :
    exec (.generateTokenStep m tag) s = .next ((s.abortStreams f).answer f .dataDamaged (genHead r 0)) :=
  (tokenStep_row hf hw hg hv hh).trans (congrArg _ (if_pos (List.any_eq_true.mpr h)))

/-- A weight run that is being rewritten is waited for (R298). -/
theorem tokenStep_rewritten (hn : g.damaged ≠ []) (h : ∀ d ∈ g.damaged, d.2 = false) : exec (.generateTokenStep m tag) s = .next s := by
  rw [tokenStep_row hf hw hg hv hh]
  exact congrArg _ ((if_neg (by simpa using h)).trans (if_pos (by simpa using hn)))

section
variable (hd : g.damaged = [])
include hd

/-- A page that is not the sequence's ends the command (R296). -/
theorem tokenStep_pagesLost (h : s.throughPages f (genSequence (readModelHeader g.image) r).length = none) :
    exec (.generateTokenStep m tag) s = .next ((s.abortStreams f).answer f .dataDamaged (genHead r 0)) := by
  rw [tokenStep_row hf hw hg hv hh, hd, h]
  rfl

theorem tokenStep_chooses (h : s.throughPages f (genSequence (readModelHeader g.image) r).length = some u) :
    exec (.generateTokenStep m tag) s = .next (u.genStep f r g v (u.boundGrammar r)) := by
  rw [tokenStep_row hf hw hg hv hh, hd, h]
  rfl

end
end

/-! #### The choice of a token -/

/-- The permitted tokens with their logits (R301, R321). -/
def GenRun.allowed (r : GenRun) (g v : Generation) (gr : Option Bytes) : List (Nat × Word) :=
  permitted gr v.image (readModelHeader g.image).eos r.conf (nextLogits g.image (genSequence (readModelHeader g.image) r)).1

/-- The permitted tokens whose logit is a number. -/
def GenRun.numbers (r : GenRun) (g v : Generation) (gr : Option Bytes) : List (Nat × Word) := (r.allowed g v gr).filter fun x => !f32IsNan x.2

/-- The run with this pass's NaN logits and NaN rows counted (R294, R302). -/
def GenRun.counted (r : GenRun) (g v : Generation) (gr : Option Bytes) : GenRun := { r with
  nans := r.nans + ((r.allowed g v gr).length - (r.numbers g v gr).length)
  nanRows := (nextLogits g.image (genSequence (readModelHeader g.image) r)).2 }

/-- The choice is seeded, not greedy (Table 11-8). -/
def Flight.seeded (f : Flight) : Bool := field f.plain 0xF 1 == 1

/-- The token chosen among the permitted ones, where `k` is free (R301). -/
def Flight.choose (f : Flight) (r : GenRun) (k : Nat) (ok : List (Nat × Word)) : Nat :=
  let c := candidates (if f.seeded then field f.plain 0x1C 2 else 1) ok
  if f.seeded then (samplePick (field f.plain 0x20 8) r.out.length (BitVec.ofNat 32 (field f.plain 0x18 4)) c).getD ((c.getD (k % c.length) (0, f32Zero)).1)
  else (c.headD (0, f32Zero)).1

/-- A chosen token joins the output, and the grammar's configuration follows it (R321). -/
def GenRun.push (r : GenRun) (v : Generation) (gr : Option Bytes) (t : Nat) : GenRun :=
  { r with out := r.out ++ [t], conf := gr.elim r.conf fun b => grammarStep b v.image r.conf t }

section
variable {f : Flight} {r : GenRun} {g v : Generation} {gr : Option Bytes} {s : State}

/-- A greedy choice takes the best candidate (R301). -/
theorem choose_greedy {k : Nat} {ok : List (Nat × Word)} {x : Nat × Word} (h : f.seeded = false) (hx : (candidates 1 ok).head? = some x) :
    f.choose r k ok = x.1 := by
  simp [Flight.choose, h, List.headD_eq_head?_getD, hx]

theorem genStep_deadEnd (h : r.allowed g v gr = []) :
    s.genStep f r g v gr = (s.chargeTiles f.tenant).genStop f (r.counted g v gr) .grammarDeadEnd :=
  if_pos (List.isEmpty_iff.mpr h)

theorem genStep_allNan (h : r.allowed g v gr ≠ []) (hn : r.numbers g v gr = []) :
    s.genStep f r g v gr = (s.chargeTiles f.tenant).genStop f (r.counted g v gr) .stopped :=
  (if_neg (mt List.isEmpty_iff.mp h)).trans (if_pos (List.isEmpty_iff.mpr hn))

/-- Where a permitted logit is a number a token is chosen: EOS ends the command, another token is output (R301, R302). -/
theorem genStep_chooses (hn : r.numbers g v gr ≠ []) : s.genStep f r g v gr =
    let u := s.chargeTiles f.tenant
    let w := ({ u with free := u.free + 1 } : State).stage f (passItems g.image [1])
    let t := f.choose r (Config.free u.free) (r.numbers g v gr)
    if t == (readModelHeader g.image).eos then w.genStop f (r.counted g v gr) .done else w.genToken f ((r.counted g v gr).push v gr t) v.image := by
  have ha : r.allowed g v gr ≠ [] := fun e => hn (by simp [GenRun.numbers, e])
  refine (if_neg (mt List.isEmpty_iff.mp ha)).trans ((if_neg (mt List.isEmpty_iff.mp hn)).trans ?_)
  cases gr <;> rfl

end

/-! #### A token's text -/

section
variable {f : Flight} {r : GenRun} {vocab : Bytes} {s : State}

/-- A stop string ends the command, and its text is cut there (R317). -/
theorem genToken_stopString {n cut : Nat} (h : stopAt r.stops [] 0 ((genChars vocab r.out).1.map unmark) = some (n, cut)) :
    s.genToken f r vocab = (s.charge f.tenant 0x78 1).genEnd f r .stopped ((genChars vocab r.out).1.take n) (some cut) := by
  simp only [State.genToken, h]

/-- The bytes of the text that no stop string may still take; to a caller of class Sprint, all of it (R317, R318). -/
def GenRun.available (r : GenRun) (vocab : Bytes) : Nat :=
  let text := markedBytes (genChars vocab r.out).1
  if r.sprint then text.length else text.length - stopHold r.stops text

/-- The text available is released: nothing new leaves the run as it is, and new text goes to the stream, where there is one (R316, R318). -/
def State.release (f : Flight) (r : GenRun) (vocab : Bytes) (s : State) : State :=
  let d := genChars vocab r.out
  let avail := r.available vocab
  let released : Work := .generate { r with released := avail, covered := r.out.length }
  match r.stream with
  | some n =>
    if avail ≤ r.released then s.setWork f (.generate r)
    else (s.textOut f n (textRecord r (4 * flag (replacedIn r.released avail 0 d.1)) 0 (((markedBytes d.1).take avail).drop r.released)) false).setWork f
      released
  | none => s.setWork f released

section
variable (h : stopAt r.stops [] 0 ((genChars vocab r.out).1.map unmark) = none)
include h

theorem genToken_atMax (hm : field f.plain 0x10 4 ≤ r.out.length) : s.genToken f r vocab = (s.charge f.tenant 0x78 1).genStop f r .done := by
  simp only [State.genToken, h]
  exact if_pos hm

theorem genToken_drain (hm : r.out.length < field f.plain 0x10 4) (hd : s.power.season = .drain) :
    s.genToken f r vocab = (s.charge f.tenant 0x78 1).genStop f r .stopped := by
  simp only [State.genToken, h]
  exact (if_neg (Nat.not_le.mpr hm)).trans (if_pos (beq_iff_eq.mpr hd))

theorem genToken_releases (hm : r.out.length < field f.plain 0x10 4) (hd : s.power.season ≠ .drain) :
    s.genToken f r vocab = (s.charge f.tenant 0x78 1).release f r vocab := by
  simp only [State.genToken, h]
  exact (if_neg (Nat.not_le.mpr hm)).trans ((if_neg (mt beq_iff_eq.mp hd)).trans rfl)

end

/-! #### The end of a command -/

/-- The text of a command that ends: all its characters, cut where a stop string ended it (R317, R319). -/
def endText (chars : List Nat) (cut : Option Nat) : Bytes := cut.elim (markedBytes chars) (markedBytes chars).take

variable {st : Status} {chars : List Nat} {cut : Option Nat}

/-- Without a stream the text follows the head, as far as it fits in whole characters (R302). -/
theorem genEnd_unstreamed (h : r.stream = none) : s.genEnd f r st chars cut =
    let text := endText chars cut
    let fit := utf8Bytes (fitChars (s.rspPlain f.mbx - 16) (utf8Decode text).chars)
    if text.length ≤ s.rspPlain f.mbx - 16 then s.answer f st (genHead r text.length ++ text)
    else s.answer f .doneTruncated (genHead r fit.length ++ fit) := by
  cases cut <;> simp only [State.genEnd, h] <;> rfl

/-- With a stream the final record holds what was not released yet; a stream that is gone or lacks room gets none (R302, R319). -/
theorem genEnd_streamed {n : Nat} (h : r.stream = some n) : s.genEnd f r st chars cut =
    let text := endText chars cut
    if (s.host.streams.find n).isNone then s.answer f st (genHead r 0)
    else if s.streamLacks n then (s.abortStreams f).answer f st (genHead r 0)
    else (s.textOut f n (textRecord r (flag cut.isSome + 2 + 4 * flag (replacedIn r.released text.length 0 chars))
      (r.released - text.length) (text.drop r.released)) true).setWork f (.streaming n st (some (genHead r 0))) := by
  cases cut <;> simp only [State.genEnd, h] <;> rfl

end

/-! #### The obligation -/

/-- Settles O41: GENERATE's checks pass one by one and its run begins; a step waits, ends or chooses a token, and a token's text is released or the command
ends with it. -/
theorem generation : Obligations.Generation := by
  unfold Obligations.Generation
  intro m tag f s
  refine ⟨fun p n stops str g u v w gr x t q ht ho hfs hp hn hl hz hst hstr hg hv hgr hk hm hd => ?generate, fun r g v hf hw hg hv => ?step,
    fun r g v gr => ?choice, fun r vocab => ?token, fun r st chars cut => ?ended⟩
  case generate =>
    subst hp hn
    dsimp only
    intro hmax hc hq
    refine congrArg Host.Outcome.next (start_ok ht ?_)
    simp only [opening_ok ho, hfs, need_ok (beq_iff_eq.mpr hl), need_ok hz, hst, hstr, hg, hv, hgr, need_ok (beq_iff_eq.mpr hk), need_ok hm,
      need_ok (decide_eq_true hmax), ok_bind]
    refine withWeights_withCrew_ok hd hc ?_
    simp only [hq]
    cases gr <;> rfl
  case step =>
    exact ⟨tokenStep_held hf hw hg hv, tokenStep_lost hf hw hg hv, tokenStep_rewritten hf hw hg hv,
      fun hh hd => tokenStep_pagesLost hf hw hg hv hh hd, fun u hh hd => tokenStep_chooses hf hw hg hv hh hd⟩
  case choice =>
    intro p all ok r2 u seeded c tok w
    refine ⟨genStep_deadEnd, genStep_allNan, fun hn he => ?_, fun hn he => ?_, fun hs x => choose_greedy hs⟩
    · exact (genStep_chooses hn).trans (if_pos (beq_iff_eq.mpr he))
    · exact (genStep_chooses hn).trans (if_neg (mt beq_iff_eq.mp he))
  case token =>
    intro u d text avail
    refine ⟨fun n cut => genToken_stopString, fun h => ⟨genToken_atMax h, genToken_drain h, fun hm hd => ?_⟩⟩
    rw [genToken_releases h hm hd]
    refine ⟨fun hr => ?_, fun n hr ha => ?_, fun n hr ha => ?_⟩
    · simp only [State.release, hr]
      rfl
    · simp only [State.release, hr]
      exact if_pos ha
    · simp only [State.release, hr]
      exact if_neg (Nat.not_le.mpr ha)
  case ended =>
    intro text room
    refine ⟨fun hr ht => ?_, fun hr ht => ?_, fun n hr hn => ?_, fun n x hr hx hl => ?_, fun n x hr hx hl => ?_⟩
    · exact (genEnd_unstreamed hr).trans (if_pos ht)
    · exact (genEnd_unstreamed hr).trans (if_neg (Nat.not_le.mpr ht))
    · exact (genEnd_streamed hr).trans (if_pos (by simp [hn]))
    · exact (genEnd_streamed hr).trans ((if_neg (by simp [hx])).trans (if_pos hl))
    · exact (genEnd_streamed hr).trans ((if_neg (by simp [hx])).trans (if_neg (by simp [hl])))

end Sys2Proof.Machine

/-! ### Proofs: the commands of feature tables (O42) -/

namespace Sys2Proof.Machine

/-! #### The turn of a command, and its step -/

/-- What a command leaves behind: the state that its body gives, or its answer with the detail that the body refuses with. -/
def State.outcome (f : Flight) (s : State) : Except Detail State → State
  | .ok t => t
  | .error d => s.answerDetail f d

section
variable {m : Mbx} {tag : Word} {op : Nat} {f : Flight} {s : State} {t : Table} {k : State → Except Detail State}

theorem start_outcome {body : Flight → State → Except Detail State} (ht : s.turn op m tag f) : s.start op m tag body = s.outcome f (body f s) := by
  cases e : body f s with
  | ok t => exact start_ok ht e
  | error d => exact start_error ht e

/-- A command of the current step runs while this module's END is not sent (R329). -/
theorem inStep_current (hq : field f.plain 4 8 = t.step) (he : t.endSent = false) : s.inStep t f k = k s := if_pos ⟨hq, he⟩

/-- A command of the next step begins the close and waits for it (R329). -/
theorem inStep_next (hq : field f.plain 4 8 = t.step + 1) :
    s.inStep t f k = .ok ((s.updTable t.id fun t => { t with closing := true }).setWork f .stepWait) :=
  (if_neg fun h => by omega).trans (if_pos hq)

/-- A command of any other step, or of one whose END was sent, is refused (R329). -/
theorem inStep_other (hn : field f.plain 4 8 ≠ t.step + 1) (h : field f.plain 4 8 ≠ t.step ∨ t.endSent = true) :
    s.inStep t f k = .error (wrongStateAt 0x24) :=
  (if_neg fun ⟨hq, he⟩ => h.elim (· hq) fun h => by simp [h] at he).trans (if_neg hn)

end

/-! #### Creating a table -/

/-- A chain of checks that passes has passed its first one. -/
theorem bind_ok_inv {α β : Type} {x : Except Detail α} {g : α → Except Detail β} {b : β} (h : (x >>= g) = .ok b) : ∃ a, x = .ok a ∧ g a = .ok b := by
  cases x with
  | ok a => exact ⟨a, rfl, h⟩
  | error d => cases h

theorem need_ok_inv {b : Bool} {d : Detail} {x : Unit} (h : need b d = .ok x) : b = true := by
  cases b with
  | true => rfl
  | false => cases h

/-- A table whose part has just been reserved here (R327). -/
def State.newTable (id : Nat) (d : TableDesc) (members : List Nat) (s : State) : Table :=
  { id := id, desc := d, members := members, reserved := tableReserve d members.length (members.idxOf s.nodeId), window := s.clock / 1000000000 }

section
variable {f : Flight} {s u : State} {t : Table} {d : Detail} {a id : Nat} {b : Word} {l : List Nat}

/-- A table that is reserved fits the free bytes of its region and the 256 tables of the module (R324, R327). -/
theorem reserveTable_inv {d : TableDesc} (h : s.reserveTable id d l = .ok u) : u = { s with tables.tables := s.tables.tables.put id (s.newTable id d l) } ∧
    (s.newTable id d l).reserved ≤ s.tableFree ∧ s.tables.tables.length < 256 := by
  obtain ⟨_, _, h⟩ := bind_ok_inv h
  obtain ⟨_, count, h⟩ := bind_ok_inv h
  obtain ⟨_, _, h⟩ := bind_ok_inv h
  obtain ⟨_, fits, h⟩ := bind_ok_inv h
  obtain ⟨_, _, h⟩ := bind_ok_inv h
  exact ⟨(Except.ok.inj h).symm, of_decide_eq_true (need_ok_inv fits), of_decide_eq_true (need_ok_inv count)⟩

/-- CREATE goes to the other members of a table's composition: the state, and whether all of them can be reached (R327). -/
def State.sendCreate (f : Flight) (k : Composition) (s : State) : State × Bool :=
  let id := field f.plain 0 4
  let others := k.members.filter (· != s.nodeId)
  let r := s.newReq
  others.foldl (fun (a : State × Bool) n =>
    let y := a.1.send n 0x30 (a.1.fabClass f.tenant) f.tenant false (tableMessage 1 0 a.1.nodeId id 0 r.1 0 (tableDescBytes id (readTableDesc f.plain)))
    (y.1, a.2 && y.2 && !k.lost.contains n)) ((r.2.updTable id fun t => { t with creating := some (f.mbx, f.tag, others) }).setWork f .eventWait, true)

/-- TABLE_CREATE once its checks have passed (R324, R327). -/
def State.createChecked (f : Flight) (s : State) : Except Detail State :=
  let id := field f.plain 0 4
  let d := readTableDesc f.plain
  if d.composition = 0 then (s.reserveTable id d []).map fun s => s.answer f .done []
  else match s.comp.compositions.find d.composition with
    | none => .error (bad 0x24)
    | some k => do
      need k.active (wrongStateAt 0x24)
      let s ← s.reserveTable id d k.members
      match (s.sendCreate f k).1.tables.tables.find id with
      | none => .ok (s.sendCreate f k).1
      | some t =>
        if !(s.sendCreate f k).2 then .ok ((s.sendCreate f k).1.endCreate t (some { status := .compositionLost, offset := noOffset }))
        else if (k.members.filter (· != s.nodeId)).isEmpty then .ok ((s.sendCreate f k).1.endCreate t none)
        else .ok (s.sendCreate f k).1

/-- A creation that every member has joined answers DONE (R327). -/
theorem endCreate_done (hc : t.creating = some (a, b, l)) (hf : (s.updTable t.id fun t => { t with creating := none }).flight a b = some f) :
    s.endCreate t none = (s.updTable t.id fun t => { t with creating := none }).answer f .done [] := by
  simp only [State.endCreate, hc, hf]

/-- A creation that fails leaves nothing, and answers why (R327). -/
theorem endCreate_fails (hc : t.creating = some (a, b, l)) (hf : (s.freeCreated t).flight a b = some f) : s.endCreate t (some d) =
    if d.status == .compositionLost then (s.freeCreated t).answer f .compositionLost [] else (s.freeCreated t).answerDetail f d := by
  simp only [State.endCreate, hc, hf]

end

theorem ready_iff {t : Table} {self step part row : Nat} : t.ready self step part row = true ↔
    t.step = step ∧ (part = 2 ∨ (t.home self (blockOf row) = self ∧ blockOf row ∉ t.incoming)) := by
  simp [Table.ready]

/-! #### Lookups and updates -/

/-- A lookup of the current step that has its crew: it asks the other homes for their rows, and takes those that are ready here (R328, R330). -/
def State.lookUp (t : Table) (f : Flight) (s : State) : State :=
  let keys := lookupKeys f.plain 32 (field f.plain 0xC 4)
  let rows := keys.zipIdx.flatMap fun (k, i) => (keyParts t.desc).map fun p => (i, p, keyRow t.desc p k)
  let r := s.newReq
  let x := (r.2.setWork f (.lookup { table := t.id, step := t.step, req := r.1, left := rows })).askRows t f.tenant r.1 t.step keys rows
  if x.2 then x.1.pumpLookup f else x.1.breakTable t.id

/-- An update of the current step that has its crew: it is buffered here and sent to the other members that it reaches (R328, R331). -/
def State.bufferUpdate (t : Table) (f : Flight) (s : State) : State :=
  let seq := field f.plain 0xC 4
  let fmt := field f.plain 0x14 1
  let es := records (updateEntryBytes t.desc fmt) (field f.plain 0x10 4) (f.plain.drop 32)
  let us := es.zipIdx.map fun (e, i) => (readUpdate t.desc fmt t.step s.nodeId seq i e, e)
  let mine := (us.map (·.1)).filter (t.reaches s.nodeId s.nodeId)
  let r := (s.updTable t.id fun t => { t with buffer := t.buffer ++ mine, seqs := seq :: t.seqs }).newReq
  let x := r.2.sendUpdates t f.tenant seq fmt r.1 us
  if x.2 then (x.1.chargeTiles f.tenant).answer f .done (leBytes 4 (field f.plain 0x10 4) ++ zeros 4) else x.1.breakTable t.id

/-- An update of the current step takes a SEQ that is not used yet, and room in the buffer (R331). -/
def State.updateInStep (t : Table) (f : Flight) (s : State) : Except Detail State := do
  need (!t.seqs.contains (field f.plain 0xC 4)) (bad 0x2C)
  need (decide ((t.buffer.filter (·.step == t.step)).length < 4194304)) (noResources 4194304)
  s.withCrew ((s.crewOfKind 4).getD 0) 0 f fun s => .ok (s.bufferUpdate t f)

section
variable {s w : State} {t : Table} {f : Flight}

/-- A SEQ is used once in a step (R331). -/
theorem updateInStep_repeated (h : field f.plain 0xC 4 ∈ t.seqs) : s.updateInStep t f = .error (bad 0x2C) := by
  rw [State.updateInStep, need_error (by simpa using h), error_bind]

theorem updateInStep_buffers (hs : field f.plain 0xC 4 ∉ t.seqs) (hn : (t.buffer.filter (·.step == t.step)).length < 4194304)
    (hc : s.crewAtOnce ((s.crewOfKind 4).getD 0) 0 f w) : s.updateInStep t f = .ok (w.bufferUpdate t f) := by
  rw [State.updateInStep, need_ok (by simpa using hs), need_ok (decide_eq_true hn), ok_bind, ok_bind, withCrew_ok hc]

end

/-! #### The loads of the shards -/

/-- The members that a table's loads are judged over (R334). -/
def Table.shards (t : Table) (self : Nat) : List Nat := if t.members.isEmpty then [self] else t.members

/-- The loads that TABLE_REBALANCE answers with: those of the last closed window (R335). -/
def Table.closedLoads (t : Table) (self : Nat) : List (Nat × Nat × Nat) := if t.members.isEmpty && t.closed.isSome then t.ownLoads self else t.lastLoads

/-- The skew of a table's shards, which is free where they have had no lookup (R334, R335). -/
def State.shardSkew (t : Table) (s : State) : Word × State :=
  let k := skewOf (t.shards s.nodeId) (t.closedLoads s.nodeId)
  if k.2 = 0 then (BitVec.ofNat 32 s.draw.1, s.draw.2) else (fpDiv32 (.fin false k.1 0) (.fin false k.2 0), s)

/-- The shard loads of a table, as TABLE_REBALANCE answers them (R335). -/
def Table.shardEntries (t : Table) (self : Nat) : Bytes :=
  (t.shards self).flatMap fun n => leBytes 2 n ++ zeros 2 ++ leBytes 4 (min 0xFFFFFFFF (memberLoad (t.closedLoads self) n))

/-- TABLE_REBALANCE answers with the map version, the skew and the shard loads (R335). -/
def State.answerLoads (t : Table) (f : Flight) (s : State) : State :=
  (s.shardSkew t).2.answer f .done (leBytes 4 t.mapVersion ++ leBytes 4 (s.shardSkew t).1.toNat ++ leBytes 4 t.moved ++
    leBytes 4 (t.shards s.nodeId).length ++ t.shardEntries s.nodeId)

theorem answerLoads_of {s u : State} {t : Table} {f : Flight} {skew : Word} (h : s.shardSkew t = (skew, u)) : s.answerLoads t f =
    u.answer f .done (leBytes 4 t.mapVersion ++ leBytes 4 skew.toNat ++
      (leBytes 4 t.moved ++ leBytes 4 (t.shards s.nodeId).length ++ t.shardEntries s.nodeId)) := by
  simp only [State.answerLoads, h, List.append_assoc]

/-! #### Dropping a table -/

section
variable {s : State} {t : Table}

/-- Every other member that is not lost is told of a drop: the state, and those that could be told (R336). -/
def State.tellDrop (t : Table) (s : State) : State × List Nat :=
  let lost := (s.comp.compositions.find t.desc.composition).elim [] (·.lost)
  let r := s.newReq
  ((t.others s.nodeId).filter fun n => !lost.contains n).foldl (fun (a : State × List Nat) n =>
    let y := a.1.send n 0x30 (a.1.fabClass (ownerOf t.id)) (ownerOf t.id) false (tableMessage 7 0 a.1.nodeId t.id 0 r.1 0 [])
    (y.1, if y.2 then a.2 ++ [n] else a.2)) (r.2, [])

/-- The drop of a table goes on: the members are told, and waited for where there are any (R336). -/
def State.beginDrop (t : Table) (s : State) : State :=
  if (s.tellDrop t).2.isEmpty then (s.tellDrop t).1.endDrop t
  else (s.tellDrop t).1.updTable t.id fun y => { y with
    rows := [], rrows := [], buffer := [], blocks := [], dropLeft := (s.tellDrop t).2, dropSent := some s.clock }

variable (ht : s.table t.id = some t)
include ht

theorem settleDrop_none (hr : t.remoteDrop = none) (hd : t.dropping = none) : s.settleDrop t.id = s := by
  simp only [State.settleDrop, ht, hr, hd, Option.isNone_none, if_true]

/-- A drop that another member asked for is acknowledged once no command uses the table (R336). -/
theorem settleDrop_remote {n q : Nat} (hr : t.remoteDrop = some (n, q)) : s.settleDrop t.id =
    if s.host.flights.any (usesTable t.id) then s else (s.freeTable t.id).tablePost n t.id (tableMessage 8 0 n t.id 0 q 0 []) := by
  simp only [State.settleDrop, ht, hr]

section
variable (hr : t.remoteDrop = none) (hd : t.dropping ≠ none)
include hr hd

/-- A drop that the members were told of ends once all have answered (R336). -/
theorem settleDrop_told (hs : t.dropSent ≠ none) : s.settleDrop t.id = if t.dropLeft.isEmpty then s.endDrop t else s := by
  obtain ⟨d, hd⟩ := Option.ne_none_iff_exists'.mp hd
  obtain ⟨c, hs⟩ := Option.ne_none_iff_exists'.mp hs
  simp only [State.settleDrop, ht, hr, hd, hs, Option.isNone_some, Bool.false_eq_true, if_false]

/-- A drop waits for the commands before it and for a close in progress (R336). -/
theorem settleDrop_untold (hs : t.dropSent = none) :
    s.settleDrop t.id = if (s.beforeDrop t).any (usesTable t.id) || t.closing then s else s.beginDrop t := by
  obtain ⟨d, hd⟩ := Option.ne_none_iff_exists'.mp hd
  simp only [State.settleDrop, ht, hr, hd, hs, Option.isNone_some, Bool.false_eq_true, if_false]
  rfl

end
end

/-- TABLE_DROP is its row of the table (R336). -/
theorem exec_tableDrop (m : Mbx) (tag : Word) (s : State) : exec (.tableDrop m tag) s = execTableDrop m tag s := rfl

/-- TABLE_DROP_TIMEOUT is its row of the table (R336). -/
theorem exec_tableDropTimeout (id : Word) (s : State) : exec (.tableDropTimeout id) s = execTableDropTimeout id s := rfl

section
variable {m : Mbx} {tag : Word} {f : Flight} {s : State} {t : Table}

/-- A TABLE_DROP whose checks pass refuses later commands, and goes on (R336). -/
theorem tableDrop_begins (ht : s.turn 0x5002 m tag f) (hu : s.unfencedTable f = .ok ()) (ho : f.opens 8 8) (hz : zeroField f.plain 4 4 = true)
    (hn : s.namedTable f = .ok t) : exec (.tableDrop m tag) s =
      .next (((s.updTable t.id fun t => { t with dropping := some (f.mbx, f.tag) }).setWork f .eventWait).settleDrop t.id) := by
  obtain ⟨lo, hi, hcsn⟩ := ho
  have hl : f.plain.length = 8 := by omega
  obtain ⟨hf, -, hw, -, -⟩ := id ht
  have notYet : (f.work == Work.eventWait) = false := by rw [hw]; rfl
  simp only [exec_tableDrop, execTableDrop, hf, notYet, Bool.and_false, Bool.false_eq_true, if_false]
  refine congrArg Host.Outcome.next (start_ok ht ?_)
  simp only [hu, need_ok (beq_iff_eq.mpr hl), csnZero, need_ok (beq_iff_eq.mpr hcsn), hz, fields_cons, fields_nil, hn, ok_bind]

/-- A TABLE_DROP that waits goes on (R336). -/
theorem tableDrop_goesOn (hf : s.flight m.key tag = some f) (hop : f.opcode.toNat = 0x5002) (hw : f.work = .eventWait) :
    exec (.tableDrop m tag) s = .next (s.settleDrop (field f.plain 0 4)) := by
  simp only [exec_tableDrop, execTableDrop, hf]
  exact congrArg Host.Outcome.next (if_pos (by simp [hop, hw]))

theorem endDrop_answers {a : Nat} {b : Word} (hd : t.dropping = some (a, b)) (hf : (s.freeTable t.id).flight a b = some f) :
    s.endDrop t = (s.freeTable t.id).answer f .done [] := by
  simp only [State.endDrop, hd, Option.bind_some, hf]

/-- Members that have not answered for 100 ms are not waited for (R336). -/
theorem tableDropTimeout_told {x : Nat} (ht : s.table t.id = some t) (hs : t.dropSent = some x) (hi : t.id < 2 ^ 32) :
    exec (.tableDropTimeout (BitVec.ofNat 32 t.id)) s = .next (if x + 100000000 ≤ s.clock then s.endDrop t else s) := by
  have named : (BitVec.ofNat 32 t.id).toNat = t.id := (BitVec.toNat_ofNat ..).trans (Nat.mod_eq_of_lt hi)
  simp only [exec_tableDropTimeout, execTableDropTimeout, named, ht, hs]

end

/-! #### The prefetch buffer -/

/-- TABLE_PREFETCH is its row of the table (R333). -/
theorem exec_tablePrefetch (m : Mbx) (id : Word) (s : State) : exec (.tablePrefetch m id) s = execTablePrefetch m id s := rfl

/-- TABLE_PREFETCH_EXPIRE is its row of the table (R333). -/
theorem exec_tablePrefetchExpire (m : Mbx) (id : Word) (s : State) : exec (.tablePrefetchExpire m id) s = execTablePrefetchExpire m id s := rfl

/-- Of the tables' state, dropping prefetched rows changes the prefetch buffer alone. -/
theorem dropPrefetched_tables (p unused : Prefetched → Bool) (s : State) :
    (s.dropPrefetched p unused).tables = { s.tables with prefetch := s.tables.prefetch.filter fun x => !p x } := by
  unfold State.dropPrefetched
  generalize (s.tables.prefetch.filter p).filter unused = gone
  generalize hu : { s with tables.prefetch := s.tables.prefetch.filter fun x => !p x } = u
  have charged : (gone.foldl (fun s x => s.charge (ownerOf x.table) 0xB4 1) u).tables = u.tables := by
    clear hu
    induction gone generalizing u with
    | nil => rfl
    | cons x l ih => exact (ih _).trans rfl
  rw [charged, ← hu]

/-- The NEXT rows of a lookup are read: those ready here into the buffer, those of other homes by asking for them (R333). -/
def State.prefetchRows (x : NextKeys) (t : Table) (s : State) : State :=
  let rows := x.keys.zipIdx.flatMap fun (k, i) => (keyParts t.desc).map fun p => (i, p, keyRow t.desc p k)
  let here := rows.filter fun y => t.ready s.nodeId t.step y.2.1 y.2.2
  let s := ({ s with tables.prefetch := s.tables.prefetch ++ here.map fun (y : Nat × Nat × Nat) =>
    ({ mbx := x.mbx, table := t.id, part := y.2.1, row := y.2.2, lastStep := (t.row y.2.1 y.2.2).lastStep, since := s.clock } : Prefetched) } : State).chargeTiles
      (ownerOf t.id)
  let there := rows.filter fun y => y.2.1 != 2 && t.home s.nodeId (blockOf y.2.2) != s.nodeId
  let r := s.newReq
  if there.isEmpty then s
  else (({ r.2 with tables.ahead := r.2.tables.ahead ++ [({ req := r.1, mbx := x.mbx, table := t.id, rows := there } : AheadRead)] } : State).askRows
    t (ownerOf t.id) r.1 t.step x.keys there).1

section
variable {m : Mbx} {id : Word} {s : State} {t : Table} {x : NextKeys}

theorem tablePrefetch_row (hx : s.tables.nexts.find? (fun x => x.mbx == m.key && x.table == id.toNat) = some x) (ht : s.table id.toNat = some t) :
    exec (.tablePrefetch m id) s = .next (if t.broken || !s.serving then { s with tables.nexts := s.tables.nexts.erase x }
      else ({ s with tables.nexts := s.tables.nexts.erase x } : State).prefetchRows x t) := by
  simp only [exec_tablePrefetch, execTablePrefetch, hx, ht]
  rfl

end

/-! #### The obligation -/

/-- Settles O42: the checks of each command pass one by one, and what it does then goes by its step, by the members it can reach and by what still waits. -/
theorem tables : Obligations.Tables := by
  unfold Obligations.Tables
  intro m tag f s t
  refine ⟨fun ht ho hu hf hw hn => ?create, fun a b l g hc => ⟨endCreate_done hc, fun hf => endCreate_fails hc hf, fun n hf => endCreate_fails hc hf⟩,
    fun id d l u h => ?reserved, fun d => rfl, fun self step part row => ready_iff,
    fun n us str v w ht hu ho hn h1 h2 hn1 hn2 h10 h14 h15 hus hus' h1C hl ht' hR hstr hk hb hv => ?lookup,
    fun n fmt w ht hu ho hn hfmt h1 h2 hn1 hn2 h14 h15 ht' hl he hb => ?update, fun u v ht hu ho h4 h8 ht' hb hu' hv => ?rebalance, ?drop,
    fun ht x hs hi => ?timeout, fun id => ?expire, fun id x hx ht => ?prefetch⟩
  case create =>
    obtain ⟨lo, hi, hcsn⟩ := ho
    have hl : f.plain.length = 64 := Nat.le_antisymm hi lo
    have checked : exec (.tableCreate m tag) s = .next (s.outcome f (s.createChecked f)) := by
      refine congrArg _ ((start_outcome ht).trans (congrArg _ ?_))
      simp only [hu, need_ok (beq_iff_eq.mpr hl), csnZero, need_ok (beq_iff_eq.mpr hcsn), hf, need_ok (beq_iff_eq.mpr hw), hn,
        Option.isNone_none, need_ok, ok_bind]
      rfl
    rw [checked]
    refine ⟨fun u hd hr => ?_, fun k u hd hk ha hr => ?_⟩
    · simp only [State.createChecked, if_pos hd, hr]
      rfl
    · dsimp only
      intro (hx : (u.sendCreate f k).1.tables.tables.find (field f.plain 0 4) = some t)
      have body : s.createChecked f =
          if !(u.sendCreate f k).2 then .ok ((u.sendCreate f k).1.endCreate t (some { status := .compositionLost, offset := noOffset }))
          else if (k.members.filter (· != u.nodeId)).isEmpty then .ok ((u.sendCreate f k).1.endCreate t none) else .ok (u.sendCreate f k).1 := by
        simp only [State.createChecked, if_neg hd, hk, need_ok ha, hr, ok_bind, hx]
      rw [body]
      refine ⟨fun (h : (u.sendCreate f k).2 = false) => ?_, fun (h : (u.sendCreate f k).2 = true) ho => ?_,
        fun (h : (u.sendCreate f k).2 = true) ho => ?_⟩
      · rw [h]; rfl
      · rw [h, if_pos (List.isEmpty_iff.mpr ho)]; rfl
      · rw [h, if_neg (mt List.isEmpty_iff.mp ho)]; rfl
  case reserved =>
    obtain ⟨rfl, fits, count⟩ := reserveTable_inv h
    exact ⟨_, Tab.find_put .., rfl, rfl, rfl, rfl, rfl, rfl, rfl, fits, count⟩
  case lookup =>
    subst hn hus hv
    have begun : exec (.tableLookup m tag) s = .next (s.outcome f ((s.updFlight f.mbx f.tag fun g => { g with
        deadline := if field f.plain 0x18 4 = 0 then none else some (f.arrival + field f.plain 0x18 4 * 1000) }).inStep t f fun s =>
        s.withCrew ((s.crewOfKind 4).getD 0) 0 f fun s => .ok (s.lookUp t f))) := by
      refine congrArg _ ((start_outcome ht).trans (congrArg _ ?_))
      have timed : (field f.plain 0x18 4 == 0 || decide (100 ≤ field f.plain 0x18 4) && decide (field f.plain 0x18 4 ≤ 10000000)) = true := by
        simpa using hus'
      have whole : (field f.plain 0x14 1 != 2 || t.desc.store != 2) = true := by simpa [← imp_iff_not_or] using hR
      simp only [hu, opening_ok ho, h1, h2, hn1, hn2, h10, h14, h15, timed, h1C, decide_true, Bool.and_self, fields_cons, fields_nil,
        need_ok (beq_iff_eq.mpr hl), ht', need_ok whole, hstr, hk, usableTable, hb, Bool.not_false, need_ok, ok_bind]
      rfl
    rw [begun]
    refine ⟨fun hq => by rw [inStep_next hq]; rfl, fun hq hq' => by rw [inStep_other hq hq']; rfl, fun hq he hc => ?_⟩
    rw [inStep_current hq he, withCrew_ok hc]
    exact ⟨fun h => congrArg _ (if_pos h), fun h => congrArg _ (if_neg (ne_true_of_eq_false h))⟩
  case update =>
    subst hn hfmt
    have begun : exec (.tableUpdate m tag) s = .next (s.outcome f (s.inStep t f (State.updateInStep t f))) := by
      refine congrArg _ ((start_outcome ht).trans (congrArg _ ?_))
      simp only [hu, opening_ok ho, h1, h2, hn1, hn2, h14, h15, decide_true, Bool.and_self, fields_cons, fields_nil, ht', need_ok (beq_iff_eq.mpr hl), he,
        usableTable, hb, Bool.not_false, need_ok, ok_bind]
      rfl
    rw [begun]
    refine ⟨fun hq => by rw [inStep_next hq]; rfl, fun hq hq' => by rw [inStep_other hq hq']; rfl,
      fun hq he hs => by rw [inStep_current hq he, updateInStep_repeated hs]; rfl, fun hq he hs hroom hc => ?_⟩
    rw [inStep_current hq he, updateInStep_buffers hs hroom hc]
    exact ⟨fun h => congrArg _ (if_pos h), fun h => congrArg _ (if_neg (ne_true_of_eq_false h))⟩
  case rebalance =>
    dsimp only
    have answered : exec (.tableRebalance m tag) s = .next (u.answerLoads v f) := by
      refine congrArg _ (start_ok ht ?_)
      simp only [hu, opening_ok ho, h4, h8, decide_true, fields_cons, fields_nil, ht', usableTable, hb, Bool.not_false, need_ok, ok_bind, ← hu', hv,
        Option.getD_some]
      rfl
    rw [answered]
    exact ⟨fun h => congrArg _ (answerLoads_of (if_pos h)), fun h => congrArg _ (answerLoads_of (if_neg h))⟩
  case drop =>
    refine ⟨tableDrop_begins, tableDrop_goesOn, fun ht => ⟨settleDrop_none ht, fun n q hr => ?_, fun hr hd hs => ?_, fun hr hd hs => ?_⟩,
      fun a b g => endDrop_answers⟩
    · rw [settleDrop_remote ht hr]
      exact ⟨fun h => if_pos h, fun h => if_neg (ne_true_of_eq_false h)⟩
    · rw [settleDrop_told ht hr hd hs]
      exact ⟨fun h => if_pos (List.isEmpty_iff.mpr h), fun h => if_neg (mt List.isEmpty_iff.mp h)⟩
    · rw [settleDrop_untold ht hr hd hs]
      refine ⟨fun h => if_pos h, fun h => ?_⟩
      rw [if_neg (ne_true_of_eq_false h)]
      exact ⟨fun hx => if_pos (List.isEmpty_iff.mpr hx), fun hx => if_neg (mt List.isEmpty_iff.mp hx)⟩
  case timeout =>
    rw [tableDropTimeout_told ht hs hi]
    exact ⟨fun h => congrArg _ (if_pos h), fun h => congrArg _ (if_neg (Nat.not_le.mpr h))⟩
  case expire =>
    refine ⟨_, exec_tablePrefetchExpire m id s, fun x => ?_, ?_⟩
    · rw [dropPrefetched_tables]
      simp [imp_iff_not_or, or_assoc]
    · rw [dropPrefetched_tables]
  case prefetch =>
    rw [tablePrefetch_row hx ht]
    refine ⟨fun h => congrArg _ (if_pos (by simpa using h)), fun hb hs hr => congrArg _ ((if_neg (by simp [hb, hs])).trans ?_),
      fun hb hs hr => congrArg _ ((if_neg (by simp [hb, hs])).trans ?_), rfl⟩
    · exact if_pos (List.isEmpty_iff.mpr hr)
    · exact if_neg (mt List.isEmpty_iff.mp hr)

end Sys2Proof.Machine

/-! ### Proofs: the steps and the messages of feature tables (O43) -/

namespace Sys2Proof.Machine

/-! #### The close of a step -/

/-- TABLE_STEP_CLOSE is its row of the table (R330). -/
theorem exec_tableStepClose (id : Word) (s : State) : exec (.tableStepClose id) s = execTableStepClose id s := rfl

/-- TABLE_BLOCK_MIGRATE is its row of the table (R334). -/
theorem exec_tableBlockMigrate (id : Word) (s : State) : exec (.tableBlockMigrate id) s = execTableBlockMigrate id s := rfl

/-- This module's END of the closing step is due: the step's commands are done (R330). -/
def State.endDue (t : Table) (s : State) : Bool := t.closing && !t.endSent && !t.broken && !s.stepBusy t

/-- TABLE_STEP_CLOSE leaves a due END: a coordinator that judges the skew lacks an END, or moves blocks (R334). -/
def Table.endHeld (t : Table) (self : Nat) : Bool := t.judges self && (!t.othersEnded self || !(t.verdict self).1.isEmpty)

/-- A due END goes out with moves: a coordinator that holds every other END moves blocks (R334). -/
def Table.endMoves (t : Table) (self : Nat) : Bool := t.judges self && t.othersEnded self && !(t.verdict self).1.isEmpty

section
variable {t : Table} {self : Nat}

theorem endHeld_endMoves_of_not_judges (hj : t.judges self = false) : t.endHeld self = false ∧ t.endMoves self = false := by
  simp [Table.endHeld, Table.endMoves, hj]

theorem endHeld_endMoves_of_lacking (hj : t.judges self = true) (ho : t.othersEnded self = false) : t.endHeld self = true ∧ t.endMoves self = false := by
  simp [Table.endHeld, Table.endMoves, hj, ho]

/-- A coordinator that holds every other END leaves its own to TABLE_BLOCK_MIGRATE where it moves blocks (R334). -/
theorem endHeld_endMoves_of_judged (hj : t.judges self = true) (ho : t.othersEnded self = true) :
    t.endHeld self = !(t.verdict self).1.isEmpty ∧ t.endMoves self = !(t.verdict self).1.isEmpty := by
  simp [Table.endHeld, Table.endMoves, hj, ho]

end

section
variable {id : Word} {s u : State} {t : Table} (hs : s.serving = true) (hu : u = s.updTable id.toNat fun t => t.roll s.clock) (ht : u.table id.toNat = some t)
include hs hu ht

theorem tableStepClose_row : exec (.tableStepClose id) s =
    .next (((if u.endDue t && !t.endHeld u.nodeId then u.sendEnd t else u).endClose id.toNat).settleDrop id.toNat) := by
  subst hu
  simp only [exec_tableStepClose, execTableStepClose, hs, Bool.not_true, Bool.false_eq_true, if_false, ht]
  rfl

theorem tableBlockMigrate_row : exec (.tableBlockMigrate id) s =
    .next (if u.endDue t && t.endMoves u.nodeId then ((u.sendEnd t).endClose id.toNat).settleDrop id.toNat else u) := by
  subst hu
  simp only [exec_tableBlockMigrate, execTableBlockMigrate, hs, Bool.not_true, Bool.false_eq_true, if_false, ht, State.endDue, Table.endMoves, Bool.and_assoc]

/-- Without an END that is due, neither row sends one. -/
theorem closes_notDue (h : u.endDue t = false) : exec (.tableStepClose id) s = .next ((u.endClose id.toNat).settleDrop id.toNat) ∧
    exec (.tableBlockMigrate id) s = .next u := by
  rw [tableStepClose_row hs hu ht, tableBlockMigrate_row hs hu ht, h]
  exact ⟨rfl, rfl⟩

section
variable (hd : u.endDue t = true)
include hd

/-- An END without moves goes out in TABLE_STEP_CLOSE (R330). -/
theorem closes_plain (h : t.endHeld u.nodeId = false ∧ t.endMoves u.nodeId = false) :
    exec (.tableStepClose id) s = .next (((u.sendEnd t).endClose id.toNat).settleDrop id.toNat) ∧ exec (.tableBlockMigrate id) s = .next u := by
  obtain ⟨held, moves⟩ := h
  rw [tableStepClose_row hs hu ht, tableBlockMigrate_row hs hu ht, hd, held, moves]
  exact ⟨rfl, rfl⟩

/-- A coordinator that lacks an END sends none itself (R334). -/
theorem closes_waiting (h : t.endHeld u.nodeId = true ∧ t.endMoves u.nodeId = false) :
    exec (.tableStepClose id) s = .next ((u.endClose id.toNat).settleDrop id.toNat) ∧ exec (.tableBlockMigrate id) s = .next u := by
  obtain ⟨held, moves⟩ := h
  rw [tableStepClose_row hs hu ht, tableBlockMigrate_row hs hu ht, hd, held, moves]
  exact ⟨rfl, rfl⟩

/-- An END with moves goes out in TABLE_BLOCK_MIGRATE (R334). -/
theorem closes_moving (h : t.endHeld u.nodeId = true ∧ t.endMoves u.nodeId = true) :
    exec (.tableStepClose id) s = .next ((u.endClose id.toNat).settleDrop id.toNat) ∧
    exec (.tableBlockMigrate id) s = .next (((u.sendEnd t).endClose id.toNat).settleDrop id.toNat) := by
  obtain ⟨held, moves⟩ := h
  rw [tableStepClose_row hs hu ht, tableBlockMigrate_row hs hu ht, hd, held, moves]
  exact ⟨rfl, rfl⟩

end
end

/-- A step goes on while an END is missing, and on a broken table for good (R330). -/
theorem endClose_open {id : Nat} {s : State} {t : Table} (ht : s.table id = some t)
    (h : t.endSent = false ∨ t.othersEnded s.nodeId = false ∨ t.broken = true) : s.endClose id = s := by
  simp only [State.endClose, ht]
  refine if_pos ?_
  rcases h with h | h | h <;> simp [h]

/-! #### The updates of a step -/

/-- The updates of the current step leave the buffer, and no others (R332). -/
theorem applyStep_buffer (t : Table) : t.applyStep.1.buffer = t.buffer.filter (·.step != t.step) := by
  refine List.foldlRecOn (motive := fun (a : Table × Nat) => a.1.buffer = t.buffer.filter (·.step != t.step)) _ _ rfl fun a ha k _ => ?_
  dsimp only
  split <;> exact ha

/-- Two updates of a row are applied in this order: by issuer, SEQ and entry index (R332). -/
def updateBefore (a b : RowUpdate) : Bool :=
  decide (a.issuer < b.issuer) || (a.issuer == b.issuer && (decide (a.seq < b.seq) || (a.seq == b.seq && decide (a.index ≤ b.index))))

/-- The values that a row has after the SETs of a step: those of the last one (R332). -/
def lastDelta (us : List RowUpdate) : List Word := ((sortBy us updateBefore).map (·.delta)).getLastD []

section
variable {d : TableDesc} {step : Nat} {r : Row} {us : List RowUpdate} {u v : RowUpdate}

theorem applyRow_set (h : d.update = 0) : applyRow d step r us =
    ({ lastStep := step, scale := (storeValues d false (lastDelta us)).1, elems := (storeValues d false (lastDelta us)).2.1 }, 0) :=
  if_pos (beq_iff_eq.mpr h)

/-- An ADD leaves a poisoned row (R333). -/
theorem applyRow_poisoned (h : d.update = 1) (hp : r.poisoned = true) : applyRow d step r us = (r, 0) :=
  (if_neg (by simp [h])).trans (if_pos hp)

theorem updateBefore_of_issuer_lt (h : u.issuer < v.issuer) : updateBefore u v = true ∧ updateBefore v u = false :=
  ⟨by simp [updateBefore, h], by simp [updateBefore, Nat.lt_asymm h, Nat.ne_of_gt h]⟩

/-- Of two updates the later one gives the row its values, in whichever order they arrived (R332). -/
theorem lastDelta_pair (h : updateBefore u v = true) (hn : updateBefore v u = false) : lastDelta [v, u] = v.delta ∧ lastDelta [u, v] = v.delta := by
  simp [lastDelta, sortBy, insertBy, h, hn]

end

/-! #### TABLE_OP -/

/-- What is done with a feature-table message, by its kind (Table 16-24). -/
def State.takeTableOp (x : Inbound) (s : State) : State :=
  match field x.body 0 1 with
  | 1 => s.tableCreateHere x
  | 2 => s.withTable x (State.tableCreateAck x)
  | 3 => s.withTable x (State.tableUpdateHere x)
  | 4 => s.withTable x (State.tableLookupHere x)
  | 5 => s.withTable x (State.tableRowsHere x)
  | 6 => s.withTable x (State.tableEndHere x)
  | 7 => s.withTable x fun t s => (s.updTable t.id fun t => { t with remoteDrop := some (x.src, field x.body 0x10 8) }).settleDrop t.id
  | _ => s.withTable x fun t s => (s.updTable t.id fun t => { t with dropLeft := t.dropLeft.filter (· != x.src) }).settleDrop t.id

theorem exec_tableOp (s : State) : exec .tableOp s = .next (s.onMessage 0x30 [] (fun x _ => tableHeadOk x.body) State.takeTableOp) := rfl

section
variable {s : State} {x : Inbound} {t : Table} {k : Table → State → State}

theorem withTable_member (ht : s.tables.tables.find (field x.body 4 4) = some t) (hm : x.src ∈ t.members) : s.withTable x k = k t s := by
  simp only [State.withTable, ht]
  exact if_pos (List.contains_iff_mem.mpr hm)

/-- A message about a table whose members its sender is not among is a partner violation (R406). -/
theorem withTable_stranger (h : ∀ y, s.tables.tables.find (field x.body 4 4) = some y → x.src ∉ y.members) :
    s.withTable x k = s.partnerViolation x.port x.src := by
  unfold State.withTable
  split
  · next t ht => exact if_neg (mt List.contains_iff_mem.mp (h t ht))
  · rfl

/-- Every message but CREATE is about a table that is held here (Table 16-24). -/
theorem takeTableOp_stranger (hk : 2 ≤ field x.body 0 1) (h : ∀ y, s.tables.tables.find (field x.body 4 4) = some y → x.src ∉ y.members) :
    s.takeTableOp x = s.partnerViolation x.port x.src := by
  unfold State.takeTableOp
  split
  case h_1 k1 => omega
  all_goals exact withTable_stranger h

end

/-! #### CREATE and its acknowledgement -/

/-- The acknowledgement of a CREATE, with a status (R327). -/
def State.ackCreate (x : Inbound) (st : Status) (s : State) : State :=
  s.tablePost x.src (field x.body 4 4) (tableMessage 2 (statusCode st) (field x.body 2 2) (field x.body 4 4) 0 (field x.body 0x10 8) 0 [])

section
variable {s : State} {x : Inbound} {k : Composition} {t : Table}

/-- A CREATE of a member whose descriptor is valid is answered by what this module can reserve (R327). -/
theorem tableCreateHere_valid (hk : s.comp.compositions.find (readTableDesc (x.body.drop 32)).composition = some k)
    (hf : fields (tableFields (x.body.drop 32)) = .ok ()) (hi : field (x.body.drop 32) 0 4 = field x.body 4 4) (ha : k.active = true)
    (hm : x.src ∈ k.members) : s.tableCreateHere x =
      if (s.tables.tables.find (field x.body 4 4)).isSome || s.power.season != .summer then s.ackCreate x .wrongState
      else match s.reserveTable (field x.body 4 4) (readTableDesc (x.body.drop 32)) k.members with
        | .ok t => t.ackCreate x .done
        | .error e => s.ackCreate x e.status := by
  simp only [State.tableCreateHere, hk]
  refine (wellFormed_holds _ ?_).trans rfl
  simp [hf, hi, ha, hm]

variable {a : Nat} {b : Word} {l : List Nat} (hc : t.creating = some (a, b, l))
include hc

/-- A member that could not reserve its part ends the creation (R327). -/
theorem tableCreateAck_refused (h : field x.body 1 1 ≠ 0) :
    s.tableCreateAck x t = s.draw.2.endCreate t (some (noResources (s.draw.1 % 2 ^ 32))) := by
  simp only [State.tableCreateAck, hc]
  exact if_pos h

/-- A member that has reserved its part is not waited for any more (R327). -/
theorem tableCreateAck_joined (h : field x.body 1 1 = 0) {v : State}
    (hv : v = s.updTable t.id fun t => { t with creating := some (a, b, l.filter (· != x.src)) }) :
    s.tableCreateAck x t = if (l.filter (· != x.src)).isEmpty then v.endCreate t none else v := by
  subst hv
  simp only [State.tableCreateAck, hc]
  exact if_neg (not_not_intro h)

end

/-! #### UPDATE, LOOKUP and END -/

/-- An UPDATE obeys Table 16-24: its entries are valid for the table. -/
def updateMessageOk (d : TableDesc) (b : Bytes) : Bool :=
  let fmt := field b 0x24 1
  40 ≤ b.length && decide (fmt ≤ 1) && zeroField b 0x25 3 && b.length == 40 + field b 0x18 4 * (8 + updateEntryBytes d fmt) &&
    (records (8 + updateEntryBytes d fmt) (field b 0x18 4) (b.drop 40)).all fun e => zeroField e 4 4 && (updateEntryFault d fmt 0 (e.drop 8) matches .ok _)

theorem matches_ok_iff {e : Except Detail Unit} : (e matches .ok _) = true ↔ e = .ok () := by
  cases e <;> simp

theorem updateMessageOk_iff {d : TableDesc} {b : Bytes} : updateMessageOk d b = true ↔ 40 ≤ b.length ∧ field b 0x24 1 ≤ 1 ∧ zeroField b 0x25 3 = true ∧
    b.length = 40 + field b 0x18 4 * (8 + updateEntryBytes d (field b 0x24 1)) ∧
    ∀ e ∈ records (8 + updateEntryBytes d (field b 0x24 1)) (field b 0x18 4) (b.drop 40),
      zeroField e 4 4 = true ∧ updateEntryFault d (field b 0x24 1) 0 (e.drop 8) = .ok () := by
  simp only [updateMessageOk, Bool.and_eq_true, decide_eq_true_eq, beq_iff_eq, List.all_eq_true, matches_ok_iff, and_assoc]

/-- A LOOKUP obeys Table 16-24: its entries name keys of the table. -/
def lookupMessageOk (d : TableDesc) (b : Bytes) : Bool :=
  b.length == 32 + 16 * field b 0x18 4 &&
    (records 16 (field b 0x18 4) (b.drop 32)).all fun e => zeroField e 5 3 && decide (field e 4 1 ≤ 1) && keyOk d (field e 8 8)

theorem lookupMessageOk_iff {d : TableDesc} {b : Bytes} : lookupMessageOk d b = true ↔ b.length = 32 + 16 * field b 0x18 4 ∧
    ∀ e ∈ records 16 (field b 0x18 4) (b.drop 32), zeroField e 5 3 = true ∧ field e 4 1 ≤ 1 ∧ keyOk d (field e 8 8) = true := by
  simp only [lookupMessageOk, Bool.and_eq_true, decide_eq_true_eq, beq_iff_eq, List.all_eq_true, and_assoc]

/-- The rows that a LOOKUP asks this home for (R328). -/
def Table.requestOf (x : Inbound) (t : Table) : TableRequest where
  table := t.id
  from_ := x.src
  req := field x.body 0x10 8
  step := field x.body 8 8
  tenant := x.tenant
  entries := (records 16 (field x.body 0x18 4) (x.body.drop 32)).map fun e => (field e 0 4, field e 4 1, keyRow t.desc (field e 4 1) (field e 8 8))

/-- An END obeys Table 16-24: only the coordinator's carries moves, and they are to members. -/
def Table.endMessageOk (self src : Nat) (b : Bytes) (t : Table) : Bool :=
  40 ≤ b.length && b.length == 40 + 8 * (field b 0x18 4 + field b 0x24 4) && (field b 0x24 4 == 0 || t.coordinator self == src) &&
    (records 8 (field b 0x24 4) (b.drop (40 + 8 * field b 0x18 4))).all fun e => zeroField e 6 2 && t.members.contains (field e 4 2)

theorem endMessageOk_iff {self src : Nat} {b : Bytes} {t : Table} : t.endMessageOk self src b = true ↔
    40 ≤ b.length ∧ b.length = 40 + 8 * (field b 0x18 4 + field b 0x24 4) ∧ (field b 0x24 4 ≠ 0 → t.coordinator self = src) ∧
      ∀ e ∈ records 8 (field b 0x24 4) (b.drop (40 + 8 * field b 0x18 4)), zeroField e 6 2 = true ∧ field e 4 2 ∈ t.members := by
  simp only [Table.endMessageOk, Bool.and_eq_true, Bool.or_eq_true, decide_eq_true_eq, beq_iff_eq, List.all_eq_true, List.contains_iff_mem, or_iff_not_imp_left,
    and_assoc, ne_eq]

/-- What an END brings: itself, the sender's loads, and the moves (R330, R334). -/
def Table.noteEnd (x : Inbound) (t : Table) : Table :=
  let n := field x.body 0x18 4
  let step := field x.body 8 8
  let loads := (records 8 n (x.body.drop 40)).map fun e => (x.src, field e 0 4, field e 4 4)
  { t with
    ends := if t.ends.contains (x.src, step) then t.ends else t.ends ++ [(x.src, step)]
    loads := if loads.isEmpty then t.loads else (t.loads.filter (·.1 != x.src)) ++ loads
    moves := t.moves ++ (records 8 (field x.body 0x24 4) (x.body.drop (40 + 8 * n))).map fun e => (step, field e 0 4, field e 4 2) }

section
variable {s : State} {x : Inbound} {t : Table}

/-- The entries of a valid UPDATE are buffered, unless its step has ended here or the table is broken (R330, R331). -/
theorem tableUpdateHere_row : s.tableUpdateHere x t = s.wellFormed x (updateMessageOk t.desc x.body) fun s =>
    if t.broken || field x.body 8 8 < t.step then s
    else s.updTable t.id fun y => { y with
      buffer := y.buffer ++ (records (8 + updateEntryBytes t.desc (field x.body 0x24 1)) (field x.body 0x18 4) (x.body.drop 40)).map fun e =>
        readUpdate y.desc (field x.body 0x24 1) (field x.body 8 8) (field x.body 2 2) (field x.body 0x20 4) (field e 0 4) (e.drop 8) } := rfl

/-- A LOOKUP asks for its rows, and is answered once they are ready (R328, R330). -/
theorem tableLookupHere_row : s.tableLookupHere x t = s.wellFormed x (lookupMessageOk t.desc x.body) fun s =>
    ({ s with tables.requests := s.tables.requests ++ [t.requestOf x] } : State).pumpRequest (t.requestOf x) := rfl

/-- An END is noted, with what it carries; it may end the step, and let a drop go on (R330, R336). -/
theorem tableEndHere_row : s.tableEndHere x t = s.wellFormed x (t.endMessageOk s.nodeId x.src x.body) fun s =>
    ((s.updTable t.id (Table.noteEnd x)).endClose t.id).settleDrop t.id := rfl

end

/-! #### TABLE_BLOCK -/

/-- TABLE_BLOCK is its row of the table (R334). -/
theorem exec_tableBlock (s : State) : exec .tableBlock s = execTableBlock s := rfl

/-- A block is of the map in force, and is being received (R334). -/
def Table.awaits (t : Table) (b : Bytes) : Bool := field b 8 4 == t.mapVersion && t.incoming.contains (field b 4 4)

/-- A moved block obeys Table 16-24: it is of the map in force, or of the next (R334). -/
def Table.blockOk (t : Table) (src : Nat) (b : Bytes) : Bool :=
  t.members.contains src && zeroField b 12 4 && b.length == 16 + min 4096 (2 ^ t.desc.rowsLog2) * rowSize t.desc &&
    (t.awaits b || field b 8 4 == t.mapVersion + 1)

/-- A moved block is stored: its rows that differ from zero, and that it has come (R334). -/
def Table.storeBlock (d : TableDesc) (b : Bytes) (now : Bool) (y : Table) : Table := { y with
  rows := ((records (rowSize d) (min 4096 (2 ^ d.rowsLog2)) (b.drop 16)).zipIdx.filterMap fun (r, i) =>
    if r.all (· == 0) then none else some (4096 * field b 4 4 + i, readRow d r)).foldl (fun m r => m.put r.1 r.2) y.rows
  incoming := y.incoming.filter (· != field b 4 4), arrived := if now then y.arrived else field b 4 4 :: y.arrived }

theorem awaits_iff {t : Table} {b : Bytes} : t.awaits b = true ↔ field b 8 4 = t.mapVersion ∧ field b 4 4 ∈ t.incoming := by
  simp [Table.awaits]

theorem blockOk_iff {t : Table} {src : Nat} {b : Bytes} : t.blockOk src b = true ↔ src ∈ t.members ∧ zeroField b 12 4 = true ∧
    b.length = 16 + min 4096 (2 ^ t.desc.rowsLog2) * rowSize t.desc ∧
    (field b 8 4 = t.mapVersion ∧ field b 4 4 ∈ t.incoming ∨ field b 8 4 = t.mapVersion + 1) := by
  simp only [Table.blockOk, Bool.and_eq_true, Bool.or_eq_true, awaits_iff, beq_iff_eq, List.contains_iff_mem, and_assoc]

section
variable {s u : State} {x : Inbound} {t : Table} (hm : s.takeMessage 0x31 [] = some (x, u)) (hs : u.serving = true)
include hm hs

theorem tableBlock_unknown (ht : u.tables.tables.find (field x.body 0 4) = none) : exec .tableBlock s = .next (u.partnerViolation x.port x.src) := by
  simp only [exec_tableBlock, execTableBlock, hm, hs, Bool.not_true, Bool.false_eq_true, if_false, ht]

/-- A block of a table that is held here is stored, and whatever waits for it goes on (R334). -/
theorem tableBlock_held (ht : u.tables.tables.find (field x.body 0 4) = some t) : exec .tableBlock s =
    .next (u.wellFormed x (t.blockOk x.src x.body) fun u => (u.updTable t.id (Table.storeBlock t.desc x.body (t.awaits x.body))).pumpTable t.id) := by
  simp only [exec_tableBlock, execTableBlock, hm, hs, Bool.not_true, Bool.false_eq_true, if_false, ht]
  rfl

end

/-! #### The obligation -/

/-- Settles O43: an END is due or not, and goes out in one row or the other; a message is taken by its kind, and a block by the map that it is of. -/
theorem tableSteps : Obligations.TableSteps := by
  unfold Obligations.TableSteps
  intro id s t
  refine ⟨fun hs u hu ht => ?closes, endClose_open, fun ht he ho hb => ?ends, fun u hu hn => ?buffered, fun u hu => ?applied, fun d step r us => ?rows,
    fun x u hm hs => ?message, fun x k => ?create, fun x a b l hc => ?acknowledged, fun x => ?update, fun x => ?lookup, fun x => ?endMessage,
    fun x u hm hs => ?block⟩
  case closes =>
    refine ⟨fun h => closes_notDue hs hu ht ?_, fun hc he hb hbusy => ?_⟩
    · rcases h with h | h | h | h <;> simp [State.endDue, h]
    · have due : u.endDue t = true := by simp [State.endDue, hc, he, hb, hbusy]
      refine ⟨fun hj => closes_plain hs hu ht due (endHeld_endMoves_of_not_judges hj),
        fun hj ho => closes_waiting hs hu ht due (endHeld_endMoves_of_lacking hj ho), fun hj ho => ?_⟩
      obtain ⟨held, moves⟩ := endHeld_endMoves_of_judged hj ho
      exact ⟨fun hv => closes_plain hs hu ht due (by simp [held, moves, hv]), fun hv => closes_moving hs hu ht due (by simp [held, moves, hv])⟩
  case ends =>
    simp only [State.endClose, ht, he, ho, hb, Bool.and_self, Bool.not_true, Bool.or_self, Bool.false_eq_true, if_false]
  case buffered =>
    rw [applyStep_buffer]
    exact List.mem_filter.mpr ⟨hu, bne_iff_ne.mpr hn⟩
  case applied =>
    rw [applyStep_buffer] at hu
    exact bne_iff_ne.mp (List.mem_filter.mp hu).2
  case rows =>
    refine ⟨fun h => ?_, applyRow_poisoned, fun u h => ?_, fun h u v hi => ?_⟩
    · rw [applyRow_set h]
      exact ⟨rfl, rfl⟩
    · rw [applyRow_set h]
      rfl
    · obtain ⟨first, notFirst⟩ := updateBefore_of_issuer_lt hi
      obtain ⟨later, sooner⟩ := lastDelta_pair first notFirst
      rw [applyRow_set h, applyRow_set h, applyRow_set h, later, sooner]
      exact ⟨rfl, rfl⟩
  case message =>
    obtain ⟨-, -, broken⟩ := turnedAway_of_onMessage (exec_tableOp s)
    refine ⟨broken x u hm hs, fun hok => ?_⟩
    rw [taken_of_onMessage (exec_tableOp s) hm hs hok]
    refine ⟨fun hk => ?_, fun hk hn => congrArg _ (takeTableOp_stranger hk hn), fun ht hx => ?_⟩
    · simp only [State.takeTableOp, hk]
    · refine ⟨fun hk => ?_, fun hk => ?_, fun hk => ?_, fun hk => ?_, fun hk => ?_, fun hk => ?_, fun hk => ?_⟩
      all_goals simp only [State.takeTableOp, hk, withTable_member ht hx]
  case create =>
    intro d n ack hk hf hi ha hx
    rw [tableCreateHere_valid hk hf hi ha hx]
    refine ⟨fun h => if_pos (by simpa [Option.isSome_iff_ne_none] using h), fun (hn : s.tables.tables.find (field x.body 4 4) = none) hs => ?_⟩
    rw [if_neg (by simp [hn, hs])]
    exact ⟨fun v hv => by rw [hv]; rfl, fun e he => by rw [he]; rfl⟩
  case acknowledged =>
    refine ⟨tableCreateAck_refused hc, fun h => ?_⟩
    intro v
    rw [tableCreateAck_joined hc h rfl]
    exact ⟨fun hl => if_pos (List.isEmpty_iff.mpr hl), fun hl => if_neg (mt List.isEmpty_iff.mp hl)⟩
  case update =>
    dsimp only
    rw [← updateMessageOk_iff, tableUpdateHere_row]
    refine ⟨fun h => wellFormed_broken _ (Bool.eq_false_of_not_eq_true h), fun h hb => ?_, fun h hb hst => ?_⟩
    · rw [wellFormed_holds _ h]
      exact if_pos (by simpa using hb)
    · rw [wellFormed_holds _ h]
      exact if_neg (by simp [hb, hst])
  case lookup =>
    exact fun hl he => tableLookupHere_row.trans (wellFormed_holds _ (lookupMessageOk_iff.mpr ⟨hl, he⟩))
  case endMessage =>
    exact fun hl hl' hc he => tableEndHere_row.trans (wellFormed_holds _ (endMessageOk_iff.mpr ⟨hl, hl', hc, he⟩))
  case block =>
    refine ⟨tableBlock_unknown hm hs, fun ht => ?_⟩
    rw [tableBlock_held hm hs ht]
    dsimp only
    rw [← blockOk_iff, ← awaits_iff]
    refine ⟨fun h => congrArg _ (wellFormed_broken _ (Bool.eq_false_of_not_eq_true h)), fun h hn => ?_, fun h hn => ?_⟩
    · rw [wellFormed_holds _ h, hn]
      rfl
    · rw [wellFormed_holds _ h, Bool.eq_false_of_not_eq_true hn]
      rfl

end Sys2Proof.Machine

/-! ### Proofs: host regions, the cache, and reads of the lower tiers (O36) -/

namespace Sys2Proof.Machine

/-! #### Granting a region -/

/-- The region that the payload of a HOST_REGION_GRANT describes (R344, R351). -/
def regionOfGrant (b : Bytes) : HostRegion :=
  { kind := field b 4 1, base := field b 8 8, pages := field b 0x10 4, boundUs := if field b 0x14 4 = 0 then 200 else field b 0x14 4 }

/-- A granted extent overlaps none of the regions granted before (R345). -/
def State.extentClear (base size : Nat) (s : State) : Bool := !s.tiers.regions.vals.any fun x => extentsOverlap base size x.base (extentSize x.pages)

theorem extentClear_of {base size : Nat} {s : State}
    (h : ∀ x ∈ s.tiers.regions.vals, extentsOverlap base size x.base (extentSize x.pages) = false) : s.extentClear base size = true := by
  simpa [State.extentClear] using h

/-- The fields of a HOST_REGION_GRANT and whether each is valid (R344, R345). -/
def State.grantFields (b : Bytes) (s : State) : List (Nat × Bool) :=
  [(0, field b 0 4 != 0 && (s.tiers.regions.find (field b 0 4)).isNone), (4, field b 4 1 == 1 || field b 4 1 == 2), (5, zeroField b 5 3),
    (8, field b 8 8 % 4096 == 0 && decide (field b 8 8 + extentSize (field b 0x10 4) ≤ 2 ^ 64) && s.extentClear (field b 8 8) (extentSize (field b 0x10 4))),
    (0x10, decide (256 ≤ field b 0x10 4) && decide (field b 0x10 4 ≤ 16777216)),
    (0x14, field b 0x14 4 == 0 || (decide (20 ≤ field b 0x14 4) && decide (field b 0x14 4 ≤ 10000))), (0x18, zeroField b 0x18 8)]

section
variable {m : Mbx} {tag : Word} {f : Flight} {s : State}

/-- A HOST_REGION_GRANT whose fields are valid adds its region where there is a number, a page and working memory for it (R344, R345). -/
theorem hostRegionGrant_adds (ht : s.turn 0x7010 m tag f) (ho : f.opens 32 32) (hf : fields (s.grantFields f.plain) = .ok ())
    (hn : s.tiers.regions.length < 64) (hp : s.grantedPages + field f.plain 0x10 4 ≤ 67108864) (hw : 8 * field f.plain 0x10 4 ≤ s.workingFree) :
    exec (.hostRegionGrant m tag) s = .next (({ s with
      tiers.regions := s.tiers.regions.put (field f.plain 0 4) (regionOfGrant f.plain) } : State).answer f .done
        (leBytes 4 (field f.plain 0 4) ++ zeros 4 ++ leBytes 8 (4096 * field f.plain 0x10 4))) := by
  simp only [State.grantFields, State.extentClear] at hf
  refine congrArg Host.Outcome.next (start_ok ht ?_)
  simp only [opening_ok ho, hf, need_ok (decide_eq_true hn), need_ok (decide_eq_true hp), need_ok (decide_eq_true hw), ok_bind]
  rfl

end

/-! #### Revoking a region -/

section
variable {m : Mbx} {tag : Word} {f : Flight} {s : State} {id : Nat} {x : HostRegion}

/-- HOST_REGION_REVOKE marks its region, and waits for the accesses outstanding (R349). -/
theorem hostRegionRevoke_marks (ht : s.turn 0x7011 m tag f) (ho : f.opens 8 8) (hx : s.tiers.regions.find (field f.plain 0 4) = some x)
    (hr : x.revoking = none) (hz : zeroField f.plain 4 4 = true) : exec (.hostRegionRevoke m tag) s = .next ((({ s with
      tiers.regions := s.tiers.regions.upd (field f.plain 0 4) fun x => { x with revoking := some (m.key, tag, x.live.length) } } : State).setWork f
        (.revokeWait (field f.plain 0 4))).settleRevoke (field f.plain 0 4)) := by
  refine congrArg Host.Outcome.next (start_ok ht ?_)
  simp only [opening_ok ho, hx, hr, Option.isNone_none, need_ok, hz, fields_cons, fields_nil, ok_bind]

/-- A region without an outstanding access ends, and its revocation is answered (R349). -/
theorem settleRevoke_ends {pages a : Nat} (hx : s.tiers.regions.find id = some x) (hr : x.revoking = some (a, tag, pages)) (hf : s.flight a tag = some f)
    (hq : s.regionQuiet id = true) : s.settleRevoke id = ({ s with
      tiers.regions := s.tiers.regions.del id, flash.hostPages := s.flash.hostPages.keep fun _ g => g != id } : State).answer f .done
        (leBytes 4 pages ++ zeros 4) := by
  have kept : State.flight a tag { s with tiers.regions := s.tiers.regions.del id, flash.hostPages := s.flash.hostPages.keep fun _ g => g != id } = some f := hf
  simp only [State.settleRevoke, hx, hr, hq, if_true, kept]

/-- A region with an outstanding access stays (R349). -/
theorem settleRevoke_waits (hx : s.tiers.regions.find id = some x) (hq : s.regionQuiet id = false) : s.settleRevoke id = s := by
  simp only [State.settleRevoke, hx, hq, Bool.false_eq_true, if_false]
  cases x.revoking <;> rfl

end

/-! #### Filling the cache -/

/-- HOST_CACHE_FILL is its row of the table (R348). -/
theorem exec_hostCacheFill (id col : Word) (seg sector : Nat) (s : State) : exec (.hostCacheFill id col seg sector) s = execHostCacheFill id col seg sector s := rfl

/-- A refine sector may be copied into a region (R348, R378). -/
def State.mayFill (x : HostRegion) (c : Collection) (seg sector : Nat) (s : State) : Bool :=
  x.kind == 2 && !x.failed && x.revoking.isNone && (placeClassOf s.placeImage c.cls).hostCache &&
    s.mayCache c seg sector && !s.flash.lowSpace && (s.power.season == .summer || s.power.season == .drain)

/-- A refine sector is copied into a slot of a region under the next version (R347). -/
def State.fillSlot (id i : Nat) (c : Collection) (seg sector : Nat) (s : State) : State :=
  let u := s.writeHostPage id i (Config.sectorPlain c.id (((c.segment seg).map (·.gen)).getD 0) seg sector)
  { u with
    tiers.regions := u.tiers.regions.upd id fun x => { x with
      live := x.live.put i { version := u.tiers.version, collection := c.id, seg := seg, sector := sector } }
    tiers.version := u.tiers.version + 1 }

section
variable {id col : Word} {seg sector : Nat} {s : State} {x : HostRegion} {c : Collection}

theorem mayFill_iff : s.mayFill x c seg sector = true ↔ x.kind = 2 ∧ x.failed = false ∧ x.revoking = none ∧
    (placeClassOf s.placeImage c.cls).hostCache = true ∧ s.mayCache c seg sector = true ∧ s.flash.lowSpace = false ∧
    (s.power.season = .summer ∨ s.power.season = .drain) := by
  simp [State.mayFill, and_assoc]

theorem hostCacheFill_fills {i : Nat} (hx : s.tiers.regions.find id.toNat = some x) (hc : s.coll col.toNat = some c)
    (hm : s.mayFill x c seg sector = true) (hi : s.cacheSlot id.toNat seg x = some i) :
    exec (.hostCacheFill id col seg sector) s = .next (s.fillSlot id.toNat i c seg sector) := by
  simp only [State.mayFill] at hm
  simp only [exec_hostCacheFill, execHostCacheFill, hx, hc, hm, if_true, hi]
  rfl

/-- Without leave or without a slot nothing is copied (R347, R348). -/
theorem hostCacheFill_not (hx : s.tiers.regions.find id.toNat = some x) (hc : s.coll col.toNat = some c)
    (h : s.mayFill x c seg sector = false ∨ s.cacheSlot id.toNat seg x = none) : exec (.hostCacheFill id col seg sector) s = .next s := by
  rcases h with h | h
  · simp only [State.mayFill] at h
    simp only [exec_hostCacheFill, execHostCacheFill, hx, hc, h, Bool.false_eq_true, if_false]
  · simp only [exec_hostCacheFill, execHostCacheFill, hx, hc, h, ite_self]

end

/-! #### The failure of a region -/

/-- HOST_REGION_FAILED is its row of the table (R350). -/
theorem exec_hostRegionFailed (id : Word) (timeout : Bool) (s : State) : exec (.hostRegionFailed id timeout) s = execHostRegionFailed id timeout s := rfl

/-- A region that has not failed yet fails at a timeout or at the third failure within 1 s (R350). -/
theorem hostRegionFailed_row {id : Word} {timeout : Bool} {s : State} {x : HostRegion} (hx : s.tiers.regions.find id.toNat = some x) :
    exec (.hostRegionFailed id timeout) s = .next (
      if x.failed = false ∧ (timeout = true ∨ 3 ≤ (x.failures.filter fun t => s.clock < t + 1000000000).length) then s.failRegion id.toNat else s) := by
  simp only [exec_hostRegionFailed, execHostRegionFailed, hx, Bool.and_eq_true, Bool.or_eq_true, Bool.not_eq_true', decide_eq_true_eq]

/-! #### Reads of a host region -/

/-- HOST_TIER_READ_COMPLETE is its row of the table (R350). -/
theorem exec_hostTierReadComplete (m : Mbx) (tag : Word) (i : Nat) (o : HostRead) (s : State) :
    exec (.hostTierReadComplete m tag i o) s = execHostTierReadComplete m tag i o s := rfl

/-- What read `i` of a command comes to when its completion has arrived (R71, R350, R366). -/
def State.hostReadEnds (f : Flight) (i : Nat) (r : Read) (s : State) : HostRead → State
  | .data => r.mapPage.elim (s.readArrived f i) fun p => s.mapPageArrived f i r p
  | .badTag => ((s.mapPageLost r).logReadOf f r .dataDamaged).readLost f i .dataDamaged
  | .failed | .timeout => (s.mapPageLost r).readLost f i .tierFailed

section
variable {m : Mbx} {tag : Word} {f : Flight} {s : State} {i g : Nat} {r : Read} {o : HostRead}

/-- The completion of a read that was lost before changes nothing (R351). -/
theorem hostTierReadComplete_lost (hf : s.flight m.key tag = some f) (hi : (readsOf f)[i]? = some r) (hg : r.tier = .host g)
    (hl : r.lost.isSome = true) : exec (.hostTierReadComplete m tag i o) s = .next s := by
  simp only [exec_hostTierReadComplete, execHostTierReadComplete, hf, Option.elim_some, hi, hg, hl, if_true]

/-- The completion of a read that is awaited reaches its command, and then the region (R350). -/
theorem hostTierReadComplete_awaited (hf : s.flight m.key tag = some f) (hi : (readsOf f)[i]? = some r) (hg : r.tier = .host g) (hl : r.lost = none) :
    exec (.hostTierReadComplete m tag i o) s = .next (((s.hostReadEnds f i r o).regionOutcome g o).tierSettled r.tier) := by
  simp only [exec_hostTierReadComplete, execHostTierReadComplete, hf, Option.elim_some, hi, hg, hl, Option.isSome_none, Bool.false_eq_true, if_false]
  cases o with
  | data => cases hp : r.mapPage <;> simp only [State.hostReadEnds, hp, Option.elim_none, Option.elim_some]
  | badTag => rfl
  | failed => rfl
  | timeout => rfl

/-- The completion of a read that its command has left behind is discarded (R225, R226). -/
theorem hostTierReadComplete_left {x : SquashedRead} (hi : ((s.flight m.key tag).elim [] readsOf)[i]? = none)
    (hx : s.leftRead m.key tag (i - ((s.flight m.key tag).elim [] readsOf).length) = some x) (hg : x.read.tier = .host g) :
    exec (.hostTierReadComplete m tag i o) s = .next (((((
      if (o == .failed || o == .timeout) && x.read.lost.isNone then s.leftFails x .tierFailed g else s).dropLeft x).regionOutcome g o).tierSettled
        x.read.tier)) := by
  simp only [exec_hostTierReadComplete, execHostTierReadComplete, hi, hx, hg]

end

/-! #### Late reads -/

/-- LOWER_TIER_LATE is its row of the table (R351). -/
theorem exec_lowerTierLate (m : Mbx) (tag : Word) (i : Nat) (s : State) : exec (.lowerTierLate m tag i) s = execLowerTierLate m tag i s := rfl

/-- A read is awaited still at its bound (R351). -/
def State.pastBound (r : Read) (s : State) : Bool := decide (r.since + s.readBound r ≤ s.clock) && r.lost.isNone && r.came.isNone

section
variable {m : Mbx} {tag : Word} {f : Flight} {s : State} {i : Nat} {r : Read}

theorem pastBound_iff : s.pastBound r = true ↔ r.since + s.readBound r ≤ s.clock ∧ r.lost = none ∧ r.came = none := by
  simp [State.pastBound, and_assoc]

theorem not_pastBound_iff : s.pastBound r = false ↔ s.clock < r.since + s.readBound r ∨ r.lost.isSome = true ∨ r.came.isSome = true := by
  rw [← Bool.not_eq_true, pastBound_iff, ← Nat.not_le, Option.isSome_iff_ne_none, Option.isSome_iff_ne_none]
  tauto

/-- A read without data at its bound is late, and not before (R351). -/
theorem lowerTierLate_row (hf : s.flight m.key tag = some f) (hi : (readsOf f)[i]? = some r) : exec (.lowerTierLate m tag i) s = .next (
    if s.pastBound r then ((({ s with tiers.lateDiscarded := s.tiers.lateDiscarded + 1 } : State).mapPageLost r).readLate f i).tierSettled r.tier
    else s) := by
  simp only [exec_lowerTierLate, execLowerTierLate, hf, Option.elim_some, hi, State.pastBound]
  rfl

theorem readBound_flash (h : r.tier = .flash) : s.readBound r = 3000000 := by simp only [State.readBound, h]

theorem readBound_shared {owner : Nat} (h : r.tier = .shared owner) : s.readBound r = 5000000 := by simp only [State.readBound, h]

theorem readBound_host {g : Nat} {x : HostRegion} (h : r.tier = .host g) (hx : s.tiers.regions.find g = some x) : s.readBound r = x.boundUs * 1000 := by
  simp only [State.readBound, h, hx, Option.elim_some]

end

/-! #### The obligation -/

/-- Settles O36: a grant's checks pass one by one, a revocation waits for quiet, a fill goes by its leave and its slot, and a read by whether it is still awaited. -/
theorem lowerTiers : Obligations.LowerTiers := by
  unfold Obligations.LowerTiers
  intro m tag f s
  refine ⟨?grant, fun x id ht ho hid hx hr hz => ?revoke, fun id x pages hx hr hf => ⟨settleRevoke_ends hx hr hf, settleRevoke_waits hx⟩,
    fun id col seg sector x c hx hc => ?fill, fun id timeout x hx => ?failed, fun i r g hf hi hg => ?read, fun i g x o => hostTierReadComplete_left,
    fun i r hf hi => ?late⟩
  case grant =>
    rintro id base pages us ht ho rfl rfl rfl rfl hid hfree hkind h5 hbase hend hclear hp hp' hus h18 hn hroom hwork
    refine hostRegionGrant_adds ht ho ?_ hn hroom hwork
    have bound : (field f.plain 0x14 4 == 0 || decide (20 ≤ field f.plain 0x14 4) && decide (field f.plain 0x14 4 ≤ 10000)) = true := by simpa using hus
    have kind : (field f.plain 4 1 == 1 || field f.plain 4 1 == 2) = true := by simpa using hkind
    simp only [State.grantFields, bne_iff_ne.mpr hid, hfree, Option.isNone_none, kind, h5, beq_iff_eq.mpr hbase, hend, extentClear_of hclear, hp, hp',
      bound, h18, decide_true, Bool.and_self, fields_cons, fields_nil]
  case revoke =>
    subst hid
    exact hostRegionRevoke_marks ht ho hx hr hz
  case fill =>
    dsimp only
    rw [← mayFill_iff, Bool.not_eq_true]
    exact ⟨fun i => hostCacheFill_fills hx hc, hostCacheFill_not hx hc⟩
  case failed =>
    dsimp only
    rw [hostRegionFailed_row hx]
    refine ⟨fun h due => congrArg _ (if_pos ⟨h, due⟩), fun h => congrArg _ (if_neg ?_)⟩
    rintro ⟨stands, due⟩
    rcases h with h | ⟨ht, hn⟩
    · simp [h] at stands
    · exact due.elim (by simp [ht]) (Nat.not_le.mpr hn)
  case read =>
    refine ⟨fun o => hostTierReadComplete_lost hf hi hg, fun hl => ?_⟩
    have ends (o : HostRead) := hostTierReadComplete_awaited (o := o) hf hi hg hl
    refine ⟨fun hp => (ends .data).trans ?_, fun p hp => (ends .data).trans ?_, ends .badTag, fun o ho => ?_⟩
    · rw [State.hostReadEnds, hp, Option.elim_none]
    · rw [State.hostReadEnds, hp, Option.elim_some]
    · rcases ho with rfl | rfl
      · exact ends .failed
      · exact ends .timeout
  case late =>
    rw [lowerTierLate_row hf hi, ← not_pastBound_iff]
    exact ⟨fun hb hl hc => congrArg _ (if_pos (pastBound_iff.mpr ⟨hb, hl, hc⟩)), fun h => congrArg _ (if_neg (Bool.eq_false_iff.mp h)), readBound_flash,
      fun ⟨o, h⟩ => readBound_shared h, fun g x => readBound_host⟩

end Sys2Proof.Machine

/-! ### Proofs: publishing, leases and shared reads (O37) -/

namespace Sys2Proof.Machine

/-! #### Publishing -/

/-- SHARED_PUBLISH is its row of the table (R352). -/
theorem exec_sharedPublish (col : Word) (seg : Nat) (s : State) : exec (.sharedPublish col seg) s = execSharedPublish col seg s := rfl

/-- What keeps a segment from being published: its class, its state, LOW_SPACE, or an object that holds it already (R352, R378). -/
def State.publishHeld (seg : Nat) (c : Collection) (x : Segment) (s : State) : Bool :=
  !(placeClassOf s.placeImage c.cls).publish || !segDurable x || x.tombstone || s.flash.lowSpace || !s.serving ||
    s.tiers.objects.any fun o => o.collection == c.id && o.gen == x.gen && o.segment == seg

/-- A segment becomes an object of its class's shared region, or is counted where the region is full (R352). -/
def State.publish (seg : Nat) (c : Collection) (x : Segment) (s : State) : State :=
  let k := placeClassOf s.placeImage c.cls
  if (regionOf s.placeImage k.shared).gib * 2 ^ 30 < s.sharedBytes k.shared + ((c.rows seg).map (recordBytes c.desc)).foldl (· + ·) 0 then
    s.charge (ownerOf c.id) 0xBC 1
  else { s with tiers.objects := s.tiers.objects ++ [{ region := k.shared, collection := c.id, gen := x.gen, segment := seg }] }

section
variable {col : Word} {seg : Nat} {s : State} {c : Collection} {x : Segment}

theorem not_publishHeld_iff : s.publishHeld seg c x = false ↔ (placeClassOf s.placeImage c.cls).publish = true ∧ segDurable x = true ∧ x.tombstone = false ∧
    s.flash.lowSpace = false ∧ s.serving = true ∧
    (s.tiers.objects.any fun o => o.collection == c.id && o.gen == x.gen && o.segment == seg) = false := by
  simp only [State.publishHeld, Bool.or_eq_false_iff, Bool.not_eq_false', and_assoc]

theorem sharedPublish_row (hc : s.coll col.toNat = some c) (hx : c.segment seg = some x) :
    exec (.sharedPublish col seg) s = .next (if s.publishHeld seg c x then s else s.publish seg c x) := by
  simp only [exec_sharedPublish, execSharedPublish, hc, hx]
  rfl

end

/-! #### Leases that run out -/

/-- LEASE_EXPIRE drops what the holder has let run out, and reclaims objects (R353, R355). -/
theorem exec_leaseExpire (holder : Half) (s : State) : exec (.leaseExpire holder) s = .next (({ s with tiers.given := s.tiers.given.filter fun l =>
    !(l.node == holder.toNat && decide (l.since + 10000000000 ≤ s.clock)) } : State).reclaimObjects) := rfl

/-- The leases of this module on the objects of an owner. -/
def State.leasesOn (owner : Nat) (s : State) : List Lease := s.tiers.held.filter (·.node == owner)

/-- The leases on an owner's objects are renewed in one message (R353). -/
def State.renewLeases (owner : Nat) (s : State) : State :=
  ({ s with tiers.nextReq := s.tiers.nextReq + 1 } : State).post owner 0x40 2 0 true
    (sharedMessage 4 0 0 0 0 (s.leasesOn owner).length 0 0 (s.nodeId + 65536 * s.tiers.nextReq)
      ((s.leasesOn owner).flatMap fun l => leBytes 4 l.collection ++ leBytes 2 l.gen ++ zeros 2 ++ leBytes 8 l.segment))

/-- No lease on the owner's objects is a second old, or the module is fenced off (R353, R433). -/
def State.renewalIdle (owner : Nat) (s : State) : Bool :=
  (s.leasesOn owner).isEmpty || (s.leasesOn owner).all (fun l => s.clock < l.since + 1000000000) || s.selfFenced

/-- LEASE_RENEW renews the leases on an owner's objects where that is due (R353). -/
theorem exec_leaseRenew (owner : Half) (s : State) :
    exec (.leaseRenew owner) s = .next (if s.renewalIdle owner.toNat then s else s.renewLeases owner.toNat) := rfl

section
variable {owner : Nat} {s : State}

theorem renewalIdle_iff :
    s.renewalIdle owner = true ↔ (∀ l ∈ s.leasesOn owner, s.clock < l.since + 1000000000) ∨ s.selfFenced = true := by
  simp only [State.renewalIdle, Bool.or_eq_true, List.isEmpty_iff, List.all_eq_true, decide_eq_true_eq]
  refine or_congr_left (or_iff_right_of_imp fun h l hl => ?_)
  rw [h] at hl
  cases hl

theorem not_renewalIdle (h : ∃ l ∈ s.leasesOn owner, l.since + 1000000000 ≤ s.clock) (hs : s.selfFenced = false) :
    ¬ s.renewalIdle owner = true := by
  obtain ⟨l, hl, due⟩ := h
  intro idle
  rcases renewalIdle_iff.mp idle with young | fenced
  · exact Nat.not_lt.mpr due (young l hl)
  · simp [hs] at fenced

end

/-! #### Shared reads at their owner -/

/-- SHARED_READ is its row of the table (R354). -/
theorem exec_sharedRead (s : State) : exec .sharedRead s = execSharedRead s := rfl

/-- The layout of a SHARED_READ (Table 16-25). -/
def sharedReadOk (b : Bytes) : Bool := b.length == 40 && field b 1 1 == 0 && zeroField b 0xA 2

theorem sharedReadOk_iff {b : Bytes} : sharedReadOk b = true ↔ b.length = 40 ∧ field b 1 1 = 0 ∧ zeroField b 0xA 2 = true := by
  simp only [sharedReadOk, Bool.and_eq_true, beq_iff_eq, and_assoc]

/-- The first of the reasons of Table 16-25 for which a SHARED_READ is refused, 0 where it is served. -/
def State.sharedReadReason (x : Inbound) (s : State) : Nat :=
  let b := x.body
  let here := s.tiers.objects.any fun o => o.collection == field b 4 4 && o.gen == field b 8 2 && o.segment == field b 0x10 8
  let leased := s.tiers.given.any fun l => l.node == x.src && l.collection == field b 4 4 && l.gen == field b 8 2 && l.segment == field b 0x10 8
  if s.refuseReason x.src != 0 then s.refuseReason x.src else if !here then 1 else if !leased then 2 else 0

/-- The sectors that a SHARED_READ asks for. -/
def State.sharedSectors (b : Bytes) (s : State) : Bytes :=
  (List.range (field b 0xC 4)).flatMap fun i => s.storedSector (field b 4 4) (field b 8 2) (field b 0x10 8) (field b 0x18 8 + i)

/-- The answer to a SHARED_READ: sectors, or a refusal with its reason, under the read's own fields (R354). -/
def State.answerSharedRead (x : Inbound) (kind why : Nat) (data : Bytes) (s : State) : State :=
  let b := x.body
  s.post x.src 0x40 5 0 true (sharedMessage kind why (field b 2 2) (field b 4 4) (field b 8 2) (field b 0xC 4) (field b 0x10 8) (field b 0x18 8)
    (field b 0x20 8) data)

section
variable {s u : State} {x : Inbound}

theorem sharedRead_row (hm : s.takeMessage 0x40 [1] = some (x, u)) : exec .sharedRead s = .next (u.wellFormed x (sharedReadOk x.body) fun u =>
    if u.sharedReadReason x = 0 then u.answerSharedRead x 2 0 (u.sharedSectors x.body) else u.answerSharedRead x 3 (u.sharedReadReason x) []) := by
  simp only [exec_sharedRead, execSharedRead, hm]
  rfl

end

/-! #### Renewals, at the owner and at the reader -/

/-- LEASE is its row of the table (R353). -/
theorem exec_lease (s : State) : exec .lease s = execLease s := rfl

/-- The layout of a LEASE or its acknowledgement (Table 16-25). -/
def leaseOk (b : Bytes) : Bool := decide (40 ≤ b.length) && b.length == 40 + 16 * field b 0xC 4

theorem leaseOk_iff {b : Bytes} : leaseOk b = true ↔ 40 ≤ b.length ∧ b.length = 40 + 16 * field b 0xC 4 := by
  simp only [leaseOk, Bool.and_eq_true, decide_eq_true_eq, beq_iff_eq]

/-- An owner serves the reader, and holds the object that an entry names (R353). -/
def State.grantsEntry (src : Nat) (s : State) (e : Nat × Nat × Nat × Nat) : Bool :=
  s.refuseReason src == 0 && s.tiers.objects.any fun o => o.collection == e.1 && o.gen == e.2.1 && o.segment == e.2.2.2

/-- The leases that an owner grants on the entries of a renewal (R353). -/
def State.freshLeases (x : Inbound) (s : State) : List Lease :=
  ((leaseEntries (x.body.drop 40)).filter (s.grantsEntry x.src)).map fun e =>
    { node := x.src, collection := e.1, gen := e.2.1, segment := e.2.2.2, since := s.clock }

/-- An owner grants what it holds, in place of the leases of before, and answers each entry (R353). -/
def State.grantLeases (x : Inbound) (s : State) : State :=
  let es := leaseEntries (x.body.drop 40)
  ({ s with tiers.given := (s.tiers.given.filter fun l => !(s.freshLeases x).any fun g =>
      g.node == l.node && g.collection == l.collection && g.gen == l.gen && g.segment == l.segment) ++ s.freshLeases x } : State).post x.src 0x40 2 0 true
    (sharedMessage 5 0 (field x.body 2 2) 0 0 es.length 0 0 (field x.body 0x20 8)
      (es.flatMap fun e => leBytes 4 e.1 ++ leBytes 2 e.2.1 ++ leBytes 1 (flag (!s.grantsEntry x.src e)) ++ zeros 1 ++ leBytes 8 e.2.2.2))

/-- What a lease becomes by an acknowledgement: renewed or dropped where an entry names it, as it was otherwise (R353). -/
def Lease.acknowledged (x : Inbound) (now : Nat) (l : Lease) : Option Lease :=
  ((leaseEntries (x.body.drop 40)).find? fun e => e.1 == l.collection && e.2.1 == l.gen && e.2.2.2 == l.segment && l.node == x.src).elim (some l)
    fun e => if e.2.2.1 = 0 then some { l with since := now } else none

section
variable {s u : State} {x : Inbound}

theorem lease_row (hm : s.takeMessage 0x40 [4, 5] = some (x, u)) : exec .lease s = .next (u.wellFormed x (leaseOk x.body) fun u =>
    if field x.body 0 1 = 4 then u.grantLeases x else { u with tiers.held := u.tiers.held.filterMap (Lease.acknowledged x u.clock) }) := by
  simp only [exec_lease, execLease, hm]
  refine congrArg (fun k => Host.Outcome.next (u.wellFormed x (leaseOk x.body) k)) (funext fun u => if_congr Iff.rfl rfl ?_)
  refine congrArg (fun g => ({ u with tiers.held := u.tiers.held.filterMap g } : State)) (funext fun l => ?_)
  unfold Lease.acknowledged
  generalize (leaseEntries (x.body.drop 40)).find? _ = e
  cases e <;> rfl

end

/-! #### The answers to shared reads -/

/-- The layout of a SHARED_DATA, and an ID that this module has given out (Table 16-25). -/
def State.sharedDataOk (b : Bytes) (s : State) : Bool :=
  (decide (40 ≤ b.length) && zeroField b 0xA 2 &&
    (if field b 0 1 = 2 then field b 1 1 == 0 && b.length == 40 + 4112 * field b 0xC 4
      else decide (1 ≤ field b 1 1) && decide (field b 1 1 ≤ 4) && b.length == 40)) && s.ownPastId (field b 0x20 8) s.tiers.nextReq

theorem sharedDataOk_iff {b : Bytes} {s : State} : s.sharedDataOk b = true ↔ 40 ≤ b.length ∧ zeroField b 0xA 2 = true ∧
    (if field b 0 1 = 2 then field b 1 1 = 0 ∧ b.length = 40 + 4112 * field b 0xC 4 else 1 ≤ field b 1 1 ∧ field b 1 1 ≤ 4 ∧ b.length = 40) ∧
    s.ownPastId (field b 0x20 8) s.tiers.nextReq = true := by
  unfold State.sharedDataOk
  split <;> simp only [Bool.and_eq_true, decide_eq_true_eq, beq_iff_eq, and_assoc]

/-- The outstanding shared read that a SHARED_DATA answers. -/
def State.sharedAnswered (x : Inbound) (s : State) : Option SharedRead :=
  s.tiers.reads.find? fun r => r.req == field x.body 0x20 8 && r.owner == x.src

/-- The module holds the key of the generation that a SHARED_DATA is sealed under (R82, R354). -/
def State.sharedKey (b : Bytes) (s : State) : Bool :=
  (s.coll (field b 4 4)).any fun c => c.gens.any fun g => g.1 == field b 8 2 && (s.trk (ownerOf c.id) g.2.1).any fun k => kcv k.key == g.2.2

/-- The data of a shared read reaches the command that waits for it: without its key or with a bad tag it is lost (R353, R354). -/
def State.takeSharedData (x : Inbound) (opens : Bool) (r : SharedRead) (f : Flight) (i : Nat) (s : State) : State :=
  if !s.sharedKey x.body then s.sharedLost r .keyUnavailable
  else if opens then ({ s with tiers.reads := s.tiers.reads.erase r } : State).readArrived f i
  else (match (readsOf f)[i]? with | some y => s.logReadOf f y .dataDamaged | none => s).sharedLost r .dataDamaged

/-- A well-formed SHARED_DATA: what answers no read, or no command that waits, is counted; a refusal ends its read (R353, R354). -/
def State.takeSharedAnswer (x : Inbound) (opens : Bool) (s : State) : State :=
  match s.sharedAnswered x with
  | none => { s with tiers.lateDiscarded := s.tiers.lateDiscarded + 1 }
  | some r =>
    if field x.body 0 1 = 3 then s.sharedLost r .tierFailed
    else match s.sharedWaiter r with
      | none => { s with tiers.reads := s.tiers.reads.erase r, tiers.lateDiscarded := s.tiers.lateDiscarded + 1 }
      | some (f, i) => s.takeSharedData x opens r f i

/-- SHARED_DATA takes a message, and does with it what its layout and its answer say (R353, R354). -/
theorem exec_sharedData (opens : Bool) (s : State) : exec (.sharedData opens) s =
    .next (s.onMessage 0x40 [2, 3] (fun x u => u.sharedDataOk x.body) fun x => State.takeSharedAnswer x opens) := rfl

section
variable {u : State} {x : Inbound} {opens : Bool} {r : SharedRead} {f : Flight} {i : Nat}

theorem takeSharedAnswer_unasked (h : u.sharedAnswered x = none) :
    u.takeSharedAnswer x opens = { u with tiers.lateDiscarded := u.tiers.lateDiscarded + 1 } := by
  simp only [State.takeSharedAnswer, h]

/-- A refusal ends its read TIER_FAILED (R354). -/
theorem takeSharedAnswer_refused (h : u.sharedAnswered x = some r) (hk : field x.body 0 1 = 3) :
    u.takeSharedAnswer x opens = u.sharedLost r .tierFailed := by
  simp only [State.takeSharedAnswer, h, hk, if_true]

theorem takeSharedAnswer_unwaited (h : u.sharedAnswered x = some r) (hk : field x.body 0 1 = 2) (hw : u.sharedWaiter r = none) :
    u.takeSharedAnswer x opens = { u with tiers.reads := u.tiers.reads.erase r, tiers.lateDiscarded := u.tiers.lateDiscarded + 1 } := by
  simp only [State.takeSharedAnswer, h, hk, hw, Nat.reduceEqDiff, if_false]

theorem takeSharedAnswer_data (h : u.sharedAnswered x = some r) (hk : field x.body 0 1 = 2) (hw : u.sharedWaiter r = some (f, i)) :
    u.takeSharedAnswer x opens = u.takeSharedData x opens r f i := by
  simp only [State.takeSharedAnswer, h, hk, hw, Nat.reduceEqDiff, if_false]

theorem takeSharedData_keyless (h : u.sharedKey x.body = false) : u.takeSharedData x opens r f i = u.sharedLost r .keyUnavailable :=
  if_pos (by rw [h]; rfl)

/-- Data that opens reaches the command that reads it (R354). -/
theorem takeSharedData_opens (h : u.sharedKey x.body = true) :
    u.takeSharedData x true r f i = ({ u with tiers.reads := u.tiers.reads.erase r } : State).readArrived f i :=
  if_neg (by simp [h])

/-- A bad tag is logged, and ends its read DATA_DAMAGED (R71, R354). -/
theorem takeSharedData_damaged {y : Read} (h : u.sharedKey x.body = true) (hy : (readsOf f)[i]? = some y) :
    u.takeSharedData x false r f i = (u.logReadOf f y .dataDamaged).sharedLost r .dataDamaged := by
  simp only [State.takeSharedData, h, hy, Bool.not_true, Bool.false_eq_true, if_false]

end

/-! #### The obligation -/

/-- Settles O37: a publication goes by its room, a renewal by the age of the leases, and a message by its layout and by what it answers. -/
theorem sharedTier : Obligations.SharedTier := by
  unfold Obligations.SharedTier
  intro s
  refine ⟨fun col seg c x hc hx => ?publish, fun owner => ⟨fun due hs => ?renews, fun idle => ?rests⟩, fun holder => exec_leaseExpire holder s,
    fun x u hm => ?read, fun x u hm => ?lease, fun x u opens hm => ?data⟩
  case publish =>
    dsimp only
    rw [sharedPublish_row hc hx, ← not_publishHeld_iff]
    refine ⟨fun may fits => ?_, fun may full => ?_, fun held => congrArg _ (if_pos (Bool.eq_true_of_not_eq_false held))⟩
    · exact congrArg _ ((if_neg (Bool.eq_false_iff.mp may)).trans (if_neg (Nat.not_lt.mpr fits)))
    · exact congrArg _ ((if_neg (Bool.eq_false_iff.mp may)).trans (if_pos full))
  case renews => exact (exec_leaseRenew owner s).trans (congrArg _ (if_neg (not_renewalIdle due hs)))
  case rests => exact (exec_leaseRenew owner s).trans (congrArg _ (if_pos (renewalIdle_iff.mpr idle)))
  case read =>
    dsimp only
    rw [sharedRead_row hm, ← sharedReadOk_iff]
    refine ⟨fun ok served => ?_, fun ok refused => ?_, fun broken => congrArg _ (wellFormed_broken _ (Bool.eq_false_iff.mpr broken))⟩ <;>
      rw [wellFormed_holds _ ok]
    · exact congrArg _ (if_pos served)
    · exact congrArg _ (if_neg refused)
  case lease =>
    dsimp only
    rw [lease_row hm, ← leaseOk_iff]
    refine ⟨fun ok renewal => ?_, fun ok acknowledgement => ?_, fun broken => congrArg _ (wellFormed_broken _ (Bool.eq_false_iff.mpr broken))⟩ <;>
      rw [wellFormed_holds _ ok]
    · exact congrArg _ (if_pos renewal)
    · exact congrArg _ (if_neg acknowledgement)
  case data =>
    have row := exec_sharedData opens s
    obtain ⟨-, away, broken⟩ := turnedAway_of_onMessage row
    dsimp only
    rw [← sharedDataOk_iff]
    refine ⟨away x u hm, fun hs h => broken x u hm hs (Bool.eq_false_iff.mpr h), fun hs h => ?_⟩
    rw [taken_of_onMessage row hm hs h]
    refine ⟨fun none => congrArg _ (takeSharedAnswer_unasked none), fun r found => ⟨fun hk => congrArg _ (takeSharedAnswer_refused found hk),
      fun hk hw => congrArg _ (takeSharedAnswer_unwaited found hk hw), fun f i hk hw => ?_⟩⟩
    rw [takeSharedAnswer_data found hk hw]
    refine ⟨fun key => congrArg _ (takeSharedData_keyless key), ?_, ?_⟩
    · rintro key rfl
      exact congrArg _ (takeSharedData_opens key)
    · rintro y key rfl hy
      exact congrArg _ (takeSharedData_damaged key hy)

end Sys2Proof.Machine

/-! ### Proofs: the care of the media (O49) -/

namespace Sys2Proof.Machine

/-! #### What changes of the media leave alone -/

/-- Logging leaves the flash alone. -/
@[simp] theorem log_flash (e : LogEntry) (s : State) : (s.log e).flash = s.flash := by
  obtain ⟨t, h⟩ := log_tenants_only e s
  rw [h]

@[simp] theorem logUnit_flash (n : Nat) (s : State) : (s.logUnit n).flash = s.flash := log_flash _ s

theorem updQuad_quad (q : Nat) (g : QuadBlock → QuadBlock) (s : State) : (s.updQuad q g).quad q = g (s.quad q) := Tab.getD_put ..

theorem updDie_die (d : Nat) (g : Die → Die) (s : State) : (s.updDie d g).die d = g (s.die d) := Tab.getD_put ..

theorem updDie_die_ne {d x : Nat} (g : Die → Die) (s : State) (h : x ≠ d) : (s.updDie d g).die x = s.die x := Tab.getD_put_ne _ _ _ _ _ h

/-! #### Garbage collection -/

/-- What GC orders the closed bands by: the mapped units, then the time of the close (R376). -/
def State.gcKey (s : State) (e : Nat × Band) : Nat ×ₗ Nat := toLex (s.bandMapped e.1, e.2.closed.getD 0)

/-- GC may choose a victim: it has none, fewer than 2 % of the bands are free, and the module is in SUMMER or DRAIN (R376). -/
def State.gcDue (s : State) : Bool :=
  s.flash.gcVictim.isNone && s.freeBands * 50 < s.allBands && (s.power.season == .summer || s.power.season == .drain)

def State.closedBands (s : State) : List (Nat × Band) := s.flash.bands.filter fun e => e.2.closed.isSome

/-- The better of the best victim so far and another closed band (R376). -/
def State.betterVictim (s : State) (a : Option (Nat × Band)) (e : Nat × Band) : Option (Nat × Band) :=
  match a with
  | none => some e
  | some x =>
    if s.bandMapped e.1 < s.bandMapped x.1 || (s.bandMapped e.1 == s.bandMapped x.1 && e.2.closed.getD 0 < x.2.closed.getD 0) then some e else a

section
variable {s : State}

theorem betterVictim_eq_argAux : s.betterVictim = List.argAux fun e x => s.gcKey e < s.gcKey x := by
  funext a e
  cases a with
  | none => rfl
  | some x => simp only [State.betterVictim, List.argAux, State.gcKey, Prod.Lex.toLex_lt_toLex, Bool.or_eq_true, Bool.and_eq_true, decide_eq_true_eq, beq_iff_eq]

/-- The victim is the closed band with the least key (R376). -/
theorem foldl_betterVictim (l : List (Nat × Band)) : l.foldl s.betterVictim none = l.argmin s.gcKey := by
  rw [betterVictim_eq_argAux]
  rfl

/-- GC that is due takes the closed band with the least key, where there is one (R376). -/
theorem gcStart_due (due : s.gcDue = true) {best : Option (Nat × Band)} (h : s.closedBands.argmin s.gcKey = best) :
    exec .gcStart s = .next (best.elim s fun e => { s with flash.gcVictim := some e.1 }) := by
  rw [← foldl_betterVictim] at h
  refine congrArg Host.Outcome.next ((if_pos due).trans ?_)
  change (match s.closedBands.foldl s.betterVictim none with | some e => { s with flash.gcVictim := some e.1 } | none => s) = _
  rw [h]
  cases best <;> rfl

theorem mem_closedBands {e : Nat × Band} : e ∈ s.closedBands ↔ e ∈ s.flash.bands ∧ e.2.closed ≠ none := by
  rw [State.closedBands, List.mem_filter, Option.isSome_iff_ne_none]

theorem gcDue_iff : s.gcDue = true ↔
    s.flash.gcVictim = none ∧ s.freeBands * 50 < s.allBands ∧ (s.power.season = .summer ∨ s.power.season = .drain) := by
  simp [State.gcDue, and_assoc]

/-- No closed band precedes the victim: each has more mapped units, or as many and no earlier close (R376). -/
theorem victim_first {e x : Nat × Band} {t u : Nat} (h : e ∈ s.closedBands.argmin s.gcKey) (hx : x ∈ s.closedBands) (ht : e.2.closed = some t)
    (hu : x.2.closed = some u) : s.bandMapped e.1 < s.bandMapped x.1 ∨ s.bandMapped e.1 = s.bandMapped x.1 ∧ t ≤ u := by
  have least := List.le_of_mem_argmin hx h
  rwa [State.gcKey, State.gcKey, ht, hu, Prod.Lex.toLex_le_toLex] at least

/-- GC that is due begins with the first of the closed bands (R376). -/
theorem gcStart_begins (due : s.gcDue = true) (some_closed : ∃ e ∈ s.flash.bands, e.2.closed ≠ none) : ∃ n b t, (n, b) ∈ s.flash.bands ∧ b.closed = some t ∧
    (∀ e ∈ s.flash.bands, ∀ u, e.2.closed = some u → s.bandMapped n < s.bandMapped e.1 ∨ s.bandMapped n = s.bandMapped e.1 ∧ t ≤ u) ∧
    exec .gcStart s = .next { s with flash.gcVictim := some n } := by
  obtain ⟨y, hy, hc⟩ := some_closed
  cases hv : s.closedBands.argmin s.gcKey with
  | none => exact absurd (mem_closedBands.mpr ⟨hy, hc⟩) (List.argmin_eq_none.mp hv ▸ List.not_mem_nil)
  | some e =>
    obtain ⟨he, closed⟩ := mem_closedBands.mp (List.argmin_mem hv)
    obtain ⟨t, ht⟩ := Option.ne_none_iff_exists'.mp closed
    refine ⟨e.1, e.2, t, he, ht, fun x hx u hu => victim_first hv (mem_closedBands.mpr ⟨hx, by simp [hu]⟩) ht hu, gcStart_due due hv⟩

theorem gcStart_not_due (h : s.gcDue = false) : exec .gcStart s = .next s :=
  congrArg Host.Outcome.next (if_neg (Bool.eq_false_iff.mp h))

theorem gcStart_all_open (h : ∀ e ∈ s.flash.bands, e.2.closed = none) : exec .gcStart s = .next s := by
  have none_closed : s.closedBands = [] := List.filter_eq_nil_iff.mpr fun e he => by simp [h e he]
  cases due : s.gcDue with
  | false => exact gcStart_not_due due
  | true => exact gcStart_due due (List.argmin_eq_none.mpr none_closed)

theorem gcDue_eq_false (h : s.flash.gcVictim ≠ none ∨ s.allBands ≤ s.freeBands * 50 ∨ (s.power.season ≠ .summer ∧ s.power.season ≠ .drain)) :
    s.gcDue = false := by
  rw [← Bool.not_eq_true, gcDue_iff]
  rintro ⟨hv, hf, hs⟩
  rcases h with h | h | ⟨h, h'⟩
  · exact h hv
  · omega
  · exact hs.elim h h'

end

/-! #### Refresh and patrol -/

section
variable {s : State} {q : Nat} {w : Bool}

/-- A quad-block is to be refreshed: it is programmed, a threshold is reached, and no refresh of it runs (R380). -/
def State.refreshes (q : Nat) (s : State) : Bool := (s.quad q).programmed.isSome && !(s.quad q).refreshing && s.refreshDue q

/-- A quad-block whose refresh begins is marked and counted (R380). -/
def State.beginRefresh (q : Nat) (s : State) : State :=
  { s.updQuad q fun b => { b with refreshing := true } with flash.refreshed := s.flash.refreshed + 1 }

/-- QUAD_BLOCK_REFRESH is its row of the table (R380). -/
theorem exec_quadBlockRefresh (q : Nat) (s : State) : exec (.quadBlockRefresh q) s = .next (if s.refreshes q then s.beginRefresh q else s) := rfl

theorem beginRefresh_quad : (s.beginRefresh q).quad q = { s.quad q with refreshing := true } :=
  updQuad_quad q (fun b => { b with refreshing := true }) s

theorem refreshes_iff : s.refreshes q = true ↔ (s.quad q).programmed ≠ none ∧ (s.quad q).refreshing = false ∧ s.refreshDue q = true := by
  simp [State.refreshes, Option.isSome_iff_ne_none, and_assoc]

theorem quadBlockRefresh_begins (h : s.refreshes q = true) : exec (.quadBlockRefresh q) s = .next (s.beginRefresh q) :=
  (exec_quadBlockRefresh q s).trans (congrArg _ (if_pos h))

theorem quadBlockRefresh_rests (h : s.refreshDue q = false ∨ (s.quad q).programmed = none ∨ (s.quad q).refreshing = true) :
    exec (.quadBlockRefresh q) s = .next s := by
  refine (exec_quadBlockRefresh q s).trans (congrArg _ (if_neg (mt refreshes_iff.mp ?_)))
  rintro ⟨hp, hr, hd⟩
  rcases h with h | h | h
  · simp [h] at hd
  · exact hp h
  · simp [h] at hr

/-- The thresholds of Table 15-8: reads, decoding, and age. -/
theorem refreshDue_iff : s.refreshDue q = true ↔ (if (s.quad q).slc then 40000000 ≤ (s.quad q).reads else 4000000 ≤ (s.quad q).reads) ∨
    (s.quad q).weak = true ∨ ∃ t, (s.quad q).programmed = some t ∧ t + 365 * 86400000000000 ≤ s.clock := by
  unfold State.refreshDue
  dsimp only
  rw [Bool.or_eq_true, Bool.or_eq_true, or_assoc]
  refine or_congr (by split <;> exact decide_eq_true_iff) (or_congr_right ?_)
  cases (s.quad q).programmed with
  | none => simp
  | some t => simp

/-- The patrol is due at a quad-block (R380). -/
def State.patrolDue (q : Nat) (s : State) : Bool :=
  (s.quad q).programmed.isSome && (s.quad q).patrolled + 7 * 86400000000000 ≤ s.clock

/-- FLASH_PATROL is its row of the table (R380). -/
theorem exec_flashPatrol (q : Nat) (w : Bool) (s : State) : exec (.flashPatrol q w) s =
    .next (if s.patrolDue q then s.updQuad q fun b => { b with patrolled := s.clock, weak := b.weak || w } else s) := rfl

theorem patrolDue_iff : s.patrolDue q = true ↔ (s.quad q).programmed ≠ none ∧ (s.quad q).patrolled + 7 * 86400000000000 ≤ s.clock := by
  simp only [State.patrolDue, Bool.and_eq_true, decide_eq_true_eq, Option.isSome_iff_ne_none]

theorem flashPatrol_reads (h : s.patrolDue q = true) : exec (.flashPatrol q w) s =
    .next (s.updQuad q fun b => { b with patrolled := s.clock, weak := b.weak || w }) :=
  (exec_flashPatrol q w s).trans (congrArg _ (if_pos h))

theorem flashPatrol_rests (h : (s.quad q).programmed = none ∨ s.clock < (s.quad q).patrolled + 7 * 86400000000000) :
    exec (.flashPatrol q w) s = .next s := by
  refine (exec_flashPatrol q w s).trans (congrArg _ (if_neg (mt patrolDue_iff.mp ?_)))
  rintro ⟨hp, ht⟩
  exact h.elim hp (Nat.not_lt.mpr ht)

end

/-! #### Wear -/

/-- The quad-blocks of a die. -/
def State.dieQuads (d : Nat) (s : State) : List Nat := (List.range s.flash.blocks).map fun b => quadKey d b

/-- The erase counts of a die's quad-blocks. -/
def State.eraseCounts (d : Nat) (s : State) : List Nat := (List.range s.flash.blocks).map fun b => (s.quad (quadKey d b)).erases

/-- The smallest erase count of a die. -/
def State.leastErases (d : Nat) (s : State) : Nat := (s.eraseCounts d).foldl min ((s.eraseCounts d).headD 0)

/-- The spread of the erase counts of a die exceeds 5 % of the rated endurance (R379). -/
def State.wearUneven (d : Nat) (s : State) : Prop := Config.endurance < 20 * ((s.eraseCounts d).foldl max 0 - s.leastErases d)

/-- A quad-block of a die with its smallest erase count that a band holds (R379). -/
def State.leastWorn (d q : Nat) (s : State) : Prop :=
  ∃ b < s.flash.blocks, q = quadKey d b ∧ (s.quad q).erases = s.leastErases d ∧ s.bandOf q ≠ none

/-- What a wear move looks for among the quad-blocks of a die (R379). -/
def State.wearCandidate (d : Nat) (s : State) (q : Nat) : Bool := (s.quad q).erases == s.leastErases d && (s.bandOf q).isSome

/-- The quad-block of a die whose band a wear move empties (R379). -/
def State.wearSource (d : Nat) (s : State) : Option Nat := (s.dieQuads d).find? (s.wearCandidate d)

section
variable {d : Fin 1024} {s : State} {q : Nat}

/-- On an even die nothing moves (R379). -/
theorem wearLevelMove_even (h : ¬s.wearUneven d.val) : exec (.wearLevelMove d) s = .next s := by
  refine congrArg Host.Outcome.next (if_neg ?_)
  rwa [List.map_map]

/-- On an uneven die the band of a least worn quad-block is moved (R379). -/
theorem wearLevelMove_uneven (h : s.wearUneven d.val) {source : Option Nat} (hs : s.wearSource d.val = source) : exec (.wearLevelMove d) s =
    .next (source.elim s fun q => { s with flash.wearVictim := s.bandOf q }) := by
  refine congrArg Host.Outcome.next ((if_pos ?_).trans ?_)
  · rwa [List.map_map]
  · rw [List.map_map]
    change (match s.wearSource d.val with | some q => { s with flash.wearVictim := s.bandOf q } | none => s) = _
    rw [hs]
    cases source <;> rfl

theorem leastWorn_iff : s.leastWorn d.val q ↔ q ∈ s.dieQuads d.val ∧ s.wearCandidate d.val q = true := by
  simp only [State.leastWorn, State.dieQuads, State.wearCandidate, List.mem_map, List.mem_range, Bool.and_eq_true, beq_iff_eq, Option.isSome_iff_ne_none]
  constructor
  · rintro ⟨b, hb, rfl, least, held⟩
    exact ⟨⟨b, hb, rfl⟩, least, held⟩
  · rintro ⟨⟨b, hb, rfl⟩, least, held⟩
    exact ⟨b, hb, rfl, least, held⟩

theorem wearLevelMove_no_source (h : s.wearUneven d.val) (hn : ∀ q, ¬s.leastWorn d.val q) : exec (.wearLevelMove d) s = .next s :=
  wearLevelMove_uneven h (List.find?_eq_none.mpr fun q hq least => hn q (leastWorn_iff.mpr ⟨hq, least⟩))

theorem wearLevelMove_moves (h : s.wearUneven d.val) (hq : ∃ q, s.leastWorn d.val q) :
    ∃ q n, s.leastWorn d.val q ∧ s.bandOf q = some n ∧ exec (.wearLevelMove d) s = .next { s with flash.wearVictim := some n } := by
  obtain ⟨y, hy⟩ := hq
  obtain ⟨mem, least⟩ := leastWorn_iff.mp hy
  have found : (s.wearSource d.val).isSome = true := List.find?_isSome.mpr ⟨y, mem, least⟩
  obtain ⟨q, source⟩ := Option.isSome_iff_exists.mp found
  have worn : s.leastWorn d.val q := leastWorn_iff.mpr ⟨List.mem_of_find?_eq_some source, List.find?_some source⟩
  have ⟨_, _, _, _, held⟩ := worn
  obtain ⟨n, hn⟩ := Option.ne_none_iff_exists'.mp held
  refine ⟨q, n, worn, hn, ?_⟩
  rw [wearLevelMove_uneven h source, Option.elim_some, hn]

end

/-! #### Low space -/

section
variable {s : State}

/-- Usage has reached 99 % of USABLE_BYTES (R378). -/
abbrev State.spaceShort (s : State) : Prop := s.usableBytes * 99 ≤ s.mappedUnits * unitBytes * 100

/-- Usage is below 98 % of USABLE_BYTES (R378). -/
abbrev State.spaceAmple (s : State) : Prop := s.mappedUnits * unitBytes * 100 < s.usableBytes * 98

theorem lowSpaceEnter_enters (h : s.flash.lowSpace = false) (short : s.spaceShort) :
    exec .lowSpaceEnter s = .next (({ s with flash.lowSpace := true } : State).media 13 0) :=
  congrArg Host.Outcome.next (if_pos (Bool.and_eq_true_iff.mpr ⟨by rw [h]; rfl, decide_eq_true short⟩))

theorem lowSpaceEnter_rests (h : s.flash.lowSpace = true ∨ ¬s.spaceShort) : exec .lowSpaceEnter s = .next s := by
  refine congrArg Host.Outcome.next (if_neg ?_)
  rw [Bool.and_eq_true, decide_eq_true_eq, Bool.not_eq_true']
  rintro ⟨outside, short⟩
  exact h.elim (Bool.eq_false_iff.mp outside) fun h => h short

theorem lowSpaceExit_leaves (h : s.flash.lowSpace = true) (ample : s.spaceAmple) :
    exec .lowSpaceExit s = .next { s with flash.lowSpace := false } :=
  congrArg Host.Outcome.next (if_pos (Bool.and_eq_true_iff.mpr ⟨h, decide_eq_true ample⟩))

theorem lowSpaceExit_rests (h : s.flash.lowSpace = false ∨ ¬s.spaceAmple) : exec .lowSpaceExit s = .next s := by
  refine congrArg Host.Outcome.next (if_neg ?_)
  rw [Bool.and_eq_true, decide_eq_true_eq]
  rintro ⟨inside, ample⟩
  exact h.elim (fun h => Bool.eq_false_iff.mp h inside) fun h => h ample

end

/-! #### Dies and channels that fail -/

/-- A die that has failed: REBUILDING or FAILED (Table 15-12). -/
def State.dieOut (s : State) (d : Nat) : Prop := (s.die d).state = 1 ∨ (s.die d).state = 2

section
variable {s : State} {d x c : Nat} {l : List Nat}

/-- An ACTIVE die that fails is to be rebuilt or, with nothing mapped on it, is out of service (R382). -/
theorem failDie_active (h : (s.die d).state = 0) :
    s.failDie d = ((s.updDie d fun x => { x with state := if s.dieMapped d = 0 then 2 else 1 }).media 7 (quadKey d 0)).logUnit d :=
  if_pos (beq_iff_eq.mpr h)

theorem failDie_inactive (h : (s.die d).state ≠ 0) : s.failDie d = s := if_neg (mt beq_iff_eq.mp h)

/-- A failing die touches, in the flash, the dies and the media events alone. -/
theorem failDie_flash (d : Nat) (s : State) : ∃ t e, (s.failDie d).flash = { s.flash with dies := t, events := e } := by
  by_cases h : (s.die d).state = 0
  · rw [failDie_active h, logUnit_flash]
    exact ⟨_, _, rfl⟩
  · rw [failDie_inactive h]
    exact ⟨_, _, rfl⟩

theorem failDie_die (h : (s.die d).state = 0) (x : Nat) :
    (s.failDie d).die x = (s.updDie d fun x => { x with state := if s.dieMapped d = 0 then 2 else 1 }).die x := by
  rw [failDie_active h, State.die, logUnit_flash]
  rfl

/-- The state of an ACTIVE die that has just failed (R382). -/
theorem failDie_state (h : (s.die d).state = 0) : ((s.failDie d).die d).state = if s.dieMapped d = 0 then 2 else 1 := by
  rw [failDie_die h, updDie_die]

/-- A die that is not ACTIVE stays as it is when a die fails. -/
theorem failDie_keeps (h : (s.die x).state ≠ 0) : (s.failDie d).die x = s.die x := by
  by_cases hd : (s.die d).state = 0
  · have other : x ≠ d := fun same => h (same ▸ hd)
    rw [failDie_die hd, updDie_die_ne _ s other]
  · rw [failDie_inactive hd]

theorem failDie_ends (d : Nat) (s : State) : ((s.failDie d).die d).state ≠ 0 := by
  by_cases h : (s.die d).state = 0
  · rw [failDie_state h]
    split <;> decide
  · rwa [failDie_inactive h]

/-- A die that was in service or has failed before is out once it fails (R382). -/
theorem failDie_out (h : (s.die d).state ≤ 2) : (s.failDie d).dieOut d := by
  by_cases active : (s.die d).state = 0
  · rw [State.dieOut, failDie_state active]
    split
    · exact .inr rfl
    · exact .inl rfl
  · rw [failDie_inactive active, State.dieOut]
    omega

/-- Failing dies touch, in the flash, the dies and the media events alone. -/
theorem failDies_flash (l : List Nat) (s : State) : ∃ t e, (l.foldl (fun s d => s.failDie d) s).flash = { s.flash with dies := t, events := e } := by
  induction l generalizing s with
  | nil => exact ⟨_, _, rfl⟩
  | cons d l ih =>
    obtain ⟨t, e, first⟩ := failDie_flash d s
    obtain ⟨t', e', rest⟩ := ih (s.failDie d)
    exact ⟨t', e', by rw [List.foldl_cons, rest, first]⟩

theorem failDies_keeps (h : (s.die x).state ≠ 0) : (l.foldl (fun s d => s.failDie d) s).die x = s.die x := by
  induction l generalizing s with
  | nil => rfl
  | cons d l ih =>
    have kept : (s.failDie d).die x = s.die x := failDie_keeps h
    rw [List.foldl_cons, ih (kept ▸ h), kept]

/-- Each of the failing dies is ACTIVE no more. -/
theorem failDies_ends (h : x ∈ l) : ((l.foldl (fun s d => s.failDie d) s).die x).state ≠ 0 := by
  induction l generalizing s with
  | nil => cases h
  | cons d l ih =>
    rcases List.mem_cons.mp h with rfl | h
    · have ended := failDie_ends x s
      rwa [List.foldl_cons, failDies_keeps ended]
    · exact ih h

theorem failChannel_again (h : c ∈ s.flash.channelsFailed) : s.failChannel c = s := if_pos (List.contains_iff_mem.mpr h)

/-- A channel is noted as failed, with its media event, before its dies fail (R382). -/
def State.noteChannel (c : Nat) (s : State) : State :=
  ({ s with flash.channelsFailed := c :: s.flash.channelsFailed } : State).media 8 (quadKey (c * 16) 0)

/-- The dies of a channel. -/
def State.channelDies (c : Nat) (s : State) : List Nat := (List.range s.flash.perChannel).map (c * 16 + ·)

/-- A channel that fails takes its dies with it (R382). -/
theorem failChannel_first (h : c ∉ s.flash.channelsFailed) :
    s.failChannel c = ((s.channelDies c).foldl (fun s d => s.failDie d) (s.noteChannel c)).logUnit c :=
  if_neg (mt List.contains_iff_mem.mp h)

/-- The flash once a channel has failed: the dies, the channel and the media events have changed, and nothing else. -/
theorem failChannel_flash (h : c ∉ s.flash.channelsFailed) : ∃ t e, (s.failChannel c).flash =
    { s.flash with dies := t, events := e, channelsFailed := c :: s.flash.channelsFailed } := by
  obtain ⟨t, e, dies⟩ := failDies_flash (s.channelDies c) (s.noteChannel c)
  exact ⟨t, e, by rw [failChannel_first h, logUnit_flash, dies]; rfl⟩

theorem failChannel_map : (s.failChannel c).flash.map = s.flash.map := by
  by_cases h : c ∈ s.flash.channelsFailed
  · rw [failChannel_again h]
  · obtain ⟨t, e, flash⟩ := failChannel_flash h
    rw [flash]

theorem failChannel_keeps (h : (s.die x).state ≠ 0) : (s.failChannel c).die x = s.die x := by
  by_cases again : c ∈ s.flash.channelsFailed
  · rw [failChannel_again again]
  · rw [failChannel_first again, State.die, logUnit_flash]
    exact failDies_keeps (s := s.noteChannel c) h

/-- No die of a channel that fails is ACTIVE any more (R382). -/
theorem failChannel_ends (h : c ∉ s.flash.channelsFailed) {i : Nat} (hi : i < s.flash.perChannel) : ((s.failChannel c).die (c * 16 + i)).state ≠ 0 := by
  rw [failChannel_first h, State.die, logUnit_flash]
  exact failDies_ends (List.mem_map_of_mem (List.mem_range.mpr hi))

end

section
variable {s : State} {d : Fin 1024} {c : Fin 64}

/-- Every die of a die's channel is out (R382). -/
def State.channelOut (d : Nat) (s : State) : Prop := ∀ x ∈ s.positions, x / 16 = d / 16 → s.dieOut x

/-- The last die of its channel takes the channel with it (R382). -/
theorem dieFailed_last (h : (s.failDie d.val).dieOut d.val) (all : (s.failDie d.val).channelOut d.val) :
    exec (.dieFailed d) s = .next ((s.failDie d.val).failChannel (d.val / 16)) := by
  refine congrArg Host.Outcome.next ((if_pos ?_).trans (if_pos ?_))
  · simpa [State.dieOut] using h
  · rw [List.all_eq_true]
    intro x hx
    obtain ⟨hp, hc⟩ := List.mem_filter.mp hx
    simpa [State.dieOut] using all x hp (beq_iff_eq.mp hc)

theorem dieFailed_alone (h : (s.failDie d.val).dieOut d.val) (other : ∃ x ∈ (s.failDie d.val).positions, x / 16 = d.val / 16 ∧ ¬(s.failDie d.val).dieOut x) :
    exec (.dieFailed d) s = .next (s.failDie d.val) := by
  refine congrArg Host.Outcome.next ((if_pos ?_).trans (if_neg fun all => ?_))
  · simpa [State.dieOut] using h
  · obtain ⟨x, hp, hc, stands⟩ := other
    exact stands (by simpa [State.dieOut] using List.all_eq_true.mp all x (List.mem_filter.mpr ⟨hp, beq_iff_eq.mpr hc⟩))

/-- A position without a die, or whose die is not used, does not fail (R382). -/
theorem dieFailed_no_die (h : (s.die d.val).state = 3 ∨ (s.die d.val).state = 4) : exec (.dieFailed d) s = .next s := by
  have same : s.failDie d.val = s := failDie_inactive (by omega)
  refine congrArg Host.Outcome.next ((if_neg ?_).trans same)
  rw [same, Bool.or_eq_true, beq_iff_eq, beq_iff_eq]
  omega

/-- Whatever becomes of its channel, an ACTIVE die that fails takes the state that R382 gives it, and the map stays. -/
theorem dieFailed_active (h : (s.die d.val).state = 0) : ∃ u, exec (.dieFailed d) s = .next u ∧
    (u.die d.val).state = (if s.dieMapped d.val = 0 then 2 else 1) ∧ u.flash.map = s.flash.map := by
  have out : (s.failDie d.val).dieOut d.val := failDie_out (by omega)
  obtain ⟨t, e, flash⟩ := failDie_flash d.val s
  have map : (s.failDie d.val).flash.map = s.flash.map := by rw [flash]
  by_cases all : (s.failDie d.val).channelOut d.val
  · refine ⟨_, dieFailed_last out all, ?_, failChannel_map.trans map⟩
    rw [failChannel_keeps (failDie_ends d.val s), failDie_state h]
  · refine ⟨_, dieFailed_alone out ?_, failDie_state h, map⟩
    simpa [State.channelOut] using all

/-- CHANNEL_FAILED is its row of the table (R382). -/
theorem exec_channelFailed (c : Fin 64) (s : State) : exec (.channelFailed c) s = .next (s.failChannel c.val) := rfl

theorem channelFailed_again (h : c.val ∈ s.flash.channelsFailed) : exec (.channelFailed c) s = .next s :=
  (exec_channelFailed c s).trans (congrArg _ (failChannel_again h))

theorem failChannel_noted {c : Nat} (h : c ∉ s.flash.channelsFailed) : c ∈ (s.failChannel c).flash.channelsFailed := by
  obtain ⟨t, e, flash⟩ := failChannel_flash h
  rw [flash]
  exact List.mem_cons_self

/-- A rebuild ends when nothing is mapped on the die (R382). -/
theorem dieRebuildDone_ends (h : (s.die d.val).state = 1) (hm : s.dieMapped d.val = 0) :
    exec (.dieRebuildDone d) s = .next ((s.updDie d.val fun x => { x with state := 2 }).media 9 (quadKey d.val 0)) :=
  congrArg Host.Outcome.next (if_pos (by simp [h, hm]))

theorem dieRebuildDone_rests (h : (s.die d.val).state ≠ 1 ∨ s.dieMapped d.val ≠ 0) : exec (.dieRebuildDone d) s = .next s := by
  refine congrArg Host.Outcome.next (if_neg ?_)
  rw [Bool.and_eq_true, beq_iff_eq, beq_iff_eq]
  exact not_and_or.mpr h

end

/-! #### MEDIA_STATUS -/

section
variable {m : Mbx} {tag : Word} {f : Flight} {s : State}

/-- The checks of MEDIA_STATUS's fields: the page, and the reserved bytes (R390). -/
def Flight.mediaFields (f : Flight) : List (Nat × Bool) := [(0, decide (field f.plain 0 1 ≤ 2)), (1, zeroField f.plain 1 7)]

/-- What MEDIA_STATUS answers for a page (R390). -/
def State.mediaPage (f : Flight) (s : State) : Nat → State
  | 0 => s.answerEntries f (fun _ => []) [s.mediaSummary]
  | 1 => ({ s with free := s.free + 64 } : State).answerEntries f (fun n => leBytes 4 n ++ zeros 12)
      ((List.range 1024).map fun d => s.dieEntry d (Config.free (s.free + d / 16)))
  | _ => s.answerEntries f (fun n => leBytes 4 n ++ zeros 12) (s.flash.events.map mediaEntry)

/-- After its opening MEDIA_STATUS goes by its fields (R390). -/
theorem mediaStatus_row (ht : s.turn 0x7001 m tag f) (ho : f.opens 8 8) : exec (.mediaStatus m tag) s =
    .next (s.outcome f (fields f.mediaFields >>= fun _ => .ok (s.mediaPage f (field f.plain 0 1)))) := by
  refine congrArg _ ((start_outcome ht).trans (congrArg _ ?_))
  rw [opening_ok ho, ok_bind]
  refine congrArg _ (funext fun _ => ?_)
  split
  · next page => rw [page]; rfl
  · next page => rw [page]; rfl
  · next h0 h1 =>
    unfold State.mediaPage
    split
    · exact absurd ‹_› h0
    · exact absurd ‹_› h1
    · rfl

theorem mediaStatus_page (ht : s.turn 0x7001 m tag f) (ho : f.opens 8 8) (hp : field f.plain 0 1 ≤ 2) (hz : zeroField f.plain 1 7 = true) :
    exec (.mediaStatus m tag) s = .next (s.mediaPage f (field f.plain 0 1)) := by
  rw [mediaStatus_row ht ho, Flight.mediaFields, hz, decide_eq_true hp, fields_cons, fields_cons, fields_nil, ok_bind, State.outcome]

theorem mediaStatus_reserved (ht : s.turn 0x7001 m tag f) (ho : f.opens 8 8) (hp : field f.plain 0 1 ≤ 2) (hz : zeroField f.plain 1 7 = false) :
    exec (.mediaStatus m tag) s = .next (s.answerDetail f (bad 0x21)) := by
  rw [mediaStatus_row ht ho, Flight.mediaFields, hz, decide_eq_true hp, fields_cons]
  rfl

theorem mediaStatus_no_page (ht : s.turn 0x7001 m tag f) (ho : f.opens 8 8) (hp : 3 ≤ field f.plain 0 1) :
    exec (.mediaStatus m tag) s = .next (s.answerDetail f (bad 0x20)) := by
  rw [mediaStatus_row ht ho, Flight.mediaFields, decide_eq_false (Nat.not_le.mpr hp)]
  rfl

end

/-! #### The obligation -/

/-- Settles O49: GC and a wear move choose their bands, each threshold is reached or not, a die falls alone or with its channel, and a page is given or refused. -/
theorem flashCare : Obligations.FlashCare := by
  unfold Obligations.FlashCare
  intro m tag f s q
  refine ⟨fun hv hf hs => gcStart_begins (gcDue_iff.mpr ⟨hv, hf, hs⟩), ?gcRests, fun hp hr hd => ?refresh, quadBlockRefresh_rests, refreshDue_iff, fun d => ?wear,
    fun w => ⟨fun hp ht => flashPatrol_reads (patrolDue_iff.mpr ⟨hp, ht⟩), flashPatrol_rests⟩, ⟨lowSpaceEnter_enters, ?enterRests, lowSpaceExit_leaves, ?exitRests⟩,
    fun d => dieFailed_active, fun d => ⟨failDie_active, failDie_inactive⟩, fun d => ⟨dieFailed_last, dieFailed_alone, failDie_out⟩, fun d => dieFailed_no_die,
    fun c => ⟨channelFailed_again, fun h => ⟨_, exec_channelFailed c s, failChannel_noted h, failChannel_map, fun i => failChannel_ends h⟩⟩,
    fun d => ⟨dieRebuildDone_ends, dieRebuildDone_rests⟩, mediaStatus_reserved, mediaStatus_no_page, fun ht ho hz => ?page⟩
  case gcRests =>
    rintro (h | h | h | h)
    · exact gcStart_not_due (gcDue_eq_false (.inl h))
    · exact gcStart_not_due (gcDue_eq_false (.inr (.inl h)))
    · exact gcStart_not_due (gcDue_eq_false (.inr (.inr h)))
    · exact gcStart_all_open h
  case refresh =>
    have marked : ((s.beginRefresh q).quad q).refreshing = true := congrArg QuadBlock.refreshing beginRefresh_quad
    exact ⟨_, quadBlockRefresh_begins (refreshes_iff.mpr ⟨hp, hr, hd⟩), marked, rfl, quadBlockRefresh_rests (.inr (.inr marked))⟩
  case wear =>
    exact ⟨fun even => wearLevelMove_even (Nat.not_lt.mpr even), fun uneven => ⟨wearLevelMove_no_source uneven, wearLevelMove_moves uneven⟩⟩
  case enterRests => exact fun h => lowSpaceEnter_rests (h.imp_right Nat.not_le.mpr)
  case exitRests => exact fun h => lowSpaceExit_rests (h.imp_right Nat.not_lt.mpr)
  case page =>
    have given {n : Nat} (hn : n ≤ 2) (hp : field f.plain 0 1 = n) : exec (.mediaStatus m tag) s = .next (s.mediaPage f n) :=
      hp ▸ mediaStatus_page ht ho (hp ▸ hn) hz
    exact ⟨given (by decide), given (by decide), given (by decide)⟩

end Sys2Proof.Machine

/-! ### Proofs: what every command keeps (O1, O3, O4, O5, O6, O7) -/

namespace Sys2Proof.Machine

/-- No row but the power rows touches the queue, the clock, power, the governor or the pins: each row by its own law. -/
theorem exec_still (c : Instr) (s t : State) (hc : powerRow c = false) (h : exec c s = .next t) : t.still = s.still := by
  cases c with
  | bar0AccessViolation => exact execBar0AccessViolation_still _ _ _ s t h
  | registerWrite => exact execRegisterWrite_still _ _ _ s t h
  | doorbellWrite => exact execDoorbellWrite_still _ _ s t h
  | mbxEnable => exact execMbxEnable_still _ _ s t h
  | mbxDisable => exact execMbxDisable_still _ _ s t h
  | mbxCtrlReset => exact execMbxCtrlReset_still _ s t h
  | mbxResetComplete => exact execMbxResetComplete_still _ s t h
  | irqRearm => exact execIrqRearm_still _ s t h
  | rspConsWrite => exact execRspConsWrite_still _ _ s t h
  | streamConsWrite => exact execStreamConsWrite_still _ _ s t h
  | piwOverrunClear => exact execPiwOverrunClear_still _ s t h
  | piwCtrlFlush => exact execPiwCtrlFlush_still _ s t h
  | piwFlushComplete => exact execPiwFlushComplete_still _ s t h
  | piwDataWrite => exact execPiwDataWrite_still _ _ _ s t h
  | piwSlotWrite => exact execPiwSlotWrite_still _ _ s t h
  | piwPacketTimeout => exact execPiwPacketTimeout_still _ s t h
  | piwPacketAdmit => exact execPiwPacketAdmit_still _ _ _ s t h
  | mailboxTurn => exact execMailboxTurn_still _ s t h
  | incompletePacket => exact execIncompletePacket_still _ s t h
  | admissionResume => exact execAdmissionResume_still _ s t h
  | responseWrite => exact execResponseWrite_still _ _ s t h
  | irqModTimer => exact execIrqModTimer_still _ s t h
  | streamRecordWrite => exact execStreamRecordWrite_still _ s t h
  | streamWaitTimeout => exact execStreamWaitTimeout_still _ s t h
  | streamAbortRecord => exact execStreamAbortRecord_still _ s t h
  | identify => exact execIdentify_still _ _ s t h
  | getStatus => exact execGetStatus_still _ _ s t h
  | nop => exact execNop_still _ _ s t h
  | tenantConfigure => exact execTenantConfigure_still _ _ s t h
  | tenantDisable => exact execTenantDisable_still _ _ s t h
  | streamOpen => exact execStreamOpen_still _ _ s t h
  | streamClose => exact execStreamClose_still _ _ s t h
  | stopCommand => exact execStopCommand_still _ _ s t h
  | piwBind => exact execPiwBind_still _ _ s t h
  | piwUnbind => exact execPiwUnbind_still _ _ s t h
  | getCertificates => exact execGetCertificates_still _ _ s t h
  | keyImport => exact execKeyImport_still _ _ _ s t h
  | sessionOpen => exact execSessionOpen_still _ _ _ s t h
  | sessionClose => exact execSessionClose_still _ _ s t h
  | keyRotate => exact execKeyRotate_still _ _ s t h
  | keyZeroise => exact execKeyZeroise_still _ _ s t h
  | zeroiseFillDone => exact execZeroiseFillDone_still _ _ s t h
  | collectionCreate => exact execCollectionCreate_still _ _ s t h
  | collectionDrop => exact execCollectionDrop_still _ _ s t h
  | collectionDropComplete => exact execCollectionDropComplete_still _ s t h
  | collectionDescribe => exact execCollectionDescribe_still _ _ s t h
  | insertVectors => exact execInsertVectors_still _ _ s t h
  | insertText => exact execInsertText_still _ _ s t h
  | upsertVectors => exact execUpsertVectors_still _ _ s t h
  | upsertText => exact execUpsertText_still _ _ s t h
  | deleteItems => exact execDeleteItems_still _ _ s t h
  | deleteByFilter => exact execDeleteByFilter_still _ _ s t h
  | operationAck => exact execOperationAck_still _ _ _ s t h
  | operationApply => exact execOperationApply_still _ _ s t h
  | commitPublish => exact execCommitPublish_still _ s t h
  | encoderBatchClose => exact execEncoderBatchClose_still s t h
  | commitWait => exact execCommitWait_still _ _ s t h
  | commitWaitComplete => exact execCommitWaitComplete_still _ _ s t h
  | segmentSeal => exact execSegmentSeal_still _ _ s t h
  | segmentSealTrigger => exact execSegmentSealTrigger_still _ _ s t h
  | segmentSealed => exact execSegmentSealed_still _ _ _ s t h
  | segmentRetire => exact execSegmentRetire_still _ _ s t h
  | tombstoneMaterialised => exact execTombstoneMaterialised_still _ _ s t h
  | compact => exact execCompact_still _ _ s t h
  | autoCompactionStart => exact execAutoCompactionStart_still _ s t h
  | compactionListSwitch => exact execCompactionListSwitch_still _ _ s t h
  | getItems => exact execGetItems_still _ _ s t h
  | rebalancePublish => exact execRebalancePublish_still _ s t h
  | legacyRedistributeDone => exact execLegacyRedistributeDone_still _ _ s t h
  | mapRunRepair => exact execMapRunRepair_still _ _ _ s t h
  | collectionRebuild => exact execCollectionRebuild_still _ s t h
  | collectionRebuildDone => exact execCollectionRebuildDone_still _ s t h
  | search => exact execSearch_still _ _ s t h
  | searchRerank => exact execSearchRerank_still _ _ s t h
  | searchBatch => exact execSearchBatch_still _ _ s t h
  | refinePrefetch => exact execRefinePrefetch_still _ _ s t h
  | speculationSquash => exact execSpeculationSquash_still _ _ s t h
  | commandDeadlineExpire => exact execCommandDeadlineExpire_still _ _ s t h
  | subqueryHedge => exact execSubqueryHedge_still _ _ _ _ s t h
  | refineReadHedge => exact execRefineReadHedge_still _ _ _ s t h
  | selectTopk => exact execSelectTopk_still _ _ s t h
  | mergePartial => exact execMergePartial_still _ _ s t h
  | gateCompaction => exact execGateCompaction_still _ _ s t h
  | scanJob => exact execScanJob_still _ s t h
  | scanJobComplete => exact execScanJobComplete_still _ s t h
  | thresholdUpdate => exact execThresholdUpdate_still _ _ _ s t h
  | nbuMarkWrite => exact execNbuMarkWrite_still _ _ _ _ s t h
  | granuleUncorrectable => exact execGranuleUncorrectable_still _ _ _ _ s t h
  | extentRebuildDone => exact execExtentRebuildDone_still _ _ _ _ s t h
  | runRetire => exact execRunRetire_still _ _ s t h
  | patrolScrub => exact execPatrolScrub_still _ _ _ s t h
  | nbuFailed => exact execNbuFailed_still _ s t h
  | pseudoChannelOffline => exact execPseudoChannelOffline_still _ s t h
  | nbuDiagRead => exact execNbuDiagRead_still _ _ s t h
  | modelLoad => exact execModelLoad_still _ _ s t h
  | modelLoadCommitDone => exact execModelLoadCommitDone_still _ s t h
  | loadIdleTimeout => exact execLoadIdleTimeout_still _ s t h
  | modelRetire => exact execModelRetire_still _ _ s t h
  | placementLoad => exact execPlacementLoad_still _ _ s t h
  | placementInForce => exact execPlacementInForce_still s t h
  | encode => exact execEncode_still _ _ s t h
  | scorePairs => exact execScorePairs_still _ _ s t h
  | generate => exact execGenerate_still _ _ s t h
  | generateTokenStep => exact execGenerateTokenStep_still _ _ s t h
  | vocabLoad => exact execVocabLoad_still _ _ s t h
  | vocabRetire => exact execVocabRetire_still _ _ s t h
  | tokenize => exact execTokenize_still _ _ s t h
  | tokenizeContextExpire => exact execTokenizeContextExpire_still _ s t h
  | detokenize => exact execDetokenize_still _ _ s t h
  | grammarLoad => exact execGrammarLoad_still _ _ s t h
  | grammarRetire => exact execGrammarRetire_still _ _ s t h
  | tableCreate => exact execTableCreate_still _ _ s t h
  | tableDrop => exact execTableDrop_still _ _ s t h
  | tableLookup => exact execTableLookup_still _ _ s t h
  | tableUpdate => exact execTableUpdate_still _ _ s t h
  | tableRebalance => exact execTableRebalance_still _ _ s t h
  | tableStepClose => exact execTableStepClose_still _ s t h
  | tableBlockMigrate => exact execTableBlockMigrate_still _ s t h
  | tablePrefetch => exact execTablePrefetch_still _ _ s t h
  | tablePrefetchExpire => exact execTablePrefetchExpire_still _ _ s t h
  | fabricStatus => exact execFabricStatus_still _ _ s t h
  | routeLoad => exact execRouteLoad_still _ _ s t h
  | routeActivate => exact execRouteActivate_still s t h
  | gateListLoad => exact execGateListLoad_still _ _ s t h
  | gateListActivate => exact execGateListActivate_still _ s t h
  | partitionSet => exact execPartitionSet_still _ _ _ s t h
  | fenceSet => exact execFenceSet_still _ _ s t h
  | compositionJoin => exact execCompositionJoin_still _ _ _ s t h
  | compositionJoinTimeout => exact execCompositionJoinTimeout_still _ _ s t h
  | compositionLeave => exact execCompositionLeave_still _ _ s t h
  | replicaSet => exact execReplicaSet_still _ _ _ s t h
  | mediaStatus => exact execMediaStatus_still _ _ s t h
  | hostRegionGrant => exact execHostRegionGrant_still _ _ s t h
  | hostRegionRevoke => exact execHostRegionRevoke_still _ _ s t h
  | hostRegionFailed => exact execHostRegionFailed_still _ _ s t h
  | hostCacheFill => exact execHostCacheFill_still _ _ _ _ s t h
  | meterRead => exact execMeterRead_still _ _ s t h
  | meterReadAll => exact execMeterReadAll_still _ _ s t h
  | logRead => exact execLogRead_still _ _ s t h
  | diagRun => exact execDiagRun_still _ _ _ _ _ s t h
  | logIntervalEnd => exact execLogIntervalEnd_still s t h
  | lowerTierLate => exact execLowerTierLate_still _ _ _ s t h
  | hostTierReadComplete => exact execHostTierReadComplete_still _ _ _ _ s t h
  | flashReadComplete => exact execFlashReadComplete_still _ _ _ _ _ _ s t h
  | flashProgramComplete => exact execFlashProgramComplete_still _ _ _ _ _ s t h
  | programFail => exact execProgramFail_still _ _ _ _ s t h
  | eraseFail => exact execEraseFail_still _ s t h
  | quadBlockErase => exact execQuadBlockErase_still _ s t h
  | journalSectorProgram => exact execJournalSectorProgram_still _ s t h
  | checkpointStart => exact execCheckpointStart_still s t h
  | checkpointComplete => exact execCheckpointComplete_still s t h
  | mapPageEvict => exact execMapPageEvict_still s t h
  | gcStart => exact execGcStart_still s t h
  | quadBlockRefresh => exact execQuadBlockRefresh_still _ s t h
  | wearLevelMove => exact execWearLevelMove_still _ s t h
  | flashPatrol => exact execFlashPatrol_still _ _ s t h
  | lowSpaceEnter => exact execLowSpaceEnter_still s t h
  | lowSpaceExit => exact execLowSpaceExit_still s t h
  | dieFailed => exact execDieFailed_still _ s t h
  | channelFailed => exact execChannelFailed_still _ s t h
  | dieRebuildDone => exact execDieRebuildDone_still _ s t h
  | sharedPublish => exact execSharedPublish_still _ _ s t h
  | leaseRenew => exact execLeaseRenew_still _ s t h
  | leaseExpire => exact execLeaseExpire_still _ s t h
  | tileFailed => exact execTileFailed_still _ _ s t h
  | tileRetire => exact execTileRetire_still _ s t h
  | spareSubstituted => exact execSpareSubstituted_still _ s t h
  | crewForm => exact execCrewForm_still _ s t h
  | crewQueueTimeout => exact execCrewQueueTimeout_still _ s t h
  | workSteal => exact execWorkSteal_still _ _ _ s t h
  | slowMember => exact execSlowMember_still _ _ _ s t h
  | suspectTile => exact execSuspectTile_still _ s t h
  | flitRetryExhausted => exact execFlitRetryExhausted_still _ _ s t h
  | bridgeReroute => exact execBridgeReroute_still _ s t h
  | i3cStatus => exact execI3cStatus_still s t h
  | spdmGetVersion => exact execSpdmGetVersion_still _ s t h
  | spdmGetCapabilities tr flags => exact execSpdmGetCapabilities_still tr flags s t h
  | spdmNegotiateAlgorithms => exact execSpdmNegotiateAlgorithms_still _ _ s t h
  | spdmGetDigests => exact execSpdmGetDigests_still _ s t h
  | spdmGetCertificate => exact execSpdmGetCertificate_still _ _ _ _ s t h
  | spdmChallenge => exact execSpdmChallenge_still _ _ _ s t h
  | spdmGetMeasurements => exact execSpdmGetMeasurements_still _ _ _ _ s t h
  | spdmKeyExchange => exact execSpdmKeyExchange_still _ _ _ s t h
  | spdmFinish => exact execSpdmFinish_still _ _ _ s t h
  | spdmHeartbeat => exact execSpdmHeartbeat_still _ s t h
  | spdmKeyUpdate => exact execSpdmKeyUpdate_still _ _ s t h
  | spdmEndSession => exact execSpdmEndSession_still _ s t h
  | spdmSetCertificate => exact execSpdmSetCertificate_still _ _ _ _ s t h
  | spdmChunkSend => exact execSpdmChunkSend_still _ _ _ _ s t h
  | spdmChunkGet => exact execSpdmChunkGet_still _ _ s t h
  | spdmUnsupportedRequest => exact execSpdmUnsupportedRequest_still _ _ s t h
  | jtagInstruction => exact execJtagInstruction_still _ s t h
  | mgmtRecordPacket => exact execMgmtRecordPacket_still _ _ _ s t h
  | mgmtRecordSpdm => exact execMgmtRecordSpdm_still _ _ _ s t h
  | mgmtKeepalive => exact execMgmtKeepalive_still _ _ s t h
  | mgmtConnectionTimeout => exact execMgmtConnectionTimeout_still _ s t h
  | mgmtResponseDiscard => exact execMgmtResponseDiscard_still _ s t h
  | portTraining => exact execPortTraining_still _ _ s t h
  | portRetrainTimer => exact execPortRetrainTimer_still _ s t h
  | heldRetryTimer => exact execHeldRetryTimer_still _ s t h
  | hello => exact execHello_still s t h
  | identity => exact execIdentity_still _ s t h
  | kex => exact execKex_still s t h
  | kexConfirm => exact execKexConfirm_still _ s t h
  | linkRekey => exact execLinkRekey_still _ s t h
  | linkFrameReceive => exact execLinkFrameReceive_still _ _ _ _ s t h
  | retryReq => exact execRetryReq_still _ _ _ s t h
  | linkAckTimeout => exact execLinkAckTimeout_still _ s t h
  | portMarginal => exact execPortMarginal_still _ s t h
  | packetForward => exact execPacketForward_still _ s t h
  | packetAged => exact execPacketAged_still _ _ s t h
  | egressTurn => exact execEgressTurn_still _ s t h
  | reassemblyTimeout => exact execReassemblyTimeout_still _ _ s t h
  | messageReceive => exact execMessageReceive_still _ s t h
  | protocolViolationHold => exact execProtocolViolationHold_still _ s t h
  | unreachable => exact execUnreachable_still s t h
  | time => exact execTime_still _ s t h
  | timeHoldover => exact execTimeHoldover_still s t h
  | subquery => exact execSubquery_still s t h
  | admitNotice => exact execAdmitNotice_still s t h
  | partialList => exact execPartialList_still s t h
  | cancel => exact execCancel_still s t h
  | hedgeRead => exact execHedgeRead_still _ s t h
  | hedgeData => exact execHedgeData_still s t h
  | hedgeBindTimeout => exact execHedgeBindTimeout_still _ _ s t h
  | logRecord => exact execLogRecord_still s t h
  | logConfirm => exact execLogConfirm_still s t h
  | logRecordResend => exact execLogRecordResend_still _ _ _ s t h
  | logRelease => exact execLogRelease_still s t h
  | logFetch => exact execLogFetch_still s t h
  | fetchData => exact execFetchData_still s t h
  | replicaOp => exact execReplicaOp_still _ s t h
  | replicaPromote => exact execReplicaPromote_still _ _ _ _ s t h
  | tableOp => exact execTableOp_still s t h
  | tableBlock => exact execTableBlock_still s t h
  | sharedRead => exact execSharedRead_still s t h
  | sharedData => exact execSharedData_still _ s t h
  | lease => exact execLease_still s t h
  | collDown => exact execCollDown_still s t h
  | collUp => exact execCollUp_still s t h
  | heartbeatTick => exact execHeartbeatTick_still _ s t h
  | memberLost => exact execMemberLost_still _ _ s t h
  | probeTimeout => exact execProbeTimeout_still _ _ s t h
  | coordinatorTakeover => exact execCoordinatorTakeover_still _ s t h
  | selfFence => exact execSelfFence_still _ s t h
  | composition => exact execComposition_still s t h
  | suspectMember => exact execSuspectMember_still _ _ _ s t h
  | streamIrqTimer => exact execStreamIrqTimer_still _ s t h
  | suspectTileExpire => exact execSuspectTileExpire_still _ s t h
  | tableDropTimeout => exact execTableDropTimeout_still _ s t h
  | replicaFallsBehind => exact execReplicaFallsBehind_still _ _ s t h
  | forwardingRecordRelease => exact execForwardingRecordRelease_still _ _ _ s t h
  | modelWeightRunRepaired => exact execModelWeightRunRepaired_still _ _ _ _ s t h
  | portLaneLoss => exact execPortLaneLoss_still _ s t h
  | discoveryMessageRetry => exact execDiscoveryMessageRetry_still _ s t h
  | mgmtPortLinkLoss => exact execMgmtPortLinkLoss_still _ s t h
  | mgmtConnectionOpen => exact execMgmtConnectionOpen_still _ s t h
  | mgmtConnectionClose => exact execMgmtConnectionClose_still _ s t h
  | setProfile | profileSwitch | setSeason | governorTick | limiterEvent | thermalTrip | holdupWarnAssert | inputUndervoltage | inputOvervoltage |
    powerLossFlush | flushEnd | resetRelease | resetNAssert | resetNDeassert | springBringUp | drainComplete | winterEntry | wake | wakeComplete |
    mctpControlMessage | perstNAssert | perstNDeassert | flashPgLow | flashPgHigh | sysRefclkLoss | fabRefclkLoss | pcieRefclkLoss | timeFirstLock |
    fabRefclkRestore | thermSbLoss | i3cDynamicAddressAssign | coldPowerUp => cases hc

/-- Every row but COLD_POWER_UP keeps the queue, the clock and lawfulness, and moves the season by the table: a row that is no power row touches none of
it, and each power row has its own law. -/
theorem exec_sound (c : Instr) (s t : State) (hc : ∀ v, c ≠ .coldPowerUp v) (h : exec c s = .next t) : Sound s.still t.still := by
  by_cases hp : powerRow c = false
  · exact (Same.of_eq (exec_still c s t hp h)).sound
  cases c with
  | coldPowerUp v => exact absurd rfl (hc v)
  | setProfile => exact execSetProfile_sound _ _ s t h
  | profileSwitch => exact execProfileSwitch_sound s t h
  | setSeason => exact execSetSeason_sound _ _ s t h
  | governorTick => exact execGovernorTick_sound _ s t h
  | limiterEvent => exact execLimiterEvent_sound _ _ s t h
  | thermalTrip => exact execThermalTrip_sound _ s t h
  | holdupWarnAssert => exact execHoldupWarnAssert_sound _ s t h
  | inputUndervoltage => exact execInputUndervoltage_sound _ s t h
  | inputOvervoltage => exact execInputOvervoltage_sound _ s t h
  | powerLossFlush => exact execPowerLossFlush_sound _ s t h
  | flushEnd => exact execFlushEnd_sound s t h
  | resetRelease => exact execResetRelease_sound _ _ _ _ s t h
  | resetNAssert => exact execResetNAssert_sound _ _ s t h
  | resetNDeassert => exact execResetNDeassert_sound _ s t h
  | springBringUp => exact execSpringBringUp_sound _ _ s t h
  | drainComplete => exact execDrainComplete_sound s t h
  | winterEntry => exact execWinterEntry_sound s t h
  | wake => exact execWake_sound s t h
  | wakeComplete => exact execWakeComplete_sound s t h
  | mctpControlMessage => exact execMctpControlMessage_sound _ s t h
  | perstNAssert => exact execPerstNAssert_sound s t h
  | perstNDeassert => exact execPerstNDeassert_sound s t h
  | flashPgLow => exact execFlashPgLow_sound _ s t h
  | flashPgHigh => exact execFlashPgHigh_sound s t h
  | sysRefclkLoss => exact execSysRefclkLoss_sound _ s t h
  | fabRefclkLoss => exact execFabRefclkLoss_sound _ s t h
  | pcieRefclkLoss => exact execPcieRefclkLoss_sound s t h
  | timeFirstLock => exact execTimeFirstLock_sound s t h
  | fabRefclkRestore => exact execFabRefclkRestore_sound _ s t h
  | thermSbLoss => exact execThermSbLoss_sound s t h
  | i3cDynamicAddressAssign => exact execI3cDynamicAddressAssign_sound _ s t h
  | _ => exact absurd rfl hp

/-- COLD_POWER_UP holds the module in reset, or leaves it as it is. -/
theorem execColdPowerUp_season (v : Nat) (s t : State) (h : execColdPowerUp v s = .next t) :
    t.power.season = s.power.season ∨ t.power.season = .heldInReset := by
  simp only [execColdPowerUp, Host.Outcome.next.injEq] at h
  subst h
  split
  · exact .inl rfl
  · exact .inr rfl

theorem exec_pending (c : Instr) (s t : State) (h : exec c s = .next t) : t.pending = s.pending ∧ t.clock = s.clock := by
  by_cases hc : ∃ v, c = .coldPowerUp v
  · obtain ⟨v, rfl⟩ := hc
    exact execColdPowerUp_pending v s t h
  · have k := exec_sound c s t (fun v e => hc ⟨v, e⟩) h
    exact ⟨k.1, k.2.1⟩

theorem exec_lawful (c : Instr) (s t : State) (g : s.lawful) (h : exec c s = .next t) : t.lawful := by
  by_cases hc : ∃ v, c = .coldPowerUp v
  · obtain ⟨v, rfl⟩ := hc
    exact execColdPowerUp_lawful v s t h g
  · exact (exec_sound c s t (fun v e => hc ⟨v, e⟩) h).2.2.1 g

/-- Settles O1: by the definition of a step. -/
theorem stepRunsTheFrontCommand : Obligations.StepRunsTheFrontCommand := by
  refine ⟨fun c rest s => rfl, fun s h => ?_⟩
  simp only [step, h, State.tick]

/-- Settles O3: every row keeps the queue and the clock, COLD_POWER_UP by its own law. -/
theorem commandsKeepTheQueueAndTheClock : Obligations.CommandsKeepTheQueueAndTheClock := exec_pending

/-- Settles O4: a row that is no power row keeps everything that `State.still` gives. -/
theorem onlyPowerRowsTouchPower : Obligations.OnlyPowerRowsTouchPower := by
  intro c s t hc h
  have e := exec_still c s t hc h
  simp only [State.still, Prod.mk.injEq] at e
  obtain ⟨-, -, hpower, hgovernor, hpins⟩ := e
  exact ⟨hpower, hgovernor, hpins⟩

/-- Settles O5: the reset governor is within every profile's tables, and nothing runs. -/
theorem resetIsLawful : Obligations.ResetIsLawful :=
  ⟨reset_within _, Power.coherent_idle rfl rfl rfl rfl nofun⟩

/-- Settles O6: an idle step touches neither power nor the governor, and every row keeps a lawful state lawful. -/
theorem stepsKeepTheStateLawful : Obligations.StepsKeepTheStateLawful := by
  intro s t hs h
  unfold step at h
  split at h
  next => cases h; exact hs
  next c rest _ => exact exec_lawful c { s with pending := rest } t hs h

/-- Settles O7: from a coherent state every row makes a move of the table or none; COLD_POWER_UP holds the module in reset. -/
theorem seasonsMoveByTheTable : Obligations.SeasonsMoveByTheTable := by
  intro c s t hs h
  by_cases hc : ∃ v, c = .coldPowerUp v
  · obtain ⟨v, rfl⟩ := hc
    exact (execColdPowerUp_season v s t h).imp_right fun k => .inr ⟨⟨v, rfl⟩, k⟩
  · exact ((exec_sound c s t (fun v e => hc ⟨v, e⟩) h).2.2.2 hs.2).imp_right .inl

end Sys2Proof.Machine

/-! ### Proofs: the management ports (O58) -/

namespace Sys2Proof.Machine

theorem log_host (e : LogEntry) (s : State) : (s.log e).host = s.host := by
  obtain ⟨t, ht⟩ := log_tenants_only e s
  rw [ht]

section
variable {p : Fin 2} {s : State}

theorem updPort_port (g : MgmtPort → MgmtPort) (h : s.host.ports.length = 2) : (s.updPort p g).port p = g (s.port p) := by
  have hp : p.val < s.host.ports.length := by rw [h]; exact p.isLt
  simp [State.port, State.updPort, List.getD_eq_getElem?_getD, hp]

theorem updPort_port_ne (g : MgmtPort → MgmtPort) {q : Fin 2} (h : q ≠ p) : (s.updPort p g).port q = s.port q := by
  have hq : p.val ≠ q.val := fun e => h (Fin.ext e.symm)
  simp [State.port, State.updPort, List.getD_eq_getElem?_getD, hq]

/-! #### Connections -/

/-- MGMT_CONNECTION_OPEN of an enabled port without a connection opens one (R442). -/
theorem mgmtConnectionOpen_opens (h : s.portUp p = true) (hc : (s.port p).connected = false) : exec (.mgmtConnectionOpen p) s =
    .next (s.updPort p fun x => { x with link := true, connected := true, lastRx := s.clock, lastTx := s.clock }) :=
  congrArg Host.Outcome.next (if_pos (by rw [h, hc]; rfl))

theorem mgmtConnectionOpen_not (h : s.portUp p = false ∨ (s.port p).connected = true) : exec (.mgmtConnectionOpen p) s = .next s := by
  refine congrArg Host.Outcome.next (if_neg ?_)
  rcases h with h | h <;> simp [h]

/-- MGMT_CONNECTION_CLOSE is its row of the table (R443). -/
theorem exec_mgmtConnectionClose (p : Fin 2) (s : State) : exec (.mgmtConnectionClose p) s = .next (s.closePort p) := rfl

theorem mgmtPortLinkLoss_lost (h : (s.port p).link = true) : exec (.mgmtPortLinkLoss p) s =
    .next ((s.updPort p fun x => { x with link := false, connected := false }).logUnit p) :=
  congrArg Host.Outcome.next (if_pos h)

theorem mgmtPortLinkLoss_not (h : (s.port p).link = false) : exec (.mgmtPortLinkLoss p) s = .next s :=
  congrArg Host.Outcome.next (if_neg (by simp [h]))

/-- Five seconds without a record close the connection (R442). -/
theorem mgmtConnectionTimeout_closes (hc : (s.port p).connected = true) (ht : (s.port p).lastRx + 5000000000 ≤ s.clock) :
    exec (.mgmtConnectionTimeout p) s = exec (.mgmtConnectionClose p) s :=
  congrArg Host.Outcome.next (if_pos (by rw [hc, decide_eq_true ht]; rfl))

theorem mgmtConnectionTimeout_not (h : (s.port p).connected = false ∨ s.clock < (s.port p).lastRx + 5000000000) :
    exec (.mgmtConnectionTimeout p) s = .next s := by
  refine congrArg Host.Outcome.next (if_neg ?_)
  rcases h with h | h
  · simp [h]
  · simp [Nat.not_le.mpr h]

/-! #### Records -/

/-- What a record is taken into: the port has just received one. -/
def State.portHeard (p : Nat) (s : State) : State := s.updPort p fun x => { x with lastRx := s.clock }

/-- The port takes records: it is enabled and has a connection. -/
def State.portTakes (p : Nat) (s : State) : Bool := s.portUp p && (s.port p).connected

theorem portTakes_eq_false (h : s.portUp p = false ∨ (s.port p).connected = false) : s.portTakes p = false := by
  rcases h with h | h <;> simp [State.portTakes, h]

/-- Records that come without a connection are not taken (R442). -/
theorem mgmtRecord_unconnected (h : s.portTakes p = false) : (∀ n k, exec (.mgmtRecordPacket p n k) s = .next s) ∧
    (∀ n b, exec (.mgmtRecordSpdm p n b) s = .next s) ∧ ∀ b, exec (.mgmtKeepalive p b) s = .next s :=
  ⟨fun _ _ => congrArg Host.Outcome.next (if_neg (Bool.eq_false_iff.mp h)), fun _ _ => congrArg Host.Outcome.next (if_neg (Bool.eq_false_iff.mp h)),
    fun _ => congrArg Host.Outcome.next (if_neg (Bool.eq_false_iff.mp h))⟩

/-- A KIND 2 record has the length of its message, or breaks the framing (R442). -/
theorem mgmtRecordSpdm_row (h : s.portTakes p = true) (n : Nat) (b : Bytes) :
    exec (.mgmtRecordSpdm p n b) s = .next (if n ≠ b.length then s.breakFraming p else s.portHeard p) :=
  congrArg Host.Outcome.next (if_pos h)

/-- A KIND 3 record is received. -/
theorem mgmtKeepalive_received (h : s.portTakes p = true) : exec (.mgmtKeepalive p true) s = .next (s.portHeard p) :=
  congrArg Host.Outcome.next (if_pos h)

/-- A KIND 3 record goes out after a second without one (R442). -/
theorem mgmtKeepalive_sends (h : s.portTakes p = true) : exec (.mgmtKeepalive p false) s = .next (
    if (s.port p).lastTx + 1000000000 ≤ s.clock then (s.updPort p fun x => { x with lastTx := s.clock }).emit (.keepalive p) else s) :=
  congrArg Host.Outcome.next ((if_pos h).trans (if_neg Bool.false_ne_true))

/-- A KIND 1 record has the length of its packet, or breaks the framing; the packet's header is then checked, and the packet judged as on a ring (R442). -/
theorem mgmtRecordPacket_row (h : s.portTakes p = true) (n : Nat) (k : Packet) : exec (.mgmtRecordPacket p n k) s = .next (
    let e := parseHeader k.header
    if decide (e.length.toNat > 16777216) || decide (n ≠ 64 * packetSlots e.length.toNat) then (s.portHeard p).breakFraming p
    else if headerCrc k.header != e.crc then (s.portHeard p).refuse 4096 (.port p) { e with opcode := 0 } (violation 0x14 .hdrCrc)
    else match (s.portHeard p).submit 4096 (.port p) e k s.clock with
      | .wait s => s
      | .taken s => s) :=
  congrArg Host.Outcome.next (if_pos h)

/-- A record that breaks the framing closes its connection and is counted on the management mailbox, which goes on (R442). -/
theorem breakFraming_effect (h : s.host.ports.length = 2) : ((s.breakFraming p).port p).connected = false ∧
    ((s.breakFraming p).mbx 4096).state = (s.mbx 4096).state ∧ ((s.breakFraming p).mbx 4096).pv = true ∧
    ((s.breakFraming p).mbx 4096).lastPv = some .incompletePacket ∧ ((s.breakFraming p).mbx 4096).pvCount = satSucc (s.mbx 4096).pvCount := by
  have hh : (s.breakFraming p).host = ((s.closePort p).mbxViolation 4096 .incompletePacket).host := log_host _ _
  have hm : (s.breakFraming p).mbx 4096 = { s.mbx 4096 with
      pv := true, lastPv := some .incompletePacket, pvCount := satSucc (s.mbx 4096).pvCount } := by
    rw [State.mbx, hh]
    exact Tab.getD_put ..
  have hp : (s.breakFraming p).port p = { s.port p with connected := false } := by
    rw [State.port, hh]
    exact updPort_port (fun x => { x with connected := false }) h
  rw [hm, hp]
  exact ⟨rfl, rfl, rfl, rfl, rfl⟩

/-! #### Responses -/

/-- MGMT_RESPONSE_DISCARD discards the first response that has waited for 60 s without a connection (R443). -/
theorem mgmtResponseDiscard_row {d : Option Done}
    (h : (s.host.done.find? fun d => d.path == .port p && (s.portFor p).isNone && decide (d.since + 60000000000 ≤ s.clock)) = d) :
    exec (.mgmtResponseDiscard p) s = .next (d.elim s fun e => s.discardResponse e) := by
  subst h
  refine congrArg Host.Outcome.next ?_
  split <;> next e => rw [e]; rfl

end

/-- Settles O58: a port has a connection or not, a record its length or not, and a response a way out or not. -/
theorem managementPorts : Obligations.ManagementPorts := by
  unfold Obligations.ManagementPorts
  intro p s hl x
  refine ⟨rfl, fun h hc => ⟨_, mgmtConnectionOpen_opens h hc, updPort_port _ hl, fun q hq => updPort_port_ne _ hq, rfl⟩,
    mgmtConnectionOpen_not,
    ⟨_, exec_mgmtConnectionClose p s, updPort_port _ hl, fun q hq => updPort_port_ne _ hq, rfl, rfl, rfl⟩,
    mgmtPortLinkLoss_not,
    fun h => ⟨_, mgmtPortLinkLoss_lost h, updPort_port _ hl, fun q hq => updPort_port_ne _ hq, rfl, rfl, rfl⟩,
    mgmtConnectionTimeout_closes, mgmtConnectionTimeout_not, fun h => mgmtRecord_unconnected (portTakes_eq_false h),
    fun h hc r hr => ?records,
    fun u hu => hu ▸ ⟨rfl, breakFraming_effect hl⟩, rfl, fun d hd => ⟨?kept, ?discarded⟩, fun e v hv => hv ▸ rfl⟩
  case records =>
    subst hr
    have takes : s.portTakes p = true := Bool.and_eq_true_iff.mpr ⟨h, hc⟩
    refine ⟨fun n b => ⟨fun hn => ?_, fun hn => ?_⟩, mgmtKeepalive_received takes, fun ht => ?_, fun ht => ?_, fun n k => ?packet⟩
    · rw [mgmtRecordSpdm_row takes, if_pos hn]
    · rw [mgmtRecordSpdm_row takes, if_neg (not_not_intro hn)]; rfl
    · exact (mgmtKeepalive_sends takes).trans (congrArg Host.Outcome.next (if_pos ht))
    · exact (mgmtKeepalive_sends takes).trans (congrArg Host.Outcome.next (if_neg (Nat.not_le.mpr ht)))
    case packet =>
      intro e
      have row := mgmtRecordPacket_row takes n k
      refine ⟨fun hb => row.trans (congrArg _ (if_pos (by simpa using hb))), fun hle hn => ?_⟩
      replace row := row.trans (congrArg _ (if_neg (by simpa using ⟨hle, hn⟩)))
      refine ⟨fun hcrc => row.trans (congrArg _ (if_pos (bne_iff_ne.mpr hcrc))), fun hcrc => ?_⟩
      replace row := row.trans (congrArg _ (if_neg (by simpa using hcrc)))
      exact ⟨fun u hu => row.trans (congrArg (fun y => Host.Outcome.next (match y with | .wait s => s | .taken s => s)) hu),
        fun u hu => row.trans (congrArg (fun y => Host.Outcome.next (match y with | .wait s => s | .taken s => s)) hu)⟩
  case kept => rintro rfl; exact mgmtResponseDiscard_row hd
  case discarded => rintro e rfl; exact mgmtResponseDiscard_row hd

end Sys2Proof.Machine

/-! ### Facts about Vievo ports -/

namespace Sys2Proof.Machine

section
variable {p q : Nat} {s : State}

theorem updVievo_vievo (g : Port → Port) (h : p < s.fabric.ports.length) : (s.updVievo p g).vievo p = g (s.vievo p) := by
  simp [State.vievo, State.updVievo, List.getD_eq_getElem?_getD, h]

@[simp] theorem updVievo_vievo_ne (g : Port → Port) (h : q ≠ p) : (s.updVievo p g).vievo q = s.vievo q := by
  simp [State.vievo, State.updVievo, List.getD_eq_getElem?_getD, Ne.symm h]

@[simp] theorem updVievo_ports_length (g : Port → Port) : (s.updVievo p g).fabric.ports.length = s.fabric.ports.length := List.length_modify ..

@[simp] theorem emit_vievo (o : Output) : (s.emit o).vievo q = s.vievo q := rfl

theorem updVievo_updVievo (g k : Port → Port) : (s.updVievo p g).updVievo p k = s.updVievo p fun x => k (g x) := by
  simp only [State.updVievo, List.modify_modify_eq]
  rfl

theorem port_lt (h : s.fabric.ports.length = 32) (p : Fin 32) : p.val < s.fabric.ports.length := h.symm ▸ p.isLt

theorem linkUp_iff {x : Port} : linkUp x = true ↔ x.state = .up ∨ x.state = .degraded := by simp [linkUp]

end

/-- Driving things out only adds to what has been driven out, in order. -/
theorem emitAll_eq {α : Type} (l : List α) (g : α → Output) (s : State) : l.foldl (fun s a => s.emit (g a)) s = { s with out := s.out ++ l.map g } := by
  induction l generalizing s with
  | nil => simp
  | cons a l ih => rw [List.foldl_cons, ih]; simp [State.emit]

/-- The frame of a port that its replay buffer holds under an FSEQ. -/
def State.heldFrame (p q : Nat) (s : State) : Frame := ((s.vievo p).replay.find q).getD { kind := 0, bytes := [] }

/-- The frames a port has made since its FSEQ was `n` go out in the order of FSEQ (R393). -/
theorem emitFrames_eq (p n : Nat) (s : State) : s.emitFrames p n = { s with
    out := s.out ++ (List.range ((s.vievo p).txSeq - n)).map fun i =>
      .frame p (n + 1 + i) (s.heldFrame p (n + 1 + i)).kind false (s.heldFrame p (n + 1 + i)).bytes } :=
  emitAll_eq _ _ _

/-- What a port sends stands in its replay buffer under its FSEQ (R394). -/
theorem sendFrame_replay_find (now kind cls : Nat) (packet : Bytes) (x : Port) : (x.sendFrame now kind cls packet).replay.find (x.txSeq + 1) =
    some { kind := kind, bytes := sealedFrame x.txKey (x.txSeq + 1) (linkHeader (x.txSeq + 1) kind cls x.rxSeq x.creditBack.2) packet } :=
  Tab.find_put ..

/-- A frame sent now goes out under the next FSEQ, as the replay buffer keeps it (R393, R394). -/
theorem sendFrame_eq {p : Nat} {s : State} (h : p < s.fabric.ports.length) (kind cls : Nat) (packet : Bytes) : s.sendFrame p kind cls packet = { s.updVievo p
    (fun x => x.sendFrame s.clock kind cls packet) with
    out := s.out ++ [.frame p ((s.vievo p).txSeq + 1) kind false
      (sealedFrame (s.vievo p).txKey ((s.vievo p).txSeq + 1)
        (linkHeader ((s.vievo p).txSeq + 1) kind cls (s.vievo p).rxSeq (s.vievo p).creditBack.2) packet)] } := by
  have e : (s.updVievo p fun x => x.sendFrame s.clock kind cls packet).vievo p = (s.vievo p).sendFrame s.clock kind cls packet := updVievo_vievo _ h
  have one : ((s.vievo p).sendFrame s.clock kind cls packet).txSeq - (s.vievo p).txSeq = 1 := Nat.add_sub_cancel_left ..
  rw [State.sendFrame, emitFrames_eq]
  simp only [State.heldFrame, e, one, List.range_one, List.map_cons, List.map_nil, Nat.add_zero, sendFrame_replay_find, Option.getD_some,
    State.updVievo_out]

end Sys2Proof.Machine

/-! ### Proofs: link frames (O55) -/

namespace Sys2Proof.Machine

/-- A packet joins those that have arrived at a port. -/
def State.arrive (p : Nat) (packet : Bytes) (s : State) : State := s.updVievo p fun x => { x with arrived := x.arrived ++ [packet] }

/-- A port in whose state DISCOVERY frames pass (Table 16-3). -/
def discovers (x : Port) : Bool := x.state == .discoveryOnly || x.state == .keying || x.state == .held

/-- A frame can be accepted: its data is intact, and its FSEQ is the next expected (R394). -/
def frameFits (check : FrameCheck) (h : Bytes) (x : Port) : Prop := frameIntact check = true ∧ field h 0 6 = x.rxSeq + 1

theorem frameFits_iff {check : FrameCheck} {h : Bytes} {x : Port} :
    (!frameIntact check || field h 0 6 != x.rxSeq + 1) = false ↔ frameFits check h x := by
  simp [frameFits]

theorem linkUp_of_discovers {x : Port} (h : discovers x = true) : linkUp x = false := by
  simp only [discovers, Bool.or_eq_true, beq_iff_eq] at h
  rcases h with (h | h) | h <;> simp [linkUp, h]

section
variable {p : Fin 32} {h packet : Bytes} {check : FrameCheck} {s : State}

/-! #### LINK_FRAME_RECEIVE -/

theorem linkFrameReceive_ignored (hi : s.serving = false ∨ (s.vievo p).idledBy ≠ [] ∨ field h 6 1 = 2) :
    exec (.linkFrameReceive p h packet check) s = .next s := by
  refine congrArg Host.Outcome.next (if_pos ?_)
  rcases hi with hi | hi | hi <;> simp [State.fabricUp, Port.idled, hi]

/-- A frame of another KIND than 2 at a port that no fence holds: its FEC is counted unless the port is down or training; a DISCOVERY frame passes in the
states for it, any other on a running link where it fits (R393, R394). -/
theorem linkFrameReceive_row (hs : s.serving = true) (hi : (s.vievo p).idledBy = []) (hk : field h 6 1 ≠ 2) :
    exec (.linkFrameReceive p h packet check) s = .next (
      let t := if (s.vievo p).state == .down || (s.vievo p).state == .training then s else s.countFec p check
      if field h 6 1 == 3 then if discovers (s.vievo p) && frameIntact check then t.arrive p packet else t
      else if !linkUp (s.vievo p) then t
      else if !frameIntact check || field h 0 6 != (s.vievo p).rxSeq + 1 then t.dropFrame p
      else if field h 6 1 == 1 then (t.acceptFrame p h).arrive p packet else t.acceptFrame p h) :=
  congrArg Host.Outcome.next (if_neg (by simp [State.fabricUp, Port.idled, hs, hi, hk]))

/-- A frame at a port that is down or training does nothing (Table 16-3). -/
theorem linkFrameReceive_down (hs : s.serving = true) (hi : (s.vievo p).idledBy = []) (hk : field h 6 1 ≠ 2)
    (hd : (s.vievo p).state = .down ∨ (s.vievo p).state = .training) : exec (.linkFrameReceive p h packet check) s = .next s := by
  rw [linkFrameReceive_row hs hi hk]
  rcases hd with hd | hd <;> simp [hd, discovers, linkUp]

/-- A DISCOVERY frame whose data is intact passes in the states for it, and nothing else does (Table 16-3). -/
theorem linkFrameReceive_discovers (hs : s.serving = true) (hi : (s.vievo p).idledBy = []) (hk : field h 6 1 ≠ 2) (hd : discovers (s.vievo p) = true) :
    exec (.linkFrameReceive p h packet check) s =
      .next (if field h 6 1 = 3 ∧ frameIntact check = true then (s.countFec p check).arrive p packet else s.countFec p check) := by
  have awake : ((s.vievo p).state == .down || (s.vievo p).state == .training) = false := by
    simp only [discovers, Bool.or_eq_true, beq_iff_eq] at hd
    rcases hd with (hd | hd) | hd <;> simp [hd]
  rw [linkFrameReceive_row hs hi hk]
  simp only [awake, linkUp_of_discovers hd, hd, Bool.true_and, Bool.not_false, if_true, Bool.false_eq_true, if_false]
  by_cases h3 : field h 6 1 = 3 <;> simp [h3]

/-- On a running link a DISCOVERY frame is dropped (Table 16-3). -/
theorem linkFrameReceive_stray (hs : s.serving = true) (hi : (s.vievo p).idledBy = []) (hu : linkUp (s.vievo p) = true) (hk : field h 6 1 = 3) :
    exec (.linkFrameReceive p h packet check) s = .next (s.countFec p check) := by
  rw [linkFrameReceive_row hs hi (by omega)]
  rcases linkUp_iff.mp hu with hd | hd <;> simp [hd, hk, discovers]

/-- On a running link a frame of KIND 0 or 1 is accepted where it fits, and else dropped (R394). -/
theorem linkFrameReceive_running (hs : s.serving = true) (hi : (s.vievo p).idledBy = []) (hk : field h 6 1 ≠ 2) (hu : linkUp (s.vievo p) = true)
    (h3 : field h 6 1 ≠ 3) : exec (.linkFrameReceive p h packet check) s = .next (
      if !frameIntact check || field h 0 6 != (s.vievo p).rxSeq + 1 then (s.countFec p check).dropFrame p
      else if field h 6 1 == 1 then ((s.countFec p check).acceptFrame p h).arrive p packet else (s.countFec p check).acceptFrame p h) := by
  rw [linkFrameReceive_row hs hi hk]
  rcases linkUp_iff.mp hu with hd | hd <;> simp [hd, h3, linkUp]

/-! #### RETRY_REQ -/

theorem retryReq_ignored (hi : s.serving = false ∨ linkUp (s.vievo p) = false ∨ (s.vievo p).idledBy ≠ [] ∨ field h 6 1 ≠ 2) :
    exec (.retryReq p h check) s = .next s := by
  refine congrArg Host.Outcome.next (if_pos ?_)
  rcases hi with hi | hi | hi | hi <;> simp [State.fabricUp, Port.idled, hi]

/-- A RETRY_REQ is accepted in order like any other frame, and answered by a replay (R394). -/
theorem retryReq_row (hs : s.serving = true) (hu : linkUp (s.vievo p) = true) (hi : (s.vievo p).idledBy = []) (hk : field h 6 1 = 2) :
    exec (.retryReq p h check) s = .next (
      if !frameIntact check || field h 0 6 != (s.vievo p).rxSeq + 1 then (s.countFec p check).dropFrame p
      else ((s.countFec p check).acceptFrame p h).replayFrom p (field h 8 6)) :=
  congrArg Host.Outcome.next (if_neg (by simp [State.fabricUp, Port.idled, hs, hu, hi, hk]))

/-! #### LINK_ACK_TIMEOUT -/

/-- The partner has acknowledged nothing for too long: 8 fruitless replays, or 1 ms (R394). -/
theorem linkAckTimeout_row : exec (.linkAckTimeout p) s = .next (
    if linkUp (s.vievo p) && !(s.vievo p).replay.isEmpty && (decide (8 ≤ (s.vievo p).replays) || decide ((s.vievo p).ackSince + 1000000 ≤ s.clock)) then
      s.linkDown p
    else s) := rfl

theorem linkAckTimeout_down (hu : linkUp (s.vievo p) = true) (hr : (s.vievo p).replay ≠ [])
    (h : 8 ≤ (s.vievo p).replays ∨ (s.vievo p).ackSince + 1000000 ≤ s.clock) : exec (.linkAckTimeout p) s = .next (s.linkDown p) := by
  rw [linkAckTimeout_row, if_pos]
  simpa [hu, hr] using h

theorem linkAckTimeout_waits (h : linkUp (s.vievo p) = false ∨ (s.vievo p).replay = [] ∨
    ((s.vievo p).replays < 8 ∧ s.clock < (s.vievo p).ackSince + 1000000)) : exec (.linkAckTimeout p) s = .next s := by
  rw [linkAckTimeout_row, if_neg]
  rcases h with h | h | ⟨h, k⟩
  · simp [h]
  · simp [h]
  · simp [Nat.not_le.mpr h, Nat.not_le.mpr k]

end

/-! #### What the parts do to the port -/

/-- Credits that a frame returns go to their class (R395). -/
theorem getD_addCredits {l : List Nat} (hl : l.length = 8) {c k n : Nat} (hc : c < 8) :
    (l.set k (l.getD k 0 + n)).getD c 0 = l.getD c 0 + if c = k then n else 0 := by
  simp only [List.getD_eq_getElem?_getD, List.getElem?_set, hl]
  by_cases e : c = k
  · subst e; simp [hc, hl]
  · simp [e, Ne.symm e]

section
variable {p : Nat} {h : Bytes} {s : State}

theorem dropFrame_awaiting (ha : (s.vievo p).awaiting = true) : s.dropFrame p = s := if_pos ha

variable (hp : p < s.fabric.ports.length)
include hp

/-- FEC touches nothing of a port but its counts. -/
theorem countFec_vievo (check : FrameCheck) : (s.countFec p check).vievo p = { s.vievo p with
    correctedCw := ((s.countFec p check).vievo p).correctedCw, uncorrectableCw := ((s.countFec p check).vievo p).uncorrectableCw } := by
  cases check with
  | corrected => simp only [State.countFec, updVievo_vievo _ hp]
  | uncorrectable => simp only [State.countFec, updVievo_vievo _ hp]
  | good => rfl
  | badTag => rfl

theorem countFec_uncorrectable :
    ((s.countFec p .uncorrectable).vievo p).uncorrectableCw = min ((s.vievo p).uncorrectableCw + 1) 0xFFFFFFFF := by
  simp only [State.countFec, updVievo_vievo _ hp]

theorem countFec_corrected : s.clock ∈ ((s.countFec p .corrected).vievo p).correctedCw := by
  simp only [State.countFec, updVievo_vievo _ hp, List.mem_cons, true_or]

theorem acceptFrame_vievo : (s.acceptFrame p h).vievo p = { s.vievo p with
    rxSeq := (s.vievo p).rxSeq + 1, awaiting := false, acked := max (s.vievo p).acked (field h 8 6)
    replay := (s.vievo p).replay.keep fun q _ => field h 8 6 < q
    ackSince := if decide ((s.vievo p).acked < field h 8 6) then s.clock else (s.vievo p).ackSince
    replays := if decide ((s.vievo p).acked < field h 8 6) then 0 else (s.vievo p).replays
    credits := (s.vievo p).credits.set (field h 14 2 % 8) ((s.vievo p).credits.getD (field h 14 2 % 8) 0 + field h 14 2 / 8) } :=
  updVievo_vievo _ hp

/-- A frame is dropped, and RETRY_REQ goes out for the expected one (R394). -/
theorem dropFrame_asks (ha : (s.vievo p).awaiting = false) : s.dropFrame p =
    { s.updVievo p (fun x => { x with awaiting := true }.sendFrame s.clock 2 0 []) with
      out := s.out ++ [.frame p ((s.vievo p).txSeq + 1) 2 false
        (sealedFrame (s.vievo p).txKey ((s.vievo p).txSeq + 1)
          (linkHeader ((s.vievo p).txSeq + 1) 2 0 (s.vievo p).rxSeq (s.vievo p).creditBack.2) [])] } := by
  have hq : p < (s.updVievo p fun x => { x with awaiting := true }).fabric.ports.length := by rwa [updVievo_ports_length]
  refine (if_neg (by rw [ha]; exact Bool.false_ne_true)).trans ?_
  rw [sendFrame_eq hq, updVievo_updVievo, updVievo_vievo _ hp]
  rfl

end

/-- What is above an FSEQ in the replay buffer goes out again, as it was sealed (R394). -/
theorem replayFrom_eq (p ack : Nat) (s : State) : s.replayFrom p ack =
    { s.updVievo p (fun x => { x with
        retries := min (x.retries + ((s.vievo p).replay.keys.filter fun q => ack < q).length) 0xFFFFFFFF
        replays := if ((s.vievo p).replay.keys.filter fun q => ack < q).isEmpty then x.replays else x.replays + 1 }) with
      out := s.out ++ ((s.vievo p).replay.keys.filter fun q => ack < q).map fun q =>
        .frame p q (s.heldFrame p q).kind true (s.heldFrame p q).bytes } :=
  emitAll_eq _ _ _

/-- Settles O55: a frame is accepted where it fits and else dropped, and what is sent again is what the replay buffer holds. -/
theorem linkFrames : Obligations.LinkFrames := by
  unfold Obligations.LinkFrames
  intro p h packet check s hl x kind t y z fits
  have hp := port_lt hl p
  refine ⟨linkFrameReceive_ignored, fun hs hi hk => ⟨?running, linkFrameReceive_stray hs hi, ?discovery, linkFrameReceive_down hs hi hk⟩,
    retryReq_ignored, ?retry, ?fec, ?accept, dropFrame_awaiting, fun ha => ?drop, fun ack => ?replay, linkAckTimeout_down, linkAckTimeout_waits⟩
  case running =>
    intro hu h3
    have row := linkFrameReceive_running (packet := packet) (check := check) hs hi hk hu h3
    refine ⟨fun hf => ?_, fun hf h1 => ?_, fun hf h1 => ?_⟩
    · rw [row, if_pos (by rwa [← Bool.not_eq_false, frameFits_iff])]
    · rw [row, if_neg (by rwa [Bool.not_eq_true, frameFits_iff]), if_pos (beq_iff_eq.mpr h1)]; rfl
    · rw [row, if_neg (by rwa [Bool.not_eq_true, frameFits_iff]), if_neg (mt beq_iff_eq.mp h1)]
  case discovery =>
    intro hd
    have row := linkFrameReceive_discovers (packet := packet) (check := check) hs hi hk (by simpa [discovers, or_assoc] using hd)
    refine ⟨fun h3 hc => row.trans (congrArg _ (if_pos ⟨h3, hc⟩)), fun hn => row.trans (congrArg _ (if_neg fun ⟨h3, hc⟩ => ?_))⟩
    rcases hn with hn | hn
    · exact hn h3
    · rw [hc] at hn; cases hn
  case retry =>
    intro hs hu hi hk
    have row := retryReq_row (check := check) hs hu hi hk
    refine ⟨fun hf => ?_, fun hf => ?_⟩
    · rw [row, if_pos (by rwa [← Bool.not_eq_false, frameFits_iff])]
    · rw [row, if_neg (by rwa [Bool.not_eq_true, frameFits_iff])]
  case fec =>
    refine ⟨countFec_vievo hp check, ?_, ?_, fun h1 h2 => ?_⟩
    · rintro rfl; exact countFec_uncorrectable hp
    · rintro rfl; exact countFec_corrected hp
    · cases check with
      | corrected => exact absurd rfl h1
      | uncorrectable => exact absurd rfl h2
      | good => rfl
      | badTag => rfl
  case accept =>
    have e : z = _ := acceptFrame_vievo (h := h) hp
    rw [e]
    refine ⟨rfl, rfl, rfl, rfl, rfl, rfl, fun a ha => ?_, fun a ha hq => List.mem_filter.mpr ⟨ha, decide_eq_true hq⟩,
      fun h8 c hc => getD_addCredits h8 hc, fun hle => ?_, fun hlt => ?_⟩
    · obtain ⟨hm, hq⟩ := List.mem_filter.mp ha
      exact ⟨of_decide_eq_true hq, hm⟩
    · simp [Nat.not_lt.mpr hle, x]
    · simp [hlt, x]
  case drop =>
    rw [dropFrame_asks hp ha]
    exact ⟨updVievo_vievo _ hp, rfl⟩
  case replay =>
    rw [replayFrom_eq]
    exact ⟨rfl, updVievo_vievo _ hp⟩

end Sys2Proof.Machine

/-! ### Proofs: the bring-up of links (O54) -/

namespace Sys2Proof.Machine

/-! #### Sending discovery messages -/

/-- What sending on a port leaves alone: other ports, the index and the host interface, and what has been driven out before. -/
structure SentOn (p : Nat) (s t : State) : Prop where
  index : t.index = s.index
  host : t.host = s.host
  clock : t.clock = s.clock
  ports : t.fabric.ports.length = s.fabric.ports.length
  other : ∀ q, q ≠ p → t.vievo q = s.vievo q
  out : s.out ⊆ t.out

section
variable {p : Nat} {s t u : State}

theorem SentOn.refl (p : Nat) (s : State) : SentOn p s s := ⟨rfl, rfl, rfl, rfl, fun _ _ => rfl, fun _ => id⟩

theorem SentOn.trans (h : SentOn p s t) (g : SentOn p t u) : SentOn p s u :=
  ⟨g.index.trans h.index, g.host.trans h.host, g.clock.trans h.clock, g.ports.trans h.ports, fun q hq => (g.other q hq).trans (h.other q hq),
    fun _ ho => g.out (h.out ho)⟩

theorem SentOn.foldl {α : Type} {g : State → α → State} (h : ∀ s a, SentOn p s (g s a)) (l : List α) (s : State) : SentOn p s (l.foldl g s) := by
  induction l generalizing s with
  | nil => exact .refl p s
  | cons a l ih => exact (h s a).trans (ih (g s a))

theorem emit_sentOn (p : Nat) (o : Output) (s : State) : SentOn p s (s.emit o) :=
  ⟨rfl, rfl, rfl, rfl, fun _ _ => rfl, List.subset_append_left ..⟩

theorem updVievo_sentOn (p : Nat) (g : Port → Port) (s : State) : SentOn p s (s.updVievo p g) :=
  ⟨rfl, rfl, rfl, updVievo_ports_length g, fun _ hq => updVievo_vievo_ne g hq, fun _ => id⟩

theorem emitFrames_sentOn (p n : Nat) (s : State) : SentOn p s (s.emitFrames p n) := by
  rw [emitFrames_eq]
  exact ⟨rfl, rfl, rfl, rfl, fun _ _ => rfl, List.subset_append_left ..⟩

theorem sendFrame_sentOn (p kind cls : Nat) (packet : Bytes) (s : State) : SentOn p s (s.sendFrame p kind cls packet) :=
  (updVievo_sentOn p _ s).trans (emitFrames_sentOn ..)

/-- The packets of a discovery message, one after the other: in frames of a live link, else in DISCOVERY frames (R393, R398). -/
def State.sendPackets (p : Nat) (live : Bool) (l : List FabPacket) (s : State) : State :=
  l.foldl (fun s x =>
    if live then s.sendFrame p 1 0 (packetBytes x) else s.emit (.frame p 0 3 false (discoveryFrame (packetBytes x)))) s

/-- The packets that `sendLink` cuts a discovery message into. -/
def State.linkPackets (p kind part : Nat) (body : Bytes) (s : State) : List FabPacket :=
  let b := discoveryMessage kind part body
  let dst := (s.vievo p).partner.getD 0
  messagePackets {
    type := 1, cls := 0, hops := 16, dst := dst, src := s.nodeId, pkey := 0, first := true, last := false, module := true, tenant := 0
    msgId := s.fabric.nextMsg.getD (dst * 8) 0, offset := 0, msgLen := b.length, payload := [] } (b.length / 4096 + 1) 0 b

theorem sendLink_eq (p kind part : Nat) (body : Bytes) (s : State) : ∃ n, s.sendLink p kind part body =
    (({ s with fabric.nextMsg := n } : State).emit (.link p 1 (discoveryMessage kind part body))).sendPackets p (portOpen (s.vievo p))
      (s.linkPackets p kind part body) := ⟨_, rfl⟩

theorem sendPackets_sentOn (p : Nat) (live : Bool) (l : List FabPacket) (s : State) : SentOn p s (s.sendPackets p live l) := by
  refine SentOn.foldl (fun s x => ?_) l s
  split
  · exact sendFrame_sentOn ..
  · exact emit_sentOn ..

/-- Where the port does not pass packets, its state stays as it is (R393). -/
theorem sendPackets_closed (p : Nat) (l : List FabPacket) (s : State) : (s.sendPackets p false l).vievo p = s.vievo p := by
  unfold State.sendPackets
  simp only [Bool.false_eq_true, if_false]
  rw [emitAll_eq]
  rfl

theorem sendLink_sentOn (p kind part : Nat) (body : Bytes) (s : State) : SentOn p s (s.sendLink p kind part body) := by
  obtain ⟨n, e⟩ := sendLink_eq p kind part body s
  rw [e]
  exact (⟨rfl, rfl, rfl, rfl, fun _ _ => rfl, List.subset_append_left ..⟩ : SentOn p s
    (({ s with fabric.nextMsg := n } : State).emit (.link p 1 (discoveryMessage kind part body)))).trans (sendPackets_sentOn ..)

theorem link_mem_sendLink (p kind part : Nat) (body : Bytes) (s : State) :
    .link p 1 (discoveryMessage kind part body) ∈ (s.sendLink p kind part body).out := by
  obtain ⟨n, e⟩ := sendLink_eq p kind part body s
  rw [e]
  exact (sendPackets_sentOn ..).out (List.mem_append_right _ (List.mem_singleton_self _))

theorem sendLink_closed (kind part : Nat) (body : Bytes) (h : portOpen (s.vievo p) = false) : (s.sendLink p kind part body).vievo p = s.vievo p := by
  obtain ⟨n, e⟩ := sendLink_eq p kind part body s
  rw [e, h, sendPackets_closed]
  rfl

/-- Discovery messages sent one after the other: kind, part and body. -/
def State.sendLinks (p : Nat) (l : List (Nat × Nat × Bytes)) (s : State) : State := l.foldl (fun s m => s.sendLink p m.1 m.2.1 m.2.2) s

theorem sendLinks_sentOn (p : Nat) (l : List (Nat × Nat × Bytes)) (s : State) : SentOn p s (s.sendLinks p l) :=
  SentOn.foldl (fun _ _ => sendLink_sentOn ..) l s

/-- Messages sent on a port that does not pass packets leave it as it is. -/
theorem sendLinks_closed (l : List (Nat × Nat × Bytes)) (h : portOpen (s.vievo p) = false) : (s.sendLinks p l).vievo p = s.vievo p := by
  induction l generalizing s with
  | nil => rfl
  | cons m l ih =>
    have e := sendLink_closed m.1 m.2.1 m.2.2 h
    exact (ih (by rw [e]; exact h)).trans e

theorem links_mem_sendLinks {l : List (Nat × Nat × Bytes)} {m : Nat × Nat × Bytes} (h : m ∈ l) (s : State) :
    .link p 1 (discoveryMessage m.1 m.2.1 m.2.2) ∈ (s.sendLinks p l).out := by
  induction l generalizing s with
  | nil => cases h
  | cons k l ih =>
    rcases List.mem_cons.mp h with rfl | h
    · exact (sendLinks_sentOn p l _).out (link_mem_sendLink ..)
    · exact ih h _

/-! #### Discovery -/

/-- What a port is once it has sent these messages of discovery. -/
def Port.saying (now : Nat) (l : List (Nat × Nat × Bytes)) (x : Port) : Port :=
  { x with sentAt := now, said := l.flatMap fun m => discoveryMessage m.1 m.2.1 m.2.2 }

theorem sendIdentity_eq (p : Nat) (s : State) : s.sendIdentity p =
    (s.sendLinks p (s.identityMessages p)).updVievo p (Port.saying (s.sendLinks p (s.identityMessages p)).clock (s.identityMessages p)) := rfl

theorem sendIdentity_sentOn (p : Nat) (s : State) : SentOn p s (s.sendIdentity p) := by
  rw [sendIdentity_eq]
  exact (sendLinks_sentOn ..).trans (updVievo_sentOn ..)

theorem link_mem_sendIdentity {m : Nat × Nat × Bytes} (h : m ∈ s.identityMessages p) :
    .link p 1 (discoveryMessage m.1 m.2.1 m.2.2) ∈ (s.sendIdentity p).out := by
  rw [sendIdentity_eq, State.updVievo_out]
  exact links_mem_sendLinks h s

/-- Sending HELLO and the identity on a port that does not pass packets notes what was said, and when (R397). -/
theorem sendIdentity_vievo (hp : p < s.fabric.ports.length) (h : portOpen (s.vievo p) = false) :
    (s.sendIdentity p).vievo p = (s.vievo p).saying s.clock (s.identityMessages p) := by
  have sent := sendLinks_sentOn p (s.identityMessages p) s
  rw [sendIdentity_eq, updVievo_vievo _ (by rw [sent.ports]; exact hp), sendLinks_closed _ h, sent.clock]

/-- What a port is when discovery begins (R396, R397). -/
def Port.discovering (now : Nat) (x : Port) : Port :=
  { x with
    state := .discoveryOnly, heldReason := 0, since := now, partner := none, partnerSerial := 0, partnerBuild := 0
    hello := false, identity := [], heard := [], kex := false, kexIn := [], kexOut := none }

theorem beginDiscovery_eq (p : Nat) (s : State) : s.beginDiscovery p = (s.updVievo p (Port.discovering s.clock)).sendIdentity p := rfl

theorem beginDiscovery_sentOn (p : Nat) (s : State) : SentOn p s (s.beginDiscovery p) :=
  (updVievo_sentOn p _ s).trans (sendIdentity_sentOn ..)

theorem beginDiscovery_vievo (hp : p < s.fabric.ports.length) : (s.beginDiscovery p).vievo p =
    ((s.vievo p).discovering s.clock).saying s.clock (s.identityMessages p) := by
  have e : (s.updVievo p (Port.discovering s.clock)).vievo p = (s.vievo p).discovering s.clock := updVievo_vievo _ hp
  rw [beginDiscovery_eq, sendIdentity_vievo (by rwa [updVievo_ports_length]) (by rw [e]; rfl), e]
  rfl

end

/-! #### PORT_TRAINING and the timers -/

section
variable {p : Fin 32} {s : State}

theorem mayTrain_iff : s.mayTrain p = true ↔ s.serving = true ∧ s.pins.fabClk.getLsbD (p.val / 16) = true ∧ (s.vievo p).idledBy = [] ∧
    (s.vievo p).since + 10000000 ≤ s.clock := by
  simp [State.mayTrain, State.fabricUp, portHub, Port.idled, and_assoc]

theorem portTraining_row (l : BitVec 8) : exec (.portTraining p l) s = .next (
    if ((s.vievo p).state == .down || (s.vievo p).state == .training) && s.mayTrain p then
      if lanesUsed l = 0 then s.linkDown p else (s.updVievo p fun x => { x with lanes := lanesUsed l }).beginDiscovery p
    else s) := rfl

theorem portTraining_not {l : BitVec 8} (h : ((s.vievo p).state ≠ .down ∧ (s.vievo p).state ≠ .training) ∨ s.mayTrain p = false) :
    exec (.portTraining p l) s = .next s := by
  rw [portTraining_row, if_neg]
  rcases h with ⟨h, k⟩ | h <;> simp [*]

theorem portTraining_trains {l : BitVec 8} (h : (s.vievo p).state = .down ∨ (s.vievo p).state = .training) (hm : s.mayTrain p = true) :
    exec (.portTraining p l) s =
      .next (if lanesUsed l = 0 then s.linkDown p else (s.updVievo p fun x => { x with lanes := lanesUsed l }).beginDiscovery p) := by
  rw [portTraining_row, if_pos]
  rcases h with h | h <;> simp [*]

theorem portRetrainTimer_trains (h : (s.vievo p).state = .down) (hm : s.mayTrain p = true) :
    exec (.portRetrainTimer p) s = .next (s.updVievo p fun x => { x with state := .training }) :=
  congrArg Host.Outcome.next (if_pos (by simp [h, hm]))

theorem portRetrainTimer_not (h : (s.vievo p).state ≠ .down ∨ s.mayTrain p = false) : exec (.portRetrainTimer p) s = .next s := by
  refine congrArg Host.Outcome.next (if_neg ?_)
  rcases h with h | h <;> simp [h]

theorem heldRetryTimer_row : exec (.heldRetryTimer p) s = .next (
    if (s.vievo p).state == .held && s.serving && decide ((s.vievo p).since + 10000000000 ≤ s.clock) then s.beginDiscovery p else s) := rfl

theorem heldRetryTimer_retries (h : (s.vievo p).state = .held) (hs : s.serving = true) (ht : (s.vievo p).since + 10000000000 ≤ s.clock) :
    exec (.heldRetryTimer p) s = .next (s.beginDiscovery p) := by
  rw [heldRetryTimer_row, if_pos]
  simp [h, hs, ht]

theorem heldRetryTimer_waits (h : (s.vievo p).state ≠ .held ∨ s.serving = false ∨ s.clock < (s.vievo p).since + 10000000000) :
    exec (.heldRetryTimer p) s = .next s := by
  rw [heldRetryTimer_row, if_neg]
  rcases h with h | h | h
  · simp [h]
  · simp [h]
  · simp [Nat.not_le.mpr h]

theorem portLaneLoss_row : exec (.portLaneLoss p) s = .next (if (s.vievo p).state == .down then s else s.linkDown p) := rfl

theorem portMarginal_row : exec (.portMarginal p) s = .next (
    if (s.vievo p).state != .down && !(s.vievo p).marginal then (s.updVievo p fun x => { x with marginal := true }).logUnit p else s) := rfl

/-! #### Messages of a partner -/

theorem hello_none (h : s.takeMessage 1 [1] = none) : exec .hello s = .next s := by
  show execHello s = _
  simp only [execHello, h]

theorem identity_none (v : Bool) (h : s.takeMessage 1 [2] = none) : exec (.identity v) s = .next s := by
  show execIdentity _ s = _
  simp only [execIdentity, h]

theorem kex_none (h : s.takeMessage 1 [3] = none) : exec .kex s = .next s := by
  show execKex s = _
  simp only [execKex, h]

theorem kexConfirm_none (v : Bool) (h : s.takeMessage 1 [4] = none) : exec (.kexConfirm v) s = .next s := by
  show execKexConfirm _ s = _
  simp only [execKexConfirm, h]

section
variable {y : Inbound} {t : State}

/-- What a port takes from its partner's HELLO (Table 16-21). -/
def Port.greeted (b : Bytes) (x : Port) : Port :=
  { x with
    hello := true, heard := if x.hello then x.heard else x.heard ++ b, partnerSerial := field (b.drop 8) 0 8
    partner := if bit (field (b.drop 8) 10 1) 0 then some (field (b.drop 8) 8 2) else none, partnerBuild := field (b.drop 8) 12 4 }

theorem hello_row (hm : s.takeMessage 1 [1] = some (y, t)) : exec .hello s = .next (t.wellFormed y
    (discoveryFaultless y.body && field y.body 1 1 == 0 && (y.body.drop 8).length == 32 && decide (field (y.body.drop 8) 10 1 < 4) &&
      zeroField (y.body.drop 8) 16 16)
    fun t => if (t.vievo y.port).state != .discoveryOnly then t else t.updVievo y.port (Port.greeted y.body)) := by
  show execHello s = _
  simp only [execHello, hm]
  rfl

/-- A part of the partner's identity is noted once (R397). -/
def Port.identified (part : Nat) (b : Bytes) (x : Port) : Port :=
  if x.identity.contains part then x else { x with identity := x.identity ++ [part], heard := x.heard ++ b }

/-- What follows once a part of the identity is noted: with all of it there and HELLO received, the port is HELD or keys (R397, R398). -/
def State.judgeIdentity (p : Nat) (verified : Bool) (w : State) : State :=
  if (w.vievo p).identity.length < 3 || !(w.vievo p).hello then w
  else if !verified then w.holdPort p 4
  else match w.routeHolds p with
    | some r => w.holdPort p r
    | none => (w.updVievo p fun y => { y with state := .keying, since := w.clock }).sendKex p

theorem identity_row (v : Bool) (hm : s.takeMessage 1 [2] = some (y, t)) : exec (.identity v) s = .next (t.wellFormed y
    (discoveryFaultless y.body && decide (field y.body 1 1 ≤ 2) && (field y.body 1 1 != 2 || y.body.length == 1792))
    fun t => if (t.vievo y.port).state != .discoveryOnly then t
      else (t.updVievo y.port (Port.identified (field y.body 1 1) y.body)).judgeIdentity y.port v) := by
  show execIdentity _ s = _
  simp only [execIdentity, hm]
  rfl

theorem judgeIdentity_waits {p : Nat} {v : Bool} {w : State} (h : (w.vievo p).identity.length < 3 ∨ (w.vievo p).hello = false) : w.judgeIdentity p v = w := by
  refine if_pos ?_
  rcases h with h | h <;> simp [h]

/-- With the whole identity there it is judged (R397). -/
theorem judgeIdentity_whole {p : Nat} {v : Bool} {w : State} (h : 3 ≤ (w.vievo p).identity.length) (hh : (w.vievo p).hello = true) :
    w.judgeIdentity p v = if !v then w.holdPort p 4 else match w.routeHolds p with
      | some r => w.holdPort p r
      | none => (w.updVievo p fun y => { y with state := .keying, since := w.clock }).sendKex p :=
  if_neg (by simp [Nat.not_lt.mpr h, hh])

/-- What KEX does at a port that exchanges keys (R398, R420). -/
def State.takeKex (y : Inbound) (t : State) : State :=
  let w := if (t.vievo y.port).kexOut.isSome then t else t.sendKex y.port
  (w.updVievo y.port fun z => { z with kex := true, kexIn := y.body, sentAt := w.clock }).sendConfirm y.port

theorem kex_row (hm : s.takeMessage 1 [3] = some (y, t)) : exec .kex s = .next (t.wellFormed y
    (discoveryFaultless y.body && field y.body 1 1 == 0 && y.body.length == 1680 && zeroField y.body 1673 7)
    fun t => if !portKeys (t.vievo y.port) || (t.vievo y.port).kex then t else t.takeKex y) := by
  show execKex s = _
  simp only [execKex, hm]
  rfl

theorem kexConfirm_row (v : Bool) (hm : s.takeMessage 1 [4] = some (y, t)) : exec (.kexConfirm v) s = .next (t.wellFormed y
    (discoveryFaultless y.body && field y.body 1 1 == 0 && y.body.length == 56)
    fun t => if !portKeys (t.vievo y.port) || !(t.vievo y.port).kex then t else if v then t.installKeys y.port else t.holdPort y.port 4) := by
  show execKexConfirm _ s = _
  simp only [execKexConfirm, hm]

end
end

/-! #### Keys -/

section
variable {p : Nat} {s : State} {n : Nat}

theorem sendKex_again (h : (s.vievo p).kexOut = some n) : s.sendKex p =
    (s.sendLink p 3 0 (kexBody n)).updVievo p fun x => { x with sentAt := (s.sendLink p 3 0 (kexBody n)).clock, kexOut := some n } := by
  simp only [State.sendKex, h]

theorem sendKex_first (h : (s.vievo p).kexOut = none) : s.sendKex p =
    (s.draw.2.sendLink p 3 0 (kexBody s.draw.1)).updVievo p fun x =>
      { x with sentAt := (s.draw.2.sendLink p 3 0 (kexBody s.draw.1)).clock, kexOut := some s.draw.1 } := by
  simp only [State.sendKex, h]

theorem sendConfirm_eq (h : (s.vievo p).kexOut = some n) : s.sendConfirm p = s.sendLink p 4 0 (Config.hmac (Config.hkdfExpand ((s.vievo p).linkSecret n)
    (ascii "TRB-SN4 link confirm" ++ leBytes 8 Config.serial.toNat) 48) ((s.vievo p).newTranscript n)) := by
  simp only [State.sendConfirm, h, Option.getD_some, linkConfirm]

theorem newTranscript_keying {x : Port} (h : x.state = .keying) : x.newTranscript n = Config.sha384 (lowFirst x x.said x.heard) := by
  simp [Port.newTranscript, h]

theorem newTranscript_rekey {x : Port} (h : x.state ≠ .keying) :
    x.newTranscript n = Config.sha384 (x.transcript ++ lowFirst x (discoveryMessage 3 0 (kexBody n)) x.kexIn) := by
  simp [Port.newTranscript, h]

theorem installKeys_installs (h : s.electricallyFenced p = false) : s.installKeys p = s.updVievo p (Port.keyed s.clock) := by
  by_cases hp : p < s.fabric.ports.length
  · have e : (s.updVievo p (Port.keyed s.clock)).electricallyFenced p = false := by
      rw [State.electricallyFenced, updVievo_vievo _ hp]; exact h
    simp only [State.installKeys, e, Bool.false_eq_true, if_false]
    split <;> rfl
  · have e : s.updVievo p (Port.keyed s.clock) = s := by
      simp only [State.updVievo, List.modify_eq_self (Nat.not_lt.mp hp)]
    simp only [State.installKeys, e, h, Bool.false_eq_true, if_false]
    split <;> rfl

/-- A partner that is fenced electrically is cut off as soon as its keys are there (R434). -/
theorem installKeys_fenced (hp : p < s.fabric.ports.length) (h : s.electricallyFenced p = true) (hn : (s.vievo p).partner = some n) :
    s.installKeys p = ((s.updVievo p (Port.keyed s.clock)).linkDown p).updVievo p fun x => { x with idledBy := [n] } := by
  have hv := updVievo_vievo (Port.keyed s.clock) hp
  have e : (s.updVievo p (Port.keyed s.clock)).electricallyFenced p = true := by
    rw [State.electricallyFenced, hv]; exact h
  have hn' : ((s.updVievo p (Port.keyed s.clock)).vievo p).partner = some n := by rw [hv]; exact hn
  simp only [State.installKeys, hn', e, if_true]

end

/-! #### LINK_REKEY and DISCOVERY_MESSAGE_RETRY -/

section
variable {p : Fin 32} {s : State}

theorem linkRekey_row : exec (.linkRekey p) s = .next (
    if ((s.vievo p).state == .up || (s.vievo p).state == .degraded) && (s.vievo p).kexOut.isNone &&
      (decide (2 ^ 40 ≤ (s.vievo p).txSeq) || decide ((s.vievo p).keyedAt + 86400000000000 ≤ s.clock)) then s.sendKex p else s) := rfl

theorem linkRekey_begins (h : (s.vievo p).state = .up ∨ (s.vievo p).state = .degraded) (hk : (s.vievo p).kexOut = none)
    (hd : 2 ^ 40 ≤ (s.vievo p).txSeq ∨ (s.vievo p).keyedAt + 86400000000000 ≤ s.clock) : exec (.linkRekey p) s = .next (s.sendKex p) := by
  rw [linkRekey_row, if_pos]
  simp only [Bool.and_eq_true, Bool.or_eq_true, beq_iff_eq, decide_eq_true_eq, hk, Option.isNone_none, and_true]
  exact ⟨h, hd⟩

theorem linkRekey_waits (h : ((s.vievo p).state ≠ .up ∧ (s.vievo p).state ≠ .degraded) ∨ (s.vievo p).kexOut ≠ none ∨
    ((s.vievo p).txSeq < 2 ^ 40 ∧ s.clock < (s.vievo p).keyedAt + 86400000000000)) : exec (.linkRekey p) s = .next s := by
  rw [linkRekey_row, if_neg]
  simp only [Bool.and_eq_true, Bool.or_eq_true, beq_iff_eq, decide_eq_true_eq, Option.isNone_iff_eq_none]
  rintro ⟨⟨hu, hk⟩, hd⟩
  rcases h with ⟨h1, h2⟩ | h | ⟨h1, h2⟩
  · exact hu.elim h1 h2
  · exact h hk
  · exact hd.elim (Nat.not_le.mpr h1) (Nat.not_le.mpr h2)

theorem discoveryMessageRetry_early (h : s.serving = false ∨ s.clock < (s.vievo p).sentAt + 100000000) : exec (.discoveryMessageRetry p) s = .next s := by
  refine congrArg Host.Outcome.next (if_pos ?_)
  rcases h with h | h <;> simp [State.fabricUp, h]

/-- After 100 ms, what the state of the port has sent, or its rekey, goes out again (Table 16-8). -/
theorem discoveryMessageRetry_late (hs : s.serving = true) (ht : (s.vievo p).sentAt + 100000000 ≤ s.clock) : exec (.discoveryMessageRetry p) s = .next (
    match (s.vievo p).state with
    | .discoveryOnly => s.sendIdentity p
    | .keying => s.resendKeys p
    | .up | .degraded => if (s.vievo p).kexOut.isSome then s.resendKeys p else s
    | _ => s) :=
  congrArg Host.Outcome.next ((if_neg (by simp [State.fabricUp, hs, Nat.not_lt.mpr ht])).trans rfl)

theorem discoveryMessageRetry_idle (h : (s.vievo p).state = .down ∨ (s.vievo p).state = .training ∨ (s.vievo p).state = .held ∨
    (((s.vievo p).state = .up ∨ (s.vievo p).state = .degraded) ∧ (s.vievo p).kexOut = none)) : exec (.discoveryMessageRetry p) s = .next s := by
  by_cases hs : s.serving = false
  · exact discoveryMessageRetry_early (.inl hs)
  by_cases ht : s.clock < (s.vievo p).sentAt + 100000000
  · exact discoveryMessageRetry_early (.inr ht)
  rw [discoveryMessageRetry_late (by simpa using hs) (Nat.not_lt.mp ht)]
  rcases h with h | h | h | ⟨h | h, hk⟩ <;> simp [*]

theorem discoveryMessageRetry_keys (hs : s.serving = true) (ht : (s.vievo p).sentAt + 100000000 ≤ s.clock)
    (h : (s.vievo p).state = .keying ∨ (((s.vievo p).state = .up ∨ (s.vievo p).state = .degraded) ∧ (s.vievo p).kexOut ≠ none)) :
    exec (.discoveryMessageRetry p) s = .next (s.resendKeys p) := by
  rw [discoveryMessageRetry_late hs ht]
  rcases h with h | ⟨h | h, hk⟩
  · simp only [h]
  · simp only [h, Option.isSome_iff_ne_none.mpr hk, if_true]
  · simp only [h, Option.isSome_iff_ne_none.mpr hk, if_true]

end

/-- Settles O54: a port trains or not, a message holds its layout or not, and what it does then goes by the state of the port. -/
theorem linkBringUp : Obligations.LinkBringUp := by
  unfold Obligations.LinkBringUp
  intro p s hl x
  have hp := port_lt hl p
  refine ⟨fun l hd hm => ⟨fun h0 => ?noLanes, fun h0 => ?lanes, fun h0 => ?trained⟩, fun l => portTraining_not, fun l => rfl, mayTrain_iff.mp,
    updVievo_vievo _ hp, rfl, rfl, ⟨fun n => sendKex_again, sendKex_first⟩, fun n => sendConfirm_eq,
    fun n => ⟨newTranscript_keying, newTranscript_rekey, rfl⟩, fun own other => ⟨fun h => if_pos h, fun h => if_neg (Nat.not_lt.mpr h)⟩,
    fun k part body => ⟨link_mem_sendLink .., (sendLink_sentOn ..).index, (sendLink_sentOn ..).host, fun q hq => (sendLink_sentOn ..).other q (mt Fin.ext hq)⟩,
    fun hd hm => ⟨_, portRetrainTimer_trains hd hm, updVievo_vievo _ hp⟩, portRetrainTimer_not, heldRetryTimer_retries, heldRetryTimer_waits,
    fun hd => ⟨?laneDown, ?marginalDown⟩, fun hd => ⟨?laneLost, fun hm => ?marginalAlready, fun hm => ?marginalNow⟩,
    hello_none, fun h v => identity_none v h, kex_none, fun h v => kexConfirm_none v h, fun y t hm => ?hello, fun y t v hm => ?identity, fun y t hm => ?kex,
    fun y t v hm => ?kexConfirm, fun he => ?installed, fun he n hn => ?fenced, fun r => updVievo_vievo _ hp, linkRekey_begins, linkRekey_waits,
    ?retryNot, fun hs ht => ⟨fun hd => ?retryIdentity, discoveryMessageRetry_keys hs ht⟩⟩
  case noLanes => rw [portTraining_trains hd hm, if_pos h0]
  case lanes => rw [portTraining_trains hd hm, if_neg h0]
  case trained =>
    refine ⟨_, (portTraining_trains hd hm).trans (congrArg _ (if_neg h0)), ?_⟩
    have sent := (updVievo_sentOn p (fun x => { x with lanes := lanesUsed l }) s).trans (beginDiscovery_sentOn ..)
    have e := beginDiscovery_vievo (s := s.updVievo p fun x => { x with lanes := lanesUsed l }) (p := p) (by rwa [updVievo_ports_length])
    rw [updVievo_vievo _ hp] at e
    rw [e]
    refine ⟨rfl, rfl, rfl, rfl, rfl, rfl, fun q hq => sent.other q (mt Fin.ext hq), sent.index, sent.host, ?_, fun k hk => ?_⟩
    · exact link_mem_sendIdentity (m := (1, 0, _)) List.mem_cons_self
    · exact link_mem_sendIdentity (m := (2, k, Config.certificate k)) (List.mem_cons_of_mem _ (List.mem_map_of_mem hk))
  case laneDown => rw [portLaneLoss_row, if_pos (beq_iff_eq.mpr hd)]
  case marginalDown => rw [portMarginal_row, if_neg (by simp [show (s.vievo p).state = .down from hd])]
  case laneLost => rw [portLaneLoss_row, if_neg (mt beq_iff_eq.mp hd)]
  case marginalAlready => rw [portMarginal_row, if_neg (by simp [show (s.vievo p).marginal = true from hm])]
  case marginalNow => rw [portMarginal_row, if_pos (by simp [show (s.vievo p).marginal = false from hm, show (s.vievo p).state ≠ .down from hd])]
  case hello =>
    intro b ok
    refine ⟨fun h => (hello_row hm).trans (congrArg _ (wellFormed_broken _ h)), fun h => ?_⟩
    have row := (hello_row hm).trans (congrArg _ (wellFormed_holds _ h))
    exact ⟨fun hd => row.trans (congrArg _ (if_pos (bne_iff_ne.mpr hd))), fun hd => row.trans (congrArg _ (if_neg (by simp [hd])))⟩
  case identity =>
    intro part ok
    refine ⟨fun h => (identity_row v hm).trans (congrArg _ (wellFormed_broken _ h)), fun h => ?_⟩
    have row := (identity_row v hm).trans (congrArg _ (wellFormed_holds _ h))
    refine ⟨fun hd => row.trans (congrArg _ (if_pos (bne_iff_ne.mpr hd))), fun hd w hw => ?_⟩
    replace row := row.trans (congrArg _ (if_neg (by simp [hd])))
    rw [show t.updVievo y.port (Port.identified (field y.body 1 1) y.body) = w from hw.symm] at row
    refine ⟨fun h => row.trans (congrArg _ (judgeIdentity_waits h)), fun h3 hh => ?_⟩
    replace row := row.trans (congrArg _ (judgeIdentity_whole h3 hh))
    refine ⟨?_, ?_⟩
    · rintro rfl; exact row
    · rintro rfl
      exact ⟨fun r hr => by rw [row, hr]; rfl, fun hr => by rw [row, hr]; rfl⟩
  case kex =>
    intro ok
    refine ⟨fun h => (kex_row hm).trans (congrArg _ (wellFormed_broken _ h)), fun h => ?_⟩
    have row := (kex_row hm).trans (congrArg _ (wellFormed_holds _ h))
    refine ⟨fun hn => row.trans (congrArg _ (if_pos ?_)), fun hk hx w hw => hw ▸ row.trans (congrArg _ (if_neg (by simp [hk, hx])))⟩
    rcases hn with hn | hn <;> simp [hn]
  case kexConfirm =>
    intro ok
    refine ⟨fun h => (kexConfirm_row v hm).trans (congrArg _ (wellFormed_broken _ h)), fun h => ?_⟩
    have row := (kexConfirm_row v hm).trans (congrArg _ (wellFormed_holds _ h))
    refine ⟨fun hn => row.trans (congrArg _ (if_pos ?_)), fun hk hx => row.trans (congrArg _ (if_neg (by simp [hk, hx])))⟩
    rcases hn with hn | hn <;> simp [hn]
  case installed =>
    intro z
    have e : z = Port.keyed s.clock x := (congrArg (State.vievo p) (installKeys_installs he)).trans (updVievo_vievo _ hp)
    rw [e]
    refine ⟨rfl, rfl, rfl, rfl, rfl, rfl, rfl, fun n hn => ?_⟩
    simp only [Port.keyed, hn, Option.getD_some, linkKey, and_self]
  case fenced =>
    intro z
    have e : z = _ := congrArg (State.vievo p) (installKeys_fenced hp he hn)
    rw [e, updVievo_vievo _ (by simpa [State.linkDown] using hp), State.linkDown, updVievo_vievo _ (by rwa [updVievo_ports_length])]
    exact ⟨rfl, rfl⟩
  case retryNot =>
    intro h
    rcases h with h | h | h
    · exact discoveryMessageRetry_early (.inl h)
    · exact discoveryMessageRetry_early (.inr h)
    · exact discoveryMessageRetry_idle h
  case retryIdentity => rw [discoveryMessageRetry_late hs ht, show (s.vievo p).state = .discoveryOnly from hd]

end Sys2Proof.Machine

/-! ### Proofs: fabric status, route images, gate lists and fabric time (O44) -/

namespace Sys2Proof.Machine

section
variable {m : Mbx} {tag : Word} {f : Flight} {s : State}

/-! #### FABRIC_STATUS -/

/-- The entries of the 32 ports (Table 16-16). -/
def State.portEntries (s : State) : Bytes := s.fabric.ports.zipIdx.flatMap fun (x, i) => portEntry s.clock i x

/-- After its opening FABRIC_STATUS goes by its page, and page 1 by its mailbox (R418). -/
theorem fabricStatus_row (ht : s.turn 0x6001 m tag f) (ho : f.opens 8 8) (hz : zeroField f.plain 1 7 = true) : exec (.fabricStatus m tag) s =
    .next (s.outcome f (fields [(0, decide (field f.plain 0 1 ≤ 1)), (1, true)] >>= fun _ =>
      if field f.plain 0 1 = 0 then .ok (s.answer f .done s.fabricSummary)
      else need (decide (4096 ≤ f.mbx)) (notAuthorised 0x20) >>= fun _ => .ok (s.answer f .done s.portEntries))) := by
  refine congrArg _ ((start_outcome ht).trans (congrArg (s.outcome f) ?_))
  rw [opening_ok ho, ok_bind]
  dsimp only
  rw [hz]
  rfl

theorem fabricStatus_page (ht : s.turn 0x6001 m tag f) (ho : f.opens 8 8) (hz : zeroField f.plain 1 7 = true) (hp : field f.plain 0 1 ≤ 1) :
    exec (.fabricStatus m tag) s = .next (s.outcome f (if field f.plain 0 1 = 0 then .ok (s.answer f .done s.fabricSummary)
      else need (decide (4096 ≤ f.mbx)) (notAuthorised 0x20) >>= fun _ => .ok (s.answer f .done s.portEntries))) := by
  rw [fabricStatus_row ht ho hz, decide_eq_true hp, fields_cons, fields_cons, fields_nil, ok_bind]

theorem fabricStatus_no_page (ht : s.turn 0x6001 m tag f) (ho : f.opens 8 8) (hz : zeroField f.plain 1 7 = true) (hp : 2 ≤ field f.plain 0 1) :
    exec (.fabricStatus m tag) s = .next (s.answerDetail f (bad 0x20)) := by
  rw [fabricStatus_row ht ho hz, decide_eq_false (by omega)]
  rfl

/-! #### ROUTE_LOAD and ROUTE_ACTIVATE -/

/-- A module is bound to its node ID by a composition, a partition or records it holds (R399). -/
def State.bound (s : State) : Bool := s.comp.compositions.length != 0 || s.comp.partition != 0 || s.comp.sources.length != 0

theorem bound_iff : s.bound = true ↔ s.comp.compositions ≠ [] ∨ s.comp.partition ≠ 0 ∨ s.comp.sources ≠ [] := by
  simp [State.bound, or_assoc]

theorem not_bound_iff : s.bound = false ↔ s.comp.compositions = [] ∧ s.comp.partition = 0 ∧ s.comp.sources = [] := by
  simp [State.bound, and_assoc]

/-- An image with a faulty entry is refused at it (R400). -/
theorem routeLoad_faulty {n : Nat} (ht : s.turn 0x6010 m tag f) (ho : f.opens 262912 262912)
    (hf : fields (routeFields f.plain (routeGen s.routeImage) s.fabTime) = .ok ()) (hr : routeFault f.plain = some n) :
    exec (.routeLoad m tag) s = .next (s.answerDetail f (bad (0x20 + 0x300 + 4 * n))) := by
  refine congrArg Host.Outcome.next (start_error ht ?_)
  rw [opening_ok ho, ok_bind]
  dsimp only
  rw [hf, ok_bind, hr]

/-- A faultless image goes by what waits, and by its node ID (R399, R400). -/
theorem routeLoad_faultless (ht : s.turn 0x6010 m tag f) (ho : f.opens 262912 262912)
    (hf : fields (routeFields f.plain (routeGen s.routeImage) s.fabTime) = .ok ()) (hr : routeFault f.plain = none) :
    exec (.routeLoad m tag) s = .next (s.outcome f (need s.fabric.routeWait.isNone wrongState >>= fun _ =>
      need (s.fabric.route.isNone || field f.plain 0xC 2 == s.nodeId || !s.bound) (wrongStateAt 0x2C) >>= fun _ =>
      .ok (({ s with fabric.routeWait := some { image := f.plain, mbx := f.mbx, tag := f.tag } } : State).setWork f .eventWait))) := by
  refine congrArg Host.Outcome.next ((start_outcome ht).trans (congrArg (s.outcome f) ?_))
  rw [opening_ok ho, ok_bind]
  dsimp only
  rw [hf, ok_bind, hr]
  rfl

/-- The state in which a waiting image has come into force, and every port is judged by it (R397, R400). -/
def State.routed (w : RouteWait) (s : State) : State :=
  (List.range 32).foldl (fun (s : State) p => s.rejudge p) ({ s with fabric.route := some w.image, fabric.routeWait := none } : State)

theorem routeActivate_none (h : s.fabric.routeWait = none) : exec .routeActivate s = .next s := by
  show execRouteActivate s = _
  simp only [execRouteActivate, h]

theorem routeActivate_row {w : RouteWait} (h : s.fabric.routeWait = some w) : exec .routeActivate s = .next (
    if field w.image 0x18 8 ≤ s.fabTime then
      ((s.routed w).flight w.mbx w.tag).elim (s.routed w) fun g => (s.routed w).answer g .done (leBytes 4 (routeGen w.image) ++ zeros 4)
    else s) := by
  have routed : (List.range 32).foldl (fun (s : State) p => s.rejudge p) ({ s with fabric.route := some w.image, fabric.routeWait := none } : State) =
    s.routed w := rfl
  show execRouteActivate s = _
  simp only [execRouteActivate, h, routed]
  cases (s.routed w).flight w.mbx w.tag with
  | none => simp only [Option.elim_none]
  | some g => simp only [Option.elim_some]

/-! #### Gate lists -/

/-- The lists that a new one replaces on the ports it names (R412). -/
def State.gatesReplaced (b : Bytes) (s : State) : List GateWait :=
  s.fabric.ports.zipIdx.filterMap fun (x, i) => if bit (field b 8 4) i then x.gateWait else none

/-- A list waits on the ports that it names (R412). -/
def State.gatesWait (b : Bytes) (w : GateWait) (s : State) : State :=
  (List.range 32).foldl (fun s p => if bit (field b 8 4) p then s.updVievo p fun x => { x with gateWait := some w } else s) s

/-- GATE_LIST_LOAD with its checks passed (R411, R412). -/
theorem gateListLoad_waits (ht : s.turn 0x6011 m tag f) (ho : f.opens 0x40 576) (hmagic : field f.plain 0 4 = 0x474D4954) (hver : field f.plain 4 2 = 1)
    (h1 : 1 ≤ field f.plain 6 1) (h64 : field f.plain 6 1 ≤ 64) (hlen : f.plain.length = 0x40 + 8 * field f.plain 6 1) (hf : fields (gateFields f.plain) = .ok ()) :
    exec (.gateListLoad m tag) s = .next ((s.gatesReplaced f.plain).eraseDups.foldl
      (fun s e => s.gateSettled e.mbx e.tag (s.fabric.ports.any fun x => x.gates == e.list))
      ((s.gatesWait f.plain { list := readGates f.plain, at_ := gateBoundary (readGates f.plain) (max (field f.plain 0x10 8) s.fabTime)
                              mbx := f.mbx, tag := f.tag }).setWork f .eventWait)) := by
  refine congrArg _ (start_ok ht ?_)
  have e : fields [(0, field f.plain 0 4 == 0x474D4954), (4, field f.plain 4 2 == 1), (6, decide (1 ≤ field f.plain 6 1) && decide (field f.plain 6 1 ≤ 64))] = .ok () := by
    rw [beq_iff_eq.mpr hmagic, beq_iff_eq.mpr hver, decide_eq_true h1, decide_eq_true h64]
    rfl
  rw [opening_ok ho, ok_bind]
  dsimp only
  rw [e, ok_bind, need_ok (beq_iff_eq.mpr hlen), ok_bind, hf, ok_bind]
  rfl

section
variable {p : Fin 32}

theorem gateListActivate_none (h : (s.vievo p).gateWait = none) : exec (.gateListActivate p) s = .next s := by
  show execGateListActivate _ s = _
  simp only [execGateListActivate, h]

theorem gateListActivate_row {w : GateWait} (h : (s.vievo p).gateWait = some w) : exec (.gateListActivate p) s = .next (
    if w.at_ ≤ s.fabTime then (s.updVievo p fun x => { x with gates := w.list, gateWait := none }).gateSettled w.mbx w.tag else s) := by
  show execGateListActivate _ s = _
  simp only [execGateListActivate, h]

end

/-- A cycle boundary of a list: the first at or after a time, whole cycles away from the list's base (R411). -/
theorem gateBoundary_first (g : GateList) (t : Nat) : t ≤ gateBoundary g t ∧ gateBoundary g t < t + max (gateCycle g) 1 ∧
    ∃ k : Nat, g.base + k * max (gateCycle g) 1 = gateBoundary g t ∨ g.base = gateBoundary g t + k * max (gateCycle g) 1 := by
  have pos : (0 : Int) < max (gateCycle g) 1 := by omega
  have low : 0 ≤ ((g.base : Int) - t).emod (max (gateCycle g) 1 : Nat) := Int.emod_nonneg _ (by omega)
  have high : ((g.base : Int) - t).emod (max (gateCycle g) 1 : Nat) < (max (gateCycle g) 1 : Nat) := Int.emod_lt_of_pos _ (by omega)
  have whole : ((g.base : Int) - t).emod (max (gateCycle g) 1 : Nat) + (max (gateCycle g) 1 : Nat) * (((g.base : Int) - t) / (max (gateCycle g) 1 : Nat)) =
    g.base - t := Int.emod_add_mul_ediv ..
  have bound : (gateBoundary g t : Int) = t + ((g.base : Int) - t).emod (max (gateCycle g) 1 : Nat) := Int.toNat_of_nonneg (by omega)
  generalize max (gateCycle g) 1 = cyc at *
  generalize ((g.base : Int) - t).emod cyc = r at *
  generalize ((g.base : Int) - t) / cyc = k at *
  generalize gateBoundary g t = b at *
  refine ⟨by omega, by omega, k.natAbs, ?_⟩
  zify
  rcases abs_choice k with hk | hk
  · right
    rw [hk, mul_comm]
    omega
  · left
    rw [hk, mul_comm, mul_neg]
    omega

/-! #### Fabric time -/

/-- A log interval that ends touches nothing but the tenants' log (R446). -/
theorem endLogInterval_tenants_only (s : State) : ∃ t, s.endLogInterval = { s with tenants := t } := by
  have fold (l : List (Nat × Nat)) (s : State) : ∃ t, l.foldl (fun s e =>
      if e.2 = 0 then s else s.logAppend { seq := 0, time := 0, kind := 11, tenant := e.1, detail := e.2 }) s = { s with tenants := t } := by
    induction l generalizing s with
    | nil => exact ⟨s.tenants, rfl⟩
    | cons e l ih =>
      rw [List.foldl_cons]
      obtain ⟨t, ht⟩ := ih (if e.2 = 0 then s else s.logAppend { seq := 0, time := 0, kind := 11, tenant := e.1, detail := e.2 })
      rw [ht]
      split
      · exact ⟨t, rfl⟩
      · exact ⟨t, rfl⟩
  obtain ⟨t, ht⟩ := fold s.tenants.logSuppressed s
  rw [State.endLogInterval, ht]
  exact ⟨_, rfl⟩

theorem time_none (r : TimeReading) (h : s.takeMessage 0x02 [] = none) : exec (.time r) s = .next s := by
  show execTime _ s = _
  simp only [execTime, h]

/-- Since when a reading's offsets have stayed within 100 ns (R415). -/
def State.closeFrom (r : TimeReading) (s : State) : Option Nat := if closeOffset r.offset then some (s.fabric.closeSince.getD s.clock) else none

/-- What a parent's reading makes of the time state (R415). -/
def State.timeFrom (r : TimeReading) (s : State) : TimeState :=
  if s.fabric.lockedOnce && ((s.closeFrom r).any fun t => decide (t + 1000000000 ≤ s.clock)) then .locked
  else if s.fabric.time == .locked then .locked else .acquiring

theorem time_row {x : Inbound} {u : State} (r : TimeReading) (h : s.takeMessage 0x02 [] = some (x, u)) : exec (.time r) s = .next (
    if !r.parent then { u with fabric.grandmaster := r.self && bit (field u.routeImage 6 2) 0 }
    else { u with
      fabric.grandmaster := r.self && bit (field u.routeImage 6 2) 0
      fabric.offsetNs := r.offset, fabric.stepsRemoved := r.steps.toNat, fabric.gmId := r.gm.toNat
      fabric.closeSince := u.closeFrom r, fabric.time := u.timeFrom r }) := by
  show execTime _ s = _
  simp only [execTime, h]
  rfl

theorem closeFrom_close {r : TimeReading} (h : -100 ≤ r.offset ∧ r.offset ≤ 100) : s.closeFrom r = some (s.fabric.closeSince.getD s.clock) :=
  if_pos (decide_eq_true h)

theorem closeFrom_far {r : TimeReading} (h : ¬(-100 ≤ r.offset ∧ r.offset ≤ 100)) : s.closeFrom r = none :=
  if_neg (by rw [closeOffset, decide_eq_true_eq]; exact h)

theorem timeFrom_locked {r : TimeReading} (h : s.fabric.time = .locked) : s.timeFrom r = .locked := by
  simp [State.timeFrom, h]

theorem timeFrom_locks {r : TimeReading} {c : Nat} (h : s.fabric.lockedOnce = true) (hc : s.closeFrom r = some c) (ht : c + 1000000000 ≤ s.clock) :
    s.timeFrom r = .locked := by
  rw [State.timeFrom, h, hc, Option.any_some, decide_eq_true ht, Bool.and_self, if_pos rfl]

theorem timeFrom_acquiring {r : TimeReading} (hn : s.fabric.time ≠ .locked)
    (h : s.fabric.lockedOnce = false ∨ ∀ c, s.closeFrom r = some c → s.clock < c + 1000000000) : s.timeFrom r = .acquiring := by
  have e : (s.fabric.lockedOnce && ((s.closeFrom r).any fun t => decide (t + 1000000000 ≤ s.clock))) = false := by
    rcases h with h | h
    · rw [h, Bool.false_and]
    · cases hc : s.closeFrom r with
      | none => rw [Option.any_none, Bool.and_false]
      | some c => rw [Option.any_some, decide_eq_false (Nat.not_le.mpr (h c hc)), Bool.and_false]
  rw [State.timeFrom, e]
  simp [hn]

theorem timeFirstLock_steps {t : Nat} (hc : s.fabric.closeSince = some t) (ht : t + 1000000000 ≤ s.clock) (hl : s.fabric.lockedOnce = false) :
    exec .timeFirstLock s = .next (({ s with fabric.time := .locked, fabric.lockedOnce := true, fabric.offsetNs := 0 } : State).stepTime s.fabric.offsetNs) := by
  show execTimeFirstLock s = _
  simp only [execTimeFirstLock, hc, hl, decide_eq_true ht, Bool.not_false, Bool.and_self, if_true]

theorem timeFirstLock_not (h : s.fabric.lockedOnce = true ∨ ∀ t, s.fabric.closeSince = some t → s.clock < t + 1000000000) :
    exec .timeFirstLock s = .next s := by
  cases hc : s.fabric.closeSince with
  | none =>
    show execTimeFirstLock s = _
    simp only [execTimeFirstLock, hc]
  | some t =>
    show execTimeFirstLock s = _
    simp only [execTimeFirstLock, hc]
    refine congrArg _ (if_neg ?_)
    rcases h with h | h
    · simp [h]
    · simp [Nat.not_le.mpr (h t hc)]

end

/-- Settles O44: a page, an image and a list are refused or taken, what waits is due or not, and time locks after 1 s within 100 ns. -/
theorem fabricImages : Obligations.FabricImages := by
  unfold Obligations.FabricImages
  intro m tag f s
  refine ⟨fun ht ho hz => ⟨fun hp => ?summary, fun hp hm => ?ports, fun hp hm => ?notManagement, fabricStatus_no_page ht ho hz⟩,
    fun ht ho hf => ⟨fun n => routeLoad_faulty ht ho hf, fun hr => ⟨fun hw => ?waits, fun hw hb => ?loads, fun hw hr' hn hb => ?bound⟩⟩,
    routeActivate_none, fun w hw => ⟨fun h => ?routeEarly, fun h => ?routeDue⟩,
    gateListLoad_waits, fun p => gateListActivate_none, fun p w hw => ⟨fun h => ?gatesEarly, fun h => ?gatesDue⟩, gateBoundary_first,
    fun r => time_none r, fun x u r hm => ⟨fun hp => ?ownTime, fun hp => ?parentTime⟩, fun t hc ht hl => ?firstLock, timeFirstLock_not, ?holdover⟩
  case summary => rw [fabricStatus_page ht ho hz (by omega), if_pos hp]; rfl
  case ports => rw [fabricStatus_page ht ho hz (by omega), if_neg (by omega), need_ok (decide_eq_true hm)]; rfl
  case notManagement => rw [fabricStatus_page ht ho hz (by omega), if_neg (by omega), need_error (decide_eq_false (by omega))]; rfl
  case waits => rw [routeLoad_faultless ht ho hf hr, need_error (by simpa [Option.isSome_iff_ne_none] using hw)]; rfl
  case loads =>
    have e : (s.fabric.route.isNone || field f.plain 0xC 2 == s.nodeId || !s.bound) = true := by
      rcases hb with hb | hb | hb
      · simp [hb]
      · simp [hb]
      · simp [not_bound_iff.mpr hb]
    rw [routeLoad_faultless ht ho hf hr, hw, Option.isNone_none, need_ok rfl, ok_bind, need_ok e]
    rfl
  case bound =>
    have e : (s.fabric.route.isNone || field f.plain 0xC 2 == s.nodeId || !s.bound) = false := by
      simp [Option.isSome_iff_ne_none.mpr hr', hn, bound_iff.mpr hb]
    rw [routeLoad_faultless ht ho hf hr, hw, Option.isNone_none, need_ok rfl, ok_bind, need_error e]
    rfl
  case routeEarly => rw [routeActivate_row hw, if_neg (Nat.not_le.mpr h)]
  case routeDue =>
    intro u
    have row := routeActivate_row hw
    rw [if_pos h, show s.routed w = u from rfl] at row
    exact ⟨fun g hg => by rw [row, hg, Option.elim_some], fun hg => by rw [row, hg, Option.elim_none]⟩
  case gatesEarly => rw [gateListActivate_row hw, if_neg (Nat.not_le.mpr h)]
  case gatesDue => rw [gateListActivate_row hw, if_pos h]
  case ownTime => rw [time_row r hm, hp]; rfl
  case parentTime =>
    refine ⟨_, (time_row r hm).trans (congrArg _ (if_neg (by simp [hp]))), rfl, rfl, rfl, rfl, rfl, rfl, closeFrom_far, closeFrom_close, timeFrom_locked,
      fun hn => ⟨fun c hl hc ht => timeFrom_locks hl hc ht, timeFrom_acquiring hn⟩⟩
  case firstLock =>
    have row := timeFirstLock_steps hc ht hl
    obtain ⟨v, hv⟩ := endLogInterval_tenants_only ({ s with
      fabric.time := .locked, fabric.lockedOnce := true, fabric.offsetNs := 0, fabTime := ((s.fabTime : Int) - s.fabric.offsetNs).toNat
      governor.lastTick := ((s.fabTime : Int) - s.fabric.offsetNs).toNat } : State)
    refine ⟨_, row.trans (congrArg _ hv), rfl, rfl, rfl, timeFirstLock_not (.inl rfl)⟩
  case holdover =>
    refine ⟨_, rfl, rfl, rfl, fun h => if_pos (by simpa using h), fun h => if_neg ?_⟩
    rcases h with h | h <;> simp [h]

end Sys2Proof.Machine

/-! ### Proofs: tenants, meters, the log and diagnostics (O26) -/

namespace Sys2Proof.Machine

/-- A list of field checks that all hold (R48). -/
theorem fields_all {l : List (Nat × Bool)} (h : ∀ e ∈ l, e.2 = true) : fields l = .ok () := by
  induction l with
  | nil => rfl
  | cons e l ih =>
    obtain ⟨o, b⟩ := e
    rw [show b = true from h _ List.mem_cons_self, fields_cons]
    exact ih fun e he => h e (List.mem_cons_of_mem _ he)

section
variable {m : Mbx} {tag : Word} {f : Flight} {s : State}

/-! #### Tenants -/

/-- A tenant's configuration within the ranges of Table 17-2. -/
def configHolds (b : Bytes) : Prop :=
  field b 0 2 < 4096 ∧ (readTenant b).cls ≤ 2 ∧ field b 3 1 = 0 ∧
    (if (readTenant b).rate = 0 then (readTenant b).burst = 0 else (readTenant b).rate ≤ (readTenant b).burst * 1000) ∧
    1 ≤ (readTenant b).inflight ∧ (readTenant b).inflight ≤ 4096 ∧ zeroField b 0xE 2 = true ∧ (readTenant b).hbmQuota ≤ 1280 ∧
    (readTenant b).flashQuota ≤ 262144

/-- TENANT_CONFIGURE with valid fields stores the configuration and enables the tenant, unless it would be a 65th Control tenant (R423, R424). -/
theorem tenantConfigure_row (ht : s.turn 0x0020 m tag f) (ho : f.opens 24 24) (hc : configHolds f.plain) :
    let c := readTenant f.plain
    let t := field f.plain 0 2
    exec (.tenantConfigure m tag) s = .next (s.outcome f (need (c.cls != 2 || decide (s.otherControls t < 64)) (noResources 64) >>= fun _ =>
      .ok (({ s.rebucket t c with
        tenants.config := (s.rebucket t c).tenants.config.put t c
        tenants.disabled := (s.rebucket t c).tenants.disabled.filter (· != t) } : State).answer f .done []))) := by
  obtain ⟨h0, h2, h3, h8, hc1, hc2, he, h10, h14⟩ := hc
  refine congrArg Host.Outcome.next ((start_outcome ht).trans (congrArg (s.outcome f) ?_))
  have rate : (if (readTenant f.plain).rate = 0 then (readTenant f.plain).burst == 0
      else decide ((readTenant f.plain).rate ≤ (readTenant f.plain).burst * 1000)) = true := by
    split at h8
    · next hr => rw [if_pos hr]; exact beq_iff_eq.mpr h8
    · next hr => rw [if_neg hr]; exact decide_eq_true h8
  rw [opening_ok ho, ok_bind]
  dsimp only
  rw [fields_all (by
    simp only [List.forall_mem_cons, List.not_mem_nil, false_imp_iff, implies_true, and_true, decide_eq_true_eq, beq_iff_eq, Bool.and_eq_true]
    exact ⟨h0, h2, h3, rate, ⟨hc1, hc2⟩, he, h10, h14⟩), ok_bind]

/-- The state in which a tenant is disabled (R425). -/
def State.withDisabled (t : Nat) (s : State) : State :=
  { s with tenants.disabled := if s.tenants.disabled.contains t then s.tenants.disabled else t :: s.tenants.disabled }

/-- TENANT_DISABLE with valid fields disables the tenant, and waits for its commands or zeroises its keys (R425). -/
theorem tenantDisable_row (ht : s.turn 0x0021 m tag f) (ho : f.opens 8 8) (h0 : field f.plain 0 2 < 4096) (h2 : field f.plain 2 2 < 2)
    (h4 : zeroField f.plain 4 4 = true) : exec (.tenantDisable m tag) s = .next (
      let t := field f.plain 0 2
      if bit (field f.plain 2 2) 0 then ((s.withDisabled t).setWork f .fillWait).beginZeroise
        { mbx := f.mbx, tag := f.tag, scope := 1, tenant := t, keyId := 0, collections := s.zeroiseColls 1 t 0, forDisable := true }
      else ((s.withDisabled t).setWork f (.disableWait t)).settle) := by
  refine congrArg Host.Outcome.next (start_ok ht ?_)
  rw [opening_ok ho, ok_bind]
  dsimp only
  rw [fields_all (by
    simp only [List.forall_mem_cons, List.not_mem_nil, false_imp_iff, implies_true, and_true, decide_eq_true_eq]
    exact ⟨h0, h2, h4⟩), ok_bind]
  split <;> rfl

/-! #### Meters and the log -/

theorem meterRead_answers (ht : s.turn 0x7020 m tag f) (hp : f.plain = []) (hc : f.hdr.csn = 0) :
    exec (.meterRead m tag) s = .next (s.answer f .done (s.meterRecord f.tenant)) := by
  refine congrArg Host.Outcome.next (start_ok ht ?_)
  rw [need_ok (by rw [hp]; rfl), ok_bind, csnZero, need_ok (beq_iff_eq.mpr hc), ok_bind]

/-- METER_READ_ALL with valid fields answers the records that fit, and clears them where asked (R445). -/
theorem meterReadAll_answers (ht : s.turn 0x7021 m tag f) (ho : f.opens 8 8) (h1 : 1 ≤ field f.plain 2 2)
    (hn : field f.plain 0 2 + field f.plain 2 2 ≤ 4096) (h4 : field f.plain 4 2 < 4) (h6 : zeroField f.plain 6 2 = true) :
    let all := (List.range (field f.plain 2 2)).map (field f.plain 0 2 + ·) ++ (if bit (field f.plain 4 2) 0 then [moduleKey] else [])
    let fit := all.take (s.rspPlain f.mbx / 352)
    exec (.meterReadAll m tag) s =
      .next ((if bit (field f.plain 4 2) 1 then fit.foldl (fun s t => s.clearMeters t) s else s).answer f
        (if fit.length = all.length then .done else .doneTruncated) (fit.flatMap fun t => s.meterRecord t)) := by
  refine congrArg Host.Outcome.next (start_ok ht ?_)
  rw [opening_ok ho, ok_bind]
  dsimp only
  rw [fields_all (by
    simp only [List.forall_mem_cons, List.not_mem_nil, false_imp_iff, implies_true, and_true, decide_eq_true_eq, Bool.and_eq_true]
    exact ⟨by omega, ⟨⟨h1, by omega⟩, hn⟩, h4, h6⟩), ok_bind]

/-- The sequence of the oldest entry that the log keeps, or of the next one (R447). -/
def State.oldestSeq (s : State) : Nat := (s.tenants.log.head?.map (·.seq)).getD s.tenants.logNext

theorem oldestSeq_eq (s : State) : (match s.tenants.log with | e :: _ => e.seq | [] => s.tenants.logNext) = s.oldestSeq := by
  unfold State.oldestSeq
  cases s.tenants.log <;> rfl

/-- LOG_READ with valid fields answers the entries from FROM on that fit (R447). -/
theorem logRead_answers (ht : s.turn 0x7030 m tag f) (ho : f.opens 16 16) (h1 : 1 ≤ field f.plain 8 2) (h2 : field f.plain 8 2 ≤ 4096)
    (hz : zeroField f.plain 10 6 = true) :
    let start := min (max (max (field f.plain 0 8) 1) s.oldestSeq) s.tenants.logNext
    let want := min (field f.plain 8 2) (s.tenants.logNext - start)
    let n := min want ((s.rspPlain f.mbx - 24) / 32)
    exec (.logRead m tag) s = .next (s.answer f (if n = want then .done else .doneTruncated)
      (leBytes 8 start ++ leBytes 8 (start + n) ++ leBytes 4 (min (s.oldestSeq - max (field f.plain 0 8) 1) 0xFFFFFFFF) ++ leBytes 4 n ++
        ((s.tenants.log.filter fun e => start ≤ e.seq).take n).flatMap logEntryBytes)) := by
  refine congrArg Host.Outcome.next (start_ok ht ?_)
  rw [opening_ok ho, ok_bind]
  dsimp only
  rw [fields_all (by
    simp only [List.forall_mem_cons, List.not_mem_nil, false_imp_iff, implies_true, and_true, decide_eq_true_eq, Bool.and_eq_true]
    exact ⟨⟨h1, h2⟩, hz⟩), ok_bind]
  exact congrArg (fun o =>
    let start := min (max (max (field f.plain 0 8) 1) o) s.tenants.logNext
    let want := min (field f.plain 8 2) (s.tenants.logNext - start)
    let n := min want ((s.rspPlain f.mbx - 24) / 32)
    Except.ok (s.answer f (if n = want then .done else .doneTruncated)
      (leBytes 8 start ++ leBytes 8 (start + n) ++ leBytes 4 (min (o - max (field f.plain 0 8) 1) 0xFFFFFFFF) ++ leBytes 4 n ++
        ((s.tenants.log.filter fun e => start ≤ e.seq).take n).flatMap logEntryBytes))) (oldestSeq_eq s)

/-! #### DIAG_RUN -/

/-- A test that is asked for begins, unless it is running already (R448). -/
theorem diagRun_begins {pass fail us : Word} (ht : s.turn 0x7031 m tag f) (ho : f.opens 8 8) (h1 : 1 ≤ field f.plain 0 1) (h4 : field f.plain 0 1 ≤ 4)
    (hd : field f.plain 0 1 = 3 → field f.plain 2 2 ≤ 19) (hp : field f.plain 0 1 = 4 → field f.plain 2 2 ≤ 63) (hr : field f.plain 1 1 = 0)
    (hz : zeroField f.plain 4 4 = true) : exec (.diagRun m tag pass fail us) s = .next (s.outcome f (
      need (!s.diagRunning (field f.plain 0 1)) (busyRetry 1000) >>= fun _ =>
      .ok (s.setWork f (.diagWait (field f.plain 0 1) (field f.plain 2 2))))) := by
  have ⟨hf, _, hw, _⟩ := ht
  have e3 : (field f.plain 0 1 != 3 || decide (field f.plain 2 2 ≤ 19)) = true := by simpa [imp_iff_not_or] using hd
  have e4 : (field f.plain 0 1 != 4 || decide (field f.plain 2 2 ≤ 63)) = true := by simpa [imp_iff_not_or] using hp
  show execDiagRun _ _ _ _ _ s = _
  simp only [execDiagRun, hf, hw]
  refine congrArg Host.Outcome.next ((start_outcome ht).trans (congrArg (s.outcome f) ?_))
  rw [opening_ok ho, ok_bind]
  rw [fields_all (by
    simp only [List.forall_mem_cons, List.not_mem_nil, false_imp_iff, implies_true, and_true, decide_eq_true_eq, Bool.and_eq_true, beq_iff_eq]
    exact ⟨⟨h1, h4⟩, hr, ⟨e3, e4⟩, hz⟩), ok_bind]

/-- A test that runs ends with its counts (R448). -/
theorem diagRun_ends {pass fail us : Word} {a b : Nat} (hf : s.flight m.key tag = some f) (hw : f.work = .diagWait a b) :
    exec (.diagRun m tag pass fail us) s =
      .next (s.answer f .done (leBytes 4 pass.toNat ++ leBytes 4 fail.toNat ++ leBytes 4 us.toNat ++ zeros 20)) := by
  show execDiagRun _ _ _ _ _ s = _
  simp only [execDiagRun, hf, hw]

/-! #### NBU_DIAG_READ -/

/-- The NBUs that NBU_DIAG_READ names: one, or all of them (R190). -/
def nbusNamed (n : Nat) : List Nat := if n == 0xFFFF then List.range 1280 else [n]

/-- The answer of entries that are cut to whole blocks (R190). -/
def State.answerFit (f : Flight) (l : List Bytes) (s : State) : State :=
  s.answer f (if (fitEntries (s.rspPlain f.mbx) l).2 then .done else .doneTruncated) (fitEntries (s.rspPlain f.mbx) l).1.flatten

/-- What PATTERN does on an NBU that runs none (R192). -/
def State.runPattern (n inj : Nat) (f : Flight) (s : State) : State :=
  let us := 10 + Config.free s.free % 21
  let found := patternFinds inj (Config.free (s.free + 1))
  (({ s with free := s.free + 2 } : State).updNbu n (Nbu.patterned s.clock s.fabTime us found)).answer f .done
    (leBytes 4 found.1 ++ leBytes 4 found.2.1 ++ leBytes 4 found.2.2.1 ++ leBytes 4 us ++ zeros 16)

/-- The status or the counters of the NBUs named (R190, R191). -/
theorem nbuDiagRead_reads (ht : s.turn 0x7032 m tag f) (ho : f.opens 8 8) (hz : zeroField f.plain 5 3 = true)
    (hn : field f.plain 0 2 ≤ 1279 ∨ field f.plain 0 2 = 0xFFFF) (h3 : field f.plain 3 1 = 0) (h4 : field f.plain 4 1 = 0) :
    let u := s.foundIn (nbusNamed (field f.plain 0 2))
    (field f.plain 2 1 = 0 → exec (.nbuDiagRead m tag) s =
      .next (u.answerFit f ((nbusNamed (field f.plain 0 2)).map fun k => u.nbuStatus k))) ∧
    (field f.plain 2 1 = 1 → exec (.nbuDiagRead m tag) s = .next (u.answerFit f
      [(List.range 8).flatMap fun i => leBytes 8 (counterOf ((nbusNamed (field f.plain 0 2)).map fun k => u.nbu k) (8 * i))])) := by
  refine ⟨fun hop => ?_, fun hop => ?_⟩ <;>
  · refine congrArg Host.Outcome.next (start_ok ht ?_)
    dsimp only
    rw [opening_ok ho, ok_bind, hop]
    rw [fields_all (by simp [hn, h3, h4, hz]), ok_bind, need_ok (by simp), ok_bind]
    rfl

/-- The log of one NBU (R190). -/
theorem nbuDiagRead_log (ht : s.turn 0x7032 m tag f) (ho : f.opens 8 8) (hz : zeroField f.plain 5 3 = true) (hn : field f.plain 0 2 ≤ 1279)
    (hop : field f.plain 2 1 = 2) (h3 : field f.plain 3 1 = 0) (h4 : field f.plain 4 1 = 0) : exec (.nbuDiagRead m tag) s =
      .next (s.answerFit f ((leBytes 4 (s.nbu (field f.plain 0 2)).log.length ++ zeros 12) ::
        (s.nbu (field f.plain 0 2)).log.map fun e => leBytes 8 e.time ++ leBytes 4 e.addr ++ leBytes 1 e.kind ++ leBytes 1 e.bytes ++ zeros 2)) := by
  refine congrArg Host.Outcome.next (start_ok ht ?_)
  dsimp only
  rw [opening_ok ho, ok_bind, hop]
  rw [fields_all (by simp [hn, h3, h4, hz]), ok_bind, need_ok (by simp), ok_bind]
  rfl

/-- PATTERN on one NBU, which is not OFFLINE and runs none (R192). -/
theorem nbuDiagRead_pattern (ht : s.turn 0x7032 m tag f) (ho : f.opens 8 8) (hz : zeroField f.plain 5 3 = true) (hn : field f.plain 0 2 ≤ 1279)
    (hop : field f.plain 2 1 = 3) (h3 : field f.plain 3 1 ≤ 3) (h4 : field f.plain 4 1 ≤ 7) : exec (.nbuDiagRead m tag) s = .next (s.outcome f (
      need (!((s.nbu (field f.plain 0 2)).state == 2)) (wrongStateAt 0x20) >>= fun _ =>
      need (decide ((s.nbu (field f.plain 0 2)).patternUntil ≤ s.clock)) (busyRetry 50) >>= fun _ =>
      .ok (s.runPattern (field f.plain 0 2) (field f.plain 4 1) f))) := by
  refine congrArg Host.Outcome.next ((start_outcome ht).trans (congrArg (s.outcome f) ?_))
  dsimp only
  rw [opening_ok ho, ok_bind, hop]
  rw [fields_all (by simp [hn, h3, h4, hz]), ok_bind]
  rfl

end

/-- Settles O26: each command's fields hold, and it then goes by what it asks for and by what runs. -/
theorem tenantCommands : Obligations.TenantCommands := by
  unfold Obligations.TenantCommands
  intro m tag f s
  refine ⟨?configure, ?disable, meterRead_answers, meterReadAll_answers, ?log, fun h => congrArg Host.Outcome.next (if_pos h), ?diagBegin,
    fun pass fail us a b => diagRun_ends, ?nbu⟩
  case configure =>
    rintro c t ht ho rfl rfl h0 h2 h3 h8 hi1 hi2 he h10 h14
    have row := tenantConfigure_row ht ho ⟨h0, h2, h3, h8, hi1, hi2, he, h10, h14⟩
    refine ⟨fun h => ?_, fun hc h => ?_⟩
    · rw [row, need_ok]
      · rfl
      · by_cases hc : (readTenant f.plain).cls = 2
        · rw [decide_eq_true (h hc), Bool.or_true]
        · rw [bne_iff_ne.mpr hc, Bool.true_or]
    · rw [row, need_error]
      · rfl
      · rw [hc, decide_eq_false (Nat.not_lt.mpr h)]; rfl
  case disable =>
    rintro t ht ho rfl h0 h2 h4 u
    have row := tenantDisable_row ht ho h0 h2 h4
    exact ⟨fun h => row.trans (congrArg _ (if_neg (by rw [h]; decide))), fun h => row.trans (congrArg _ (if_pos (by rw [h]; decide)))⟩
  case log =>
    rintro o ht ho h1 h2 hz rfl
    exact logRead_answers ht ho h1 h2 hz
  case diagBegin =>
    rintro pass fail us test target ht ho rfl rfl h1 h4 hd hp hr hz
    have row := diagRun_begins (pass := pass) (fail := fail) (us := us) ht ho h1 h4 hd hp hr hz
    refine ⟨fun h => ?_, fun h => ?_⟩
    · rw [row, need_ok (by simp [h])]; rfl
    · rw [row, need_error (by simp [h])]; rfl
  case nbu =>
    rintro n ht ho rfl hz list u status counters log
    have named : nbusNamed (field f.plain 0 2) = list := if_congr beq_iff_eq rfl rfl
    refine ⟨fun hn h3 h4 => ?_, fun hn hop h3 h4 => nbuDiagRead_log ht ho hz hn hop h3 h4, fun hn hop h3 h4 => ?pattern⟩
    · have row := nbuDiagRead_reads ht ho hz hn h3 h4
      rw [named] at row
      exact row
    case pattern =>
      intro us found
      have row := nbuDiagRead_pattern ht ho hz hn hop h3 h4
      refine ⟨fun h => ?_, fun h hc => ?_, fun h hc => ?_⟩
      · rw [row, need_error (by simp [h])]; rfl
      · rw [row, need_ok (by simp [h]), ok_bind, need_error (decide_eq_false (Nat.not_le.mpr hc))]; rfl
      · rw [row, need_ok (by simp [h]), ok_bind, need_ok (decide_eq_true hc)]; rfl

end Sys2Proof.Machine

/-! ### Proofs: PERST_N, the clocks, FLASH_PG, THERM_SB and the I3C sideband (O53) -/

namespace Sys2Proof.Machine

/-! #### The PCIe reset (R475) -/

/-- The state that an endpoint reset leaves before the commands whose streams were freed end. -/
def State.endpointBase (s : State) : State :=
  { s with
    host.mailboxes := s.host.mailboxes.keys.map fun m => (m, s.resetBlock m)
    host.held := [], host.streams := [], host.msix := [], host.pba := [], host.glbErr := 0, host.glbPv := 0, host.lastRead := 0
    host.windows := s.host.windows.each endpointWindow
    host.flights := s.host.flights.map fun f => { f with discard := f.discard || lostPath f.path }
    host.done := s.host.done.map fun d => { d with discard := d.discard || lostPath d.path }
    power.pcieUp := false }

theorem pcieReset_winter {s : State} (h : s.power.season = .winter) : s.pcieReset = s := if_pos (by simp [h])

theorem pcieReset_not_winter {s : State} (h : s.power.season ≠ .winter) : s.pcieReset = s.endpointReset := if_neg (by simp [h])

theorem endStreaming_streaming {f : Flight} {a : Nat} {b : Status} {c : Option Bytes} (h : f.work = .streaming a b c) (s : State) :
    s.endStreaming f = s.answer f b (c.getD []) := by
  rw [State.endStreaming, h]

theorem endStreaming_not {f : Flight} (h : ∀ a b c, f.work ≠ .streaming a b c) (s : State) : s.endStreaming f = s := by
  unfold State.endStreaming
  split
  · next hw => exact absurd hw (h _ _ _)
  · rfl

theorem foldl_endStreaming_not : ∀ {l : List Flight}, (∀ f ∈ l, ∀ a b c, f.work ≠ .streaming a b c) → ∀ s : State, l.foldl State.endStreaming s = s
  | [], _, _ => rfl
  | f :: l, h, s => by
    rw [List.foldl_cons, endStreaming_not (h f List.mem_cons_self)]
    exact foldl_endStreaming_not (fun g hg => h g (List.mem_cons_of_mem _ hg)) s

/-- Where no command writes a stream, the endpoint reset ends none. -/
theorem endpointReset_base {s : State} (h : ∀ f ∈ s.host.flights, ∀ a b c, f.work ≠ .streaming a b c) : s.endpointReset = s.endpointBase := by
  refine foldl_endStreaming_not (fun f hf => ?_) _
  obtain ⟨g, hg, rfl⟩ := List.mem_map.mp hf
  exact h g hg

theorem endpointReset_pcieUp (s : State) : s.endpointReset.power.pcieUp = false :=
  congrArg (fun x => x.2.2.1.pcieUp) (endpointReset_still s)

theorem endpointBase_discards (s : State) :
    (∀ f ∈ s.endpointBase.host.flights, lostPath f.path = true → f.discard = true) ∧
    (∀ d ∈ s.endpointBase.host.done, lostPath d.path = true → d.discard = true) ∧
    ∀ e ∈ s.endpointBase.host.windows, e.2.enable = false := by
  refine ⟨fun f hf hp => ?_, fun d hd hp => ?_, fun e he => ?_⟩
  · obtain ⟨g, -, rfl⟩ := List.mem_map.mp hf
    simp only [hp, Bool.or_true]
  · obtain ⟨g, -, rfl⟩ := List.mem_map.mp hd
    simp only [hp, Bool.or_true]
  · obtain ⟨x, -, rfl⟩ := List.mem_map.mp he
    rfl

/-! #### The ports of a hub without its clock (R473) -/

/-- Each listed port that is not DOWN goes DOWN. -/
def State.downEach (l : List Nat) (s : State) : State := l.foldl (fun s p => if (s.vievo p).state = .down then s else s.linkDown p) s

theorem linkDown_down {p : Nat} {s : State} (h : p < s.fabric.ports.length) : ((s.linkDown p).vievo p).state = .down := by
  rw [State.linkDown, updVievo_vievo _ h]

theorem linkDown_ne {p q : Nat} (s : State) (h : q ≠ p) : (s.linkDown p).vievo q = s.vievo q := updVievo_vievo_ne _ h

theorem downEach_cons (p : Nat) (l : List Nat) (s : State) :
    s.downEach (p :: l) = State.downEach l (if (s.vievo p).state = .down then s else s.linkDown p) := rfl

theorem downEach_pins (l : List Nat) (s : State) : (s.downEach l).pins = s.pins := by
  induction l generalizing s with
  | nil => rfl
  | cons p l ih =>
    rw [downEach_cons, ih]
    split <;> rfl

theorem downEach_other {q : Nat} (l : List Nat) (s : State) (h : q ∉ l) : (s.downEach l).vievo q = s.vievo q := by
  induction l generalizing s with
  | nil => rfl
  | cons p l ih =>
    obtain ⟨hp, hl⟩ := not_or.mp (mt List.mem_cons.mpr h)
    rw [downEach_cons, ih _ hl]
    split
    · rfl
    · exact linkDown_ne s hp

theorem downEach_keeps_down {q : Nat} (l : List Nat) (s : State) (hq : q < s.fabric.ports.length) (h : (s.vievo q).state = .down) :
    ((s.downEach l).vievo q).state = .down := by
  induction l generalizing s with
  | nil => exact h
  | cons p l ih =>
    rw [downEach_cons]
    split
    · exact ih s hq h
    · refine ih _ (by simpa [State.linkDown] using hq) ?_
      by_cases e : q = p
      · exact e ▸ linkDown_down (e ▸ hq)
      · rw [linkDown_ne s e, h]

theorem downEach_down {q : Nat} (l : List Nat) (s : State) (hq : q < s.fabric.ports.length) (h : q ∈ l) : ((s.downEach l).vievo q).state = .down := by
  induction l generalizing s with
  | nil => cases h
  | cons p l ih =>
    rw [downEach_cons]
    have hlen : q < (if (s.vievo p).state = .down then s else s.linkDown p).fabric.ports.length := by
      split
      · exact hq
      · simpa [State.linkDown] using hq
    rcases List.mem_cons.mp h with rfl | h
    · refine downEach_keeps_down l _ hlen ?_
      split
      · assumption
      · exact linkDown_down hq
    · exact ih _ hlen h

/-- The ports of a hub. -/
def hubPorts (hub : Nat) : List Nat := (List.range 16).map (16 * hub + ·)

theorem mem_hubPorts {hub p : Nat} : p ∈ hubPorts hub ↔ p / 16 = hub := by
  simp only [hubPorts, List.mem_map, List.mem_range]
  constructor
  · rintro ⟨i, hi, rfl⟩
    omega
  · exact fun h => ⟨p % 16, by omega, by omega⟩

theorem logUnit_vievo (n p : Nat) (s : State) : (s.logUnit n).vievo p = s.vievo p := by
  obtain ⟨t, ht⟩ := log_tenants_only { seq := 0, time := 0, kind := 4, detail := n } s
  rw [State.logUnit, ht]
  rfl

theorem logUnit_pins (n : Nat) (s : State) : (s.logUnit n).pins = s.pins := congrArg (·.2.2.2.2) (State.logUnit_still n s)

section
variable {hub : Fin 2} {s : State}

theorem fabRefclkLoss_present (h : s.pins.fabClk.getLsbD hub = true) : exec (.fabRefclkLoss hub) s =
    .next ((({ s with pins.fabClk := s.pins.fabClk &&& ~~~(1#2 <<< hub.val) } : State).downEach (hubPorts hub)).logUnit hub) := by
  refine (congrArg Host.Outcome.next (if_pos h)).trans ?_
  simp only [State.downEach, hubPorts, List.foldl_map, beq_iff_eq]

theorem fabRefclkLoss_absent (h : s.pins.fabClk.getLsbD hub = false) : exec (.fabRefclkLoss hub) s = .next s :=
  congrArg Host.Outcome.next (if_neg (by simp [h]))

/-- A hub that loses its clock has its ports DOWN, and no other port moves. -/
theorem fabRefclkLoss_ports (h : s.pins.fabClk.getLsbD hub = true) : ∃ u, exec (.fabRefclkLoss hub) s = .next u ∧
    u.pins.fabClk = s.pins.fabClk &&& ~~~(1#2 <<< hub.val) ∧
    (s.fabric.ports.length = 32 → ∀ p, p < 32 → (p / 16 = hub.val → (u.vievo p).state = .down) ∧ (p / 16 ≠ hub.val → u.vievo p = s.vievo p)) := by
  refine ⟨_, fabRefclkLoss_present h, by rw [logUnit_pins, downEach_pins], fun hl p hp => ⟨fun e => ?_, fun e => ?_⟩⟩
  · rw [logUnit_vievo]
    exact downEach_down _ _ (by simpa [hl] using hp) (mem_hubPorts.mpr e)
  · rw [logUnit_vievo]
    exact downEach_other _ _ (mt mem_hubPorts.mp e)

/-! #### SYS_REFCLK, PCIE_REFCLK and FLASH_PG -/

theorem pcieRefclkLoss_present (h : s.pins.pcieClk = true) : exec .pcieRefclkLoss s =
    .next (if ({ s with pins.pcieClk := false } : State).pcieReset.operating then ({ s with pins.pcieClk := false } : State).pcieReset.logUnit 2
      else ({ s with pins.pcieClk := false } : State).pcieReset) :=
  congrArg Host.Outcome.next (if_pos h)

theorem pcieRefclkLoss_absent (h : s.pins.pcieClk = false) : exec .pcieRefclkLoss s = .next s :=
  congrArg Host.Outcome.next (if_neg (by simp [h]))

theorem flashPgLow_row (us : Nat) : exec (.flashPgLow us) s = .next (
    if 10 ≤ us && (s.power.season == .summer || s.power.season == .drain) then
      ({ s with pins.flashPg := false, power.flashDriven := false } : State).powerFails 6
    else { s with pins.flashPg := false, power.flashDriven := false }) := rfl

theorem flashPgLow_fails {us : Nat} (hu : 10 ≤ us) (h : s.power.season = .summer ∨ s.power.season = .drain) :
    exec (.flashPgLow us) s = .next (({ s with pins.flashPg := false, power.flashDriven := false } : State).powerFails 6) := by
  rw [flashPgLow_row, if_pos]
  rcases h with h | h <;> simp [hu, h]

theorem flashPgLow_only {us : Nat} (h : us < 10 ∨ (s.power.season ≠ .summer ∧ s.power.season ≠ .drain)) :
    exec (.flashPgLow us) s = .next { s with pins.flashPg := false, power.flashDriven := false } := by
  rw [flashPgLow_row, if_neg]
  rcases h with h | ⟨h, k⟩
  · simp [h]
  · simp [h, k]

/-! #### The always-on domain (R454, R480) -/

theorem sideband_down (h : s.pins.aoUp = false) (m : Bytes) : s.sideband m = s := if_neg (by simp [h])

theorem sideband_up (h : s.pins.aoUp = true) (m : Bytes) : s.sideband m = s.emit (.mctp m) := if_pos h

theorem i3cDynamicAddressAssign_down (h : s.pins.aoUp = false) (a : BitVec 7) : exec (.i3cDynamicAddressAssign a) s = .next s :=
  congrArg Host.Outcome.next (if_neg (by simp [h]))

theorem i3cDynamicAddressAssign_up (h : s.pins.aoUp = true) (a : BitVec 7) :
    exec (.i3cDynamicAddressAssign a) s = .next { s with power.i3cDynamic := some a.toNat } :=
  congrArg Host.Outcome.next (if_pos h)

theorem mctpControlMessage_row (t i c : Byte) (data : Bytes) : exec (.mctpControlMessage (t :: i :: c :: data)) s = .next (
    if t == 0 && i.getLsbD 7 && s.pins.aoUp then
      ({ s with power.mctpEid := (s.controlAnswer c.toNat data).2 } : State).emit (.mctp ([0x00, i &&& 0x7F, c] ++ (s.controlAnswer c.toNat data).1))
    else s) := rfl

theorem mctpControlMessage_short {b : Bytes} (h : b.length < 3) : exec (.mctpControlMessage b) s = .next s := by
  match b, h with
  | [], _ => rfl
  | [_], _ => rfl
  | [_, _], _ => rfl
  | _ :: _ :: _ :: _, h => exact absurd h (by simp)

theorem mctpControlMessage_request {i c : Byte} {data : Bytes} (ha : s.pins.aoUp = true) (hi : i.getLsbD 7 = true) :
    exec (.mctpControlMessage (0 :: i :: c :: data)) s =
      .next (({ s with power.mctpEid := (s.controlAnswer c.toNat data).2 } : State).emit (.mctp ([0x00, i &&& 0x7F, c] ++ (s.controlAnswer c.toNat data).1))) := by
  rw [mctpControlMessage_row, if_pos]
  simp only [hi, ha, beq_self_eq_true, Bool.and_true]

theorem mctpControlMessage_other {t i c : Byte} {data : Bytes} (h : i.getLsbD 7 = false ∨ t ≠ 0) :
    exec (.mctpControlMessage (t :: i :: c :: data)) s = .next s := by
  rw [mctpControlMessage_row, if_neg]
  rcases h with h | h
  · rw [h, Bool.and_false, Bool.false_and]
    exact Bool.false_ne_true
  · rw [beq_false_of_ne h, Bool.false_and, Bool.false_and]
    exact Bool.false_ne_true

theorem mctpControlMessage_down (h : s.pins.aoUp = false) (b : Bytes) : exec (.mctpControlMessage b) s = .next s := by
  match b with
  | [] => rfl
  | [_] => rfl
  | [_, _] => rfl
  | t :: i :: c :: data =>
    rw [mctpControlMessage_row, h, Bool.and_false]
    rfl

theorem controlAnswer_setsEid {e : Byte} (h : e ≠ 0) (hf : e ≠ 0xFF) (o : Byte) : s.controlAnswer 1 [o, e] = ([0x00, 0x00, e, 0x00], e) := by
  unfold State.controlAnswer
  rw [if_pos rfl]
  refine if_pos ?_
  rw [Bool.and_eq_true, Bool.and_eq_true]
  exact ⟨⟨rfl, bne_iff_ne.mpr h⟩, bne_iff_ne.mpr hf⟩

theorem controlAnswer_badEid {data : Bytes} (h : data.length ≠ 2 ∨ data.getD 1 0 = 0 ∨ data.getD 1 0 = 0xFF) :
    s.controlAnswer 1 data = ([0x02], s.power.mctpEid) := by
  unfold State.controlAnswer
  rw [if_pos rfl]
  refine if_neg fun k => ?_
  simp only [Bool.and_eq_true, decide_eq_true_eq, bne_iff_ne] at k
  obtain ⟨⟨k1, k2⟩, k3⟩ := k
  rcases h with h | h | h
  · exact h k1
  · exact k2 h
  · exact k3 h

theorem controlAnswer_vendor (data : Bytes) : s.controlAnswer 6 data =
    if data.headD 1 = 0 then ([0x00, 0xFF, 0x01, 0x00, 0x00, 0xF9, 0x4E, 0x00, 0x01], s.power.mctpEid) else ([0x02], s.power.mctpEid) := rfl

theorem controlAnswer_unknown {n : Nat} (h : n ∉ [1, 2, 4, 5, 6]) (data : Bytes) : s.controlAnswer n data = ([0x05], s.power.mctpEid) := by
  simp only [List.mem_cons, List.not_mem_nil, or_false, not_or] at h
  obtain ⟨h1, h2, h4, h5, h6⟩ := h
  simp only [State.controlAnswer, if_neg h1, if_neg h2, if_neg h4, if_neg h5, if_neg h6]

end

/-- Settles O53: each pin event is its row of the table; the lists of a PCIe reset follow where no command writes a stream, and the ports of a hub
without its clock by the fold over its sixteen ports. -/
theorem pinEvents : Obligations.PinEvents := by
  unfold Obligations.PinEvents
  intro s
  refine ⟨rfl, pcieReset_winter, pcieReset_not_winter, fun f => ⟨fun a b c h => endStreaming_streaming h s, fun h => endStreaming_not h s⟩, fun _ => rfl,
    ?reset, rfl, pcieRefclkLoss_absent, fun h => ?clk, fun hub => ?sys, fun hub => ⟨fabRefclkLoss_absent, fun h => ?fab, fabRefclkLoss_ports, rfl⟩,
    fun us => ⟨flashPgLow_fails, flashPgLow_only⟩, rfl, rfl, fun h => ?down, fun h => ?up⟩
  case reset =>
    intro hw
    refine ⟨?_, fun hf => ?_⟩
    · rw [pcieReset_not_winter hw, endpointReset_pcieUp]
    · rw [pcieReset_not_winter hw, endpointReset_base hf]
      exact ⟨rfl, rfl, rfl, rfl, rfl, rfl, rfl, rfl, endpointBase_discards s⟩
  case clk =>
    rw [pcieRefclkLoss_present h]
    exact ⟨fun ho => congrArg Host.Outcome.next (if_pos ho), fun ho => congrArg Host.Outcome.next (if_neg (by simp [ho]))⟩
  case sys =>
    exact ⟨fun ho => congrArg Host.Outcome.next (if_pos ho), fun ho => congrArg Host.Outcome.next (if_neg (ne_true_of_eq_false ho))⟩
  case fab =>
    rw [fabRefclkLoss_present h]
    simp only [State.downEach, hubPorts, List.foldl_map]
  case down =>
    exact ⟨congrArg Host.Outcome.next (sideband_down h _), i3cDynamicAddressAssign_down h, mctpControlMessage_down h⟩
  case up =>
    exact ⟨congrArg Host.Outcome.next (sideband_up h _), i3cDynamicAddressAssign_up h, fun i c data => ⟨mctpControlMessage_request h,
      fun t => mctpControlMessage_other, fun b => mctpControlMessage_short, controlAnswer_badEid, rfl, rfl, controlAnswer_vendor data,
      fun n hn => controlAnswer_unknown hn data, fun e he hf o => ⟨controlAnswer_setsEid he hf o, rfl⟩⟩⟩

end Sys2Proof.Machine

/-! ### Proofs: failures of power, thermal trips, resets and power-up (O51) -/

namespace Sys2Proof.Machine

/-! #### What a work on the media leaves -/

/-- At most flash, the tiers and what the module has driven out differ. -/
def MediaOnly (s t : State) : Prop := ∃ f r o, t = { s with flash := f, tiers := r, out := o }

theorem MediaOnly.refl (s : State) : MediaOnly s s := ⟨s.flash, s.tiers, s.out, rfl⟩

theorem MediaOnly.trans {s t u : State} (h : MediaOnly s t) (k : MediaOnly t u) : MediaOnly s u := by
  obtain ⟨f, r, o, rfl⟩ := h
  obtain ⟨f', r', o', rfl⟩ := k
  exact ⟨f', r', o', rfl⟩

theorem MediaOnly.foldl {α : Type} {g : State → α → State} (h : ∀ s a, MediaOnly s (g s a)) : ∀ (l : List α) (s : State), MediaOnly s (l.foldl g s)
  | [], s => .refl s
  | a :: l, s => (h s a).trans (MediaOnly.foldl h l _)

/-- A register that is in none of the three is as it was. -/
theorem MediaOnly.same {α : Type} {s t : State} (h : MediaOnly s t) (g : State → α) (hg : ∀ f r o, g { s with flash := f, tiers := r, out := o } = g s) :
    g t = g s := by
  obtain ⟨f, r, o, rfl⟩ := h
  exact hg f r o

theorem reclaimSlots_mediaOnly (r : Nat) (s : State) : MediaOnly s (s.reclaimSlots r) := by
  unfold State.reclaimSlots
  split
  · exact ⟨_, _, _, rfl⟩
  · exact .refl s

theorem dropHostPage_mediaOnly (p : Nat) (s : State) : MediaOnly s (s.dropHostPage p) := by
  unfold State.dropHostPage
  split
  · exact .refl s
  · exact MediaOnly.trans ⟨_, _, _, rfl⟩ (reclaimSlots_mediaOnly _ _)

theorem mapUnit_mediaOnly (u : Nat) (m : Option Mapped) (s : State) : MediaOnly s (s.mapUnit u m) := by
  unfold State.mapUnit
  dsimp only
  split
  · exact (MediaOnly.trans ⟨_, _, _, rfl⟩ (dropHostPage_mediaOnly (mapPage u) _)).trans ⟨_, _, _, rfl⟩
  · exact (dropHostPage_mediaOnly (mapPage u) s).trans ⟨_, _, _, rfl⟩

theorem carryDrops_mediaOnly (s : State) : MediaOnly s s.carryDrops :=
  .foldl (fun s _ => (MediaOnly.foldl (fun s u => mapUnit_mediaOnly u none s) _ s).trans ⟨_, _, _, rfl⟩) _ s

theorem programJournal_mediaOnly (s : State) : MediaOnly s s.programJournal := by
  unfold State.programJournal
  split
  · exact .refl s
  · exact ⟨_, _, _, rfl⟩

theorem flushJournal_mediaOnly : ∀ (n : Nat) (s : State), MediaOnly s (s.flushJournal n)
  | 0, s => .refl s
  | n + 1, s => (programJournal_mediaOnly s).trans (flushJournal_mediaOnly n _)

theorem programJournal_journal (s : State) : s.programJournal.flash.journal = s.flash.journal.drop 256 := by
  unfold State.programJournal
  split
  · next h => rw [List.isEmpty_iff.mp h, List.drop_nil]
  · rfl

theorem flushJournal_journal : ∀ (n : Nat) (s : State), (s.flushJournal n).flash.journal = s.flash.journal.drop (256 * n)
  | 0, _ => rfl
  | n + 1, s => by
    rw [State.flushJournal, flushJournal_journal n, programJournal_journal, List.drop_drop, Nat.mul_succ, Nat.add_comm]

theorem journalAll_journal (s : State) : s.journalAll.flash.journal = [] := by
  rw [State.journalAll, flushJournal_journal]
  exact List.drop_eq_nil_of_le (by omega)

theorem journalAll_mediaOnly (s : State) : MediaOnly s s.journalAll := flushJournal_mediaOnly _ s

theorem allDurable_journal (s : State) : s.allDurable.flash.journal = [] := journalAll_journal _

theorem allDurable_keys (s : State) : s.allDurable.keys = s.keys := (journalAll_mediaOnly _).same (·.keys) fun _ _ _ => rfl

/-- Once the log buffer is in flash, what was buffered is durable. -/
theorem allDurable_ops (s : State) : ∀ e ∈ s.allDurable.index.collections, ∀ o ∈ e.2.ops, o.buffered = true → o.durable = true := by
  intro e he o ho hb
  rw [State.allDurable, (journalAll_mediaOnly _).same (·.index) fun _ _ _ => rfl] at he
  obtain ⟨x, -, rfl⟩ := List.mem_map.mp he
  obtain ⟨y, -, rfl⟩ := List.mem_map.mp ho
  exact Bool.or_eq_true_iff.mpr (.inr hb)

theorem unflushed_keys (s : State) : s.unflushed.keys = s.keys := rfl

/-! #### The flush begins (R451) -/

theorem linkDown_fabric_only (l : List Nat) : ∀ s : State, ∃ f, l.foldl (fun s p => s.linkDown p) s = { s with fabric := f } := by
  induction l with
  | nil => exact fun s => ⟨s.fabric, rfl⟩
  | cons p l ih =>
    intro s
    obtain ⟨f, hf⟩ := ih (s.linkDown p)
    exact ⟨f, hf⟩

/-- Stopping the fabric touches the fabric alone, and nothing waits there any more. -/
theorem stopFabric_fabric_only (s : State) : ∃ f : Fabric, s.stopFabric = { s with fabric := f } ∧ (∀ x ∈ f.ports, x.queues = []) ∧
    f.inbox = [] ∧ f.reassembly = [] ∧ f.held = [] := by
  obtain ⟨f, hf⟩ := linkDown_fabric_only (List.range 32) s
  refine ⟨{ f with ports := f.ports.map fun x => { x with queues := [] }, inbox := [], reassembly := [], held := [] }, ?_, fun x hx => ?_, rfl, rfl, rfl⟩
  · rw [State.stopFabric, hf]
  · obtain ⟨y, -, rfl⟩ := List.mem_map.mp hx
    rfl

theorem beginFlush_operating {s : State} (h : s.operating = true) : s.beginFlush = ({ s with
    power.season := .powerLoss, power.flush := some s.clock, power.flushed := false, power.flushMarked := false
    power.drain := .none, power.entering := none, power.waking := none } : State).stopFabric := if_pos h

theorem beginFlush_not {s : State} (h : s.operating = false) : s.beginFlush = s := if_neg (ne_true_of_eq_false h)

theorem not_operating_of {s : State} (h : s.power.season = .powerLoss ∨ s.power.season = .heldInReset ∨ s.power.season = .winter) :
    s.operating = false := by
  rcases h with h | h | h <;> rw [State.operating, h] <;> rfl

theorem not_winter_of_operating {s : State} (h : s.operating = true) : s.power.season ≠ .winter := by
  intro e
  rw [not_operating_of (.inr (.inr e))] at h
  exact Bool.false_ne_true h

/-! #### A failure of power -/

section
variable {s : State} (k : Nat)

theorem powerFails_winter (h : s.power.season = .winter) : s.powerFails k = { s with power.hbmLost := true, power.retention := s.power.retention ++ [k] } :=
  if_pos (by rw [h]; rfl)

theorem powerFails_awake (h : s.power.season ≠ .winter) : s.powerFails k = match s.power.entering with
    | some t => if t + 1000000 ≤ s.clock && s.operating then s.allDurable.afterReset else s.beginFlush
    | none => s.beginFlush := if_neg (by rwa [beq_iff_eq])

/-- Once Winter entry has made the log durable, a failure resets the module with no flush. -/
theorem powerFails_durable (h : s.operating = true) {t : Nat} (he : s.power.entering = some t) (ht : t + 1000000 ≤ s.clock) :
    s.powerFails k = s.allDurable.afterReset := by
  rw [powerFails_awake k (not_winter_of_operating h), he]
  exact if_pos (by rw [h, decide_eq_true ht]; rfl)

theorem powerFails_flush (h : s.operating = true) (he : ∀ t, s.power.entering = some t → s.clock < t + 1000000) : s.powerFails k = s.beginFlush := by
  rw [powerFails_awake k (not_winter_of_operating h)]
  split
  · next t ht => exact if_neg (by rw [decide_eq_false (Nat.not_le.mpr (he t ht))]; exact Bool.false_ne_true)
  · rfl

theorem powerFails_not (h : s.power.season = .powerLoss ∨ s.power.season = .heldInReset) : s.powerFails k = s := by
  have ho : s.operating = false := not_operating_of (h.imp_right .inl)
  rw [powerFails_awake k (by rcases h with h | h <;> rw [h] <;> exact nofun), ho]
  split
  · rw [Bool.and_false, if_neg Bool.false_ne_true, beginFlush_not ho]
  · exact beginFlush_not ho

/-- What the beginning of a flush leaves. -/
theorem powerFails_flush_leaves (h : s.operating = true) (he : ∀ t, s.power.entering = some t → s.clock < t + 1000000) : let u := s.powerFails k
    u.power.season = .powerLoss ∧ u.power.flush = some s.clock ∧ u.power.flushed = false ∧ u.power.flushMarked = false ∧ u.power.drain = .none ∧
    u.power.entering = none ∧ u.power.waking = none ∧ (∀ x ∈ u.fabric.ports, x.queues = []) ∧ u.fabric.inbox = [] ∧ u.fabric.reassembly = [] ∧
    u.fabric.held = [] ∧ u.index = s.index ∧ u.keys = s.keys ∧ u.host = s.host ∧ u.flash = s.flash := by
  intro u
  obtain ⟨f, hf, hq, hi, hr, hh⟩ := stopFabric_fabric_only { s with
    power.season := .powerLoss, power.flush := some s.clock, power.flushed := false, power.flushMarked := false
    power.drain := .none, power.entering := none, power.waking := none }
  have hu : u = _ := (powerFails_flush k h he).trans ((beginFlush_operating h).trans hf)
  rw [hu]
  exact ⟨rfl, rfl, rfl, rfl, rfl, rfl, rfl, hq, hi, hr, hh, rfl, rfl, rfl, rfl⟩

end

/-! #### The rows of the failures -/

section
variable {s : State}

theorem holdupWarnAssert_row (n : Nat) : exec (.holdupWarnAssert n) s =
    .next (if (s.holdupSeen n).1 then ({ (s.holdupSeen n).2 with pins.holdupN := false } : State).powerFails 1 else (s.holdupSeen n).2) := rfl

theorem holdupSeen_long {n : Nat} (h : 4000 ≤ n) : s.holdupSeen n = (true, s) := if_pos h

theorem holdupSeen_short {n : Nat} (h : n < 2000) : s.holdupSeen n = (false, s) :=
  (if_neg (by omega)).trans (if_pos h)

theorem holdupSeen_between {n : Nat} (h : 2000 ≤ n) (k : n < 4000) : s.holdupSeen n = (s.draw.1 % 2 == 1, s.draw.2) :=
  (if_neg (by omega)).trans (if_neg (by omega))

theorem holdupWarnAssert_seen {n : Nat} {t : State} (h : s.holdupSeen n = (true, t)) :
    exec (.holdupWarnAssert n) s = .next (({ t with pins.holdupN := false } : State).powerFails 1) := by
  rw [holdupWarnAssert_row, h]
  rfl

theorem holdupWarnAssert_unseen {n : Nat} {t : State} (h : s.holdupSeen n = (false, t)) : exec (.holdupWarnAssert n) s = .next t := by
  rw [holdupWarnAssert_row, h]
  rfl

theorem holdupWarnAssert_between {n : Nat} (h : 2000 ≤ n) (k : n < 4000) : exec (.holdupWarnAssert n) s = .next s.draw.2 ∨
    exec (.holdupWarnAssert n) s = .next (({ s.draw.2 with pins.holdupN := false } : State).powerFails 1) := by
  have e := holdupSeen_between (s := s) h k
  cases hb : s.draw.1 % 2 == 1 with
  | false => exact .inl (holdupWarnAssert_unseen (hb ▸ e))
  | true => exact .inr (holdupWarnAssert_seen (hb ▸ e))

theorem inputOvervoltage_within {v : Nat} (h : v ≤ 440) : exec (.inputOvervoltage v) s = .next s := congrArg Host.Outcome.next (if_pos h)

theorem inputOvervoltage_over {v : Nat} (h : 440 < v) : exec (.inputOvervoltage v) s = .next (
    if s.power.season == .winter then
      { ({ s with pins.input := v, power.overvoltage := true } : State).afterReset with power.flushMarked := s.power.flushMarked }
    else ({ s with pins.input := v, power.overvoltage := true } : State).powerFails 3) :=
  congrArg Host.Outcome.next (if_neg (by omega))

theorem thermalTrip_row (p : Fin 27) : exec (.thermalTrip p) s = .next (
    if s.power.season == .winter then (({ s with power.trip := s.pins.thermSb, power.tripRetained := true } : State).retain (256 + p.val)).afterReset
    else (({ s with power.trip := s.pins.thermSb, power.tripRetained := true } : State).retain (256 + p.val)).powerFails 4) := rfl

/-! #### POWER_LOSS_FLUSH -/

/-- The state that the flush works on: everything durable, or what energy sufficed for. -/
def State.flushSet (ok : Bool) (s : State) : State := if ok then s.allDurable else s.unflushed

theorem flushSet_keys (ok : Bool) : (s.flushSet ok).keys = s.keys := by
  cases ok with
  | false => exact unflushed_keys s
  | true => exact allDurable_keys s

/-- The state after the flush set: the marker, and every key erased (R97). -/
def State.afterFlush (ok : Bool) (s : State) : State :=
  { s.flushSet ok with
    power.flushed := true, power.flushMarked := ok, power.lastFlushOk := ok
    tiles.failed := if ok then (s.flushSet ok).tiles.unrecorded ++ (s.flushSet ok).tiles.failed else (s.flushSet ok).tiles.failed, tiles.unrecorded := []
    keys.trks := [], keys.sessions := [], keys.retained := [], keys.mgmt := .closed, keys.mgmtKeys := ([], []), keys.zeroising := [] }

theorem powerLossFlush_row (b : Bool) : exec (.powerLossFlush b) s = .next (
    if s.power.season == .powerLoss && s.power.flush.isSome && !s.power.flushed then s.afterFlush (b && s.power.flashDriven) else s) := rfl

theorem powerLossFlush_not (b : Bool) (h : s.power.season ≠ .powerLoss ∨ s.power.flush = none ∨ s.power.flushed = true) :
    exec (.powerLossFlush b) s = .next s := by
  rw [powerLossFlush_row, if_neg]
  rcases h with h | h | h <;> simp [h]

theorem powerLossFlush_runs (b : Bool) {t : Nat} (hs : s.power.season = .powerLoss) (hf : s.power.flush = some t) (hn : s.power.flushed = false) :
    exec (.powerLossFlush b) s = .next (s.afterFlush (b && s.power.flashDriven)) := by
  rw [powerLossFlush_row, if_pos]
  rw [hs, hf, hn]
  rfl

/-- A flush whose set was programmed leaves no journal record and no buffered record that is not durable. -/
theorem afterFlush_durable : (s.afterFlush true).flash.journal = [] ∧
    ∀ e ∈ (s.afterFlush true).index.collections, ∀ o ∈ e.2.ops, o.buffered = true → o.durable = true :=
  ⟨allDurable_journal s, allDurable_ops s⟩

theorem afterFlush_anchor (ok : Bool) : (s.afterFlush ok).keys.anchor = s.keys.anchor := (congrArg Keys.anchor (flushSet_keys ok) :)

/-! #### RESET_N -/

/-- What a latched RESET_N clears (R453, R464). -/
def State.resetLatched (cool : Bool) (s : State) : State :=
  { s with
    pins.resetN := false, power.resetRequest := true, power.overvoltage := false
    power.trip := s.power.trip && !cool, power.tripRetained := s.power.tripRetained && !cool }

theorem resetNAssert_row (n : Nat) (cool : Bool) : exec (.resetNAssert n cool) s = .next (
    if !(s.resetSeen n).1 then (s.resetSeen n).2
    else if ((s.resetSeen n).2.resetLatched cool).operating then ((s.resetSeen n).2.resetLatched cool).beginFlush
    else if ((s.resetSeen n).2.resetLatched cool).power.season == .powerLoss then (s.resetSeen n).2.resetLatched cool
    else ((s.resetSeen n).2.resetLatched cool).afterReset) := rfl

theorem resetSeen_long {n : Nat} (h : 1000 ≤ n) : s.resetSeen n = (true, s) := if_pos h

theorem resetSeen_short {n : Nat} (h : n < 200) : s.resetSeen n = (false, s) := (if_neg (by omega)).trans (if_pos h)

theorem resetSeen_between {n : Nat} (h : 200 ≤ n) (k : n < 1000) : s.resetSeen n = (s.draw.1 % 2 == 1, s.draw.2) :=
  (if_neg (by omega)).trans (if_neg (by omega))

theorem resetNAssert_unseen {n : Nat} {t : State} (cool : Bool) (h : s.resetSeen n = (false, t)) : exec (.resetNAssert n cool) s = .next t := by
  rw [resetNAssert_row, h]
  rfl

theorem resetNAssert_seen {n : Nat} {t : State} (cool : Bool) (h : s.resetSeen n = (true, t)) : exec (.resetNAssert n cool) s = .next (
    if t.operating then (t.resetLatched cool).beginFlush
    else if t.power.season == .powerLoss then t.resetLatched cool else (t.resetLatched cool).afterReset) := by
  rw [resetNAssert_row, h]
  rfl

theorem resetNAssert_between {n : Nat} (cool : Bool) (h : 200 ≤ n) (k : n < 1000) : exec (.resetNAssert n cool) s = .next s.draw.2 ∨
    exec (.resetNAssert n cool) s = exec (.resetNAssert 1000 cool) s.draw.2 := by
  have e := resetSeen_between (s := s) h k
  cases hb : s.draw.1 % 2 == 1 with
  | false => exact .inl (resetNAssert_unseen cool (hb ▸ e))
  | true => exact .inr ((resetNAssert_seen cool (hb ▸ e)).trans (resetNAssert_seen cool (resetSeen_long (Nat.le_refl 1000))).symm)

theorem resetNAssert_latched {n : Nat} (cool : Bool) (h : 1000 ≤ n) :
    (s.operating = true → exec (.resetNAssert n cool) s = .next (s.resetLatched cool).beginFlush) ∧
    (s.power.season = .powerLoss → exec (.resetNAssert n cool) s = .next (s.resetLatched cool)) ∧
    (s.power.season = .winter ∨ s.power.season = .heldInReset → exec (.resetNAssert n cool) s = .next (s.resetLatched cool).afterReset) := by
  rw [resetNAssert_seen cool (resetSeen_long h)]
  refine ⟨fun ho => ?_, fun hp => ?_, fun hw => ?_⟩
  · rw [if_pos ho]
  · rw [not_operating_of (.inl hp), hp]
    rfl
  · have ho : s.operating = false := not_operating_of (by tauto)
    rw [ho, if_neg Bool.false_ne_true, if_neg]
    rcases hw with hw | hw <;> rw [hw] <;> exact Bool.false_ne_true

theorem resetNDeassert_row (st : Straps) : exec (.resetNDeassert st) s = .next (
    if s.power.season == .heldInReset && ({ s with pins.resetN := true, pins.straps := st } : State).conditionsGood then
      ({ s with pins.resetN := true, pins.straps := st } : State).beginSpring
    else { s with pins.resetN := true, pins.straps := st }) := rfl

theorem resetNDeassert_begins {st : Straps} (h : s.power.season = .heldInReset)
    (hc : ({ s with pins.resetN := true, pins.straps := st } : State).conditionsGood = true) :
    exec (.resetNDeassert st) s = .next ({ s with pins.resetN := true, pins.straps := st } : State).beginSpring := by
  rw [resetNDeassert_row, hc, h]
  rfl

theorem resetNDeassert_not {st : Straps}
    (h : s.power.season ≠ .heldInReset ∨ ({ s with pins.resetN := true, pins.straps := st } : State).conditionsGood = false) :
    exec (.resetNDeassert st) s = .next { s with pins.resetN := true, pins.straps := st } := by
  rw [resetNDeassert_row, if_neg]
  rcases h with h | h
  · rw [beq_false_of_ne h]
    exact Bool.false_ne_true
  · rw [h, Bool.and_false]
    exact Bool.false_ne_true

/-! #### Spring begins (R455) -/

theorem beginSpring_testMode (h : s.pins.straps.testMode = true) :
    s.beginSpring = ({ s with power.straps := s.pins.straps } : State).retain 5 := if_pos h

/-- Under the straps Spring begins with the profile they name. -/
theorem beginSpring_begins (h : s.pins.straps.testMode = false) : let u := s.beginSpring
    u.power.season = .spring ∧ u.power.straps = s.pins.straps ∧ u.power.profile = strapProfile s.pins.straps.profileSel ∧ u.power.rates = u.power.profile ∧
    u.power.warm = false ∧ u.governor.clocks = List.replicate 4 (clockCeiling u.power.profile) := by
  intro u
  have hu : u = _ := if_neg (ne_true_of_eq_false h)
  rw [hu]
  split <;> exact ⟨rfl, rfl, rfl, rfl, rfl, rfl⟩

/-! #### A cold power-up (R474) -/

/-- What a power-up finds: power was lost before, in operation without a flush. -/
def State.powerCut (s : State) : State :=
  if s.operating = true ∨ (s.power.season = .powerLoss ∧ s.power.flushed = false) then
    { s.unflushed with power.flushMarked := false, power.lastFlushOk := false }
  else s

/-- The module after a power-up to `volts`. -/
def State.poweredUp (volts : Nat) (s : State) : State :=
  { s.powerCut.afterReset with
    fabTime := 0, tenants.resetAt := 0, pins.input := volts, pins.aoUp := true, power.tripRetained := false, power.retention := []
    power.straps := {}, power.flushed := false, power.i3cDynamic := none, power.mctpEid := 0 }

theorem coldPowerUp_low {v : Nat} (h : v < 360) : exec (.coldPowerUp v) s = .next s := congrArg Host.Outcome.next (if_pos h)

theorem powerCut_eq : (if s.operating || (s.power.season == .powerLoss && !s.power.flushed) then
    { s.unflushed with power.flushMarked := false, power.lastFlushOk := false } else s) = s.powerCut := by
  simp only [State.powerCut, Bool.or_eq_true, Bool.and_eq_true, beq_iff_eq, Bool.not_eq_true']

theorem coldPowerUp_up {v : Nat} (h : 360 ≤ v) : exec (.coldPowerUp v) s = .next (s.poweredUp v) := by
  refine (congrArg Host.Outcome.next (if_neg (by omega))).trans ?_
  rw [State.poweredUp, ← powerCut_eq]

theorem powerCut_keeps : s.powerCut.power.trip = s.power.trip ∧ s.powerCut.keys = s.keys ∧ s.powerCut.fabric = s.fabric ∧ s.powerCut.models = s.models := by
  unfold State.powerCut
  split
  · exact ⟨congrArg (·.2.2.1.trip) (State.unflushed_still s), rfl, rfl, rfl⟩
  · exact ⟨rfl, rfl, rfl, rfl⟩

theorem powerCut_operating (h : s.operating = true) : s.powerCut.power.flushMarked = false ∧ s.powerCut.power.lastFlushOk = false := by
  rw [State.powerCut, if_pos (.inl h)]
  exact ⟨rfl, rfl⟩

/-- What of the always-on domain and of flash a reset keeps. -/
theorem afterReset_keeps : s.afterReset.power.trip = s.power.trip ∧ s.afterReset.power.flushMarked = s.power.flushMarked ∧
    s.afterReset.power.lastFlushOk = s.power.lastFlushOk ∧ s.afterReset.keys.anchor = s.keys.anchor ∧
    s.afterReset.fabric.route = s.fabric.route ∧ s.afterReset.models.placement = s.models.placement := by
  have h := carryDrops_mediaOnly s
  have hp := h.same (·.power) fun _ _ _ => rfl
  exact ⟨(congrArg Power.trip hp :), (congrArg Power.flushMarked hp :), (congrArg Power.lastFlushOk hp :), h.same (·.keys.anchor) fun _ _ _ => rfl,
    h.same (·.fabric.route) fun _ _ _ => rfl, h.same (·.models.placement) fun _ _ _ => rfl⟩

theorem coldPowerUp_leaves {v : Nat} (h : 360 ≤ v) : ∃ u, exec (.coldPowerUp v) s = .next u ∧ u.power.season = .heldInReset ∧ u.pins.input = v ∧
    u.pins.aoUp = true ∧ u.fabTime = 0 ∧
    u.power.trip = s.power.trip ∧ u.power.tripRetained = false ∧ u.power.retention = [] ∧ u.power.i3cDynamic = none ∧ u.power.mctpEid = 0 ∧
    u.power.straps = {} ∧ (s.operating = true → u.power.flushMarked = false ∧ u.power.lastFlushOk = false) ∧
    u.keys.trks = [] ∧ u.keys.anchor = s.keys.anchor ∧ u.fabric.route = s.fabric.route ∧ u.models.placement = s.models.placement := by
  obtain ⟨ht, hm, hl, ha, hr, hp⟩ := afterReset_keeps (s := s.powerCut)
  obtain ⟨ct, ck, cf, cm⟩ := powerCut_keeps (s := s)
  exact ⟨s.poweredUp v, coldPowerUp_up h, rfl, rfl, rfl, rfl, ht.trans ct, rfl, rfl, rfl, rfl, rfl,
    fun ho => ⟨hm.trans (powerCut_operating ho).1, hl.trans (powerCut_operating ho).2⟩, rfl, ha.trans (congrArg Keys.anchor ck),
    hr.trans (congrArg Fabric.route cf), hp.trans (congrArg Models.placement cm)⟩

end

/-- Settles O51: each failure is its row of the table; what the flush and the power-up leave is read off the states they name. -/
theorem powerFailures : Obligations.PowerFailures := by
  unfold Obligations.PowerFailures
  intro s
  refine ⟨fun n => ⟨fun h => holdupWarnAssert_seen (holdupSeen_long h), fun h => holdupWarnAssert_unseen (holdupSeen_short h), holdupWarnAssert_between⟩,
    fun _ => rfl, fun v => ⟨inputOvervoltage_within, fun h => ?tooHigh⟩, fun p => ?trip,
    fun k => ⟨powerFails_flush_leaves k, fun ho t => powerFails_durable k ho, powerFails_winter k, powerFails_not k⟩,
    fun b => ⟨powerLossFlush_not b, fun t hs hf hn => ⟨powerLossFlush_runs b hs hf hn, ?flush⟩⟩,
    fun n cool => ⟨fun h => resetNAssert_unseen cool (resetSeen_short h), resetNAssert_between cool, resetNAssert_latched cool⟩,
    fun st => ⟨resetNDeassert_begins, resetNDeassert_not⟩, fun h hs => ?test, beginSpring_begins,
    fun v => ⟨coldPowerUp_low, fun h => ⟨coldPowerUp_up h, coldPowerUp_leaves h⟩⟩⟩
  case tooHigh =>
    rw [inputOvervoltage_over h]
    exact ⟨fun hw => congrArg Host.Outcome.next (if_pos (by rw [hw]; rfl)), fun hw => congrArg Host.Outcome.next (if_neg (by rwa [beq_iff_eq]))⟩
  case trip =>
    rw [thermalTrip_row]
    exact ⟨fun hw => congrArg Host.Outcome.next (if_pos (by rw [hw]; rfl)), fun hw => congrArg Host.Outcome.next (if_neg (by rwa [beq_iff_eq]))⟩
  case flush =>
    refine ⟨_, powerLossFlush_runs b hs hf hn, rfl, rfl, rfl, rfl, rfl, rfl, rfl, afterFlush_anchor _, fun hok => ?_⟩
    rw [hok]
    exact afterFlush_durable
  case test =>
    rw [beginSpring_testMode h]
    exact hs

end Sys2Proof.Machine

/-! ### Proofs: profiles, seasons, Winter and Spring (O50) -/

namespace Sys2Proof.Machine

section
variable {m : Mbx} {tag : Word} {f : Flight} {s : State}

/-! #### SET_PROFILE and PROFILE_SWITCH (R459) -/

/-- The change of profile that a SET_PROFILE begins. -/
def State.profileChange (f : Flight) (s : State) : ProfileChange :=
  { target := profileOf (field f.plain 0 1), mbx := f.mbx, tag := f.tag, since := s.clock
    waits := if envelopeOf (profileOf (field f.plain 0 1)) < envelopeOf s.power.profile then s.acknowledged else [] }

/-- After its opening SET_PROFILE goes by its fields, by a change under way, and by the profile in force. -/
theorem setProfile_row (ht : s.turn 0x0010 m tag f) (ho : f.opens 8 8) : exec (.setProfile m tag) s =
    .next (s.outcome f (fields [(0, decide (field f.plain 0 1 ≤ 3)), (1, zeroField f.plain 1 7)] >>= fun _ =>
      need s.power.change.isNone wrongState >>= fun _ =>
      if profileOf (field f.plain 0 1) == s.power.profile then .ok (s.answer f .done (profileAnswer s.power.profile 0))
      else .ok (({ s with power.rates := profileOf (field f.plain 0 1), power.change := some (s.profileChange f) } : State).setWork f .profileWait))) := by
  refine congrArg Host.Outcome.next ((start_outcome ht).trans (congrArg (s.outcome f) ?_))
  rw [opening_ok ho, ok_bind]
  rfl

theorem setProfile_unassigned (ht : s.turn 0x0010 m tag f) (ho : f.opens 8 8) (h : 3 < field f.plain 0 1) :
    exec (.setProfile m tag) s = .next (s.answerDetail f (bad 0x20)) := by
  rw [setProfile_row ht ho, decide_eq_false (by omega)]
  rfl

theorem setProfile_reserved (ht : s.turn 0x0010 m tag f) (ho : f.opens 8 8) (h : field f.plain 0 1 ≤ 3) (hz : zeroField f.plain 1 7 = false) :
    exec (.setProfile m tag) s = .next (s.answerDetail f (bad 0x21)) := by
  rw [setProfile_row ht ho, decide_eq_true h, hz, fields_cons]
  rfl

theorem setProfile_valid (ht : s.turn 0x0010 m tag f) (ho : f.opens 8 8) (h : field f.plain 0 1 ≤ 3) (hz : zeroField f.plain 1 7 = true) :
    exec (.setProfile m tag) s = .next (s.outcome f (need s.power.change.isNone wrongState >>= fun _ =>
      if profileOf (field f.plain 0 1) == s.power.profile then .ok (s.answer f .done (profileAnswer s.power.profile 0))
      else .ok (({ s with power.rates := profileOf (field f.plain 0 1), power.change := some (s.profileChange f) } : State).setWork f .profileWait))) := by
  rw [setProfile_row ht ho, decide_eq_true h, hz, fields_cons, fields_cons, fields_nil, ok_bind]

theorem setProfile_again (ht : s.turn 0x0010 m tag f) (ho : f.opens 8 8) (h : field f.plain 0 1 ≤ 3) (hz : zeroField f.plain 1 7 = true)
    (hc : s.power.change ≠ none) : exec (.setProfile m tag) s = .next (s.answerDetail f wrongState) := by
  rw [setProfile_valid ht ho h hz, need_error (Option.isNone_eq_false_iff.mpr (Option.isSome_iff_ne_none.mpr hc))]
  rfl

theorem setProfile_in_force (ht : s.turn 0x0010 m tag f) (ho : f.opens 8 8) (h : field f.plain 0 1 ≤ 3) (hz : zeroField f.plain 1 7 = true)
    (hc : s.power.change = none) (hp : profileOf (field f.plain 0 1) = s.power.profile) :
    exec (.setProfile m tag) s = .next (s.answer f .done (profileAnswer s.power.profile 0)) := by
  rw [setProfile_valid ht ho h hz, need_ok (by simp [hc]), ok_bind, if_pos (beq_iff_eq.mpr hp)]
  rfl

theorem setProfile_changes (ht : s.turn 0x0010 m tag f) (ho : f.opens 8 8) (h : field f.plain 0 1 ≤ 3) (hz : zeroField f.plain 1 7 = true)
    (hc : s.power.change = none) (hp : profileOf (field f.plain 0 1) ≠ s.power.profile) : exec (.setProfile m tag) s =
      .next (({ s with power.rates := profileOf (field f.plain 0 1), power.change := some (s.profileChange f) } : State).setWork f .profileWait) := by
  rw [setProfile_valid ht ho h hz, need_ok (by simp [hc]), ok_bind, if_neg (mt beq_iff_eq.mp hp)]
  rfl

/-- The envelope has moved to the change's target, and no clock stands above its ceiling. -/
def State.switched (c : ProfileChange) (s : State) : State :=
  { s with power.profile := c.target, power.change := none, governor.clocks := s.governor.clocks.map fun k => min k (clockCeiling c.target) }

theorem profileSwitch_none (h : s.power.change = none) : exec .profileSwitch s = .next s := by
  show execProfileSwitch s = _
  unfold execProfileSwitch
  rw [h]

theorem profileSwitch_row {c : ProfileChange} (h : s.power.change = some c) : exec .profileSwitch s = .next (
    if s.serving && s.atTick && c.waits.all s.hasCommitted then
      match s.flight c.mbx c.tag with
      | some g => (s.switched c).answer g .done (profileAnswer s.power.profile ((s.clock - c.since) / 1000))
      | none => s.switched c
    else s) := by
  show execProfileSwitch s = _
  unfold execProfileSwitch
  rw [h]
  rfl

theorem atTick_iff : s.atTick = true ↔ s.fabTime % 1000000 = 0 := beq_iff_eq

theorem profileSwitch_not {c : ProfileChange} (h : s.power.change = some c)
    (k : s.serving = false ∨ s.fabTime % 1000000 ≠ 0 ∨ ∃ w ∈ c.waits, s.hasCommitted w = false) : exec .profileSwitch s = .next s := by
  rw [profileSwitch_row h, if_neg]
  rw [Bool.and_eq_true, Bool.and_eq_true, atTick_iff, List.all_eq_true]
  rintro ⟨⟨h1, h2⟩, h3⟩
  rcases k with k | k | ⟨w, hw, k⟩
  · rw [h1] at k; cases k
  · exact k h2
  · rw [h3 w hw] at k; cases k

theorem profileSwitch_switches {c : ProfileChange} (h : s.power.change = some c) (hs : s.serving = true) (ht : s.fabTime % 1000000 = 0)
    (hw : ∀ w ∈ c.waits, s.hasCommitted w = true) :
    (s.flight c.mbx c.tag = none → exec .profileSwitch s = .next (s.switched c)) ∧
    (∀ g, s.flight c.mbx c.tag = some g → exec .profileSwitch s =
      .next ((s.switched c).answer g .done (profileAnswer s.power.profile ((s.clock - c.since) / 1000)))) := by
  rw [profileSwitch_row h, if_pos (by rw [hs, atTick_iff.mpr ht, List.all_eq_true.mpr hw]; rfl)]
  refine ⟨fun k => ?_, fun g k => ?_⟩ <;> rw [k]

/-! #### SET_SEASON (R456, Table 18-4) -/

/-- What SET_SEASON does, by the season and the drain, once its fields are right. -/
def State.seasonSet (f : Flight) (s : State) : Except Detail State :=
  match s.power.season, s.power.drain with
  | .summer, _ =>
    if field f.plain 0 1 = 0 then .ok ((s.setWork f .winterWait).beginDrain (.winter f.mbx f.tag))
    else if field f.plain 0 1 = 2 then .ok (s.answer f .done [])
    else .ok ((s.beginDrain .stay).answer f .done [])
  | .drain, .winter _ _ => .error wrongState
  | .drain, _ =>
    if field f.plain 0 1 = 0 then .ok (({ s with power.drain := .winter f.mbx f.tag } : State).setWork f .winterWait)
    else if field f.plain 0 1 = 2 then .ok ((({ s with power.season := .summer, power.drain := .none } : State).logKind 10 2).answer f .done [])
    else .ok (s.answer f .done [])
  | _, _ => .error wrongState

theorem setSeason_row (ht : s.turn 0x0011 m tag f) (ho : f.opens 8 8) : exec (.setSeason m tag) s =
    .next (s.outcome f (fields [(0, field f.plain 0 1 == 0 || field f.plain 0 1 == 2 || field f.plain 0 1 == 3), (1, zeroField f.plain 1 7)] >>= fun _ =>
      s.seasonSet f)) := by
  refine congrArg Host.Outcome.next ((start_outcome ht).trans (congrArg (s.outcome f) ?_))
  rw [opening_ok ho, ok_bind]
  rfl

/-- A target that Table 18-4 names. -/
theorem seasonTarget {n : Nat} (h : n = 0 ∨ n = 2 ∨ n = 3) : (n == 0 || n == 2 || n == 3) = true := by
  rcases h with rfl | rfl | rfl <;> rfl

theorem setSeason_unassigned (ht : s.turn 0x0011 m tag f) (ho : f.opens 8 8) (h : field f.plain 0 1 = 1 ∨ 4 ≤ field f.plain 0 1) :
    exec (.setSeason m tag) s = .next (s.answerDetail f (bad 0x20)) := by
  have e : (field f.plain 0 1 == 0 || field f.plain 0 1 == 2 || field f.plain 0 1 == 3) = false := by
    simp only [Bool.or_eq_false_iff, beq_eq_false_iff_ne]
    omega
  rw [setSeason_row ht ho, e]
  rfl

theorem setSeason_reserved (ht : s.turn 0x0011 m tag f) (ho : f.opens 8 8) (h : field f.plain 0 1 = 0 ∨ field f.plain 0 1 = 2 ∨ field f.plain 0 1 = 3)
    (hz : zeroField f.plain 1 7 = false) : exec (.setSeason m tag) s = .next (s.answerDetail f (bad 0x21)) := by
  rw [setSeason_row ht ho, seasonTarget h, hz, fields_cons]
  rfl

theorem setSeason_valid (ht : s.turn 0x0011 m tag f) (ho : f.opens 8 8) (hz : zeroField f.plain 1 7 = true)
    (h : field f.plain 0 1 = 0 ∨ field f.plain 0 1 = 2 ∨ field f.plain 0 1 = 3) :
    exec (.setSeason m tag) s = .next (s.outcome f (s.seasonSet f)) := by
  rw [setSeason_row ht ho, seasonTarget h, hz, fields_cons, fields_cons, fields_nil, ok_bind]

theorem seasonSet_summer (hs : s.power.season = .summer) : s.seasonSet f =
    if field f.plain 0 1 = 0 then .ok ((s.setWork f .winterWait).beginDrain (.winter f.mbx f.tag))
    else if field f.plain 0 1 = 2 then .ok (s.answer f .done [])
    else .ok ((s.beginDrain .stay).answer f .done []) := by
  rw [State.seasonSet, hs]

theorem seasonSet_drain (hs : s.power.season = .drain) (hd : ∀ a b, s.power.drain ≠ .winter a b) : s.seasonSet f =
    if field f.plain 0 1 = 0 then .ok (({ s with power.drain := .winter f.mbx f.tag } : State).setWork f .winterWait)
    else if field f.plain 0 1 = 2 then .ok ((({ s with power.season := .summer, power.drain := .none } : State).logKind 10 2).answer f .done [])
    else .ok (s.answer f .done []) := by
  rw [State.seasonSet, hs]
  cases e : s.power.drain with
  | winter a b => exact absurd e (hd a b)
  | none => rfl
  | stay => rfl

theorem seasonSet_winter {a : Nat} {b : Word} (hs : s.power.season = .drain) (hd : s.power.drain = .winter a b) : s.seasonSet f = .error wrongState := by
  rw [State.seasonSet, hs, hd]

theorem seasonSet_other (hs : s.power.season ≠ .summer) (hd : s.power.season ≠ .drain) : s.seasonSet f = .error wrongState := by
  unfold State.seasonSet
  split
  · next h => exact absurd h hs
  · next h _ => exact absurd h hd
  · next h _ => exact absurd h hd
  · rfl

/-! #### DRAIN_COMPLETE (R456, R457) -/

theorem drainComplete_row : exec .drainComplete s = .next (
    if s.power.season == .drain && s.power.entering.isNone then
      match s.pursueDrain.power.drain with
      | .winter a b =>
        if s.pursueDrain.drained then
          let v := match s.pursueDrain.flight a b with | some g => (s.pursueDrain.answer g .done []).writeOne a | none => s.pursueDrain
          ({ v with power.entering := some v.clock } : State).closeHost
        else s.pursueDrain
      | _ => s.pursueDrain
    else s) := rfl

theorem drainComplete_not (h : s.power.season ≠ .drain ∨ s.power.entering ≠ none) : exec .drainComplete s = .next s := by
  rw [drainComplete_row, if_neg]
  rcases h with h | h <;> simp [h]

theorem drainComplete_pursues (hs : s.power.season = .drain) (he : s.power.entering = none) : exec .drainComplete s = .next (
      match s.pursueDrain.power.drain with
      | .winter a b =>
        if s.pursueDrain.drained then
          let v := match s.pursueDrain.flight a b with | some g => (s.pursueDrain.answer g .done []).writeOne a | none => s.pursueDrain
          ({ v with power.entering := some v.clock } : State).closeHost
        else s.pursueDrain
      | _ => s.pursueDrain) := by
  rw [drainComplete_row, if_pos (by rw [hs, he]; rfl)]

theorem drainComplete_stays (hs : s.power.season = .drain) (he : s.power.entering = none) (hd : ∀ a b, s.pursueDrain.power.drain ≠ .winter a b) :
    exec .drainComplete s = .next s.pursueDrain := by
  rw [drainComplete_pursues hs he]
  split
  · next h => exact absurd h (hd _ _)
  · rfl

theorem drainComplete_winter (hs : s.power.season = .drain) (he : s.power.entering = none) {a : Nat} {b : Word}
    (hd : s.pursueDrain.power.drain = .winter a b) :
    (s.pursueDrain.drained = false → exec .drainComplete s = .next s.pursueDrain) ∧
    (s.pursueDrain.drained = true → s.pursueDrain.flight a b = none → exec .drainComplete s =
      .next (({ s.pursueDrain with power.entering := some s.pursueDrain.clock } : State).closeHost)) ∧
    (∀ g, s.pursueDrain.drained = true → s.pursueDrain.flight a b = some g →
      let v := (s.pursueDrain.answer g .done []).writeOne a
      exec .drainComplete s = .next (({ v with power.entering := some v.clock } : State).closeHost)) := by
  rw [drainComplete_pursues hs he, hd]
  refine ⟨fun h => ?_, fun h k => ?_, fun g h k => ?_⟩
  · exact congrArg Host.Outcome.next (if_neg (ne_true_of_eq_false h))
  · refine (congrArg Host.Outcome.next (if_pos h)).trans ?_
    rw [k]
  · refine (congrArg Host.Outcome.next (if_pos h)).trans ?_
    rw [k]

theorem closeHost_windows_bound : ∀ e ∈ s.closeHost.host.windows, e.2.bound ≠ none := by
  intro e he
  obtain ⟨x, hx, rfl⟩ := List.mem_map.mp he
  exact Option.isSome_iff_ne_none.mp (List.mem_filter.mp hx).2

/-! #### Winter and the wake (R454, R457) -/

/-- The state in which the module enters Winter: all durable, the ports down and the host side closed. -/
def State.winterReady (s : State) : State := ((s.logKind 10 0).allDurable.stopFabric).closeHost

theorem winterEntry_exec : exec .winterEntry s = execWinterEntry s := rfl

theorem winterEntry_not (h : s.power.entering = none ∨ s.power.season ≠ .drain) : exec .winterEntry s = .next s := by
  rw [winterEntry_exec, execWinterEntry]
  split
  · rfl
  · next t ht =>
    refine congrArg Host.Outcome.next (if_neg ?_)
    rcases h with h | h
    · rw [h] at ht; cases ht
    · rw [beq_false_of_ne h]
      exact Bool.false_ne_true

theorem winterEntry_early {t : Nat} (he : s.power.entering = some t) (h : s.clock < t + 5000000) : exec .winterEntry s = .next s := by
  rw [winterEntry_exec, execWinterEntry]
  rw [he]
  refine congrArg Host.Outcome.next (if_neg ?_)
  rw [decide_eq_false (Nat.not_le.mpr h), Bool.and_false]
  exact Bool.false_ne_true

/-- 5 ms after the drain it is Winter, and the TRKs are held wrapped. -/
theorem winterEntry_enters {t : Nat} (he : s.power.entering = some t) (hs : s.power.season = .drain) (h : t + 5000000 ≤ s.clock) :
    ∃ u v, exec .winterEntry s = .next u ∧ u.power.season = .winter ∧ u.power.drain = .none ∧ u.power.entering = none ∧ u.power.pcieUp = false ∧
      u.keys.trks = [] ∧ u.keys.sessions = [] ∧ u.keys.retained = v ∧ v = s.winterReady.keys.trks := by
  rw [winterEntry_exec, execWinterEntry]
  rw [he]
  refine ⟨_, _, congrArg Host.Outcome.next (if_pos ?_), rfl, rfl, rfl, rfl, rfl, rfl, rfl, rfl⟩
  rw [hs, decide_eq_true h]
  rfl

theorem wake_row : exec .wake s = .next (
    if !s.pins.aoUp then s
    else if s.power.season == .winter then
      if s.power.hbmLost then (s.emit (.mctp (vendorMessage 2 [0]))).afterReset.beginSpring else (s.emit (.mctp (vendorMessage 2 [0]))).beginWake
    else s.emit (.mctp (vendorMessage 2 [1]))) := rfl

theorem wake_down (h : s.pins.aoUp = false) : exec .wake s = .next s := by
  rw [wake_row, h]
  rfl

theorem wake_refused (h : s.pins.aoUp = true) (hs : s.power.season ≠ .winter) : exec .wake s = .next (s.emit (.mctp (vendorMessage 2 [1]))) := by
  rw [wake_row, h, beq_false_of_ne hs]
  rfl

theorem wake_cold (h : s.pins.aoUp = true) (hs : s.power.season = .winter) (hl : s.power.hbmLost = true) :
    exec .wake s = .next (s.emit (.mctp (vendorMessage 2 [0]))).afterReset.beginSpring := by
  rw [wake_row, h, hs, hl]
  rfl

theorem wake_warm (h : s.pins.aoUp = true) (hs : s.power.season = .winter) (hl : s.power.hbmLost = false) :
    exec .wake s = .next (s.emit (.mctp (vendorMessage 2 [0]))).beginWake := by
  rw [wake_row, h, hs, hl]
  rfl

/-- What a wake brings up and what it leaves. -/
theorem beginWake_leaves : s.beginWake.power.season = .spring ∧ s.beginWake.power.warm = true ∧ s.beginWake.power.waking = some s.clock ∧
    s.beginWake.power.profile = strapProfile s.power.straps.profileSel ∧ s.beginWake.keys.trks = s.keys.retained ∧ s.beginWake.keys.retained = [] ∧
    s.beginWake.index = s.index ∧ s.beginWake.tables = s.tables ∧ s.beginWake.tiers = s.tiers ∧ s.beginWake.flash = s.flash := by
  unfold State.beginWake State.logKind
  obtain ⟨t, ht⟩ := log_tenants_only { seq := 0, time := 0, kind := 10, detail := 1 } { s with
    power.season := .spring, power.warm := true, power.waking := some s.clock, power.profile := strapProfile s.power.straps.profileSel, comp.completions := []
    power.pcieUp := s.pins.perstN && s.pins.pcieClk, power.flashDriven := s.pins.flashPg
    governor.clocks := List.replicate 4 (clockCeiling (strapProfile s.power.straps.profileSel)), governor.nbuRates := []
    keys.trks := s.keys.retained, keys.retained := []
    fabric.time := .acquiring, fabric.closeSince := none, fabric.grandmaster := false
    fabric.ports := s.fabric.ports.map fun x => { x with gates := resetGates, gateWait := none } }
  dsimp only
  rw [ht]
  exact ⟨rfl, rfl, rfl, rfl, rfl, rfl, rfl, rfl, rfl, rfl⟩

/-! #### What the self-test leaves -/

/-- At most the tiles, the logs and what the module has driven out differ. -/
def TilesOnly (s t : State) : Prop := ∃ x n o, t = { s with tiles := x, tenants := n, out := o }

theorem TilesOnly.refl (s : State) : TilesOnly s s := ⟨s.tiles, s.tenants, s.out, rfl⟩

theorem TilesOnly.trans {s t u : State} (h : TilesOnly s t) (k : TilesOnly t u) : TilesOnly s u := by
  obtain ⟨x, n, o, rfl⟩ := h
  obtain ⟨x', n', o', rfl⟩ := k
  exact ⟨x', n', o', rfl⟩

theorem TilesOnly.foldl {α : Type} {g : State → α → State} (h : ∀ s a, TilesOnly s (g s a)) : ∀ (l : List α) (s : State), TilesOnly s (l.foldl g s)
  | [], s => .refl s
  | a :: l, s => (h s a).trans (TilesOnly.foldl h l _)

/-- A register that is in none of the three is as it was. -/
theorem TilesOnly.same {α : Type} {s t : State} (h : TilesOnly s t) (g : State → α) (hg : ∀ x n o, g { s with tiles := x, tenants := n, out := o } = g s) :
    g t = g s := by
  obtain ⟨x, n, o, rfl⟩ := h
  exact hg x n o

theorem log_tilesOnly (e : LogEntry) (s : State) : TilesOnly s (s.log e) := by
  obtain ⟨t, ht⟩ := log_tenants_only e s
  exact ⟨_, _, _, ht⟩

theorem tileGone_tilesOnly (t : Nat) (s : State) : TilesOnly s (s.tileGone t) := by
  have h : TilesOnly s (({ s with tiles.state := s.tiles.state.put t .gone } : State).logUnit t) := .trans ⟨_, _, _, rfl⟩ (log_tilesOnly _ _)
  unfold State.tileGone
  dsimp only
  split
  · exact (h.trans (log_tilesOnly _ _)).trans ⟨_, _, _, rfl⟩
  · exact h

theorem selfTest_tilesOnly (bad : List (Fin 4352)) (s : State) : TilesOnly s (s.selfTest bad) := by
  refine .trans ⟨_, _, _, rfl⟩ (TilesOnly.foldl (fun s p => ?_) _ _)
  split
  · split
    · exact .refl s
    · split
      · exact .trans ⟨_, _, _, rfl⟩ (log_tilesOnly _ _)
      · exact tileGone_tilesOnly _ s
  · exact .refl s

/-! #### WAKE_COMPLETE (R455, R457) -/

theorem wakeComplete_exec : exec .wakeComplete s = execWakeComplete s := rfl

theorem wakeComplete_not (h : s.power.waking = none ∨ s.power.season ≠ .spring ∨ s.power.warm = false ∨ s.pins.flashPg = false) :
    exec .wakeComplete s = .next s := by
  rw [wakeComplete_exec, execWakeComplete]
  split
  · rfl
  · next t ht =>
    refine congrArg Host.Outcome.next (if_neg fun k => ?_)
    simp only [Bool.and_eq_true, beq_iff_eq] at k
    obtain ⟨⟨⟨k1, k2⟩, k3⟩, -⟩ := k
    rcases h with h | h | h | h
    · rw [h] at ht; cases ht
    · exact h k1
    · rw [h] at k2; cases k2
    · rw [h] at k3; cases k3

theorem wakeComplete_early {t : Nat} (hw : s.power.waking = some t) (h : s.clock < t + 200000000) : exec .wakeComplete s = .next s := by
  rw [wakeComplete_exec, execWakeComplete, hw]
  refine congrArg Host.Outcome.next (if_neg ?_)
  rw [decide_eq_false (Nat.not_le.mpr h), Bool.and_false]
  exact Bool.false_ne_true

/-- The state in which a wake's tiles are tested. -/
def State.woken (s : State) : State :=
  { s.wakeTest.2 with
    power.waking := none, power.warm := false, power.profile := s.power.rates, governor.clocks := s.governor.clocks.map fun k => min k (clockCeiling s.power.rates)
    index.scrubBase := s.clock, tiles.tested := true }

theorem wakeTest_snd : s.wakeTest.2 = s.draw.2 := by
  simp only [State.wakeTest]

theorem wakeComplete_ends {t : Nat} (hw : s.power.waking = some t) (hs : s.power.season = .spring) (hm : s.power.warm = true)
    (h : t + 200000000 ≤ s.clock) (hf : s.pins.flashPg = true) : exec .wakeComplete s = .next (s.woken.selfTest s.wakeTest.1).beginSummer := by
  rw [wakeComplete_exec, execWakeComplete, hw]
  refine (congrArg Host.Outcome.next (if_pos ?_)).trans ?_
  · rw [hs, hm, hf, decide_eq_true h]
    rfl
  · have e := wakeTest_snd (s := s)
    unfold State.woken
    generalize s.wakeTest = x at e
    obtain ⟨l, x⟩ := x
    obtain rfl : x = s.draw.2 := e
    rfl

theorem beginSummer_tilesOnly : TilesOnly { s with power.season := .summer } s.beginSummer := by
  rw [State.beginSummer, State.logKind]
  exact log_tilesOnly _ _

/-- Summer begins with the power of the state before it, but for the season. -/
theorem beginSummer_power : s.beginSummer.power = { s.power with season := .summer } := beginSummer_tilesOnly.same (·.power) fun _ _ _ => rfl

theorem beginSummer_index : s.beginSummer.index = s.index := beginSummer_tilesOnly.same (·.index) fun _ _ _ => rfl

theorem beginSummer_tables : s.beginSummer.tables = s.tables := beginSummer_tilesOnly.same (·.tables) fun _ _ _ => rfl

theorem beginSummer_flash : s.beginSummer.flash = s.flash := beginSummer_tilesOnly.same (·.flash) fun _ _ _ => rfl

theorem wakeComplete_leaves : let u := (s.woken.selfTest s.wakeTest.1).beginSummer
    u.power.season = .summer ∧ u.power.profile = s.power.rates ∧ u.power.waking = none ∧ u.power.warm = false ∧
    u.index.collections = s.index.collections ∧ u.tables = s.tables := by
  intro u
  have h := selfTest_tilesOnly s.wakeTest.1 s.woken
  have hp : u.power = { s.woken.power with season := .summer } := by
    rw [beginSummer_power, h.same (·.power) fun _ _ _ => rfl]
  have hi : u.index = s.woken.index := beginSummer_index.trans (h.same (·.index) fun _ _ _ => rfl)
  have ht : u.tables = s.woken.tables := beginSummer_tables.trans (h.same (·.tables) fun _ _ _ => rfl)
  rw [hp, hi, ht]
  exact ⟨rfl, rfl, rfl, rfl, rfl, rfl⟩

/-! #### SPRING_BRING_UP (R455) -/

/-- The count of Springs without a marker is kept, and at most flash and the logs differ. -/
def DiesOnly (s t : State) : Prop := ∃ f n, t = { s with flash := f, tenants := n } ∧ f.uncleanSprings = s.flash.uncleanSprings

theorem DiesOnly.refl (s : State) : DiesOnly s s := ⟨s.flash, s.tenants, rfl, rfl⟩

theorem DiesOnly.trans {s t u : State} (h : DiesOnly s t) (k : DiesOnly t u) : DiesOnly s u := by
  obtain ⟨f, n, rfl, hf⟩ := h
  obtain ⟨f', n', rfl, hf'⟩ := k
  exact ⟨f', n', rfl, hf'.trans hf⟩

theorem DiesOnly.foldl {α : Type} {g : State → α → State} (h : ∀ s a, DiesOnly s (g s a)) : ∀ (l : List α) (s : State), DiesOnly s (l.foldl g s)
  | [], s => .refl s
  | a :: l, s => (h s a).trans (DiesOnly.foldl h l _)

theorem DiesOnly.power {s t : State} (h : DiesOnly s t) : t.power = s.power := by
  obtain ⟨f, n, rfl, -⟩ := h
  rfl

theorem DiesOnly.unclean {s t : State} (h : DiesOnly s t) : t.flash.uncleanSprings = s.flash.uncleanSprings := by
  obtain ⟨f, n, rfl, hf⟩ := h
  exact hf

theorem logUnit_diesOnly (n : Nat) (s : State) : DiesOnly s (s.logUnit n) := by
  obtain ⟨t, ht⟩ := log_tenants_only { seq := 0, time := 0, kind := 4, detail := n } s
  exact ⟨_, _, ht, rfl⟩

theorem updDie_diesOnly (d : Nat) (g : Die → Die) (s : State) : DiesOnly s (s.updDie d g) := ⟨_, _, rfl, rfl⟩

theorem updQuad_diesOnly (q : Nat) (g : QuadBlock → QuadBlock) (s : State) : DiesOnly s (s.updQuad q g) := ⟨_, _, rfl, rfl⟩

theorem failDie_diesOnly (d : Nat) (s : State) : DiesOnly s (s.failDie d) := by
  unfold State.failDie
  split
  · exact .trans ⟨_, _, rfl, rfl⟩ (logUnit_diesOnly _ _)
  · exact .refl s

theorem dieFound_diesOnly (listed : List Nat) (e : Nat × FoundDie) (s : State) : DiesOnly s (s.dieFound listed e) := updDie_diesOnly _ _ _

/-- Formatting begins: the positions of a list that hold no accepted die are marked. -/
def State.populated (l : List Nat) (dies : List (Nat × FoundDie)) (s : State) : State :=
  l.foldl (fun s d => if dies.any (·.1 == d) then s else s.updDie d fun x => { x with state := 3 }) { s with
    flash.perChannel := dies.foldl (fun n e => max n (e.1 % 16 + 1)) 1, flash.dies := [], flash.formatted := true, flash.hasState := true }

theorem populated_diesOnly (l : List Nat) (dies : List (Nat × FoundDie)) (s : State) : DiesOnly s (s.populated l dies) := by
  refine .trans ⟨_, _, rfl, rfl⟩ (.foldl (fun s d => ?_) _ _)
  split
  · exact .refl s
  · exact updDie_diesOnly _ _ s

theorem format_diesOnly (dies : List (Nat × FoundDie)) (s : State) : DiesOnly s (s.format dies) := by
  unfold State.format
  dsimp only
  generalize List.range 1024 = l
  refine DiesOnly.trans ?_ (.foldl (fun s e => (updDie_diesOnly _ _ s).trans (.foldl (fun s b => updQuad_diesOnly _ _ s) _ _)) dies _)
  have h := populated_diesOnly l dies s
  split
  · exact h.trans ⟨_, _, rfl, rfl⟩
  · exact h

theorem bringUpDies_diesOnly (dies : List (Nat × FoundDie)) (s : State) : DiesOnly s (s.bringUpDies dies) := by
  unfold State.bringUpDies
  generalize s.positions = listed
  split
  · dsimp only
    refine DiesOnly.trans (t := (listed.filter fun d => !dies.any (·.1 == d)).foldl (fun s d => s.failDie d) { s with flash.formatted := false }) ?_
      (.foldl (fun s e => dieFound_diesOnly _ e s) _ _)
    exact .trans ⟨_, _, rfl, rfl⟩ (.foldl (fun s d => failDie_diesOnly d s) _ _)
  · exact format_diesOnly dies s

theorem mapDamaged_diesOnly (pages : List Nat) (s : State) : DiesOnly s (s.mapDamaged pages) := by
  refine DiesOnly.foldl (fun s p => ?_) pages s
  exact ⟨_, _, rfl, rfl⟩

theorem programJournal_unclean : s.programJournal.flash.uncleanSprings = s.flash.uncleanSprings := by
  unfold State.programJournal
  split <;> rfl

theorem flushJournal_unclean (n : Nat) : (s.flushJournal n).flash.uncleanSprings = s.flash.uncleanSprings := by
  induction n generalizing s with
  | zero => rfl
  | succ n ih => rw [State.flushJournal, ih, programJournal_unclean]

/-- Media recovery counts a Spring that found no marker, and marks (R388). -/
theorem recoverMedia_leaves : s.recoverMedia.power.flushMarked = true ∧
    (s.power.flushMarked = false → s.recoverMedia.flash.uncleanSprings = min (s.flash.uncleanSprings + 1) 0xFFFFFFFF) ∧
    (s.power.flushMarked = true → s.recoverMedia.flash.uncleanSprings = s.flash.uncleanSprings) := by
  refine ⟨rfl, fun h => ?_, fun h => ?_⟩
  · unfold State.recoverMedia
    rw [h]
    rfl
  · unfold State.recoverMedia
    rw [h]
    exact flushJournal_unclean _

/-- The dies found and trained, and the map loaded. -/
def State.mediaUp (found : MediaFound) (s : State) : State :=
  (s.recoverMedia.bringUpDies (acceptedDies found.dies found.untrained)).mapDamaged found.rejected

/-- The media FAILED on too few channels (R358). -/
def State.mediaJudged (s : State) : State :=
  if s.usableChannels < 16 then ({ s with flash.failed := true } : State).logUnit 0xFFFF else { s with flash.failed := false }

/-- The objects that are still given are superseded, and the leases begin again. -/
def State.leasesAnew (s : State) : State :=
  { s with
    tiers.objects := (s.tiers.objects.filter fun (o : SharedObject) =>
      s.tiers.given.any fun l => l.collection == o.collection && l.gen == o.gen && l.segment == o.segment).map
        fun (o : SharedObject) => { o with superseded := true }
    tiers.given := s.tiers.given.map fun (l : Lease) => { l with since := s.clock } }

theorem springBringUp_row (found : MediaFound) (bad : List (Fin 4352)) : exec (.springBringUp found bad) s = .next (
    if s.power.season == .spring && !s.power.warm && s.pins.flashPg then ((s.mediaUp found).mediaJudged.selfTest bad).leasesAnew.beginSummer else s) := rfl

theorem springBringUp_not (found : MediaFound) (bad : List (Fin 4352)) (h : s.power.season ≠ .spring ∨ s.power.warm = true ∨ s.pins.flashPg = false) :
    exec (.springBringUp found bad) s = .next s := by
  rw [springBringUp_row, if_neg]
  rcases h with h | h | h <;> simp [h]

theorem springBringUp_runs (found : MediaFound) (bad : List (Fin 4352)) (hs : s.power.season = .spring) (hw : s.power.warm = false)
    (hf : s.pins.flashPg = true) : exec (.springBringUp found bad) s = .next ((s.mediaUp found).mediaJudged.selfTest bad).leasesAnew.beginSummer := by
  rw [springBringUp_row, if_pos]
  rw [hs, hw, hf]
  rfl

theorem mediaJudged_leaves : s.mediaJudged.power = s.power ∧ s.mediaJudged.flash.uncleanSprings = s.flash.uncleanSprings ∧
    (16 ≤ s.usableChannels → s.mediaJudged.flash.failed = false) ∧ (s.usableChannels < 16 → s.mediaJudged.flash.failed = true) := by
  unfold State.mediaJudged
  split
  · next h =>
    obtain ⟨t, ht⟩ := log_tenants_only { seq := 0, time := 0, kind := 4, detail := 0xFFFF } { s with flash.failed := true }
    rw [State.logUnit, ht]
    exact ⟨rfl, rfl, fun k => absurd h (Nat.not_lt.mpr k), fun _ => rfl⟩
  · next h => exact ⟨rfl, rfl, fun _ => rfl, fun k => absurd k h⟩

/-- What the rest of Spring leaves of the marks on the media. -/
theorem springEnd_leaves (bad : List (Fin 4352)) : let u := (s.selfTest bad).leasesAnew.beginSummer
    u.power = { s.power with season := .summer } ∧ u.flash = s.flash := by
  intro u
  have h := selfTest_tilesOnly bad s
  have hp : (s.selfTest bad).power = s.power := h.same (·.power) fun _ _ _ => rfl
  have hf : (s.selfTest bad).flash = s.flash := h.same (·.flash) fun _ _ _ => rfl
  exact ⟨beginSummer_power.trans (congrArg (fun p : Power => { p with season := .summer }) hp), beginSummer_flash.trans hf⟩

theorem springBringUp_leaves (found : MediaFound) (bad : List (Fin 4352)) (hs : s.power.season = .spring) (hw : s.power.warm = false)
    (hf : s.pins.flashPg = true) : ∃ u, exec (.springBringUp found bad) s = .next u ∧ u.power.season = .summer ∧
      u.power.flushMarked = true ∧ (s.power.flushMarked = false → u.flash.uncleanSprings = min (s.flash.uncleanSprings + 1) 0xFFFFFFFF) ∧
      (s.power.flushMarked = true → u.flash.uncleanSprings = s.flash.uncleanSprings) ∧
      (16 ≤ (s.mediaUp found).usableChannels → u.flash.failed = false) ∧ ((s.mediaUp found).usableChannels < 16 → u.flash.failed = true) := by
  have hd : DiesOnly s.recoverMedia (s.mediaUp found) := (bringUpDies_diesOnly _ _).trans (mapDamaged_diesOnly _ _)
  obtain ⟨hm, hu, hk⟩ := recoverMedia_leaves (s := s)
  obtain ⟨jp, ju, jg, jb⟩ := mediaJudged_leaves (s := s.mediaUp found)
  obtain ⟨ep, ef⟩ := springEnd_leaves (s := (s.mediaUp found).mediaJudged) bad
  refine ⟨_, springBringUp_runs found bad hs hw hf, ?_⟩
  rw [ep, ef, jp, ju, hd.power, hd.unclean]
  exact ⟨rfl, hm, hu, hk, jg, jb⟩

/-- Which of the dies that answer are accepted (R357, R358). -/
theorem mem_acceptedDies {found : List (Fin 1024 × FoundDie)} {untrained : List (Fin 64)} {e : Fin 1024 × FoundDie} (he : e ∈ found) :
    (e.1.val, e.2) ∈ acceptedDies found untrained ↔
      geometryAccepted e.2.page = true ∧ (∀ x ∈ found, pagesAgree e.2.page x.2.page = true) ∧ e.2.trained ≠ none ∧ ∀ c ∈ untrained, c.val ≠ e.1.val / 16 := by
  have inj : Function.Injective fun e : Fin 1024 × FoundDie => (e.1.val, e.2) := fun a b h =>
    Prod.ext (Fin.ext (congrArg Prod.fst h :)) (congrArg Prod.snd h :)
  rw [acceptedDies, List.mem_map_of_injective inj (a := e), List.mem_filter]
  simp only [he, true_and, Bool.and_eq_true, List.all_eq_true, Option.isSome_iff_ne_none, Bool.not_eq_true', List.any_eq_false, beq_iff_eq, and_assoc]

/-! #### RESET_RELEASE and FLUSH_END (R452, R474) -/

theorem flushEnd_ends (hs : s.power.season = .powerLoss) (hf : s.power.flushed = true) : exec .flushEnd s = .next s.afterReset :=
  congrArg Host.Outcome.next (if_pos (by rw [hs, hf]; rfl))

theorem flushEnd_not (h : s.power.season ≠ .powerLoss ∨ s.power.flushed = false) : exec .flushEnd s = .next s := by
  refine congrArg Host.Outcome.next (if_neg ?_)
  rcases h with h | h <;> simp [h]

/-- The pins as RESET_RELEASE finds them. -/
def State.released (v : Nat) (h : Bool) (c : BitVec 2) (st : Straps) (s : State) : State :=
  { s with pins.input := v, pins.holdupN := h, pins.sysClk := c, pins.straps := st }

theorem resetRelease_row (v : Nat) (h : Bool) (c : BitVec 2) (st : Straps) : exec (.resetRelease v h c st) s = .next (
    if s.power.season == .heldInReset && s.pins.resetN && !s.power.straps.testMode then
      if (s.released v h c st).conditionsGood then (s.released v h c st).beginSpring else s.released v h c st
    else s) := rfl

theorem resetRelease_not (v : Nat) (h : Bool) (c : BitVec 2) (st : Straps)
    (k : s.power.season ≠ .heldInReset ∨ s.pins.resetN = false ∨ s.power.straps.testMode = true) : exec (.resetRelease v h c st) s = .next s := by
  rw [resetRelease_row, if_neg]
  rcases k with k | k | k <;> simp [k]

theorem conditionsGood_iff : s.conditionsGood = true ↔ 360 ≤ s.pins.input ∧ s.pins.input ≤ 420 ∧ s.pins.holdupN = true ∧ s.power.trip = false ∧
    s.power.tripRetained = false ∧ s.power.overvoltage = false ∧ s.pins.sysClk = 3 ∧ s.pins.aoUp = true := by
  simp only [State.conditionsGood, Bool.and_eq_true, decide_eq_true_eq, Bool.not_eq_true', beq_iff_eq, and_assoc]

theorem resetRelease_held {v : Nat} {h : Bool} {c : BitVec 2} {st : Straps} (hs : s.power.season = .heldInReset) (hr : s.pins.resetN = true)
    (ht : s.power.straps.testMode = false) :
    ((s.released v h c st).conditionsGood = true → exec (.resetRelease v h c st) s = .next (s.released v h c st).beginSpring) ∧
    ((s.released v h c st).conditionsGood = false → exec (.resetRelease v h c st) s = .next (s.released v h c st)) := by
  rw [resetRelease_row, if_pos (by rw [hs, hr, ht]; rfl)]
  exact ⟨fun k => congrArg Host.Outcome.next (if_pos k), fun k => congrArg Host.Outcome.next (if_neg (ne_true_of_eq_false k))⟩

theorem conditionsGood_not (h : s.pins.input < 360 ∨ 420 < s.pins.input ∨ s.pins.holdupN = false ∨ s.power.trip = true ∨ s.power.tripRetained = true ∨
    s.power.overvoltage = true ∨ s.pins.sysClk ≠ 3 ∨ s.pins.aoUp = false) : s.conditionsGood = false := by
  rw [Bool.eq_false_iff, Ne, conditionsGood_iff]
  rintro ⟨h1, h2, h3, h4, h5, h6, h7, h8⟩
  rcases h with h | h | h | h | h | h | h | h
  · omega
  · omega
  · rw [h3] at h; cases h
  · rw [h4] at h; cases h
  · rw [h5] at h; cases h
  · rw [h6] at h; cases h
  · exact h h7
  · rw [h8] at h; cases h

end

/-- Settles O50: each command and event of chapter 18 is its row; what Winter, a wake and Spring leave is read off the frames of the self-test and of the
bring-up of the dies. -/
theorem seasonCommands : Obligations.SeasonCommands := by
  unfold Obligations.SeasonCommands
  intro m tag f s
  refine ⟨fun ht ho => ⟨setProfile_unassigned ht ho, setProfile_reserved ht ho, fun hp hz => ⟨setProfile_again ht ho hp hz,
      setProfile_in_force ht ho hp hz, setProfile_changes ht ho hp hz⟩⟩,
    ⟨profileSwitch_none, fun c hc => ⟨profileSwitch_not hc, profileSwitch_switches hc⟩⟩, fun ht ho => ?season,
    ⟨drainComplete_not, fun hs he => ⟨drainComplete_stays hs he, fun a b => drainComplete_winter hs he⟩⟩,
    ⟨rfl, rfl, rfl, closeHost_windows_bound⟩, winterEntry_not, fun t he hs => ⟨winterEntry_early he, winterEntry_enters he hs⟩,
    ⟨wake_down, wake_refused, wake_cold, wake_warm, fun ha hs hl => ⟨_, wake_warm ha hs hl, beginWake_leaves⟩⟩,
    ⟨wakeComplete_not, fun t hw hs hm => ⟨wakeComplete_early hw, fun h hf => ⟨wakeComplete_ends hw hs hm h hf, _, wakeComplete_ends hw hs hm h hf,
      wakeComplete_leaves⟩⟩⟩,
    springBringUp_not, fun found untrained rejected bad hs hw hf => ⟨springBringUp_runs _ bad hs hw hf, springBringUp_leaves _ bad hs hw hf⟩,
    fun found untrained e he => mem_acceptedDies he, ⟨flushEnd_ends, flushEnd_not⟩, resetRelease_not, fun v h c st hs hr ht => ?release,
    ⟨fun h => ?test, fun h => ?spring⟩⟩
  case season =>
    refine ⟨setSeason_unassigned ht ho, setSeason_reserved ht ho, fun hz => ⟨fun hs => ⟨fun k => ?_, fun k => ?_, fun k => ?_⟩,
      fun hs => ⟨fun a b hd k => ?_, fun hd => ⟨fun k => ?_, fun k => ?_, fun k => ?_⟩⟩, fun hs hd k => ?_⟩⟩
    · rw [setSeason_valid ht ho hz (by omega), seasonSet_summer hs, if_pos k]
      rfl
    · rw [setSeason_valid ht ho hz (by omega), seasonSet_summer hs, if_neg (by omega), if_pos k]
      rfl
    · rw [setSeason_valid ht ho hz (by omega), seasonSet_summer hs, if_neg (by omega), if_neg (by omega)]
      rfl
    · rw [setSeason_valid ht ho hz k, seasonSet_winter hs hd]
      rfl
    · rw [setSeason_valid ht ho hz (by omega), seasonSet_drain hs hd, if_pos k]
      rfl
    · rw [setSeason_valid ht ho hz (by omega), seasonSet_drain hs hd, if_neg (by omega), if_pos k]
      rfl
    · rw [setSeason_valid ht ho hz (by omega), seasonSet_drain hs hd, if_neg (by omega), if_neg (by omega)]
      rfl
    · rw [setSeason_valid ht ho hz k, seasonSet_other hs hd]
      rfl
  case release =>
    obtain ⟨good, bad⟩ := resetRelease_held (v := v) (h := h) (c := c) (st := st) hs hr ht
    exact ⟨fun k => good (conditionsGood_iff.mpr k), fun k => bad (conditionsGood_not k)⟩
  case test =>
    rw [beginSpring_testMode h]
    exact ⟨rfl, rfl⟩
  case spring =>
    obtain ⟨h1, h2, h3, h4, -, -⟩ := beginSpring_begins h
    exact ⟨h1, h2, h3, h4.trans h3⟩

end Sys2Proof.Machine

/-! ### Proofs: partitions, fences, joining, leaving and replica sets (O45) -/

namespace Sys2Proof.Machine

section
variable {m : Mbx} {tag : Word} {f : Flight} {s : State}

/-! #### PARTITION_SET (R426) -/

/-- The partition and the proposed peers are set, each unreleased record goes to the new ones, and the peers settle. -/
def State.repartitioned (part : Nat) (ps : List Nat) (f : Flight) (s : State) : State :=
  let u : State := { s with comp.partition := part, comp.newPeers := some ps }
  (u.unreleased.foldl (fun (u : State) o => u.shipRecord (ps.filter fun p => !s.comp.peers.contains p) o.1 o.2) u).settlePeers.answer f .done []

/-- The fields of a PARTITION_SET. -/
def State.partitionFields (a : PeerAnswer) (f : Flight) (s : State) : List (Nat × Bool) :=
  [(0, decide (field f.plain 0 2 ≤ 4095)), (2, decide (field f.plain 2 1 ≤ 2) && (field f.plain 0 2 != 0 || field f.plain 2 1 == 0)),
    (3, zeroField f.plain 3 1),
    (4, if field f.plain 2 1 = 0 then field f.plain 4 2 == 0 else field f.plain 4 2 != s.nodeId && a != .outside false),
    (6, if field f.plain 2 1 < 2 then field f.plain 6 2 == 0
      else field f.plain 6 2 != s.nodeId && field f.plain 6 2 != field f.plain 4 2 && a != .outside true)]

theorem partitionSet_row (a : PeerAnswer) (ht : s.turn 0x6020 m tag f) (ho : f.opens 8 8) (hf : fields (s.partitionFields a f) = .ok ()) :
    exec (.partitionSet m tag a) s = .next (s.outcome f (
      need (field f.plain 0 2 == s.comp.partition || s.comp.compositions.isEmpty) (wrongStateAt 0x20) >>= fun _ =>
      need (field f.plain 2 1 == 0 || a != .full) (noResources 2) >>= fun _ =>
      .ok (s.repartitioned (field f.plain 0 2) ([field f.plain 4 2, field f.plain 6 2].take (field f.plain 2 1)) f))) := by
  refine congrArg Host.Outcome.next ((start_outcome ht).trans (congrArg (s.outcome f) ?_))
  rw [opening_ok ho, ok_bind]
  exact congrArg (· >>= _) hf

theorem partitionFields_ok {a : PeerAnswer} (h1 : field f.plain 0 2 ≤ 4095) (h2 : field f.plain 2 1 ≤ 2) (h3 : field f.plain 0 2 = 0 → field f.plain 2 1 = 0)
    (hz : zeroField f.plain 3 1 = true) (h4 : field f.plain 2 1 = 0 → field f.plain 4 2 = 0)
    (h5 : field f.plain 2 1 ≠ 0 → field f.plain 4 2 ≠ s.nodeId ∧ a ≠ .outside false) (h6 : field f.plain 2 1 < 2 → field f.plain 6 2 = 0)
    (h7 : field f.plain 2 1 = 2 → field f.plain 6 2 ≠ s.nodeId ∧ field f.plain 6 2 ≠ field f.plain 4 2 ∧ a ≠ .outside true) :
    fields (s.partitionFields a f) = .ok () := by
  refine fields_all ?_
  simp only [State.partitionFields, List.forall_mem_cons, List.not_mem_nil, false_imp_iff, implies_true, and_true, decide_eq_true_eq, Bool.and_eq_true,
    Bool.or_eq_true, bne_iff_ne, beq_iff_eq]
  refine ⟨h1, ⟨h2, ?_⟩, hz, ?_, ?_⟩
  · by_cases e : field f.plain 0 2 = 0
    · exact .inr (h3 e)
    · exact .inl e
  · split
    · next e => simpa using h4 e
    · next e => simpa using h5 e
  · split
    · next e => simpa using h6 e
    · next e => simpa [and_assoc] using h7 (by omega)

theorem partitionSet_bound (a : PeerAnswer) (ht : s.turn 0x6020 m tag f) (ho : f.opens 8 8) (hf : fields (s.partitionFields a f) = .ok ())
    (hp : field f.plain 0 2 ≠ s.comp.partition) (hc : s.comp.compositions ≠ []) :
    exec (.partitionSet m tag a) s = .next (s.answerDetail f (wrongStateAt 0x20)) := by
  rw [partitionSet_row a ht ho hf, need_error (by simp [hp, hc])]
  rfl

theorem partitionSet_free (a : PeerAnswer) (ht : s.turn 0x6020 m tag f) (ho : f.opens 8 8) (hf : fields (s.partitionFields a f) = .ok ())
    (h : field f.plain 0 2 = s.comp.partition ∨ s.comp.compositions = []) : exec (.partitionSet m tag a) s = .next (s.outcome f (
      need (field f.plain 2 1 == 0 || a != .full) (noResources 2) >>= fun _ =>
      .ok (s.repartitioned (field f.plain 0 2) ([field f.plain 4 2, field f.plain 6 2].take (field f.plain 2 1)) f))) := by
  rw [partitionSet_row a ht ho hf, need_ok (by simpa using h), ok_bind]

theorem settlePeers_some {ps : List Nat} (h : s.comp.newPeers = some ps) : s.settlePeers =
    if s.unreleased.all fun o => ps.all o.2.confirmed.contains then { s with comp.peers := ps, comp.newPeers := none } else s := by
  rw [State.settlePeers, h]

theorem settlePeers_confirmed {ps : List Nat} (h : s.comp.newPeers = some ps) (k : ∀ o ∈ s.unreleased, ∀ p ∈ ps, p ∈ o.2.confirmed) :
    s.settlePeers = { s with comp.peers := ps, comp.newPeers := none } := by
  rw [settlePeers_some h, if_pos (by simpa [List.all_eq_true] using k)]

theorem settlePeers_unconfirmed {ps : List Nat} (h : s.comp.newPeers = some ps) {o : Nat × Operation} (ho : o ∈ s.unreleased) {p : Nat} (hp : p ∈ ps)
    (k : p ∉ o.2.confirmed) : s.settlePeers = s := by
  rw [settlePeers_some h, if_neg]
  simp only [List.all_eq_true, List.contains_iff_mem]
  exact fun all => k (all o ho p hp)

/-! #### FENCE_SET (R432–R434) -/

/-- The state once a node is fenced. -/
def State.fencedSet (n : Nat) (elec : Bool) (s : State) : State :=
  let v := (s.tellFence n (flag elec)).logKind 7 n
  { v with
    comp.fences := if v.comp.fences.contains n then v.comp.fences else n :: v.comp.fences
    comp.electrical := if elec && !v.comp.electrical.contains n then n :: v.comp.electrical else v.comp.electrical }

/-- What the fence of a node sets going: its losses, and its ports. -/
def State.fenceApplied (n : Nat) (elec : Bool) (s : State) : State :=
  let w := if n == s.nodeId then s else s.treatLost n
  if elec then w.idlePorts n else w

/-- The state once the fence of a node is lifted. -/
def State.fenceLifted (n : Nat) (s : State) : State :=
  ((({ s with
    comp.fences := s.comp.fences.filter (· != n), comp.electrical := s.comp.electrical.filter (· != n), comp.told := s.comp.told.filter (· != n)
    fabric.ports := s.fabric.ports.map (unidle n) } : State).tellFence n 2).logKind 7 n)

/-- FENCE_SET by its operation. -/
def State.fenceSet (f : Flight) (s : State) : State :=
  if field f.plain 0 1 = 1 then (s.fencedSet (field f.plain 4 2) (bit (field f.plain 1 1) 0)).fenceApplied (field f.plain 4 2) (bit (field f.plain 1 1) 0)
  else if field f.plain 0 1 = 3 then s.fenceLifted (field f.plain 4 2)
  else { s with comp.records := s.comp.records.filter (·.source != field f.plain 4 2) }

/-- The answer of a FENCE_SET: how many fences there are. -/
def State.fenceAnswered (f : Flight) (s : State) : State := s.answer f .done (leBytes 4 s.comp.fences.length ++ zeros 4)

theorem fenceSet_row (ht : s.turn 0x6021 m tag f) (ho : f.opens 12 12) : exec (.fenceSet m tag) s = .next (s.outcome f (
    fields [(0, field f.plain 0 1 == 1 || field f.plain 0 1 == 3 || field f.plain 0 1 == 4), (1, decide (field f.plain 1 1 < 2)), (2, zeroField f.plain 2 2),
      (6, zeroField f.plain 6 6)] >>= fun _ => .ok ((s.fenceSet f).fenceAnswered f))) := by
  refine congrArg Host.Outcome.next ((start_outcome ht).trans (congrArg (s.outcome f) ?_))
  rw [opening_ok ho, ok_bind]
  rfl

theorem fenceSet_badOp (ht : s.turn 0x6021 m tag f) (ho : f.opens 12 12) (h : field f.plain 0 1 = 0 ∨ field f.plain 0 1 = 2 ∨ 5 ≤ field f.plain 0 1) :
    exec (.fenceSet m tag) s = .next (s.answerDetail f (bad 0x20)) := by
  have e : (field f.plain 0 1 == 1 || field f.plain 0 1 == 3 || field f.plain 0 1 == 4) = false := by
    simp only [Bool.or_eq_false_iff, beq_eq_false_iff_ne]
    omega
  rw [fenceSet_row ht ho, e]
  rfl

theorem fenceSet_valid (ht : s.turn 0x6021 m tag f) (ho : f.opens 12 12) (h1 : field f.plain 1 1 < 2) (h2 : zeroField f.plain 2 2 = true)
    (h6 : zeroField f.plain 6 6 = true) (h : field f.plain 0 1 = 1 ∨ field f.plain 0 1 = 3 ∨ field f.plain 0 1 = 4) :
    exec (.fenceSet m tag) s = .next ((s.fenceSet f).fenceAnswered f) := by
  rw [fenceSet_row ht ho, fields_all (by
    simp only [List.forall_mem_cons, List.not_mem_nil, false_imp_iff, implies_true, and_true, decide_eq_true_eq, Bool.or_eq_true, beq_iff_eq]
    exact ⟨by omega, h1, h2, h6⟩), ok_bind]
  rfl

theorem fenceSet_fences (h : field f.plain 0 1 = 1) : s.fenceSet f =
    (s.fencedSet (field f.plain 4 2) (bit (field f.plain 1 1) 0)).fenceApplied (field f.plain 4 2) (bit (field f.plain 1 1) 0) := if_pos h

theorem fenceSet_lifts (h : field f.plain 0 1 = 3) : s.fenceSet f = s.fenceLifted (field f.plain 4 2) :=
  (if_neg (by omega)).trans (if_pos h)

theorem fenceSet_drops (h : field f.plain 0 1 = 4) : s.fenceSet f =
    { s with comp.records := s.comp.records.filter (·.source != field f.plain 4 2) } := (if_neg (by omega)).trans (if_neg (by omega))

theorem mem_fencedSet (n : Nat) (elec : Bool) : n ∈ (s.fencedSet n elec).comp.fences := by
  show n ∈ if ((s.tellFence n (flag elec)).logKind 7 n).comp.fences.contains n then _ else _
  split
  · next h => exact List.contains_iff_mem.mp h
  · exact List.mem_cons_self

/-! #### COMPOSITION_JOIN (R427, Table 17-9) -/

theorem compositionJoin_fenced (out : Option Half) (ht : s.turn 0x6030 m tag f) (h : s.selfFenced = true) :
    exec (.compositionJoin m tag out) s = .next (s.answerDetail f fencedDetail) := by
  refine congrArg Host.Outcome.next (start_error ht ?_)
  rw [need_error (by rw [h]; rfl)]
  rfl

/-- The composition that a JOIN describes. -/
def State.joinComposition (ns : List Nat) (f : Flight) (s : State) : Composition :=
  { id := field f.plain 0 4, version := field f.plain 4 4, members := ns, digest := Config.sha384 f.plain
    joined := s.nodeId :: (s.comp.earlyJoins.filter fun j =>
      j.1 == field f.plain 0 4 && j.2.1 == field f.plain 4 4 && j.2.2.2 == Config.sha384 f.plain).map (·.2.2.1)
    coordinator := ns.headD 0, coordHeard := s.clock
    waiting := ((s.comp.compositions.find (field f.plain 0 4)).elim [] (·.waiting)) ++ [(f.mbx, f.tag, s.clock)] }

/-- The state in which the composition is there, and the JOIN waits. -/
def State.joinBegun (ns : List Nat) (f : Flight) (s : State) : State :=
  let v := if (s.comp.compositions.find (field f.plain 0 4)).isSome then s.endMembership (field f.plain 0 4) else s
  ({ v with
    comp.compositions := v.comp.compositions.put (field f.plain 0 4) (s.joinComposition ns f)
    comp.earlyJoins := v.comp.earlyJoins.filter fun j => !(j.1 == field f.plain 0 4 && decide (j.2.1 ≤ field f.plain 4 4)) } : State).setWork f .eventWait

/-- A JOIN whose list has been judged. -/
def State.joinJudged (ns : List Nat) (fault : Option Nat) (f : Flight) (s : State) : Except Detail State :=
  match fault with
  | some o => .error (bad o)
  | none =>
    need (zeroField f.plain (16 + 2 * field f.plain 8 4) (f.plain.length - 16 - 2 * field f.plain 8 4)) (bad (0x30 + 2 * field f.plain 8 4)) >>= fun _ =>
    need ((s.comp.compositions.find (field f.plain 0 4)).all fun k => decide (k.version < field f.plain 4 4)) (wrongStateAt 0x24) >>= fun _ =>
    need ((s.comp.compositions.find (field f.plain 0 4)).isSome || decide (s.comp.compositions.length < 256)) (noResources 256) >>= fun _ =>
    .ok (if (s.joinComposition ns f).coordinator == (s.joinBegun ns f).nodeId then (s.joinBegun ns f).tryActivate (field f.plain 0 4)
      else (s.joinBegun ns f).compPost (s.joinComposition ns f).coordinator 1 (s.joinComposition ns f) 0 0 (Config.sha384 f.plain))

/-- The list of nodes of a JOIN. -/
def joinNodes (f : Flight) : List Nat := (records 2 (field f.plain 8 4) (f.plain.drop 16)).map leNat

theorem compositionJoin_row (out : Option Half) (ht : s.turn 0x6030 m tag f) (hs : s.selfFenced = false) (ho : f.opens 24 16777216)
    (hf : fields [(0, field f.plain 0 4 != 0), (8, 1 ≤ field f.plain 8 4 && field f.plain 8 4 ≤ 65536), (12, zeroField f.plain 12 4)] = .ok ())
    (hl : (f.plain.length == 16 + (2 * field f.plain 8 4 + 7) / 8 * 8) = true) (hr : (s.fabric.route.isSome && s.comp.partition != 0) = true) :
    exec (.compositionJoin m tag out) s =
      .next (s.outcome f (s.joinJudged (joinNodes f) (joinFault s.nodeId (joinNodes f) (out.map (·.toNat))) f)) := by
  refine congrArg Host.Outcome.next ((start_outcome ht).trans (congrArg (s.outcome f) ?_))
  rw [need_ok (by rw [hs]; rfl), ok_bind, opening_ok ho, ok_bind]
  dsimp only
  rw [hf, ok_bind, need_ok hl, ok_bind, need_ok hr, ok_bind]
  unfold State.joinJudged joinNodes
  cases joinFault s.nodeId ((records 2 (field f.plain 8 4) (f.plain.drop 16)).map leNat) (out.map (·.toNat)) <;> rfl

theorem compositionJoin_valid (out : Option Half) (ht : s.turn 0x6030 m tag f) (hs : s.selfFenced = false) (ho : f.opens 24 16777216)
    (hi : field f.plain 0 4 ≠ 0) (h1 : 1 ≤ field f.plain 8 4) (h2 : field f.plain 8 4 ≤ 65536) (hz : zeroField f.plain 12 4 = true)
    (hl : f.plain.length = 16 + (2 * field f.plain 8 4 + 7) / 8 * 8) (hr : s.fabric.route ≠ none) (hp : s.comp.partition ≠ 0) :
    exec (.compositionJoin m tag out) s =
      .next (s.outcome f (s.joinJudged (joinNodes f) (joinFault s.nodeId (joinNodes f) (out.map (·.toNat))) f)) := by
  refine compositionJoin_row out ht hs ho (fields_all ?_) (beq_iff_eq.mpr hl) ?_
  · simp only [List.forall_mem_cons, List.not_mem_nil, false_imp_iff, implies_true, and_true, decide_eq_true_eq, Bool.and_eq_true, bne_iff_ne]
    exact ⟨hi, ⟨h1, h2⟩, hz⟩
  · rw [Option.isSome_iff_ne_none.mpr hr, bne_iff_ne.mpr hp]
    rfl

section
variable {ns : List Nat} (hz : zeroField f.plain (16 + 2 * field f.plain 8 4) (f.plain.length - 16 - 2 * field f.plain 8 4) = true)
include hz

theorem joinJudged_old {k : Composition} (hk : s.comp.compositions.find (field f.plain 0 4) = some k) (hv : field f.plain 4 4 ≤ k.version) :
    s.joinJudged ns none f = .error (wrongStateAt 0x24) := by
  rw [State.joinJudged, need_ok hz, ok_bind, need_error (by rw [hk]; exact decide_eq_false (by omega)), error_bind]

theorem joinJudged_full (hk : s.comp.compositions.find (field f.plain 0 4) = none) (hn : 256 ≤ s.comp.compositions.length) :
    s.joinJudged ns none f = .error (noResources 256) := by
  rw [State.joinJudged, need_ok hz, ok_bind, need_ok (by rw [hk]; rfl), ok_bind, need_error (by rw [hk]; exact decide_eq_false (by omega)), error_bind]

theorem joinJudged_begins (hv : ∀ k, s.comp.compositions.find (field f.plain 0 4) = some k → k.version < field f.plain 4 4)
    (hn : s.comp.compositions.find (field f.plain 0 4) ≠ none ∨ s.comp.compositions.length < 256) : s.joinJudged ns none f =
      .ok (if (s.joinComposition ns f).coordinator == (s.joinBegun ns f).nodeId then (s.joinBegun ns f).tryActivate (field f.plain 0 4)
        else (s.joinBegun ns f).compPost (s.joinComposition ns f).coordinator 1 (s.joinComposition ns f) 0 0 (Config.sha384 f.plain)) := by
  rw [State.joinJudged, need_ok hz, ok_bind, need_ok ?_, ok_bind, need_ok ?_, ok_bind]
  · rcases hn with hn | hn
    · rw [Option.isSome_iff_ne_none.mpr hn, Bool.true_or]
    · rw [decide_eq_true hn, Bool.or_true]
  · cases e : s.comp.compositions.find (field f.plain 0 4) with
    | none => rfl
    | some k => exact decide_eq_true (hv k e)

end

/-! #### COMPOSITION_JOIN_TIMEOUT (R427) -/

/-- A wait of a JOIN of this mailbox and tag that is over. -/
def State.joinOver (m : Mbx) (tag : Word) (s : State) (w : Nat × Word × Nat) : Bool :=
  w.1 == m.key && w.2.1 == tag && decide (w.2.2 + 60000000000 ≤ s.clock)

theorem compositionJoinTimeout_row : exec (.compositionJoinTimeout m tag) s = .next (
    match s.comp.compositions.vals.find? fun k => k.waiting.any (s.joinOver m tag), s.flight m.key tag with
    | some k, some f => (s.updComp k.id fun k => { k with waiting := k.waiting.filter fun w => !s.joinOver m tag w }).answer f .deadlineExceeded []
    | _, _ => s) := rfl

theorem compositionJoinTimeout_early (h : ∀ k ∈ s.comp.compositions.vals, ∀ w ∈ k.waiting, s.clock < w.2.2 + 60000000000) :
    exec (.compositionJoinTimeout m tag) s = .next s := by
  have e : (s.comp.compositions.vals.find? fun k => k.waiting.any (s.joinOver m tag)) = none := by
    rw [List.find?_eq_none]
    intro k hk
    rw [List.any_eq_true]
    rintro ⟨w, hw, ho⟩
    rw [State.joinOver, decide_eq_false (Nat.not_le.mpr (h k hk w hw)), Bool.and_false] at ho
    exact Bool.false_ne_true ho
  rw [compositionJoinTimeout_row, e]

theorem compositionJoinTimeout_over {k : Composition} (hk : (s.comp.compositions.vals.find? fun k => k.waiting.any (s.joinOver m tag)) = some k)
    (hf : s.flight m.key tag = some f) : exec (.compositionJoinTimeout m tag) s =
      .next ((s.updComp k.id fun k => { k with waiting := k.waiting.filter fun w => !s.joinOver m tag w }).answer f .deadlineExceeded []) := by
  rw [compositionJoinTimeout_row, hk, hf]

theorem compositionJoinTimeout_gone (hf : s.flight m.key tag = none) : exec (.compositionJoinTimeout m tag) s = .next s := by
  rw [compositionJoinTimeout_row, hf]
  split
  · next h => cases h
  · rfl

/-! #### COMPOSITION_LEAVE (R431) -/

theorem compositionLeave_flight (hf : s.flight m.key tag = some f) : exec (.compositionLeave m tag) s = .next (
    if f.opcode.toNat == 0x6031 && f.work == .eventWait then s.settleLeave (field f.plain 0 4)
    else s.start 0x6031 m tag fun f s => do
      opening f 8 8
      fields [(4, zeroField f.plain 4 4)]
      match s.comp.compositions.find (field f.plain 0 4) with
      | none => .error (bad 0x20)
      | some k => do
        need (k.active && k.leaving.isNone) (wrongStateAt 0x20)
        .ok (((s.beginLeave k.id (some (f.mbx, f.tag))).setWork f .eventWait).settleLeave k.id)) := by
  show execCompositionLeave m tag s = _
  rw [execCompositionLeave, hf] <;> rfl

theorem compositionLeave_goesOn (hf : s.flight m.key tag = some f) (ho : f.opcode.toNat = 0x6031) (hw : f.work = .eventWait) :
    exec (.compositionLeave m tag) s = .next (s.settleLeave (field f.plain 0 4)) := by
  rw [compositionLeave_flight hf, if_pos (by rw [ho, hw]; rfl)]

theorem compositionLeave_row (ht : s.turn 0x6031 m tag f) (ho : f.opens 8 8) (hz : zeroField f.plain 4 4 = true) :
    exec (.compositionLeave m tag) s = .next (s.outcome f (match s.comp.compositions.find (field f.plain 0 4) with
      | none => .error (bad 0x20)
      | some k => need (k.active && k.leaving.isNone) (wrongStateAt 0x20) >>= fun _ =>
        .ok (((s.beginLeave k.id (some (f.mbx, f.tag))).setWork f .eventWait).settleLeave k.id))) := by
  have ⟨hf, _, hw, _⟩ := ht
  rw [compositionLeave_flight hf, if_neg (by rw [hw, Bool.and_eq_true]; exact fun h => nomatch h.2), start_outcome ht]
  refine congrArg Host.Outcome.next (congrArg (s.outcome f) ?_)
  rw [opening_ok ho, ok_bind, hz, fields_cons, fields_nil, ok_bind]

theorem compositionLeave_unknown (ht : s.turn 0x6031 m tag f) (ho : f.opens 8 8) (hz : zeroField f.plain 4 4 = true)
    (hk : s.comp.compositions.find (field f.plain 0 4) = none) : exec (.compositionLeave m tag) s = .next (s.answerDetail f (bad 0x20)) := by
  rw [compositionLeave_row ht ho hz, hk]
  rfl

theorem compositionLeave_known (ht : s.turn 0x6031 m tag f) (ho : f.opens 8 8) (hz : zeroField f.plain 4 4 = true) {k : Composition}
    (hk : s.comp.compositions.find (field f.plain 0 4) = some k) :
    ((k.active = false ∨ k.leaving ≠ none) → exec (.compositionLeave m tag) s = .next (s.answerDetail f (wrongStateAt 0x20))) ∧
    (k.active = true → k.leaving = none → exec (.compositionLeave m tag) s =
      .next (((s.beginLeave k.id (some (f.mbx, f.tag))).setWork f .eventWait).settleLeave k.id)) := by
  rw [compositionLeave_row ht ho hz, hk]
  refine ⟨fun h => ?_, fun ha hl => ?_⟩
  · dsimp only
    rw [need_error]
    · rfl
    · rcases h with h | h
      · rw [h, Bool.false_and]
      · rw [Option.isNone_eq_false_iff.mpr (Option.isSome_iff_ne_none.mpr h), Bool.and_false]
  · dsimp only
    rw [need_ok (by rw [ha, hl]; rfl)]
    rfl

/-- Sub-queries of a composition are served here, or a step of one of its tables closes. -/
def State.leaveBusy (id : Nat) (s : State) : Bool :=
  (s.comp.served.any fun x => x.run.composition == id && x.root.isNone) ||
    s.tables.tables.vals.any fun t => t.desc.composition == id && !t.broken && t.closing

/-- The members lost once this module has left. -/
def State.leaversLost (k : Composition) (s : State) : List Nat := sortBy (s.nodeId :: k.lost) fun a b => decide (a ≤ b)

theorem settleLeave_some {id : Nat} {k : Composition} (hk : s.comp.compositions.find id = some k) : s.settleLeave id =
    if k.leaving.isNone || k.leaveSent || s.leaveBusy id then s
    else if k.coordinator == s.nodeId then
      (s.compAll 3 { k with version := k.version + 1, lost := s.leaversLost k } 0 (s.leaversLost k).length
        (padTo 8 ((s.leaversLost k).flatMap (leBytes 2)))).left { k with version := k.version + 1, lost := s.leaversLost k }
    else (s.updComp id fun k => { k with leaveSent := true }).compPost k.coordinator 6 k 0 0 [] := by
  rw [State.settleLeave, hk]
  rfl

theorem settleLeave_waits {id : Nat} {k : Composition} (hk : s.comp.compositions.find id = some k)
    (h : k.leaving = none ∨ k.leaveSent = true ∨ s.leaveBusy id = true) : s.settleLeave id = s := by
  rw [settleLeave_some hk, if_pos]
  rcases h with h | h | h <;> simp [h]

theorem settleLeave_leaves {id : Nat} {k : Composition} (hk : s.comp.compositions.find id = some k) (h1 : k.leaving ≠ none) (h2 : k.leaveSent = false)
    (h3 : s.leaveBusy id = false) :
    (k.coordinator ≠ s.nodeId → s.settleLeave id = (s.updComp id fun k => { k with leaveSent := true }).compPost k.coordinator 6 k 0 0 []) ∧
    (k.coordinator = s.nodeId → s.settleLeave id = (s.compAll 3 { k with version := k.version + 1, lost := s.leaversLost k } 0 (s.leaversLost k).length
        (padTo 8 ((s.leaversLost k).flatMap (leBytes 2)))).left { k with version := k.version + 1, lost := s.leaversLost k }) := by
  rw [settleLeave_some hk, if_neg (by simp [h1, h2, h3])]
  exact ⟨fun h => if_neg (mt beq_iff_eq.mp h), fun h => if_pos (beq_iff_eq.mpr h)⟩

/-! #### REPLICA_SET (R437) -/

theorem replicaSet_fenced (a : ReplicaAnswer) (ht : s.turn 0x6040 m tag f)
    (h : s.selfFenced = true ∨ s.unfenced (field f.plain 4 4) = .error fencedDetail) :
    exec (.replicaSet m tag a) s = .next (s.answerDetail f fencedDetail) := by
  refine congrArg Host.Outcome.next (start_error ht ?_)
  cases hs : s.selfFenced with
  | true =>
    rw [need_error (by rfl)]
    rfl
  | false =>
    rw [need_ok (by rfl), ok_bind, h.resolve_left (by rw [hs]; exact Bool.false_ne_true)]
    rfl

/-- The nodes that a REPLICA_SET names. -/
def replicaNodes (f : Flight) : List Nat := (List.range (field f.plain 8 1)).map fun i => field f.plain (12 + 2 * i) 2

/-- A node that a REPLICA_SET names can hold a replica. -/
def State.replicaNode (k : Composition) (ns : List Nat) (s : State) (i : Nat) : Bool :=
  k.live.contains (ns.getD i 0) && ns.getD i 0 != s.nodeId && !(ns.take i).contains (ns.getD i 0)

/-- The replicas of a collection that a REPLICA_SET keeps. -/
def Collection.keptReplicas (ns : List Nat) (c : Collection) : List Replica := c.replicas.filter fun r => ns.contains r.node

/-- The nodes to which a copy begins. -/
def Collection.freshReplicas (ns : List Nat) (c : Collection) : List Nat := ns.filter fun x => !(c.keptReplicas ns).any (·.node == x)

/-- The collection with the named replicas. -/
def Collection.withReplicas (k : Composition) (ns : List Nat) (c : Collection) : Collection :=
  { c with
    composition := k.id
    replicas := ns.map fun x => ((c.keptReplicas ns).find? (·.node == x)).getD { node := x, state := 0, c := 0 } }

/-- The replicas are recorded, the copies begun, and the command answered. -/
def State.replicasSet (k : Composition) (c : Collection) (f : Flight) (s : State) : State :=
  ((((c.withReplicas k (replicaNodes f)).replicas.filter fun r => (c.freshReplicas (replicaNodes f)).contains r.node).foldl (fun s r =>
    (s.copyTo (c.withReplicas k (replicaNodes f)) r.node).1.pumpReplica (c.withReplicas k (replicaNodes f))
      { r with sent := (c.withReplicas k (replicaNodes f)).sealedCsn }) (s.setColl (c.withReplicas k (replicaNodes f)))).answer f .done
    ((c.withReplicas k (replicaNodes f)).replicas.flatMap replicaEntry))

/-- A REPLICA_SET goes by what the nodes say, where a copy begins at all. -/
def State.replicasJudged (k : Composition) (c : Collection) (a : ReplicaAnswer) (f : Flight) (s : State) : Except Detail State :=
  match c.freshReplicas (replicaNodes f), a with
  | _ :: _, .lacksKey second => .error (keyUnavailable (0x2C + 2 * flag second))
  | _ :: _, .noRoom limit => .error (noResources limit.toNat)
  | _, _ => .ok (s.replicasSet k c f)

theorem replicaSet_row (a : ReplicaAnswer) {c : Collection} {k : Composition} (ht : s.turn 0x6040 m tag f) (hs : s.selfFenced = false)
    (hu : s.unfenced (field f.plain 4 4) = .ok ()) (ho : f.opens 16 16) (hn : field f.plain 8 1 ≤ 2) (h9 : zeroField f.plain 9 3 = true)
    (h12 : field f.plain 8 1 ≠ 0 ∨ zeroField f.plain 12 2 = true) (h14 : field f.plain 8 1 = 2 ∨ zeroField f.plain 14 2 = true)
    (hc : s.usableColl 0x20 (field f.plain 0 4) f = .ok c) (hk : s.comp.compositions.find (field f.plain 4 4) = some k) :
    exec (.replicaSet m tag a) s = .next (s.outcome f (need k.active (wrongStateAt 0x24) >>= fun _ =>
      fields [(12, field f.plain 8 1 == 0 || s.replicaNode k (replicaNodes f) 0), (14, field f.plain 8 1 != 2 || s.replicaNode k (replicaNodes f) 1)] >>=
        fun _ => s.replicasJudged k c a f)) := by
  refine congrArg Host.Outcome.next ((start_outcome ht).trans (congrArg (s.outcome f) ?_))
  rw [need_ok (by rw [hs]; rfl), ok_bind, hu, ok_bind, opening_ok ho, ok_bind]
  dsimp only
  rw [fields_all (by
    simp only [List.forall_mem_cons, List.not_mem_nil, false_imp_iff, implies_true, and_true, decide_eq_true_eq, Bool.or_eq_true, bne_iff_ne, beq_iff_eq]
    exact ⟨hn, h9, h12, h14⟩), ok_bind, hc, ok_bind, hk]
  rfl

theorem replicaSet_valid (a : ReplicaAnswer) {c : Collection} {k : Composition} (ht : s.turn 0x6040 m tag f) (hs : s.selfFenced = false)
    (hu : s.unfenced (field f.plain 4 4) = .ok ()) (ho : f.opens 16 16) (hn : field f.plain 8 1 ≤ 2) (h9 : zeroField f.plain 9 3 = true)
    (h12 : field f.plain 8 1 ≠ 0 ∨ zeroField f.plain 12 2 = true) (h14 : field f.plain 8 1 = 2 ∨ zeroField f.plain 14 2 = true)
    (hc : s.usableColl 0x20 (field f.plain 0 4) f = .ok c) (hk : s.comp.compositions.find (field f.plain 4 4) = some k) (ha : k.active = true)
    (hg : ∀ i, i < field f.plain 8 1 → (replicaNodes f).getD i 0 ∈ k.live ∧ (replicaNodes f).getD i 0 ≠ s.nodeId ∧
      (replicaNodes f).getD i 0 ∉ (replicaNodes f).take i) :
    exec (.replicaSet m tag a) s = .next (s.outcome f (s.replicasJudged k c a f)) := by
  have node (i : Nat) (hi : i < field f.plain 8 1) : s.replicaNode k (replicaNodes f) i = true := by
    obtain ⟨g1, g2, g3⟩ := hg i hi
    have g4 : (!((replicaNodes f).take i).contains ((replicaNodes f).getD i 0)) = true := by simpa using g3
    rw [State.replicaNode, List.contains_iff_mem.mpr g1, bne_iff_ne.mpr g2, g4]
    rfl
  rw [replicaSet_row a ht hs hu ho hn h9 h12 h14 hc hk, need_ok ha, ok_bind, fields_all, ok_bind]
  simp only [List.forall_mem_cons, List.not_mem_nil, false_imp_iff, implies_true, and_true, Bool.or_eq_true, bne_iff_ne, beq_iff_eq]
  refine ⟨?_, ?_⟩
  · by_cases e : field f.plain 8 1 = 0
    · exact .inl e
    · exact .inr (node 0 (by omega))
  · by_cases e : field f.plain 8 1 = 2
    · exact .inr (node 1 (by omega))
    · exact .inl e

theorem replicasJudged_lacksKey {c : Collection} {k : Composition} (h : c.freshReplicas (replicaNodes f) ≠ []) (b : Bool) :
    s.replicasJudged k c (.lacksKey b) f = .error (keyUnavailable (0x2C + 2 * flag b)) := by
  obtain ⟨x, l, e⟩ := List.exists_cons_of_ne_nil h
  unfold State.replicasJudged
  rw [e]

theorem replicasJudged_noRoom {c : Collection} {k : Composition} (h : c.freshReplicas (replicaNodes f) ≠ []) (l : Word) :
    s.replicasJudged k c (.noRoom l) f = .error (noResources l.toNat) := by
  obtain ⟨x, xs, e⟩ := List.exists_cons_of_ne_nil h
  unfold State.replicasJudged
  rw [e]

theorem replicasJudged_ok {c : Collection} {k : Composition} {a : ReplicaAnswer} (h : c.freshReplicas (replicaNodes f) = [] ∨ a = .accepted) :
    s.replicasJudged k c a f = .ok (s.replicasSet k c f) := by
  unfold State.replicasJudged
  split
  · next e => exact h.elim (fun h => absurd (e.symm.trans h) (List.cons_ne_nil _ _)) nofun
  · next e => exact h.elim (fun h => absurd (e.symm.trans h) (List.cons_ne_nil _ _)) nofun
  · rfl

end

/-- Settles O45: each command's fields hold, and it then goes by the state of the composition, the peers and the replicas. -/
theorem memberships : Obligations.Memberships := by
  unfold Obligations.Memberships
  intro m tag f s
  refine ⟨fun a part n p0 p1 ht ho e1 e2 e3 e4 h1 h2 h3 hz h4 h5 h6 h7 => ?partition,
    fun ps hp => ⟨settlePeers_confirmed hp, fun o ho p hpm hn => settlePeers_unconfirmed hp ho hpm hn⟩,
    fun op n ht ho e1 e2 h1 h2 h6 => ?fence, compositionJoin_fenced,
    fun out id n ht hs ho e1 e2 hi h1 h2 hz hl hr hp => ?join, compositionJoinTimeout_early, fun k t hk hf e => ?timeout, compositionJoinTimeout_gone,
    fun ht ho hz => ⟨compositionLeave_unknown ht ho hz, fun k => compositionLeave_known ht ho hz⟩, compositionLeave_goesOn,
    fun id k hk => ⟨settleLeave_waits hk, settleLeave_leaves hk⟩, replicaSet_fenced,
    fun a n c k ht hs hu ho e hn h9 h12 h14 hc hk => ?replica⟩
  case partition =>
    subst e1 e2 e3 e4
    have hf := partitionFields_ok h1 h2 h3 hz h4 h5 h6 h7
    refine ⟨partitionSet_bound a ht ho hf, fun h => ⟨fun hn ha => ?_, fun hn => ?_⟩⟩
    · rw [partitionSet_free a ht ho hf h, need_error (by simp [hn, ha])]
      rfl
    · rw [partitionSet_free a ht ho hf h, need_ok (by simpa using hn)]
      rfl
  case fence =>
    subst e1 e2
    refine ⟨fenceSet_badOp ht ho, fun h => ?_, fun h => ?_, fun h => ⟨mem_fencedSet _ _, ?_⟩⟩
    · rw [fenceSet_valid ht ho h1 h2 h6 (by omega), fenceSet_drops h]
      rfl
    · rw [fenceSet_valid ht ho h1 h2 h6 (by omega), fenceSet_lifts h]
      rfl
    · rw [fenceSet_valid ht ho h1 h2 h6 (by omega), fenceSet_fences h]
      rfl
  case join =>
    subst e1 e2
    refine ⟨fun o hj => ?_, fun hj hzz => ⟨fun k hk hv => ?_, fun hk hn => ?_, fun hv hn => ⟨fun hc => ?_, fun hc => ?_⟩⟩⟩
    · rw [compositionJoin_valid out ht hs ho hi h1 h2 hz hl hr hp, joinNodes, hj]
      rfl
    · rw [compositionJoin_valid out ht hs ho hi h1 h2 hz hl hr hp, joinNodes, hj, joinJudged_old hzz hk hv]
      rfl
    · rw [compositionJoin_valid out ht hs ho hi h1 h2 hz hl hr hp, joinNodes, hj, joinJudged_full hzz hk hn]
      rfl
    · rw [compositionJoin_valid out ht hs ho hi h1 h2 hz hl hr hp, joinNodes, hj, joinJudged_begins hzz hv hn]
      exact congrArg Host.Outcome.next (if_pos (beq_iff_eq.mpr hc))
    · rw [compositionJoin_valid out ht hs ho hi h1 h2 hz hl hr hp, joinNodes, hj, joinJudged_begins hzz hv hn]
      exact congrArg Host.Outcome.next (if_neg (mt beq_iff_eq.mp hc))
  case timeout =>
    subst e
    exact compositionJoinTimeout_over hk hf
  case replica =>
    subst e
    refine ⟨fun ha => ?_, fun ha hg => ⟨fun h b e => ?_, fun h l e => ?_, fun h => ?_⟩⟩
    · rw [replicaSet_row a ht hs hu ho hn h9 h12 h14 hc hk, need_error ha]
      rfl
    · rw [replicaSet_valid a ht hs hu ho hn h9 h12 h14 hc hk ha hg, e, replicasJudged_lacksKey h]
      rfl
    · rw [replicaSet_valid a ht hs hu ho hn h9 h12 h14 hc hk ha hg, e, replicasJudged_noRoom h]
      rfl
    · rw [replicaSet_valid a ht hs hu ho hn h9 h12 h14 hc hk ha hg, replicasJudged_ok h]
      rfl

end Sys2Proof.Machine

/-! ### Proofs: heartbeats, losses, coordinators, fences and composition messages (O46) -/

namespace Sys2Proof.Machine

section
variable {id : Word} {node : Half} {s : State} {k : Composition}

/-! #### Events of a composition that is not there -/

theorem memberEvents_unknown (r : Option Half) (h : s.comp.compositions.find id.toNat = none) :
    exec (.heartbeatTick id) s = .next s ∧ exec (.memberLost id node) s = .next s ∧ exec (.probeTimeout id node) s = .next s ∧
      exec (.coordinatorTakeover id) s = .next s ∧ exec (.selfFence id) s = .next s ∧ exec (.suspectMember id node r) s = .next s := by
  refine ⟨?_, ?_, ?_, ?_, ?_, ?_⟩
  · show execHeartbeatTick id s = _
    rw [execHeartbeatTick, h]
  · show execMemberLost id node s = _
    rw [execMemberLost, h]
  · show execProbeTimeout id node s = _
    rw [execProbeTimeout, h]
  · show execCoordinatorTakeover id s = _
    rw [execCoordinatorTakeover, h]
  · show execSelfFence id s = _
    rw [execSelfFence, h]
  · show execSuspectMember id node r s = _
    rw [execSuspectMember, h]

/-! #### HEARTBEAT_TICK (R428) -/

/-- The coordinator's heartbeat to its children, while it hears a majority. -/
def State.beatDown (k : Composition) (s : State) : State :=
  if k.majority s.nodeId s.clock then
    (k.kids s.nodeId s.nodeId).foldl (fun (u : State) n => u.post n 0x50 0 0 true (collectiveHead s.nodeId 1 3 0 k.id k.version 0)) s
  else s

/-- The members under silent children that are not heard and not probed yet. -/
def Composition.quietUnder (self now : Nat) (k : Composition) : List Nat :=
  (((k.kids self self).filter fun n => !k.recent now 10 n).flatMap fun n => (k.under self n).filter (· != n)).filter fun n =>
    !k.recent now 10 n && (k.probes.find n).isNone

/-- Each listed member is probed. -/
def State.probeEach (k : Composition) (l : List Nat) (s : State) : State :=
  l.foldl (fun (u : State) n => (u.updComp k.id fun k => { k with probes := k.probes.put n u.clock }).compPost n 4 k 0 0 []) s

/-- The report that a member sends to its parent. -/
def State.beatUp (k : Composition) (s : State) : State :=
  s.post (k.parent k.coordinator s.nodeId) 0x50 0 0 true
    (collectiveHead k.coordinator 2 3 ((k.order k.coordinator).idxOf s.nodeId) k.id k.version (k.report s.nodeId s.clock).1 ++
      leBytes 4 (k.report s.nodeId s.clock).2.length ++ zeros 4 ++ padTo 8 ((k.report s.nodeId s.clock).2.flatMap (leBytes 2)))

theorem beatDown_clock : (s.beatDown k).clock = s.clock := by
  unfold State.beatDown
  split
  · exact congrArg (·.2.1) (still_foldl _ _ (fun u n => State.post_still n 0x50 0 0 true _ u) s)
  · rfl

theorem heartbeatTick_row (h : s.comp.compositions.find id.toNat = some k) : exec (.heartbeatTick id) s = .next (
    if !k.active || !s.serving then s
    else if k.coordinator == s.nodeId then (s.beatDown k).probeEach k (k.quietUnder s.nodeId (s.beatDown k).clock) else s.beatUp k) := by
  show execHeartbeatTick id s = _
  rw [execHeartbeatTick, h]
  rfl

theorem heartbeatTick_not (h : s.comp.compositions.find id.toNat = some k) (hn : k.active = false ∨ s.serving = false) :
    exec (.heartbeatTick id) s = .next s := by
  rw [heartbeatTick_row h, if_pos]
  rcases hn with hn | hn <;> simp [hn]

theorem heartbeatTick_member (h : s.comp.compositions.find id.toNat = some k) (ha : k.active = true) (hs : s.serving = true) (hc : k.coordinator ≠ s.nodeId) :
    exec (.heartbeatTick id) s = .next (s.beatUp k) := by
  rw [heartbeatTick_row h, if_neg (by simp [ha, hs]), if_neg (mt beq_iff_eq.mp hc)]

theorem heartbeatTick_coordinator (h : s.comp.compositions.find id.toNat = some k) (ha : k.active = true) (hs : s.serving = true)
    (hc : k.coordinator = s.nodeId) : exec (.heartbeatTick id) s = .next ((s.beatDown k).probeEach k (k.quietUnder s.nodeId s.clock)) := by
  rw [heartbeatTick_row h, if_neg (by simp [ha, hs]), if_pos (beq_iff_eq.mpr hc), beatDown_clock]

/-! #### MEMBER_LOST and PROBE_TIMEOUT (R428) -/

theorem memberLost_row (h : s.comp.compositions.find id.toNat = some k) : exec (.memberLost id node) s = .next (
    if k.active && k.coordinator == s.nodeId && node.toNat != s.nodeId && k.live.contains node.toNat && (k.report s.nodeId s.clock).2.contains node.toNat then
      s.declareLost k.id node.toNat
    else s) := by
  show execMemberLost id node s = _
  rw [execMemberLost, h]

theorem memberLost_declares (h : s.comp.compositions.find id.toNat = some k) (ha : k.active = true) (hc : k.coordinator = s.nodeId)
    (hn : node.toNat ≠ s.nodeId) (hl : node.toNat ∈ k.live) (hr : node.toNat ∈ (k.report s.nodeId s.clock).2) :
    exec (.memberLost id node) s = .next (s.declareLost k.id node.toNat) := by
  rw [memberLost_row h, if_pos]
  rw [ha, beq_iff_eq.mpr hc, bne_iff_ne.mpr hn, List.contains_iff_mem.mpr hl, List.contains_iff_mem.mpr hr]
  rfl

theorem memberLost_not (h : s.comp.compositions.find id.toNat = some k) (hn : k.active = false ∨ k.coordinator ≠ s.nodeId ∨
    node.toNat ∉ (k.report s.nodeId s.clock).2 ∨ node.toNat = s.nodeId ∨ node.toNat ∉ k.live) : exec (.memberLost id node) s = .next s := by
  rw [memberLost_row h, if_neg]
  simp only [Bool.and_eq_true, beq_iff_eq, bne_iff_ne, List.contains_iff_mem]
  rintro ⟨⟨⟨⟨h1, h2⟩, h3⟩, h4⟩, h5⟩
  rcases hn with hn | hn | hn | hn | hn
  · rw [h1] at hn; cases hn
  · exact hn h2
  · exact hn h5
  · exact h3 hn
  · exact hn h4

theorem probeTimeout_row (h : s.comp.compositions.find id.toNat = some k) : exec (.probeTimeout id node) s = .next (match k.probes.find node.toNat with
    | some t => if k.coordinator == s.nodeId && decide (t + 5000000 ≤ s.clock) then s.declareLost k.id node.toNat else s
    | none => s) := by
  show execProbeTimeout id node s = _
  rw [execProbeTimeout, h] <;> rfl

theorem probeTimeout_not (h : s.comp.compositions.find id.toNat = some k) (hn : k.probes.find node.toNat = none ∨ k.coordinator ≠ s.nodeId) :
    exec (.probeTimeout id node) s = .next s := by
  rw [probeTimeout_row h]
  split
  · next t ht =>
    have hc : k.coordinator ≠ s.nodeId := hn.resolve_left (by rw [ht]; exact Option.some_ne_none t)
    rw [beq_false_of_ne hc, Bool.false_and, if_neg Bool.false_ne_true]
  · rfl

theorem probeTimeout_probed (h : s.comp.compositions.find id.toNat = some k) {t : Nat} (ht : k.probes.find node.toNat = some t) (hc : k.coordinator = s.nodeId) :
    (t + 5000000 ≤ s.clock → exec (.probeTimeout id node) s = .next (s.declareLost k.id node.toNat)) ∧
    (s.clock < t + 5000000 → exec (.probeTimeout id node) s = .next s) := by
  rw [probeTimeout_row h, ht]
  dsimp only
  rw [beq_iff_eq.mpr hc, Bool.true_and]
  exact ⟨fun hl => congrArg Host.Outcome.next (if_pos (decide_eq_true hl)),
    fun hl => congrArg Host.Outcome.next (if_neg (ne_true_of_eq_false (decide_eq_false (Nat.not_le.mpr hl))))⟩

/-! #### COORDINATOR_TAKEOVER (R429) -/

/-- The live members but for this module and its coordinator. -/
def Composition.others (self : Nat) (k : Composition) : List Nat := k.live.filter fun n => n != self && n != k.coordinator

/-- This module takes the role, tells the members, and declares the old coordinator lost. -/
def State.takeOver (k : Composition) (s : State) : State :=
  ((s.updComp k.id fun x => { x with coordinator := s.nodeId, coordHeard := s.clock, probes := [] }).compAll 7 k (k.hears s.nodeId s.clock) 0 []).declareLost
    k.id k.coordinator

/-- The members that were not heard for 20 ms are probed. -/
def State.probeUnheard (k : Composition) (s : State) : State :=
  ((k.others s.nodeId).filter fun n => !k.recent s.clock 20 n).foldl (fun (u : State) n =>
    (u.updComp k.id fun x => { x with probes := x.probes.put n u.clock }).compPost n 4 k 0 0 []) s

theorem coordinatorTakeover_row (h : s.comp.compositions.find id.toNat = some k) : exec (.coordinatorTakeover id) s = .next (
    if !k.active || !k.coordSilent s.nodeId s.clock || k.lost.contains s.nodeId then s
    else if k.majority s.nodeId s.clock then
      if (k.others s.nodeId).any fun n => n < s.nodeId && k.recent s.clock 20 n then s else s.takeOver k
    else s.probeUnheard k) := by
  show execCoordinatorTakeover id s = _
  rw [execCoordinatorTakeover, h]
  rfl

theorem coordinatorTakeover_not (h : s.comp.compositions.find id.toNat = some k)
    (hn : k.active = false ∨ k.coordSilent s.nodeId s.clock = false ∨ s.nodeId ∈ k.lost) : exec (.coordinatorTakeover id) s = .next s := by
  rw [coordinatorTakeover_row h, if_pos]
  rcases hn with hn | hn | hn <;> simp [hn]

theorem coordinatorTakeover_silent (h : s.comp.compositions.find id.toNat = some k) (ha : k.active = true) (hc : k.coordSilent s.nodeId s.clock = true)
    (hl : s.nodeId ∉ k.lost) : exec (.coordinatorTakeover id) s = .next (
      if k.majority s.nodeId s.clock then
        if (k.others s.nodeId).any fun n => n < s.nodeId && k.recent s.clock 20 n then s else s.takeOver k
      else s.probeUnheard k) := by
  rw [coordinatorTakeover_row h, if_neg (by simp [ha, hc, hl])]

theorem coordinatorTakeover_outcomes (h : s.comp.compositions.find id.toNat = some k) (ha : k.active = true) (hc : k.coordSilent s.nodeId s.clock = true)
    (hl : s.nodeId ∉ k.lost) :
    (k.majority s.nodeId s.clock = true → (∃ n ∈ k.others s.nodeId, n < s.nodeId ∧ k.recent s.clock 20 n = true) →
      exec (.coordinatorTakeover id) s = .next s) ∧
    (k.majority s.nodeId s.clock = true → (∀ n ∈ k.others s.nodeId, n < s.nodeId → k.recent s.clock 20 n = false) →
      exec (.coordinatorTakeover id) s = .next (s.takeOver k)) ∧
    (k.majority s.nodeId s.clock = false → exec (.coordinatorTakeover id) s = .next (s.probeUnheard k)) := by
  rw [coordinatorTakeover_silent h ha hc hl]
  refine ⟨fun hm hx => ?_, fun hm hx => ?_, fun hm => ?_⟩
  · rw [if_pos hm, if_pos]
    simpa [List.any_eq_true] using hx
  · rw [if_pos hm, if_neg]
    rw [List.any_eq_true]
    rintro ⟨n, hn, hr⟩
    obtain ⟨h1, h2⟩ := Bool.and_eq_true_iff.mp hr
    rw [hx n hn (of_decide_eq_true h1)] at h2
    exact Bool.false_ne_true h2
  · rw [if_neg (ne_true_of_eq_false hm)]

/-! #### SELF_FENCE (R429) -/

/-- This module reaches no coordinator with a majority. -/
def State.alone (k : Composition) (s : State) : Bool :=
  if k.coordinator == s.nodeId then !k.majority s.nodeId s.clock else k.coordSilent s.nodeId s.clock

/-- The coordinator is told of this module's fence. -/
def State.tellSelfFence (k : Composition) (flags : Nat) (s : State) : State :=
  if k.coordinator == s.nodeId then s else s.compPost k.coordinator 8 k 0 0 (leBytes 2 s.nodeId ++ leBytes 1 flags ++ zeros 5)

/-- The fence of this module for a composition is set or lifted, and logged. -/
def State.markSelfFence (k : Composition) (b : Bool) (s : State) : State := (s.updComp k.id fun k => { k with fenced := b }).logKind 7 s.nodeId

theorem logKind_nodeId (a b : Nat) (s : State) : (s.logKind a b).nodeId = s.nodeId := by
  obtain ⟨t, ht⟩ := log_tenants_only { seq := 0, time := 0, kind := a, detail := b } s
  rw [State.logKind, ht]
  rfl

theorem tellSelfFence_marked (flags : Nat) (b : Bool) : (s.markSelfFence k b).tellSelfFence k flags =
    if k.coordinator == s.nodeId then s.markSelfFence k b
    else (s.markSelfFence k b).compPost k.coordinator 8 k 0 0 (leBytes 2 s.nodeId ++ leBytes 1 flags ++ zeros 5) := by
  have e : (s.markSelfFence k b).nodeId = s.nodeId := logKind_nodeId _ _ _
  rw [State.tellSelfFence, e]

theorem selfFence_row (h : s.comp.compositions.find id.toNat = some k) : exec (.selfFence id) s = .next (
    if !k.active || s.alone k == k.fenced then s
    else if s.alone k then (s.markSelfFence k true).tellSelfFence k 0 else (s.markSelfFence k false).tellSelfFence k 2) := by
  show execSelfFence id s = _
  rw [execSelfFence, h, tellSelfFence_marked, tellSelfFence_marked]
  rfl

theorem selfFence_not (h : s.comp.compositions.find id.toNat = some k) (hn : k.active = false ∨ s.alone k = k.fenced) : exec (.selfFence id) s = .next s := by
  rw [selfFence_row h, if_pos]
  rcases hn with hn | hn <;> simp [hn]

theorem selfFence_fences (h : s.comp.compositions.find id.toNat = some k) (ha : k.active = true) (hl : s.alone k = true) (hf : k.fenced = false) :
    exec (.selfFence id) s = .next ((s.markSelfFence k true).tellSelfFence k 0) := by
  rw [selfFence_row h, ha, hl, hf]
  rfl

theorem selfFence_lifts (h : s.comp.compositions.find id.toNat = some k) (ha : k.active = true) (hl : s.alone k = false) (hf : k.fenced = true) :
    exec (.selfFence id) s = .next ((s.markSelfFence k false).tellSelfFence k 2) := by
  rw [selfFence_row h, ha, hl, hf]
  rfl

/-! #### SUSPECT_MEMBER (R440) -/

/-- The threshold of SUSPECT. -/
def Composition.suspectLimit (k : Composition) : Nat := max ((4095 + k.members.length) / k.members.length) 32

/-- A member becomes SUSPECT, and a replica, where one is named, takes its shard. -/
def State.markSuspect (k : Composition) (n : Nat) (r : Option Half) (s : State) : State :=
  ((s.updComp k.id fun k => { k with
    suspect := n :: k.suspect, servers := r.elim k.servers fun r => k.servers.put (k.shardOf n) r.toNat }).logKind 8 n).emit (.event 8 n)

/-- The mark lifts. -/
def State.liftSuspect (k : Composition) (n : Nat) (s : State) : State :=
  ((s.updComp k.id fun x => { x with
    suspect := x.suspect.filter (· != n), servers := if x.lost.contains n then x.servers else x.servers.del (x.shardOf n) }).logKind 8 n).emit (.event 8 n)

theorem suspectMember_row (r : Option Half) (h : s.comp.compositions.find id.toNat = some k) : exec (.suspectMember id node r) s = .next (
    if !k.members.contains node.toNat then s
    else if !k.suspect.contains node.toNat && decide (k.suspectLimit ≤ k.lastCount node.toNat) then s.markSuspect k node.toNat r
    else if k.suspect.contains node.toNat && decide (2 * k.lastCount node.toNat < k.suspectLimit) then s.liftSuspect k node.toNat
    else s) := by
  show execSuspectMember id node r s = _
  rw [execSuspectMember, h]
  cases r <;> rfl

theorem suspectMember_stranger (r : Option Half) (h : s.comp.compositions.find id.toNat = some k) (hm : node.toNat ∉ k.members) :
    exec (.suspectMember id node r) s = .next s := by
  rw [suspectMember_row r h, if_pos (by simp [hm])]

theorem suspectMember_member (r : Option Half) (h : s.comp.compositions.find id.toNat = some k) (hm : node.toNat ∈ k.members) :
    (node.toNat ∉ k.suspect → k.lastCount node.toNat < k.suspectLimit → exec (.suspectMember id node r) s = .next s) ∧
    (node.toNat ∉ k.suspect → k.suspectLimit ≤ k.lastCount node.toNat → exec (.suspectMember id node r) s = .next (s.markSuspect k node.toNat r)) ∧
    (node.toNat ∈ k.suspect → k.suspectLimit ≤ 2 * k.lastCount node.toNat → exec (.suspectMember id node r) s = .next s) ∧
    (node.toNat ∈ k.suspect → 2 * k.lastCount node.toNat < k.suspectLimit → exec (.suspectMember id node r) s = .next (s.liftSuspect k node.toNat)) := by
  rw [suspectMember_row r h, if_neg (by simp [hm])]
  refine ⟨fun hs hl => ?_, fun hs hl => ?_, fun hs hl => ?_, fun hs hl => ?_⟩
  · rw [if_neg (by simp [hl]), if_neg (by simp [hs])]
  · rw [if_pos (by simp [hs, hl])]
  · rw [if_neg (by simp [hs]), if_neg (by simp [hl])]
  · rw [if_neg (by simp [hs]), if_pos (by simp [hs, hl])]

/-! #### A loss is declared (R428) -/

theorem mem_lost_without (n now : Nat) : n ∈ (k.without n now).lost := by
  show n ∈ if k.lost.contains n then k.lost else sortBy (n :: k.lost) fun a b => decide (a ≤ b)
  split
  · next h => exact List.contains_iff_mem.mp h
  · exact mem_sortBy.mpr List.mem_cons_self

/-- Without a member the composition follows a member that is not lost, unless none is left. -/
theorem without_coordinator (n now : Nat) : (k.without n now).coordinator ∉ (k.without n now).lost ∨ (k.without n now).live = [] := by
  have hc : (k.without n now).coordinator =
      if (k.without n now).lost.contains k.coordinator then (k.without n now).live.headD 0 else k.coordinator := rfl
  rw [hc]
  split
  · cases e : (k.without n now).live with
    | nil => exact .inr rfl
    | cons x l =>
      have hx : x ∈ (k.without n now).live := by rw [e]; exact List.mem_cons_self
      exact .inl (by simpa using (List.mem_filter.mp hx).2)
  · next h => exact .inl (mt List.contains_iff_mem.mpr h)

theorem declareLost_some {i n : Nat} (h : s.comp.compositions.find i = some k) (hn : n ∉ k.lost) :
    let u : Composition := { k.without n s.clock with version := k.version + 1 }
    s.declareLost i n = ((({ s with comp.compositions := s.comp.compositions.put i u } : State).logKind 6 n).compAll 3 u 0 u.lost.length
      (padTo 8 (u.lost.flatMap (leBytes 2)))).memberGone i n := by
  intro u
  rw [State.declareLost, h]
  exact if_neg (mt List.contains_iff_mem.mp hn)

/-! #### COMPOSITION (Table 16-27) -/

/-- A JOIN that came early is kept. -/
def State.keepJoin (n ver : Nat) (x : Inbound) (s : State) : State :=
  { s with comp.earlyJoins := (s.comp.earlyJoins.filter fun j => !(j.1 == n && j.2.2.1 == x.src)) ++ [(n, ver, x.src, x.body.drop 24)] }

/-- A message of a member, or a JOIN, in a composition that is there. -/
def State.takeMemberMessage (k : Composition) (x : Inbound) (s : State) : State :=
  match field x.body 0 1 with
  | 1 =>
    if k.version < field x.body 8 4 then s.keepJoin (field x.body 4 4) (field x.body 8 4) x
    else if field x.body 8 4 == k.version && x.body.drop 24 == k.digest && k.members.contains x.src then
      if k.active then s.compPost x.src 2 k 0 0 k.digest
      else (s.updComp (field x.body 4 4) fun k => { k with joined := x.src :: k.joined.filter (· != x.src) }).tryActivate (field x.body 4 4)
    else s
  | 2 => if !k.active && x.src == k.coordinator && field x.body 8 4 == k.version && x.body.drop 24 == k.digest then s.activate k else s
  | 3 => s.lostHere k (field x.body 8 4) ((records 2 (field x.body 0x10 4) (x.body.drop 24)).map leNat)
  | 4 => s.compPost x.src 5 k 0 0 []
  | 5 => s
  | 6 => if k.coordinator == s.nodeId then s.declareLeft k x.src else s
  | _ =>
    if k.members.length < 2 * field x.body 0xE 2 && (x.src < k.coordinator || k.coordSilent s.nodeId s.clock || k.lost.contains k.coordinator) then
      s.updComp (field x.body 4 4) fun k => { k with coordinator := x.src, coordHeard := s.clock, silent := [], childHeard := [] }
    else s

/-- A composition or fence message that keeps its layout. -/
def State.takeComposition (x : Inbound) (s : State) : State :=
  if field x.body 0 1 = 8 then s.fenceHere (x.body.drop 24)
  else match s.comp.compositions.find (field x.body 4 4) with
    | none => if field x.body 0 1 = 1 then s.keepJoin (field x.body 4 4) (field x.body 8 4) x else s.partnerViolation x.port x.src
    | some k =>
      if !k.members.contains x.src && field x.body 0 1 != 1 then s.partnerViolation x.port x.src
      else (s.hearMember (field x.body 4 4) x.src).takeMemberMessage k x

theorem exec_composition (s : State) : exec .composition s =
    .next (s.onMessage 0x60 [] (fun x _ => compFaultless x.body && field x.body 0xC 2 == x.src) State.takeComposition) := rfl

section
variable {x : Inbound} {u : State}

theorem takeComposition_fence (h : field x.body 0 1 = 8) : u.takeComposition x = u.fenceHere (x.body.drop 24) := if_pos h

theorem takeComposition_early (h : field x.body 0 1 = 1) (hn : u.comp.compositions.find (field x.body 4 4) = none) :
    u.takeComposition x = u.keepJoin (field x.body 4 4) (field x.body 8 4) x := by
  rw [State.takeComposition, if_neg (by omega), hn]
  exact if_pos h

theorem takeComposition_stranger (h8 : field x.body 0 1 ≠ 8) (h1 : field x.body 0 1 ≠ 1)
    (hm : ∀ y, u.comp.compositions.find (field x.body 4 4) = some y → x.src ∉ y.members) : u.takeComposition x = u.partnerViolation x.port x.src := by
  rw [State.takeComposition, if_neg h8]
  split
  · exact if_neg h1
  · next y hy => exact if_pos (by simp [hm y hy, h1])

theorem takeComposition_heard (h8 : field x.body 0 1 ≠ 8) (hk : u.comp.compositions.find (field x.body 4 4) = some k)
    (h : field x.body 0 1 = 1 ∨ x.src ∈ k.members) : u.takeComposition x = (u.hearMember (field x.body 4 4) x.src).takeMemberMessage k x := by
  rw [State.takeComposition, if_neg h8, hk]
  exact if_neg (by rcases h with h | h <;> simp [h])

theorem takeMemberMessage_join (h : field x.body 0 1 = 1) : u.takeMemberMessage k x =
    if k.version < field x.body 8 4 then u.keepJoin (field x.body 4 4) (field x.body 8 4) x
    else if field x.body 8 4 == k.version && x.body.drop 24 == k.digest && k.members.contains x.src then
      if k.active then u.compPost x.src 2 k 0 0 k.digest
      else (u.updComp (field x.body 4 4) fun k => { k with joined := x.src :: k.joined.filter (· != x.src) }).tryActivate (field x.body 4 4)
    else u := by
  unfold State.takeMemberMessage
  rw [h]
  rfl

theorem takeMemberMessage_active (h : field x.body 0 1 = 2) : u.takeMemberMessage k x =
    if !k.active && x.src == k.coordinator && field x.body 8 4 == k.version && x.body.drop 24 == k.digest then u.activate k else u := by
  unfold State.takeMemberMessage
  rw [h]
  rfl

theorem takeMemberMessage_coord (h : field x.body 0 1 = 7) : u.takeMemberMessage k x =
    if k.members.length < 2 * field x.body 0xE 2 && (x.src < k.coordinator || k.coordSilent u.nodeId u.clock || k.lost.contains k.coordinator) then
      u.updComp (field x.body 4 4) fun k => { k with coordinator := x.src, coordHeard := u.clock, silent := [], childHeard := [] }
    else u := by
  unfold State.takeMemberMessage
  rw [h]
  rfl

theorem takeMemberMessage_kinds :
    (field x.body 0 1 = 3 → u.takeMemberMessage k x = u.lostHere k (field x.body 8 4) ((records 2 (field x.body 0x10 4) (x.body.drop 24)).map leNat)) ∧
    (field x.body 0 1 = 4 → u.takeMemberMessage k x = u.compPost x.src 5 k 0 0 []) ∧
    (field x.body 0 1 = 5 → u.takeMemberMessage k x = u) ∧
    (field x.body 0 1 = 6 → u.takeMemberMessage k x = if k.coordinator = u.nodeId then u.declareLeft k x.src else u) := by
  unfold State.takeMemberMessage
  refine ⟨fun h => ?_, fun h => ?_, fun h => ?_, fun h => ?_⟩
  · rw [h]
    rfl
  · rw [h]
    rfl
  · rw [h]
    rfl
  · rw [h]
    simp only [beq_iff_eq]

end

/-- A JOIN of a member, or of a module that may become one. -/
theorem takeComposition_join {x : Inbound} {u : State} (h : field x.body 0 1 = 1) (hk : u.comp.compositions.find (field x.body 4 4) = some k) :
    (k.version < field x.body 8 4 → u.takeComposition x = (u.hearMember (field x.body 4 4) x.src).keepJoin (field x.body 4 4) (field x.body 8 4) x) ∧
    ((field x.body 8 4 < k.version ∨ (field x.body 8 4 = k.version ∧ (x.body.drop 24 ≠ k.digest ∨ x.src ∉ k.members))) →
      u.takeComposition x = u.hearMember (field x.body 4 4) x.src) ∧
    (field x.body 8 4 = k.version → x.body.drop 24 = k.digest → x.src ∈ k.members →
      (k.active = true → u.takeComposition x = (u.hearMember (field x.body 4 4) x.src).compPost x.src 2 k 0 0 k.digest) ∧
      (k.active = false → u.takeComposition x = (((u.hearMember (field x.body 4 4) x.src).updComp (field x.body 4 4) fun k =>
        { k with joined := x.src :: k.joined.filter (· != x.src) }).tryActivate (field x.body 4 4)))) := by
  rw [takeComposition_heard (by omega) hk (.inl h), takeMemberMessage_join h]
  refine ⟨fun hv => if_pos hv, fun hv => ?_, fun hv hd hm => ?_⟩
  · rw [if_neg (by omega), if_neg]
    simp only [Bool.and_eq_true, beq_iff_eq, List.contains_iff_mem]
    rintro ⟨⟨h1, h2⟩, h3⟩
    rcases hv with hv | ⟨-, hv | hv⟩
    · omega
    · exact hv h2
    · exact hv h3
  · rw [if_neg (by omega), if_pos (by rw [hv, hd, List.contains_iff_mem.mpr hm, beq_self_eq_true, beq_self_eq_true]; rfl)]
    exact ⟨fun ha => if_pos ha, fun ha => if_neg (ne_true_of_eq_false ha)⟩

/-- A message of a member but for JOIN. -/
theorem takeComposition_member {x : Inbound} {u : State} (hk : u.comp.compositions.find (field x.body 4 4) = some k) (hm : x.src ∈ k.members) :
    let v := u.hearMember (field x.body 4 4) x.src
    (field x.body 0 1 = 2 → k.active = false → x.src = k.coordinator → field x.body 8 4 = k.version → x.body.drop 24 = k.digest →
      u.takeComposition x = v.activate k) ∧
    (field x.body 0 1 = 2 → (k.active = true ∨ x.src ≠ k.coordinator ∨ field x.body 8 4 ≠ k.version ∨ x.body.drop 24 ≠ k.digest) → u.takeComposition x = v) ∧
    (field x.body 0 1 = 3 → u.takeComposition x = v.lostHere k (field x.body 8 4) ((records 2 (field x.body 0x10 4) (x.body.drop 24)).map leNat)) ∧
    (field x.body 0 1 = 4 → u.takeComposition x = v.compPost x.src 5 k 0 0 []) ∧
    (field x.body 0 1 = 5 → u.takeComposition x = v) ∧
    (field x.body 0 1 = 6 → u.takeComposition x = if k.coordinator = v.nodeId then v.declareLeft k x.src else v) ∧
    (field x.body 0 1 = 7 → u.takeComposition x =
      if k.members.length < 2 * field x.body 0xE 2 ∧ (x.src < k.coordinator ∨ k.coordSilent v.nodeId v.clock = true ∨ k.coordinator ∈ k.lost) then
        v.updComp (field x.body 4 4) fun k => { k with coordinator := x.src, coordHeard := v.clock, silent := [], childHeard := [] }
      else v) := by
  intro v
  have heard (h8 : field x.body 0 1 ≠ 8) : u.takeComposition x = v.takeMemberMessage k x := takeComposition_heard h8 hk (.inr hm)
  obtain ⟨k3, k4, k5, k6⟩ := takeMemberMessage_kinds (k := k) (x := x) (u := v)
  refine ⟨fun h ha hc hv hd => ?_, fun h hn => ?_, fun h => (heard (by omega)).trans (k3 h), fun h => (heard (by omega)).trans (k4 h),
    fun h => (heard (by omega)).trans (k5 h), fun h => (heard (by omega)).trans (k6 h), fun h => ?_⟩
  · rw [heard (by omega), takeMemberMessage_active h, if_pos]
    rw [ha, hc, hv, hd, beq_self_eq_true, beq_self_eq_true, beq_self_eq_true]
    rfl
  · rw [heard (by omega), takeMemberMessage_active h, if_neg]
    simp only [Bool.and_eq_true, Bool.not_eq_true', beq_iff_eq]
    rintro ⟨⟨⟨h1, h2⟩, h3⟩, h4⟩
    rcases hn with hn | hn | hn | hn
    · rw [h1] at hn; cases hn
    · exact hn h2
    · exact hn h3
    · exact hn h4
  · rw [heard (by omega), takeMemberMessage_coord h]
    simp only [Bool.and_eq_true, Bool.or_eq_true, decide_eq_true_eq, List.contains_iff_mem, or_assoc]

/-! #### COLL_DOWN and COLL_UP (R416, Table 16-26) -/

/-- Whether a message down keeps its layout. -/
def downFaultless (k : Composition) (x : Inbound) : Bool :=
  24 ≤ x.body.length && k.members.contains x.src && field x.body 0x14 4 == 0 &&
    (if field x.body 8 1 = 3 then field x.body 9 1 == 2 && x.body.length == 24
     else (field x.body 9 1 == 1 && 32 ≤ x.body.length && field x.body 24 1 == 0x10 && zeroField x.body 25 3 && x.body.length == 32 + field x.body 0x1C 4) ||
      (field x.body 9 1 == 3 && x.body.length == 24))

theorem downFaultless_iff {x : Inbound} : downFaultless k x = true ↔
    24 ≤ x.body.length ∧ x.src ∈ k.members ∧ field x.body 0x14 4 = 0 ∧ ((field x.body 8 1 = 3 ∧ field x.body 9 1 = 2 ∧ x.body.length = 24) ∨
      (field x.body 8 1 ≠ 3 ∧ field x.body 9 1 = 1 ∧ 32 ≤ x.body.length ∧ field x.body 24 1 = 0x10 ∧ zeroField x.body 25 3 = true ∧
        x.body.length = 32 + field x.body 0x1C 4) ∨
      (field x.body 8 1 ≠ 3 ∧ field x.body 9 1 = 3 ∧ x.body.length = 24)) := by
  unfold downFaultless
  by_cases h : field x.body 8 1 = 3
  · rw [if_pos h]
    simp [h, and_assoc]
  · rw [if_neg h]
    simp [h, and_assoc]

/-- A message down goes on to the children. -/
def State.forwardDown (k : Composition) (x : Inbound) (s : State) : State :=
  (k.kids (field x.body 0 2) s.nodeId).foldl (fun (z : State) c => z.post c 0x50 x.cls x.tenant (field x.body 9 1 == 3)
    (collectiveHead (field x.body 0 8) (field x.body 8 1) (field x.body 9 1) ((k.order (field x.body 0 2)).idxOf z.nodeId) k.id k.version 0)) s

/-- A coordinator's heartbeat is heard and goes on; a barrier's release ends the barrier and goes on; a broadcast's sub-query is admitted. -/
def State.takeDown (k : Composition) (x : Inbound) (s : State) : State :=
  if field x.body 9 1 = 1 then s.admitSubquery x (x.body.drop 32)
  else if field x.body 9 1 = 3 then
    if !k.active || !(field x.body 0 2 == k.coordinator || field x.body 0 2 < k.coordinator || k.coordSilent s.nodeId s.clock) ||
        k.lost.contains (field x.body 0 2) then s
    else (s.updComp k.id fun k => { k with coordinator := field x.body 0 2, coordHeard := s.clock, heard := k.heard.put x.src s.clock }).forwardDown k x
  else (s.updComp k.id fun k => { k with barriers := k.barriers.del (field x.body 0 8) }).forwardDown k x

theorem collDown_some {x : Inbound} {u : State} (hm : s.takeCollective [1, 3] = some (x, u)) : exec .collDown s = .next (
    if !u.serving then u
    else match u.comp.compositions.find (field x.body 0xC 4) with
      | none => u.partnerViolation x.port x.src
      | some k => u.wellFormed x (downFaultless k x) (State.takeDown k x)) := by
  show execCollDown s = _
  rw [execCollDown, hm]
  rfl

theorem collDown_none (hm : s.takeCollective [1, 3] = none) : exec .collDown s = .next s := by
  show execCollDown s = _
  rw [execCollDown, hm]

theorem collDown_stopped {x : Inbound} {u : State} (hm : s.takeCollective [1, 3] = some (x, u)) (hs : u.serving = false) :
    exec .collDown s = .next u := by
  rw [collDown_some hm, hs]
  rfl

theorem collDown_unknown {x : Inbound} {u : State} (hm : s.takeCollective [1, 3] = some (x, u)) (hs : u.serving = true)
    (hk : u.comp.compositions.find (field x.body 0xC 4) = none) : exec .collDown s = .next (u.partnerViolation x.port x.src) := by
  rw [collDown_some hm, hs, hk]
  rfl

theorem collDown_known {x : Inbound} {u : State} (hm : s.takeCollective [1, 3] = some (x, u)) (hs : u.serving = true)
    (hk : u.comp.compositions.find (field x.body 0xC 4) = some k) :
    exec .collDown s = .next (u.wellFormed x (downFaultless k x) (State.takeDown k x)) := by
  rw [collDown_some hm, hs, hk]
  rfl

section
variable {x : Inbound} {u : State}

theorem takeDown_subquery (h : field x.body 9 1 = 1) : u.takeDown k x = u.admitSubquery x (x.body.drop 32) := if_pos h

theorem takeDown_release (h : field x.body 9 1 = 2) : u.takeDown k x =
    (u.updComp k.id fun k => { k with barriers := k.barriers.del (field x.body 0 8) }).forwardDown k x :=
  (if_neg (by omega)).trans (if_neg (by omega))

theorem takeDown_heartbeat (h : field x.body 9 1 = 3) (ha : k.active = true)
    (hr : field x.body 0 2 ≤ k.coordinator ∨ k.coordSilent u.nodeId u.clock = true) (hl : field x.body 0 2 ∉ k.lost) : u.takeDown k x =
      (u.updComp k.id fun k => { k with coordinator := field x.body 0 2, coordHeard := u.clock, heard := k.heard.put x.src u.clock }).forwardDown k x := by
  have hc : (field x.body 0 2 == k.coordinator || field x.body 0 2 < k.coordinator || k.coordSilent u.nodeId u.clock) = true := by
    simp only [Bool.or_eq_true, beq_iff_eq, decide_eq_true_eq]
    rcases hr with hr | hr
    · exact .inl (by omega)
    · exact .inr hr
  rw [State.takeDown, if_neg (by omega), if_pos h, if_neg]
  rw [ha, hc]
  simpa using hl

theorem takeDown_stale (h : field x.body 9 1 = 3)
    (hn : k.active = false ∨ (k.coordinator < field x.body 0 2 ∧ k.coordSilent u.nodeId u.clock = false) ∨ field x.body 0 2 ∈ k.lost) :
    u.takeDown k x = u := by
  rw [State.takeDown, if_neg (by omega), if_pos h, if_pos]
  rcases hn with hn | ⟨hn, hc⟩ | hn
  · rw [hn]
    rfl
  · rw [hc, decide_eq_false (by omega), beq_false_of_ne (by omega)]
    simp
  · rw [List.contains_iff_mem.mpr hn, Bool.or_true]

end

/-- Whether a message up keeps its layout. -/
def upFaultless (k : Composition) (x : Inbound) : Bool :=
  32 ≤ x.body.length && k.members.contains x.src &&
    (if field x.body 9 1 = 3 then zeroField x.body 28 4 && x.body.length == 32 + (2 * field x.body 24 4 + 7) / 8 * 8
     else field x.body 9 1 == 2 && zeroField x.body 26 6 && x.body.length == 32)

theorem upFaultless_iff {x : Inbound} : upFaultless k x = true ↔
    32 ≤ x.body.length ∧ x.src ∈ k.members ∧
      ((field x.body 9 1 = 3 ∧ zeroField x.body 28 4 = true ∧ x.body.length = 32 + (2 * field x.body 24 4 + 7) / 8 * 8) ∨
        (field x.body 9 1 = 2 ∧ zeroField x.body 26 6 = true ∧ x.body.length = 32)) := by
  unfold upFaultless
  by_cases h : field x.body 9 1 = 3
  · rw [if_pos h]
    simp [h, and_assoc]
  · rw [if_neg h]
    simp [h, and_assoc]

/-- A child's report of the members it hears. -/
def State.takeReport (k : Composition) (x : Inbound) (s : State) : State :=
  s.updComp k.id fun k => { k with
    heard := k.heard.put x.src s.clock, childHeard := k.childHeard.put x.src (field x.body 0x14 4)
    silent := k.silent.put x.src ((records 2 (field x.body 24 4) (x.body.drop 32)).map leNat), probes := k.probes.del x.src }

/-- The composition in which a child's arrival at a barrier is counted. -/
def Composition.arrived (k : Composition) (self : Nat) (x : Inbound) : Composition :=
  { k with
    barriers := k.barriers.put (field x.body 0 8) (x.src :: (k.barriers.getD (field x.body 0 8) ([], self)).1.filter (· != x.src), field x.body 24 2) }

/-- A child's arrival at a barrier is counted, and the barrier settles. -/
def State.takeArrival (k : Composition) (x : Inbound) (s : State) : State :=
  ({ s with comp.compositions := s.comp.compositions.put k.id (k.arrived s.nodeId x) } : State).settleBarrier (k.arrived s.nodeId x) (field x.body 0 8) x.cls
    x.tenant

/-- A message up that keeps its layout. -/
def State.takeUp (k : Composition) (x : Inbound) (s : State) : State :=
  if k.lost.contains x.src then s else if field x.body 9 1 = 3 then s.takeReport k x else s.takeArrival k x

theorem collUp_some {x : Inbound} {u : State} (hm : s.takeCollective [2] = some (x, u)) : exec .collUp s = .next (
    if !u.serving then u
    else match u.comp.compositions.find (field x.body 0xC 4) with
      | none => u.partnerViolation x.port x.src
      | some k => u.wellFormed x (upFaultless k x) (State.takeUp k x)) := by
  show execCollUp s = _
  rw [execCollUp, hm]
  rfl

theorem collUp_none (hm : s.takeCollective [2] = none) : exec .collUp s = .next s := by
  show execCollUp s = _
  rw [execCollUp, hm]

theorem collUp_stopped {x : Inbound} {u : State} (hm : s.takeCollective [2] = some (x, u)) (hs : u.serving = false) : exec .collUp s = .next u := by
  rw [collUp_some hm, hs]
  rfl

theorem collUp_unknown {x : Inbound} {u : State} (hm : s.takeCollective [2] = some (x, u)) (hs : u.serving = true)
    (hk : u.comp.compositions.find (field x.body 0xC 4) = none) : exec .collUp s = .next (u.partnerViolation x.port x.src) := by
  rw [collUp_some hm, hs, hk]
  rfl

theorem collUp_known {x : Inbound} {u : State} (hm : s.takeCollective [2] = some (x, u)) (hs : u.serving = true)
    (hk : u.comp.compositions.find (field x.body 0xC 4) = some k) :
    exec .collUp s = .next (u.wellFormed x (upFaultless k x) (State.takeUp k x)) := by
  rw [collUp_some hm, hs, hk]
  rfl

section
variable {x : Inbound} {u : State}

theorem takeUp_lost (h : x.src ∈ k.lost) : u.takeUp k x = u := if_pos (List.contains_iff_mem.mpr h)

theorem takeUp_report (h : x.src ∉ k.lost) (ho : field x.body 9 1 = 3) : u.takeUp k x = u.takeReport k x :=
  (if_neg (mt List.contains_iff_mem.mp h)).trans (if_pos ho)

theorem takeUp_arrival (h : x.src ∉ k.lost) (ho : field x.body 9 1 = 2) : u.takeUp k x = u.takeArrival k x :=
  (if_neg (mt List.contains_iff_mem.mp h)).trans (if_neg (by omega))

end

end

/-- Settles O46: each event is its row, by whether the composition is there and who coordinates it; each message goes by its layout and its kind. -/
theorem memberEvents : Obligations.MemberEvents := by
  unfold Obligations.MemberEvents
  intro id node r s k
  refine ⟨memberEvents_unknown r, fun h => ⟨heartbeatTick_not h, heartbeatTick_member h, heartbeatTick_coordinator h, memberLost_declares h, memberLost_not h,
      probeTimeout_not h, fun t => probeTimeout_probed h, coordinatorTakeover_outcomes h, coordinatorTakeover_not h,
      ⟨selfFence_not h, selfFence_fences h, selfFence_lifts h⟩, suspectMember_stranger r h, suspectMember_member r h⟩,
    fun n h hn => ⟨declareLost_some h hn, mem_lost_without n s.clock⟩, without_coordinator,
    ⟨?none, collDown_none, collUp_none⟩, fun x u hm => ?composition, fun x u hm => ?down, fun x u hm => ?up⟩
  case none => exact fun hm => (turnedAway_of_onMessage (exec_composition s)).1 hm
  case composition =>
    obtain ⟨-, stopped, broken⟩ := turnedAway_of_onMessage (exec_composition s)
    refine ⟨stopped x u hm, broken x u hm, fun hs hf => ?_⟩
    rw [taken_of_onMessage (exec_composition s) hm hs hf]
    refine ⟨fun h => congrArg Host.Outcome.next (takeComposition_fence h), fun h hn => congrArg Host.Outcome.next (takeComposition_early h hn),
      fun h8 h1 hx => congrArg Host.Outcome.next (takeComposition_stranger h8 h1 hx), fun hk => ⟨fun h hv => ?_, fun h hv => ?_, fun h hv hd hx => ?_, fun hx => ?_⟩⟩
    · exact congrArg Host.Outcome.next ((takeComposition_join h hk).1 hv)
    · exact congrArg Host.Outcome.next ((takeComposition_join h hk).2.1 hv)
    · obtain ⟨ha, hi⟩ := (takeComposition_join h hk).2.2 hv hd hx
      exact ⟨fun a => congrArg Host.Outcome.next (ha a), fun a => congrArg Host.Outcome.next (hi a)⟩
    · obtain ⟨k2, k2n, k3, k4, k5, k6, k7⟩ := takeComposition_member hk hx
      exact ⟨fun h a b c d => congrArg Host.Outcome.next (k2 h a b c d), fun h n => congrArg Host.Outcome.next (k2n h n),
        fun h => congrArg Host.Outcome.next (k3 h), fun h => congrArg Host.Outcome.next (k4 h), fun h => congrArg Host.Outcome.next (k5 h),
        fun h => congrArg Host.Outcome.next (k6 h), fun h => congrArg Host.Outcome.next (k7 h)⟩
  case down =>
    refine ⟨collDown_stopped hm, collDown_unknown hm, fun hs hk => ?_⟩
    rw [collDown_known hm hs hk]
    refine ⟨fun hf => congrArg Host.Outcome.next (wellFormed_broken _ (Bool.eq_false_iff.mpr (mt downFaultless_iff.mp hf))), fun hf h => ?_, fun hf h => ?_,
      fun hf h ha hr hl => ?_, fun hf h hn => ?_⟩ <;> rw [wellFormed_holds _ (downFaultless_iff.mpr hf)]
    · rw [takeDown_subquery h]
    · rw [takeDown_release h]
      rfl
    · rw [takeDown_heartbeat h ha hr hl]
      rfl
    · rw [takeDown_stale h hn]
  case up =>
    refine ⟨collUp_stopped hm, collUp_unknown hm, fun hs hk => ?_⟩
    rw [collUp_known hm hs hk]
    refine ⟨fun hf => congrArg Host.Outcome.next (wellFormed_broken _ (Bool.eq_false_iff.mpr (mt upFaultless_iff.mp hf))), fun hf h => ?_, fun hf h ho => ?_,
      fun hf h ho => ?_⟩ <;> rw [wellFormed_holds _ (upFaultless_iff.mpr hf)]
    · rw [takeUp_lost h]
    · rw [takeUp_report h ho]
      rfl
    · rw [takeUp_arrival h ho]
      rfl

end Sys2Proof.Machine

/-! ### Proofs: packets are received, reassembled, forwarded, aged and scheduled (O56) -/

namespace Sys2Proof.Machine

section
variable {p : Fin 32} {s t : State} {b : Bytes}

/-! #### The oldest packet of a port -/

theorem takePacket_none_iff : (s.vievo p).arrived = [] ↔ s.takePacket p = none := by
  unfold State.takePacket
  cases (s.vievo p).arrived with
  | nil => exact ⟨fun _ => rfl, fun _ => rfl⟩
  | cons b rest => exact ⟨nofun, nofun⟩

theorem takePacket_some {rest : List Bytes} (h : (s.vievo p).arrived = b :: rest) : s.takePacket p = some (b, s.updVievo p fun x => { x with
    arrived := rest, owed := if linkUp x then x.owed.modify (field b 2 1) (· + creditUnits b.length) else x.owed }) := by
  rw [State.takePacket, h]

/-- Taking a packet touches the fabric's ports alone. -/
theorem takePacket_ports (h : s.takePacket p = some (b, t)) : ∃ l, t = { s with fabric.ports := l } := by
  unfold State.takePacket at h
  split at h
  · cases h
    exact ⟨_, rfl⟩
  · cases h

theorem messageReceive_none (h : s.takePacket p = none) : exec (.messageReceive p) s = .next s := by
  show execMessageReceive p s = _
  rw [execMessageReceive, h]

theorem packetForward_none (h : s.takePacket p = none) : exec (.packetForward p) s = .next s := by
  show execPacketForward p s = _
  rw [execPacketForward, h]

/-- A message of a packet whose CRC fails is lost, and logged (R405). -/
def State.crcFails (port : Nat) (x : FabPacket) (s : State) : State :=
  (if (s.assembly x.src x.cls).isSome then s.dropAssembly x.src x.cls else s).countLost.logKind 9 port

/-- What becomes of a packet for this module whose CRC holds and that obeys Table 16-7. -/
def State.receive (port : Nat) (x : FabPacket) (s : State) : State :=
  if s.fenceDrops x then s else if !s.pkeyAccepts x then s.countDrop else s.assemble port x

/-- What becomes of such a packet for another node. -/
def State.passOn (x : FabPacket) (s : State) : State :=
  if s.fenceDrops x then s
  else if !s.pkeyTransit x then s.countDrop
  else if x.hops ≤ 1 then s.countDrop.unreachable x 2
  else match s.flowPort x.src x.dst x.cls with
    | none => s.countDrop.unreachable x 1
    | some q => (s.enqueue q { x with hops := x.hops - 1 }).emit (.forward q x.src x.dst x.cls (x.hops - 1))

theorem messageReceive_some (h : s.takePacket p = some (b, t)) : exec (.messageReceive p) s = .next (
    if !s.serving then s
    else if !packetCrcHolds b then t.crcFails p (readPacket b)
    else if !packetFaultless b then t.partnerViolation p (readPacket b).src
    else if !s.forMe (readPacket b) then s
    else t.receive p (readPacket b)) := by
  show execMessageReceive p s = _
  rw [execMessageReceive, h]
  rfl

theorem packetForward_some (h : s.takePacket p = some (b, t)) : exec (.packetForward p) s = .next (
    if !s.serving || !packetCrcHolds b || !packetFaultless b || s.forMe (readPacket b) then s else t.passOn (readPacket b)) := by
  show execPacketForward p s = _
  rw [execPacketForward, h]
  rfl

theorem messageReceive_stopped (h : s.serving = false) : exec (.messageReceive p) s = .next s := by
  cases e : s.takePacket p with
  | none => exact messageReceive_none e
  | some x =>
    rw [messageReceive_some (b := x.1) (t := x.2) e, h]
    rfl

theorem packetForward_stopped (h : s.serving = false) : exec (.packetForward p) s = .next s := by
  cases e : s.takePacket p with
  | none => exact packetForward_none e
  | some x =>
    rw [packetForward_some (b := x.1) (t := x.2) e, h]
    rfl

theorem assembly_dropAssembly (src cls : Nat) (s : State) : (s.dropAssembly src cls).assembly src cls = none := by
  rw [State.assembly, List.find?_eq_none]
  intro r hr
  simpa [imp_iff_not_or] using (List.mem_filter.mp hr).2

theorem logKind_fabric (a c : Nat) (s : State) : (s.logKind a c).fabric = s.fabric := by
  obtain ⟨n, hn⟩ := log_tenants_only { seq := 0, time := 0, kind := a, detail := c } s
  rw [State.logKind, hn]

theorem dropped_assembly (src cls : Nat) (s : State) :
    (if (s.assembly src cls).isSome then s.dropAssembly src cls else s).assembly src cls = none := by
  split
  · exact assembly_dropAssembly src cls s
  · next h => exact Option.not_isSome_iff_eq_none.mp h

theorem crcFails_leaves (port : Nat) (x : FabPacket) (s : State) : (s.crcFails port x).fabric.lost = min (s.fabric.lost + 1) 0xFFFFFFFF ∧
    (s.crcFails port x).fabric.inbox = s.fabric.inbox ∧ (s.crcFails port x).assembly x.src x.cls = none := by
  have h := dropped_assembly x.src x.cls s
  have e : (s.crcFails port x).fabric = (if (s.assembly x.src x.cls).isSome then s.dropAssembly x.src x.cls else s).countLost.fabric := logKind_fabric ..
  refine ⟨?_, ?_, ?_⟩
  · rw [e]
    split <;> rfl
  · rw [e]
    split <;> rfl
  · rw [State.assembly, e]
    exact h

section
variable (h : s.takePacket p = some (b, t)) (hs : s.serving = true)
include h hs

theorem messageReceive_crc (hc : packetCrcHolds b = false) : exec (.messageReceive p) s = .next (t.crcFails p (readPacket b)) := by
  rw [messageReceive_some h, hs, hc]
  rfl

theorem messageReceive_broken (hc : packetCrcHolds b = true) (hf : packetFaultless b = false) :
    exec (.messageReceive p) s = .next (t.partnerViolation p (readPacket b).src) := by
  rw [messageReceive_some h, hs, hc, hf]
  rfl

theorem messageReceive_forMe (hc : packetCrcHolds b = true) (hf : packetFaultless b = true) (hm : s.forMe (readPacket b) = true) :
    exec (.messageReceive p) s = .next (t.receive p (readPacket b)) := by
  rw [messageReceive_some h, hs, hc, hf, hm]
  rfl

theorem messageReceive_other (hc : packetCrcHolds b = true) (hf : packetFaultless b = true) (hm : s.forMe (readPacket b) = false) :
    exec (.messageReceive p) s = .next s := by
  rw [messageReceive_some h, hs, hc, hf, hm]
  rfl

theorem packetForward_other (hc : packetCrcHolds b = true) (hf : packetFaultless b = true) (hm : s.forMe (readPacket b) = false) :
    exec (.packetForward p) s = .next (t.passOn (readPacket b)) := by
  rw [packetForward_some h, hs, hc, hf, hm]
  rfl

omit hs in
theorem packetForward_not (hn : packetCrcHolds b = false ∨ packetFaultless b = false ∨ s.forMe (readPacket b) = true) :
    exec (.packetForward p) s = .next s := by
  rw [packetForward_some h, if_pos]
  rcases hn with hn | hn | hn <;> simp [hn]

end

section
variable {x : FabPacket}

theorem receive_fenced (hf : t.fenceDrops x = true) : t.receive p x = t := if_pos hf

theorem receive_refused (hf : t.fenceDrops x = false) (hp : t.pkeyAccepts x = false) : t.receive p x = t.countDrop := by
  rw [State.receive, hf, hp]
  rfl

theorem receive_accepted (hf : t.fenceDrops x = false) (hp : t.pkeyAccepts x = true) : t.receive p x = t.assemble p x := by
  rw [State.receive, hf, hp]
  rfl

theorem passOn_fenced (hf : t.fenceDrops x = true) : t.passOn x = t := if_pos hf

theorem passOn_refused (hf : t.fenceDrops x = false) (hp : t.pkeyTransit x = false) : t.passOn x = t.countDrop := by
  rw [State.passOn, hf, hp]
  rfl

theorem passOn_accepted (hf : t.fenceDrops x = false) (hp : t.pkeyTransit x = true) :
    (x.hops ≤ 1 → t.passOn x = t.countDrop.unreachable x 2) ∧
    (1 < x.hops → t.flowPort x.src x.dst x.cls = none → t.passOn x = t.countDrop.unreachable x 1) ∧
    (1 < x.hops → ∀ q, t.flowPort x.src x.dst x.cls = some q →
      t.passOn x = (t.enqueue q { x with hops := x.hops - 1 }).emit (.forward q x.src x.dst x.cls (x.hops - 1))) := by
  have e : t.passOn x = if x.hops ≤ 1 then t.countDrop.unreachable x 2 else match t.flowPort x.src x.dst x.cls with
      | none => t.countDrop.unreachable x 1
      | some q => (t.enqueue q { x with hops := x.hops - 1 }).emit (.forward q x.src x.dst x.cls (x.hops - 1)) := by
    rw [State.passOn, hf, hp]
    rfl
  rw [e]
  refine ⟨fun hh => if_pos hh, fun hh hq => ?_, fun hh q hq => ?_⟩ <;> rw [if_neg (by omega), hq]

/-! #### Reassembly (R405) -/

/-- A reassembly takes a packet's payload. -/
def Reassembly.grown (now : Nat) (x : FabPacket) (r : Reassembly) : Reassembly := { r with got := r.got ++ x.payload, last := now }

/-- A packet joins its message, which is delivered, lost, or goes on. -/
def State.growAssembly (port : Nat) (x : FabPacket) (r : Reassembly) (s : State) : State :=
  if (r.grown s.clock x).msgLen < (r.grown s.clock x).got.length then (s.dropAssembly x.src x.cls).countLost
  else if x.last then
    if (r.grown s.clock x).got.length = (r.grown s.clock x).msgLen then (s.dropAssembly x.src x.cls).deliverMessage port (r.grown s.clock x)
    else (s.dropAssembly x.src x.cls).countLost
  else { s.dropAssembly x.src x.cls with
    fabric.reassembly := (s.dropAssembly x.src x.cls).fabric.reassembly ++ [r.grown s.clock x] }

/-- The empty reassembly that a first packet begins. -/
def Reassembly.begun (now : Nat) (x : FabPacket) : Reassembly :=
  { src := x.src, cls := x.cls, type := x.type, msgId := x.msgId, msgLen := x.msgLen, tenant := x.tenant, got := [], last := now }

/-- Reassembly has no room for another message. -/
def State.assemblyFull (x : FabPacket) (s : State) : Bool := 65536 ≤ s.fabric.reassembly.length || 268435456 < s.assemblyBytes + x.msgLen

/-- A first packet begins a message, where there is room. -/
def State.beginAssembly (port : Nat) (x : FabPacket) (s : State) : State :=
  if s.assemblyFull x then s.unreachable x 4 else s.growAssembly port x (.begun s.clock x)

theorem assemble_first (port : Nat) (hf : x.first = true) : s.assemble port x =
    (if (s.assembly x.src x.cls).isSome then (s.dropAssembly x.src x.cls).countLost else s).beginAssembly port x := by
  unfold State.assemble
  rw [hf]
  rfl

theorem assemble_later (port : Nat) (hf : x.first = false) : s.assemble port x = match s.assembly x.src x.cls with
    | none => s
    | some r =>
      if r.msgId != x.msgId || r.type != x.type then s
      else if r.got.length != x.offset || r.msgLen != x.msgLen then (s.dropAssembly x.src x.cls).countLost
      else s.growAssembly port x r := by
  unfold State.assemble
  rw [hf]
  rfl

/-- Where a flow has no message in reassembly, dropping it drops nothing. -/
theorem dropAssembly_none (h : s.assembly x.src x.cls = none) : s.dropAssembly x.src x.cls = s := by
  have e : (s.fabric.reassembly.filter fun r => !(r.src == x.src && r.cls == x.cls)) = s.fabric.reassembly := by
    rw [List.filter_eq_self]
    intro r hr
    simpa [imp_iff_not_or] using List.find?_eq_none.mp h r hr
  rw [State.dropAssembly, e]

theorem growAssembly_over {r : Reassembly} (port : Nat) (h : r.msgLen < r.got.length + x.payload.length) :
    s.growAssembly port x r = (s.dropAssembly x.src x.cls).countLost := if_pos (by simpa [Reassembly.grown] using h)

theorem growAssembly_short {r : Reassembly} (port : Nat) (hl : x.last = true) (h : r.got.length + x.payload.length < r.msgLen) :
    s.growAssembly port x r = (s.dropAssembly x.src x.cls).countLost := by
  rw [State.growAssembly, if_neg, if_pos hl, if_neg] <;> simp only [Reassembly.grown, List.length_append] <;> omega

theorem growAssembly_whole {r : Reassembly} (port : Nat) (hl : x.last = true) (h : r.got.length + x.payload.length = r.msgLen) :
    s.growAssembly port x r = (s.dropAssembly x.src x.cls).deliverMessage port (r.grown s.clock x) := by
  rw [State.growAssembly, if_neg, if_pos hl, if_pos] <;> simp only [Reassembly.grown, List.length_append] <;> omega

theorem growAssembly_goesOn {r : Reassembly} (port : Nat) (hl : x.last = false) (h : r.got.length + x.payload.length ≤ r.msgLen) :
    s.growAssembly port x r = { s.dropAssembly x.src x.cls with
      fabric.reassembly := (s.dropAssembly x.src x.cls).fabric.reassembly ++ [r.grown s.clock x] } := by
  rw [State.growAssembly, if_neg, if_neg (ne_true_of_eq_false hl)]
  simp only [Reassembly.grown, List.length_append]
  omega

theorem assemblyFull_iff : s.assemblyFull x = true ↔ 65536 ≤ s.fabric.reassembly.length ∨ 268435456 < s.assemblyBytes + x.msgLen := by
  simp only [State.assemblyFull, Bool.or_eq_true, decide_eq_true_eq]

theorem assemble_begins (port : Nat) (h : s.assembly x.src x.cls = none) (hf : x.first = true) (hn : s.fabric.reassembly.length < 65536)
    (hb : s.assemblyBytes + x.msgLen ≤ 268435456) : s.assemble port x = s.growAssembly port x (.begun s.clock x) := by
  have e : s.assemblyFull x = false := by
    rw [Bool.eq_false_iff, Ne, assemblyFull_iff]
    omega
  rw [assemble_first port hf, h]
  exact if_neg (ne_true_of_eq_false e)

theorem assemble_full (port : Nat) (h : s.assembly x.src x.cls = none) (hf : x.first = true)
    (hn : 65536 ≤ s.fabric.reassembly.length ∨ 268435456 < s.assemblyBytes + x.msgLen) : s.assemble port x = s.unreachable x 4 := by
  rw [assemble_first port hf, h]
  exact if_pos (assemblyFull_iff.mpr hn)

/-- The outcomes of a packet that begins a message. -/
theorem assemble_begun (h : s.assembly x.src x.cls = none) (hf : x.first = true) (hn : s.fabric.reassembly.length < 65536)
    (hb : s.assemblyBytes + x.msgLen ≤ 268435456) :
    (x.last = true → x.payload.length = x.msgLen → (s.assemble p x).fabric.inbox =
        s.fabric.inbox ++ [{ type := x.type, cls := x.cls, src := x.src, tenant := x.tenant, port := p, body := x.payload }] ∧
      (s.assemble p x).fabric.reassembly = s.fabric.reassembly ∧ (s.assemble p x).fabric.lost = s.fabric.lost) ∧
    (x.last = true → x.payload.length < x.msgLen → s.assemble p x = s.countLost) ∧ (x.msgLen < x.payload.length → s.assemble p x = s.countLost) ∧
    (x.last = false → x.payload.length ≤ x.msgLen → ∃ r, (s.assemble p x).fabric.reassembly = s.fabric.reassembly ++ [r] ∧ r.got = x.payload ∧
      r.last = s.clock ∧ r.msgId = x.msgId) := by
  have nil : (Reassembly.begun s.clock x).got.length + x.payload.length = x.payload.length := Nat.zero_add _
  rw [assemble_begins p h hf hn hb]
  refine ⟨fun hl hw => ?_, fun hl hw => ?_, fun hw => ?_, fun hl hw => ?_⟩
  · rw [growAssembly_whole p hl (nil.trans hw), dropAssembly_none h]
    exact ⟨rfl, rfl, rfl⟩
  · rw [growAssembly_short p hl (nil.trans_lt hw), dropAssembly_none h]
  · rw [growAssembly_over p (hw.trans_eq nil.symm), dropAssembly_none h]
  · rw [growAssembly_goesOn p hl (nil.trans_le hw), dropAssembly_none h]
    exact ⟨_, rfl, rfl, rfl, rfl⟩

/-- A first packet ends the message that its flow had in reassembly. -/
theorem assemble_restarts (port : Nat) (hf : x.first = true) {r : Reassembly} (h : s.assembly x.src x.cls = some r) :
    s.assemble port x = (s.dropAssembly x.src x.cls).countLost.assemble port x := by
  have e : (s.dropAssembly x.src x.cls).countLost.assembly x.src x.cls = none := assembly_dropAssembly x.src x.cls s
  rw [assemble_first port hf, assemble_first port hf, h, e]
  rfl

theorem assemble_stray (port : Nat) (hf : x.first = false) (h : s.assembly x.src x.cls = none) : s.assemble port x = s := by
  rw [assemble_later port hf, h]

theorem assemble_gap (port : Nat) (hf : x.first = false) {r : Reassembly} (h : s.assembly x.src x.cls = some r) (hi : r.msgId = x.msgId) (ht : r.type = x.type)
    (hg : r.got.length ≠ x.offset ∨ r.msgLen ≠ x.msgLen) : s.assemble port x = (s.dropAssembly x.src x.cls).countLost := by
  rw [assemble_later port hf, h]
  exact (if_neg (by simp [hi, ht])).trans (if_pos (by simpa using hg))

theorem assemble_foreign (port : Nat) (hf : x.first = false) {r : Reassembly} (h : s.assembly x.src x.cls = some r)
    (hi : r.msgId ≠ x.msgId ∨ r.type ≠ x.type) : s.assemble port x = s := by
  rw [assemble_later port hf, h]
  exact if_pos (by simpa using hi)

theorem assemble_grows (port : Nat) (hf : x.first = false) {r : Reassembly} (h : s.assembly x.src x.cls = some r) (hi : r.msgId = x.msgId)
    (ht : r.type = x.type) (ho : r.got.length = x.offset) (hl : r.msgLen = x.msgLen) : s.assemble port x = s.growAssembly port x r := by
  rw [assemble_later port hf, h]
  exact (if_neg (by simp [hi, ht])).trans (if_neg (by simp [ho, hl]))

/-- The outcomes of a packet that goes on with a message. -/
theorem assemble_next (hf : x.first = false) {r : Reassembly} (h : s.assembly x.src x.cls = some r) (hi : r.msgId = x.msgId)
    (ht : r.type = x.type) (ho : r.got.length = x.offset) (hl : r.msgLen = x.msgLen) :
    (x.last = true → r.got.length + x.payload.length = r.msgLen → (s.assemble p x).fabric.inbox =
      s.fabric.inbox ++ [{ type := r.type, cls := r.cls, src := r.src, tenant := r.tenant, port := p, body := r.got ++ x.payload }]) ∧
    (r.msgLen < r.got.length + x.payload.length ∨ (x.last = true ∧ r.got.length + x.payload.length < r.msgLen) →
      s.assemble p x = (s.dropAssembly x.src x.cls).countLost) ∧
    (x.last = false → r.got.length + x.payload.length ≤ r.msgLen → (s.assemble p x).fabric.reassembly =
      (s.dropAssembly x.src x.cls).fabric.reassembly ++ [{ r with got := r.got ++ x.payload, last := s.clock }]) := by
  rw [assemble_grows p hf h hi ht ho hl]
  refine ⟨fun hx hw => ?_, fun hw => ?_, fun hx hw => ?_⟩
  · rw [growAssembly_whole p hx hw]
    rfl
  · rcases hw with hw | ⟨hx, hw⟩
    · exact growAssembly_over p hw
    · exact growAssembly_short p hx hw
  · rw [growAssembly_goesOn p hx hw]
    rfl

/-! #### Queues, UNREACHABLE and the timers -/

theorem enqueue_held (q : Nat) (h : (s.fabric.held.any (sameFlow x) || s.flowElsewhere q x) = true) :
    s.enqueue q x = { s with fabric.held := s.fabric.held ++ [x] } := if_pos h

theorem enqueue_queued (q : Nat) (h : (s.fabric.held.any (sameFlow x) || s.flowElsewhere q x) = false) :
    s.enqueue q x = s.updVievo q fun y => { y with queues := y.queues.put x.cls (y.queues.getD x.cls [] ++ [{ packet := x, since := s.clock }]) } :=
  if_neg (ne_true_of_eq_false h)

/-- The UNREACHABLE messages sent within the last second. -/
def State.recentUnreach (s : State) : List (Nat × Nat) := s.fabric.unreachSent.filter fun e => s.clock < e.2 + 1000000000

/-- The body of UNREACHABLE (R403). -/
def unreachBody (x : FabPacket) (r : Nat) : Bytes := leBytes 4 x.msgId ++ leBytes 2 x.dst ++ leBytes 1 r ++ leBytes 1 x.type ++ zeros 8

theorem unreachable_row (r : Nat) : s.unreachable x r = if x.src == s.nodeId then
      { s with fabric.inbox := s.fabric.inbox ++ [{ type := 3, cls := 0, src := s.nodeId, tenant := 0, port := 0, body := unreachBody x r }] }
    else if 1000 ≤ (s.recentUnreach.filter (·.1 == x.src)).length then s
    else ({ s with fabric.unreachSent := (x.src, s.clock) :: s.recentUnreach } : State).post x.src 3 0 0 true (unreachBody x r) := rfl

theorem unreachable_own (r : Nat) (h : x.src = s.nodeId) : s.unreachable x r =
    { s with fabric.inbox := s.fabric.inbox ++ [{ type := 3, cls := 0, src := s.nodeId, tenant := 0, port := 0, body := unreachBody x r }] } := by
  rw [unreachable_row, if_pos (beq_iff_eq.mpr h)]

theorem unreachable_other (r : Nat) (h : x.src ≠ s.nodeId) :
    (1000 ≤ (s.recentUnreach.filter (·.1 == x.src)).length → s.unreachable x r = s) ∧
    ((s.recentUnreach.filter (·.1 == x.src)).length < 1000 → s.unreachable x r =
      ({ s with fabric.unreachSent := (x.src, s.clock) :: s.recentUnreach } : State).post x.src 3 0 0 true (unreachBody x r)) := by
  rw [unreachable_row, if_neg (mt beq_iff_eq.mp h)]
  exact ⟨fun hn => if_pos hn, fun hn => if_neg (Nat.not_le.mpr hn)⟩

end

theorem reassemblyTimeout_none {src : Half} {c : Fin 7} (h : s.assembly src.toNat c = none) : exec (.reassemblyTimeout src c) s = .next s := by
  show execReassemblyTimeout src c s = _
  rw [execReassemblyTimeout, h]

theorem reassemblyTimeout_some {src : Half} {c : Fin 7} {r : Reassembly} (h : s.assembly src.toNat c = some r) :
    exec (.reassemblyTimeout src c) s = .next (if r.last + 1000000 ≤ s.clock then (s.dropAssembly src.toNat c).countLost else s) := by
  show execReassemblyTimeout src c s = _
  rw [execReassemblyTimeout, h]

theorem reassemblyTimeout_over {src : Half} {c : Fin 7} {r : Reassembly} (h : s.assembly src.toNat c = some r) (hl : r.last + 1000000 ≤ s.clock) :
    ∃ u, exec (.reassemblyTimeout src c) s = .next u ∧ u.assembly src.toNat c = none ∧ u.fabric.lost = min (s.fabric.lost + 1) 0xFFFFFFFF := by
  rw [reassemblyTimeout_some h, if_pos hl]
  exact ⟨_, rfl, assembly_dropAssembly src.toNat c s, rfl⟩

/-- The violations of a port within the last second. -/
def State.recentViolations (p : Nat) (s : State) : List Nat := (s.vievo p).violations.filter fun t => s.clock < t + 1000000000

theorem protocolViolationHold_row : exec (.protocolViolationHold p) s = .next (
    if 10000 ≤ (s.recentViolations p).length && (s.vievo p).state != .down && (s.vievo p).state != .held then
      (s.holdPort p 5).updVievo p fun x => { x with violations := [] }
    else s) := rfl

theorem protocolViolationHold_holds (hl : s.fabric.ports.length = 32) (hn : 10000 ≤ (s.recentViolations p).length) (hd : (s.vievo p).state ≠ .down)
    (hh : (s.vievo p).state ≠ .held) : ∃ u, exec (.protocolViolationHold p) s = .next u ∧ u.vievo p =
      { s.vievo p with state := .held, heldReason := 5, since := s.clock, kex := false, kexIn := [], kexOut := none, violations := [] } := by
  rw [protocolViolationHold_row, if_pos (by rw [decide_eq_true hn, bne_iff_ne.mpr hd, bne_iff_ne.mpr hh]; rfl)]
  refine ⟨_, rfl, ?_⟩
  rw [State.holdPort, updVievo_updVievo, updVievo_vievo _ (port_lt hl p)]

theorem protocolViolationHold_not (h : (s.recentViolations p).length < 10000 ∨ (s.vievo p).state = .down ∨ (s.vievo p).state = .held) :
    exec (.protocolViolationHold p) s = .next s := by
  rw [protocolViolationHold_row, if_neg]
  simp only [Bool.and_eq_true, decide_eq_true_eq, bne_iff_ne]
  rintro ⟨⟨h1, h2⟩, h3⟩
  rcases h with h | h | h
  · omega
  · exact h2 h
  · exact h3 h

theorem packetAged_none {c : Fin 7} (h : (s.vievo p).queues.getD c [] = []) : exec (.packetAged p c) s = .next s := by
  show execPacketAged p c s = _
  rw [execPacketAged, h]

theorem packetAged_some {c : Fin 7} {q : Queued} {rest : List Queued} (h : (s.vievo p).queues.getD c [] = q :: rest) : exec (.packetAged p c) s = .next (
    if q.since + 2000000 ≤ s.clock then
      ((s.updVievo p fun x => { x with queues := x.queues.put c rest }).countDrop.unreachable q.packet 3).releaseHeld
    else s) := by
  show execPacketAged p c s = _
  rw [execPacketAged, h]

end

/-! #### Egress turns (R409, R410) -/

/-- A port has sent `n` frames of a kind, under consecutive FSEQs, and its replay buffer keeps each. -/
structure Port.FramesSent (kind n : Nat) (x y : Port) : Prop where
  txSeq : y.txSeq = x.txSeq + n
  rxSeq : y.rxSeq = x.rxSeq
  arrived : y.arrived = x.arrived
  gates : y.gates = x.gates
  old : ∀ q, q ≤ x.txSeq → y.replay.find q = x.replay.find q
  sent : ∀ q, x.txSeq < q → q ≤ y.txSeq → ∃ b, y.replay.find q = some ⟨kind, b⟩
  none : n = 0 → y.ackSent = x.ackSent ∧ y.owed = x.owed

/-- `n` packets have left the head of a class's queue; no other class has moved, nor its deficit. -/
structure Port.ClassSent (c n : Nat) (x y : Port) : Prop where
  queue : y.queues.getD c [] = (x.queues.getD c []).drop n
  queues : ∀ d, d ≠ c → y.queues.getD d [] = x.queues.getD d []
  deficits : ∀ d, d ≠ c → y.deficits.getD d 0 = x.deficits.getD d 0
  turn : y.turn = x.turn

/-- What sending `n` packets of a class does to a port. -/
def Port.Sent (c n : Nat) (x y : Port) : Prop := x.FramesSent 1 n y ∧ x.ClassSent c n y

section
variable {x y z : Port} {kind c n k now : Nat}

theorem Port.FramesSent.of_eq (h1 : y.txSeq = x.txSeq) (h2 : y.rxSeq = x.rxSeq) (h3 : y.arrived = x.arrived) (h4 : y.gates = x.gates)
    (h5 : y.replay = x.replay) (h6 : y.ackSent = x.ackSent) (h7 : y.owed = x.owed) : x.FramesSent kind 0 y :=
  ⟨h1, h2, h3, h4, fun q _ => by rw [h5], fun q hl hu => absurd hl (by omega), fun _ => ⟨h6, h7⟩⟩

theorem Port.FramesSent.trans (h : x.FramesSent kind n y) (g : y.FramesSent kind k z) : x.FramesSent kind (n + k) z where
  txSeq := by rw [g.txSeq, h.txSeq, Nat.add_assoc]
  rxSeq := g.rxSeq.trans h.rxSeq
  arrived := g.arrived.trans h.arrived
  gates := g.gates.trans h.gates
  old q hq := (g.old q (by rw [h.txSeq]; omega)).trans (h.old q hq)
  sent q hl hu := by
    rcases Nat.lt_or_ge y.txSeq q with hy | hy
    · exact g.sent q hy hu
    · rw [g.old q hy]
      exact h.sent q hl hy
  none e := by
    obtain ⟨ha, ho⟩ := h.none (by omega)
    obtain ⟨ga, go⟩ := g.none (by omega)
    exact ⟨ga.trans ha, go.trans ho⟩

theorem Port.ClassSent.trans (h : x.ClassSent c n y) (g : y.ClassSent c k z) : x.ClassSent c (n + k) z where
  queue := by rw [g.queue, h.queue, List.drop_drop]
  queues d hd := (g.queues d hd).trans (h.queues d hd)
  deficits d hd := (g.deficits d hd).trans (h.deficits d hd)
  turn := g.turn.trans h.turn

theorem Port.Sent.trans (h : x.Sent c n y) (g : y.Sent c k z) : x.Sent c (n + k) z := ⟨h.1.trans g.1, h.2.trans g.2⟩

theorem Port.Sent.refl (x : Port) : x.Sent c 0 x := ⟨.of_eq rfl rfl rfl rfl rfl rfl rfl, ⟨rfl, fun _ _ => rfl, fun _ _ => rfl, rfl⟩⟩

theorem sendFrame_framesSent (now kind cls : Nat) (packet : Bytes) (x : Port) : x.FramesSent kind 1 (x.sendFrame now kind cls packet) where
  txSeq := rfl
  rxSeq := rfl
  arrived := rfl
  gates := rfl
  old q hq := Tab.find_put_ne _ _ _ _ (by omega)
  sent q hl hu := by
    obtain rfl : q = x.txSeq + 1 := Nat.le_antisymm hu hl
    exact ⟨_, sendFrame_replay_find now kind cls packet x⟩
  none h := absurd h Nat.one_ne_zero

/-- The head of a class's queue goes out. -/
theorem sendHead_sent {q : Queued} {rest : List Queued} (h : x.queues.getD c [] = q :: rest) : x.Sent c 1 (sendHead now c x) := by
  have e : sendHead now c x = { x.sendFrame now 1 c (packetBytes q.packet) with queues := x.queues.put c rest } := by rw [sendHead, h]
  have f := sendFrame_framesSent now 1 c (packetBytes q.packet) x
  rw [e]
  refine ⟨⟨f.txSeq, f.rxSeq, f.arrived, f.gates, f.old, f.sent, f.none⟩, ⟨?_, fun d hd => Tab.getD_put_ne _ _ _ _ _ hd, fun _ _ => rfl, rfl⟩⟩
  rw [h]
  exact Tab.getD_put ..

theorem sendHead_deficits : (sendHead now c x).deficits = x.deficits := by
  unfold sendHead
  split <;> rfl

/-- A port with a deficit of a class changed. -/
def Port.withDeficit (c d : Nat) (x : Port) : Port := { x with deficits := x.deficits.put c d }

theorem withDeficit_deficit (d : Nat) : (x.withDeficit c d).deficits.getD c 0 = d := Tab.getD_put ..

/-- A change of a class's own deficit sends nothing. -/
theorem withDeficit_sent (d : Nat) : x.Sent c 0 (x.withDeficit c d) :=
  ⟨.of_eq rfl rfl rfl rfl rfl rfl rfl, ⟨rfl, fun _ _ => rfl, fun _ hd => Tab.getD_put_ne _ _ _ _ _ hd, rfl⟩⟩

theorem sendClass0_sent (now n : Nat) (x : Port) : ∃ k, x.Sent 0 k (sendClass0 now n x) := by
  induction n generalizing x with
  | zero => exact ⟨0, .refl x⟩
  | succ n ih =>
    unfold sendClass0
    split
    · exact ⟨0, .refl x⟩
    · next h =>
      split
      · exact ⟨0, .refl x⟩
      · obtain ⟨k, hk⟩ := ih (sendHead now 0 x)
        exact ⟨1 + k, (sendHead_sent h).trans hk⟩

/-- Sending while the deficit allows spends it. -/
theorem sendWhile_sent (now c o n left : Nat) (x : Port) :
    ∃ k, x.Sent c k (sendWhile now c o n left x) ∧ (sendWhile now c o n left x).deficits.getD c 0 ≤ x.deficits.getD c 0 := by
  induction n generalizing left x with
  | zero => exact ⟨0, .refl x, Nat.le_refl _⟩
  | succ n ih =>
    unfold sendWhile
    split
    · exact ⟨0, .refl x, Nat.le_refl _⟩
    · next q rest h =>
      dsimp only
      split
      · let w := x.withDeficit c (x.deficits.getD c 0 - packetCost c o q.packet)
        have hw : w.Sent c 1 (sendHead now c w) := sendHead_sent h
        obtain ⟨k, hk, hd⟩ := ih (left - frameBytes q.packet) (sendHead now c w)
        refine ⟨0 + (1 + k), (withDeficit_sent _).trans (hw.trans hk), hd.trans ?_⟩
        rw [sendHead_deficits, withDeficit_deficit]
        exact Nat.sub_le ..
      · exact ⟨0, .refl x, Nat.le_refl _⟩

/-- A turn sends packets of its class only, none while its gate is closed, and leaves an open class's deficit at most twice its quantum. -/
theorem takeTurn_sent (clock now c : Nat) (x : Port) : ∃ k, x.Sent c k (takeTurn clock now c x) ∧ (openLeft c now x.gates = 0 → k = 0) ∧
    (openLeft c now x.gates ≠ 0 → (takeTurn clock now c x).deficits.getD c 0 ≤ 2 * quantumOf x.gates c) := by
  unfold takeTurn
  dsimp only
  split
  · exact ⟨0, withDeficit_sent 0, fun _ => rfl, fun _ => (withDeficit_deficit (x := x) 0).trans_le (Nat.zero_le _)⟩
  · split
    · next h => exact ⟨0, .refl x, fun _ => rfl, fun k => absurd h k⟩
    · next h =>
      obtain ⟨k, hk, hd⟩ := sendWhile_sent clock c x.gates.overhead (x.queues.getD c []).length (openLeft c now x.gates * portRate x)
        (x.withDeficit c (min (x.deficits.getD c 0 + quantumOf x.gates c) (2 * quantumOf x.gates c)))
      split
      · exact ⟨0 + k + 0, ((withDeficit_sent _).trans hk).trans (withDeficit_sent 0), fun e => absurd e h,
          fun _ => (withDeficit_deficit 0).trans_le (Nat.zero_le _)⟩
      · exact ⟨0 + k, (withDeficit_sent _).trans hk, fun e => absurd e h,
          fun _ => hd.trans ((withDeficit_deficit _).trans_le (Nat.min_le_right ..))⟩

/-- What the packets of an egress turn leave: `k0` of class 0 ahead of the turn, then `k` of the turn's class. -/
structure Port.TurnSent (now k0 k : Nat) (x y : Port) : Prop where
  frames : x.FramesSent 1 (k0 + k) y
  turn : y.turn = x.turn
  apart : x.turn ≠ 0 → y.queues.getD 0 [] = (x.queues.getD 0 []).drop k0 ∧ y.queues.getD x.turn [] = (x.queues.getD x.turn []).drop k
  zero : x.turn = 0 → y.queues.getD 0 [] = (x.queues.getD 0 []).drop (k0 + k)
  others : ∀ c, c ≠ 0 → c ≠ x.turn → y.queues.getD c [] = x.queues.getD c [] ∧ y.deficits.getD c 0 = x.deficits.getD c 0
  closed : openLeft x.turn now x.gates = 0 → k = 0
  bound : openLeft x.turn now x.gates ≠ 0 → y.deficits.getD x.turn 0 ≤ 2 * quantumOf x.gates x.turn

theorem turnSent_of_sent {k0 : Nat} (h : x.Sent 0 k0 y) (g : y.Sent x.turn k z) (hc : openLeft x.turn now x.gates = 0 → k = 0)
    (hb : openLeft x.turn now x.gates ≠ 0 → z.deficits.getD x.turn 0 ≤ 2 * quantumOf x.gates x.turn) : x.TurnSent now k0 k z where
  frames := h.1.trans g.1
  turn := g.2.turn.trans h.2.turn
  apart ht := ⟨(g.2.queues 0 (Ne.symm ht)).trans h.2.queue, by rw [g.2.queue, h.2.queues _ ht]⟩
  zero ht := by
    have q := g.2.queue
    rw [ht] at q
    rw [q, h.2.queue, List.drop_drop]
  others c h0 ht := ⟨(g.2.queues c ht).trans (h.2.queues c h0), (g.2.deficits c ht).trans (h.2.deficits c h0)⟩
  closed := hc
  bound := hb

/-- A port that remembers what class 0 sent within the last 100 µs. -/
def Port.class0Kept (clock : Nat) (x : Port) : Port := { x with class0 := x.class0.filter fun e => clock < e.1 + 100000 }

/-- A port once class 0 has gone ahead. -/
def Port.class0Out (clock : Nat) (x : Port) : Port := sendClass0 clock (x.queues.getD 0 []).length (x.class0Kept clock)

theorem class0Out_sent (clock : Nat) (x : Port) : ∃ k0, x.Sent 0 k0 (x.class0Out clock) := by
  have kept : x.Sent 0 0 (x.class0Kept clock) := ⟨.of_eq rfl rfl rfl rfl rfl rfl rfl, ⟨rfl, fun _ _ => rfl, fun _ _ => rfl, rfl⟩⟩
  obtain ⟨k0, h⟩ := sendClass0_sent clock (x.queues.getD 0 []).length (x.class0Kept clock)
  exact ⟨0 + k0, kept.trans h⟩

/-- A port once the packets of its egress turn have gone out. -/
def Port.packetsOut (clock now : Nat) (x : Port) : Port := takeTurn clock now (x.class0Out clock).turn (x.class0Out clock)

theorem packetsOut_sent (clock now : Nat) (x : Port) : ∃ k0 k, x.TurnSent now k0 k (x.packetsOut clock now) := by
  obtain ⟨k0, h⟩ := class0Out_sent clock x
  obtain ⟨k, hk, hc, hb⟩ := takeTurn_sent clock now x.turn (x.class0Out clock)
  rw [h.1.gates] at hc hb
  have e : x.packetsOut clock now = takeTurn clock now x.turn (x.class0Out clock) := by rw [Port.packetsOut, h.2.turn]
  rw [e]
  exact ⟨k0, k, turnSent_of_sent h hk hc hb⟩

/-- The turn passes to the class that follows. -/
def Port.nextClass (clock : Nat) (x : Port) : Port := { x with turn := nextTurn clock x.turn x }

/-- A port after its egress turn: the next class's turn follows, and an IDLE frame carries what is owed where no packet went. -/
def Port.egress (clock now : Nat) (x : Port) : Port :=
  let z := (x.packetsOut clock now).nextClass clock
  if z.txSeq == x.txSeq && z.owes then z.sendFrame clock 0 0 [] else z

theorem nextTurn_next (now : Nat) (x : Port) (h : c < 6) : nextTurn now c x = c + 1 := if_neg (by omega)

theorem nextTurn_last (now : Nat) (x : Port) : nextTurn now 6 x ≤ 1 := by
  rw [nextTurn, if_pos rfl]
  split <;> omega

theorem nextClass_turn (clock : Nat) (h : y.turn = c) : (c < 6 → (y.nextClass clock).turn = c + 1) ∧ (c = 6 → (y.nextClass clock).turn ≤ 1) := by
  subst h
  refine ⟨nextTurn_next clock y, fun e => ?_⟩
  rw [Port.nextClass, e]
  exact nextTurn_last clock y

/-- Nothing sent, a port owes what it owed. -/
theorem owes_of_none (h : x.FramesSent kind 0 y) : y.owes = (x.ackSent < x.rxSeq || x.owed.any (0 < ·)) := by
  obtain ⟨ha, ho⟩ := h.none rfl
  rw [Port.owes, ha, ho, h.rxSeq]

/-- The frames of an egress turn: `k0 + k` packets, or one IDLE frame where none went and something is owed. -/
theorem egress_leaves (clock now : Nat) (x : Port) : ∃ k0 k i, (i ≤ 1 ∧ (i = 1 ↔ k0 = 0 ∧ k = 0 ∧ (x.ackSent < x.rxSeq || x.owed.any (0 < ·)) = true)) ∧
    (x.egress clock now).txSeq = x.txSeq + k0 + k + i ∧ (x.egress clock now).rxSeq = x.rxSeq ∧ (x.egress clock now).arrived = x.arrived ∧
    (x.egress clock now).gates = x.gates ∧
    (x.turn ≠ 0 → (x.egress clock now).queues.getD 0 [] = (x.queues.getD 0 []).drop k0 ∧
      (x.egress clock now).queues.getD x.turn [] = (x.queues.getD x.turn []).drop k) ∧
    (x.turn = 0 → (x.egress clock now).queues.getD 0 [] = (x.queues.getD 0 []).drop (k0 + k)) ∧
    (∀ c, c ≠ 0 → c ≠ x.turn → (x.egress clock now).queues.getD c [] = x.queues.getD c [] ∧
      (x.egress clock now).deficits.getD c 0 = x.deficits.getD c 0) ∧
    (x.turn ≠ 0 → openLeft x.turn now x.gates = 0 → k = 0) ∧
    (openLeft x.turn now x.gates ≠ 0 → (x.egress clock now).deficits.getD x.turn 0 ≤ 2 * quantumOf x.gates x.turn) ∧
    (∀ q, q ≤ x.txSeq → (x.egress clock now).replay.find q = x.replay.find q) ∧
    (∀ q, x.txSeq < q → q ≤ (x.egress clock now).txSeq → ∃ b, (x.egress clock now).replay.find q = some ⟨1 - i, b⟩) ∧
    (x.turn < 6 → (x.egress clock now).turn = x.turn + 1) ∧ (x.turn = 6 → (x.egress clock now).turn ≤ 1) := by
  obtain ⟨k0, k, h⟩ := packetsOut_sent clock now x
  unfold Port.egress
  dsimp only
  generalize x.packetsOut clock now = y at h ⊢
  have frames := h.frames
  obtain ⟨hnext, hlast⟩ := nextClass_turn clock h.turn
  have hz : (y.nextClass clock).txSeq = x.txSeq + (k0 + k) := frames.txSeq
  split
  · next hi =>
    obtain ⟨same, owing⟩ := Bool.and_eq_true_iff.mp hi
    have sent0 : k0 + k = 0 := by
      have := beq_iff_eq.mp same
      omega
    rw [sent0] at frames
    have owed := (owes_of_none frames).symm.trans owing
    have idle := sendFrame_framesSent clock 0 0 [] (y.nextClass clock)
    refine ⟨k0, k, 1, ⟨Nat.le_refl 1, fun _ => ⟨by omega, by omega, owed⟩, fun _ => rfl⟩, ?_, frames.rxSeq, frames.arrived, frames.gates, h.apart, h.zero,
      h.others, fun _ => h.closed, h.bound, fun q hq => ?_, fun q hl hu => idle.sent q (by omega) hu, hnext, hlast⟩
    · rw [idle.txSeq]
      omega
    · exact (idle.old q (by omega)).trans (frames.old q hq)
  · next hi =>
    refine ⟨k0, k, 0, ⟨Nat.zero_le 1, nofun, fun ⟨e0, e1, owed⟩ => absurd ?_ hi⟩, by omega, frames.rxSeq, frames.arrived, frames.gates, h.apart, h.zero,
      h.others, fun _ => h.closed, h.bound, frames.old, frames.sent, hnext, hlast⟩
    rw [e0, e1] at frames
    exact Bool.and_eq_true_iff.mpr ⟨beq_iff_eq.mpr (by omega), (owes_of_none frames).trans owed⟩

end

section
variable {p : Fin 32} {s : State}

theorem egressTurn_row : exec (.egressTurn p) s = .next (
    if !s.serving || !portOpen (s.vievo p) then s
    else ((s.updVievo p fun _ => (s.vievo p).egress s.clock s.fabTime).emitFrames p (s.vievo p).txSeq).releaseHeld) := rfl

theorem egressTurn_not (h : s.serving = false ∨ portOpen (s.vievo p) = false) : exec (.egressTurn p) s = .next s := by
  rw [egressTurn_row, if_pos]
  rcases h with h | h <;> simp [h]

theorem egressTurn_sends (hs : s.serving = true) (ho : portOpen (s.vievo p) = true) : exec (.egressTurn p) s =
    .next ((s.updVievo p fun _ => (s.vievo p).egress s.clock s.fabTime).emitFrames p (s.vievo p).txSeq).releaseHeld := by
  rw [egressTurn_row, hs, ho]
  rfl

end

/-- Settles O56: reception and forwarding by the checks of a packet, reassembly by what its flow has there, and an egress turn by the frames and the queues
that its sends leave. -/
theorem packets : Obligations.Packets := by
  unfold Obligations.Packets
  intro p s hl
  refine ⟨takePacket_none_iff, fun b rest => takePacket_some, fun h => ?nothing, fun b t h hs => ?taken,
    fun x h hf hn hb => assemble_begun h hf hn hb, fun x h hf hn => assemble_full p h hf hn, fun x hf r h => assemble_restarts p hf h,
    fun x hf => ⟨assemble_stray p hf, fun r h hi ht hg => assemble_gap p hf h hi ht hg, fun r h hi => assemble_foreign p hf h hi,
      fun r h hi ht ho hm => assemble_next hf h hi ht ho hm⟩,
    fun q x => ⟨enqueue_held q, enqueue_queued q⟩, fun x r => ⟨unreachable_own r, unreachable_other r⟩,
    fun src c => ⟨reassemblyTimeout_none, fun r h => ⟨fun ht => ?early, reassemblyTimeout_over h⟩⟩,
    ⟨protocolViolationHold_holds hl, protocolViolationHold_not⟩,
    fun c => ⟨packetAged_none, fun q rest h => ?aged⟩, egressTurn_not, fun hs ho => ?egress, fun _ => rfl⟩
  case nothing =>
    rcases h with h | h
    · exact ⟨messageReceive_none h, packetForward_none h⟩
    · exact ⟨messageReceive_stopped h, packetForward_stopped h⟩
  case taken =>
    obtain ⟨l, e⟩ := takePacket_ports h
    refine ⟨fun hc => ⟨packetForward_not h (.inl hc), _, messageReceive_crc h hs hc, ?_⟩,
      fun hc hf => ⟨packetForward_not h (.inr (.inl hf)), messageReceive_broken h hs hc hf⟩, fun hc hf hm => ?_, fun hc hf hm => ?_⟩
    · obtain ⟨h1, h2, h3⟩ := crcFails_leaves p (readPacket b) t
      subst e
      exact ⟨h1, h2, h3, _, rfl⟩
    · rw [messageReceive_forMe h hs hc hf hm]
      exact ⟨packetForward_not h (.inr (.inr hm)), fun k => congrArg Host.Outcome.next (receive_fenced k),
        fun k a => congrArg Host.Outcome.next (receive_refused k a), fun k a => congrArg Host.Outcome.next (receive_accepted k a)⟩
    · rw [packetForward_other h hs hc hf hm]
      refine ⟨messageReceive_other h hs hc hf hm, fun k => congrArg Host.Outcome.next (passOn_fenced k),
        fun k a => congrArg Host.Outcome.next (passOn_refused k a), fun k a => ?_⟩
      obtain ⟨h1, h2, h3⟩ := passOn_accepted k a
      exact ⟨fun hh => congrArg Host.Outcome.next (h1 hh), fun hh hq => congrArg Host.Outcome.next (h2 hh hq),
        fun hh q hq => congrArg Host.Outcome.next (h3 hh q hq)⟩
  case early => rw [reassemblyTimeout_some h, if_neg (Nat.not_le.mpr ht)]
  case aged =>
    rw [packetAged_some h]
    exact ⟨fun ht => congrArg Host.Outcome.next (if_neg (Nat.not_le.mpr ht)), fun ht => congrArg Host.Outcome.next (if_pos ht)⟩
  case egress =>
    obtain ⟨k0, k, i, rest⟩ := egress_leaves s.clock s.fabTime (s.vievo p)
    exact ⟨_, k0, k, i, egressTurn_sends hs ho, rest⟩

end Sys2Proof.Machine
